-- ==== Sys2Proof/Word.lean ====
section
/-! DEFINITION. The machine words of the GB7 module and their plainest arithmetic. -/

namespace Sys2Proof

/-- A byte of any of the module's memories. -/
abbrev Byte := BitVec 8

/-- A 32-bit register of a register block. -/
abbrev Word32 := BitVec 32

/-- A general register of a core, and a fence value. -/
abbrev Word64 := BitVec 64

/-- A tile descriptor (R74): 32 bytes. -/
abbrev Word256 := BitVec 256

end Sys2Proof
end

