-- ==== Sys2Proof/Machine/Base.lean ====
section
/-! DEFINITION. Sparse tables, sparse byte memories and the bit-field and byte-order helpers that the state and
every operation use. -/

namespace Sys2Proof.Machine

/-! ### Tables: what a numbered set of like things holds, listed by number -/

/-- The entries of a numbered set that differ from the set's default, in rising order of number. -/
abbrev Tbl (α : Type) := List (Nat × α)

/-- The entry of number `k`, `d` where none is listed. -/
def Tbl.get {α : Type} (d : α) : Tbl α → Nat → α
  | [], _ => d
  | (j, v) :: r, k => if j = k then v else Tbl.get d r k

/-- The entry of number `k`, if one is listed. -/
def Tbl.find {α : Type} : Tbl α → Nat → Option α
  | [], _ => none
  | (j, v) :: r, k => if j = k then some v else Tbl.find r k

/-- Write the entry of number `k`, keeping the rising order. -/
def Tbl.set {α : Type} : Tbl α → Nat → α → Tbl α
  | [], k, v => [(k, v)]
  | (j, w) :: r, k, v =>
    if k < j then (k, v) :: (j, w) :: r
    else if j = k then (k, v) :: r
    else (j, w) :: Tbl.set r k v

/-- Take the entry of number `k` away. -/
def Tbl.del {α : Type} (t : Tbl α) (k : Nat) : Tbl α :=
  t.filter fun e => e.1 ≠ k

/-- Change the entry of number `k` by `f`. -/
def Tbl.mod {α : Type} (d : α) (t : Tbl α) (k : Nat) (f : α → α) : Tbl α :=
  Tbl.set t k (f (Tbl.get d t k))

/-! ### Byte memories -/

/-- A byte memory: the bytes that are not zero, in strictly rising order of address. -/
abbrev Mem := List Host.Cell

/-- What an unlisted byte of a memory reads as (assumption 1). -/
def Mem.unlisted : Byte := 0

/-- One byte. -/
def Mem.read : Mem → Nat → Byte
  | [], _ => Mem.unlisted
  | (j, v) :: r, a => if j = a then v else Mem.read r a

/-- Insert a byte in its place in the order of addresses. -/
def Mem.insert (a : Nat) (b : Byte) : Mem → Mem
  | [] => [(a, b)]
  | (j, v) :: r => if a < j then (a, b) :: (j, v) :: r else (j, v) :: Mem.insert a b r

/-- Take a byte out of the listing. -/
def Mem.erase (a : Nat) : Mem → Mem
  | [] => []
  | (j, v) :: r => if j = a then Mem.erase a r else (j, v) :: Mem.erase a r

/-- Write one byte; writing what an unlisted byte reads as takes the entry away. -/
def Mem.write (m : Mem) (a : Nat) (b : Byte) : Mem :=
  if b = Mem.unlisted then Mem.erase a m else Mem.insert a b (Mem.erase a m)

/-- Every listed address is above `lo`, in strictly rising order, and no listed byte is the unlisted one. -/
def Mem.risingFrom (lo : Nat) : Mem → Bool
  | [] => true
  | (a, b) :: r => decide (lo ≤ a) && (b != Mem.unlisted) && Mem.risingFrom (a + 1) r

/-- The canonical form of a byte memory. -/
def Mem.wf (m : Mem) : Bool := Mem.risingFrom 0 m

/-- `n` bytes from address `a`, lowest address first. -/
def Mem.readBytes (m : Mem) (a : Nat) : Nat → List Byte
  | 0 => []
  | n + 1 => Mem.read m a :: Mem.readBytes m (a + 1) n

/-- Write bytes from address `a`, the first at the lowest address. -/
def Mem.writeBytes (m : Mem) (a : Nat) : List Byte → Mem
  | [] => m
  | b :: bs => Mem.writeBytes (Mem.write m a b) (a + 1) bs

/-- The number that bytes spell, the first the least significant (every multi-byte field is little-endian, R9). -/
def leNat : List Byte → Nat
  | [] => 0
  | b :: bs => b.toNat + 256 * leNat bs

/-- The `n` bytes of a number, least significant first. -/
def leBytes (v : Nat) : Nat → List Byte
  | 0 => []
  | n + 1 => BitVec.ofNat 8 (v % 256) :: leBytes (v / 256) n

/-- `n` bytes from address `a` as one little-endian number. -/
def Mem.readLE (m : Mem) (a n : Nat) : Nat := leNat (Mem.readBytes m a n)

/-- Store a number as `n` little-endian bytes from address `a`. -/
def Mem.writeLE (m : Mem) (a n v : Nat) : Mem := Mem.writeBytes m a (leBytes v n)

/-! ### Bit fields -/

/-- Bits `hi` to `lo` of a number. -/
def bits (v hi lo : Nat) : Nat := (v / 2 ^ lo) % 2 ^ (hi + 1 - lo)

/-- One bit of a number. -/
def bit (v i : Nat) : Bool := v.testBit i

/-- `v` with bits `hi` to `lo` replaced by the low bits of `x`. -/
def setBits (v hi lo x : Nat) : Nat :=
  v - bits v hi lo * 2 ^ lo + (x % 2 ^ (hi + 1 - lo)) * 2 ^ lo

/-- A bit as a number. -/
def b2n (b : Bool) : Nat := if b then 1 else 0

/-- A number of `w` bits read as two's complement. -/
def toSigned (w v : Nat) : Int :=
  if v % 2 ^ w < 2 ^ (w - 1) then ((v % 2 ^ w : Nat) : Int) else ((v % 2 ^ w : Nat) : Int) - (2 ^ w : Nat)

/-- An integer modulo `2 ^ w` as a number. -/
def ofSigned (w : Nat) (i : Int) : Nat := (i % ((2 ^ w : Nat) : Int)).toNat

/-- Division rounded up. -/
def ceilDiv (a b : Nat) : Nat := (a + b - 1) / b

/-- Round up to a multiple of `b`. -/
def roundUp (a b : Nat) : Nat := ceilDiv a b * b

/-- The position of the highest one of a number, 0 for 0. -/
def bitLen (v : Nat) : Nat := if v = 0 then 0 else Nat.log2 v + 1

/-! ### Lists used as queues and as small sets -/

/-- The numbers in a list, each once, in rising order. -/
def insertSorted (k : Nat) : List Nat → List Nat
  | [] => [k]
  | j :: r => if k < j then k :: j :: r else if k = j then j :: r else j :: insertSorted k r

/-- The first element that satisfies `p`, with the rest of the list in its order. -/
def takeFirst {α : Type} (p : α → Bool) : List α → Option (α × List α)
  | [] => none
  | a :: r => if p a then some (a, r) else (takeFirst p r).map fun q => (q.1, a :: q.2)

/-- Replace the element at index `i`. -/
def setAt {α : Type} : List α → Nat → α → List α
  | [], _, _ => []
  | _ :: r, 0, v => v :: r
  | a :: r, i + 1, v => a :: setAt r i v

/-- The numbers `lo`, `lo + 1`, … of a range of `n`. -/
def rangeFrom (lo : Nat) : Nat → List Nat
  | 0 => []
  | n + 1 => lo :: rangeFrom (lo + 1) n

/-- The longest run of a list's first elements that is at most `n` long, with the rest: chunks of `n`. -/
def chunks {α : Type} (n : Nat) : Nat → List α → List (List α)
  | 0, _ => []
  | _, [] => []
  | fuel + 1, l => l.take n :: chunks n fuel (l.drop n)

end Sys2Proof.Machine
end

