-- ==== Sys2Proof/Config.lean ====
section
/-! DEFINITION. What the specification leaves open: free values, none of which has a body. A constant of this file is
applied to the operands it depends on, or to the model's own counter of free values. -/

namespace Sys2Proof

/-- A key's identity: what two installs share when a block sealed under one opens under the other. Random keys
(PARTITION and CONTEXT, R397) are told apart by the number of their drawing. -/
inductive KeyId where
  /-- The MODULE key (Table 13-8): derived from the value of the life-cycle root in an OTP slot. Roots of different slots are told apart
  even where the model holds no value for them. -/
  | modstore (slot : Nat) (root : BitVec 384)
  | random (serial : Nat)
  | material (m : BitVec 256)
deriving DecidableEq, Repr

namespace Config

/-- A fresh free value: `n` is the model's counter of free values. -/
opaque freeBits : (w n : Nat) → BitVec w

/-- Which of the contents that a granule had, the oldest numbered 0, a matrix instruction has read, where it was written meanwhile
(R109): `n` numbers the execution. -/
opaque tornRead : (n granule : Nat) → Nat

/-- Whether an ACCST writes a granule of its output after the accesses of other issuers that come in between (R109). -/
opaque tornWrite : (n granule : Nat) → Bool

/-- Whether the partition address space of a member on another module holds a range of `len` bytes at `lo` in map epoch `epoch`. -/
opaque peerHolds : (forme member epoch lo len : Nat) → Bool

/-- Whether a line of a member on another module lies in a CACHE region, on a channel that is far (R215): no message tells it. -/
opaque peerCaches : (forme member line : Nat) → Bool

/-- A fresh free truth value. -/
opaque freeBool : (n : Nat) → Bool

/-- One line of an encrypted block (R404): what a reader without permission is given. -/
opaque cipherLine : (key : KeyId) → (tweak : Nat) → (wepoch line : Nat) → (data : BitVec 512) → BitVec 512

/-- The plaintext whose encrypted line is `stored`. -/
opaque plainLine : (key : KeyId) → (tweak : Nat) → (wepoch line : Nat) → (stored : BitVec 512) → BitVec 512

/-- The three check symbols of a stored line and its LMETA (R184): a code of distance 4, whose equations are not stated. -/
opaque checkSymbols : (line : BitVec 512) → (lmeta : BitVec 16) → BitVec 48

/-- The tag of a block (R405), the first 8 bytes of the CMAC, of the plaintext whose ciphertext it is computed over. -/
opaque blockTag : (key : KeyId) → (handle tweak wepoch : Nat) → (lines : List (BitVec 512)) → BitVec 64

/-- One 64-bit word of AES-256-GCM ciphertext under a session (R413, R498): the session's serial number, the queue, the
direction, the counter, the word's place, and the plaintext word. -/
opaque gcmWord : (serial queue dir ctr place : Nat) → (plain : BitVec 64) → BitVec 64

/-- The GCM tag of a sealed frame, as two words. -/
opaque gcmTag : (serial queue dir ctr : Nat) → (aad plain : List (BitVec 64)) → BitVec 128

/-- Opening a sealed command frame (R497): the plaintext words, or `none` where the tag fails. -/
opaque gcmOpen : (serial queue ctr : Nat) → (aad cipher : List (BitVec 64)) → (tag : BitVec 128) → Option (List (BitVec 64))

/-- The bits of a vector function whose value Table 05-3 only bounds (R135), where they keep the bound: the opcode (Table 02-7's
code), the type's code, the modifier and the operand's bits. Every module gives the same. -/
opaque vecFn : (op dt modf x : Nat) → BitVec 32

/-- The scale byte that VSCALE32 writes for a negative amax, which R139 does not state. -/
opaque scaleOfNegative : (x target h : Nat) → BitVec 8

/-- Whether infinity times zero plus a quiet NaN is an invalid operation: IEEE 754-2019 leaves it open. -/
opaque fmaNanInvalid : Bool

/-- SHA-384 (FIPS 180-4) of bytes: which digests come out is not stated here. -/
opaque sha384 : List (BitVec 8) → BitVec 384

/-- Where the fixed permutation of R392 takes bit `i` of a masked slot's value from: it is built into the ROM and stated nowhere. -/
opaque maskBit : (i : Nat) → Nat

/-- The cached nodes of an identity generation's LMS tree in the boot flash (R422): which of them are cached is not stated. -/
opaque treeNodes : (n : Nat) → List (BitVec 8)

/-- Svettia's IANA private enterprise number (R513), which is not stated. -/
opaque enterprise : BitVec 32

/-- Opening a sealed Yelosh image (R414): the plaintext bytes, or `none` where the tag fails. -/
opaque imageOpen : (serial : Nat) → (iv aad cipher tag : List (BitVec 8)) → Option (List (BitVec 8))

/-- Static power of a cluster, in mW, at a junction temperature outside the table of Table 14-4: `t` is the temperature in °C, and
`edge` the nearest coefficient. -/
opaque staticOutside : (t edge : Nat) → Nat

/-- Svettia's MIPI manufacturer ID (Table 17-5), which is not stated. -/
opaque mipiId : BitVec 15

end Config

end Sys2Proof
end

