-- ==== Sys2Proof/Machine/Terms.lean ====
section
/-! DEFINITION. The terms that commands and the state are written in: names of the things of the module, and messages of
every kind as a receiver takes them. -/

namespace Sys2Proof

/-! ### Names -/

/-- A physical core, 0 to 191 (R22). -/
abbrev CoreId := Fin 192
/-- A cluster, 0 to 47 (R22). -/
abbrev ClusterId := Fin 48
/-- A die, 0 to 3 (R18). -/
abbrev DieId := Fin 4
/-- A global HBM channel, 0 to 383 (R18). -/
abbrev ChannelId := Fin 384
/-- A Mbamar link, 0 to 15 (R25). -/
abbrev LinkId := Fin 16
/-- An Ethernet port: 0 to 3 are EA0 to EA3, 4 to 7 are EB0 to EB3 (R26). -/
abbrev PortId := Fin 8
/-- A partition, 0 to 47 (R246). -/
abbrev PartId := Fin 48
/-- A queue, 0 to 8,191 (R290). -/
abbrev QueueId := Fin 8192
/-- A host connection, 0 to 255 (R479). -/
abbrev ConnId := Fin 256

/-- One of the three engines of a core (R48). -/
inductive EngineKind where
  | matrix | vector | move
deriving DecidableEq, Repr

/-- An instruction that executes: the matrix unit may execute several (R108), told apart by their place in its queue. -/
inductive Executing where
  | matrix (place : Fin 32)
  | vector
  | move
deriving DecidableEq, Repr

/-- The engine of an instruction that executes, and its place in the queue. -/
def Executing.engine : Executing → EngineKind × Nat
  | .matrix i => (.matrix, i.val)
  | .vector => (.vector, 0)
  | .move => (.move, 0)

/-! ### Bundle slots -/

/-- The token header of a slot (R49): the token waited on and the token posted. -/
structure Hdr where
  wait : Option (Fin 16)
  post : Option (Fin 16)
deriving DecidableEq, Repr

/-- The header of a slot that waits on nothing and posts nothing. -/
def Hdr.none : Hdr := ⟨Option.none, Option.none⟩

/-! ### What a request acts as -/

/-- A principal (R398): what a request at memory, a fence or a key acts as. `forme` is a peer request that arrived
unsealed and acts as no context, permitted only on the PARTITION keys of members of its forme (R420). -/
inductive Principal where
  | ctx (n : Nat)
  | conn (n : Nat)
  | module
  | forme (id : Nat)
  | nobody
deriving DecidableEq, Repr

/-- A request for one line of partition memory (R70, R187, R255). -/
structure MemReq where
  who : Principal
  part : PartId
  /-- Partition address; its low six bits are not used. -/
  addr : BitVec 40
  epoch : BitVec 4
  /-- The die of the unit that put the request into the fabric. -/
  die : DieId
  /-- The class label that the unit stamped (R323). -/
  cls : BitVec 3
deriving DecidableEq, Repr

/-! ### Control messages (R238) -/

/-- A control message between hubs, less its opcode (Table 08-3). `auth` is the context of the link key that
authenticated it on this module, 0 for none (R233). -/
structure CtrlMsg where
  status : BitVec 8
  ackReq : Bool
  srcMod : BitVec 16
  dstMod : BitVec 16
  srcClu : BitVec 6
  number : BitVec 32
  tag : BitVec 16
  ctx : BitVec 16
  value : BitVec 64
  auth : BitVec 16
deriving DecidableEq, Repr

/-! ### Plan records (R257) and compositor messages (R281) -/

/-- A plan header (Table 09-2); `rsv` holds when a reserved bit is set. -/
structure PlanHeader where
  version : Nat
  kind : Nat
  autoRestart : Bool
  expectEpoch : Nat
  nent : Nat
  formeId : Nat
  sweepRate : Nat
  drainLimit : Nat
  peerTimeout : Nat
  rsv : Bool
deriving DecidableEq, Repr

/-- A member entry (Tables 09-3 and 09-4). -/
structure PlanEntry where
  member : Nat
  fab : Nat
  part : Nat
  action : Nat
  memOnly : Bool
  clusters : BitVec 48
  channels : BitVec 384
  eI : Nat
  eN : Nat
  vcoreBase : Nat
  powerFrac : Nat
  linkShare : List Nat
  rsv : Bool
deriving DecidableEq, Repr

/-- A member-map entry of INSTALL (R283). -/
structure MapEntry where
  member : Nat
  fab : Nat
  part : Nat
  memOnly : Bool
  removed : Bool
deriving DecidableEq, Repr

/-- A renumbering entry (R276): `queue` is false for a context number. -/
structure Renumber where
  member : Nat
  old : Nat
  new : Nat
  queue : Bool
deriving DecidableEq, Repr

/-- The data lines of a compositor message, by the kind of entry they carry (R283). -/
inductive CompData where
  | none
  | plan (h : PlanHeader) (es : List PlanEntry)
  | install (es : List MapEntry)
  | moved (rs : List Renumber) (chunks lost : Nat)
  | fwdDoorbell (v : BitVec 64)
  | fwdCtrl (opc : BitVec 8) (m : CtrlMsg)
deriving DecidableEq, Repr

/-- A compositor message, less its opcode, with every data line it carries (Table 09-11, R281). -/
structure CompMsg where
  status : BitVec 8
  srcMod : BitVec 16
  dstMod : BitVec 16
  epoch : BitVec 4
  formeId : BitVec 32
  member : Option (BitVec 16)
  cseq : BitVec 32
  w4 : BitVec 64
  w5 : BitVec 64
  w6 : BitVec 64
  data : CompData
deriving DecidableEq, Repr

/-- A recovery message, less its opcode (Table 12-11). -/
structure RecMsg where
  status : BitVec 8
  srcMod : BitVec 16
  dstMod : BitVec 16
  formeId : BitVec 32
  member : BitVec 16
  jobId : BitVec 32
  epochNo : BitVec 32
  rseq : BitVec 32
  queue : BitVec 16
  /-- The command entry that a LOG message copies (R375). -/
  entry : List (BitVec 64)
deriving DecidableEq, Repr

/-! ### Packets of the Mbamar links (R462) -/

/-- The detour slot (R462, R469). -/
structure DetourSlot where
  viaMod : BitVec 16
  viaLink : BitVec 4
  fseq : BitVec 12
  fseqV : Bool
  epoch : BitVec 16
deriving DecidableEq, Repr

/-- A packet (Tables 15-5 and 15-6). `sealedBy` is the key whose tag a sealed packet carries; `rsv` holds when a reserved
field is set; `lines` is the body of the types whose body is lines. -/
structure Packet where
  ptype : BitVec 8
  cls : BitVec 3
  epoch : BitVec 4
  sealedBy : Option KeyId
  detour : Option DetourSlot
  hops : BitVec 5
  srcMod : BitVec 16
  dstMod : BitVec 16
  srcClu : BitVec 6
  formeId : BitVec 32
  member : BitVec 16
  tag : BitVec 16
  addr : BitVec 40
  mop : BitVec 8
  len : BitVec 3
  status : BitVec 8
  /-- The EPOCH bit that acknowledges an operation (R364); Table 15-5 names no field for it. -/
  epochBit : Bool
  keyh : BitVec 12
  seng : BitVec 3
  ctr : BitVec 48
  rsv : Bool
  lines : List (BitVec 512)
deriving DecidableEq, Repr

/-- The kinds of flit (Table 15-3). -/
inductive FlitKind where
  | data | idle | nak | down
deriving DecidableEq, Repr

/-- A flit as a receiver takes it: whether its block decoded and whether its CHECK verified, the credits it returns, and
the packets whose last slot it carries. -/
structure Flit where
  decoded : Bool
  check : Bool
  fseq : BitVec 12
  ackSeq : BitVec 12
  kind : FlitKind
  crSub : BitVec 4
  crSlots : BitVec 11
  /-- Bytes that the block's code corrected. -/
  corrected : BitVec 16
  packets : List Packet
deriving DecidableEq, Repr

/-- A stage of a slot image as it arrives (Table 13-13), less what the row names beside it: its DIGEST, the bytes of its certificate and
signatures, and its body. -/
structure StageFile where
  digest : BitVec 384
  signed : List (BitVec 8) := []
  body : List (BitVec 8) := []
deriving DecidableEq, Repr

/-- Who writes a register (Table 18-3, LAST_REF_MASTER): a control processor, a host by its connection, a peer module by its
fabric address, or the management bus. -/
inductive Master where
  | controlProcessor
  | host (conn : Nat)
  | peer (fab : Nat)
  | management
deriving DecidableEq, Repr

/-- The body of a WALK packet, less WOP (Table 15-9). -/
structure WalkBody where
  nhops : BitVec 5
  hop : BitVec 5
  walkId : BitVec 32
  route : BitVec 64
  ret : BitVec 64
  addr : BitVec 16
  addrV : Bool
  root : Bool
  parentLink : BitVec 4
  up : BitVec 16
  child : BitVec 16
  serial : BitVec 112
  ends : List (BitVec 16)
deriving DecidableEq, Repr

/-! ### Messages of the host (R482, R495) -/

/-- A translation message, less TOP (Table 16-8). -/
structure TransMsg where
  status : BitVec 8
  asn : BitVec 20
  psize : BitVec 2
  rd : Bool
  wr : Bool
  spec : Bool
  access : Bool
  all : Bool
  va : BitVec 57
  target : BitVec 64
  mkey : BitVec 32
  reqId : BitVec 32
  vaEnd : BitVec 57
  rsv : Bool
deriving DecidableEq, Repr

/-- A service message, less SOP (Tables 16-3 and 16-4): STATUS, CONN, REQID and words 1 to 7. -/
structure SvcMsg where
  status : BitVec 8
  conn : BitVec 16
  reqId : BitVec 32
  w1 : BitVec 64
  w2 : BitVec 64
  w3 : BitVec 64
  w4 : BitVec 64
  w5 : BitVec 64
  w6 : BitVec 64
  w7 : BitVec 64
deriving DecidableEq, Repr

/-! ### Commands that a member of another module runs (R298, R300, R306) -/

/-- An order of the module that fetched a command to the module of another member: the job's context there carries it out.
`args` are ARG0 to ARG2 and the words of the second entry; `bulk` is an image (R306). -/
structure MemberOrder where
  forme : Nat
  job : Nat
  member : Nat
  opc : Nat
  args : List (BitVec 64)
  bulk : List Byte
  seq : Nat
deriving DecidableEq, Repr

/-- Where a command that may act on another member comes from: a queue of this module, with the answer of the member's module
where the member lies elsewhere, or an order of another module. -/
inductive CmdSource where
  | queue (q : QueueId) (reply : Option (BitVec 64))
  | order (o : MemberOrder)
deriving DecidableEq, Repr

/-- A CREATE_CTX (R289, R312): its queue, and the jobs of the forme that hold a context on its other modules, with whether they are
dedicated. -/
structure CtxSource where
  q : QueueId
  far : List (Nat × Bool)
deriving DecidableEq, Repr

/-! ### The proof load on other modules (R307) -/

/-- A failure of the proof load: the code of Table 10-10, the member, and the amounts required and available. -/
structure LoadFail where
  code : Nat
  member : Nat
  need : Nat
  have_ : Nat
deriving DecidableEq, Repr

/-- What the modules of a forme's other members answer to a proof load: what fails there, and their virtual cores. -/
structure FarLoad where
  fails : List LoadFail
  vcores : Nat
deriving DecidableEq, Repr

/-- Which core has reached program end (R60, R300): one of this module, or a virtual core of a member on another module, which reports with the
RUN's RUN_SEQ whether that module has marked it not reproducible (R204) and the energy of the member's context since it started, in µJ (R301). -/
inductive ProgramEnd where
  | core (c : CoreId)
  | far (forme job vcore seq : Nat) (mark : Bool) (energy : Nat)
deriving DecidableEq, Repr

/-! ### What the compositor knows of other modules in a recovery (R372 to R374) -/

/-- A reachable module as the compositor sees it: its idle clusters that are not quarantined, and the partition number and channels
that a member would get there. -/
structure ModuleView where
  fab : BitVec 16
  idle : BitVec 48
  part : PartId
  channels : BitVec 384
deriving DecidableEq, Repr

/-- What a new master learns of the change that the failed master led (R274): its CSEQ, its plan entries, and whether a member holds
QUOIN. -/
structure ChangeCopy where
  cseq : BitVec 32
  entries : List PlanEntry
  quoined : Bool
deriving DecidableEq, Repr

/-- What a deputy holds of its forme since the last mark (R374): fences by job, number and value, the list of reserves, the
size of member 0, and the change in progress. -/
structure DeputyCopy where
  fences : List (BitVec 32 × BitVec 32 × BitVec 64)
  reserves : List (BitVec 16 × BitVec 48)
  plan : PlanEntry
  change : Option ChangeCopy
deriving DecidableEq, Repr

/-! ### Power (R446) -/

/-- What one unit did for a context, 0 for none, since its counters were last folded: the cluster, counts by index of Table 14-4, and
the time in ns that the context held the cluster. -/
structure EnergyAct where
  ctx : BitVec 16
  cluster : ClusterId
  counts : List (Nat × Nat)
  ns : Nat
deriving DecidableEq, Repr

/-! ### The management bus (R512 to R516) -/

/-- What the module answers to a PLDM command: a sensor's value, `none` where it is unavailable; a completion code; words; or a
record. -/
inductive PldmReply where
  | reading (id : Nat) (value : Option Nat)
  | success
  | error
  | invalidData
  | alreadyUpdating
  | verifyFailed
  | words (l : List (BitVec 64))
deriving DecidableEq, Repr

/-! ### The boot (R505 to R508) -/

/-- How a step of Table 17-2 has ended, from step 3 on: the rails are up; the ROM has read LC_STATE and found the digests of some OTP
slots wrong; stage 1 is done; stage 2 has failed to start on some dies; stage 3 has chosen the operating voltages, and its tests
have found clusters and channels bad, lines with corrected errors (channel, page, line) and pages with uncorrectable ones; the
module areas are placed; readiness is tested. -/
inductive BootStep where
  | rails
  | rom (badSlots : List (Fin 18))
  | stage1
  | fabric (badDies : List DieId)
  | test (vop : List (DieId × BitVec 8)) (clusters : BitVec 48) (channels : BitVec 384)
      (corrected : List (ChannelId × BitVec 19 × Fin 64)) (uncorrectable : List (ChannelId × BitVec 19))
  | place
  | ready
deriving DecidableEq, Repr

/-! ### Units and resources of the escalation ladder (R345, R347) -/

/-- A unit that can hang (Table 12-5). -/
inductive HangUnit where
  | issuer (core : CoreId) (engine : Option EngineKind)
  | stream (cluster : ClusterId) (engine : Fin 4)
  | hub (cluster : ClusterId)
  | clusterCp (cluster : ClusterId)
  | dieCp (die : DieId)
  | channel (ch : ChannelId)
  | bridge (a b : DieId)
  | ethernet (net : Fin 2)
deriving DecidableEq, Repr

/-- A resource that the ladder acts on (Table 12-6). -/
inductive Resource where
  | unit (u : HangUnit)
  | part (p : PartId)
  | cluster (c : ClusterId)
  | die (d : DieId)
  | wholeModule
deriving DecidableEq, Repr

end Sys2Proof
end

