-- ==== Sys2Proof/Machine/StreamParts.lean ====
section
/-! DEFINITION. The parts of the state that the stream engines, the device translation caches and the translation agent
hold (chapter 06). -/

namespace Sys2Proof.Machine

/-- Where one 64-byte transfer of a stream stands (R157): its read is outstanding, its data waits for the reads of the
tile (MOP ≠ 0), or its write is outstanding. -/
inductive ReqPhase where
  | reading | data | writing
deriving DecidableEq, Repr

/-- One 64-byte transfer of a stream: tile, line within the tile, the data once read, the generation of its
translation and the virtual address it uses (R175), and the RDMA target and memory key that served it. -/
structure StreamReq where
  id : Nat
  tile : Nat
  line : Nat
  phase : ReqPhase
  data : BitVec 512
  gen : Nat
  va : Nat
  rdma : Nat
  rkey : Nat
  /-- The map epoch stamped at issue (R255). -/
  epoch : BitVec 4
  /-- When the read, and later the write, was issued: later requests have higher numbers. -/
  seq : Nat
  /-- A read of a member on another module that the cluster cache serves (R215). -/
  hit : Bool
deriving DecidableEq, Repr

/-- Where the wait for the credit of an active stream's next ring tile stands (R160). -/
inductive CreditWait where
  | none | waiting | granted
deriving DecidableEq, Repr

/-- A stream, active or suspended (R148 to R167): the words of its descriptor, what was captured with it, the tile and
line that it issues next, what is outstanding, the lines of each tile acknowledged, the tiles signalled, and its
cursor record (Table 06-3). -/
structure Stream where
  desc : List Word64
  ctx : Nat
  cls : BitVec 3
  core : Nat
  /-- RUN_SEQ of the RUN whose core issued it: the command that a float add of it marks (R204). -/
  run : Nat
  slot : Nat
  /-- The model's own number of the stream. -/
  sid : Nat
  tile : Nat
  line : Nat
  reqs : List StreamReq
  landed : Tbl Nat
  signalled : Nat
  /-- Ring tiles that may be written (R160). -/
  credit : Nat
  cwait : CreditWait
  /-- The virtual address, access and tile whose TRANSLATE a demand lookup waits for (R163). -/
  lookup : Option (Nat × Bool × Nat)
  /-- Being suspended at `cursor`: no request of that tile or a later one is issued (R165). -/
  stopping : Bool
  /-- What a suspended stream waits for has come, and STREAM_RESUME may take it (R166). -/
  ready : Bool
  cause : Nat
  write : Bool
  cursor : Nat
  va : Nat
  prq : Option Nat
  suspCount : Nat
  suspTime : Nat
  notRepro : Bool
deriving DecidableEq, Repr

/-- A descriptor in an engine's input queue (R148). -/
structure QueuedDesc where
  desc : List Word64
  ctx : Nat
  cls : BitVec 3
  core : Nat
  run : Nat
deriving DecidableEq, Repr

/-- One stream engine (R148, R149, R176). -/
structure StreamEngine where
  queue : List QueuedDesc
  active : Tbl Stream
  suspended : List Stream
  /-- Streams that have been stopped or aborted and whose issued requests have not all completed (R161, R172). -/
  ending : List Stream
  reported : Nat
  suspCnt : Nat
  aborts : Nat
  /-- The active slot that was served last (R149). -/
  turn : Nat
  /-- Suspended streams whose page has come, in the order in which they joined their page requests (R170). -/
  order : List Nat
  /-- Stopped for a context switch, a freeze or a state move (R178): nothing starts or resumes. -/
  stopped : Bool
deriving DecidableEq, Repr

/-- A stream engine after reset: slot 0 has the first turn. -/
def StreamEngine.reset : StreamEngine := ⟨[], [], [], [], 0, 0, 0, 7, [], false⟩

/-- The streams that a stopped engine holds: those in suspended slots, and those that wait in their active slots for one. -/
def StreamEngine.held (g : StreamEngine) : List Stream :=
  g.suspended ++ (g.active.filter fun p => p.2.stopping && p.2.reqs.isEmpty).map fun p => p.2

/-- Whether every active stream of an engine has been suspended and waits for nothing. -/
def StreamEngine.atRest (g : StreamEngine) : Bool := g.active.all fun p => p.2.stopping && p.2.reqs.isEmpty

/-- The page sizes of the translation cache (R162). -/
inductive PageSize where
  | kib4 | mib2 | gib1
deriving DecidableEq, Repr

/-- An entry of a device translation cache (R162). -/
structure TcEntry where
  conn : Nat
  asn : Nat
  size : PageSize
  page : Nat
  target : Nat
  rkey : Nat
  read : Bool
  write : Bool
deriving DecidableEq, Repr

/-- A TRANSLATE in flight (R163): the request's identifier, what it asks for and the time it was sent. -/
structure TransReq where
  reqId : Nat
  conn : Nat
  asn : Nat
  page : Nat
  write : Bool
  sentAt : Nat
  sent : Bool
  /-- The accesses, read or write, of the prefetch lookups of streams with SPEC set that wait for the answer (R164). -/
  specs : List Bool
deriving DecidableEq, Repr

/-- One die's translation cache (R162, R163, R175). Entries of each set are listed least recently used first. -/
structure TransCache where
  sets : Tbl (List TcEntry)
  gen : Nat
  out : List TransReq
  hits : Nat
  misses : Nat
deriving DecidableEq, Repr

/-- An empty translation cache. -/
def TransCache.reset : TransCache := ⟨[], 0, [], 0, 0⟩

/-- An entry of the page request table (R168); waiters are stream engines and streams in the order they joined. -/
structure PageReq where
  /-- The dies whose prefetch raised or met the entry with SPEC set, and the access that it wanted (R164, R169). -/
  specs : List (Nat × Bool)
  conn : Nat
  asn : Nat
  page : Nat
  write : Bool
  spec : Bool
  waiters : List (Nat × Nat)
  sentAt : Nat
  reqId : Nat
deriving DecidableEq, Repr

/-- An invalidation under way (R176): generation, engines still to report, and the request to acknowledge. -/
structure Invalidation where
  gen : Nat
  waiting : List Nat
  conn : Nat
  asn : Nat
  reqId : Nat
deriving DecidableEq, Repr

/-- A fault that waits for a free entry (R168): a stream's, or a prefetch's with SPEC set. -/
inductive PageWait where
  /-- The fault of stream `sid` of an engine. -/
  | demand (engine sid : Nat)
  /-- The fault of a prefetch of a die. -/
  | spec (die conn asn page : Nat) (write : Bool)
deriving DecidableEq, Repr

/-- A fault that waits, its stream's engine renumbered by `f`. -/
def PageWait.moved (w : PageWait) (f : Nat → Nat) : PageWait :=
  match w with
  | .demand e sid => .demand (f e) sid
  | .spec d conn asn page write => .spec d conn asn page write

/-- The translation agent (R168 to R176). -/
structure TransAgent where
  table : Tbl PageReq
  /-- Faults that wait for a free entry (R168). -/
  queue : List PageWait
  waits : Nat
  specDiscarded : Nat
  gen : Nat
  invals : List Invalidation
deriving DecidableEq, Repr

/-- The translation agent after reset. -/
def TransAgent.reset : TransAgent := ⟨[], [], 0, 0, 0, []⟩

/-- What an operation outstanding at the host or at another module is for. -/
inductive OutUse where
  /-- A request of a stream: engine and request. -/
  | stream (engine req : Nat)
  /-- A bulk argument: queue and place (R294). -/
  | bulk (queue place : Nat)
  /-- A refill of a poisoned chunk: partition, chunk and first line (R379). -/
  | refill (part chunk line : Nat)
  /-- A pull of a moved chunk (R269): partition, chunk and line. -/
  | pull (part chunk line : Nat)
  /-- A line written through to the source page of a moved chunk (R269): partition and address. -/
  | through (part addr : Nat)
  /-- A write that only has to be acknowledged. -/
  | plain
  /-- A write of completion entries: ring, index of the first, entries (R493). -/
  | group (ring index : Nat) (entries : List (List Word64))
  /-- A notification of a ring (R494). -/
  | notice (ring : Nat)
deriving DecidableEq, Repr

/-- A request to another module that waits for its response (R462): the issuing cluster and tag, the module, its map epoch, forme and
member, and when it was sent (R370). -/
structure PeerOut where
  clu : Nat
  tag : Nat
  mod : Nat
  forme : Nat
  member : Nat
  epoch : Nat
  use : OutUse
  sentAt : Nat
deriving DecidableEq, Repr

/-- An answer that waits until the sources of what it answers have acknowledged the lines written through to them (R269): the tags still out,
and the packet with the handle that seals it, or the acknowledgement of a host's operation. -/
structure LateAck where
  tags : List Nat
  conn : Option (Nat × Nat × Nat)
  handle : Option Nat
  packet : Option Packet
deriving DecidableEq, Repr

/-- An RDMA operation of the module that the host has not acknowledged (R489). -/
structure RdmaOut where
  id : Nat
  conn : Nat
  isRead : Bool
  addr : Nat
  rkey : Nat
  len : Nat
  data : List Byte
  /-- Bytes read so far. -/
  got : List Byte
  /-- Not sent yet: 128 reads are outstanding (R480), or a write to the same bytes is (R489). -/
  held : Bool
  use : OutUse
  /-- Retries since it was sent, and the time of its first sending on the present plane (R480, R486). -/
  tries : Nat
  sentAt : Nat
deriving DecidableEq, Repr

end Sys2Proof.Machine
end

