-- ==== Sys2Proof/Machine/CoreParts.lean ====
section
/-! DEFINITION. The parts of the state that one core and one cluster hold (chapters 02, 03, 05 and 08). -/

namespace Sys2Proof.Machine

/-! ### Decoded slots -/

/-- A control-slot instruction (Table 02-4), with the fields of its form (Table 02-3). -/
inductive CtlOp where
  | nop
  | add (xd xa xb : Fin 32) | sub (xd xa xb : Fin 32) | and (xd xa xb : Fin 32) | or (xd xa xb : Fin 32)
  | xor (xd xa xb : Fin 32) | shl (xd xa xb : Fin 32) | shr (xd xa xb : Fin 32) | sar (xd xa xb : Fin 32)
  | mul (xd xa xb : Fin 32) | mulh (xd xa xb : Fin 32) | min (xd xa xb : Fin 32) | max (xd xa xb : Fin 32)
  | slt (xd xa xb : Fin 32) | sltu (xd xa xb : Fin 32)
  | addi (xd xa : Fin 32) (imm : BitVec 36) | andi (xd xa : Fin 32) (imm : BitVec 36)
  | ori (xd xa : Fin 32) (imm : BitVec 36) | xori (xd xa : Fin 32) (imm : BitVec 36)
  | shli (xd xa : Fin 32) (imm : BitVec 36) | shri (xd xa : Fin 32) (imm : BitVec 36)
  | ldhi (xd xa : Fin 32) (imm : BitVec 36)
  | ld (xd xa : Fin 32) (imm : BitVec 36) | st (xd xa : Fin 32) (imm : BitVec 36)
  | tdld (xd xa : Fin 32) (imm : BitVec 36) | tdst (xd xa : Fin 32) (imm : BitVec 36)
  | j (target : BitVec 13)
  | beq (xa xb : Fin 32) (target : BitVec 13) | bne (xa xb : Fin 32) (target : BitVec 13)
  | blt (xa xb : Fin 32) (target : BitVec 13) | bge (xa xb : Fin 32) (target : BitVec 13)
  | bltu (xa xb : Fin 32) (target : BitVec 13)
  | call (target : BitVec 13)
  | ret
  | jr (xa : Fin 32)
  | loop (xa : Fin 32) (target : BitVec 13)
  | halt
  | csrr (xd xa : Fin 32) (imm : BitVec 36) | csrw (xd xa : Fin 32) (imm : BitVec 36)
  | csrs (xd xa : Fin 32) (imm : BitVec 36) | csrc (xd xa : Fin 32) (imm : BitVec 36)
  | alloc (xd xa : Fin 32) (imm : BitVec 36)
  | free (xd xa xb : Fin 32)
  | fsig (xd xa xb : Fin 32) | fadd (xd xa xb : Fin 32)
  | fwait (xd xa xb : Fin 32) (imm : BitVec 31)
  | fread (xd xa xb : Fin 32) | ftok (xd xa xb : Fin 32)
  | rfsig (xd xa xb : Fin 32) | rfadd (xd xa xb : Fin 32)
  | rfwait (xd xa xb : Fin 32) (imm : BitVec 31)
  | rfread (xd xa xb : Fin 32)
  | bara (xd xa xb : Fin 32)
  | barw (xd xa xb : Fin 32) (imm : BitVec 31)
  | bart (xd xa xb : Fin 32)
deriving DecidableEq, Repr

/-- A matrix-slot opcode other than NOP (Table 02-6). -/
inductive MatrixOp where
  | mma | mmaz | accst | accld | accz
deriving DecidableEq, Repr

/-- A vector-slot opcode other than NOP (R68). -/
inductive VecOp where
  | vadd | vsub | vmul | vfma | vfms | vdiv | vsqrt | vrsqrt | vrcp | vmin | vmax | vabs | vneg
  | vexp | vexp2 | vlog | vlog2 | vsin | vcos | vtanh | vsigm | verf | vgelu
  | viadd | visub | vimul | vand | vor | vxor | vshl | vshr | vsar | vimax
  | vcmp | vsel | vclass | vcvt
  | vrsum | vrmax | vrmin | vramax | vrsumx | vscan
  | vperm | vbcast | vtrans | vshuf
  | vamax32 | vscale32 | vquant
  | vld | vst | vlds | vsts
deriving DecidableEq, Repr

/-- A move-slot opcode other than NOP (Table 02-8). -/
inductive MoveOp where
  | mcpy | mgath | mtrn | mcsr | mcsw | mprd | mpwr | mpamo | mstrm
deriving DecidableEq, Repr

/-! ### Engine queue entries: what a slot captures at issue (R43) -/

/-- A matrix-slot instruction in its queue: `pc` is that of the bundle it was issued from (R84). -/
structure MatrixEntry where
  hdr : Hdr
  pc : Nat
  op : MatrixOp
  acc : Fin 16
  tda : Word256
  tdb : Word256
  tdc : Word256
  step : BitVec 32
  /-- The slot (R284). -/
  raw : Word64
deriving DecidableEq, Repr

/-- A vector-slot instruction in its queue. `xa` and `xb` are the X registers that VA and VB name where the opcode
names X registers there (R68), and `xc` and `xc1` the pair that VC names (R137). -/
structure VecEntry where
  hdr : Hdr
  pc : Nat
  op : VecOp
  vd : Fin 32
  va : Fin 32
  vb : Fin 32
  vc : Fin 32
  dt : BitVec 4
  modf : BitVec 22
  xa : Word64
  xb : Word64
  xc : Word64
  xc1 : Word64
  step : BitVec 32
  raw : Word64
deriving DecidableEq, Repr

/-- A move-slot instruction in its queue. -/
structure MoveEntry where
  hdr : Hdr
  pc : Nat
  op : MoveOp
  xs : Word64
  xd : Word64
  xl : Word64
  td : Word256
  se : Fin 4
  mop : BitVec 8
  cls : BitVec 3
  raw : Word64
deriving DecidableEq, Repr

/-! ### One core -/

/-- An active hardware loop (R58). `retDepth` is the depth of the return stack when it was entered. -/
structure LoopEntry where
  first : Nat
  target : Nat
  remaining : Nat
  retDepth : Nat
deriving DecidableEq, Repr

/-- What a control unit blocked on an operation holds (R44, R62): the operation, its header, the answer once the hub
or the allocator has given one, and the local time at which a timeout falls. -/
structure Blocked where
  op : CtlOp
  hdr : Hdr
  answer : Option Word64
  deadline : Option Nat
deriving DecidableEq, Repr

/-- What the control unit of a core is doing. -/
inductive CtlState where
  /-- In no partition, or never started. -/
  | idle
  | running
  | blocked (b : Blocked)
  /-- HALT issued; waits for its queues and completion points (R60). -/
  | halting
  /-- Program end has been reported (R60). -/
  | ended
  /-- Stopped under R82: whether it was halting, and the blocking operation that it issues again on resume. -/
  | stopped (wasHalting : Bool) (redo : Option (Hdr × CtlOp))
  /-- A core fault stopped it (R84). -/
  | faulted
deriving DecidableEq, Repr

/-- What an accumulator number holds (R88, R118). -/
inductive AccClass where
  | empty | float | int | exact
  /-- One of the three numbers that an exact accumulator takes beside its own. -/
  | partOf (n : Nat)
deriving DecidableEq, Repr

/-- One accumulator: its tag, its elements row by row (32 bits of a float or integer element in the low half, all 128
of an exact one), and the special state of each exact element (R118). -/
structure Acc where
  cls : AccClass
  m : Nat
  n : Nat
  wexp : Int
  elems : Tbl (BitVec 128)
  sp : Tbl Nat
deriving DecidableEq, Repr

/-- The accumulator of an EMPTY number. -/
def Acc.reset : Acc := ⟨.empty, 0, 0, 0, [], []⟩

/-- The kind and target of an arm (R64): a fence by number and target, or a barrier instance and the phase whose completion is waited
for (R243). -/
inductive ArmKind where
  | fence (number : Nat) (target : Nat)
  | barrier (inst phase : Nat)
deriving DecidableEq, Repr

/-- An arm that a stopped core carries until it resumes (R83). -/
structure SavedArm where
  tok : Fin 16
  pc : Nat
  kind : ArmKind
deriving DecidableEq, Repr

/-- The fault that stopped a core (R84); slots are 0 control, 1 matrix, 2 vector, 3 move. -/
structure FaultRec where
  code : Nat
  pc : Nat
  slot : Nat
deriving DecidableEq, Repr

/-- A matrix instruction that executes (R108, R109): the flags that its completion point sets, the local ranges that it reads and those that
it writes, and what its accumulator number held before it. `torn` lists what has been written meanwhile under what it reads, as the granule and
its bytes from before, oldest first; `raced` lists the granules written under what it writes, and `late` is local memory as it
would stand with nothing of its output written. `ix` numbers the free values that say on which side of each such write it comes. -/
structure MatrixRun where
  flags : BitVec 7
  reads : List (Nat × Nat)
  writes : List (Nat × Nat)
  old : Acc
  torn : List (Nat × List Byte)
  raced : List Nat
  late : Mem
  ix : Nat
deriving DecidableEq, Repr

/-- The progress of the move at the head of its queue (R82, R83): the lines done, the poisoned lines read and the granules
they fill, the flags to set at the completion point, and whether an acknowledgement with the EPOCH bit clear has come
(R364). -/
structure MoveRun where
  lines : Nat
  bad : List (Nat × Nat)
  flags : BitVec 7
  impure : Bool
deriving DecidableEq, Repr

/-- One core (R41, R51, R66, R72, R74, R77, R84, R127, R377). -/
structure Core where
  x : Tbl Word64
  pc : Nat
  ret : List Nat
  loops : List LoopEntry
  tokens : Tbl Nat
  step : BitVec 32
  seed : Word64
  cls : BitVec 3
  mflags : BitVec 7
  ctx : Nat
  part : Nat
  vcore : Nat
  /-- RUN_SEQ of the RUN that it runs or ran last, and the energy of its context, in the units of the meter, when that RUN started it (R300, R301). -/
  runSeq : Nat
  runEnergy : Nat
  ctl : CtlState
  mq : List MatrixEntry
  vq : List VecEntry
  xq : List MoveEntry
  /-- The matrix instructions that execute: those at the first places of the queue, in order. -/
  mrun : List MatrixRun
  /-- The flags that the executing head of the vector and of the move queue sets at its completion point; `none` while none executes. -/
  vrun : Option (BitVec 7)
  xrun : Option (BitVec 7)
  xmove : Option MoveRun
  /-- Issuers held on a poison-marked granule (R377). -/
  held : List EngineKind
  td : Tbl Word256
  acc : Tbl Acc
  v : Tbl (BitVec 32768)
  lm : Mem
  /-- Poison-marked 128-byte granules, by granule number in rising order (R377). -/
  poison : List Nat
  /-- The poison list: partition address of a poisoned line and the local address from which it filled its granules (R377). -/
  poisonList : List (Nat × Nat)
  lmCorr : Nat
  accCorr : Nat
  /-- A write has cleared LM_CORRCNT, or ACC_CORR: the clear waits for the next bundle (Table 18-11). -/
  lmClear : Bool
  accClear : Bool
  /-- Accumulator words, by accumulator number and element, with a single-bit and with a double-bit error (R90). -/
  accBad1 : List (Nat × Nat)
  accBad2 : List (Nat × Nat)
  imem : Tbl Word256
  /-- Bundles whose parity is wrong (R46). -/
  imemBad : List Nat
  /-- Local words with a single-bit, and with a double-bit, error (R72). -/
  lmBad1 : List Nat
  lmBad2 : List Nat
  codeLen : Nat
  fault : Option FaultRec
  savedArms : List SavedArm
deriving DecidableEq, Repr

/-- A core after reset: idle, with every register and memory zero (assumption 3). -/
def Core.reset : Core where
  x := []
  pc := 0
  ret := []
  loops := []
  tokens := []
  step := 0
  seed := 0
  cls := 0
  mflags := 0
  ctx := 0
  part := 0
  vcore := 0
  runSeq := 0
  runEnergy := 0
  ctl := .idle
  mq := []
  vq := []
  xq := []
  mrun := []
  vrun := none
  xrun := none
  xmove := none
  held := []
  td := []
  acc := []
  v := []
  lm := []
  poison := []
  poisonList := []
  lmCorr := 0
  accCorr := 0
  lmClear := false
  accClear := false
  accBad1 := []
  accBad2 := []
  imem := []
  imemBad := []
  lmBad1 := []
  lmBad2 := []
  codeLen := 0
  fault := none
  savedArms := []

/-! ### The synchronisation hub of one cluster -/

/-- The counters of a sync page (Tables 08-7 and 08-8). -/
inductive SynCnt where
  | drop | sat | deny | errsig | cold | poll | unreach | badmsg
deriving DecidableEq, Repr

/-- The values of the counters of one sync page (R245). -/
structure SynCnts where
  drop : Nat
  sat : Nat
  deny : Nat
  errsig : Nat
  cold : Nat
  poll : Nat
  unreach : Nat
  badmsg : Nat
  /-- Fields that a write has cleared and that the next message will clear (R245). -/
  clearing : List SynCnt
deriving DecidableEq, Repr

/-- A barrier instance (Table 08-5), with the arrivals and the children of its current phase. -/
structure Barrier where
  conf : Bool
  expect : Nat
  keyh : Nat
  owner : Nat
  arrived : Nat
  children : List Nat
  /-- Children whose arrival counts towards the next phase (R242). -/
  nextChildren : List Nat
  /-- Whether BAR_ARRIVE of this phase has gone to the parent (R242). -/
  sentUp : Bool
  parent : Option Nat
  phase : Nat
  /-- The arrival phase of each core that has arrived (R242), by context and virtual core: it stays with the context across context
switches and moves (R243). -/
  corePhase : Tbl Nat
deriving DecidableEq, Repr

/-- The name of a core in a table of arrival phases: its context and its virtual core. -/
def phaseKey (n v : Nat) : Nat := n * 2 ^ 32 + v

/-- A barrier instance that is not configured. -/
def Barrier.reset : Barrier := ⟨false, 0, 0, 0, 0, [], [], false, none, 0, []⟩

/-- A remote operation of this hub that waits for an answer (R239, R62). -/
structure RemoteOp where
  tag : Nat
  /-- The core that waits, or `none` where a stream waits. -/
  core : Option Nat
  /-- Engine and slot of a stream that waits, engine and stream of one that has signalled. -/
  stream : Option (Nat × Nat)
  isRead : Bool
  mod : Nat
  number : Nat
  target : Nat
  /-- Whether the hub polls after REGISTRY_FULL. -/
  polling : Bool
  /-- A TFENCE signal sent with ACK_REQ (R240), not a read or a wait. -/
  isSignal : Bool
  /-- Queue and place of a command that waits under WAITV (R295). -/
  cmd : Option (Nat × Nat) := none
  /-- When it was sent (R370). -/
  sentAt : Nat := 0
deriving DecidableEq, Repr

/-- One sync hub (R219, R222, R239, R241, R245). -/
structure Hub where
  /-- Hot fences, least recently used first, with whether each has changed since its last write-back. -/
  hot : List (Nat × Bool)
  cnt : SynCnts
  bars : Tbl Barrier
  remote : List RemoteOp
  nextTag : Nat
deriving DecidableEq, Repr

/-- A hub after reset. -/
def Hub.reset : Hub := ⟨[], ⟨0, 0, 0, 0, 0, 0, 0, 0, []⟩, [], [], 0⟩

/-- A call to the device allocator that waits (R81). -/
structure AllocCall where
  core : CoreId
  isFree : Bool
  arg : Word64
  imm : BitVec 36
deriving DecidableEq, Repr

/-- Whose line the cluster cache holds (R215, R216): one of a partition of this module, with the key under which it was decrypted, or one of a
member on another module, with the forme and the context that read it. -/
inductive CacheHome where
  | here (part handle kctx : Nat)
  | peer (forme member reader : Nat)
deriving DecidableEq, Repr

/-- A line of the cluster cache: its number in its address space, and its plaintext. -/
structure CacheLine where
  home : CacheHome
  line : Nat
  data : BitVec 512
deriving DecidableEq, Repr

/-- Whether a line is one of a partition of this module. -/
def CacheLine.ofPart (l : CacheLine) (p : Nat) : Bool :=
  match l.home with
  | .here q _ _ => q == p
  | .peer _ _ _ => false

/-- Whether a line was decrypted under a key. -/
def CacheLine.underKey (l : CacheLine) (h kctx : Nat) : Bool :=
  match l.home with
  | .here _ a b => a == h && b == kctx
  | .peer _ _ _ => false

/-- Whether two lines are of the same place. -/
def CacheLine.samePlace (l m : CacheLine) : Bool :=
  l.line == m.line && (match l.home, m.home with
    | .here p _ _, .here q _ _ => p == q
    | .peer f m a, .peer g n b => f == g && m == n && a == b
    | _, _ => false)

/-- One cluster, apart from its cores, stream engines and channels. -/
structure Cluster where
  hub : Hub
  calls : List AllocCall
  csmWays : Nat
  scratch : Mem
  /-- Words of scratch with a single-bit, and with a double-bit, error (R214). -/
  csmBad1 : List Nat
  csmBad2 : List Nat
  /-- Lines held, least recently used first. -/
  cache : List CacheLine
  keyDeny : Nat
  /-- Isolation clamps closed (R32, R352). -/
  clamped : Bool
  /-- Local times of the partition resets that reset this cluster (Table 12-6). -/
  resets : List Nat
deriving DecidableEq, Repr

/-- A cluster after reset. -/
def Cluster.reset : Cluster := ⟨Hub.reset, [], 0, [], [], [], [], 0, false, []⟩

/-! ### What the tables of a state image leave out (R284) -/

/-- What a stream record of Table 09-13 does not hold of a suspended stream: the CLASS captured with its descriptor, the core of its cluster
that issued it (R148), and RUN_SEQ of the RUN that it belongs to. -/
structure StreamNote where
  cls : BitVec 3
  core : Fin 4
  run : Nat
deriving DecidableEq, Repr

/-- What Table 09-14 does not hold of a core: whether it runs, whether it had issued HALT, and whether an operation of its
bundle was abandoned at the stop (R82); the depth of the return stack at each active loop (R58); the bundles from which the entries of
its queues and its arms came (R84); and what its executing instructions carry to their completion points beside the count of their sub-steps (R83).
The note of core `k` also holds what the records of stream engine `k` leave out, and the descriptors in that engine's input queue. -/
structure CtlNote where
  active : Bool
  halting : Bool
  redo : Bool
  retDepths : List Nat := []
  matrixPcs : List Nat := []
  vectorPcs : List Nat := []
  movePcs : List Nat := []
  armPcs : Tbl Nat := []
  mrun : List MatrixRun := []
  vrun : Option (BitVec 7) := none
  xrun : Option (BitVec 7) := none
  xmove : Option MoveRun := none
  runSeq : Nat := 0
  runEnergy : Nat := 0
  streams : List StreamNote := []
  descs : List QueuedDesc := []
deriving DecidableEq, Repr

/-- What Table 08-5 does not hold of a barrier instance: the arrivals counted, the children among them and the arrival phase
of each core, under the numbers that the contexts have at the target. -/
structure BarNote where
  inst : Nat
  arrived : Nat
  children : List Nat
  corePhase : Tbl Nat
deriving DecidableEq, Repr

/-! ### Fences (Table 08-1) -/

/-- The state of a fence entry. -/
inductive FenceState where
  | free | live | error
deriving DecidableEq, Repr

/-- A fence entry, with its value as its home hub sees it. `stored` is the value in the store while the fence is hot
with a change not yet written back (R223). -/
structure Fence where
  value : Nat
  state : FenceState
  home : Nat
  keyh : Nat
  owner : Nat
  imports : Nat
  drops : Nat
  stored : Nat
deriving DecidableEq, Repr

/-- A FREE entry (R232). -/
def Fence.reset : Fence := ⟨0, .free, 0, 0, 0, 0, 0, 0⟩

/-- Who waits on a fence. -/
inductive Waiter where
  | core (c : Nat)
  | arm (c : Nat) (tok : Fin 16) (pc : Nat)
  /-- A hub of another module, with the context of the link key that authenticated its request. -/
  | remote (mod clu tag auth : Nat)
  | stream (engine slot : Nat)
  | command (queue tag : Nat)
deriving DecidableEq, Repr

/-- A wait or an arm registered at a fence's home hub, in order of registration (R229, R239). -/
structure Wait where
  fence : Nat
  target : Nat
  who : Waiter
  /-- Served cold and re-tested each 1 µs (R222). -/
  cold : Bool
deriving DecidableEq, Repr

/-- A wait or an arm on a barrier instance for the completion of `phase` (R243). -/
structure BarWait where
  cluster : Nat
  inst : Nat
  phase : Nat
  who : Waiter
deriving DecidableEq, Repr

end Sys2Proof.Machine
end

