-- ==== Sys2Proof/Machine/MemParts.lean ====
section
/-! DEFINITION. The parts of the state that the HBM channels, the partitions' address spaces and the key register hold
(chapters 07, 11 and 13). -/

namespace Sys2Proof.Machine

/-! ### Blocks and channels -/

/-- How a block's stored bytes came about: sealed under a key with a tag (R404, R405), or stored as given. -/
structure Seal where
  key : KeyId
  handle : Nat
  tweak : Nat
deriving DecidableEq, Repr

/-- A 512-byte block of a channel as its controller sees it, buffered or not (R184 to R187). `lines` is plaintext while
`sealedBy` is present and the stored bytes while it is not. -/
structure Block where
  lines : Tbl (BitVec 512)
  sealedBy : Option Seal
  wepoch : BitVec 16
  poison : Bool
  buffered : Bool
  foreign : Bool
  /-- The plaintext of the lines written with permission while the block is buffered and does not verify. -/
  filled : Tbl (BitVec 512)
  /-- The symbols in error, as line and symbol of its 36: 32 of data, LMETA and three check symbols (R184). -/
  errs : List (Nat × Nat)
  /-- What the tag slot was computed over, where the block no longer holds it: it keeps the slot (R187). -/
  kept : Option (Seal × Tbl (BitVec 512))
  /-- Whether the tag slot has been damaged, so that the tag check fails whatever key is used. -/
  tagBad : Bool
  /-- Recovery has ended for the poisoned block: its one MEM_POISON record is written (R207, R379). -/
  told : Bool
deriving DecidableEq, Repr

/-- A block nothing has written: zero bytes under no key (assumption 1). -/
def Block.reset : Block := ⟨[], none, 0, false, false, false, [], [], none, false, false⟩

/-- Symbols in error in a line. -/
def symbolsBad (errs : List (Nat × Nat)) (line : Nat) : Nat := (errs.filter fun e => e.1 == line).length

/-- Lines with a correctable error: one symbol of 36 (R184, R185). -/
def Block.corr (b : Block) : List Nat := (rangeFrom 0 8).filter fun i => symbolsBad b.errs i == 1
/-- Whether an uncorrectable error lies in the block: two symbols of a line, which the code detects, or more (assumption 120). -/
def Block.uncorr (b : Block) : Bool := (rangeFrom 0 8).any fun i => decide (2 ≤ symbolsBad b.errs i)
/-- Correctable lines are corrected: what is in error is then in the other lines. -/
def Block.correct (b : Block) : Block := { b with errs := b.errs.filter fun e => symbolsBad b.errs e.1 != 1 }

/-- The error counts of one page, with the local times at which they were counted (R209). -/
structure PageErr where
  corrected : List (Nat × Nat)
  uncorrected : List Nat
deriving DecidableEq, Repr

/-- A memory-side operation kept for a poisoned line (R378). -/
structure HeldOp where
  part : Nat
  addr : Nat
  mop : Nat
  operand : BitVec 1024
  ctx : Nat
deriving DecidableEq, Repr

/-! ### Memory-side operations (R200 to R202) -/

/-- The operations of Table 07-6. -/
inductive MemOp where
  | add | min | max | and | or | xor | cas
deriving DecidableEq, Repr

/-- The types of Table 07-6. -/
inductive MemTy where
  | fp32 | bf16 | fp16 | int32 | int64 | wx128 | b64
deriving DecidableEq, Repr

/-- What is asked of a line beside reading it. -/
inductive Change512 where
  | write (v : BitVec 512)
  | op (mop : Nat) (o : MemOp) (t : MemTy) (opd : BitVec 1024)
deriving DecidableEq, Repr

/-! ### Regions and key windows -/

/-- A region descriptor (Table 07-5), with the context that installed it (R298). -/
structure Region where
  base : Nat
  length : Nat
  mirror : Bool
  wx : Bool
  ro : Bool
  cache : Bool
  nearest : Bool
  epoch : Bool
  shared : Bool
  wexp : Int
  mbase : Nat
  owner : Nat
  /-- A copy was lost with its channel (R206). -/
  degraded : Bool
  /-- Divergent copies await MIRROR_RESOLVE (R381). -/
  suspect : Bool
  /-- The refill source: none, a peer member and address, or a host virtual address (R379). -/
  refill : Option (Bool × Nat × Nat)
deriving DecidableEq, Repr

/-- A key window (Table 13-9). -/
structure KeyWindow where
  base : Nat
  length : Nat
  keyh : Nat
  owner : Nat
deriving DecidableEq, Repr

/-- How a controller answers a request. -/
inductive MemStatus where
  | ok
  /-- The line is poisoned (R207). -/
  | poison
  | nokey | deadkey
  /-- Refused by a region test (R204). -/
  | refused
  /-- Refused for its map epoch (R255), or outside the partition address space (R156). -/
  | mapEpoch | range
  /-- Its channel is fenced off: the request is ended (R348). -/
  | ended
  /-- Not served yet: the request waits. -/
  | hold
deriving DecidableEq, Repr

/-- An answer: its status, the line a read or CAS returns, the EPOCH bit of an acknowledgement (R364), whether the line has been changed, and
the tag of a write-through that must be acknowledged first (R269). -/
structure MemOut where
  status : MemStatus
  data : BitVec 512 := 0
  epochBit : Bool := false
  stored : Bool := false
  tag : Option Nat := none
deriving DecidableEq, Repr

/-! ### Requests that wait (R183, R264, R327, R328) -/

/-- The unit that holds a request: the move unit of a core, a request of a stream engine, the fetch of a queue, an operation of a host
connection, a request that a row names, or a transfer that no controller keeps. -/
inductive ReqUnit where
  | core (c : Nat)
  | stream (engine id : Nat)
  | fetch (queue : Nat)
  | host (conn pseq : Nat)
  | row
  | none
deriving DecidableEq, Repr

/-- A request that waits at a channel controller: `change` is `none` for a read. `tables` are the partition's regions and key windows
as they stood when it arrived, where they have changed since (R198, R407). `applied` is the answer of a change that has been applied, until
the source page on another module has acknowledged it (R269). -/
structure Waiting where
  req : MemReq
  change : Option Change512
  unit : ReqUnit
  arrived : Nat
  tables : Option (List Region × Tbl KeyWindow)
  applied : Option MemOut
deriving DecidableEq, Repr

/-- The regulator of one partition at one channel (R326 to R330, R337). -/
structure Regulator where
  guar : Nat
  windows : Nat
  targets : List Nat
  /-- Shadows of the committed registers. -/
  shGuar : Nat
  shWindows : Nat
  shTargets : List Nat
  guarEff : Nat
  miss : Bool
  /-- A write of 1 to MISS waits for the next window. -/
  missClear : Bool
  scaled : Bool
  /-- What is left of the window's guarantee, in bytes (R326). -/
  account : Int
  /-- Missed windows in a row (R330). -/
  missed : Nat
  lastIrq : Option Nat
deriving DecidableEq, Repr

/-- A regulator after reset (Table 11-3). -/
def Regulator.reset : Regulator := ⟨0, 0, [0, 0, 0, 0, 0, 0, 0, 0], 0, 0, [0, 0, 0, 0, 0, 0, 0, 0], 0, false, false,
  false, 0, 0, none⟩

/-- One HBM channel and its controller. -/
structure Channel where
  fenced : Bool
  /-- It failed training at start-up (CH_STATE 2, Table 18-14). -/
  untrained : Bool
  held : Bool
  blocks : Tbl Block
  /-- Pages whose fresh bit is clear, in rising order: every other page is fresh (R194). -/
  used : List Nat
  retired : List Nat
  /-- Pages that stay in use until freed because no free page exists (R210). -/
  flagged : List Nat
  /-- Relocated pages: old page and new page (R211). -/
  reloc : List (Nat × Nat)
  /-- Pages whose copy is under way, with the free page that each goes to (R210). -/
  copying : List (Nat × Nat)
  pageErr : Tbl PageErr
  corrCount : Nat
  poisonCount : Nat
  hold : List HeldOp
  scrubHours : Nat
  scrubPos : Nat
  ifErrors : Nat
  regs : Tbl Regulator
  capNow : Nat
  cresult : Nat
  /-- A COMMIT that waits for the next window (Table 11-5), and counters whose clearing waits for it. -/
  commit : Bool
  missCountClear : Bool
  demotedClear : Bool
  /-- Scale-back is in force, and the windows since its condition last held (R335). -/
  scaleBack : Bool
  quietWindows : Nat
  /-- The number of the present window (R326). -/
  window : Nat
  missCount : Nat
  demoted : Nat
  /-- The partition served last at each priority (R328). -/
  lastAt : Tbl Nat
  /-- Bytes served under label 7 in the present window, and partitions with a request completed late in it (R328, R330). -/
  recovUsed : Nat
  late : List Nat
  /-- Pages whose tag line is in the tag buffer, oldest first (R187), and the symbols in error of tag lines, by page (R208). -/
  tagBuf : List Nat
  tagErrs : List (Nat × Nat)
deriving DecidableEq, Repr

/-- A channel after reset. -/
def Channel.reset : Channel where
  fenced := false
  untrained := false
  held := false
  blocks := []
  used := []
  retired := []
  flagged := []
  reloc := []
  copying := []
  pageErr := []
  corrCount := 0
  poisonCount := 0
  hold := []
  scrubHours := 24
  scrubPos := 0
  ifErrors := 0
  regs := []
  capNow := 2560
  cresult := 0
  commit := false
  missCountClear := false
  demotedClear := false
  scaleBack := false
  quietWindows := 0
  window := 0
  missCount := 0
  demoted := 0
  lastAt := []
  recovUsed := 0
  late := []
  tagBuf := []
  tagErrs := []

/-! ### Partitions -/

/-- A range of a near segment that has ceased to exist, and the range of the interleaved segment that holds its data (R212). -/
structure Redirect where
  near : Nat
  size : Nat
  inter : Nat
deriving DecidableEq, Repr

/-- Where a partition lies on its module: what an imposition table holds of it (R254). -/
structure Layout where
  clusters : List Nat
  channels : List Nat
  bases : Tbl Nat
  eI : Nat
  eN : Nat
  vcoreBase : Nat
  power : Nat
  linkShare : List Nat
  memOnly : Bool
  redirect : List Redirect
deriving DecidableEq, Repr

/-- The layout of no resources. -/
def Layout.empty : Layout := ⟨[], [], [], 0, 0, 0, 0, [], false, []⟩

/-- What an allocation is for (R80, R306, R311). -/
inductive AllocKind where
  | heap (h : Nat)
  | save (cluster : Nat)
  | const
  | shared
  | galley
deriving DecidableEq, Repr

/-- A live allocation of a partition address range. -/
structure Alloc where
  base : Nat
  size : Nat
  ctx : Nat
  kind : AllocKind
deriving DecidableEq, Repr

/-- What a partition keeps of its resident image (R305 to R308). -/
structure Residency where
  digest : BitVec 384
  vcores : Nat
  queues : Nat
  layers : Nat
  hasFb : Bool
  fbEntry : Nat
  cls : BitVec 3
  fences : Nat
  progressFence : Nat
  fallbackFence : Nat
  barriers : Nat
  serial : Nat
deriving DecidableEq, Repr

/-- A shadow of one 64 KiB chunk of an EPOCH region (R363): the chunk as it stood at the last mark, its 128 blocks and
which of its 16 pages were not fresh, and the bytes that it takes from the budget. -/
structure Shadow where
  chunk : Nat
  job : Nat
  old : List Block
  oldUsed : List Bool
  cost : Nat
deriving DecidableEq, Repr

/-- One partition (R246). -/
structure Partition where
  inUse : Bool
  forme : Nat
  member : Nat
  /-- The layout of the current epoch, of the epoch still draining, and of the epoch installed and not yet switched. -/
  lay : Layout
  layOld : Option Layout
  layNew : Option Layout
  /-- Where the member lay before a MOVE between modules that is not yet at its quoin: module and partition (R267). -/
  movedFrom : Option (Nat × Nat)
  /-- The module that a MOVE takes the member to, from Switch to release (R264). -/
  movedTo : Option Nat
  /-- The module that the member's contexts have gone to, from MOVE to release (R266). -/
  away : Option Nat
  windows : Tbl KeyWindow
  regions : List Region
  allocs : List Alloc
  residency : Option Residency
  budget : Nat
  shadows : List Shadow
  /-- Ladder level of a recovery in progress, 0 for none (R356). -/
  recovering : Nat
  /-- The governor's step n_g (R439). -/
  clockStep : Nat
deriving DecidableEq, Repr

/-- A partition number that is not in use. -/
def Partition.reset : Partition where
  inUse := false
  forme := 0
  member := 0
  lay := Layout.empty
  layOld := none
  layNew := none
  movedFrom := none
  movedTo := none
  away := none
  windows := []
  regions := []
  allocs := []
  residency := none
  budget := 0
  shadows := []
  recovering := 0
  clockStep := 0

/-! ### Keys (R395 to R402, R412, R418) -/

/-- The types of Table 13-7; 0 is an entry that was never used. -/
inductive KeyType where
  | none | module | partition | context | mem | link | session | access
deriving DecidableEq, Repr

/-- The window of counters accepted for one source and sealing engine (R418). -/
structure RecvWin where
  src : Nat
  engine : Nat
  highest : Nat
  seen : List Nat
deriving DecidableEq, Repr

/-- An entry of the key register (Table 13-6), with its material's identity. -/
structure KeyEntry where
  type : KeyType
  valid : Bool
  expire : Bool
  staged : Bool
  engines : BitVec 6
  owner : Nat
  share : Nat
  part : Nat
  current : Bool
  uses : Nat
  limitLog : Nat
  stageForme : Nat
  stageMember : Nat
  key : KeyId
  /-- Order of installation (R419). -/
  order : Nat
  warned : Bool
  /-- The session that sealed a staged install (R416). -/
  stageSession : Nat
  sendCtr : Tbl Nat
  recv : List RecvWin
deriving DecidableEq, Repr

/-- An unused entry (Table 13-6's reset column). -/
def KeyEntry.reset : KeyEntry where
  type := .none
  valid := false
  expire := false
  staged := false
  engines := 0
  owner := 0
  share := 0
  part := 0
  current := false
  uses := 0
  limitLog := 0
  stageForme := 0
  stageMember := 0
  key := .modstore 0 0
  order := 0
  warned := false
  stageSession := 0
  sendCtr := []
  recv := []

/-- An open session (R410 to R413): counters are kept for each queue, last accepted from the host and next to send. -/
structure Session where
  opened : Nat
  serial : Nat
  lastIn : Tbl Nat
  nextOut : Tbl Nat
deriving DecidableEq, Repr

/-- A share list (R399): the handle it belongs to and its principals as 32-bit values. -/
structure ShareList where
  handle : Nat
  members : List Nat
deriving DecidableEq, Repr

end Sys2Proof.Machine
end

