-- ==== Sys2Proof/Machine/JobParts.lean ====
section
/-! DEFINITION. The parts of the state that formes, changes, contexts, queues, jobs and recovery hold (chapters 09, 10
and 12). -/

namespace Sys2Proof.Machine

/-! ### Formes and changes -/

/-- A member-map entry (R254): the module, the partition number there and whether the member is memory-only. -/
structure MemberRec where
  fab : Nat
  part : Nat
  memOnly : Bool
deriving DecidableEq, Repr

/-- Where a moved chunk stands (Table 09-7); `skipped` is a chunk the sweeper passed over (R270). -/
inductive ChunkState where
  | source | pulling | held | skipped
deriving DecidableEq, Repr

/-- A chunk's record in a change (R269); `live` tells of one that is being pulled whether it held a live allocation when the pull began. -/
structure ChunkRec where
  part : Nat
  chunk : Nat
  state : ChunkState
  live : Bool
deriving DecidableEq, Repr

/-- The state of a core that a stopped context keeps (R83, R127, R265). -/
structure CoreSave where
  core : Core
deriving DecidableEq, Repr

/-- One mini-switch (R265, R284): the tag, the clusters and modules at both ends, the size announced, whether MS_BEGIN has
been sent and MS_READY received, the cluster's state as carried within the module, the image lines that have arrived from
another module, and whether it is done. -/
structure MiniSwitch where
  tag : Nat
  part : Nat
  srcMod : Nat
  srcClu : Nat
  dstMod : Nat
  dstClu : Nat
  size : Nat
  ways : Nat
  begun : Bool
  ready : Bool
  carried : Bool
  image : List (Nat × BitVec 512)
  done : Bool
  /-- Control messages for the hub that are held at the target until the cluster resumes (R264, R265). -/
  held : List (Nat × CtrlMsg)
deriving DecidableEq, Repr

/-- The steps of Table 09-5 as the master counts them, and waiting for ABORTED (R275). -/
inductive ChangeStep where
  | admission | install | switch | drain | move | quoin | release | aborting
deriving DecidableEq, Repr

/-- A change in progress as this module knows it: as master, as participant, or as both (R260). -/
structure Change where
  cseq : Nat
  master : Nat
  hdr : PlanHeader
  entries : List PlanEntry
  recovery : Bool
  /-- As master: the step reached, the participants, the modules of every member, those that have answered in the step and
  those that have reported DRAINED, and every refusal received. -/
  step : ChangeStep
  parts : List Nat
  mods : List Nat
  answered : List Nat
  drained : List Nat
  refusals : List (Nat × Nat)
  started : Nat
  stepStart : Nat
  /-- The epoch that the change installs: E+1, and E+2 while an abort after Switch restores E (R275). -/
  toEpoch : Nat
  undo : Bool
  /-- Epoch E+2 has been switched to. -/
  restored : Bool
  /-- As master: the command that asked for the change, by its place on queue 0. -/
  queue : Option Nat
  outcome : Nat
  reason : Nat
  reasonMember : Option Nat
  lostCtx : Nat
  renumber : List Renumber
  failedMods : List Nat
  decided : Bool
  /-- As participant: admitted, this module's entries, installed, switched, drain reported, moving, moved, quoined. -/
  admitted : Bool
  own : List PlanEntry
  switched : Bool
  drainReported : Bool
  moving : Bool
  movedSent : Bool
  quoined : Bool
  switchedAt : Nat
  chunks : List ChunkRec
  minis : List MiniSwitch
  nextTag : Nat
  deferrals : Nat
  /-- Gang switches put off until the mini-switches of their member end: member and incoming job (R278). -/
  deferred : List (Nat × Nat)
  chunksMoved : Nat
deriving DecidableEq, Repr

/-- What has arrived of a compositor message sent in several packets (R281). -/
structure PartMsg where
  forme : Nat
  opc : Nat
  cseq : Nat
  src : Nat
  total : Nat
  lines : List (Nat × BitVec 512)
deriving DecidableEq, Repr

/-- A compositor request or report already answered, with its answer (R282). -/
structure Answered where
  opc : Nat
  req : CompMsg
  ansOpc : Nat
  ans : CompMsg
deriving DecidableEq, Repr

/-- A request or report sent and not yet answered, with the time of its last sending (R282). -/
structure Unanswered where
  opc : Nat
  msg : CompMsg
  sentAt : Nat
deriving DecidableEq, Repr

/-- A spare resource of RESERVE (R373). -/
structure Reserve where
  fab : Nat
  clusters : BitVec 48
deriving DecidableEq, Repr

/-- The steps of a forme's recovery at its master (Table 12-10). -/
inductive RecoverStep where
  | none | rollback | planned | resumed | needsResize
deriving DecidableEq, Repr

/-- A forme that has a member on this module (R250 to R255, R309, R370 to R374). -/
structure Forme where
  id : Nat
  epoch : Nat
  draining : Option Nat
  /-- The member maps of the current epoch, the draining epoch, and the epoch installed and not yet switched. -/
  members : Tbl MemberRec
  membersOld : Tbl MemberRec
  membersNew : Option (Nat × Tbl MemberRec)
  cseq : Nat
  /-- CSEQ of the last change whose INSTALL has come: every member knows it (R281). -/
  instCseq : Nat
  change : Option Change
  peerTimeout : Nat
  quantum : Nat
  newQuantum : Option Nat
  rotation : List Nat
  running : Option Nat
  quantumStart : Nat
  /-- The incoming job of a gang switch and the compute members that have not yet returned SWITCHED (R310). -/
  switching : Option (Nat × List Nat)
  lastPulse : Tbl Nat
  lastPulseAns : Tbl Nat
  frozen : Bool
  probe : Option (Nat × Nat)
  askers : List Nat
  rseq : Nat
  reserves : List Reserve
  recStep : RecoverStep
  recStart : Nat
  failedMember : Option Nat
  /-- Members of this forme that have been declared failed (R273). -/
  failedMembers : List Nat
  /-- Members that stay in service and need clusters elsewhere, with how many (R352). -/
  recMembers : Tbl Nat
  /-- Jobs and modules whose ROLLED_BACK the master waits for; jobs rolled back here and not resumed; jobs lost. -/
  rollbackWait : List (Nat × Nat)
  rolledJobs : List Nat
  lostJobs : List Nat
  recLost : Nat
  culpritLost : Bool
  masterMoved : Bool
  /-- A recovery report that waits for the renumbering of the recovery change (R376): status, detail and words 4 to 6. -/
  report : Option (Nat × Nat × List Word64)
  /-- After MASTER_CLAIM: the old master's address and the deputy's (R374). -/
  redirect : Option (Nat × Nat)
  /-- The master's copies of logged command entries: member, job, queue and words (R366). -/
  logCopies : List (Nat × Nat × Nat × List Word64)
  /-- At the master, the last plan entry of each member: what its composition record says of the member's size. -/
  plans : Tbl PlanEntry
  /-- Recovery changes that wait for the change in progress (R277). -/
  recQueue : List (List PlanEntry)
deriving DecidableEq, Repr

/-! ### Contexts, queues, commands and jobs -/

/-- The states of Table 10-1. -/
inductive CtxState where
  | free | live | lost | tearing
deriving DecidableEq, Repr

/-- Why a teardown began (Table 10-12): by a command of a queue, or by itself. -/
inductive TeardownWhy where
  | command (queue tag : Nat)
  | lease | memberLost | recovery
deriving DecidableEq, Repr

/-- A context (R285 to R289, R311, R315, R319). -/
structure Context where
  state : CtxState
  forme : Nat
  member : Nat
  part : Nat
  conn : Nat
  job : Nat
  asn : Nat
  seed : Word64
  leaseMs : Nat
  leaseStart : Nat
  session : Nat
  dedicated : Bool
  share : Nat
  quotas : List Nat
  imports : List Nat
  fenceQuota : Nat
  constBase : Nat
  energy : Nat
  /-- The serial number of the CONTEXT key in its slot of the context key bank (R395). -/
  keySerial : Nat
  saved : Tbl CoreSave
  savedScratch : Tbl Mem
  /-- The lines of each cluster's save area that were last written, by offset (R311). -/
  savedLines : Tbl (List (Nat × BitVec 512))
  /-- Suspended streams in the save area, by the engine they came from (R178, R311). -/
  savedStreams : List (Nat × Stream)
  /-- The descriptors that wait in the input queues of its engines, with their engines, while the context is switched out. -/
  savedDescs : List (Nat × QueuedDesc)
  teardown : Option TeardownWhy
  /-- When its drain began (Table 10-12, step 2). -/
  tearAt : Nat
  drainForced : Bool
  refused : Bool
deriving DecidableEq, Repr

/-- A context number that is FREE. -/
def Context.reset : Context where
  state := .free
  forme := 0
  member := 0
  part := 0
  conn := 0
  job := 0
  asn := 0
  seed := 0
  leaseMs := 0
  leaseStart := 0
  session := 0
  dedicated := false
  share := 0
  quotas := []
  imports := []
  fenceQuota := 0
  constBase := 0
  energy := 0
  keySerial := 0
  saved := []
  savedScratch := []
  savedLines := []
  savedStreams := []
  savedDescs := []
  teardown := none
  tearAt := 0
  drainForced := false
  refused := false

/-- What a running RUN holds (R300, R313). -/
structure RunInfo where
  forme : Nat
  job : Nat
  seq : Nat
  /-- Local cores that have not reached program end, and virtual cores of other modules that have not. -/
  cores : List Nat
  remote : List (Nat × Nat)
  deadline : Nat
  watch : Bool
  p0 : Nat
deriving DecidableEq, Repr

/-- Whether a RUN is that of a RUN_SEQ of a job. -/
def RunInfo.is (r : RunInfo) (forme job seq : Nat) : Bool := decide (r.forme = forme ∧ r.job = job ∧ r.seq = seq)

/-- Where a fetched command stands. -/
inductive CmdState where
  | waiting | running | done
deriving DecidableEq, Repr

/-- A fetched command (R293 to R295). -/
structure Cmd where
  place : Nat
  words : List Word64
  second : List Word64
  /-- The session under which it was opened, 0 for none. -/
  session : Nat
  state : CmdState
  waitMet : Bool
  fetched : Nat
  started : Nat
  /-- The bulk argument once it has been read (R294). -/
  bulk : Option (List Byte)
  bulkAsked : Bool
  /-- Orders to the modules of other members are out, and their answers have yet to come (R298, R307). -/
  asked : Bool
  notRepro : Bool
  fallback : Bool
  run : Option RunInfo
  /-- The contexts of this module that take part, each with its energy at the start (R301). -/
  energy0 : Tbl Nat
  /-- Energy in µJ that members on other modules have reported for their part, by member. -/
  energyFar : Tbl Nat
  /-- Completed before the rollback that replays it (R369). -/
  silent : Bool
  /-- The host connection whose doorbell made it available: it carries the command and its bulk argument (R294, R492). -/
  conn : Nat
deriving DecidableEq, Repr

/-- A queue (R290 to R293). -/
structure Queue where
  inUse : Bool
  ctx : Nat
  ringLog : Nat
  ringBase : Nat
  cring : Nat
  gen : Nat
  head : Nat
  tail : Nat
  error : Bool
  cmds : List Cmd
  nextPlace : Nat
  /-- The host connection of the last doorbell. -/
  conn : Nat
  /-- The doorbells whose entries are still to be fetched, oldest first: TAIL and the connection that carried it (R492). -/
  rings : List (Nat × Nat)
  /-- Fetching is held until the EPOCH_MARK of the job completes (R365). -/
  markHold : Bool
  /-- Destroyed while commands that it had fetched run on; with the last of them it goes. -/
  closing : Bool
deriving DecidableEq, Repr

/-- A queue number never given out. -/
def Queue.reset : Queue := ⟨false, 0, 0, 0, 0, 0, 0, 0, false, [], 0, 0, [], false, false⟩

/-- A completion group that waits for space on its ring (R493): the entries, the queue they are of, and the session that
seals them, 0 for none (R498). -/
structure CGroup where
  session : Nat
  queue : Nat
  entries : List (List Word64)
deriving DecidableEq, Repr

/-- A completion ring (R485, R493, R494). -/
structure CRing where
  defined : Bool
  conn : Nat
  addr : Nat
  rkey : Nat
  log : Nat
  head : Nat
  tail : Nat
  notify : Bool
  phase : Bool
  /-- Groups that wait for space. -/
  waiting : List CGroup
  /-- The port of the connection that was closed with the ring: what comes for it is discarded there (R484). -/
  closed : Option Nat
deriving DecidableEq, Repr

/-- A completion ring that is not defined. -/
def CRing.reset : CRing := ⟨false, 0, 0, 0, 0, 0, 0, false, false, [], none⟩

/-- A logged command of an epoch (R366). -/
structure LogEntry where
  queue : Nat
  place : Nat
  words : List Word64
  completed : Bool
  /-- It completed with a status other than OK. -/
  failed : Bool
deriving DecidableEq, Repr

/-- What the last mark of a job replaced on this module: a failure before the master has recorded the mark rolls back to the mark before
(R365). -/
structure MarkBefore where
  budget : Nat
  logCap : Nat
  coreState : Bool
  active : Bool
  mark : Nat
  impure : Bool
  unprotected : Bool
  log : List LogEntry
  fenceSnap : List (Nat × Nat)
  allocSnap : List (Nat × List Alloc)
  checkpoint : Tbl CoreSave
  markSeq : Nat
  markRan : List Nat
  /-- The shadows of its epoch, by partition. -/
  shadows : List (Nat × Shadow)
deriving DecidableEq, Repr

/-- A job on this module (R286, R300, R308, R362 to R369). -/
structure Job where
  forme : Nat
  id : Nat
  runSeq : Nat
  /-- Virtual cores on which the job has run (R300). -/
  ran : List Nat
  /-- RUN_SEQ and the virtual cores that had run at the last mark (R368). -/
  markSeq : Nat
  markRan : List Nat
  digest : Option (BitVec 384)
  budget : Nat
  logCap : Nat
  coreState : Bool
  /-- EPOCH_CONFIG accepted and not yet in force: budget, log capacity, CORE_STATE (R362). -/
  pendCfg : Option (Nat × Nat × Bool)
  active : Bool
  mark : Nat
  impure : Bool
  unprotected : Bool
  log : List LogEntry
  fenceSnap : List (Nat × Nat)
  allocSnap : List (Nat × List Alloc)
  checkpoint : Tbl CoreSave
  /-- What the last mark replaced (R365). -/
  before : Option MarkBefore
  /-- A context of the job is affected, so that the job must be rolled back (R348). -/
  affected : Bool
  checkedOut : List Nat
  /-- RUNs fetched on other modules that cores of this one have marked not reproducible (R204). -/
  marks : List Nat
deriving DecidableEq, Repr

/-- What goes with a member to another module beside its chunks (R266, R268): its regions, allocations, windows and residency,
its contexts and queues under their old numbers, its jobs and its clock step. -/
structure Carry where
  regions : List Region
  allocs : List Alloc
  windows : Tbl KeyWindow
  residency : Option Residency
  budget : Nat
  ctxs : Tbl Context
  queues : Tbl Queue
  jobs : List Job
  /-- The governor's step, which a move carries (R445). -/
  clockStep : Nat
  /-- The change is one for recovery, which no field of ADMIT says (R277; assumption 135). -/
  recovery : Bool := false
deriving DecidableEq, Repr

/-- What comes with the messages of a packet beside the words that the tables lay out: what goes with each member that moves here
(R266), fence values that move from a deputy, the numbers of a claim, what the compositor knows of other modules, and whether an
ASSIGN writes routes (R473), and what a participant has counted of a change, of which MOVED says nothing (R276). -/
structure Told where
  carry : Tbl Carry
  fences : List (Nat × Nat)
  numbers : List Nat
  views : List ModuleView
  routes : Bool
  chunks : Nat := 0
  lost : Nat := 0
deriving DecidableEq, Repr

/-- Nothing comes beside. -/
def Told.none : Told := ⟨[], [], [], [], false, 0, 0⟩

/-! ### Recovery on this module -/

/-- A recovery of the ladder in progress (R347, R356, R358). -/
structure Ladder where
  res : Resource
  /-- The unit whose hang started it, if a hang did (R345). -/
  unit : Option HangUnit
  level : Nat
  start : Nat
  part : Option Nat
  suspects : List Nat
  affected : List Nat
  /-- It waits for one of the eight recoveries that its die runs at once (R357). -/
  waiting : Bool
  /-- It is the repeated hang of a culprit search (R360). -/
  repeated : Bool
  /-- A nested error escalates it (R356). -/
  escalate : Bool
deriving DecidableEq, Repr

/-- A search for the culprit among affected suspects (R359 to R361). -/
structure Culprit where
  unit : HangUnit
  todo : List Nat
  testing : Option Nat
  tested : Nat
  level : Nat
deriving DecidableEq, Repr

end Sys2Proof.Machine
end

