-- ==== Sys2Proof/Machine/LinkParts.lean ====
section
/-! DEFINITION. The parts of the state that the Mbamar links, the routing table and the addressing walk hold (chapter 15). -/

namespace Sys2Proof.Machine

/-- The states of a link (Table 15-10), with the step of Table 15-2 that a link in training has reached. -/
inductive LinkState where
  | down
  | training (step : Nat)
  /-- `proved` holds once the partner's PROOF has been accepted. -/
  | guarding (proved : Bool)
  | up
  | rejected
deriving DecidableEq, Repr

/-- What the partner keeps of a lost link (R469): LINK_EPOCH, the last FSEQ accepted on it, and when it went down. -/
structure DetourRec where
  epoch : Nat
  fseq : Option Nat
  at_ : Nat
deriving DecidableEq, Repr

/-- What the retry buffer holds of a flit (R457): the packet that it ends, or a flit of KIND NAK with its ACKSEQ. -/
inductive RetryItem where
  | packet (p : Packet)
  | nak (ackSeq : Nat)
deriving DecidableEq, Repr

/-- What an output link counts to choose its next packet (R465). -/
structure LinkArb where
  /-- The µs in which VL0 and all lanes are metered, and the slots of VL0 and of all lanes sent in it. -/
  us : Nat
  vl0 : Nat
  all : Nat
  /-- The 2 µs in which VL1 is metered, and the slots of VL1 sent in it. -/
  window : Nat
  vl1 : Nat
  /-- Whether transit packets have the turn, and the slots of the turn so far. -/
  transit : Bool
  turn : Nat
  /-- Deficit round robin: the share served last, the slots that each may still send, and the sub-lane served last of each. -/
  at_ : Nat
  deficit : Tbl Nat
  lastSub : Tbl Nat
deriving DecidableEq, Repr

/-- Nothing has been sent. -/
def LinkArb.reset : LinkArb := ⟨0, 0, 0, 0, 0, false, 0, 0, [], []⟩

/-- One link (Table 15-10, R454 to R469). -/
structure Link where
  state : LinkState
  partnerMod : Nat
  partnerV : Bool
  partnerLink : Nat
  partnerSerial : Nat
  epoch : Nat
  rtt : Nat
  disable : Bool
  fecCorr : Nat
  fecUncorr : Nat
  replay : Nat
  authFail : Nat
  unreach : Nat
  hopsDrop : Nat
  detour : Nat
  detourDup : Nat
  guardFail : Nat
  /-- Local times of failed trainings within 1 s, whether the link waits for RETRAIN, and when it went down (R454). -/
  failed : List Nat
  /-- Local time at which the present step of Table 15-2 began. -/
  stepAt : Nat
  waits : Bool
  downAt : Option Nat
  /-- Whether the partner's HELLO has arrived (R459). -/
  hello : Bool
  /-- Position of the next flit to send, and the last position acknowledged (R457, R461). -/
  nextPos : Nat
  acked : Nat
  /-- What is sent and not acknowledged, with the position of its last flit. -/
  retry : List (Nat × RetryItem)
  /-- Replays since an acknowledgement last advanced. -/
  replays : Nat
  /-- Position of the next flit to accept, and whether flits are discarded until a replay (R457). -/
  rxPos : Nat
  nakSent : Bool
  /-- Local times of uncorrectable blocks within 1 ms (R458). -/
  uncorrAt : List Nat
  /-- Credits at the transmitter, by sub-lane, and packets that wait for them (R464). -/
  credits : Tbl Nat
  waiting : List Packet
  /-- Shared slots that the receiver has granted, by sub-lane (R464). -/
  granted : Tbl Nat
  /-- What the receiver counts (R464): unused credits at the partner by sub-lane, and packets accepted that still take room in the
  receive buffer because they wait at an output: sub-lane, slots, and the packet as it waits. -/
  rxCredits : Tbl Nat
  buffered : List (Nat × Nat × Packet)
  arb : LinkArb
  record : Option DetourRec
  /-- Local time of the last LINK record of event AUTH_FAIL (R463). -/
  authRecAt : Option Nat
  /-- Counters that a write has cleared and that the next flit will clear (R474), by number in the order of Table 15-10. -/
  clearing : List Nat
deriving DecidableEq, Repr

/-- A link after reset (Table 15-10). -/
def Link.reset : Link where
  state := .down
  partnerMod := 0
  partnerV := false
  partnerLink := 0
  partnerSerial := 0
  epoch := 0
  rtt := 0
  disable := false
  fecCorr := 0
  fecUncorr := 0
  replay := 0
  authFail := 0
  unreach := 0
  hopsDrop := 0
  detour := 0
  detourDup := 0
  guardFail := 0
  failed := []
  stepAt := 0
  waits := false
  downAt := none
  hello := false
  nextPos := 0
  acked := 0
  retry := []
  replays := 0
  rxPos := 0
  nakSent := false
  uncorrAt := []
  credits := []
  waiting := []
  granted := []
  rxCredits := []
  buffered := []
  arb := LinkArb.reset
  record := none
  authRecAt := none
  clearing := []

/-- A module that the walk has found (R471): its route from the root and the arrival links, the index of its parent, the
link at the parent and its own link towards it, the links UP there, and the address it holds or is given. -/
structure WalkNode where
  serial : Nat
  route : List Nat
  ret : List Nat
  parent : Nat
  parentLink : Nat
  up : Nat
  addr : Option Nat
  given : Bool
deriving DecidableEq, Repr

/-- A QUERY that waits to be sent, or has been sent (R471): its route, the node it extends, tries and time of sending. -/
structure WalkQuery where
  route : List Nat
  parent : Nat
  tries : Nat
  sentAt : Nat
deriving DecidableEq, Repr

/-- The addressing walk at the root (R471, R473): WSTATUS, WCOUNT, the present WALK_ID, what it has found and asked, and the
nodes whose ASSIGN is not acknowledged. -/
structure Walk where
  wstatus : Nat
  wcount : Nat
  walkId : Nat
  /-- No walk has run before: the first one writes routes. -/
  first : Bool
  nodes : List WalkNode
  queries : List WalkQuery
  assigns : List Nat
  /-- Modules beyond 16 hops, or beyond the 65,536th. -/
  beyond : Nat
deriving DecidableEq, Repr

/-- No walk has run. -/
def Walk.reset : Walk := ⟨0, 0, 0, true, [], [], [], 0⟩

end Sys2Proof.Machine
end

