-- ==== Sys2Proof/Syntax.lean ====
section
/-! DEFINITION. The commands of the GB7 block, one constructor per row of the opcode table. The table gives no operand
fields, so every operand is this model's own reading of what the row's rule needs (assumption 2). -/

namespace Sys2Proof

open Sys2Proof.Machine

/-- A command of the block: one constructor per row of the opcode table, in its order. -/
inductive Instr where
  /-- BUNDLE_ISSUE (R42). -/
  | bundleIssue (core : CoreId)
  /-- NOP (R56). -/
  | nop (core : CoreId) (h : Hdr)
  /-- ADD (R56). -/
  | add (core : CoreId) (h : Hdr) (xd xa xb : Fin 32)
  /-- SUB (R56). -/
  | sub (core : CoreId) (h : Hdr) (xd xa xb : Fin 32)
  /-- AND (R56). -/
  | and (core : CoreId) (h : Hdr) (xd xa xb : Fin 32)
  /-- OR (R56). -/
  | or (core : CoreId) (h : Hdr) (xd xa xb : Fin 32)
  /-- XOR (R56). -/
  | xor (core : CoreId) (h : Hdr) (xd xa xb : Fin 32)
  /-- SHL (R56). -/
  | shl (core : CoreId) (h : Hdr) (xd xa xb : Fin 32)
  /-- SHR (R56). -/
  | shr (core : CoreId) (h : Hdr) (xd xa xb : Fin 32)
  /-- SAR (R56). -/
  | sar (core : CoreId) (h : Hdr) (xd xa xb : Fin 32)
  /-- MUL (R56). -/
  | mul (core : CoreId) (h : Hdr) (xd xa xb : Fin 32)
  /-- MULH (R56). -/
  | mulh (core : CoreId) (h : Hdr) (xd xa xb : Fin 32)
  /-- MIN (R56). -/
  | min (core : CoreId) (h : Hdr) (xd xa xb : Fin 32)
  /-- MAX (R56). -/
  | max (core : CoreId) (h : Hdr) (xd xa xb : Fin 32)
  /-- SLT (R56). -/
  | slt (core : CoreId) (h : Hdr) (xd xa xb : Fin 32)
  /-- SLTU (R56). -/
  | sltu (core : CoreId) (h : Hdr) (xd xa xb : Fin 32)
  /-- ADDI (R56). -/
  | addi (core : CoreId) (h : Hdr) (xd xa : Fin 32) (imm : BitVec 36)
  /-- ANDI (R56). -/
  | andi (core : CoreId) (h : Hdr) (xd xa : Fin 32) (imm : BitVec 36)
  /-- ORI (R56). -/
  | ori (core : CoreId) (h : Hdr) (xd xa : Fin 32) (imm : BitVec 36)
  /-- XORI (R56). -/
  | xori (core : CoreId) (h : Hdr) (xd xa : Fin 32) (imm : BitVec 36)
  /-- SHLI (R56). -/
  | shli (core : CoreId) (h : Hdr) (xd xa : Fin 32) (imm : BitVec 36)
  /-- SHRI (R56). -/
  | shri (core : CoreId) (h : Hdr) (xd xa : Fin 32) (imm : BitVec 36)
  /-- LDHI (R56). -/
  | ldhi (core : CoreId) (h : Hdr) (xd xa : Fin 32) (imm : BitVec 36)
  /-- LD (R57). -/
  | ld (core : CoreId) (h : Hdr) (xd xa : Fin 32) (imm : BitVec 36)
  /-- ST (R57). -/
  | st (core : CoreId) (h : Hdr) (xd xa : Fin 32) (imm : BitVec 36)
  /-- TDLD (R57). -/
  | tdld (core : CoreId) (h : Hdr) (xd xa : Fin 32) (imm : BitVec 36)
  /-- TDST (R57). -/
  | tdst (core : CoreId) (h : Hdr) (xd xa : Fin 32) (imm : BitVec 36)
  /-- J (R45). -/
  | j (core : CoreId) (h : Hdr) (target : BitVec 13)
  /-- BEQ (R45). -/
  | beq (core : CoreId) (h : Hdr) (xa xb : Fin 32) (target : BitVec 13)
  /-- BNE (R45). -/
  | bne (core : CoreId) (h : Hdr) (xa xb : Fin 32) (target : BitVec 13)
  /-- BLT (R45). -/
  | blt (core : CoreId) (h : Hdr) (xa xb : Fin 32) (target : BitVec 13)
  /-- BGE (R45). -/
  | bge (core : CoreId) (h : Hdr) (xa xb : Fin 32) (target : BitVec 13)
  /-- BLTU (R45). -/
  | bltu (core : CoreId) (h : Hdr) (xa xb : Fin 32) (target : BitVec 13)
  /-- CALL (R58). -/
  | call (core : CoreId) (h : Hdr) (target : BitVec 13)
  /-- RET (R58). -/
  | ret (core : CoreId) (h : Hdr)
  /-- JR (R47). -/
  | jr (core : CoreId) (h : Hdr) (xa : Fin 32)
  /-- LOOP (R58). -/
  | loop (core : CoreId) (h : Hdr) (xa : Fin 32) (target : BitVec 13)
  /-- HALT (R60). -/
  | halt (core : CoreId) (h : Hdr)
  /-- PROGRAM_END (R60). -/
  | programEnd (who : ProgramEnd)
  /-- CSRR (R59). -/
  | csrr (core : CoreId) (h : Hdr) (xd xa : Fin 32) (imm : BitVec 36)
  /-- CSRW (R59). -/
  | csrw (core : CoreId) (h : Hdr) (xd xa : Fin 32) (imm : BitVec 36)
  /-- CSRS (R59). -/
  | csrs (core : CoreId) (h : Hdr) (xd xa : Fin 32) (imm : BitVec 36)
  /-- CSRC (R59). -/
  | csrc (core : CoreId) (h : Hdr) (xd xa : Fin 32) (imm : BitVec 36)
  /-- ALLOC (R79). -/
  | alloc (core : CoreId) (h : Hdr) (xd xa : Fin 32) (imm : BitVec 36)
  /-- FREE (R80). -/
  | free (core : CoreId) (h : Hdr) (xd xa xb : Fin 32)
  /-- ALLOCATOR_ANSWER (R81). -/
  | allocatorAnswer (cluster : ClusterId)
  /-- FSIG (R62). -/
  | fsig (core : CoreId) (h : Hdr) (xd xa xb : Fin 32)
  /-- FADD (R62). -/
  | fadd (core : CoreId) (h : Hdr) (xd xa xb : Fin 32)
  /-- FWAIT (R63). -/
  | fwait (core : CoreId) (h : Hdr) (xd xa xb : Fin 32) (imm : BitVec 31)
  /-- FREAD (R231). -/
  | fread (core : CoreId) (h : Hdr) (xd xa xb : Fin 32)
  /-- FTOK (R64). -/
  | ftok (core : CoreId) (h : Hdr) (xd xa xb : Fin 32)
  /-- RFSIG (R62). -/
  | rfsig (core : CoreId) (h : Hdr) (xd xa xb : Fin 32)
  /-- RFADD (R62). -/
  | rfadd (core : CoreId) (h : Hdr) (xd xa xb : Fin 32)
  /-- RFWAIT (R239). -/
  | rfwait (core : CoreId) (h : Hdr) (xd xa xb : Fin 32) (imm : BitVec 31)
  /-- RFREAD (R62). -/
  | rfread (core : CoreId) (h : Hdr) (xd xa xb : Fin 32)
  /-- BARA (R242). -/
  | bara (core : CoreId) (h : Hdr) (xd xa xb : Fin 32)
  /-- BARW (R243). -/
  | barw (core : CoreId) (h : Hdr) (xd xa xb : Fin 32) (imm : BitVec 31)
  /-- BART (R64). -/
  | bart (core : CoreId) (h : Hdr) (xd xa xb : Fin 32)
  /-- SYNC_ANSWER (R62). -/
  | syncAnswer (core : CoreId)
  /-- FENCE_WAIT_TIMEOUT (R63). -/
  | fenceWaitTimeout (core : CoreId)
  /-- MMA (R98). -/
  | mma (core : CoreId)
  /-- MMAZ (R88). -/
  | mmaz (core : CoreId)
  /-- ACCST (R102). -/
  | accst (core : CoreId)
  /-- ACCLD (R105). -/
  | accld (core : CoreId)
  /-- ACCZ (R88). -/
  | accz (core : CoreId)
  /-- VADD (R131). -/
  | vadd (core : CoreId)
  /-- VSUB (R131). -/
  | vsub (core : CoreId)
  /-- VMUL (R131). -/
  | vmul (core : CoreId)
  /-- VFMA (R131). -/
  | vfma (core : CoreId)
  /-- VFMS (R131). -/
  | vfms (core : CoreId)
  /-- VDIV (R131). -/
  | vdiv (core : CoreId)
  /-- VSQRT (R131). -/
  | vsqrt (core : CoreId)
  /-- VRSQRT (R135). -/
  | vrsqrt (core : CoreId)
  /-- VRCP (R135). -/
  | vrcp (core : CoreId)
  /-- VMIN (R130). -/
  | vmin (core : CoreId)
  /-- VMAX (R130). -/
  | vmax (core : CoreId)
  /-- VABS (R131). -/
  | vabs (core : CoreId)
  /-- VNEG (R131). -/
  | vneg (core : CoreId)
  /-- VEXP (R135). -/
  | vexp (core : CoreId)
  /-- VEXP2 (R135). -/
  | vexp2 (core : CoreId)
  /-- VLOG (R135). -/
  | vlog (core : CoreId)
  /-- VLOG2 (R135). -/
  | vlog2 (core : CoreId)
  /-- VSIN (R135). -/
  | vsin (core : CoreId)
  /-- VCOS (R135). -/
  | vcos (core : CoreId)
  /-- VTANH (R135). -/
  | vtanh (core : CoreId)
  /-- VSIGM (R135). -/
  | vsigm (core : CoreId)
  /-- VERF (R135). -/
  | verf (core : CoreId)
  /-- VGELU (R130). -/
  | vgelu (core : CoreId)
  /-- VIADD (R133). -/
  | viadd (core : CoreId)
  /-- VISUB (R133). -/
  | visub (core : CoreId)
  /-- VIMUL (R133). -/
  | vimul (core : CoreId)
  /-- VAND (R133). -/
  | vand (core : CoreId)
  /-- VOR (R133). -/
  | vor (core : CoreId)
  /-- VXOR (R133). -/
  | vxor (core : CoreId)
  /-- VSHL (R130). -/
  | vshl (core : CoreId)
  /-- VSHR (R133). -/
  | vshr (core : CoreId)
  /-- VSAR (R133). -/
  | vsar (core : CoreId)
  /-- VIMAX (R130). -/
  | vimax (core : CoreId)
  /-- VCMP (R134). -/
  | vcmp (core : CoreId)
  /-- VSEL (R134). -/
  | vsel (core : CoreId)
  /-- VCLASS (R134). -/
  | vclass (core : CoreId)
  /-- VCVT (R136). -/
  | vcvt (core : CoreId)
  /-- VRSUM (R141). -/
  | vrsum (core : CoreId)
  /-- VRMAX (R141). -/
  | vrmax (core : CoreId)
  /-- VRMIN (R141). -/
  | vrmin (core : CoreId)
  /-- VRAMAX (R141). -/
  | vramax (core : CoreId)
  /-- VRSUMX (R142). -/
  | vrsumx (core : CoreId)
  /-- VSCAN (R141). -/
  | vscan (core : CoreId)
  /-- VPERM (R143). -/
  | vperm (core : CoreId)
  /-- VBCAST (R130). -/
  | vbcast (core : CoreId)
  /-- VTRANS (R143). -/
  | vtrans (core : CoreId)
  /-- VSHUF (R143). -/
  | vshuf (core : CoreId)
  /-- VAMAX32 (R138). -/
  | vamax32 (core : CoreId)
  /-- VSCALE32 (R139). -/
  | vscale32 (core : CoreId)
  /-- VQUANT (R140). -/
  | vquant (core : CoreId)
  /-- VLD (R144). -/
  | vld (core : CoreId)
  /-- VST (R144). -/
  | vst (core : CoreId)
  /-- VLDS (R144). -/
  | vlds (core : CoreId)
  /-- VSTS (R144). -/
  | vsts (core : CoreId)
  /-- MCPY (R554). -/
  | mcpy (core : CoreId)
  /-- MGATH (R554). -/
  | mgath (core : CoreId)
  /-- MTRN (R69). -/
  | mtrn (core : CoreId)
  /-- MCSR (R554). -/
  | mcsr (core : CoreId)
  /-- MCSW (R554). -/
  | mcsw (core : CoreId)
  /-- MPRD (R70). -/
  | mprd (core : CoreId)
  /-- MPWR (R70). -/
  | mpwr (core : CoreId)
  /-- MPAMO (R202). -/
  | mpamo (core : CoreId)
  /-- MSTRM (R148). -/
  | mstrm (core : CoreId)
  /-- INSTRUCTION_COMPLETION_POINT (R55). -/
  | instructionCompletionPoint (core : CoreId) (g : Executing)
  /-- POISONED_GRANULE_READ (R377). -/
  | poisonedGranuleRead (core : CoreId) (g : EngineKind)
  /-- CORE_STOP (R82). -/
  | coreStop (core : CoreId)
  /-- CORE_RESUME (R83). -/
  | coreResume (core : CoreId)
  /-- STREAM_START (R155). -/
  | streamStart (cluster : ClusterId) (se : Fin 4)
  /-- STREAM_REQUEST_ISSUE (R157). -/
  | streamRequestIssue (cluster : ClusterId) (se : Fin 4) (slot : Fin 8)
  /-- STREAM_REQUEST_COMPLETE (R157). -/
  | streamRequestComplete (cluster : ClusterId) (se : Fin 4) (req : Nat)
  /-- CREDIT_GRANT (R160). -/
  | creditGrant (cluster : ClusterId) (se : Fin 4) (slot : Fin 8)
  /-- STREAM_RESUME (R166). -/
  | streamResume (cluster : ClusterId) (se : Fin 4) (stream : Nat)
  /-- PAGE_REQUEST_TIMEOUT (R172). -/
  | pageRequestTimeout (entry : Fin 1024)
  /-- RDMA_OPERATION_FAILED (R553). -/
  | rdmaOperationFailed (op : Nat)
  /-- INVALIDATION_ENGINE_REPORT (R176). -/
  | invalidationEngineReport (cluster : ClusterId) (se : Fin 4)
  /-- CHANNEL_READ (R187). -/
  | channelRead (q : MemReq)
  /-- CHANNEL_WRITE (R187). -/
  | channelWrite (q : MemReq) (data : BitVec 512)
  /-- MEMORY_SIDE_OPERATION (R201). -/
  | memorySideOperation (q : MemReq) (mop : BitVec 8) (operand : BitVec 512)
  /-- CAS (R202). -/
  | cas (q : MemReq) (operand : BitVec 1024)
  /-- BLOCK_WRITEBACK (R187). -/
  | blockWriteback (ch : ChannelId) (block : BitVec 22)
  /-- PATROL_SCRUB (R208). -/
  | patrolScrub (ch : ChannelId)
  /-- PAGE_RELOCATION_DONE (R210). -/
  | pageRelocationDone (ch : ChannelId) (page : BitVec 19)
  /-- SIGNAL (R226). -/
  | signal (m : CtrlMsg)
  /-- CTRL_ADD (R227). -/
  | ctrlAdd (m : CtrlMsg)
  /-- CTRL_READ (R231). -/
  | ctrlRead (m : CtrlMsg)
  /-- WAIT (R239). -/
  | wait (m : CtrlMsg)
  /-- WAIT_CANCEL (R239). -/
  | waitCancel (m : CtrlMsg)
  /-- CTRL_RELEASE (R236). -/
  | ctrlRelease (m : CtrlMsg)
  /-- BAR_ARRIVE (R242). -/
  | barArrive (m : CtrlMsg)
  /-- RESULT (R240). -/
  | result (m : CtrlMsg)
  /-- READ_ANS (R231). -/
  | readAns (m : CtrlMsg)
  /-- WAIT_DONE (R239). -/
  | waitDone (m : CtrlMsg)
  /-- BAR_DONE (R242). -/
  | barDone (m : CtrlMsg)
  /-- COLD_WAIT_RETEST (R222). -/
  | coldWaitRetest (cluster : ClusterId)
  /-- HOT_FENCE_WRITEBACK (R223). -/
  | hotFenceWriteback (fence : BitVec 20)
  /-- REMOTE_WAIT_POLL (R239). -/
  | remoteWaitPoll (cluster : ClusterId) (tag : BitVec 16)
  /-- ADMIT (R261). -/
  | admitForme (m : CompMsg) (carry : Tbl Carry)
  /-- ADMIT_OK (R261). -/
  | admitOk (m : CompMsg)
  /-- ADMIT_REFUSE (R261). -/
  | admitRefuse (m : CompMsg)
  /-- INSTALL (R262). -/
  | install (m : CompMsg)
  /-- INSTALLED (R260). -/
  | installed (m : CompMsg)
  /-- SWITCH (R262). -/
  | switchEpoch (m : CompMsg)
  /-- SWITCHED (R260). -/
  | switched (m : CompMsg)
  /-- EPOCH_DRAINED (R256). -/
  | epochDrained (forme : BitVec 32)
  /-- DRAINED (R263). -/
  | drained (m : CompMsg)
  /-- DRAIN_LIMIT_EXPIRY (R263). -/
  | drainLimitExpiry (forme : BitVec 32)
  /-- MOVE (R269). -/
  | move (m : CompMsg) (carry : Tbl Carry)
  /-- DEMAND_PULL (R269). -/
  | demandPull (forme : BitVec 32) (p : PartId) (chunk : BitVec 24)
  /-- PULL_COMPLETE (R269). -/
  | pullComplete (forme : BitVec 32) (p : PartId) (chunk : BitVec 24) (landed : Tbl Block)
  /-- SWEEPER (R270). -/
  | sweeper (forme : BitVec 32)
  /-- MOVED (R271). -/
  | moved (m : CompMsg)
  /-- QUOIN (R271). -/
  | quoin (m : CompMsg) (fences : List (BitVec 32 × BitVec 64))
  /-- QUOINED (R272). -/
  | quoined (m : CompMsg)
  /-- RELEASE (R272). -/
  | release (m : CompMsg)
  /-- RELEASED (R272). -/
  | released (m : CompMsg)
  /-- COMPOSITION_TIMEOUT (R273). -/
  | compositionTimeout (forme : BitVec 32) (mod : BitVec 16)
  /-- MEMBER_FAILED (R273). -/
  | memberFailed (m : CompMsg)
  /-- ABORT (R275). -/
  | abort (m : CompMsg)
  /-- ABORTED (R275). -/
  | aborted (m : CompMsg)
  /-- MS_BEGIN (R284). -/
  | msBegin (m : CompMsg)
  /-- MS_READY (R284). -/
  | msReady (m : CompMsg)
  /-- STATE (R284). -/
  | statePacket (link : LinkId) (p : Packet)
  /-- MINI_SWITCH_RESTORE (R265). -/
  | miniSwitchRestore (forme : BitVec 32) (tag : BitVec 16) (notes : List CtlNote) (bars : List BarNote)
  /-- MS_DONE (R265). -/
  | msDone (m : CompMsg)
  /-- FWD (R266). -/
  | fwd (m : CompMsg)
  /-- ACK (R282). -/
  | ack (m : CompMsg)
  /-- COMPOSITOR_MESSAGE_REPEAT (R282). -/
  | compositorMessageRepeat (opc : BitVec 8) (mod : BitVec 16) (forme : BitVec 32)
  /-- DOORBELL (R292). -/
  | doorbell (m : Master) (q : QueueId) (v : BitVec 64)
  /-- COMMAND_FETCH (R293). -/
  | commandFetch (q : QueueId)
  /-- CMD_NOP (R296). -/
  | cmdNop (q : QueueId)
  /-- CREATE_CTX (R289). -/
  | createCtx (q : CtxSource)
  /-- DESTROY_CTX (R319). -/
  | destroyCtx (q : QueueId)
  /-- CREATE_QUEUE (R291). -/
  | createQueue (q : QueueId)
  /-- DESTROY_QUEUE (R296). -/
  | destroyQueue (q : QueueId)
  /-- COMPOSE (R257). -/
  | compose (q : QueueId)
  /-- SET_SCHED (R309). -/
  | setSched (q : QueueId)
  /-- HEARTBEAT (R297). -/
  | heartbeat (q : QueueId)
  /-- LOAD_IMAGE (R307). -/
  | loadImage (src : CmdSource) (far : FarLoad)
  /-- RUN (R300). -/
  | run (src : CmdSource) (far : List (BitVec 16 × BitVec 32 × BitVec 32))
  /-- CMD_ALLOC (R298). -/
  | cmdAlloc (src : CmdSource)
  /-- CMD_FREE (R298). -/
  | cmdFree (src : CmdSource)
  /-- REGION_INSTALL (R199). -/
  | regionInstall (src : CmdSource)
  /-- REGION_CHANGE (R198). -/
  | regionChange (src : CmdSource)
  /-- REGION_REMOVE (R198). -/
  | regionRemove (src : CmdSource)
  /-- FENCE_CREATE (R232). -/
  | fenceCreate (q : QueueId)
  /-- FENCE_RETIRE (R232). -/
  | fenceRetire (q : QueueId)
  /-- FENCE_IMPORT (R235). -/
  | fenceImport (q : CmdSource)
  /-- FENCE_RELEASE (R236). -/
  | fenceRelease (q : QueueId)
  /-- FENCE_SIGNAL (R298). -/
  | fenceSignal (q : QueueId)
  /-- FENCE_SIGNAL_ADD (R298). -/
  | fenceSignalAdd (q : QueueId)
  /-- BAR_CONFIG (R241). -/
  | barConfig (q : QueueId)
  /-- BAR_REMOVE (R241). -/
  | barRemove (q : QueueId)
  /-- WAITV_SATISFIED (R295). -/
  | waitvSatisfied (q : QueueId)
  /-- QUANTUM_EXPIRY (R309). -/
  | quantumExpiry (forme : BitVec 32) (far : List (BitVec 32))
  /-- GANG_SWITCH (R310). -/
  | gangSwitch (forme : BitVec 32) (member : BitVec 16) (job : BitVec 32)
  /-- SWITCH_DONE (R310). -/
  | switchDone (forme : BitVec 32) (member : BitVec 16)
  /-- LEASE_EXPIRY (R315). -/
  | leaseExpiry (ctx : BitVec 16)
  /-- LOSS_REPORT (R316). -/
  | lossReport (forme job : BitVec 32) (member : BitVec 16)
  /-- TEARDOWN_DRAIN_COMPLETE (R319). -/
  | teardownDrainComplete (ctx : BitVec 16)
  /-- TEARDOWN_DRAIN_TIMEOUT (R319). -/
  | teardownDrainTimeout (ctx : BitVec 16)
  /-- REGULATOR_WINDOW (R326). -/
  | regulatorWindow (ch : ChannelId) (mhz : Nat) (hot : Bool) (late waiting : List PartId)
  /-- COMMIT (R337). -/
  | commit (m : Master) (ch : ChannelId) (v : Bool)
  /-- HANG (R345). -/
  | hang (u : HangUnit) (named : List (BitVec 16))
  /-- LADDER_LEVEL_OVERRUN (R347). -/
  | ladderLevelOverrun (r : Resource)
  /-- CULPRIT_TEST (R360). -/
  | culpritTest (u : HangUnit) (passed : Bool)
  /-- ERR_CONS (R341). -/
  | errCons (m : Master) (v : BitVec 32)
  /-- EPOCH_CONFIG (R362). -/
  | epochConfig (src : CmdSource)
  /-- EPOCH_MARK (R365). -/
  | epochMark (src : CmdSource)
  /-- REFILL_SET (R379). -/
  | refillSet (src : CmdSource)
  /-- MIRROR_RESOLVE_PRIMARY (R382). -/
  | mirrorResolvePrimary (src : CmdSource)
  /-- MIRROR_RESOLVE_SECONDARY (R382). -/
  | mirrorResolveSecondary (src : CmdSource)
  /-- MIRROR_RESOLVE_NEITHER (R382). -/
  | mirrorResolveNeither (src : CmdSource)
  /-- RESERVE (R373). -/
  | reserve (q : QueueId)
  /-- RESET_PARTITION (R350). -/
  | resetPartition (q : QueueId)
  /-- FENCE_OFF_CLUSTER (R352). -/
  | fenceOffCluster (q : QueueId) (views : List ModuleView)
  /-- FENCE_OFF_CHANNEL (R212). -/
  | fenceOffChannel (q : QueueId)
  /-- FENCE_OFF_DIE (R353). -/
  | fenceOffDie (q : QueueId)
  /-- PULSE_SEND (R370). -/
  | pulseSend (forme : BitVec 32) (member : BitVec 16)
  /-- PULSE (R370). -/
  | pulse (m : RecMsg)
  /-- PULSE_ANS (R370). -/
  | pulseAns (m : RecMsg)
  /-- PEER_TIMEOUT (R370). -/
  | peerTimeout (forme : BitVec 32) (observer named : BitVec 16) (copy : DeputyCopy) (views : List ModuleView)
  /-- SUSPECT (R371). -/
  | suspect (m : RecMsg)
  /-- PROBE (R371). -/
  | probe (m : RecMsg)
  /-- PROBE_ANS (R371). -/
  | probeAns (m : RecMsg)
  /-- PROBE_TIMEOUT (R371). -/
  | probeTimeout (forme : BitVec 32) (copy : DeputyCopy) (views : List ModuleView)
  /-- THAW (R371). -/
  | thaw (m : RecMsg)
  /-- ROLLBACK (R368). -/
  | rollback (m : RecMsg)
  /-- ROLLED_BACK (R372). -/
  | rolledBack (m : RecMsg) (views : List ModuleView)
  /-- RESUME (R369). -/
  | resume (m : RecMsg)
  /-- MASTER_CLAIM (R374). -/
  | masterClaim (m : RecMsg) (numbers : List (BitVec 32))
  /-- LOG (R366). -/
  | log (m : RecMsg)
  /-- POISON_RESTORE (R379). -/
  | poisonRestore (p : PartId) (addr : BitVec 40)
  /-- SESSION_OPEN (R410). -/
  | sessionOpen (q : QueueId)
  /-- SESSION_CLOSE (R412). -/
  | sessionClose (q : QueueId)
  /-- SESSION_EXPIRY (R412). -/
  | sessionExpiry (session : BitVec 16)
  /-- KEY_INSTALL (R416). -/
  | keyInstall (q : QueueId)
  /-- KEY_DESTROY (R402). -/
  | keyDestroy (q : QueueId)
  /-- SHARE_SET_REPLACE (R399). -/
  | shareSetReplace (q : QueueId)
  /-- SHARE_SET_ADD (R399). -/
  | shareSetAdd (q : QueueId)
  /-- SHARE_SET_REMOVE (R399). -/
  | shareSetRemove (q : QueueId)
  /-- WINDOW_INSTALL (R407). -/
  | windowInstall (src : CmdSource)
  /-- WINDOW_REMOVE (R407). -/
  | windowRemove (src : CmdSource)
  /-- ATTEST (R427). -/
  | attest (q : QueueId)
  /-- PROVISION (R388). -/
  | provision (q : QueueId) (sigs : Bool)
  /-- CLAIM (R388). -/
  | claim (q : QueueId) (sigs : Bool)
  /-- RETURN (R388). -/
  | returnDevice (q : QueueId) (sigs : Bool)
  /-- SCRAP (R388). -/
  | scrap (q : QueueId) (sigs : Bool)
  /-- REPROVISION (R394). -/
  | reprovision (q : QueueId) (sigs : Bool)
  /-- SVN_COMMIT (R425). -/
  | svnCommit (q : QueueId)
  /-- PACKET_SEAL (R463). -/
  | packetSeal
  /-- GOVERNOR_TICK (R440). -/
  | governorTick (p : PartId)
  /-- GRANT_SLOT (R437). -/
  | grantSlot (die : DieId)
  /-- GRANT_RELEASE (R438). -/
  | grantRelease (cluster : ClusterId) (unit : Fin 20)
  /-- RAIL_FAULT (R430). -/
  | railFault (rail : Fin 38) (reading : BitVec 16)
  /-- RAIL_BACKSTOP (R441). -/
  | railBackstop (die : DieId) (reading : BitVec 16)
  /-- INPUT_BACKSTOP (R441). -/
  | inputBackstop (reading : BitVec 16)
  /-- DROOP (R442). -/
  | droop (cluster : ClusterId)
  /-- THERMAL_SENSOR_READ (R443). -/
  | thermalSensorRead (clusters fabrics hbms : Tbl Nat)
  /-- THERMAL_SHUTDOWN (R443). -/
  | thermalShutdown (what : Nat) (reading : BitVec 16)
  /-- ENERGY_FOLD (R446). -/
  | energyFold (acts : List EnergyAct)
  /-- PWR_CAP (R432). -/
  | pwrCap (m : Master) (w : BitVec 64)
  /-- LINK_TRAINING (R454). -/
  | linkTraining (link : LinkId)
  /-- TRAINING_STEP_OVERRUN (R454). -/
  | trainingStepOverrun (link : LinkId)
  /-- TRAIN (R454). -/
  | train (link : LinkId) (serial : BitVec 112) (plink : LinkId) (fab : BitVec 16) (fabV : Bool) (epoch : BitVec 16) (rtt : Nat)
  /-- HELLO (R459). -/
  | hello (link : LinkId)
  /-- PROOF (R460). -/
  | proof (link : LinkId) (sigs nonce : Bool) (state : BitVec 4) (config : BitVec 384)
  /-- FLIT_RECEIVE (R457). -/
  | flitReceive (link : LinkId) (f : Flit) (told : Told)
  /-- NAK (R457). -/
  | nak (link : LinkId) (ackSeq : BitVec 12)
  /-- DOWN (R458). -/
  | linkDown (link : LinkId)
  /-- BLOCK_LOCK_LOSS (R458). -/
  | blockLockLoss (link : LinkId)
  /-- DETOUR_RECORD_EXPIRY (R469). -/
  | detourRecordExpiry (link : LinkId)
  /-- READ (R462). -/
  | read (link : LinkId) (p : Packet)
  /-- WRITE (R462). -/
  | write (link : LinkId) (p : Packet)
  /-- MEMOP (R203). -/
  | memop (link : LinkId) (p : Packet)
  /-- READ_RESP (R462). -/
  | readResp (link : LinkId) (p : Packet)
  /-- PACKET_ACK (R462). -/
  | packetAck (link : LinkId) (p : Packet)
  /-- NACK (R466). -/
  | nack (link : LinkId) (p : Packet)
  /-- CTRL (R238). -/
  | ctrl (link : LinkId) (p : Packet)
  /-- RECOV (R281). -/
  | recov (link : LinkId) (p : Packet) (told : Told)
  /-- QUERY (R471). -/
  | query (link : LinkId) (b : WalkBody)
  /-- QUERY_ANS (R471). -/
  | queryAns (b : WalkBody)
  /-- QUERY_TIMEOUT (R471). -/
  | queryTimeout (route : List LinkId)
  /-- ASSIGN (R472). -/
  | assign (link : LinkId) (b : WalkBody) (routes : Bool)
  /-- ASSIGN_ACK (R472). -/
  | assignAck (b : WalkBody)
  /-- WALK_START (R471). -/
  | walkStart (m : Master) (v : Bool)
  /-- ROUTING_ENTRY_WRITE (R468). -/
  | routingEntryWrite (m : Master) (addr mask : BitVec 16)
  /-- RETRAIN (R454). -/
  | retrain (m : Master) (link : LinkId) (v : Bool)
  /-- DISABLE (R458). -/
  | disable (m : Master) (link : LinkId) (v : Bool)
  /-- PORT_DOWN (R478). -/
  | portDown (port : PortId)
  /-- AUTO_NEGOTIATION (R476). -/
  | autoNegotiation (port : PortId) (partner : BitVec 6) (lane1 : Bool)
  /-- RDMA_WRITE (R491). -/
  | rdmaWrite (conn : ConnId) (plane : Fin 2) (rkey : BitVec 32) (va : BitVec 64) (data : List (BitVec 8))
  /-- RDMA_READ (R491). -/
  | rdmaRead (conn : ConnId) (plane : Fin 2) (rkey : BitVec 32) (va : BitVec 64) (len : BitVec 32)
  /-- ROCE_ACKNOWLEDGE (R480). -/
  | roceAcknowledge (op : Nat) (ok : Bool)
  /-- ROCE_ACK_TIMEOUT (R480). -/
  | roceAckTimeout (op : Nat)
  /-- CNP (R481). -/
  | cnp (conn : ConnId) (qp : BitVec 24)
  /-- RATE_INCREASE (R481). -/
  | rateIncrease (conn : ConnId) (qp : BitVec 24)
  /-- CE_MARKED_PACKET (R481). -/
  | ceMarkedPacket (conn : ConnId) (qp : BitVec 24)
  /-- CONN_REQ (R483). -/
  | connReq (port : PortId) (m : SvcMsg)
  /-- CRING_SET (R485). -/
  | cringSet (conn : ConnId) (m : SvcMsg)
  /-- CLOSE (R484). -/
  | closeConn (conn : ConnId) (m : SvcMsg)
  /-- CONNECTION_BREAK_EXPIRY (R484). -/
  | connectionBreakExpiry (conn : ConnId)
  /-- PLANE_FAILURE (R486). -/
  | planeFailure (conn : ConnId) (plane : Fin 2)
  /-- PAIR_SWITCH (R488). -/
  | pairSwitch (conn : ConnId) (plane : Fin 2) (m : SvcMsg)
  /-- PAIR_SWITCH_ACK (R488). -/
  | pairSwitchAck (conn : ConnId)
  /-- PAIR_SWITCH_RETRY (R488). -/
  | pairSwitchRetry (conn : ConnId)
  /-- PAIR_PROBE (R486). -/
  | pairProbe (conn : ConnId) (plane : Fin 2) (m : SvcMsg)
  /-- PAIR_PROBE_ANS (R486). -/
  | pairProbeAns (conn : ConnId) (plane : Fin 2)
  /-- PAIR_PROBE_SEND (R486). -/
  | pairProbeSend (conn : ConnId) (plane : Fin 2)
  /-- TRANSLATE_ANS (R496). -/
  | translateAns (conn : ConnId) (m : TransMsg)
  /-- TRANSLATE_TIMEOUT (R496). -/
  | translateTimeout (conn : ConnId) (reqId : BitVec 32)
  /-- PAGE_ANS (R170). -/
  | pageAns (conn : ConnId) (m : TransMsg)
  /-- INVALIDATE (R176). -/
  | invalidate (conn : ConnId) (m : TransMsg)
  /-- HEAD (R494). -/
  | head (m : Master) (ring : Fin 4096) (head : BitVec 17)
  /-- NOTIFY (R494). -/
  | notify (m : Master) (ring : Fin 4096) (head : BitVec 17)
  /-- INPUT_RISE (R501). -/
  | inputRise (root : Bool)
  /-- UNDERVOLT (R501). -/
  | undervolt
  /-- OVERVOLT (R501). -/
  | overvolt
  /-- INPUT_LOSS (R501). -/
  | inputLoss
  /-- MOD_EN_SAMPLE (R503): `high` is the level of MOD_EN_N. -/
  | modEnSample (high : Bool) (inW inV inA : Nat) (steps : List BootStep)
  /-- PM_START (R503). -/
  | pmStart (m : Master) (v : Bool)
  /-- PM_STOP (R504). -/
  | pmStop (m : Master) (v : Bool)
  /-- PM_AUTO (R503). -/
  | pmAuto (m : Master) (v : Bool)
  /-- BOOT_STEP_OVERRUN (R505). -/
  | bootStepOverrun (steps : List BootStep)
  /-- ENTDAA (R512). -/
  | entdaa (da : BitVec 7)
  /-- RSTDAA (R512). -/
  | rstdaa
  /-- SETNEWDA (R512). -/
  | setnewda (da : BitVec 7)
  /-- GETPID (R512). -/
  | getpid
  /-- GETBCR (R512). -/
  | getbcr
  /-- GETDCR (R512). -/
  | getdcr
  /-- GETSTATUS (R512). -/
  | getstatus
  /-- ENEC (R512). -/
  | enec (mask : BitVec 8)
  /-- DISEC (R512). -/
  | disec (mask : BitVec 8)
  /-- SETMWL (R512). -/
  | setmwl (n : BitVec 16)
  /-- SETMRL (R512). -/
  | setmrl (n : BitVec 16)
  /-- GETMWL (R512). -/
  | getmwl
  /-- GETMRL (R512). -/
  | getmrl
  /-- RSTACT (R512). -/
  | rstact (b : BitVec 8)
  /-- HOT_JOIN (R512). -/
  | hotJoin
  /-- SET_ENDPOINT_ID (R513). -/
  | setEndpointId (eid : BitVec 8)
  /-- GET_SENSOR_READING (R514). -/
  | getSensorReading (id : BitVec 16)
  /-- SET_CAP_EFFECTER (R514). -/
  | setCapEffecter (w : BitVec 32)
  /-- SET_POWER_STATE_EFFECTER (R514). -/
  | setPowerStateEffecter (v : BitVec 8)
  /-- PLATFORM_EVENT_MESSAGE (R514). -/
  | platformEventMessage
  /-- REG_READ (R515). -/
  | regRead (addr : BitVec 32) (n : BitVec 16)
  /-- REG_WRITE (R520). -/
  | regWrite (addr : BitVec 32) (vs : List (BitVec 64))
  /-- REC_READ (R515). -/
  | recRead (i : BitVec 32)
  /-- REQUEST_UPDATE (R516). -/
  | requestUpdate
  /-- SLOT_IMAGE_STAGE (R516). -/
  | slotImageStage (good : Bool) (svn : BitVec 16) (digest : StageFile)
  /-- ACTIVATE_FIRMWARE (R516). -/
  | activateFirmware
  /-- CANCEL_UPDATE (R516). -/
  | cancelUpdate
  /-- REGISTER_WRITE (R527). -/
  | registerWrite (m : Master) (ofs : BitVec 26) (v : BitVec 64)
  /-- CSM_WAYS (R531). -/
  | csmWays (m : Master) (cluster : ClusterId) (w : BitVec 5)
  /-- ADMIN_EN (R290). -/
  | adminEn (m : Master) (en : Bool)
  /-- LADDER_LEVEL_COMPLETE (R349). -/
  | ladderLevelComplete (r : Resource) (bad : List ClusterId) (views : List ModuleView)
  /-- DROOP_END (R442). -/
  | droopEnd (cluster : ClusterId)
  /-- INPUT_RESTORED (R501). -/
  | inputRestored
  /-- CHANNEL_INTERFACE_ERROR (R209). -/
  | channelInterfaceError (ch : ChannelId)
  /-- ARP (R477). -/
  | arp (port : PortId) (addr : BitVec 32)
  /-- NEIGHBOUR_DISCOVERY (R477). -/
  | neighbourDiscovery (port : PortId) (addr : BitVec 128)
  /-- ICMP_ECHO (R477). -/
  | icmpEcho (port : PortId) (data : List (BitVec 8))
  /-- PRIORITY_FLOW_CONTROL (R477). -/
  | priorityFlowControl (port : PortId) (prio : Fin 8) (pause : Bool)
  /-- TEST_ACCESS_PORT (R40). -/
  | testAccessPort
  /-- RDMA_READ_RESPONSE (R294). -/
  | rdmaReadResponse (op : Nat) (data : List (BitVec 8))
deriving DecidableEq, Repr

end Sys2Proof
end

