-- ==== Sys2Proof/Machine/EthParts.lean ====
section
/-! DEFINITION. The parts of the state that the Ethernet ports, the host connections and the two networks hold (chapter 16). -/

namespace Sys2Proof.Machine

/-- The state of a connection number (R483, R484). -/
inductive ConnState where
  | free | up | broken
deriving DecidableEq, Repr

/-- The send rate of one queue pair, in Mb/s, and the local times that govern it (R481). -/
structure QpRate where
  rate : Nat
  prev : Nat
  lastDec : Option Nat
  lastStep : Nat
  lastCnp : Option Nat
deriving DecidableEq, Repr

/-- A plane switch under way (R488): sendings of PAIR_SWITCH left and the time of the last. -/
structure PairSwitch where
  left : Nat
  sentAt : Nat
deriving DecidableEq, Repr

/-- A host connection (R480 to R489). Planes are 0 for network A and 1 for network B; queue pairs are listed as command on
A, command on B, translation on A, translation on B. -/
structure Conn where
  st : ConnState
  portA : Nat
  portB : Nat
  active : Nat
  failA : Bool
  failB : Bool
  cls : Nat
  lastPseq : Option Nat
  /-- PSEQ of the next operation where it waits (R487, R492): later ones wait behind it. -/
  held : Option Nat
  /-- Local time at which an acknowledgement of the host last advanced (R486). -/
  ackAt : Nat
  prTimeout : Nat
  hostQpn : List Nat
  modQpn : List Nat
  gidA : Nat
  gidB : Nat
  keytag : Nat
  brokenAt : Nat
  rates : List QpRate
  switching : Option PairSwitch
  /-- REQIDs of the last 64 invalidations acknowledged (R496). -/
  acked : List Nat
  /-- A probe outstanding on each plane, with the time it was sent (R486). -/
  probeA : Option Nat
  probeB : Option Nat
deriving DecidableEq, Repr

/-- A connection number that is free. -/
def Conn.reset : Conn where
  st := .free
  portA := 0
  portB := 4
  active := 0
  failA := false
  failB := false
  cls := 0
  lastPseq := none
  held := none
  ackAt := 0
  prTimeout := 0
  hostQpn := []
  modQpn := []
  gidA := 0
  gidB := 0
  keytag := 0
  brokenAt := 0
  rates := []
  switching := none
  acked := []
  probeA := none
  probeB := none

/-- One Ethernet port (R476 to R479, Table 18-11). -/
structure Port where
  /-- Link is up. -/
  up : Bool
  mode : Nat
  modesEn : Nat
  lane1Fail : Bool
  mac : Nat
  ipv4 : Nat
  ipv4V : Bool
  ipv6 : Nat
  ipv6V : Bool
  vlanId : Nat
  vlanEn : Bool
  dscp : Nat
  pcp : Nat
  pfcPrio : Nat
  pfcEn : Bool
  /-- Priorities that the partner has paused (IEEE 802.1Qbb). -/
  paused : Bool
  dupOps : Nat
  memRefused : Nat
  udDiscard : Nat
  crDiscard : Nat
deriving DecidableEq, Repr

/-- A port after reset. -/
def Port.reset : Port where
  up := false
  mode := 0
  modesEn := 0x3F
  lane1Fail := false
  mac := 0
  ipv4 := 0
  ipv4V := false
  ipv6 := 0
  ipv6V := false
  vlanId := 0
  vlanEn := false
  dscp := 26
  pcp := 3
  pfcPrio := 3
  pfcEn := false
  paused := false
  dupOps := 0
  memRefused := 0
  udDiscard := 0
  crDiscard := 0

/-- The counters of one network. -/
structure NetBlock where
  trDiscard : Nat
  crhBad : Nat
  planeSwitches : Nat
deriving DecidableEq, Repr

/-- A network after reset. -/
def NetBlock.reset : NetBlock := ⟨0, 0, 0⟩

end Sys2Proof.Machine
end

