-- ==== Sys2Proof/Machine/PowerParts.lean ====
section
/-! DEFINITION. The parts of the state that power, current and thermal control hold (chapter 14), and those that the
always-on island and the boot flash hold (chapter 17). -/

namespace Sys2Proof.Machine

/-! ### Power (R432 to R443, R451) -/

/-- The power of one cluster (Table 14-6): units granted in the order of granting (arrays are four times the core plus the array,
vector units 16 plus the core), the thermal step with the time of its last change, the junction temperature, and what its
droop detectors have counted. A cleared counter waits for the next slot. -/
structure ClusterPower where
  grants : List Nat
  nT : Nat
  nTAt : Nat
  temp : Nat
  stretched : Bool
  droop : Nat
  droopClear : Bool
  hold : Nat
  holdClear : Bool
  /-- Local times of the stretches of the last millisecond, and of the last DROOP_STORM record (R442). -/
  droopAt : List Nat
  stormAt : Option Nat
  /-- The last regulator window whose mean clock has been taken, that mean, and the clock at the window's end, in MHz (R34, R334). -/
  winAt : Nat
  winMhz : Nat
  winClock : Nat
deriving DecidableEq, Repr

/-- A cluster's power after reset (Table 14-6). -/
def ClusterPower.reset : ClusterPower := ⟨[], 0, 0, 0, false, 0, false, 0, false, [], none, 0, 700, 700⟩

/-- The module's power (Table 14-5) and the backstops (R441). -/
structure PowerCtl where
  cap : Nat
  /-- A cap written and not yet taken at a governor tick (Table 14-5). -/
  capNext : Option Nat
  inW : Nat
  inV : Nat
  inA : Nat
  /-- V_op of each die, in steps of 5 mV above 0.45 V (R431). -/
  vop : Tbl Nat
  backstop : Nat
  backstopClear : Bool
  /-- Unattributed energy, in the unit of `energyUnit` (R447). -/
  unattr : Nat
  /-- Energy of each partition's contexts since its creation, in that unit. -/
  partEnergy : Tbl Nat
  /-- Temperatures last read: stacks, and die fabrics. -/
  stackTemp : Tbl Nat
  fabricTemp : Tbl Nat
  /-- Dies held at step 19 by THERMAL_EMERGENCY (Table 14-3). -/
  emergency : List Nat
  /-- Dies at half their clock, with the time until which (R441). -/
  halved : Tbl Nat
  /-- Steps that the input backstop has added, and when the governors resume (R441). -/
  backSteps : Nat
  backResume : Option Nat
  /-- The cluster served last and the time of the last slot, by die (R437). -/
  served : Tbl Nat
  slotAt : Tbl Nat
  /-- Slots of the present tick in which a unit waited for a refused grant, and the last slot counted, by partition (R440). -/
  waitSlots : Tbl Nat
  waitAt : Tbl Nat
  /-- Rails of the links and ports that have faulted, by index of Table 14-1: what they supply is out until the rails ramp again. -/
  railsOff : List Nat
deriving DecidableEq, Repr

/-- Power after power-up: CAP is 5,000 W (R432). -/
def PowerCtl.reset : PowerCtl where
  cap := 5000
  capNext := none
  inW := 0
  inV := 0
  inA := 0
  vop := []
  backstop := 0
  backstopClear := false
  unattr := 0
  partEnergy := []
  stackTemp := []
  fabricTemp := []
  emergency := []
  halved := []
  backSteps := 0
  backResume := none
  served := []
  slotAt := []
  waitSlots := []
  waitAt := []
  railsOff := []

/-! ### Power states, boot and management (R499 to R517) -/

/-- The power states of Table 17-1. -/
inductive PmState where
  | off | standby | maint | booting | ready | failed
deriving DecidableEq, Repr

/-- Why the module last entered STANDBY or FAILED (PM_CAUSE, Table 17-8). -/
inductive PmCause where
  | none | modEn | stop | undervolt | overvolt | thermal | bootVerify | notReady | level5 | scrap
  /-- An OTP digest stopped the boot (R391): Table 17-8 gives it no code, so the code read is a free value. -/
  | otpDigest (code : Nat)
deriving DecidableEq, Repr

/-- A stage image in the boot flash (Table 13-13): whether its certificate, signatures and digest verify as R423 checks them, its SVN, its
DIGEST, the bytes of its certificate and signatures, and its body. -/
structure StageImage where
  good : Bool
  svn : Nat
  digest : BitVec 384
  signed : List Byte := []
  body : List Byte := []
deriving DecidableEq, Repr

/-- What the identity area holds of one identity generation (R422): the identity certificate, the issuing certificate, and the cached
nodes of its LMS tree. -/
structure IdentityItem where
  cert : List Byte
  issuing : List Byte
  nodes : List Byte
deriving DecidableEq, Repr

/-- A firmware update under way (R516): the slot it writes, and the stages that have arrived. -/
structure Update where
  slot : Nat
  stages : Nat
  /-- A stage failed: the transfer has ended. -/
  ended : Bool
deriving DecidableEq, Repr

/-- The always-on island: the power-management page (Table 17-8), the input, the management bus and the boot flash. -/
structure Pm where
  st : PmState
  step : Nat
  cause : PmCause
  auto : Bool
  /-- PM_START and PM_STOP written, waiting for the next sample. -/
  start : Bool
  stop : Bool
  /-- MOD_EN_N as last sampled: true is high. -/
  modEn : Bool
  /-- The time of a THERMAL stop that PM_AUTO may not end, and an edge of MOD_EN_N from high to low since (R503). -/
  thermalAt : Option Nat
  edge : Bool
  /-- The input has failed and has not yet been good for 100 ms (R501). -/
  inputBad : Bool
  /-- The slot running, and BOOT_FALLBACK, ACT_PENDING and BOOT_MS of Table 17-8. -/
  slot : Nat
  fallback : Bool
  actPending : Bool
  bootMs : Nat
  /-- Local time at which step 3 of the present boot began; a boot by a module reset retrains no link (R505). -/
  bootAt : Nat
  /-- Local time at which the step of Table 17-2 in progress began (R505). -/
  stepAt : Nat
  byReset : Bool
  /-- Channels that carry a module area (R508), once step 8 has placed them. -/
  placed : Bool
  /-- Both slots failed in step 4 or 5 (R423). -/
  bothFailed : Bool
  /-- Dynamic address, endpoint ID, the events enabled, the largest write and read, and the defining byte of RSTACT (R512, R513). -/
  da : Option Nat
  eid : Nat
  events : Nat
  mwl : Nat
  mrl : Nat
  rstact : Nat
  /-- The module was inserted into a running bus and has not raised Hot-Join yet. -/
  hotJoin : Bool
  /-- Records told of in PlatformEventMessages, states not yet told of, and the time of the last message (R514). -/
  evProd : Nat
  evStates : List PmState
  evAt : Option Nat
  /-- The boot flash: slots A and B, BOOT_PREF, and whether its rail has faulted (R422, Table 14-1). -/
  slotA : List StageImage
  slotB : List StageImage
  pref : Nat
  /-- The identity area, by identity generation (R422). -/
  identity : Tbl IdentityItem
  noFlash : Bool
  update : Option Update
deriving DecidableEq, Repr

/-- The always-on island when VDD_AO has been applied (Table 17-8): STANDBY. The boot flash holds no accepted image. -/
def Pm.reset : Pm where
  st := .standby
  step := 0
  cause := .none
  auto := true
  start := false
  stop := false
  modEn := true
  thermalAt := none
  edge := false
  inputBad := false
  slot := 0
  fallback := false
  actPending := false
  bootMs := 0
  bootAt := 0
  stepAt := 0
  byReset := false
  placed := false
  bothFailed := false
  da := none
  eid := 0
  events := 9
  mwl := 256
  mrl := 256
  rstact := 0
  hotJoin := true
  evProd := 0
  evStates := []
  evAt := none
  slotA := []
  slotB := []
  pref := 0
  identity := []
  noFlash := false
  update := none

/-- The code of a power state in PM_STATE; OFF is readable nowhere. -/
def PmState.code : PmState → Nat
  | .off => 0 | .standby => 1 | .maint => 2 | .booting => 3 | .ready => 4 | .failed => 5

/-- PM_CAUSE of a cause. -/
def PmCause.code : PmCause → Nat
  | .none => 0 | .modEn => 1 | .stop => 2 | .undervolt => 3 | .overvolt => 4 | .thermal => 5 | .bootVerify => 6
  | .notReady => 7 | .level5 => 8 | .scrap => 9
  | .otpDigest c => c

end Sys2Proof.Machine
end

