-- ==== Sys2Proof/Machine/RegParts.lean ====
section
/-! DEFINITION. The part of a block header that writes change (Table 18-3). -/

namespace Sys2Proof.Machine

/-- What a block header keeps of refused writes (Table 18-3, R528). -/
structure BlockHeader where
  refused : Nat
  lastOfs : Nat
  lastWhy : Nat
  lastMaster : Nat
  lastSrc : Nat
  /-- A write has cleared WR_REFUSED: the clear waits for the next write to the block. -/
  clear : Bool
deriving DecidableEq, Repr

/-- A header after reset. -/
def BlockHeader.reset : BlockHeader := ⟨0, 0, 0, 0, 0, false⟩

end Sys2Proof.Machine
end

