-- ==== Sys2Proof/Machine/SecParts.lean ====
section
/-! DEFINITION. The parts of the state that the security island, its one-time-programmable storage and the boot's measurements
hold (chapter 13). -/

namespace Sys2Proof.Machine

/-- A masked OTP slot (R392): two shares of 48 bytes, and the digest over both. -/
structure MaskedSlot where
  share0 : BitVec 384
  share1 : BitVec 384
  digest : Word64
deriving DecidableEq, Repr

/-- The security island (R387 to R394, R422 to R427). -/
structure Security where
  /-- OTP slot 0, LC_STATE: of each of its four words, how many bits match the pattern (R389). -/
  lcBits : List Nat
  /-- OTP slots 1, 4, 5, 6, 16: serial number, hardware revision and week of manufacture, hashes of the owner's keys, the
  security version floor, and generation 1 enabled. -/
  serial : Nat
  hwRev : Nat
  mfgWeek : Nat
  ownerEc : BitVec 384
  ownerLms : BitVec 384
  svn : Nat
  gen1 : Bool
  /-- OTP slots 2, 3 and 8: the hashes of Svettia's root keys, and the analog trims (Table 13-5). -/
  svtEc : BitVec 384
  svtLms : BitVec 384
  trim : List Byte
  /-- OTP slots 9 to 15, the roots and seeds (R392): a slot that is not listed has not been programmed. -/
  masked : Tbl MaskedSlot
  /-- The digests that follow OTP slots 1 to 5, 7 and 8 (R391), of those that have been programmed. -/
  digests : Tbl Word64
  /-- OTP slot 7: the energy coefficients of Table 14-4, by index. -/
  energy : Tbl Nat
  /-- OTP slot 17: boot leaves spent of generations 0 and 1 (R393). -/
  leaf0 : Nat
  leaf1 : Nat
  /-- Generation 1 has been certified (R394). -/
  gen1Cert : Bool
  /-- Identity generation 0 has been certified (Table 13-4). -/
  gen0Cert : Bool
  /-- The boot leaf of this boot and its generation, none where it has spent none, and the colophons that its tree has signed (R424). -/
  q : Nat
  bootGen : Option Nat
  colophons : Nat
  /-- Measurements and lowest SVN of the stages running (R423, R425). -/
  measures : List (BitVec 384)
  svnRun : Nat
deriving DecidableEq, Repr

/-- The island over a one-time-programmable storage in which nothing is programmed. -/
def Security.reset : Security where
  lcBits := [0, 0, 0, 0]
  serial := 0
  hwRev := 0
  mfgWeek := 0
  ownerEc := 0
  ownerLms := 0
  svn := 0
  gen1 := false
  svtEc := 0
  svtLms := 0
  trim := []
  masked := []
  digests := []
  energy := []
  leaf0 := 0
  leaf1 := 0
  gen1Cert := false
  gen0Cert := false
  q := 0
  bootGen := none
  colophons := 0
  measures := []
  svnRun := 0

/-! ### One-time-programmable storage (R389 to R392) -/

/-- The life-cycle state (Table 13-2): the words of LC_STATE that count as programmed. -/
def Security.lc (k : Security) : Nat := (k.lcBits.filter fun b => decide (48 ≤ b)).length

/-- The words of LC_STATE are programmed, in order, up to a state. -/
def Security.toLife (k : Security) (lc : Nat) : Security :=
  { k with lcBits := (List.range 4).map fun i => if i < lc then 64 else k.lcBits.getD i 0 }

/-- A word of LC_STATE that a loss of power has cut short is completed (R389). -/
def Security.completeLife (k : Security) : Security := { k with lcBits := k.lcBits.map fun b => if 1 ≤ b ∧ b < 48 then 64 else b }

/-- The digest of a slot (R391): the first 8 bytes of SHA-384 over the slot number and the slot's content. -/
def slotDigest (slot : Nat) (content : List Byte) : Word64 :=
  BitVec.ofNat 64 ((Config.sha384 (leBytes slot 1 ++ content)).toNat % 2 ^ 64)

/-- The content of a masked slot: its two shares. -/
def MaskedSlot.content (m : MaskedSlot) : List Byte := leBytes m.share0.toNat 48 ++ leBytes m.share1.toNat 48

/-- The value of a masked slot (R392): a fixed bit permutation of the exclusive-or of its shares. -/
def MaskedSlot.value (m : MaskedSlot) : BitVec 384 :=
  let x := (m.share0 ^^^ m.share1).toNat
  BitVec.ofNat 384 ((List.range 384).foldl (fun a i => a + (if x.testBit (Config.maskBit i % 384) then 2 ^ i else 0)) 0)

/-- The content of a slot with a digest of its own (Table 13-5); the order of the fields of IDENT is the model's (assumption 117). -/
def Security.content (k : Security) (slot : Nat) : List Byte :=
  match slot with
  | 1 => leBytes k.serial 14 ++ leBytes k.hwRev 2 ++ leBytes k.mfgWeek 2 ++ List.replicate 14 0
  | 2 => leBytes k.svtEc.toNat 48
  | 3 => leBytes k.svtLms.toNat 48
  | 4 => leBytes k.ownerEc.toNat 48
  | 5 => leBytes k.ownerLms.toNat 48
  | 7 => (List.range 128).flatMap fun i => leBytes (Tbl.get 0 k.energy i) 4
  | 8 => (k.trim ++ List.replicate 1024 0).take 1024
  | _ => []

/-- The slots whose digest, as the storage holds it, is not that of their content (R391). -/
def Security.badDigests (k : Security) : List Nat :=
  ((k.digests.filter fun e => e.2 != slotDigest e.1 (k.content e.1)).map fun e => e.1) ++
    (k.masked.filter fun e => e.2.digest != slotDigest e.1 e.2.content).map fun e => e.1

/-- The slot of the root that the present state can read (Table 13-2), none in SCRAP. -/
def Security.rootSlot (k : Security) : Option Nat := if k.lc < 4 then some (9 + k.lc) else none

/-- The value of a root or seed; a slot that is not programmed holds shares of zeros. -/
def Security.maskedValue (k : Security) (slot : Nat) : BitVec 384 :=
  match Tbl.find k.masked slot with
  | some m => m.value
  | none => 0

/-- A slot is programmed with a digest. -/
def Security.seal (k : Security) (slot : Nat) : Security := { k with digests := Tbl.set k.digests slot (slotDigest slot (k.content slot)) }

/-- Boot leaves of one identity generation (R394). -/
def genLeaves : Nat := 32768

/-- Colophons of one boot (R424). -/
def bootColophons : Nat := 1024

/-- Whether generation 1 may be used: enabled and certified (R394). -/
def Security.gen1Usable (k : Security) : Bool := k.gen1 && k.gen1Cert

/-- The identity generation in use (R394). -/
def Security.idGen (k : Security) : Nat := if k.leaf0 < genLeaves then 0 else if k.gen1Usable then 1 else 0

/-- Boot leaves left in the generation in use. -/
def Security.leavesLeft (k : Security) : Nat := if k.idGen = 0 then genLeaves - k.leaf0 else genLeaves - k.leaf1

/-- The identity generation of this boot's certificate. -/
def Security.certGen (k : Security) : Nat := k.bootGen.getD k.idGen

/-- Whether the module can attest: this boot has a leaf or the generation in use has leaves left, and the per-boot tree a colophon (R394,
R424). -/
def Security.canAttest (k : Security) : Bool := (k.bootGen.isSome || decide (k.leavesLeft ≠ 0)) && decide (k.colophons < bootColophons)

end Sys2Proof.Machine
end

