-- ==== Sys2Proof/Machine/State.lean ====
section
/-! DEFINITION. The state of the GB7 block, what stops a step, and the state after reset. -/

namespace Sys2Proof.Machine

/-- A message or a write that leaves the block, in the order of leaving. -/
inductive Sent where
  /-- A control message on VL0: opcode and message (R238). -/
  | ctrl (opc : Nat) (m : CtrlMsg)
  /-- A compositor message on VL1 (R281). -/
  | comp (opc : Nat) (m : CompMsg)
  /-- A recovery message on VL1 (R375). -/
  | recov (opc : Nat) (m : RecMsg)
  /-- A completion group written to a ring: ring, index of its first entry, entries of eight words (R301, R493). -/
  | completion (ring index : Nat) (entries : List (List Word64))
  /-- A completion notification of a ring (R494). -/
  | notify (ring : Nat)
  /-- A report of a context loss to the forme master (R316). -/
  | loss (forme job member : Nat)
  /-- SWITCH of a gang switch to a compute member, with the incoming job, and SWITCHED returned (R310). -/
  | gangSwitch (forme member job : Nat)
  | gangSwitched (forme member : Nat)
  /-- An order to a member of another module that runs a command or starts cores for this module (R298, R300). -/
  | memberOrder (o : MemberOrder)
  /-- The answer to an order: the detail of a refusal, 0 for none, and a value; and the end of a virtual core that an order
  started (R300). -/
  | orderDone (forme job member opc detail value : Nat)
  | coreDone (forme job vcore seq : Nat) (mark : Bool) (energy : Nat)
  /-- A read of host memory for a bulk argument: connection, address, memory key, length (R294). -/
  | bulkRead (conn addr rkey len : Nat)
  /-- A member of a forme mastered elsewhere has lost channels or clusters and must be recomposed (R212, R352). -/
  | recompose (forme member : Nat)
  /-- A report to the master of a change that a member's source or target has failed here, with the reason of Table 09-9 (R274). -/
  | changeFailed (forme member reason : Nat)
  /-- A report to the forme master that a job must be rolled back because a context of it is affected (R348). -/
  | affected (forme job : Nat)
  /-- What the master sends the deputy at a mark: the snapshot of a job's fences and its command logs (R365, R374). -/
  | snapshot (forme job deputy : Nat) (fences : List (Nat × Nat)) (logs : List (Nat × Nat × List Word64))
  /-- Values of the fences of a forme that move from the deputy to the new module of member 0 (R374). -/
  | fencesMoved (forme : Nat) (fences : List (Nat × Nat))
  /-- A packet to another module, on the link chosen for it (R462, R466). -/
  | packet (link : Nat) (p : Packet)
  /-- A translation message to a host: TOP and message (R495). -/
  | trans (conn top : Nat) (m : TransMsg)
  /-- A service message to a host on a plane: SOP and message (R482). -/
  | service (conn plane sop : Nat) (m : SvcMsg)
  /-- An RDMA READ of the module at a host: connection, operation, address, memory key, length. -/
  | rdmaRead (conn id addr rkey len : Nat)
  /-- An RDMA WRITE of the module at a host. -/
  | rdmaWrite (conn id addr rkey : Nat) (data : List Byte)
  /-- The answer to a host's RDMA operation: connection, plane and PSEQ, with an acknowledgement, a NAK (Invalid Request or Remote
  Access Error), or the data read (R479, R490, R491). -/
  | rdmaAck (conn plane pseq : Nat)
  | rdmaNak (conn plane pseq : Nat) (access : Bool)
  | rdmaResponse (conn plane pseq : Nat) (data : List Byte)
  /-- A congestion notification to the source of a queue pair (R481). -/
  | cnp (conn qp : Nat)
  /-- What a port answers to ARP, Neighbour Discovery and ICMP echo (R477). -/
  | arpReply (port addr : Nat)
  | ndReply (port addr : Nat)
  | echoReply (port : Nat) (data : List Byte)
  /-- A line served to a requester outside the cores and streams: status and data (R187). -/
  | line (part addr : Nat) (status : Nat) (data : BitVec 512)
  /-- A flit that carries no packet: KIND NAK or DOWN, with ACKSEQ (R457, R458). -/
  | flit (link : Nat) (kind : FlitKind) (ackSeq : Nat)
  /-- Slots that the next flit of a link returns or grants to a sub-lane: CR_SUB and CR_SLOTS (Table 15-3, R464). -/
  | credits (link sub slots : Nat)
  /-- A TRAIN flit: the fabric address, its validity and the LINK_EPOCH proposed (R454). -/
  | train (link : Nat) (fab : Nat) (fabV : Bool) (epoch : Nat)
  /-- A guard message: HELLO, or PROOF (R459). -/
  | guard (link : Nat) (proof : Bool)
  /-- A WALK packet that leaves by a link: WOP, body, and whether its ASSIGN writes routes (R471, R473; assumption 42). -/
  | walk (link wop : Nat) (b : WalkBody) (routes : Bool)
  /-- The answer to an I3C command code: acknowledged or not, and the bytes returned; and a Hot-Join request (R512). -/
  | i3c (ack : Bool) (data : List Byte)
  | hotJoin
  /-- The answer to a PLDM command, and a PlatformEventMessage with the records and power states that it tells of (R514, R515). -/
  | pldm (r : PldmReply)
  | pldmEvent (records : List Nat) (states : List PmState)
  /-- TDO of the test access port: driven, or high-impedance (R40). -/
  | tdo (driven : Bool)
  /-- A message sealed under a link key: handle, sealing engine, counter (R463). -/
  | underSeal (handle seng ctr : Nat) (m : Sent)
deriving DecidableEq, Repr

/-- The state of the block. -/
structure State where
  /-- The commands that wait, first in, first out. -/
  pending : List Instr
  /-- Local time in ns since power-up (R33). -/
  ltime : Nat
  /-- The model's own counter of free values: no part of the specification. -/
  freeIx : Nat
  /-- The model's own counter of identifiers: streams, requests, tags and REQIDs. -/
  serial : Nat
  sent : List Sent
  cores : Tbl Core
  clusters : Tbl Cluster
  engines : Tbl StreamEngine
  channels : Tbl Channel
  dieOut : List Nat
  parts : Tbl Partition
  formes : List Forme
  fences : Tbl Fence
  waits : List Wait
  barWaits : List BarWait
  ctxs : Tbl Context
  lastCtx : Nat
  queues : Tbl Queue
  crings : Tbl CRing
  jobs : List Job
  recordArea : Mem
  adminEn : Bool
  /-- The value of ADMIN_EN in force: a write takes effect at the next doorbell of queue 0 (Table 18-7). -/
  adminOn : Bool
  adminLog : Nat
  adminBase : Nat
  staleDb : Nat
  /-- A write has cleared QUE_STALE_DB: the clear waits for the next doorbell (Table 18-7). -/
  staleClear : Bool
  hbIgnored : Nat
  /-- The queue that each serving processor fetched from last (R293). -/
  fetchTurn : Tbl Nat
  partMsgs : List PartMsg
  answered : List Answered
  unanswered : List Unanswered
  keys : Tbl KeyEntry
  shares : Tbl ShareList
  sessions : Tbl Session
  keySerial : Nat
  caches : Tbl TransCache
  agent : TransAgent
  errRing : Tbl (List Word64)
  errProd : Nat
  errCons : Nat
  errOvf : Nat
  coreHang : Nat
  cpHang : Nat
  quarantine : List Nat
  dieFenced : List Nat
  failed : Bool
  ladders : List Ladder
  culprits : List Culprit
  fabAddr : Nat
  /-- Messages that wait at the egress links to be sealed (R463), with the context whose link key seals them. -/
  egress : List (Nat × Sent)
  /-- Requests of other modules that wait in the receive buffers (R264, R464): link, principal, handle that opened it, and packet. -/
  inbox : List (Nat × Principal × Option Nat × Packet)
  /-- Answers that wait for lines written through to another module (R269). -/
  lateAcks : List LateAck
  peerOut : List PeerOut
  rdmaOut : List RdmaOut
  conns : Tbl Conn
  ports : Tbl Port
  nets : Tbl NetBlock
  /-- The fabric address is assigned (R472), and this module is the root (R471). -/
  fabV : Bool
  isRoot : Bool
  links : Tbl Link
  /-- The routing table (R466): a mask of links for each destination. -/
  routing : Tbl Nat
  walk : Walk
  sec : Security
  /-- Requests that wait at the channel controllers, in the order of their arrival (R328). -/
  waiting : List Waiting
  /-- Pages at the start of every channel that belong to the module areas (R550): U. -/
  areaTop : Nat
  /-- The channels over which they were placed at start-up: their places follow from it (R550). -/
  areaChans : List Nat
  /-- Block headers, by window offset of the block. -/
  hdrs : Tbl BlockHeader
  /-- Power of the clusters and of the module (chapter 14), and the always-on island with the boot flash (chapter 17). -/
  cpw : Tbl ClusterPower
  power : PowerCtl
  pm : Pm
deriving DecidableEq, Repr

/-- What ends a run with a fault: nothing does. Every fault of the specification is a core fault, a status, an error record or a
power state, and each of them is a next state. -/
inductive Fault where
deriving DecidableEq, Repr

/-- What the model refuses. -/
inductive Refusal where
  /-- A command that has no meaning in this model, by its mnemonic: raised by the dispatcher alone, and safe, since no state
  follows it. -/
  | notModelled (mnemonic : String)
deriving DecidableEq, Repr

/-- The module right after VDD_AO has been applied: STANDBY, every register at its reset value, memory with nothing listed. -/
def State.reset : State where
  pending := []
  ltime := 0
  freeIx := 0
  serial := 0
  sent := []
  cores := []
  clusters := []
  engines := []
  channels := []
  dieOut := []
  parts := []
  formes := []
  fences := []
  waits := []
  barWaits := []
  ctxs := []
  lastCtx := 0
  queues := []
  crings := []
  jobs := []
  recordArea := []
  adminEn := false
  adminOn := false
  adminLog := 6
  adminBase := 0
  staleDb := 0
  staleClear := false
  hbIgnored := 0
  fetchTurn := []
  partMsgs := []
  answered := []
  unanswered := []
  keys := []
  shares := []
  sessions := []
  keySerial := 0
  caches := []
  agent := TransAgent.reset
  errRing := []
  errProd := 0
  errCons := 0
  errOvf := 0
  coreHang := 10
  cpHang := 10
  quarantine := []
  dieFenced := []
  failed := false
  ladders := []
  culprits := []
  fabAddr := 0
  egress := []
  inbox := []
  lateAcks := []
  peerOut := []
  rdmaOut := []
  conns := []
  ports := []
  nets := []
  fabV := false
  isRoot := false
  links := []
  routing := []
  walk := Walk.reset
  sec := Security.reset
  waiting := []
  areaTop := 0
  areaChans := []
  hdrs := []
  cpw := []
  power := PowerCtl.reset
  pm := Pm.reset

end Sys2Proof.Machine
end

