-- ==== Sys2Proof/Machine/Ops.lean ====
section
/-! DEFINITION. The operations that the meanings share: reading and writing the parts of the state, error records,
completions, key permission, and what a core fault, a post, a lost context and a fence in ERROR bring about. -/

namespace Sys2Proof.Machine

/-- A state with the waiting commands of another. -/
def State.keepQueue (s t : State) : State := { t with pending := s.pending }

/-- The outcome of a command: a next state, in which the commands that wait are those that waited. -/
def State.answer (s t : State) : Host.Outcome State Fault Refusal := .next (s.keepQueue t)

/-! ### Parts of the state by number -/

/-- Core `c`. -/
def State.core (s : State) (c : Nat) : Core := Tbl.get Core.reset s.cores c
/-- Write core `c`. -/
def State.setCore (s : State) (c : Nat) (k : Core) : State := { s with cores := Tbl.set s.cores c k }
/-- Change core `c`. -/
def State.modCore (s : State) (c : Nat) (f : Core → Core) : State := s.setCore c (f (s.core c))

/-- Cluster `c`. -/
def State.cluster (s : State) (c : Nat) : Cluster := Tbl.get Cluster.reset s.clusters c
/-- Write cluster `c`. -/
def State.setCluster (s : State) (c : Nat) (k : Cluster) : State := { s with clusters := Tbl.set s.clusters c k }
/-- Change cluster `c`. -/
def State.modCluster (s : State) (c : Nat) (f : Cluster → Cluster) : State := s.setCluster c (f (s.cluster c))
/-- Change the hub of cluster `c`. -/
def State.modHub (s : State) (c : Nat) (f : Hub → Hub) : State :=
  s.modCluster c fun k => { k with hub := f k.hub }

/-- Stream engine `e` (four times the cluster plus SE). -/
def State.engine (s : State) (e : Nat) : StreamEngine := Tbl.get StreamEngine.reset s.engines e
/-- Change stream engine `e`. -/
def State.modEngine (s : State) (e : Nat) (f : StreamEngine → StreamEngine) : State :=
  { s with engines := Tbl.set s.engines e (f (s.engine e)) }

/-- Channel `c`. -/
def State.channel (s : State) (c : Nat) : Channel := Tbl.get Channel.reset s.channels c
/-- Change channel `c`. -/
def State.modChannel (s : State) (c : Nat) (f : Channel → Channel) : State :=
  { s with channels := Tbl.set s.channels c (f (s.channel c)) }

/-- Partition `p`. -/
def State.part (s : State) (p : Nat) : Partition := Tbl.get Partition.reset s.parts p
/-- Change partition `p`. -/
def State.modPart (s : State) (p : Nat) (f : Partition → Partition) : State :=
  { s with parts := Tbl.set s.parts p (f (s.part p)) }

/-- Fence entry `n`. -/
def State.fence (s : State) (n : Nat) : Fence := Tbl.get Fence.reset s.fences n
/-- Change fence entry `n`. -/
def State.modFence (s : State) (n : Nat) (f : Fence → Fence) : State :=
  { s with fences := Tbl.set s.fences n (f (s.fence n)) }

/-- Context `n`. -/
def State.ctx (s : State) (n : Nat) : Context := Tbl.get Context.reset s.ctxs n
/-- Change context `n`. -/
def State.modCtx (s : State) (n : Nat) (f : Context → Context) : State :=
  { s with ctxs := Tbl.set s.ctxs n (f (s.ctx n)) }

/-- Queue `q`. -/
def State.queue (s : State) (q : Nat) : Queue := Tbl.get Queue.reset s.queues q
/-- Change queue `q`. -/
def State.modQueue (s : State) (q : Nat) (f : Queue → Queue) : State :=
  { s with queues := Tbl.set s.queues q (f (s.queue q)) }

/-- Completion ring `r`. -/
def State.cring (s : State) (r : Nat) : CRing := Tbl.get CRing.reset s.crings r
/-- Change completion ring `r`. -/
def State.modCring (s : State) (r : Nat) (f : CRing → CRing) : State :=
  { s with crings := Tbl.set s.crings r (f (s.cring r)) }

/-- Key entry `h`. -/
def State.key (s : State) (h : Nat) : KeyEntry := Tbl.get KeyEntry.reset s.keys h
/-- Change key entry `h`. -/
def State.modKey (s : State) (h : Nat) (f : KeyEntry → KeyEntry) : State :=
  { s with keys := Tbl.set s.keys h (f (s.key h)) }

/-- The forme of a FORME_ID, if a member of it lies here. -/
def State.forme (s : State) (id : Nat) : Option Forme := s.formes.find? fun f => f.id == id
/-- Change a forme. -/
def State.modForme (s : State) (id : Nat) (g : Forme → Forme) : State :=
  { s with formes := s.formes.map fun f => if f.id = id then g f else f }

/-- A job of a forme. -/
def State.job (s : State) (forme id : Nat) : Option Job := s.jobs.find? fun j => j.forme == forme && j.id == id
/-- Change a job. -/
def State.modJob (s : State) (forme id : Nat) (g : Job → Job) : State :=
  { s with jobs := s.jobs.map fun j => if j.forme = forme ∧ j.id = id then g j else j }

/-- Append a message to what leaves the block. -/
def State.emit (s : State) (m : Sent) : State := { s with sent := s.sent ++ [m] }

/-- The mask of links that may carry traffic to a destination (R466). -/
def State.mask (s : State) (dst : Nat) : Nat := Tbl.get 0 s.routing dst

/-- The current link key of a context whose ENGINES include bit `lane` (R417, R463). -/
def State.linkKey (s : State) (n lane : Nat) : Option Nat :=
  if n = 0 then none
  else (s.keys.find? fun e => e.2.type == .link && e.2.valid && e.2.current && e.2.owner == n &&
    e.2.engines.toNat.testBit (lane - 7)).map fun e => e.1

/-- Where fence names of a forme that carry the old master's address go after MASTER_CLAIM (R374): to the deputy, and from the
quoin of the recovery MOVE on to the new module of member 0. -/
def Forme.redirectTo (f : Forme) (dst : Nat) : Nat :=
  match f.redirect, f.members with
  | some (old, deputy), (0, m) :: _ =>
    let open_ : Bool := match f.change with
      | some c => !c.quoined
      | none => false
    if dst ≠ old then dst else if open_ ∨ m.fab = old then deputy else m.fab
  | _, _ => dst

/-- A control message of context `n` on its way to the module that holds its fence now. -/
def State.redirected (s : State) (n : Nat) (m : Sent) : Sent :=
  match m, s.forme (s.ctx n).forme with
  | .ctrl opc c, some f => if n = 0 then m else .ctrl opc { c with dstMod := BitVec.ofNat 16 (f.redirectTo c.dstMod.toNat) }
  | _, _ => m

/-- Send a message of context `n`, 0 for none. A control message to another module waits for its seal where the context
holds a current link key (R463), and is dropped and counted at the sending hub where no link may carry it (R240). -/
def State.sendFor (s : State) (n : Nat) (m : Sent) : State :=
  match s.redirected n m with
  | .ctrl opc c =>
    let m : Sent := .ctrl opc c
    if c.dstMod.toNat = s.fabAddr then s.emit m
    else if s.mask c.dstMod.toNat = 0 then
      s.modHub c.srcClu.toNat fun k => { k with cnt := { k.cnt with unreach := min (k.cnt.unreach + 1) 255 } }
    else
      match s.linkKey n 9 with
      | some _ => { s with egress := s.egress ++ [(n, m)] }
      | none => s.emit m
  | m => s.emit m

/-- Send a message: a control message is of the context that it names. -/
def State.send (s : State) (m : Sent) : State :=
  match m with
  | .ctrl _ c => s.sendFor c.ctx.toNat m
  | _ => s.emit m

/-- Take a fresh free value: its number, and the state with the counter advanced. -/
def State.fresh (s : State) : Nat × State := (s.freeIx, { s with freeIx := s.freeIx + 1 })

/-- Local time runs on to `t` at least: what a timer's command shows (assumption 5). -/
def State.advanceTo (s : State) (t : Nat) : State := { s with ltime := max s.ltime t }

/-- The cluster of a core (R22). -/
def clusterOf (core : Nat) : Nat := core / 4
/-- The die of a cluster (R22). -/
def dieOf (cluster : Nat) : Nat := cluster / 12

/-- Whether the cluster of a core holds grants for units: a unit runs only while it does (R436). -/
def State.granted (s : State) (core : Nat) (us : List Nat) : Bool :=
  us.all fun u => (Tbl.get ClusterPower.reset s.cpw (clusterOf core)).grants.contains u

/-- A core's units release their grants at once (R82, R438). -/
def State.dropGrants (s : State) (core : Nat) : State :=
  { s with cpw := s.cpw.map fun (e : Nat × ClusterPower) =>
      if e.1 = clusterOf core then
        (e.1, { e.2 with grants := e.2.grants.filter fun u => !(decide (u < 16 ∧ u / 4 = core % 4) || decide (u = 16 + core % 4)) })
      else e }

/-! ### Refused register writes (R520, R528) -/

/-- LAST_REF_MASTER and LAST_REF_SRC of a master. -/
def masterCode : Master → Nat × Nat
  | .controlProcessor => (1, 0)
  | .host c => (2, c)
  | .peer f => (3, f)
  | .management => (4, 0)

/-- A write is refused (R528): it is counted in the header of the block at window offset `blk`. -/
def State.refuse (s : State) (blk ofs why : Nat) (m : Master) : State :=
  let c := masterCode m
  { s with hdrs := Tbl.mod BlockHeader.reset s.hdrs blk fun h =>
      ⟨min ((if h.clear then 0 else h.refused) + 1) (2 ^ 32 - 1), ofs % 2 ^ 24, why, c.1, c.2, false⟩ }

/-! Reasons of LAST_REF_WHY (R528). -/
namespace Why
def running : Nat := 1
def range : Nat := 2
def busy : Nat := 3
def imem : Nat := 4
def clamped : Nat := 5
end Why

/-! ### Registers and tokens of a core -/

/-- An X register; X0 reads as zero (R41). -/
def Core.xr (k : Core) (r : Fin 32) : Word64 := if r = 0 then 0 else Tbl.get 0 k.x r.val
/-- Write an X register; a write to X0 is discarded (R41). -/
def Core.setX (k : Core) (r : Fin 32) (v : Word64) : Core :=
  if r = 0 then k else { k with x := Tbl.set k.x r.val v }
/-- A token's counter (R51). -/
def Core.token (k : Core) (t : Fin 16) : Nat := Tbl.get 0 k.tokens t.val
/-- Write a token's counter. -/
def Core.setToken (k : Core) (t : Fin 16) (n : Nat) : Core := { k with tokens := Tbl.set k.tokens t.val n }
/-- Whether a header's wait is satisfied (R51). -/
def Core.canWait (k : Core) (h : Hdr) : Bool :=
  match h.wait with
  | none => true
  | some t => decide (1 ≤ k.token t)
/-- Consume the token of a satisfied wait (R51). -/
def Core.consume (k : Core) (h : Hdr) : Core :=
  match h.wait with
  | none => k
  | some t => k.setToken t (k.token t - 1)
/-- A tile descriptor. -/
def Core.tdr (k : Core) (n : Fin 32) : Word256 := Tbl.get 0 k.td n.val

/-! ### Core fault codes (Table 02-15) and sync statuses (Table 02-5) -/

namespace FaultCode
def illegalOp : Nat := 0x01
def reservedNonzero : Nat := 0x02
def imemRange : Nat := 0x03
def imemParity : Nat := 0x04
def localRange : Nat := 0x05
def align : Nat := 0x06
def descInvalid : Nat := 0x07
def accInvalid : Nat := 0x08
def tokenOverflow : Nat := 0x09
def tokenDeadlock : Nat := 0x0A
def stack : Nat := 0x0B
def loopDepth : Nat := 0x0C
def csrInvalid : Nat := 0x0D
def csmRange : Nat := 0x0E
def partRange : Nat := 0x0F
def refused : Nat := 0x10
def fenceError : Nat := 0x11
def lmUncorr : Nat := 0x12
end FaultCode

namespace Sync
def ok : Nat := 0
def timeout : Nat := 1
def fenceError : Nat := 2
def noSuch : Nat := 3
def discarded : Nat := 4
def saturated : Nat := 5
def quota : Nat := 6
def noSpace : Nat := 7
def badArg : Nat := 8
def notNear : Nat := 9
def registryFull : Nat := 0x80
end Sync

/-! ### Error records (R341 to R344) -/

/-- The fields of an error record that its cause fills (Table 12-3). -/
structure Rec where
  cause : Nat
  severity : Nat
  nested : Bool := false
  level : Nat := 0
  island : Nat := 0
  cluster : Option Nat := none
  ctx : Nat := 0
  part : Option Nat := none
  member : Option Nat := none
  addr : Nat := 0
  channel : Option Nat := none
  addrCh : Bool := false
  d5 : Nat := 0
  d6 : Nat := 0
  d7 : Nat := 0
  /-- Continuation records of eight words (R344). -/
  cont : List (List Word64) := []
deriving DecidableEq, Repr

/-- The eight words of a record (Table 12-3), written at index `seq`. -/
def Rec.words (r : Rec) (s : State) (seq : Nat) : List Word64 :=
  let forme := match r.part with
    | some p => (s.part p).forme
    | none => 0
  [ BitVec.ofNat 64 (r.cause + r.severity * 2 ^ 8 + b2n r.nested * 2 ^ 11 + r.level * 2 ^ 12 +
      b2n (!r.cont.isEmpty) * 2 ^ 15 + r.island * 2 ^ 16 + r.cluster.getD 0 * 2 ^ 22 +
      b2n r.cluster.isSome * 2 ^ 28 + seq * 2 ^ 32),
    BitVec.ofNat 64 s.ltime,
    BitVec.ofNat 64 (r.ctx + r.part.getD 0 * 2 ^ 16 + b2n r.part.isSome * 2 ^ 22 + forme * 2 ^ 32),
    BitVec.ofNat 64 (r.member.getD 0 + b2n r.member.isSome * 2 ^ 16 + s.fabAddr * 2 ^ 32),
    BitVec.ofNat 64 (r.addr % 2 ^ 40 + r.channel.getD 0 * 2 ^ 40 + b2n r.channel.isSome * 2 ^ 49 +
      b2n r.addrCh * 2 ^ 50),
    BitVec.ofNat 64 r.d5, BitVec.ofNat 64 r.d6, BitVec.ofNat 64 r.d7 ]

/-- Records in the ring that the host has not consumed (R341). -/
def State.errUsed (s : State) : Nat := (s.errProd + 2 ^ 32 - s.errCons) % 2 ^ 32

/-- Write the records of a group in consecutive slots of the ring. -/
def State.putRecords (s : State) : List (List Word64) → State
  | [] => s
  | w :: ws =>
    State.putRecords { s with errRing := Tbl.set s.errRing (s.errProd % 4096) w,
                              errProd := (s.errProd + 1) % 2 ^ 32 } ws

/-- Whether an error escalates the recovery of the partition that it is attributed to (R356): what the ladder and the recovery
themselves record does not, nor does a refusal at the partition's own clamps; a hang is escalated as it is declared. -/
def Rec.nests (r : Rec) (s : State) : Option Nat :=
  match r.part with
  | some p =>
    if (s.part p).recovering = 0 ∨ r.severity = 0 ∨ [0x20, 0x21, 0x22, 0x23, 0x30, 0x31, 0x32].contains r.cause ∨
      (r.cause = 0x01 ∧ r.d5 % 256 = 0x10) then none else some p
  | none => none

/-- The recovery of a partition is to be escalated: the next command of the ladder finds it so. -/
def State.markEscalate (s : State) (p : Nat) : State :=
  if s.ladders.any fun l => l.part == some p then
    { s with ladders := s.ladders.map fun l => if l.part = some p then { l with escalate := true } else l }
  else
    { s with ladders := s.ladders ++ [⟨.part (Fin.ofNat 48 p), none, (s.part p).recovering, s.ltime, some p, [], [], false, false, true⟩] }

/-- Write an error record with its continuation records, whole or not at all (R341, R344). -/
def State.record (s : State) (r : Rec) : State :=
  let hit := r.nests s
  let r := if hit.isSome then { r with nested := true } else r
  let s := match hit with
    | some p => s.markEscalate p
    | none => s
  if s.errUsed + 1 + r.cont.length ≤ 4096 then
    s.putRecords (r.words s s.errProd :: r.cont)
  else { s with errOvf := min (s.errOvf + 1) (2 ^ 32 - 1) }

/-- A record about a context: it names the context's partition and member (Table 12-3). -/
def State.recOfCtx (s : State) (n : Nat) (r : Rec) : Rec :=
  if n = 0 then r
  else
    let c := s.ctx n
    { r with ctx := n, part := some c.part, member := some c.member }

/-! ### Key permission (R398, R552) -/

/-- Whether a context is bound to the residency of its partition: its job has loaded the resident image (R308). -/
def State.ctxBound (s : State) (n p : Nat) : Bool :=
  let c := s.ctx n
  match s.job c.forme c.job, (s.part p).residency with
  | some j, some r => decide (c.state ≠ .free) && decide (c.part = p) && (j.digest == some r.digest)
  | _, _ => false

/-- Whether a context of partition `p` exists that is bound to host connection `n`. -/
def State.connOfPart (s : State) (n p : Nat) : Bool :=
  s.ctxs.any fun e => decide (e.2.state ≠ .free) && decide (e.2.part = p) && decide (e.2.conn = n)

/-- The 32-bit value of a principal in a share list (R399). -/
def principalCode : Principal → Option Nat
  | .ctx n => some n
  | .conn n => some (n + 2 ^ 16)
  | _ => none

/-- Whether the entry of handle `h` permits a principal (R398). Handle 0x03F is checked against `kctx`, the context whose
CONTEXT key is meant (R395, R552). -/
def State.keyPermits (s : State) (h kctx : Nat) (p : Principal) : Bool :=
  if h = 0 then false
  else if h = 0x03F then decide (kctx ≠ 0) && (p == .ctx kctx)
  else
    let e := s.key h
    if !e.valid ∨ e.staged then false
    else if h = 1 then p == .module
    else if h ≤ 0x31 then
      match p with
      | .ctx n => decide (n ≠ 0) && decide ((s.ctx n).state ≠ .free) && decide ((s.ctx n).part = h - 2)
      | .conn n => s.connOfPart n (h - 2)
      | .module => true
      | .forme f => decide ((s.part (h - 2)).forme = f)
      | .nobody => false
    else
      let listed := match principalCode p with
        | some c => decide (e.share ≠ 0) && (Tbl.get (⟨0, []⟩ : ShareList) s.shares e.share).members.contains c
        | none => false
      let owned := match p with
        | .ctx n =>
          if n = 0 then false
          else if e.owner = 0xFFFF then s.ctxBound n e.part
          else decide (e.owner = n)
        | _ => false
      owned || listed

/-- Whether the memory crypto engine serves a principal under handle `h`: the entry permits it, and the security island releases the key to
that engine (R395). -/
def State.memPermits (s : State) (h kctx : Nat) (p : Principal) : Bool :=
  s.keyPermits h kctx p && (decide (h = 0x03F) || (s.key h).engines.getLsbD 0)

/-- Whether a principal may use a fence or barrier of owner `owner` and handle `keyh` (R233, R552). -/
def State.syncPermits (s : State) (owner keyh : Nat) (p : Principal) : Bool :=
  (decide (owner ≠ 0) && (p == .ctx owner)) || s.keyPermits keyh owner p

/-! ### Operations at a host (R480, R489) -/

/-- A fresh number of the model's own. -/
def State.number (s : State) : Nat × State := (s.serial, { s with serial := s.serial + 1 })

/-- RDMA READs that may be outstanding on one QP (R480). -/
def maxReads : Nat := 128

/-- Whether an operation may be sent beside those that are outstanding before it. -/
def RdmaOut.goes (o : RdmaOut) (others : List RdmaOut) : Bool :=
  if o.isRead then decide ((others.filter fun q => q.isRead && q.conn == o.conn && !q.held).length < maxReads)
  else !(others.any fun q => !q.isRead && q.conn == o.conn && decide (q.addr < o.addr + o.len ∧ o.addr < q.addr + q.len))

/-- Put an operation on the wire. -/
def State.sendRdma (s : State) (o : RdmaOut) : State :=
  s.emit (match o.use with
    | .group r i es => .completion r i es
    | .notice r => .notify r
    | _ => if o.isRead then .rdmaRead o.conn o.id o.addr o.rkey o.len else .rdmaWrite o.conn o.id o.addr o.rkey o.data)

/-- Start an operation at the host: it is sent at once where it may be. -/
def State.startRdma (s : State) (o : RdmaOut) : State :=
  let o := { o with held := !o.goes s.rdmaOut }
  let s := { s with rdmaOut := s.rdmaOut ++ [o] }
  if o.held then s else s.sendRdma o

/-! ### Completions (R301, R493, R494, R498) -/

/-- Put PHASE, SEAL_NEXT and the count into the FRAMING of an entry's word 1 (R493). -/
def frameWord (w : Word64) (phase sealNext : Bool) (count : Nat) : Word64 :=
  BitVec.ofNat 64 (w.toNat % 2 ^ 48 + (count % 2 ^ 14) * 2 ^ 48 + b2n sealNext * 2 ^ 62 + b2n phase * 2 ^ 63)

/-- Frame one entry, given as its eight words. -/
def frameEntry (e : List Word64) (phase sealNext : Bool) (count : Nat) : List Word64 :=
  match e with
  | w0 :: w1 :: r => w0 :: frameWord w1 phase sealNext count :: r
  | l => l

/-- Frame the entries of a group from ring index `tail` on; `sealNext` falls on the last. -/
def frameAll (phase sealed : Bool) : Nat → List (List Word64) → List (List Word64)
  | _, [] => []
  | tail, [e] => [frameEntry e phase sealed tail]
  | tail, e :: r => frameEntry e phase false tail :: frameAll phase sealed (tail + 1) r

/-- Seal words 2 to 7 of every entry of a group (R498): `place` counts the words sealed. -/
def sealEntries (serial queue ctr : Nat) : Nat → List (List Word64) → List (List Word64)
  | _, [] => []
  | place, e :: r =>
    (e.take 2 ++ ((e.drop 2).zipIdx.map fun q => Config.gcmWord serial queue 1 ctr (place + q.2) q.1)) ::
      sealEntries serial queue ctr (place + 6) r

/-- A NOP completion that fills the end of a ring (R493). -/
def fillerEntry : List Word64 := [BitVec.ofNat 64 (0xFFFF * 2 ^ 16), 0, 0, 0, 0, 0, 0, 0]

/-- The entries that a group takes on its ring, its trailer included. -/
def CGroup.size (g : CGroup) : Nat := g.entries.length + (if g.session = 0 then 0 else 1)

/-- The state of the connection of a ring. -/
def State.ringConn (s : State) (r : Nat) : ConnState := (Tbl.get Conn.reset s.conns (s.cring r).conn).st

/-- Write entries into a ring from an index on: an operation at the host (R489, R493). -/
def State.writeEntries (s : State) (r index : Nat) (es : List (List Word64)) : State :=
  let k := s.cring r
  if s.ringConn r = .up then
    let n := s.number
    n.2.startRdma ⟨n.1, k.conn, false, k.addr + 64 * index, k.rkey, 64 * es.length, [], [], false, .group r index es, 0, n.2.ltime⟩
  else s.emit (.completion r index es)

/-- Notify the host of a ring (R494). -/
def State.notifyHost (s : State) (r : Nat) : State :=
  if s.ringConn r = .up then
    let n := s.number
    n.2.startRdma ⟨n.1, (s.cring r).conn, false, 0, 0, 0, [], [], false, .notice r, 0, n.2.ltime⟩
  else s.emit (.notify r)

/-- Write one group at the tail of ring `r`, after filler entries where it would cross the end (R493), and the
notification that NOTIFY asks for (R494). The group is known to fit. -/
def State.writeGroup (s : State) (r : Nat) (g : CGroup) : State :=
  let k := s.cring r
  let n := 2 ^ k.log
  let pos := k.tail % n
  let fill := if pos + g.size ≤ n then 0 else n - pos
  let phase0 := k.phase
  let fillers := frameAll phase0 false k.tail (List.replicate fill fillerEntry)
  let s := if fill = 0 then s else s.writeEntries r pos fillers
  let start := k.tail + fill
  let phase := if fill = 0 then phase0 else !phase0
  let sess := Tbl.get (⟨0, 0, [], []⟩ : Session) s.sessions g.session
  let ctr := Tbl.get 0 sess.nextOut g.queue
  let isSealed := decide (g.session ≠ 0)
  let body := if isSealed then sealEntries sess.serial g.queue ctr 0 g.entries else g.entries
  let framed := frameAll phase isSealed start body
  let aad := (g.entries.map fun e => e.take 2).flatten ++ [BitVec.ofNat 64 g.session]
  let tag := Config.gcmTag sess.serial g.queue 1 ctr aad ((g.entries.map fun e => e.drop 2).flatten)
  let trailer : List Word64 :=
    [BitVec.ofNat 64 g.session, frameWord 0 phase false (start + g.entries.length), BitVec.ofNat 64 ctr,
      tag.truncate 64, (tag >>> 64).truncate 64, 0, 0, 0]
  let all := if isSealed then framed ++ [trailer] else framed
  let s := s.writeEntries r (start % n) all
  let s := if isSealed && (Tbl.find s.sessions g.session).isSome then
      { s with sessions := Tbl.set s.sessions g.session { sess with nextOut := Tbl.set sess.nextOut g.queue (ctr + 1) }
               keys := Tbl.mod KeyEntry.reset s.keys g.session fun e => { e with uses := e.uses + 1 } }
    else s
  let stop := start + g.size
  let phaseEnd := if stop % n = 0 then !phase else phase
  let s := s.modCring r fun k => { k with tail := stop % 2 ^ 17, phase := phaseEnd, notify := false }
  if k.notify then s.notifyHost r else s

/-- Entries free on a ring (R494). -/
def CRing.room (k : CRing) : Nat := 2 ^ k.log - ((k.tail + 2 ^ 17 - k.head) % 2 ^ 17)

/-- Entries a group needs, with the filler before it. -/
def CRing.need (k : CRing) (g : CGroup) : Nat :=
  let n := 2 ^ k.log
  let pos := k.tail % n
  (if pos + g.size ≤ n then 0 else n - pos) + g.size

/-- Write the waiting groups of a ring, oldest first, while they fit (COMPLETION_WRITE, R301, R494). Those of a broken connection wait
until it is restored (R484; assumption 156). -/
def State.flushGroups (s : State) (r : Nat) : List CGroup → State
  | [] => s.modCring r fun k => { k with waiting := [] }
  | g :: gs =>
    if (s.cring r).defined && s.ringConn r != .broken && decide ((s.cring r).need g ≤ (s.cring r).room) then
      State.flushGroups (s.writeGroup r g) r gs
    else s.modCring r fun k => { k with waiting := g :: gs }

/-- Write what fits of ring `r`. -/
def State.flushRing (s : State) (r : Nat) : State := s.flushGroups r (s.cring r).waiting

/-- Put a completion group on ring `r`. One for the ring of a closed connection is discarded, and counted in the port block (R484). -/
def State.pushGroup (s : State) (r : Nat) (g : CGroup) : State :=
  match (s.cring r).closed with
  | some p => { s with ports := Tbl.mod Port.reset s.ports p fun k => { k with crDiscard := min (k.crDiscard + 1) (2 ^ 32 - 1) } }
  | none => State.flushRing (s.modCring r fun k => { k with waiting := k.waiting ++ [g] }) r

/-! ### POWER records (R452) -/

namespace PowerEvent
def railFault : Nat := 1
def railBackstop : Nat := 2
def inputBackstop : Nat := 3
def thermalThrottle : Nat := 4
def thermalEmergency : Nat := 5
def thermalShutdown : Nat := 6
def fractionReduced : Nat := 7
def droopStorm : Nat := 8
end PowerEvent

/-- A POWER record: its event, severity, the rail or cluster, and the reading (R452). -/
def State.powerRecord (s : State) (ev severity what reading : Nat) (cluster : Option Nat := none) : State :=
  s.record { cause := 0x40, severity := severity, cluster := cluster, island := cluster.getD 0, d5 := ev + (what % 256) * 2 ^ 8 + (reading % 2 ^ 16) * 2 ^ 16 }

/-- The statuses of Table 10-7. -/
def St.ok : Nat := 0
def St.ctxLost : Nat := 1
def St.teardown : Nat := 2
def St.noCtx : Nat := 3
def St.badCmd : Nat := 4
def St.badSeal : Nat := 5
def St.wrongQueue : Nat := 6
def St.refused : Nat := 7
def St.fenceError : Nat := 8
def St.composeFailed : Nat := 9

/-- The words 0 and 1 of a completion entry (Table 10-6), without FRAMING. -/
def completionHead (status : Nat) (flags : Nat) (queue tag ctx detail : Nat) : List Word64 :=
  [BitVec.ofNat 64 (status + flags * 2 ^ 8 + queue * 2 ^ 16 + tag * 2 ^ 32),
    BitVec.ofNat 64 (ctx + detail * 2 ^ 16)]

/-- What a completion says beside the command's own fields. -/
structure Answer where
  status : Nat
  detail : Nat := 0
  result : List Word64 := []
  drainForced : Bool := false
  /-- Payload bytes of continuation entries, six words each (R303). -/
  more : List (List Word64) := []
deriving DecidableEq, Repr

/-- The energies of State are counted in units of 2^-24 nJ (Table 14-4): one µJ holds this many. -/
def energyUnit : Nat := 2 ^ 24 * 1000

/-- The energy of some contexts of this module, by context. -/
def State.energies (s : State) (ns : List Nat) : Tbl Nat := (ns.filter (· ≠ 0)).map fun n => (n, (s.ctx n).energy)

/-- Energy of the contexts that have taken part in a command since its start, in µJ (Table 10-6, ENERGY). -/
def Cmd.energy (c : Cmd) (s : State) : Nat :=
  (c.energy0.foldl (fun a e => a + ((s.ctx e.1).energy - e.2)) 0) / energyUnit + c.energyFar.foldl (fun a e => a + e.2) 0

/-- Pad a list of words with zeros to a length. -/
def padWords (n : Nat) (l : List Word64) : List Word64 := (l ++ List.replicate n 0).take n

/-- What settles after an operation: a post, a core fault, the loss of a context, a fence entering ERROR, a signal, an
add. Each is taken in the order it came about. -/
inductive Ev where
  /-- A post of a token by the instruction of bundle `pc` and slot `slot` (R53, R84). -/
  | post (core : Nat) (tok : Fin 16) (pc slot : Nat)
  | fault (core code pc slot : Nat)
  | lose (ctx : Nat)
  /-- A context is affected by what the ladder ended (R348). -/
  | affect (ctx : Nat)
  | fenceErr (n : Nat)
  | signal (n v : Nat) (who : Principal)
  /-- A child instance's arrival at a parent of this module, both by their 30-bit names (R241, R242). -/
  | barArrive (parent child : Nat)
  /-- BAR_DONE for an instance of this module (R242, R243). -/
  | barDone (name status : Nat)
deriving DecidableEq, Repr

/-- Whether a command is a RUN that completes after its deadline (R314). -/
def Cmd.late (c : Cmd) (s : State) : Bool :=
  let deadline := bits (c.words.getD 6 0).toNat 63 32
  decide (bits (c.words.headD 0).toNat 7 0 = 0x11 ∧ deadline ≠ 0 ∧ deadline * 1000 < s.ltime - c.fetched)

/-- The completion groups of a command (Tables 10-6 and 10-7, R303). -/
def Cmd.entries (c : Cmd) (s : State) (q : Nat) (a : Answer) : List (List Word64) :=
  let ctx := (s.queue q).ctx
  let w0 := (c.words.headD 0).toNat
  let tag := bits w0 63 32
  let flags := b2n c.notRepro + b2n c.fallback * 2 + b2n (c.late s) * 4 + b2n (!a.more.isEmpty) * 8 +
    b2n a.drainForced * 16
  let started := if c.state = .waiting then s.ltime else c.started
  let energy := if c.state = .waiting then 0 else c.energy s
  let main := completionHead a.status flags q tag ctx a.detail ++
    [BitVec.ofNat 64 energy,
      BitVec.ofNat 64 (((started - c.fetched) / 1000) % 2 ^ 32 + (((s.ltime - started) / 1000) % 2 ^ 32) * 2 ^ 32)] ++
    padWords 4 a.result
  let last := a.more.length
  let cont := a.more.zipIdx.map fun e =>
    completionHead 0 (flags - (flags / 8 % 2) * 8 + (if e.2 + 1 = last then 0 else 8)) q tag ctx a.detail ++
      padWords 6 e.1
  main :: cont

/-- A command leaves its queue; a queue that is destroyed goes with its last command, but for its generation. -/
def Queue.leave (k : Queue) (place : Nat) : Queue :=
  let left := k.cmds.filter fun d => d.place ≠ place
  if k.closing && left.isEmpty then { Queue.reset with gen := k.gen } else { k with cmds := left }

/-- A command leaves its queue with its completion (R301). A NOCOMP command that ends OK, and a replayed command that had already
completed (R369), write none. The log of its job marks it completed (R366). -/
def State.closeCmd (s : State) (q : Nat) (c : Cmd) (a : Answer) : State :=
  let w0 := (c.words.headD 0).toNat
  let k := s.queue q
  let quiet := c.silent || (bit w0 12 && decide (a.status = St.ok))
  let sess := if a.status = St.badSeal then 0 else c.session
  let grp : CGroup := ⟨sess, q, c.entries s q a⟩
  let s1 := s.modQueue q fun k => k.leave c.place
  let s2 := if quiet then s1 else s1.pushGroup k.cring grp
  let cx := s.ctx k.ctx
  if k.ctx = 0 then s2 else
    s2.modJob cx.forme cx.job fun j =>
      { j with log := j.log.map fun e =>
        if e.queue = q ∧ e.place = c.place then { e with completed := true, failed := decide (a.status ≠ St.ok) } else e }

/-- Complete the command at `place` of queue `q` (R301), with the signal of SIGV on OK (R295). -/
def State.complete (s : State) (q place : Nat) (a : Answer) : State × List Ev :=
  match (s.queue q).cmds.find? fun c => c.place == place with
  | none => (s, [])
  | some c =>
    let ctx := (s.queue q).ctx
    let s := s.closeCmd q c a
    if bit (c.words.headD 0).toNat 11 && decide (a.status = St.ok) then
      let name := (c.words.getD 3 0).toNat % 2 ^ 48
      let v := (c.words.getD 4 0).toNat
      if bits name 47 32 = s.fabAddr then (s, [.signal (bits name 31 0) v (.ctx ctx)])
      else
        (s.send (.ctrl 0x01 ⟨0, false, BitVec.ofNat 16 s.fabAddr, BitVec.ofNat 16 (bits name 47 32), 0,
          BitVec.ofNat 32 (bits name 31 0), 0, BitVec.ofNat 16 ctx, BitVec.ofNat 64 v, 0⟩), [])
    else (s, [])

/-- Complete several commands of one queue with one answer. -/
def State.completeAll (s : State) (q : Nat) (a : Answer) : List Nat → State × List Ev
  | [] => (s, [])
  | p :: ps =>
    let r := s.complete q p a
    let t := State.completeAll r.1 q a ps
    (t.1, r.2 ++ t.2)

end Sys2Proof.Machine
end

