-- ==== Sys2Proof/Machine/ChangeOps.lean ====
section
/-! DEFINITION. Starting a change of a forme: who takes part, and the messages of step 1 (R251, R257 to R260, R277). -/

namespace Sys2Proof.Machine

/-- A forme of which nothing is known yet. -/
def Forme.blank (id : Nat) : Forme where
  id := id
  epoch := 0
  draining := none
  members := []
  membersOld := []
  membersNew := none
  cseq := 0
  instCseq := 0
  change := none
  peerTimeout := 20
  quantum := 10
  newQuantum := none
  rotation := []
  running := none
  quantumStart := 0
  switching := none
  lastPulse := []
  lastPulseAns := []
  frozen := false
  probe := none
  askers := []
  rseq := 0
  reserves := []
  recStep := .none
  recStart := 0
  failedMember := none
  failedMembers := []
  recMembers := []
  rollbackWait := []
  rolledJobs := []
  lostJobs := []
  recLost := 0
  culpritLost := false
  masterMoved := false
  report := none
  redirect := none
  logCopies := []
  plans := []
  recQueue := []

/-- The module of the forme master: the member of lowest index (R251), or the deputy once it has claimed the part of a failed
master (R374). -/
def Forme.masterMod (f : Forme) : Option Nat :=
  match f.members, f.redirect with
  | (_, m) :: _, some (old, deputy) => some (if m.fab = old then deputy else m.fab)
  | (_, m) :: _, none => some m.fab
  | [], _ => f.change.map fun c => c.master

/-- The deputy: the member of lowest index whose module differs from the master's (R374). -/
def Forme.deputyMod (f : Forme) : Option Nat :=
  (f.members.find? fun e => some e.2.fab != f.masterMod).map fun e => e.2.fab

/-- Whether this module's compositor leads the forme. -/
def State.isMaster (s : State) (f : Forme) : Bool := f.masterMod == some s.fabAddr

/-- Numbers without repeats, in rising order. -/
def distinct (l : List Nat) : List Nat := l.foldl (fun a k => insertSorted k a) []

/-- The modules that hold a member of a forme. -/
def Forme.modules (f : Forme) : List Nat := distinct (f.members.map fun e => e.2.fab)

/-- The present module of a member. -/
def Forme.moduleOf (f : Forme) (m : Nat) : Option Nat := (Tbl.find f.members m).map fun r => r.fab

/-- The participants of a change: the modules of the members that it adds, removes, reshapes or moves, both ends of a
MOVE (R260). -/
def Forme.participants (f : Forme) (es : List PlanEntry) : List Nat :=
  distinct ((es.map fun e => (f.moduleOf e.member).toList ++ (if e.action = 2 then [] else [e.fab])).flatten)

/-- The modules that take part in Install, Switch and Drain: those of every member, old or new. -/
def Forme.allModules (f : Forme) (es : List PlanEntry) : List Nat :=
  distinct (f.modules ++ f.participants es)

/-- A compositor message of this module about a forme. -/
def State.compMsg (s : State) (dst : Nat) (formeId cseq epoch : Nat) (status : Nat := 0) (member : Option Nat := none)
    (w4 : Nat := 0) (w5 : Nat := 0) (w6 : Nat := 0) (data : CompData := .none) : CompMsg :=
  ⟨BitVec.ofNat 8 status, BitVec.ofNat 16 s.fabAddr, BitVec.ofNat 16 dst, BitVec.ofNat 4 epoch, BitVec.ofNat 32 formeId,
    member.map (BitVec.ofNat 16 ·), BitVec.ofNat 32 cseq, BitVec.ofNat 64 w4, BitVec.ofNat 64 w5, BitVec.ofNat 64 w6, data⟩

/-- Send a request or report, and keep it until it is answered (R282). -/
def State.sendComp (s : State) (opc : Nat) (m : CompMsg) : State :=
  let s := s.send (.comp opc m)
  { s with unanswered := s.unanswered ++ [⟨opc, m, s.ltime⟩] }

/-- Send the same request to several modules. -/
def State.sendCompAll (s : State) (opc : Nat) (f : Nat → CompMsg) (mods : List Nat) : State :=
  mods.foldl (fun s m => s.sendComp opc (f m)) s

/-- A change as the master starts it. -/
def Change.start (s : State) (cseq : Nat) (f : Forme) (h : PlanHeader) (es : List PlanEntry) (recovery : Bool)
    (queue : Option Nat) : Change where
  cseq := cseq
  master := s.fabAddr
  hdr := h
  entries := es
  recovery := recovery
  step := .admission
  parts := f.participants es
  mods := f.allModules es
  answered := []
  drained := []
  refusals := []
  started := s.ltime
  stepStart := s.ltime
  toEpoch := (f.epoch + 1) % 16
  undo := false
  restored := false
  queue := queue
  outcome := 0
  reason := 0
  reasonMember := none
  lostCtx := 0
  renumber := []
  failedMods := []
  decided := false
  admitted := false
  own := []
  switched := false
  drainReported := false
  moving := false
  movedSent := false
  quoined := false
  switchedAt := 0
  chunks := []
  minis := []
  nextTag := 1
  deferrals := 0
  deferred := []
  chunksMoved := 0

/-- Whether an entry's present or new module is `m` (R283). -/
def Forme.concerns (f : Forme) (m : Nat) (e : PlanEntry) : Bool :=
  f.moduleOf e.member == some m || (decide (e.action ≠ 2) && decide (e.fab = m))

/-- Plan entries in member-index order (R283). -/
def inMemberOrder (es : List PlanEntry) : List PlanEntry := es.mergeSort fun a b => decide (a.member ≤ b.member)

/-- A change that moves or reshapes a compute member keeps its virtual cores' numbers, whatever VCORE_BASE its entry gives (R252;
assumption 133). -/
def Forme.keepVcores (f : Forme) (es : List PlanEntry) : List PlanEntry :=
  es.map fun e =>
    match Tbl.find f.plans e.member with
    | some o => if (e.action = 3 ∨ e.action = 4) ∧ !e.memOnly ∧ !o.memOnly then { e with vcoreBase := o.vcoreBase } else e
    | none => e

/-- Start a change at the master (step 1 of Table 09-5): ADMIT goes to every participant, with the entries that concern it
(R283). -/
def State.startChange (s : State) (id : Nat) (h : PlanHeader) (es : List PlanEntry) (recovery : Bool)
    (queue : Option Nat) : State :=
  match s.forme id with
  | none => s
  | some f =>
    let cseq := (f.cseq + 1) % 2 ^ 32
    let es := f.keepVcores es
    let c := Change.start s cseq f h es recovery queue
    let s := s.modForme id fun f => { f with cseq := cseq, change := some c }
    s.sendCompAll 0x20 (fun m => s.compMsg m id cseq 0 (data := .plan h (inMemberOrder (es.filter (f.concerns m))))) c.parts

/-- The header of a change that the compositor plans for recovery (R277). -/
def recoveryHeader (f : Forme) (n : Nat) : PlanHeader := ⟨1, 1, false, f.epoch, n, f.id, 50, 10, 0, false⟩

/-- A channel mask or cluster mask from numbers. -/
def maskOf (w : Nat) (l : List Nat) : BitVec w := l.foldl (fun m i => m ||| (1 <<< i)) 0

/-- The entry that reshapes a member onto what is left of its clusters and channels (R212, R353). -/
def State.reshapeEntry (s : State) (p : Nat) : PlanEntry :=
  let q := s.part p
  let cl := q.lay.clusters.filter fun c => !s.quarantine.contains c && !s.dieFenced.contains (dieOf c)
  let ch := q.lay.channels.filter fun c => !(s.channel c).fenced
  ⟨q.member, s.fabAddr, p, 3, q.lay.memOnly, maskOf 48 cl, maskOf 384 ch, q.lay.eI, q.lay.eN, q.lay.vcoreBase, q.lay.power,
    q.lay.linkShare, false⟩

/-- Change the change in progress of a forme. -/
def State.modChange (s : State) (id : Nat) (g : Change → Change) : State :=
  s.modForme id fun f => { f with change := f.change.map g }

/-- The master aborts a change (R275) with an outcome and a reason; `outcome` 1 is a refusal, which only takes the admissions
back. Of a change that has not come to Install only its participants know. Before Switch the epoch stays E; after it the members wait for epoch E+2. -/
def State.abortChange (s : State) (id outcome reason : Nat) (member : Option Nat) : State :=
  match s.forme id with
  | none => s
  | some f =>
    match f.change with
    | none => s
    | some c =>
      if c.decided ∨ c.outcome = 1 ∨ c.outcome = 2 then s
      else
        let after := c.step != .admission && c.step != .install
        let told := if c.step = .admission then c.parts else c.mods
        let now := s.ltime
        let s := s.modChange id fun c => { c with
          outcome := outcome, reason := reason, reasonMember := member, step := .aborting, undo := after, answered := [],
          stepStart := now, mods := told }
        s.sendCompAll 0x2F (fun m => s.compMsg m id c.cseq f.epoch (status := reason) (w4 := b2n after))
          (told.filter fun m => !c.failedMods.contains m)

/-- A party of a change has failed on this module (Table 09-8): a target with TARGET_FAILED or GALLEY_FAILED, which abort the change, or a
source, with which it goes on as a data-loss event. The master acts; another module tells it (assumption 143). -/
def State.changeFails (s : State) (id reason member : Nat) : State :=
  match (s.forme id).bind fun f => f.change with
  | none => s
  | some c =>
    if c.master ≠ s.fabAddr then s.send (.changeFailed id member reason)
    else if reason ≠ 0x50 then s.abortChange id 2 reason (some member)
    else if c.decided ∨ c.outcome = 1 ∨ c.outcome = 2 then s
    else s.modChange id fun c => { c with outcome := 3, reason := reason, reasonMember := some member }

/-- A recovery change is asked for (R277): it starts at once, or waits for the change in progress, which is aborted with
PREEMPTED when it is not yet decided. -/
def State.startRecovery (s : State) (id : Nat) (es : List PlanEntry) : State :=
  match s.forme id with
  | none => s
  | some f =>
    match f.change with
    | none => s.startChange id (recoveryHeader f es.length) es true none
    | some c =>
      let s := s.modForme id fun f => { f with recQueue := f.recQueue ++ [es] }
      if c.recovery then s else s.abortChange id 2 0x43 none

/-! ### Asking for a rollback (R348, R368, R372) -/

/-- A recovery message of this module about a forme. -/
def State.recMsg (s : State) (dst formeId : Nat) (member : Nat := 0) (job : Nat := 0) (epochNo : Nat := 0) (rseq : Nat := 0)
    (status : Nat := 0) : RecMsg :=
  ⟨BitVec.ofNat 8 status, BitVec.ofNat 16 s.fabAddr, BitVec.ofNat 16 dst, BitVec.ofNat 32 formeId, BitVec.ofNat 16 member,
    BitVec.ofNat 32 job, BitVec.ofNat 32 epochNo, BitVec.ofNat 32 rseq, 0, []⟩

/-- Modules of a forme that hold a member not declared failed. -/
def Forme.aliveModules (f : Forme) : List Nat :=
  distinct ((f.members.filter fun e => !f.failedMembers.contains e.1).map fun e => e.2.fab)

/-- A job of a forme is to be rolled back: the master sends ROLLBACK to every module; another module tells the master. -/
def State.rollbackJob (s : State) (id job : Nat) : State :=
  match s.forme id with
  | none => s
  | some f =>
    if !s.isMaster f then s.emit (.affected id job)
    else if f.rollbackWait.any fun e => e.1 == job then s
    else
      let now := s.ltime
      let mods := f.aliveModules
      let mark := ((s.job id job).map fun j => j.mark).getD 0
      let s := s.modForme id fun f => { f with
        recStep := if f.recStep = .needsResize then .needsResize else .rollback
        recStart := if f.recStep = .none then now else f.recStart
        rseq := if f.recStep = .none then (f.rseq + 1) % 2 ^ 32 else f.rseq
        rollbackWait := f.rollbackWait ++ mods.map fun m => (job, m) }
      let rseq := ((s.forme id).map fun f => f.rseq).getD 0
      mods.foldl (fun s m => s.emit (.recov 0x07 (s.recMsg m id (job := job) (epochNo := mark) (rseq := rseq)))) s

/-- A member of this module has lost resources and is recomposed onto what remains (R212, R353). -/
def State.recomposePart (s : State) (p : Nat) : State :=
  let q := s.part p
  match s.forme q.forme with
  | none => s
  | some f =>
    if s.isMaster f then s.startRecovery f.id [s.reshapeEntry p]
    else s.send (.recompose q.forme q.member)

end Sys2Proof.Machine
end

