-- ==== Sys2Proof/Machine/Rotation.lean ====
section
/-! DEFINITION. The rotation of a forme's jobs and the choice of the next one (R309). -/

namespace Sys2Proof.Machine

/-! ### Fields of a command entry (Table 10-4) -/

/-- A word of a command's first entry. -/
def Cmd.word (c : Cmd) (i : Nat) : Nat := (c.words.getD i 0).toNat
/-- A word of a command's second entry. -/
def Cmd.word2 (c : Cmd) (i : Nat) : Nat := (c.second.getD i 0).toNat
/-- OPC. -/
def Cmd.opc (c : Cmd) : Nat := bits (c.word 0) 7 0
/-- TAG. -/
def Cmd.tag (c : Cmd) : Nat := bits (c.word 0) 63 32
/-- ARG0, ARG1 and ARG2. -/
def Cmd.arg (c : Cmd) (i : Nat) : Nat := c.word (5 + i)

/-- The contexts of a job on this module that are not FREE. -/
def State.jobCtxs (s : State) (forme job : Nat) : List (Nat × Context) :=
  s.ctxs.filter fun e => e.2.state != .free && decide (e.2.forme = forme) && decide (e.2.job = job)

/-! ### The rotation (R309) -/

/-- Whether a command is a RUN that has not completed. -/
def Cmd.isRun (c : Cmd) : Bool := c.opc == 0x11 && c.state != .done

/-- Whether recovery holds a job switched out: it is rolled back or to be rolled back, or a culprit search has yet to test a context
of it (R360, R368). -/
def State.jobHeld (s : State) (forme job : Nat) : Bool :=
  (s.forme forme).any (fun f => f.rolledJobs.contains job) || (s.job forme job).any (fun j => j.affected) ||
    s.culprits.any fun c => c.todo.any fun n => decide ((s.ctx n).forme = forme) && decide ((s.ctx n).job = job)

/-- Whether a core still runs an earlier RUN. -/
def Core.busy (k : Core) : Bool :=
  match k.ctl with
  | .running | .blocked _ | .halting | .stopped _ _ => true
  | _ => false

/-- Whether a core of this module runs for a context of a job that is LIVE. -/
def State.runsJob (s : State) (forme job : Nat) (k : Core) : Bool :=
  let x := s.ctx k.ctx
  k.busy && decide (k.ctx ≠ 0) && x.forme == forme && x.job == job && x.state == .live

/-- Whether a job is ready: one of its contexts, here or on a module named in `far`, holds a RUN. One that another module holds and has
begun runs on cores here. -/
def State.jobReady (s : State) (forme job : Nat) (far : List Nat) : Bool :=
  !s.jobHeld forme job && (far.contains job || (s.queues.any fun e =>
    e.2.inUse && decide (e.1 ≠ 0) && (s.ctx e.2.ctx).forme == forme && (s.ctx e.2.ctx).job == job &&
      (s.ctx e.2.ctx).state == .live && e.2.cmds.any Cmd.isRun) ||
    s.cores.any fun e => s.runsJob forme job e.2)

/-- The next ready job after `job` in a rotation; the first ready one where `job` is not in it. -/
def State.nextReady (s : State) (f : Forme) (job : Option Nat) (far : List Nat) : Option Nat :=
  let ready (j : Nat) : Bool := some j != job && s.jobReady f.id j far
  match job with
  | none => f.rotation.find? ready
  | some j =>
    let i := f.rotation.findIdx fun k => k == j
    ((f.rotation.drop (i + 1)) ++ f.rotation.take i).find? ready

/-- SHARE of a job. -/
def State.jobShare (s : State) (forme job : Nat) : Nat := ((s.jobCtxs forme job).map fun e => e.2.share).headD 1

/-- The compute members of a forme. -/
def Forme.computeMembers (f : Forme) : List Nat := (f.members.filter fun e => !e.2.memOnly).map fun e => e.1

/-- The scheduler switches a forme to a job (step 1 of Table 10-11). -/
def State.beginSwitch (s : State) (f : Forme) (job : Nat) : State :=
  let ms := f.computeMembers
  let s := s.modForme f.id fun f => { f with switching := some (job, ms) }
  ms.foldl (fun s m => s.send (.gangSwitch f.id m job)) s

/-- The scheduler chooses again (R309): nothing runs, or what runs is no longer ready. `far` names jobs that are ready through
contexts of other modules. -/
def State.reschedule (s : State) (id : Nat) (far : List Nat) : State :=
  match s.forme id with
  | none => s
  | some f =>
    if !s.isMaster f ∨ f.switching.isSome ∨ f.frozen then s
    else
      let idle := match f.running with
        | none => true
        | some j => !s.jobReady id j far
      match idle, s.nextReady f f.running far with
      | true, some j => s.beginSwitch f j
      | _, _ => s

end Sys2Proof.Machine
end

