-- ==== Sys2Proof/Machine/FenceOps.lean ====
section
/-! DEFINITION. What a hub does to a fence and to whoever waits on it, and how posts, core faults, lost contexts and
fences in ERROR settle (R53, R64, R84, R161, R222 to R237, R313, R316). -/

namespace Sys2Proof.Machine

/-! ### Counters of a sync page (R245) -/

/-- The largest value a counter holds. -/
def SynCnt.limit : SynCnt → Nat
  | .drop | .sat => 2 ^ 32 - 1
  | .deny | .errsig => 2 ^ 16 - 1
  | _ => 2 ^ 8 - 1

/-- The value of a counter. -/
def SynCnts.get (k : SynCnts) : SynCnt → Nat
  | .drop => k.drop | .sat => k.sat | .deny => k.deny | .errsig => k.errsig
  | .cold => k.cold | .poll => k.poll | .unreach => k.unreach | .badmsg => k.badmsg

/-- Write a counter. -/
def SynCnts.put (k : SynCnts) (c : SynCnt) (v : Nat) : SynCnts :=
  match c with
  | .drop => { k with drop := v }
  | .sat => { k with sat := v }
  | .deny => { k with deny := v }
  | .errsig => { k with errsig := v }
  | .cold => { k with cold := v }
  | .poll => { k with poll := v }
  | .unreach => { k with unreach := v }
  | .badmsg => { k with badmsg := v }

/-- Clear the counters of a list. -/
def SynCnts.clear (k : SynCnts) : List SynCnt → SynCnts
  | [] => { k with clearing := [] }
  | c :: cs => SynCnts.clear (k.put c 0) cs

/-- A hub applies a message: the clears asked for since the last take effect (R245). -/
def State.hubMessage (s : State) (h : Nat) : State :=
  s.modHub h fun k => { k with cnt := k.cnt.clear k.cnt.clearing }

/-- Count one event at a hub, saturating. -/
def State.synCount (s : State) (h : Nat) (c : SynCnt) : State :=
  s.modHub h fun k => { k with cnt := k.cnt.put c (min (k.cnt.get c + 1) c.limit) }

/-! ### Hot slots (R222, R223) -/

/-- Number of hot slots of a hub. -/
def hotSlots : Nat := 2048

/-- Whether a wait, an arm or a credit wait pins a fence. -/
def State.pinned (s : State) (n : Nat) : Bool := s.waits.any fun w => w.fence == n

/-- Write a hot fence back to the store. -/
def State.writeBack (s : State) (n : Nat) : State := s.modFence n fun f => { f with stored := f.value }

/-- Bring fence `n` hot at hub `h`, or mark it most recently used: the fence evicted is written back. The flag says
whether the fence is served cold, every slot being pinned. -/
def State.touch (s : State) (h n : Nat) : State × Bool :=
  let hot := (s.cluster h).hub.hot
  match hot.find? fun e => e.1 == n with
  | some e => (s.modHub h fun k => { k with hot := (k.hot.filter fun d => d.1 ≠ n) ++ [e] }, false)
  | none =>
    if hot.length < hotSlots then
      (s.modHub h fun k => { k with hot := k.hot ++ [(n, false)] }, false)
    else
      match hot.find? fun e => !s.pinned e.1 with
      | some v =>
        let s := s.writeBack v.1
        (s.modHub h fun k => { k with hot := (k.hot.filter fun d => d.1 ≠ v.1) ++ [(n, false)] }, false)
      | none => (s, true)

/-- Write a fence's value at its home hub: a hot fence is changed and awaits write-back, a cold one is changed in the
store. -/
def State.putValue (s : State) (n v : Nat) : State :=
  let h := (s.fence n).home
  if (s.cluster h).hub.hot.any fun e => e.1 == n then
    (s.modFence n fun f => { f with value := v }).modHub h fun k =>
      { k with hot := k.hot.map fun e => if e.1 = n then (n, true) else e }
  else s.modFence n fun f => { f with value := v, stored := v }

/-! ### Waiters -/

/-- The message that answers another module's request (R238). -/
def answerMsg (s : State) (mod clu tag number status value : Nat) : CtrlMsg :=
  ⟨BitVec.ofNat 8 status, false, BitVec.ofNat 16 s.fabAddr, BitVec.ofNat 16 mod, BitVec.ofNat 6 clu,
    BitVec.ofNat 32 number, BitVec.ofNat 16 tag, 0, BitVec.ofNat 64 value, 0⟩

/-- Give the answer of a blocking operation to a core; the core takes it at SYNC_ANSWER. -/
def State.giveAnswer (s : State) (c : Nat) (v : Word64) : State :=
  s.modCore c fun k =>
    match k.ctl with
    | .blocked b => if b.answer.isNone then { k with ctl := .blocked { b with answer := some v } } else k
    | _ => k

/-- The words of a stream's cursor record (Table 06-3): the indices of the cursor tile follow from its number. -/
def Stream.cursorRecord (t : Stream) (s : State) (engine cause : Nat) : List Word64 :=
  let w (i : Nat) : Nat := (t.desc.getD i 0).toNat
  let ndim := bits (w 0) 18 16
  let tdim := bits (w 0) 21 19
  let cnt (d : Nat) : Nat := if d = 0 then 1 else bits (w (6 + 2 * (d - 1))) 23 0
  let idx (d : Nat) : Nat :=
    if d < tdim ∨ ndim ≤ d then 0
    else
      let below := ((List.range d).filter fun e => tdim ≤ e).foldl (fun a e => a * max 1 (cnt e)) 1
      (t.cursor / below) % max 1 (cnt d)
  [ BitVec.ofNat 64 (cause + (engine % 4) * 2 ^ 8 + (t.slot % 8) * 2 ^ 10 + b2n t.write * 2 ^ 13 +
      (t.ctx % 2 ^ 16) * 2 ^ 16 + (t.cursor % 2 ^ 32) * 2 ^ 32),
    BitVec.ofNat 64 (t.va % 2 ^ 57),
    BitVec.ofNat 64 (idx 1 + idx 2 * 2 ^ 24), BitVec.ofNat 64 (idx 3 + idx 4 * 2 ^ 24),
    BitVec.ofNat 64 ((s.ctx t.ctx).asn + t.prq.getD 0 * 2 ^ 20 + b2n t.prq.isSome * 2 ^ 30 +
      (t.suspCount % 2 ^ 32) * 2 ^ 32),
    BitVec.ofNat 64 t.suspTime ] ++ padWords 10 t.desc

/-- The STREAM_STOP record of a stream (R161, R172, R344). -/
def State.streamStop (s : State) (e : Nat) (t : Stream) (cause severity : Nat) : State :=
  let words := t.cursorRecord s e cause
  s.record (s.recOfCtx t.ctx { cause := 0x02, severity := severity, island := e / 4, cluster := some (e / 4),
                               cont := [words.take 8, words.drop 8] })

/-- The credit waits of a stream's slot are given up; a remote one is cancelled (R239). -/
def State.dropCredit (s : State) (e slot : Nat) : State :=
  let hub := e / 4
  let mine (r : RemoteOp) : Bool := r.stream == some (e, slot) && !r.isSignal
  let s := { s with waits := s.waits.filter fun w => w.who != Waiter.stream e slot }
  match (s.cluster hub).hub.remote.find? mine with
  | none => s
  | some r =>
    let n := ((Tbl.find (s.engine e).active slot).map fun (t : Stream) => t.ctx).getD 0
    (s.modHub hub fun k => { k with remote := k.remote.filter fun q => !mine q }).send
      (.ctrl 0x05 ⟨0, false, BitVec.ofNat 16 s.fabAddr, BitVec.ofNat 16 r.mod, BitVec.ofNat 6 hub,
        BitVec.ofNat 32 r.number, BitVec.ofNat 16 r.tag, BitVec.ofNat 16 n, 0, 0⟩)

/-- Whether the status of a remote TFENCE signal of a stream has still to come (R240). -/
def State.awaitsResult (s : State) (e sid : Nat) : Bool :=
  (s.cluster (e / 4)).hub.remote.any fun r => r.isSignal && r.stream == some (e, sid)

/-- Whether a stream that has left its slot is still needed: a request of it is outstanding, or the status of its last signal. -/
def State.lingers (s : State) (e : Nat) (t : Stream) : Bool := !t.reqs.isEmpty || s.awaitsResult e t.sid

/-- Move a stream out of its active slot; what it has issued completes (R161, R172). -/
def State.endStream (s : State) (e slot : Nat) (t : Stream) : State :=
  (s.dropCredit e slot).modEngine e fun g =>
    { g with active := Tbl.del g.active slot,
             ending := if s.lingers e t then g.ending ++ [t] else g.ending }

/-- Active slots, suspended slots, and outstanding requests of an engine (R149). -/
def activeSlots : Nat := 8
def suspendedSlots : Nat := 16
def engineRequests : Nat := 8192

/-- A stream being suspended whose requests have completed moves to a suspended slot, if one is free (R165). -/
def State.parkStream (s : State) (e slot : Nat) : State :=
  match Tbl.find (s.engine e).active slot with
  | none => s
  | some t =>
    if t.stopping && t.reqs.isEmpty && decide ((s.engine e).suspended.length < suspendedSlots) then
      (s.dropCredit e slot).modEngine e fun g =>
        { g with active := Tbl.del g.active slot, suspended := g.suspended ++ [{ t with cwait := .none }] }
    else s

/-- Suspended slots have become free: streams that wait for one move there. -/
def State.parkAll (s : State) (e : Nat) : State :=
  if (s.engine e).active.isEmpty then s else (List.range activeSlots).foldl (fun s i => s.parkStream e i) s

/-- The STREAM_STOP record of a stream that is aborted, and the count of aborts (R161). -/
def State.abortRecord (s : State) (e : Nat) (t : Stream) (cause : Nat) : State :=
  (s.streamStop e { t with cause := cause, cursor := t.signalled, suspTime := s.ltime } cause 1).modEngine e fun g =>
    { g with aborts := min (g.aborts + 1) (2 ^ 32 - 1) }

/-- Abort an active stream (R161): it is recorded and its context kept. -/
def State.abortStream (s : State) (e slot cause : Nat) : State :=
  match Tbl.find (s.engine e).active slot with
  | none => s
  | some t => (s.abortRecord e t cause).endStream e slot { t with cause := cause, cursor := t.signalled, suspTime := s.ltime }

/-- Abort a stream wherever it stands: active, suspended, or ended with the status of its last signal to come. -/
def State.abortSid (s : State) (e sid cause : Nat) : State :=
  let g := s.engine e
  match g.active.find? fun p => p.2.sid == sid with
  | some (slot, _) => s.abortStream e slot cause
  | none =>
    match (g.suspended ++ g.ending).find? fun t => t.sid == sid with
    | none => s
    | some t =>
      ((s.abortRecord e t cause).modEngine e fun g => { g with
        suspended := g.suspended.filter fun u => u.sid ≠ sid
        ending := g.ending.filter fun u => u.sid ≠ sid || s.lingers e u }).parkAll e

/-- Tell one waiter how its wait ended: `status` is OK, FENCE_ERROR or NO_SUCH (R64, R161, R229, R232, R234, R239,
R295). -/
def State.tellWaiter (s : State) (n status : Nat) : Waiter → State × List Ev
  | .core c => (s.giveAnswer c (BitVec.ofNat 64 status), [])
  | .arm c tok pc =>
    if status = Sync.ok then (s, [.post c tok pc 0]) else (s, [.fault c FaultCode.fenceError pc 0])
  | .remote m clu tag auth => (s.sendFor auth (.ctrl 0x84 (answerMsg s m clu tag n status 0)), [])
  | .stream e slot =>
    if status = Sync.ok then
      (s.modEngine e fun g => { g with active := g.active.map fun p =>
        if p.1 = slot then (slot, { p.2 with cwait := .granted }) else p }, [])
    else (s.abortStream e slot 0x14, [])
  | .command q place =>
    if status = Sync.ok then
      (s.modQueue q fun k => { k with cmds := k.cmds.map fun c => if c.place = place then { c with waitMet := true } else c }, [])
    else if status = Sync.fenceError then s.complete q place { status := St.fenceError }
    else s.complete q place { status := St.refused, detail := status }

/-- Tell several waiters, in their order. -/
def State.tellAll (s : State) (n status : Nat) : List Waiter → State × List Ev
  | [] => (s, [])
  | w :: ws =>
    let r := s.tellWaiter n status w
    let t := State.tellAll r.1 n status ws
    (t.1, r.2 ++ t.2)

/-- Release the waits that a fence's value satisfies, in the order they were registered (R229); waits served cold are
re-tested by the hub on its own (R222). -/
def State.releaseWaits (s : State) (n : Nat) : State × List Ev :=
  let v := (s.fence n).value
  let hit (w : Wait) : Bool := w.fence == n && !w.cold && decide (w.target ≤ v)
  let sat := s.waits.filter hit
  let s := { s with waits := s.waits.filter fun w => !hit w }
  s.tellAll n Sync.ok (sat.map fun w => w.who)

/-! ### Operations of a home hub on a fence (R225 to R231, R551) -/

/-- Fence numbers that exist (R220). -/
def fenceCount : Nat := 1048576

/-- The largest fence value, at which a fence is saturated (R228). -/
def fenceMax : Nat := 2 ^ 64 - 1

/-- The lowest-numbered cluster that is not clamped or on a die out of service: where operations on FREE entries go
(R551). -/
def State.lowestCluster (s : State) : Nat :=
  ((List.range 48).find? fun c => !(s.cluster c).clamped && !s.dieFenced.contains (dieOf c) &&
    !s.quarantine.contains c).getD 0

/-- Signals of the fallback fences of the RUNs that a raise of fence `n` shows late (R313): the projection of
completion is compared with the deadline, and the monitor then stops watching the RUN. -/
def State.projectRuns (s : State) (n : Nat) : State × List Ev :=
  s.queues.foldl (fun acc e =>
    e.2.cmds.foldl (fun acc c =>
      match c.run with
      | none => acc
      | some r =>
        let cx := acc.1.ctx e.2.ctx
        match (acc.1.part cx.part).residency with
        | none => acc
        | some im =>
          if r.watch ∧ c.state = .running ∧ im.progressFence = n then
            let d := (acc.1.fence n).value - r.p0
            let t := acc.1.ltime - c.fetched
            let tq := c.started - c.fetched
            if d ≠ 0 ∧ d < im.layers ∧ r.deadline * 1000 * d < t * d + (im.layers - d) * (t - tq) then
              (acc.1.modQueue e.1 fun k => { k with cmds := k.cmds.map fun x =>
                if x.place = c.place then { x with fallback := true, run := some { r with watch := false } } else x },
               acc.2 ++ [.signal im.fallbackFence r.seq (.ctx e.2.ctx)])
            else acc
          else acc) acc) (s, [])

/-- A change of a fence's value has been made: waits are released and deadlines projected. -/
def State.raised (s : State) (n : Nat) : State × List Ev :=
  let r := s.releaseWaits n
  let p := r.1.projectRuns n
  (p.1, r.2 ++ p.2)

/-- Waits on a fence that has come hot are no longer served cold (R222). -/
def State.warm (s : State) (n : Nat) : State :=
  if s.waits.any fun w => w.fence == n && w.cold then
    { s with waits := s.waits.map fun (w : Wait) => if w.fence = n then { w with cold := false } else w }
  else s

/-- Bring fence `n` hot at hub `h`; where no slot can be had, it is served cold (R222). -/
def State.heat (s : State) (h n : Nat) : State :=
  if (s.touch h n).2 then (s.touch h n).1 else (s.touch h n).1.warm n

/-- What the home hub finds before it applies an operation: whether the number exists and the principal may use it
(R225, R233, R551). A hub behind closed clamps refuses at the crossing, and counts nothing (R32; assumption 118). The state has the message counted and the fence brought hot. -/
def State.admitOp (s : State) (n : Nat) (p : Principal) : State × Bool :=
  if fenceCount ≤ n then (s, false)
  else
    let f := s.fence n
    if f.state = .free then (s.hubMessage s.lowestCluster, false)
    else if (s.cluster f.home).clamped then (s, false)
    else
      let s := (s.hubMessage f.home).heat f.home n
      if s.syncPermits f.owner f.keyh p then (s, true) else (s.synCount f.home .deny, false)

/-- A signal (R226, R228, R234): its status, and what follows. `acked` is false for a remote signal without ACK_REQ. -/
def State.fenceSignal (s : State) (n v : Nat) (p : Principal) (acked : Bool) : Nat × State × List Ev :=
  match s.admitOp n p with
  | (s, false) => (Sync.noSuch, s, [])
  | (s, true) =>
    let f := s.fence n
    if f.state = .error then
      (Sync.fenceError, if acked then s else s.synCount f.home .errsig, [])
    else if fenceMax ≤ f.value then (Sync.saturated, s.synCount f.home .sat, [])
    else if v < f.value then
      (Sync.discarded, (s.modFence n fun f => { f with drops := min (f.drops + 1) 0xFFFF }).synCount f.home .drop, [])
    else if v = f.value then (Sync.ok, s, [])
    else
      let r := (s.putValue n v).raised n
      (Sync.ok, r.1, r.2)

/-- An add (R227, R228, R234). -/
def State.fenceAdd (s : State) (n a : Nat) (p : Principal) (acked : Bool) : Nat × State × List Ev :=
  match s.admitOp n p with
  | (s, false) => (Sync.noSuch, s, [])
  | (s, true) =>
    let f := s.fence n
    if f.state = .error then
      (Sync.fenceError, if acked then s else s.synCount f.home .errsig, [])
    else if fenceMax ≤ f.value then (Sync.saturated, s.synCount f.home .sat, [])
    else if a = 0 then (Sync.ok, s, [])
    else
      let sum := f.value + a
      if fenceMax < sum then
        let r := ((s.synCount f.home .sat).putValue n fenceMax).raised n
        (Sync.saturated, r.1, r.2)
      else
        let r := (s.putValue n sum).raised n
        (Sync.ok, r.1, r.2)

/-- A read (R231): the status that READ_ANS carries, and the value, zero where no usable fence is named. -/
def State.fenceRead (s : State) (n : Nat) (p : Principal) : Nat × Nat × State :=
  match s.admitOp n p with
  | (s, false) => (Sync.noSuch, 0, s)
  | (s, true) =>
    let f := s.fence n
    (if f.state = .error then Sync.fenceError else Sync.ok, f.value, s)

/-- A wait (R63, R229, R234): decided at once with a status, or registered (`none`). -/
def State.fenceWait (s : State) (n target : Nat) (p : Principal) (who : Waiter) : Option Nat × State :=
  match s.admitOp n p with
  | (s, false) => (some Sync.noSuch, s)
  | (s, true) =>
    let f := s.fence n
    if f.state = .error then (some Sync.fenceError, s)
    else if target ≤ f.value then (some Sync.ok, s)
    else
      let cold := !((s.cluster f.home).hub.hot.any fun e => e.1 == n)
      let s := if cold then s.synCount f.home .cold else s
      (none, { s with waits := s.waits ++ [⟨n, target, who, cold⟩] })

/-- Remove the waits of one waiter. -/
def State.dropWaits (s : State) (who : Waiter → Bool) : State :=
  { s with waits := s.waits.filter fun w => !who w.who,
           barWaits := s.barWaits.filter fun w => !who w.who }

/-- Whether a waiter is a core, or an arm of it. -/
def Waiter.ofCore (c : Nat) : Waiter → Bool
  | .core d => d == c
  | .arm d _ _ => d == c
  | _ => false

/-- Whether a waiter is the credit wait of a stream. -/
def Waiter.ofStream (e slot : Nat) : Waiter → Bool
  | .stream d t => d == e && t == slot
  | _ => false

/-- A fence enters ERROR (R234): its value is frozen, and every wait, arm and credit wait on it fails. -/
def State.enterError (s : State) (n : Nat) : State × List Ev :=
  if (s.fence n).state = .live then
    let ws := s.waits.filter fun w => w.fence == n
    let s := s.modFence n fun f => { f with state := .error }
    let s := { s with waits := s.waits.filter fun w => !(w.fence == n) }
    s.tellAll n Sync.fenceError (ws.map fun w => w.who)
  else (s, [])

/-- An entry returns to FREE: it is written as zero (R232). -/
def State.freeFence (s : State) (n : Nat) : State :=
  let h := (s.fence n).home
  ({ s with fences := Tbl.del s.fences n }).modHub h fun k => { k with hot := k.hot.filter fun e => e.1 ≠ n }

/-- Release one import of a fence (R236, R237): an ERROR fence whose last import goes becomes FREE. -/
def State.releaseImport (s : State) (n : Nat) : State :=
  let f := s.fence n
  if f.state = .free then s
  else
    let i := f.imports - 1
    if f.state = .error ∧ i = 0 ∧ f.imports ≠ 0 then s.freeFence n
    else s.modFence n fun f => { f with imports := i }

/-- Release an import by its 48-bit name (R236): a RELEASE message where the fence is on another module. -/
def State.releaseName (s : State) (n name : Nat) : State :=
  if bits name 47 32 = s.fabAddr then s.releaseImport (bits name 31 0)
  else s.send (.ctrl 0x06 ⟨0, false, BitVec.ofNat 16 s.fabAddr, BitVec.ofNat 16 (bits name 47 32), 0,
    BitVec.ofNat 32 (bits name 31 0), 0, BitVec.ofNat 16 n, 0, 0⟩)

/-! ### Barriers (R241 to R243) -/

/-- Barrier instance `i` of the hub of cluster `h`. -/
def State.bar (s : State) (h i : Nat) : Barrier := Tbl.get Barrier.reset (s.cluster h).hub.bars i
/-- Change a barrier instance. -/
def State.modBar (s : State) (h i : Nat) (f : Barrier → Barrier) : State :=
  s.modHub h fun k => { k with bars := Tbl.set k.bars i (f (Tbl.get Barrier.reset k.bars i)) }

/-- The 30-bit name of a barrier instance of this module (Table 08-5, PARENT). -/
def State.barName (s : State) (h i : Nat) : Nat := s.fabAddr * 2 ^ 14 + h * 2 ^ 8 + i

/-- The mini-switches of this module whose cluster has left. -/
def State.movedHubs (s : State) : List (Nat × MiniSwitch) :=
  s.formes.flatMap fun f => match f.change with
    | some c => (c.minis.filter fun m => decide (m.srcMod = s.fabAddr) && (m.carried || m.done)).map fun m => (f.id, m)
    | none => []

/-- The mini-switch during whose pause a message for hub `c` of this module comes, by forme and tag: the hub's state has been carried and its
cluster has not resumed (R264, R265). -/
def State.pausing (s : State) (c : Nat) : Option (Nat × Nat) :=
  s.formes.findSome? fun f => f.change.bind fun x =>
    (x.minis.find? fun k => !k.done && decide (k.dstMod = s.fabAddr) &&
      (if k.srcMod = s.fabAddr then k.carried && decide (k.srcClu = c ∨ k.dstClu = c) else decide (k.dstClu = c))).map fun k => (f.id, k.tag)

/-- Whether the state of hub `h` is on its way to another cluster or has gone there (R265): messages for it, those of this module among them,
are sent, to be held or forwarded. -/
def State.hubAway (s : State) (h : Nat) : Bool := (s.pausing h).isSome || s.movedHubs.any fun e => e.2.srcClu == h

/-- BAR_DONE to one child (R242, R243): a child of this module is told in the same settlement. -/
def State.tellChild (s : State) (owner phase status child : Nat) : State × List Ev :=
  if child / 2 ^ 14 = s.fabAddr ∧ !s.hubAway (bits child 13 8) then (s, [.barDone child status])
  else (s.sendFor owner (.ctrl 0x90 (answerMsg s (child / 2 ^ 14) (bits child 13 8) (bits child 7 0) (child % 2 ^ 14) status phase)), [])

/-- BAR_DONE to every child of a list. -/
def State.tellChildren (s : State) (owner phase status : Nat) : List Nat → State × List Ev
  | [] => (s, [])
  | c :: cs =>
    let r := s.tellChild owner phase status c
    let t := State.tellChildren r.1 owner phase status cs
    (t.1, r.2 ++ t.2)

/-- Release the waits of one phase of an instance. -/
def State.releaseBar (s : State) (h i phase status : Nat) : State × List Ev :=
  let hit (w : BarWait) : Bool := w.cluster == h && w.inst == i && (w.phase == phase || status != Sync.ok)
  let ws := s.barWaits.filter hit
  s.tellAll 0 status (ws.map fun w => w.who) |> fun r =>
    ({ r.1 with barWaits := r.1.barWaits.filter fun w => !hit w }, r.2)

/-- The phase now collecting completes (R242). -/
def State.barComplete (s : State) (h i : Nat) : State × List Ev :=
  let b := s.bar h i
  let s := s.modBar h i fun b => { b with
    phase := (b.phase + 1) % 2 ^ 32, arrived := b.arrived - b.expect, children := b.nextChildren, nextChildren := [],
    sentUp := false }
  let r := s.releaseBar h i b.phase Sync.ok
  let t := r.1.tellChildren b.owner b.phase Sync.ok b.children
  (t.1, r.2 ++ t.2)

/-- Test an instance's count after an arrival (BARRIER_PHASE_COMPLETE, R242): a root completes, another instance sends
BAR_ARRIVE to its parent. -/
def State.barTest (s : State) (h i : Nat) : State × List Ev :=
  let b := s.bar h i
  if b.conf ∧ b.expect ≤ b.arrived ∧ !b.sentUp then
    match b.parent with
    | none => s.barComplete h i
    | some p =>
      let s := s.modBar h i fun b => { b with sentUp := true }
      if p / 2 ^ 14 = s.fabAddr ∧ !s.hubAway (bits p 13 8) then (s, [.barArrive p (s.barName h i)])
      else
        (s.send (.ctrl 0x10 ⟨0, false, BitVec.ofNat 16 s.fabAddr, BitVec.ofNat 16 (p / 2 ^ 14), BitVec.ofNat 6 h,
          BitVec.ofNat 32 (p % 2 ^ 14), BitVec.ofNat 16 i, BitVec.ofNat 16 b.owner, BitVec.ofNat 64 b.phase, 0⟩), [])
  else (s, [])

/-- A local arrival of core `c` for a context (R242): the core's arrival phase is recorded. -/
def State.barArriveCore (s : State) (h i c : Nat) (p : Principal) : State × List Ev :=
  if (s.cluster h).clamped then (s, []) else
  let s := s.hubMessage h
  let b := s.bar h i
  if b.conf && s.syncPermits b.owner b.keyh p then
    let ph := if b.sentUp then (b.phase + 1) % 2 ^ 32 else b.phase
    let key := phaseKey (s.core c).ctx (s.core c).vcore
    (s.modBar h i fun b => { b with arrived := b.arrived + 1, corePhase := Tbl.set b.corePhase key ph }).barTest h i
  else (s.synCount h .deny, [])

/-- A child's arrival at a parent instance (R242): a 65th child of one phase is discarded and counted. -/
def State.barArriveChild (s : State) (h i child : Nat) (p : Principal) : State × List Ev :=
  if (s.cluster h).clamped then (s, []) else
  let s := s.hubMessage h
  let b := s.bar h i
  if b.conf && s.syncPermits b.owner b.keyh p then
    let full := if b.sentUp then b.nextChildren.length else b.children.length
    if 64 ≤ full then (s.synCount h .badmsg, [])
    else
      (s.modBar h i fun b =>
        if b.sentUp then { b with arrived := b.arrived + 1, nextChildren := b.nextChildren ++ [child] }
        else { b with arrived := b.arrived + 1, children := b.children ++ [child] }).barTest h i
  else (s.synCount h .deny, [])

/-- BAR_DONE at a child instance (R242, R243): its phase completes, or with NO_SUCH it unconfigures in turn. -/
def State.barDoneAt (s : State) (h i status : Nat) : State × List Ev :=
  let s := s.hubMessage h
  let b := s.bar h i
  if !b.conf then (s, [])
  else if status = Sync.ok then
    if b.sentUp then
      let r := s.barComplete h i
      let t := r.1.barTest h i
      (t.1, r.2 ++ t.2)
    else (s, [])
  else
    let s := s.modBar h i fun _ => Barrier.reset
    let r := s.releaseBar h i 0 Sync.noSuch
    let t := r.1.tellChildren b.owner b.phase Sync.noSuch (b.children ++ b.nextChildren)
    (t.1, r.2 ++ t.2)

/-- An instance is unconfigured by its owner's loss or teardown (R243). -/
def State.barUnconfigure (s : State) (h i : Nat) : State × List Ev := s.barDoneAt h i Sync.noSuch

/-! ### Loss of a context (R316) -/

/-- Stop a core as for a core fault (R84, R316). -/
def Core.halt (k : Core) : Core :=
  match k.ctl with
  | .idle => k
  | _ => { k with ctl := .faulted, held := [] }

/-- Stop every core that runs context `n`; their waits and arms go. -/
def State.stopCores (s : State) (n : Nat) : State :=
  let cs := (s.cores.filter fun e => e.2.ctx == n && e.2.ctl != .idle).map fun e => e.1
  cs.foldl (fun s c => ((s.dropGrants c).modCore c Core.halt).dropWaits (Waiter.ofCore c)) s

/-- The engines and active slots of the streams of context `n`. -/
def State.slotsOf (s : State) (n : Nat) : List (Nat × Nat) :=
  (s.engines.map fun (e : Nat × StreamEngine) => (e.2.active.filter fun p => p.2.ctx == n).map fun p => (e.1, p.1)).flatten

/-- The streams and the waiting descriptors of context `n` leave every engine: what has been issued completes. -/
def State.takeStreams (s : State) (n : Nat) : State :=
  { s with engines := s.engines.map fun (e : Nat × StreamEngine) =>
    (e.1, { e.2 with
      queue := e.2.queue.filter fun d => d.ctx ≠ n,
      active := e.2.active.filter fun p => p.2.ctx ≠ n,
      suspended := e.2.suspended.filter fun t => t.ctx ≠ n,
      ending := e.2.ending ++
        ((e.2.active.map fun (p : Nat × Stream) => p.2) ++ e.2.suspended).filter fun (t : Stream) => t.ctx == n && !t.reqs.isEmpty }) }

/-- Page requests forget the streams that have left their engines. -/
def State.forgetGone (s : State) : State :=
  let runs (e sid : Nat) : Bool :=
    (s.engine e).suspended.any (fun t => t.sid == sid) || (s.engine e).active.any fun (p : Nat × Stream) => p.2.sid == sid
  { s with
    agent := { s.agent with
      table := s.agent.table.map fun (e : Nat × PageReq) => (e.1, { e.2 with waiters := e.2.waiters.filter fun w => runs w.1 w.2 })
      queue := s.agent.queue.filter fun w =>
        match w with
        | .demand e sid => runs e sid
        | .spec .. => true } }

/-- Stop every stream of context `n` on every engine (R172): streams that waited for a suspended slot take those that have become free. -/
def State.stopStreams (s : State) (n : Nat) : State :=
  let s := ((s.slotsOf n).foldl (fun s p => s.dropCredit p.1 p.2) s).takeStreams n
  ((s.engines.map fun e => e.1).foldl (fun s e => s.parkAll e) s).forgetGone

/-- The queues and places of the commands that end when context `n` is lost or torn down: every command of its queues,
and every RUN of its job that has a core of it (R300, R316). -/
def State.cmdsOf (s : State) (n : Nat) : List (Nat × Nat) :=
  let x := s.ctx n
  let mine (d : Nat) : Bool := (s.part x.part).lay.clusters.contains (d / 4)
  (s.queues.map fun e =>
    (e.2.cmds.filter fun c =>
      (decide (e.2.inUse) && decide (e.2.ctx = n) && decide (e.1 ≠ 0)) ||
      (match c.run with
        | some r => decide (r.forme = x.forme ∧ r.job = x.job) && r.cores.any mine
        | none => false)).map fun c => (e.1, c.place)).flatten

/-- Complete commands with one answer. -/
def State.endCmds (s : State) (a : Answer) : List (Nat × Nat) → State × List Ev
  | [] => (s, [])
  | (q, p) :: r =>
    let t := s.complete q p a
    let u := State.endCmds t.1 a r
    (u.1, t.2 ++ u.2)

/-- Fences that a context owns, in rising order of number. -/
def State.ownedFences (s : State) (n : Nat) : List Nat :=
  (s.fences.filter fun e => e.2.owner == n && e.2.state != .free).map fun e => e.1

/-- Barrier instances that a context owns, by name. -/
def State.ownedBars (s : State) (n : Nat) : List Nat :=
  (s.clusters.map fun e =>
    (e.2.hub.bars.filter fun b => b.2.conf && b.2.owner == n).map fun b => s.barName e.1 b.1).flatten

/-- A context is lost (R316). Its imports are released (R236); where its job is no longer ready the scheduler switches at once (R309). -/
def State.loseCtx (s : State) (n : Nat) : State × List Ev :=
  let c := s.ctx n
  if n ≠ 0 ∧ c.state = .live then
    let ends := s.cmdsOf n
    let s := c.imports.foldl (fun s name => s.releaseName n name) s
    let s := s.modCtx n fun c => { c with state := .lost, imports := [] }
    let s := (s.stopCores n).stopStreams n
    let r := s.endCmds { status := St.ctxLost } ends
    ((r.1.send (.loss c.forme c.job c.member)).reschedule c.forme [], r.2 ++ (s.ownedFences n).map .fenceErr ++
      (s.ownedBars n).map fun b => .barDone b Sync.noSuch)
  else (s, [])

/-! ### Core faults and posts -/

/-- A core fault (R84): every issuer stops, the fault is recorded, and the context is lost. -/
def State.coreFault (s : State) (c code pc slot : Nat) : State × List Ev :=
  let k := s.core c
  match k.ctl with
  | .idle | .faulted | .ended => (s, [])
  | _ =>
    let s := ((s.dropGrants c).modCore c fun k => { k with ctl := .faulted, fault := some ⟨code, pc, slot⟩ }).dropWaits (Waiter.ofCore c)
    let s := s.record (s.recOfCtx k.ctx
      { cause := 0x01, severity := 2, island := clusterOf c, cluster := some (clusterOf c),
        d5 := code + (pc % 2 ^ 13) * 2 ^ 8 + slot * 2 ^ 21 + (c % 4) * 2 ^ 23 })
    (s, [.lose k.ctx])

/-- A post (R51, R53): a counter that would pass 63 is core fault TOKEN_OVERFLOW and keeps 63. -/
def State.tokenPost (s : State) (c : Nat) (tok : Fin 16) (pc slot : Nat) : State × List Ev :=
  let k := s.core c
  match k.ctl with
  | .idle | .faulted | .ended => (s, [])
  | _ =>
    if 63 ≤ k.token tok then (s, [.fault c FaultCode.tokenOverflow pc slot])
    else (s.modCore c fun k => k.setToken tok (k.token tok + 1), [])

/-- A context is affected (R348): an epoch-protected job is to be rolled back, any other context is lost. -/
def State.affectCtx (s : State) (n : Nat) : State × List Ev :=
  let c := s.ctx n
  match s.job c.forme c.job with
  | some j =>
    if j.active ∧ !j.unprotected then
      if j.affected then (s, [])
      else ((s.modJob c.forme c.job fun j => { j with affected := true }).rollbackJob c.forme c.job, [])
    else (s, [.lose n])
  | none => (s, [.lose n])

/-- What one event brings about. -/
def State.settleOne (s : State) : Ev → State × List Ev
  | .post c tok pc slot => s.tokenPost c tok pc slot
  | .fault c code pc slot => s.coreFault c code pc slot
  | .lose n => s.loseCtx n
  | .affect n => s.affectCtx n
  | .fenceErr n => s.enterError n
  | .signal n v p => (s.fenceSignal n v p false).2
  | .barArrive p ch =>
    s.barArriveChild (bits p 13 8) (bits p 7 0) ch (.ctx (s.bar (bits ch 13 8) (bits ch 7 0)).owner)
  | .barDone p st => s.barDoneAt (bits p 13 8) (bits p 7 0) st

/-- Settle a list of events, each with what it brings about in turn; `fuel` bounds the number taken. -/
def State.settleFuel (s : State) : Nat → List Ev → State
  | 0, _ => s
  | _, [] => s
  | fuel + 1, e :: es =>
    let r := s.settleOne e
    State.settleFuel r.1 fuel (es ++ r.2)

/-- Events enough for any settlement: a core faults once, a context is lost once, a fence enters ERROR once, a wait ends
once, and a monitored RUN signals once. -/
def State.settleBound (s : State) (n : Nat) : Nat :=
  2 * (n + s.cores.length + s.ctxs.length + s.fences.length + s.waits.length +
    (s.queues.foldl (fun a e => a + e.2.cmds.length) 0) + 4 * s.barWaits.length +
    4 * (s.clusters.foldl (fun a e => a + e.2.hub.bars.length) 0)) + 2

/-- Settle what an operation has brought about. -/
def State.settle (s : State) (es : List Ev) : State :=
  s.settleFuel (s.settleBound es.length) es

/-- A post of a header's token by the instruction of bundle `pc` and slot `slot`, settled. -/
def State.postHdr (s : State) (c : Nat) (h : Hdr) (pc slot : Nat) : State :=
  match h.post with
  | none => s
  | some t => s.settle [.post c t pc slot]

/-- A core fault, settled. -/
def State.fault (s : State) (c code pc slot : Nat) : State := s.settle [.fault c code pc slot]

end Sys2Proof.Machine
end

