-- ==== Sys2Proof/Machine/Operands.lean ====
section
/-! DEFINITION. The operand forms: slots, headers and control-slot forms of a bundle (R48 to R50, R56, R66, R69), what an
engine slot captures (R43), and tile descriptors (R74, R75). -/

namespace Sys2Proof.Machine

/-! ### Slot fields -/

/-- The token header of a slot (Table 02-2). -/
def slotHdr (w : Nat) : Hdr :=
  ⟨if bit w 55 then some (Fin.ofNat 16 (bits w 54 51)) else none,
   if bit w 50 then some (Fin.ofNat 16 (bits w 49 46)) else none⟩

/-- The opcode of a slot. -/
def slotOp (w : Nat) : Nat := bits w 63 56

/-- An X register named by a field. -/
def regAt (w hi lo : Nat) : Fin 32 := Fin.ofNat 32 (bits w hi lo)

/-- A form of Table 02-3. -/
inductive CtlForm where
  | none | r | i | b | w
deriving DecidableEq, Repr

/-- Whether a form's reserved bits are zero (R50, R56). -/
def CtlForm.clean (f : CtlForm) (w : Nat) : Bool :=
  match f with
  | .none => bits w 45 0 == 0
  | .r => bits w 30 0 == 0
  | .i | .w => true
  | .b => bits w 45 41 == 0 && bits w 30 13 == 0

/-- The form and the instruction of a control slot (Table 02-4); `none` for a reserved opcode. -/
def ctlDecode (w : Nat) : Option (CtlForm × CtlOp) :=
  let xd := regAt w 45 41
  let xa := regAt w 40 36
  let xb := regAt w 35 31
  let imm : BitVec 36 := BitVec.ofNat 36 (bits w 35 0)
  let imw : BitVec 31 := BitVec.ofNat 31 (bits w 30 0)
  let tgt : BitVec 13 := BitVec.ofNat 13 (bits w 12 0)
  match slotOp w with
  | 0x00 => some (.none, .nop)
  | 0x01 => some (.r, .add xd xa xb)
  | 0x02 => some (.r, .sub xd xa xb)
  | 0x03 => some (.r, .and xd xa xb)
  | 0x04 => some (.r, .or xd xa xb)
  | 0x05 => some (.r, .xor xd xa xb)
  | 0x06 => some (.r, .shl xd xa xb)
  | 0x07 => some (.r, .shr xd xa xb)
  | 0x08 => some (.r, .sar xd xa xb)
  | 0x09 => some (.r, .mul xd xa xb)
  | 0x0A => some (.r, .mulh xd xa xb)
  | 0x0B => some (.r, .min xd xa xb)
  | 0x0C => some (.r, .max xd xa xb)
  | 0x0D => some (.r, .slt xd xa xb)
  | 0x0E => some (.r, .sltu xd xa xb)
  | 0x10 => some (.i, .addi xd xa imm)
  | 0x11 => some (.i, .andi xd xa imm)
  | 0x12 => some (.i, .ori xd xa imm)
  | 0x13 => some (.i, .xori xd xa imm)
  | 0x14 => some (.i, .shli xd xa imm)
  | 0x15 => some (.i, .shri xd xa imm)
  | 0x16 => some (.i, .ldhi xd xa imm)
  | 0x20 => some (.i, .ld xd xa imm)
  | 0x21 => some (.i, .st xd xa imm)
  | 0x22 => some (.i, .tdld xd xa imm)
  | 0x23 => some (.i, .tdst xd xa imm)
  | 0x30 => some (.b, .j tgt)
  | 0x31 => some (.b, .beq xa xb tgt)
  | 0x32 => some (.b, .bne xa xb tgt)
  | 0x33 => some (.b, .blt xa xb tgt)
  | 0x34 => some (.b, .bge xa xb tgt)
  | 0x35 => some (.b, .bltu xa xb tgt)
  | 0x36 => some (.b, .call tgt)
  | 0x37 => some (.none, .ret)
  | 0x38 => some (.r, .jr xa)
  | 0x39 => some (.b, .loop xa tgt)
  | 0x3F => some (.none, .halt)
  | 0x40 => some (.i, .csrr xd xa imm)
  | 0x41 => some (.i, .csrw xd xa imm)
  | 0x42 => some (.i, .csrs xd xa imm)
  | 0x43 => some (.i, .csrc xd xa imm)
  | 0x50 => some (.i, .alloc xd xa imm)
  | 0x51 => some (.r, .free xd xa xb)
  | 0x80 => some (.r, .fsig xd xa xb)
  | 0x81 => some (.r, .fadd xd xa xb)
  | 0x82 => some (.w, .fwait xd xa xb imw)
  | 0x83 => some (.r, .fread xd xa xb)
  | 0x84 => some (.r, .ftok xd xa xb)
  | 0x88 => some (.r, .rfsig xd xa xb)
  | 0x89 => some (.r, .rfadd xd xa xb)
  | 0x8A => some (.w, .rfwait xd xa xb imw)
  | 0x8B => some (.r, .rfread xd xa xb)
  | 0x90 => some (.r, .bara xd xa xb)
  | 0x91 => some (.w, .barw xd xa xb imw)
  | 0x92 => some (.r, .bart xd xa xb)
  | _ => none

/-- LDHI's own reserved bits (Table 02-4). -/
def CtlOp.clean : CtlOp → Bool
  | .ldhi _ _ imm => bits imm.toNat 35 32 == 0
  | _ => true

/-- A matrix opcode (Table 02-6): `none` for a reserved one. -/
def matrixOp (w : Nat) : Option MatrixOp :=
  match slotOp w with
  | 0x01 => some .mma
  | 0x02 => some .mmaz
  | 0x08 => some .accst
  | 0x09 => some .accld
  | 0x0A => some .accz
  | _ => none

/-- A vector opcode (R68). -/
def vecOp (w : Nat) : Option VecOp :=
  match slotOp w with
  | 0x01 => some .vadd | 0x02 => some .vsub | 0x03 => some .vmul | 0x04 => some .vfma | 0x05 => some .vfms
  | 0x06 => some .vdiv | 0x07 => some .vsqrt | 0x08 => some .vrsqrt | 0x09 => some .vrcp | 0x0A => some .vmin
  | 0x0B => some .vmax | 0x0C => some .vabs | 0x0D => some .vneg
  | 0x20 => some .vexp | 0x21 => some .vexp2 | 0x22 => some .vlog | 0x23 => some .vlog2 | 0x24 => some .vsin
  | 0x25 => some .vcos | 0x26 => some .vtanh | 0x27 => some .vsigm | 0x28 => some .verf | 0x29 => some .vgelu
  | 0x40 => some .viadd | 0x41 => some .visub | 0x42 => some .vimul | 0x43 => some .vand | 0x44 => some .vor
  | 0x45 => some .vxor | 0x46 => some .vshl | 0x47 => some .vshr | 0x48 => some .vsar | 0x49 => some .vimax
  | 0x50 => some .vcmp | 0x51 => some .vsel | 0x52 => some .vclass | 0x53 => some .vcvt
  | 0x58 => some .vrsum | 0x59 => some .vrmax | 0x5A => some .vrmin | 0x5B => some .vramax | 0x5C => some .vrsumx
  | 0x5D => some .vscan
  | 0x60 => some .vperm | 0x61 => some .vbcast | 0x62 => some .vtrans | 0x63 => some .vshuf
  | 0x68 => some .vamax32 | 0x69 => some .vscale32 | 0x6A => some .vquant
  | 0x70 => some .vld | 0x71 => some .vst | 0x72 => some .vlds | 0x73 => some .vsts
  | _ => none

/-- A move opcode (Table 02-8). -/
def moveOp (w : Nat) : Option MoveOp :=
  match slotOp w with
  | 0x01 => some .mcpy | 0x02 => some .mgath | 0x03 => some .mtrn
  | 0x10 => some .mcsr | 0x11 => some .mcsw
  | 0x20 => some .mprd | 0x21 => some .mpwr | 0x22 => some .mpamo
  | 0x30 => some .mstrm
  | _ => none

/-! ### Tile descriptors (R74, R75) -/

/-- The element formats of Table 02-12. -/
inductive Fmt where
  | fp32 | bf16 | fp16 | e4m3 | e5m2 | e2m3 | e3m2 | e2m1 | int8 | int4 | int32 | wx128
deriving DecidableEq, Repr

/-- A format code (Table 02-12): `none` for a reserved one. -/
def Fmt.ofCode : Nat → Option Fmt
  | 0x0 => some .fp32 | 0x1 => some .bf16 | 0x2 => some .fp16 | 0x3 => some .e4m3 | 0x4 => some .e5m2
  | 0x5 => some .e2m3 | 0x6 => some .e3m2 | 0x7 => some .e2m1 | 0x8 => some .int8 | 0x9 => some .int4
  | 0xA => some .int32 | 0xB => some .wx128
  | _ => none

/-- Element bits (Table 02-12). -/
def Fmt.bits : Fmt → Nat
  | .fp32 | .int32 => 32
  | .bf16 | .fp16 => 16
  | .e4m3 | .e5m2 | .int8 => 8
  | .e2m3 | .e3m2 => 6
  | .e2m1 | .int4 => 4
  | .wx128 => 128

/-- Formats that an MMA takes as input. -/
def Fmt.mmaIn : Fmt → Bool
  | .int32 | .wx128 => false
  | _ => true

/-- Formats that ACCST writes. -/
def Fmt.accOut : Fmt → Bool
  | .e2m3 | .e3m2 | .e2m1 | .int4 => false
  | _ => true

/-- Formats that may be block-scaled. -/
def Fmt.scalable : Fmt → Bool
  | .e4m3 | .e5m2 | .e2m3 | .e3m2 | .e2m1 => true
  | _ => false

/-- A tile descriptor's fields (Table 02-11). -/
structure Desc where
  base : Nat
  rows : Nat
  cols : Nat
  fmt : Nat
  rstride : Nat
  scaleBase : Nat
  isScaled : Bool
  layout : Nat
  wexp : Int
  mode : Nat
  rnd : Nat
  tensor : Nat
  orgRow : Nat
  orgCol : Nat
deriving DecidableEq, Repr

/-- The fields of a descriptor's 32 bytes. -/
def Desc.of (d : Word256) : Desc :=
  let v := d.toNat
  let w (i : Nat) : Nat := (v / 2 ^ (64 * i)) % 2 ^ 64
  { base := bits (w 0) 22 0, rows := bits (w 0) 39 24, cols := bits (w 0) 55 40, fmt := bits (w 0) 59 56,
    rstride := bits (w 1) 23 0, scaleBase := bits (w 1) 46 24, isScaled := bit (w 1) 47, layout := bits (w 1) 49 48,
    wexp := toSigned 16 (bits (w 2) 15 0), mode := bits (w 2) 17 16, rnd := bits (w 2) 19 18,
    tensor := bits (w 2) 63 32, orgRow := bits (w 3) 31 0, orgCol := bits (w 3) 63 32 }

/-- The bits of a descriptor's 32 bytes that Table 02-11 does not reserve: the others are ignored when written and read as zero (R14). -/
def tdMask : Word256 :=
  BitVec.ofNat 256 ((2 ^ 23 - 1) + (2 ^ 36 - 1) * 2 ^ 24 + (2 ^ 50 - 1) * 2 ^ 64 + (2 ^ 20 - 1 + (2 ^ 32 - 1) * 2 ^ 32) * 2 ^ 128 + (2 ^ 64 - 1) * 2 ^ 192)

/-- Elements of one line of a tile (R75). -/
def Desc.lineElems (d : Desc) : Nat := if d.layout = 0 then d.cols else d.rows
/-- Lines of a tile. -/
def Desc.lines (d : Desc) : Nat := if d.layout = 0 then d.rows else d.cols
/-- Bytes of one line. -/
def Desc.lineBytes (d : Desc) (f : Fmt) : Nat := d.lineElems * f.bits / 8
/-- The last local byte address (R72). -/
def localTop : Nat := 0x5FFFFF

/-- How a descriptor is named (R75). -/
inductive DescRole where
  | a | b | c | tile
deriving DecidableEq, Repr

/-- Whether a descriptor is valid as it is named (R75); `k` is the extent along K for the scales of TDA and TDB. -/
def Desc.valid (d : Desc) (role : DescRole) : Bool :=
  match Fmt.ofCode d.fmt with
  | none => false
  | some f =>
    decide (d.layout ≤ 1) &&
    (role != .c || (decide (d.mode ≤ 1) && decide (d.rnd ≤ 1))) &&
    decide (1 ≤ d.rows ∧ d.rows ≤ 16384 ∧ 1 ≤ d.cols ∧ d.cols ≤ 16384) &&
    decide (d.base % 128 = 0 ∧ d.rstride % 32 = 0) &&
    (!(role == .a || role == .b) || decide (d.scaleBase % 32 = 0)) &&
    (decide (8 ≤ f.bits) || decide (d.lineElems % 32 = 0)) &&
    decide (d.lineBytes f ≤ d.rstride) &&
    decide (d.base + (d.lines - 1) * d.rstride + d.lineBytes f - 1 ≤ localTop) &&
    (match role with
      | .a => f.mmaIn && (!d.isScaled || (f.scalable && decide (d.scaleBase + (d.cols / 32) * d.rows - 1 ≤ localTop)))
      | .b => f.mmaIn && (!d.isScaled || (f.scalable && decide (d.scaleBase + (d.rows / 32) * d.cols - 1 ≤ localTop)))
      | .c => f.accOut && !(d.mode == 1 && f == .int32)
      | .tile => true)

/-! ### What an engine slot captures (R43) -/

/-- The matrix entry of a slot. -/
def captureMatrix (k : Core) (pc w : Nat) (op : MatrixOp) : MatrixEntry :=
  ⟨slotHdr w, pc, op, Fin.ofNat 16 (bits w 30 27), k.tdr (regAt w 45 41), k.tdr (regAt w 40 36), k.tdr (regAt w 35 31),
    k.step, BitVec.ofNat 64 w⟩

/-- The vector entry of a slot: the X registers that VA and VB would name are captured with it. -/
def captureVec (k : Core) (pc w : Nat) (op : VecOp) : VecEntry :=
  ⟨slotHdr w, pc, op, regAt w 45 41, regAt w 40 36, regAt w 35 31, regAt w 30 26, BitVec.ofNat 4 (bits w 25 22),
    BitVec.ofNat 22 (bits w 21 0), k.xr (regAt w 40 36), k.xr (regAt w 35 31), k.xr (regAt w 30 26),
    k.xr (Fin.ofNat 32 (bits w 30 26 + 1)), k.step, BitVec.ofNat 64 w⟩

/-- The move entry of a slot. -/
def captureMove (k : Core) (pc w : Nat) (op : MoveOp) : MoveEntry :=
  ⟨slotHdr w, pc, op, k.xr (regAt w 45 41), k.xr (regAt w 40 36), k.xr (regAt w 35 31), k.tdr (regAt w 30 26),
    Fin.ofNat 4 (bits w 25 24), BitVec.ofNat 8 (bits w 23 16), k.cls, BitVec.ofNat 64 w⟩

end Sys2Proof.Machine
end

