-- ==== Sys2Proof/Machine/Numeric.lean ====
section
/-! DEFINITION. Numbers: decoding elements exactly (R91 to R95), exact arithmetic on what they stand for, one rounding to a
format (R102, R103, R136), windows of exact accumulation (R116, R118) and the rounding generator (R122). -/

namespace Sys2Proof.Machine

/-! ### Values -/

/-- What an element stands for: `fin s m e` is ±m·2^e, with the sign of zero kept. -/
inductive FV where
  | nan (signalling : Bool)
  | inf (neg : Bool)
  | fin (neg : Bool) (m : Nat) (e : Int)
deriving DecidableEq, Repr

/-- The layout of a floating-point format (Table 03-1): exponent bits, mantissa bits, bias, and the largest finite value
as an integer `maxN` times two to the power of `maxQ`. -/
structure FloatFmt where
  eb : Nat
  mb : Nat
  bias : Nat
  /-- Exponent all ones stands for infinity and NaN. -/
  ieee : Bool
  maxN : Nat
  maxQ : Int
deriving DecidableEq, Repr

/-- Table 03-1; `none` for integer formats and WX128. -/
def Fmt.float : Fmt → Option FloatFmt
  | .fp32 => some ⟨8, 23, 127, true, 2 ^ 24 - 1, 104⟩
  | .bf16 => some ⟨8, 7, 127, true, 2 ^ 8 - 1, 120⟩
  | .fp16 => some ⟨5, 10, 15, true, 2 ^ 11 - 1, 5⟩
  | .e4m3 => some ⟨4, 3, 7, false, 14, 5⟩
  | .e5m2 => some ⟨5, 2, 15, true, 7, 13⟩
  | .e2m3 => some ⟨2, 3, 1, false, 15, -1⟩
  | .e3m2 => some ⟨3, 2, 3, false, 7, 2⟩
  | .e2m1 => some ⟨2, 1, 1, false, 3, 1⟩
  | _ => none

/-- An integer as a value. -/
def FV.ofInt (i : Int) : FV := .fin (decide (i < 0)) i.natAbs 0

/-- Decode an element of a floating-point format (R91). -/
def FloatFmt.decode (g : FloatFmt) (isE4m3 : Bool) (x : Nat) : FV :=
  let s := bit x (g.eb + g.mb)
  let e := (x / 2 ^ g.mb) % 2 ^ g.eb
  let m := x % 2 ^ g.mb
  if g.ieee ∧ e = 2 ^ g.eb - 1 then
    if m = 0 then .inf s else .nan (decide (m < 2 ^ (g.mb - 1)))
  else if isE4m3 ∧ e = 15 ∧ m = 7 then .nan false
  else if e = 0 then .fin s m (1 - (g.bias : Int) - g.mb)
  else .fin s (2 ^ g.mb + m) ((e : Int) - g.bias - g.mb)

/-- Decode an element exactly (R91, R92, R95); a WX128 value decodes as its integer. -/
def Fmt.decode (f : Fmt) (x : Nat) : FV :=
  match f.float with
  | some g => g.decode (f == .e4m3) (x % 2 ^ f.bits)
  | none => FV.ofInt (toSigned f.bits x)

/-- An E8M0 scale (R94): its exponent, `none` for NaN. -/
def scaleExp (v : Nat) : Option Int := if v % 256 = 255 then none else some (((v % 256 : Nat) : Int) - 127)

/-- Whether a value is a NaN. -/
def FV.isNan : FV → Bool
  | .nan _ => true
  | _ => false
/-- Whether a value is a signalling NaN. -/
def FV.isSig : FV → Bool
  | .nan b => b
  | _ => false
/-- Whether a value is a zero. -/
def FV.isZero : FV → Bool
  | .fin _ 0 _ => true
  | _ => false
/-- The sign of a value. -/
def FV.neg : FV → Bool
  | .nan _ => false
  | .inf s => s
  | .fin s _ _ => s
/-- A value with its sign changed. -/
def FV.negate : FV → FV
  | .nan b => .nan b
  | .inf s => .inf (!s)
  | .fin s m e => .fin (!s) m e
/-- The magnitude of a value. -/
def FV.abs : FV → FV
  | .nan b => .nan b
  | .inf _ => .inf false
  | .fin _ m e => .fin false m e

/-- A signed magnitude as an integer. -/
def signedNat (neg : Bool) (m : Nat) : Int := if neg then -(m : Int) else m

/-- An exact sum `i·2^e`; `negZero` is the sign of a zero sum. -/
def FV.ofSum (i : Int) (e : Int) (negZero : Bool) : FV :=
  if i = 0 then .fin negZero 0 e else .fin (decide (i < 0)) i.natAbs e

/-! ### Flags (Table 02-14) -/

/-- The flags of MFLAGS, by bit. -/
def flExSat : BitVec 7 := 0x01
def flCvtSat : BitVec 7 := 0x02
def flNanOut : BitVec 7 := 0x04
def flInfOut : BitVec 7 := 0x08
def flInvalid : BitVec 7 := 0x10
def flDivz : BitVec 7 := 0x20
def flLmCorr : BitVec 7 := 0x40

/-- A flag if a condition holds. -/
def flagIf (b : Bool) (f : BitVec 7) : BitVec 7 := if b then f else 0

/-! ### Exact arithmetic (R131) -/

/-- The integer of a value in units of `2^e0`, where no bit of it lies below. -/
def scaledInt (neg : Bool) (m : Nat) (e e0 : Int) : Int := signedNat neg (m * 2 ^ (e - e0).toNat)

/-- Exact sum, with the sign of zero of round to nearest; the flag is V_INVALID. -/
def FV.add (a b : FV) : FV × Bool :=
  match a, b with
  | .nan p, .nan q => (.nan false, p || q)
  | .nan p, _ => (.nan false, p)
  | _, .nan q => (.nan false, q)
  | .inf s, .inf t => if s = t then (.inf s, false) else (.nan false, true)
  | .inf s, _ => (.inf s, false)
  | _, .inf t => (.inf t, false)
  | .fin s m e, .fin t n f =>
    let e0 := min e f
    (FV.ofSum (scaledInt s m e e0 + scaledInt t n f e0) e0 (s && t && m == 0 && n == 0), false)

/-- Exact product. DESIGN CHOICE: of two infinities it is an infinity of the product's sign, for exact accumulation too, where Table 04-1
names no event for it (assumption 116). -/
def FV.mul (a b : FV) : FV × Bool :=
  match a, b with
  | .nan p, .nan q => (.nan false, p || q)
  | .nan p, _ => (.nan false, p)
  | _, .nan q => (.nan false, q)
  | .inf s, .inf t => (.inf (s != t), false)
  | .inf s, .fin t n _ => if n = 0 then (.nan false, true) else (.inf (s != t), false)
  | .fin s m _, .inf t => if m = 0 then (.nan false, true) else (.inf (s != t), false)
  | .fin s m e, .fin t n f => (.fin (s != t) (m * n) (e + f), false)

/-- Exact product and sum: where infinity times zero meets a quiet NaN, V_INVALID is left open by IEEE 754-2019. -/
def FV.fma (a b c : FV) : FV × Bool :=
  let p := a.mul b
  if p.1.isNan && !a.isNan && !b.isNan && c.isNan then (.nan false, c.isSig || Config.fmaNanInvalid)
  else
    let r := p.1.add c
    (r.1, p.2 || r.2)

/-- A quotient of magnitudes to 80 significant bits, the last of them sticky. -/
def divMag (m n : Nat) : Nat × Int :=
  let k := 80 + bitLen n
  let q := m * 2 ^ k / n
  (2 * q + (if m * 2 ^ k % n = 0 then 0 else 1), -(k : Int) - 1)

/-- Quotient, exact up to a sticky bit; flags V_INVALID and V_DIVZ. -/
def FV.div (a b : FV) : FV × BitVec 7 :=
  match a, b with
  | .nan p, .nan q => (.nan false, flagIf (p || q) flInvalid)
  | .nan p, _ => (.nan false, flagIf p flInvalid)
  | _, .nan q => (.nan false, flagIf q flInvalid)
  | .inf _, .inf _ => (.nan false, flInvalid)
  | .inf s, .fin t _ _ => (.inf (s != t), 0)
  | .fin s _ _, .inf t => (.fin (s != t) 0 0, 0)
  | .fin s m e, .fin t n f =>
    if n = 0 then (if m = 0 then (.nan false, flInvalid) else (.inf (s != t), flDivz))
    else
      let r := divMag m n
      (.fin (s != t) r.1 (r.2 + e - f), 0)

/-- The integer square root of `n`, from bit `k` of the root down. -/
def isqrtFrom (n : Nat) : Nat → Nat → Nat
  | 0, r => if (r + 1) * (r + 1) ≤ n then r + 1 else r
  | k + 1, r => isqrtFrom n k (if (r + 2 ^ (k + 1)) * (r + 2 ^ (k + 1)) ≤ n then r + 2 ^ (k + 1) else r)

/-- The integer square root. -/
def isqrt (n : Nat) : Nat := isqrtFrom n (bitLen n / 2 + 1) 0

/-- The square root of `m·2^e`, exact up to a sticky bit. -/
def sqrtMag (m : Nat) (e : Int) : Nat × Int :=
  let odd := e % 2 = 1
  let m1 := if odd then 2 * m else m
  let e1 := if odd then e - 1 else e
  let v := m1 * 2 ^ 160
  let r := isqrt v
  (2 * r + (if r * r = v then 0 else 1), e1 / 2 - 80 - 1)

/-! ### One rounding (R102, R136) -/

/-- How a magnitude is rounded; `stochastic u` takes the 16 random bits of the element. -/
inductive Rnd where
  | nearest
  | stochastic (u : Nat)
  | truncate
deriving DecidableEq, Repr

/-- Round `m·2^e` to a whole number of units `2^q`. -/
def roundAt (r : Rnd) (q : Int) (m : Nat) (e : Int) : Nat :=
  if q ≤ e then m * 2 ^ (e - q).toNat
  else
    let sh := (q - e).toNat
    let n := m / 2 ^ sh
    let rem := m % 2 ^ sh
    match r with
    | .truncate => n
    | .nearest =>
      if 2 ^ sh < 2 * rem ∨ (2 * rem = 2 ^ sh ∧ n % 2 = 1) then n + 1 else n
    | .stochastic u => if 2 ^ 16 ≤ rem * 2 ^ 16 / 2 ^ sh + u then n + 1 else n

/-- The unit that `m·2^e` is rounded to in a format: the exponent of its least-significant bit. -/
def FloatFmt.unitOf (g : FloatFmt) (m : Nat) (e : Int) : Int :=
  max ((bitLen m : Int) - 1 + e) (1 - (g.bias : Int)) - g.mb

/-- Whether `n` units `2^q` lie above the largest finite value. -/
def FloatFmt.over (g : FloatFmt) (n : Nat) (q : Int) : Bool :=
  decide (n ≠ 0) && (decide (g.maxQ < q) || (decide (q = g.maxQ) && decide (g.maxN < n)))

/-- The bits of `n` units `2^q`, which lie within the format. -/
def FloatFmt.encode (g : FloatFmt) (s : Bool) (n : Nat) (q : Int) : Nat :=
  let n1 := if 2 ^ (g.mb + 1) ≤ n then n / 2 else n
  let q1 := if 2 ^ (g.mb + 1) ≤ n then q + 1 else q
  let mag :=
    if n1 < 2 ^ g.mb then n1
    else (q1 + g.mb + g.bias).toNat * 2 ^ g.mb + (n1 - 2 ^ g.mb)
  b2n s * 2 ^ (g.eb + g.mb) + mag

/-- The largest finite value of a format, with a sign. -/
def FloatFmt.largest (g : FloatFmt) (s : Bool) : Nat := g.encode s g.maxN g.maxQ

/-- The infinity of a format that has one. -/
def FloatFmt.infinity (g : FloatFmt) (s : Bool) : Nat :=
  b2n s * 2 ^ (g.eb + g.mb) + (2 ^ g.eb - 1) * 2 ^ g.mb

/-- The canonical NaN (Table 03-3). -/
def Fmt.nan : Fmt → Nat
  | .fp32 => 0x7FC00000
  | .bf16 => 0x7FC0
  | .fp16 => 0x7E00
  | .e5m2 => 0x7E
  | .e4m3 => 0x7F
  | _ => 0

/-- Convert a value to a format by one rounding (Tables 03-3 and 05-4): the bits, and the flags raised. `sat` is SAT of
VCVT. -/
def Fmt.convert (f : Fmt) (r : Rnd) (sat : Bool) (v : FV) : Nat × BitVec 7 :=
  match f.float with
  | some g =>
    let clampAll := !g.ieee
    match v with
    | .nan _ => if f == .e4m3 || g.ieee then (f.nan, flNanOut) else (0, flInvalid)
    | .inf s =>
      if clampAll || sat then (g.largest s, flCvtSat) else (g.infinity s, flInfOut)
    | .fin s m e =>
      if m = 0 then (g.encode s 0 0, 0)
      else
        let q := g.unitOf m e
        let n := roundAt r q m e
        if g.over n q then
          if clampAll || sat then (g.largest s, flCvtSat) else (g.infinity s, flInfOut)
        else (g.encode s n q, 0)
  | none =>
    let w := f.bits
    let hi : Int := 2 ^ (w - 1) - 1
    let lo : Int := -(2 ^ (w - 1) : Int)
    match v with
    | .nan _ => (0, flInvalid)
    | .inf s => (ofSigned w (if s then lo else hi), flCvtSat)
    | .fin s m e =>
      let i := signedNat s (roundAt r 0 m e)
      if hi < i then (ofSigned w hi, flCvtSat)
      else if i < lo then (ofSigned w lo, flCvtSat)
      else (ofSigned w i, 0)

/-- Round a value to FP32 and decode it again: what an FP32 node holds (R141). -/
def FV.toFp32 (v : FV) : FV := Fmt.fp32.decode (Fmt.fp32.convert .nearest false v).1

/-! ### Comparison -/

/-- Whether `a < b`, for values that are not NaN; zeros are equal. -/
def FV.lt (a b : FV) : Bool :=
  match a, b with
  | .inf true, .inf true => false
  | .inf true, _ => true
  | _, .inf true => false
  | .inf false, _ => false
  | _, .inf false => true
  | .fin s m e, .fin t n f =>
    let e0 := min e f
    decide (scaledInt s m e e0 < scaledInt t n f e0)
  | _, _ => false

/-- Whether `a = b`, for values that are not NaN; zeros are equal. -/
def FV.eq (a b : FV) : Bool := !a.isNan && !b.isNan && !a.lt b && !b.lt a

/-- IEEE 754-2019 minimum or maximum (`mx`), or minimumNumber and maximumNumber (`num`): −0 is below +0. -/
def FV.minmax (mx num : Bool) (a b : FV) : FV × Bool :=
  let sig := a.isSig || b.isSig
  if a.isNan && b.isNan then (.nan false, sig)
  else if a.isNan then (if num then b else .nan false, sig)
  else if b.isNan then (if num then a else .nan false, sig)
  else
    let aFirst := a.lt b || (a.eq b && a.neg && !b.neg)
    (if aFirst != mx then a else b, false)

/-! ### Exact accumulation (R113 to R119) -/

/-- The entry of a finite value in a window, and whether it clamps (R116). -/
def windowEntry (wexp : Int) (s : Bool) (m : Nat) (e : Int) : Int × Bool :=
  let n := roundAt .truncate wexp m e
  if 2 ^ 120 ≤ n then (signedNat s (2 ^ 120 - 1), true) else (signedNat s n, false)

/-- An integer modulo 2^128, in two's complement (R115). -/
def wxWrap (i : Int) : Int := toSigned 128 (ofSigned 128 i)

/-- Whether an exact sum lies outside the window's integers. -/
def wxOut (i : Int) : Bool := decide (i < -(2 ^ 127 : Int) ∨ (2 ^ 127 : Int) - 1 < i)

/-- The special states of an exact element (R118). -/
def spNone : Nat := 0
def spPinf : Nat := 1
def spNinf : Nat := 2
def spNan : Nat := 3

/-- Table 04-1: the event is itself named by a state, NONE for a finite product. -/
def spNext (sp ev : Nat) : Nat :=
  if ev = spNone then sp
  else if sp = spNone then ev
  else if sp = ev then sp
  else spNan

/-- What a value does to the special state. -/
def FV.event : FV → Nat
  | .nan _ => spNan
  | .inf s => if s then spNinf else spPinf
  | .fin _ _ _ => spNone

/-- The bits stored for an element whose special state is not NONE (Table 04-3). -/
def wxSpecial : Nat := 2 ^ 127

/-! ### The rounding generator (R122) -/

/-- One round. -/
def genRound (k0 k1 : Word32) (r : Nat) (st : Word32 × Word32 × Word32 × Word32) : Word32 × Word32 × Word32 × Word32 :=
  let (a, b, c, d) := st
  let kr := (if r % 2 = 0 then k0 else k1) + BitVec.ofNat 32 ((r + 1) * 0x9E3779B9)
  let a := a + b + kr
  let d := (d ^^^ a).rotateLeft 16
  let c := c + d
  let b := (b ^^^ c).rotateLeft 12
  (a, b, c, d)

/-- The 64-bit output of the rounding generator. -/
def roundingBits (seed : Word64) (tensor : Word32) (index : Word64) (step : Word32) : Word64 :=
  let k0 : Word32 := seed.truncate 32
  let k1 : Word32 := (seed >>> 32).truncate 32
  let a : Word32 := index.truncate 32
  let b : Word32 := (index >>> 32).truncate 32
  let go := genRound k0 k1
  let (a, b, c, d) := go 5 (go 4 (go 3 (go 2 (go 1 (go 0 (a, b, step, tensor))))))
  ((b ^^^ d).zeroExtend 64 <<< 32) ||| (a ^^^ c).zeroExtend 64

/-- The 16 random bits of an element (R123). -/
def randomBits (seed : Word64) (tensor : Word32) (index : Word64) (step : Word32) : Nat :=
  (roundingBits seed tensor index step).toNat % 2 ^ 16

end Sys2Proof.Machine
end

