-- ==== Sys2Proof/Machine/Control.lean ====
section
/-! DEFINITION. The control slot: what the control unit of a core does with each instruction (R41, R44 to R47, R56 to
R64), the answers that unblock it, stopping and resuming it (R82, R83). -/

namespace Sys2Proof.Machine

/-! ### Local memory (R72, R377) -/

/-- Whether a poison-marked granule lies under `n` bytes at `a` (R377). -/
def Core.poisoned (k : Core) (a n : Nat) : Bool :=
  decide (0 < n) && k.poison.any fun g => decide (a / 128 ≤ g ∧ g ≤ (a + n - 1) / 128)

/-- Words of a list that lie under `n` bytes at `a`. -/
def wordsIn (ws : List Nat) (a n : Nat) : List Nat :=
  if n = 0 then [] else ws.filter fun w => decide (a / 8 ≤ w ∧ w ≤ (a + n - 1) / 8)

/-- Whether a read of `n` bytes at `a` meets a double-bit error (R72). -/
def Core.lmDouble (k : Core) (a n : Nat) : Bool := !(wordsIn k.lmBad2 a n).isEmpty

/-- A read of `n` bytes at `a` has corrected the single-bit errors under it and counted them (R72). -/
def Core.lmCorrect (k : Core) (a n : Nat) : Core :=
  let bad := wordsIn k.lmBad1 a n
  { k with lmCorr := min (k.lmCorr + bad.length) (2 ^ 32 - 1), lmBad1 := k.lmBad1.filter fun w => !bad.contains w }

/-- Whether a read of `n` bytes at `a` corrects an error. -/
def Core.lmSingle (k : Core) (a n : Nat) : Bool := !(wordsIn k.lmBad1 a n).isEmpty

/-- MFLAGS with one bit set. -/
def Core.flag (k : Core) (i : Nat) : Core := { k with mflags := k.mflags ||| BitVec.ofNat 7 (2 ^ i) }

/-- Local memory has been written at `n` bytes from `a`: errors there are gone, and granules written lose their mark. -/
def Core.lmWritten (k : Core) (a n : Nat) : Core :=
  if n = 0 then k
  else
    let clear (g : Nat) : Bool := decide (a / 128 ≤ g ∧ g ≤ (a + n - 1) / 128)
    let inW (w : Nat) : Bool := decide (a / 8 ≤ w ∧ w ≤ (a + n - 1) / 8)
    let left := k.poison.filter fun g => !clear g
    { k with
      poison := left,
      poisonList := k.poisonList.filter fun e => left.contains (e.2 / 128) || left.contains ((e.2 + 63) / 128),
      lmBad1 := k.lmBad1.filter fun w => !inW w,
      lmBad2 := k.lmBad2.filter fun w => !inW w }

/-- The granules under `n` bytes at `a`. -/
def granulesIn (a n : Nat) : List Nat := if n = 0 then [] else rangeFrom (a / 128) ((a + n - 1) / 128 + 1 - a / 128)

/-- Whether granule `g` lies under one of a list of ranges. -/
def underRanges (rs : List (Nat × Nat)) (g : Nat) : Bool := rs.any fun r => (granulesIn r.1 r.2).contains g

/-- A matrix instruction that executes meets a write of another issuer to local memory, which held `lm` before it (R109). -/
def MatrixRun.meets (r : MatrixRun) (lm : Mem) (a : Nat) (bs : List Byte) : MatrixRun :=
  let gs := granulesIn a bs.length
  { r with
    torn := r.torn ++ (gs.filter (underRanges r.reads)).map fun g => (g, Mem.readBytes lm (128 * g) 128)
    raced := r.raced ++ gs.filter (underRanges r.writes)
    late := if r.writes.isEmpty then [] else Mem.writeBytes r.late a bs }

/-- Write bytes to local memory. -/
def Core.lmWrite (k : Core) (a : Nat) (bs : List Byte) : Core :=
  ({ k with lm := Mem.writeBytes k.lm a bs, mrun := k.mrun.map fun (r : MatrixRun) => r.meets k.lm a bs }).lmWritten a bs.length

/-- The bytes that an issuer other than the matrix unit reads: in a granule that an executing ACCST writes, a free value says whether its
output is there yet (R109). -/
def Core.peek (k : Core) (a n : Nat) : List Byte :=
  let bs := Mem.readBytes k.lm a n
  match k.mrun.find? fun r => !r.writes.isEmpty with
  | none => bs
  | some r => bs.zipIdx.map fun b =>
    let at_ := a + b.2
    if underRanges r.writes (at_ / 128) && Config.tornWrite r.ix (at_ / 128) then Mem.read r.late at_ else b.1

/-! ### The program counter, loops and the return stack (R45, R47, R58) -/

/-- Where issue goes after bundle `pc`: only the innermost loop is tested, and an outer one once that has ended. -/
def passLoops (pc : Nat) : List LoopEntry → Nat × List LoopEntry
  | [] => (pc + 1, [])
  | l :: r =>
    if l.target = pc then
      if 1 < l.remaining then (l.first, { l with remaining := l.remaining - 1 } :: r) else passLoops pc r
    else (pc + 1, l :: r)

/-- Issue passes bundle `pc` (LOOP_END_TEST, R58). -/
def Core.pass (k : Core) (pc : Nat) : Core :=
  let r := passLoops pc k.loops
  { k with pc := r.1, loops := r.2 }

/-- Whether bundle `pc` lies in a loop's body. -/
def LoopEntry.has (l : LoopEntry) (pc : Nat) : Bool := decide (l.first ≤ pc ∧ pc ≤ l.target)

/-- A transfer to `t`: it ends the loops out of whose body it leads, so a loop in whose body the transfer does not stand goes on (R58); `none`
where `t` is beyond the code (R47). -/
def Core.transfer (k : Core) (t : Nat) : Option Core :=
  if t < k.codeLen then
    some { k with pc := t, loops := k.loops.filter fun l => l.has t || !l.has k.pc }
  else none

/-! ### Arithmetic on the X registers (R41, R56) -/

/-- The signed high 64 bits of a product. -/
def mulHigh (a b : Word64) : Word64 := BitVec.ofInt 64 ((a.toInt * b.toInt) / (2 ^ 64 : Int))
/-- Signed minimum. -/
def minSigned (a b : Word64) : Word64 := if b.toInt < a.toInt then b else a
/-- Signed maximum. -/
def maxSigned (a b : Word64) : Word64 := if a.toInt < b.toInt then b else a
/-- A truth value as a register. -/
def boolWord (b : Bool) : Word64 := if b then 1 else 0
/-- A form I immediate, sign-extended. -/
def immWord (imm : BitVec 36) : Word64 := imm.signExtend 64
/-- LDHI (Table 02-4). -/
def loadHigh (a : Word64) (imm : BitVec 36) : Word64 := (a <<< 32) ||| (imm.truncate 32).zeroExtend 64

/-- What a register instruction writes and where: `none` for every other instruction. -/
def CtlOp.result (k : Core) : CtlOp → Option (Fin 32 × Word64)
  | .add xd xa xb => some (xd, k.xr xa + k.xr xb)
  | .sub xd xa xb => some (xd, k.xr xa - k.xr xb)
  | .and xd xa xb => some (xd, k.xr xa &&& k.xr xb)
  | .or xd xa xb => some (xd, k.xr xa ||| k.xr xb)
  | .xor xd xa xb => some (xd, k.xr xa ^^^ k.xr xb)
  | .shl xd xa xb => some (xd, k.xr xa <<< ((k.xr xb).toNat % 64))
  | .shr xd xa xb => some (xd, k.xr xa >>> ((k.xr xb).toNat % 64))
  | .sar xd xa xb => some (xd, (k.xr xa).sshiftRight ((k.xr xb).toNat % 64))
  | .mul xd xa xb => some (xd, k.xr xa * k.xr xb)
  | .mulh xd xa xb => some (xd, mulHigh (k.xr xa) (k.xr xb))
  | .min xd xa xb => some (xd, minSigned (k.xr xa) (k.xr xb))
  | .max xd xa xb => some (xd, maxSigned (k.xr xa) (k.xr xb))
  | .slt xd xa xb => some (xd, boolWord (decide ((k.xr xa).toInt < (k.xr xb).toInt)))
  | .sltu xd xa xb => some (xd, boolWord (decide ((k.xr xa).toNat < (k.xr xb).toNat)))
  | .addi xd xa imm => some (xd, k.xr xa + immWord imm)
  | .andi xd xa imm => some (xd, k.xr xa &&& immWord imm)
  | .ori xd xa imm => some (xd, k.xr xa ||| immWord imm)
  | .xori xd xa imm => some (xd, k.xr xa ^^^ immWord imm)
  | .shli xd xa imm => some (xd, k.xr xa <<< (imm.toNat % 64))
  | .shri xd xa imm => some (xd, k.xr xa >>> (imm.toNat % 64))
  | .ldhi xd xa imm => some (xd, loadHigh (k.xr xa) imm)
  | _ => none

/-- Whether a branch is taken (Table 02-4), with its target. -/
def CtlOp.branch (k : Core) : CtlOp → Option (Bool × Nat)
  | .j t => some (true, t.toNat)
  | .beq xa xb t => some (k.xr xa == k.xr xb, t.toNat)
  | .bne xa xb t => some (k.xr xa != k.xr xb, t.toNat)
  | .blt xa xb t => some (decide ((k.xr xa).toInt < (k.xr xb).toInt), t.toNat)
  | .bge xa xb t => some (decide ((k.xr xb).toInt ≤ (k.xr xa).toInt), t.toNat)
  | .bltu xa xb t => some (decide ((k.xr xa).toNat < (k.xr xb).toNat), t.toNat)
  | _ => none

/-! ### Core state registers (R59, R77) -/

/-- A core state register's value: `none` for a number not in Table 02-13. -/
def State.csr (s : State) (c n : Nat) : Option Word64 :=
  let k := s.core c
  if n = 0x000 then some (BitVec.ofNat 64 c)
  else if n = 0x001 then some (BitVec.ofNat 64 (k.vcore % 2 ^ 32))
  else if n = 0x002 then some (BitVec.ofNat 64 k.ctx)
  else if n = 0x003 then some (BitVec.ofNat 64 k.part)
  else if n = 0x004 then some (BitVec.ofNat 64 s.ltime)
  else if n = 0x010 then some (k.step.zeroExtend 64)
  else if n = 0x011 then some k.seed
  else if n = 0x012 then some (k.cls.zeroExtend 64)
  else if n = 0x020 then some (k.mflags.zeroExtend 64)
  else if 0x030 ≤ n ∧ n ≤ 0x03F then some (BitVec.ofNat 64 (k.token (Fin.ofNat 16 (n - 0x030))))
  else none

/-- How a write changes a register: the whole value, the bits set, the bits cleared. -/
inductive CsrHow where
  | write | set | clear
deriving DecidableEq, Repr

/-- A write to a core state register: `none` for an unknown or read-only one (R59). Every write of MFLAGS clears the
bits that XA holds (Table 02-14). -/
def Core.csrWrite (k : Core) (n : Nat) (how : CsrHow) (v : Word64) : Option Core :=
  let comb (old : Word64) : Word64 :=
    match how with
    | .write => v
    | .set => old ||| v
    | .clear => old &&& ~~~v
  if n = 0x010 then some { k with step := (comb (k.step.zeroExtend 64)).truncate 32 }
  else if n = 0x012 then some { k with cls := (comb (k.cls.zeroExtend 64)).truncate 3 }
  else if n = 0x020 then some { k with mflags := k.mflags &&& ~~~(v.truncate 7) }
  else none

/-! ### Finishing and blocking -/

/-- The instruction of bundle `pc` ends: issue passes it, and the header's token is posted. -/
def State.finishCtl (s : State) (c : Nat) (h : Hdr) (pc : Nat) (f : Core → Core) : State :=
  (s.modCore c fun k => (f k).pass pc).postHdr c h pc 0

/-- The instruction ends with a value in XD. -/
def State.finishReg (s : State) (c : Nat) (h : Hdr) (pc : Nat) (xd : Fin 32) (v : Word64) : State :=
  s.finishCtl c h pc fun k => k.setX xd v

/-- A transfer ends with its target, or is core fault IMEM_RANGE (R47). -/
def State.finishTransfer (s : State) (c : Nat) (h : Hdr) (pc t : Nat) (f : Core → Core) : State :=
  match (s.core c).transfer t with
  | none => s.fault c FaultCode.imemRange pc 0
  | some k => (s.setCore c (f k)).postHdr c h pc 0

/-- The control unit blocks on an operation (R44, R62). -/
def State.block (s : State) (c : Nat) (h : Hdr) (op : CtlOp) (deadline : Option Nat) : State :=
  s.modCore c fun k => { k with ctl := .blocked ⟨op, h, none, deadline⟩ }

/-- The timeout of form W: 0 is none. -/
def State.deadline (s : State) (imm : BitVec 31) : Option Nat :=
  if imm = 0 then none else some (s.ltime + imm.toNat)

/-- A blocked control unit goes on with `v` in XD. -/
def State.unblock (s : State) (c : Nat) (h : Hdr) (xd : Fin 32) (v : Word64) : State :=
  let pc := (s.core c).pc
  (s.modCore c fun k => { k with ctl := .running }).finishReg c h pc xd v

/-! ### Fence and barrier operations of a core -/

/-- Whether token `t` of core `c` has an arm (R64). -/
def State.isArmed (s : State) (c : Nat) (t : Fin 16) : Bool :=
  let hit (w : Waiter) : Bool :=
    match w with
    | .arm d u _ => d == c && u == t
    | _ => false
  s.waits.any (fun w => hit w.who) || s.barWaits.any fun w => hit w.who

/-- Whether any arm of core `c` stands (R54). -/
def State.anyArm (s : State) (c : Nat) : Bool :=
  let hit (w : Waiter) : Bool :=
    match w with
    | .arm d _ _ => d == c
    | _ => false
  s.waits.any (fun w => hit w.who) || s.barWaits.any fun w => hit w.who

/-- Arm a fence (R64): what follows at once. -/
def State.armFence (s : State) (c pc : Nat) (t : Fin 16) (n target : Nat) : State × List Ev :=
  match s.fenceWait n target (.ctx (s.core c).ctx) (.arm c t pc) with
  | (none, s) => (s, [])
  | (some st, s) => if st = Sync.ok then (s, [.post c t pc 0]) else (s, [.fault c FaultCode.fenceError pc 0])

/-- A wait or an arm on a barrier instance of the core's hub (R243): decided with a status, or registered. It is for the completion of phase
`at_` where one is given, and otherwise of the core's own arrival phase, or of the present one where the core has not arrived. -/
def State.barWait (s : State) (c inst : Nat) (who : Waiter) (at_ : Option Nat := none) : Option Nat × State :=
  let hub := clusterOf c
  let s := s.hubMessage hub
  let b := s.bar hub inst
  if b.conf && s.syncPermits b.owner b.keyh (.ctx (s.core c).ctx) then
    let ph := at_.getD ((Tbl.find b.corePhase (phaseKey (s.core c).ctx (s.core c).vcore)).getD b.phase)
    if ph = b.phase ∨ ph = (b.phase + 1) % 2 ^ 32 then
      (none, { s with barWaits := s.barWaits ++ [⟨hub, inst, ph, who⟩] })
    else (some Sync.ok, s)
  else (some Sync.noSuch, s.synCount hub .deny)

/-- Arm a barrier instance (R64), for the completion of phase `at_` where an arm is set again (R83). -/
def State.armBar (s : State) (c pc : Nat) (t : Fin 16) (inst : Nat) (at_ : Option Nat := none) : State × List Ev :=
  match s.barWait c inst (.arm c t pc) at_ with
  | (none, s) => (s, [])
  | (some st, s) => if st = Sync.ok then (s, [.post c t pc 0]) else (s, [.fault c FaultCode.fenceError pc 0])

/-- A message of core `c`'s hub to a fence of another module, on behalf of the core's context. -/
def State.remoteMsg (s : State) (c mod number tag value : Nat) : CtrlMsg :=
  ⟨0, false, BitVec.ofNat 16 s.fabAddr, BitVec.ofNat 16 mod, BitVec.ofNat 6 (clusterOf c), BitVec.ofNat 32 number,
    BitVec.ofNat 16 tag, BitVec.ofNat 16 (s.core c).ctx, BitVec.ofNat 64 value, 0⟩

/-- Start a remote read or wait of core `c` (R239): the hub sends READ or WAIT under a fresh tag. -/
def State.startRemote (s : State) (c mod number target : Nat) (isRead : Bool) : State :=
  let hub := clusterOf c
  let tag := (s.cluster hub).hub.nextTag
  let s := s.modHub hub fun k => { k with
    nextTag := (tag + 1) % 2 ^ 16,
    remote := k.remote ++ [⟨tag, some c, none, isRead, mod, number, target, false, false, none, s.ltime⟩] }
  s.send (.ctrl (if isRead then 0x03 else 0x04) (s.remoteMsg c mod number tag (if isRead then 0 else target)))

/-- Abandon the remote read or wait of core `c`: a wait is cancelled by WAIT_CANCEL (R239). -/
def State.cancelRemote (s : State) (c : Nat) : State :=
  let hub := clusterOf c
  match (s.cluster hub).hub.remote.find? fun r => r.core == some c with
  | none => s
  | some r =>
    let s := s.modHub hub fun k => { k with remote := k.remote.filter fun q => q.core != some c }
    if r.isRead then s else s.send (.ctrl 0x05 (s.remoteMsg c r.mod r.number r.tag 0))

/-- FWAIT, and RFWAIT of a fence of this module. -/
def State.ctlWait (s : State) (c : Nat) (h : Hdr) (op : CtlOp) (xd : Fin 32) (n target : Nat) (imm : BitVec 31) : State :=
  let pc := (s.core c).pc
  match s.fenceWait n target (.ctx (s.core c).ctx) (.core c) with
  | (some st, s) => s.finishReg c h pc xd (BitVec.ofNat 64 st)
  | (none, s) => s.block c h op (s.deadline imm)

/-! ### Loads and stores (R57, R72) -/

/-- The address of a form I access. -/
def memAddr (k : Core) (xa : Fin 32) (imm : BitVec 36) : Nat := (k.xr xa + immWord imm).toNat

/-- The fault of an access of `size` bytes at `a`, if any (R57). -/
def memFault (a size : Nat) : Option Nat :=
  if a % size ≠ 0 then some FaultCode.align
  else if localTop < a + size - 1 then some FaultCode.localRange
  else none

/-- A load of `size` bytes at `a`, given to `f`. -/
def State.ctlLoad (s : State) (c : Nat) (h : Hdr) (a size : Nat) (f : Nat → Core → Core) : State :=
  let k := s.core c
  let pc := k.pc
  match memFault a size with
  | some code => s.fault c code pc 0
  | none =>
    if k.lmDouble a size then s.fault c FaultCode.lmUncorr pc 0
    else
      let single := k.lmSingle a size
      let v := leNat (k.peek a size)
      s.finishCtl c h pc fun k =>
        let k := f v (k.lmCorrect a size)
        if single then k.flag 6 else k

/-- A store of `size` bytes of `v` at `a`. -/
def State.ctlStore (s : State) (c : Nat) (h : Hdr) (a size v : Nat) : State :=
  let pc := (s.core c).pc
  match memFault a size with
  | some code => s.fault c code pc 0
  | none => s.finishCtl c h pc fun k => k.lmWrite a (leBytes v size)

/-! ### The control slot executes -/

/-- CALL (R58): PC+1 is pushed. DESIGN CHOICE: with 16 return entries in use and a TARGET beyond the code, STACK is recorded (assumption 113). -/
def State.ctlCall (s : State) (c : Nat) (h : Hdr) (t : Nat) : State :=
  let pc := (s.core c).pc
  if 16 ≤ (s.core c).ret.length then s.fault c FaultCode.stack pc 0
  else s.finishTransfer c h pc t fun k => { k with ret := (pc + 1) :: k.ret }

/-- RET (R58): every loop entered since the matching CALL ends. -/
def State.ctlRet (s : State) (c : Nat) (h : Hdr) : State :=
  let k := s.core c
  match k.ret with
  | [] => s.fault c FaultCode.stack k.pc 0
  | t :: r =>
    if t < k.codeLen then
      (s.setCore c { k with pc := t, ret := r, loops := k.loops.filter fun l => decide (l.retDepth < k.ret.length) }).postHdr
        c h k.pc 0
    else s.fault c FaultCode.imemRange k.pc 0

/-- JR (Table 02-4). -/
def State.ctlJr (s : State) (c : Nat) (h : Hdr) (xa : Fin 32) : State :=
  let k := s.core c
  let t := (k.xr xa).toNat
  if 2 ^ 13 ≤ t then s.fault c FaultCode.imemRange k.pc 0 else s.finishTransfer c h k.pc t id

/-- LOOP (R58): with XA zero it skips to TARGET+1, as if TARGET had been passed; where that lies beyond the code it is core fault IMEM_RANGE
at the LOOP (R47). -/
def State.ctlLoop (s : State) (c : Nat) (h : Hdr) (xa : Fin 32) (t : Nat) : State :=
  let k := s.core c
  if 4 ≤ k.loops.length then s.fault c FaultCode.loopDepth k.pc 0
  else if t ≤ k.pc then s.fault c FaultCode.imemRange k.pc 0
  else
    let n := (k.xr xa).toNat
    let skip := k.pass t
    if n = 0 then
      if k.codeLen ≤ skip.pc then s.fault c FaultCode.imemRange k.pc 0 else (s.setCore c skip).postHdr c h k.pc 0
    else
      (s.setCore c { k with pc := k.pc + 1, loops := ⟨k.pc + 1, t, n, k.ret.length⟩ :: k.loops }).postHdr c h k.pc 0

/-- A core state register access (R59). -/
def State.ctlCsrw (s : State) (c : Nat) (h : Hdr) (xa : Fin 32) (imm : BitVec 36) (how : CsrHow) : State :=
  let k := s.core c
  match k.csrWrite (imm.toNat % 2 ^ 12) how (k.xr xa) with
  | none => s.fault c FaultCode.csrInvalid k.pc 0
  | some k' => s.finishCtl c h k.pc fun _ => k'

/-- RFSIG and RFADD (R62): a fence of this module is handled locally (R225). -/
def State.ctlRemote (s : State) (c : Nat) (h : Hdr) (xd xa xb : Fin 32) (add : Bool) : State :=
  let k := s.core c
  let name := (k.xr xa).toNat % 2 ^ 48
  let n := bits name 31 0
  let v := (k.xr xb).toNat
  let s :=
    if bits name 47 32 = s.fabAddr then
      let r := if add then s.fenceAdd n v (.ctx k.ctx) false else s.fenceSignal n v (.ctx k.ctx) false
      r.2.1.settle r.2.2
    else s.send (.ctrl (if add then 0x02 else 0x01) (s.remoteMsg c (bits name 47 32) n 0 v))
  s.finishReg c h k.pc xd (BitVec.ofNat 64 Sync.ok)

/-- What the control unit does with an instruction that is neither a register instruction nor a branch. -/
def State.controlOther (s : State) (c : Nat) (h : Hdr) (op : CtlOp) : State :=
  let k := s.core c
  let pc := k.pc
  match op with
  | .ld xd xa imm => s.ctlLoad c h (memAddr k xa imm) 8 fun v k => k.setX xd (BitVec.ofNat 64 v)
  | .st xd xa imm => s.ctlStore c h (memAddr k xa imm) 8 (k.xr xd).toNat
  | .tdld xd xa imm => s.ctlLoad c h (memAddr k xa imm) 32 fun v k =>
      { k with td := Tbl.set k.td xd.val (BitVec.ofNat 256 v &&& tdMask) }
  | .tdst xd xa imm => s.ctlStore c h (memAddr k xa imm) 32 (k.tdr xd).toNat
  | .call t => s.ctlCall c h t.toNat
  | .ret => s.ctlRet c h
  | .jr xa => s.ctlJr c h xa
  | .loop xa t => s.ctlLoop c h xa t.toNat
  | .halt => (s.modCore c fun k => { k with ctl := .halting }).postHdr c h pc 0
  | .csrr xd _ imm =>
    match s.csr c (imm.toNat % 2 ^ 12) with
    | none => s.fault c FaultCode.csrInvalid pc 0
    | some v => s.finishReg c h pc xd v
  | .csrw _ xa imm => s.ctlCsrw c h xa imm .write
  | .csrs _ xa imm => s.ctlCsrw c h xa imm .set
  | .csrc _ xa imm => s.ctlCsrw c h xa imm .clear
  | .alloc _ xa imm =>
    (s.modCluster (clusterOf c) fun g =>
      { g with calls := g.calls ++ [⟨Fin.ofNat 192 c, false, k.xr xa, imm⟩] }).block c h op none
  | .free _ xa _ =>
    (s.modCluster (clusterOf c) fun g =>
      { g with calls := g.calls ++ [⟨Fin.ofNat 192 c, true, k.xr xa, 0⟩] }).block c h op none
  | .fsig _ _ _ | .fadd _ _ _ | .fread _ _ _ => s.block c h op none
  | .fwait xd xa xb imm => s.ctlWait c h op xd ((k.xr xa).toNat % 2 ^ 32) (k.xr xb).toNat imm
  | .ftok xd xa xb =>
    let t : Fin 16 := Fin.ofNat 16 ((k.xr xd).toNat % 16)
    if s.isArmed c t then s.fault c FaultCode.tokenOverflow pc 0
    else
      let s := s.finishCtl c h pc id
      let r := s.armFence c pc t ((k.xr xa).toNat % 2 ^ 32) (k.xr xb).toNat
      r.1.settle r.2
  | .rfsig xd xa xb => s.ctlRemote c h xd xa xb false
  | .rfadd xd xa xb => s.ctlRemote c h xd xa xb true
  | .rfwait xd xa xb imm =>
    let name := (k.xr xa).toNat % 2 ^ 48
    if bits name 47 32 = s.fabAddr then s.ctlWait c h op xd (bits name 31 0) (k.xr xb).toNat imm
    else
      (s.startRemote c (bits name 47 32) (bits name 31 0) (k.xr xb).toNat false).block c h op (s.deadline imm)
  | .rfread _ xa _ =>
    let name := (k.xr xa).toNat % 2 ^ 48
    if bits name 47 32 = s.fabAddr then s.block c h op none
    else (s.startRemote c (bits name 47 32) (bits name 31 0) 0 true).block c h op none
  | .bara _ xa _ =>
    let r := s.barArriveCore (clusterOf c) ((k.xr xa).toNat % 2 ^ 8) c (.ctx k.ctx)
    (r.1.finishCtl c h pc id).settle r.2
  | .barw xd xa _ imm =>
    match s.barWait c ((k.xr xa).toNat % 2 ^ 8) (.core c) with
    | (some st, s) => s.finishReg c h pc xd (BitVec.ofNat 64 st)
    | (none, s) => s.block c h op (s.deadline imm)
  | .bart xd xa _ =>
    let t : Fin 16 := Fin.ofNat 16 ((k.xr xd).toNat % 16)
    if s.isArmed c t then s.fault c FaultCode.tokenOverflow pc 0
    else
      let s := s.finishCtl c h pc id
      let r := s.armBar c pc t ((k.xr xa).toNat % 2 ^ 8)
      r.1.settle r.2
  | _ => s.finishCtl c h pc id

/-- What the control unit does with an instruction whose token wait has been met. -/
def State.control (s : State) (c : Nat) (h : Hdr) (op : CtlOp) : State :=
  let k := s.core c
  let pc := k.pc
  match op.result k with
  | some (xd, v) => s.finishReg c h pc xd v
  | none =>
    match op.branch k with
    | some (b, t) => if b then s.finishTransfer c h pc t id else s.finishCtl c h pc id
    | none => s.controlOther c h op

/-- Whether the control unit is held on a poison-marked granule that the instruction would read (R377). -/
def CtlOp.onPoison (k : Core) : CtlOp → Bool
  | .ld _ xa imm => (memFault (memAddr k xa imm) 8).isNone && k.poisoned (memAddr k xa imm) 8
  | .tdld _ xa imm => (memFault (memAddr k xa imm) 32).isNone && k.poisoned (memAddr k xa imm) 32
  | _ => false

/-- A control-slot instruction issues: its core must be issuing, its token wait met, and no granule that it reads
poison-marked; otherwise nothing happens. LDHI's own reserved bits are a decoding fault, taken at once (R50, Table 02-4). -/
def State.issueControl (s : State) (c : Nat) (h : Hdr) (op : CtlOp) : State :=
  let k := s.core c
  match k.ctl with
  | .running =>
    if !op.clean then s.fault c FaultCode.reservedNonzero k.pc 0
    else if k.canWait h && !op.onPoison k then (s.modCore c fun k => k.consume h).control c h op else s
  | _ => s

/-! ### Answers (R62, R63) -/

/-- The answer of the home hub to a core blocked on a fence of this module, given as the answer reaches it. -/
def State.localAnswer (s : State) (c : Nat) (b : Blocked) : Option (Fin 32 × Word64 × State × List Ev) :=
  let k := s.core c
  let p : Principal := .ctx k.ctx
  match b.op with
  | .fsig xd xa xb =>
    let r := s.fenceSignal ((k.xr xa).toNat % 2 ^ 32) (k.xr xb).toNat p true
    some (xd, BitVec.ofNat 64 r.1, r.2.1, r.2.2)
  | .fadd xd xa xb =>
    let r := s.fenceAdd ((k.xr xa).toNat % 2 ^ 32) (k.xr xb).toNat p true
    some (xd, BitVec.ofNat 64 r.1, r.2.1, r.2.2)
  | .fread xd xa _ =>
    let r := s.fenceRead ((k.xr xa).toNat % 2 ^ 32) p
    some (xd, BitVec.ofNat 64 r.2.1, r.2.2, [])
  | .rfread xd xa _ =>
    let name := (k.xr xa).toNat % 2 ^ 48
    if bits name 47 32 = s.fabAddr then
      let r := s.fenceRead (bits name 31 0) p
      some (xd, BitVec.ofNat 64 r.2.1, r.2.2, [])
    else none
  | _ => none

/-- The register that the answer of a blocking operation is written to. -/
def CtlOp.dest : CtlOp → Fin 32
  | .fsig xd _ _ | .fadd xd _ _ | .fread xd _ _ | .rfread xd _ _ => xd
  | .fwait xd _ _ _ | .rfwait xd _ _ _ | .barw xd _ _ _ => xd
  | .alloc xd _ _ => xd
  | .free xd _ _ => xd
  | _ => 0

/-- SYNC_ANSWER: the answer to a blocking operation reaches the core. -/
def State.syncAnswer (s : State) (c : Nat) : State :=
  match (s.core c).ctl with
  | .blocked b =>
    match b.answer with
    | some v => s.unblock c b.hdr b.op.dest v
    | none =>
      match s.localAnswer c b with
      | some (xd, v, s', es) => (s'.unblock c b.hdr xd v).settle es
      | none => s
  | _ => s

/-- FENCE_WAIT_TIMEOUT (R63, R239, R243). -/
def State.waitTimeout (s : State) (c : Nat) : State :=
  match (s.core c).ctl with
  | .blocked ⟨op, h, none, some d⟩ =>
    let s := ((s.advanceTo d).dropWaits fun w => w == .core c).cancelRemote c
    s.unblock c h op.dest (BitVec.ofNat 64 Sync.timeout)
  | _ => s

/-- Whether the engines of a core take work: the control unit issues, is blocked, or waits at HALT (R44, R60, R82). -/
def Core.enginesLive (k : Core) : Bool :=
  match k.ctl with
  | .running | .blocked _ | .halting => true
  | _ => false

/-! ### Stopping and resuming (R82, R83) -/

/-- The arms of core `c` as they are saved. -/
def State.armsOf (s : State) (c : Nat) : List SavedArm :=
  (s.waits.filterMap fun w => match w.who with
    | .arm d t pc => if d = c then some ⟨t, pc, .fence w.fence w.target⟩ else none
    | _ => none) ++
  (s.barWaits.filterMap fun w => match w.who with
    | .arm d t pc => if d = c then some ⟨t, pc, .barrier w.inst w.phase⟩ else none
    | _ => none)

/-- Stop core `c` with `halting` and `redo`: its waits go, its arms are saved. -/
def State.stopAs (s : State) (c : Nat) (halting : Bool) (redo : Option (Hdr × CtlOp)) : State :=
  let arms := s.armsOf c
  ((s.dropGrants c).dropWaits (Waiter.ofCore c)).modCore c fun k => { k with ctl := .stopped halting redo, savedArms := arms }

/-- CORE_STOP (R82): a core blocked on the allocator first takes its answer. -/
def State.coreStop (s : State) (c : Nat) : State :=
  match (s.core c).ctl with
  | .running => s.stopAs c false none
  | .halting => s.stopAs c true none
  | .blocked b =>
    match b.op with
    | .alloc _ _ _ | .free _ _ _ => s
    | _ => (s.cancelRemote c).stopAs c false (some (b.hdr, b.op))
  | _ => s

/-- Arm again what a core carried while it was stopped. -/
def State.rearm (s : State) (c : Nat) : List SavedArm → State × List Ev
  | [] => (s, [])
  | a :: as =>
    let r := match a.kind with
      | .fence n t => s.armFence c a.pc a.tok n t
      | .barrier i ph => s.armBar c a.pc a.tok i (some ph)
    let t := State.rearm r.1 c as
    (t.1, r.2 ++ t.2)

/-- CORE_RESUME (R83): arms are set again, and an abandoned operation is issued again. -/
def State.coreResume (s : State) (c : Nat) : State :=
  match (s.core c).ctl with
  | .stopped halting redo =>
    let arms := (s.core c).savedArms
    let s := s.modCore c fun k => { k with ctl := if halting then .halting else .running, savedArms := [] }
    let r := s.rearm c arms
    let s := r.1.settle r.2
    match redo, (s.core c).ctl with
    | some (h, op), .running => s.control c h op
    | _, _ => s
  | _ => s

end Sys2Proof.Machine
end

