-- ==== Sys2Proof/Machine/Placement.lean ====
section
/-! DEFINITION. Where partition addresses lie (R188, R189), which table resolves a request (R255, R269), block buffers (R187),
errors counted by page, page retirement and channels fenced off (R207, R209 to R212). -/

namespace Sys2Proof.Machine

/-! ### Placement (R188, R189) -/

/-- The first address of the near segments (Table 07-3). -/
def nearBase : Nat := 0xC000000000

/-- Pages of a channel that hold data (R186). -/
def channelPages : Nat := 516096

/-- Bound channels of the near segment of cluster `c`. -/
def Layout.nearChannels (l : Layout) (c : Nat) : List Nat :=
  l.channels.filter fun k => decide (8 * c ≤ k ∧ k < 8 * c + 8)

/-- The rotation of a stripe (R189). -/
def stripeHash (s : Nat) : Nat := bits s 7 0 ^^^ bits s 15 8 ^^^ bits s 23 16 ^^^ bits s 27 24

/-- The channel and stripe of page `p` of a segment served by the channels `b`. -/
def stripePlace (b : List Nat) (p : Nat) : Nat × Nat :=
  let n := b.length
  let s := p / n
  (b.getD ((p % n + stripeHash s) % n) 0, s)

/-! ### Placing the module areas (R220, R254, R550) -/

/-- Pages of the fence store and the composition record area. -/
def modulePages : Nat := 6144

/-- The stack of a channel. -/
def stackOf (ch : Nat) : Nat := ch / 32

/-- The smallest rotation that puts every secondary on another stack. -/
def rotationOf (b : List Nat) : Option Nat :=
  let n := b.length
  (rangeFrom 1 (n - 1)).find? fun r => (List.range n).all fun k =>
    decide (stackOf (b.getD k 0) ≠ stackOf (b.getD ((k + r) % n) 0))

/-- Primary pages of a channel, at most (P). -/
def primaryPages (b : List Nat) : Nat := ceilDiv modulePages b.length

/-- Where the secondaries of pages go one by one, by channel and channel page: from the cursor, with how many of them each channel holds. `none`
where no other stack serves. -/
def placeSecondaries (b : List Nat) : Nat → Nat → Tbl Nat → List Nat → Option (List (Nat × Nat))
  | _, _, _, [] => some []
  | n, cursor, t, p :: ps =>
    let own := (stripePlace b p).1
    match (List.range n).find? fun i => decide (stackOf (b.getD ((cursor + i) % n) 0) ≠ stackOf own) with
    | some i =>
      let ch := b.getD ((cursor + i) % n) 0
      let held := Tbl.get 0 t ch
      (placeSecondaries b n ((cursor + i + 1) % n) (Tbl.set t ch (held + 1)) ps).map fun l => (ch, primaryPages b + held) :: l
    | none => none

/-- Pages at the start of every channel that the module areas take (U), if they can be placed. -/
def moduleAreaTop (b : List Nat) : Option Nat :=
  if b.isEmpty then none
  else
    match rotationOf b with
    | some _ => some (2 * primaryPages b)
    | none => (placeSecondaries b b.length 0 [] (List.range modulePages)).map fun l => (l.map fun e => e.2 + 1).foldl max (primaryPages b)

/-- The channels of the two copies of a page of the module areas, placed over the channels `b`. -/
def areaCopies (b : List Nat) (page : Nat) : Nat × Nat :=
  let own := (stripePlace b page).1
  match rotationOf b with
  | some r => (own, b.getD (((b.takeWhile fun c => c ≠ own).length + r) % b.length) 0)
  | none => (own, (((placeSecondaries b b.length 0 [] (List.range (page + 1))).bind fun l => l.getLast?).map fun e => e.1).getD own)

/-- The page of the fence store that holds the entry of fence `n`, of 16 bytes. -/
def storePage (n : Nat) : Nat := n / 256

/-- A segment of the partition address space: interleaved, or near to a cluster. -/
inductive Segment where
  | interleaved
  | near (cluster : Nat)
deriving DecidableEq, Repr

/-- Where the data of an address lie: a range of a near segment that has ceased to exist lies in the interleaved segment (R212). -/
def Layout.lies (l : Layout) (a : Nat) : Nat :=
  match l.redirect.find? fun r => decide (r.near ≤ a ∧ a < r.near + r.size) with
  | some r => a - r.near + r.inter
  | none => a

/-- The address whose data lie at an address. -/
def Layout.names (l : Layout) (a : Nat) : Nat :=
  match l.redirect.find? fun r => decide (r.inter ≤ a ∧ a < r.inter + r.size) with
  | some r => a - r.inter + r.near
  | none => a

/-- The segment that holds an address; `none` outside the partition address space. -/
def Layout.segment (l : Layout) (a : Nat) : Option Segment :=
  if a < nearBase then
    if a / 4096 < l.channels.length * l.eI then some .interleaved else none
  else
    let c := (a - nearBase) / 2 ^ 32
    let p := ((a - nearBase) % 2 ^ 32) / 4096
    if c < 48 ∧ (p < (l.nearChannels c).length * l.eN ∨ l.lies a ≠ a) then some (.near c) else none

/-- The channels that serve a segment, in rising order. -/
def Layout.segChannels (l : Layout) : Segment → List Nat
  | .interleaved => l.channels
  | .near c => l.nearChannels c

/-- The first address of a segment. -/
def segStart : Segment → Nat
  | .interleaved => 0
  | .near c => nearBase + c * 2 ^ 32

/-- Pages of a segment. -/
def Layout.segPages (l : Layout) : Segment → Nat
  | .interleaved => l.channels.length * l.eI
  | .near c => (l.nearChannels c).length * l.eN

/-- The channel and channel page of an address, before relocation (R189). -/
def Layout.place (l : Layout) (a : Nat) : Option (Nat × Nat) :=
  let a := l.lies a
  match l.segment a with
  | none => none
  | some g =>
    let r := stripePlace (l.segChannels g) ((a - segStart g) / 4096)
    let base := Tbl.get 0 l.bases r.1
    some (r.1, base + (if g = .interleaved then 0 else l.eI) + r.2)

/-- The partition address that channel page `page` of channel `ch` serves, if the layout has it. -/
def Layout.addrOf (l : Layout) (ch page : Nat) : Option Nat :=
  let base := Tbl.get 0 l.bases ch
  if !l.channels.contains ch ∨ page < base ∨ base + l.eI + l.eN ≤ page then none
  else
    let off := page - base
    let g : Segment := if off < l.eI then .interleaved else .near (ch / 8)
    let s := if off < l.eI then off else off - l.eI
    let b := l.segChannels g
    let n := b.length
    let i := (b.findIdx fun k => k == ch)
    some (l.names (segStart g + (s * n + (i + n * 256 - stripeHash s) % n) * 4096))

/-- A channel page after relocation (R210). -/
def Channel.phys (k : Channel) (page : Nat) : Nat :=
  match k.reloc.find? fun e => e.1 == page with
  | some e => e.2
  | none => page

/-- Whether a page is fresh (R194). -/
def Channel.fresh (k : Channel) (page : Nat) : Bool := !k.used.contains page

/-- A page's fresh bit set or cleared. -/
def Channel.setFresh (k : Channel) (page : Nat) (fresh : Bool) : Channel :=
  if fresh then { k with used := k.used.filter fun p => p ≠ page, blocks := k.blocks.filter fun e => decide (e.1 / 8 ≠ page) }
  else { k with used := insertSorted page k.used }

/-- A block of a channel, by channel and block number. -/
abbrev Loc := Nat × Nat

/-- The block that holds an address under a layout. -/
def State.locIn (s : State) (l : Layout) (a : Nat) : Option Loc :=
  (l.place a).map fun r => (r.1, (s.channel r.1).phys r.2 * 8 + (a / 512) % 8)

/-- A block. -/
def State.blockAt (s : State) (b : Loc) : Block := Tbl.get Block.reset (s.channel b.1).blocks b.2
/-- Change a block. -/
def State.modBlock (s : State) (b : Loc) (f : Block → Block) : State :=
  s.modChannel b.1 fun k => { k with blocks := Tbl.set k.blocks b.2 (f (Tbl.get Block.reset k.blocks b.2)) }
/-- Whether a block lies in a fresh page. -/
def State.freshAt (s : State) (b : Loc) : Bool := (s.channel b.1).fresh (b.2 / 8)

/-! ### Regions, windows and keys of an address (R198, R406) -/

/-- The region that covers an address. -/
def Partition.regionOf (p : Partition) (a : Nat) : Option Region :=
  p.regions.find? fun r => decide (r.base ≤ a ∧ a < r.base + r.length)

/-- The mirrored region whose secondary copy covers an address. -/
def Partition.secondaryOf (p : Partition) (a : Nat) : Option Region :=
  p.regions.find? fun r => r.mirror && decide (r.mbase ≤ a ∧ a < r.mbase + r.length)

/-- The key window that covers an address. -/
def Partition.windowOf (p : Partition) (a : Nat) : Option KeyWindow :=
  (p.windows.find? fun e => decide (e.2.base ≤ a ∧ a < e.2.base + e.2.length)).map fun e => e.2

/-- The regions and windows of a partition are about to change: requests that have arrived keep the old ones (R198, R407). -/
def State.keepTables (s : State) (p : Nat) : State :=
  let q := s.part p
  let keep (w : Waiting) : Waiting := if w.req.part.val = p ∧ w.tables.isNone then { w with tables := some (q.regions, q.windows) } else w
  if s.waiting.isEmpty then s else { s with waiting := s.waiting.map keep }

/-- The allocation that covers an address. -/
def Partition.allocOf (p : Partition) (a : Nat) : Option Alloc :=
  p.allocs.find? fun e => decide (e.base ≤ a ∧ a < e.base + e.size)

/-- The key that an address selects (R406): its handle, the context of a CONTEXT key, the key's identity, and whether the
window is dead (R409). -/
structure KeySel where
  handle : Nat
  kctx : Nat
  key : KeyId
  dead : Bool
deriving DecidableEq, Repr

/-- Select the key of an address of partition `p`. -/
def State.selectKey (s : State) (p a : Nat) : KeySel :=
  let q := s.part p
  match q.windowOf a with
  | some w => ⟨w.keyh, 0, (s.key w.keyh).key, !(s.key w.keyh).valid⟩
  | none =>
    let own : Option Nat := match q.allocOf a with
      | some e =>
        match e.kind with
        | .save _ | .const => some e.ctx
        | _ => none
      | none => none
    match own with
    | some n => ⟨0x03F, n, .random (s.ctx n).keySerial, false⟩
    | none => ⟨2 + p, 0, (s.key (2 + p)).key, !(s.key (2 + p)).valid⟩

/-- The tweak of a block (R404): the primary copy's address for a block of a mirrored region. -/
def State.tweakOf (s : State) (p a : Nat) : Nat :=
  let q := s.part p
  let prim := match q.secondaryOf a with
    | some r => a - r.mbase + r.base
    | none => a
  prim / 512 + (q.member % 2 ^ 16) * 2 ^ 31 + (q.forme % 2 ^ 32) * 2 ^ 47

/-- The seal that a block of an address has when it was written under the key that the address selects. -/
def State.sealFor (s : State) (p a : Nat) : Seal :=
  let k := s.selectKey p a
  ⟨k.key, k.handle, s.tweakOf p a⟩

/-! ### Charges (R325) -/

/-- Charge bytes to a partition at a channel. -/
def State.charge (s : State) (ch p bytes : Nat) : State :=
  s.modChannel ch fun k =>
    { k with regs := Tbl.mod Regulator.reset k.regs p fun r => { r with account := r.account - bytes } }

/-- A core's or stream's requests of CLASS 7 are stamped 6 and counted (R324). -/
def State.countDemote (s : State) (g : Nat) (cls : BitVec 3) : State :=
  if cls = 7 then s.modChannel (8 * g) fun k => { k with demoted := min (k.demoted + 1) (2 ^ 32 - 1) } else s

/-! ### Blocks and buffers (R187, R207) -/

/-- A line of a block as stored: what a reader without permission is given (R37). -/
def Block.stored (b : Block) (line : Nat) : BitVec 512 :=
  match b.sealedBy with
  | some k => Config.cipherLine k.key k.tweak b.wepoch.toNat line (Tbl.get 0 b.lines line)
  | none => Tbl.get 0 b.lines line

/-- A block held as stored bytes: what a write that does not verify merges into. -/
def Block.toStored (b : Block) : Block :=
  match b.sealedBy with
  | none => b
  | some k => { b with lines := (rangeFrom 0 8).map fun i => (i, b.stored i), sealedBy := none, kept := some (k, b.lines) }

/-- The metadata of a line of a block: POISON, and reserved bits that are zero (R184). -/
def Block.lmeta (b : Block) : BitVec 16 := if b.poison then 1 else 0

/-- The check field of a line as it was written: three check symbols, and LMETA above them (R184). -/
def Block.checkField (b : Block) (line : Nat) : BitVec 64 := b.lmeta ++ Config.checkSymbols (b.stored line) b.lmeta

/-- Where the tag slot of block `n` of a channel lies (R186). -/
def tagSlotAt (n : Nat) : Nat := 0x7E000000 + n * 8

/-- The tag slot of a block (Table 07-2): the tag, or for a block of a mirrored region its low 48 bits under the write epoch. A block
nothing has written has an empty one. -/
def Block.tagSlot (b : Block) (mirrored : Bool) : BitVec 64 :=
  let tag (k : Seal) (ls : Tbl (BitVec 512)) : BitVec 64 :=
    Config.blockTag k.key k.handle k.tweak (if mirrored then b.wepoch.toNat else 0) ((rangeFrom 0 8).map fun i => Tbl.get 0 ls i)
  let held : Option (Seal × Tbl (BitVec 512)) := match b.sealedBy with
    | some k => some (k, b.lines)
    | none => b.kept
  match held with
  | none => 0
  | some (k, ls) => if mirrored then b.wepoch ++ (tag k ls).truncate 48 else tag k ls

/-- A block leaves the buffer (BLOCK_WRITEBACK): a foreign block keeps its old tag slot, so that its next read fails. -/
def Block.writeBack (b : Block) : Block :=
  { b with buffered := false, filled := [], foreign := false, tagBad := b.tagBad || b.foreign }

/-- Numbers of the blocks in a channel's buffer. -/
def Channel.bufferedBlocks (k : Channel) : List Nat := (k.blocks.filter fun e => e.2.buffered).map fun e => e.1

/-- Blocks that a channel's buffer holds. -/
def bufferBlocks : Nat := 256

/-- Make room in a full buffer: which block is evicted is a free value. -/
def State.evict (s : State) (ch : Nat) : State :=
  let bs := (s.channel ch).bufferedBlocks
  if bs.length < bufferBlocks then s
  else
    let f := s.fresh
    let v := bs.getD ((Config.freeBits 64 f.1).toNat % bs.length) 0
    f.2.modBlock (ch, v) Block.writeBack

/-- Errors of a page are counted (R185, R209): `lines` are its corrected lines, of which its tag line is number 64. -/
def State.countPage (s : State) (ch page : Nat) (lines : List Nat) (uncorr : Bool) : State :=
  if lines.isEmpty && !uncorr then s
  else
    s.modChannel ch fun k =>
      let e := Tbl.get (⟨[], []⟩ : PageErr) k.pageErr page
      { k with
        corrCount := min (k.corrCount + lines.length) (2 ^ 32 - 1),
        pageErr := Tbl.set k.pageErr page
          ⟨e.corrected ++ lines.map fun l => (l, s.ltime),
           if uncorr then e.uncorrected ++ [s.ltime] else e.uncorrected⟩ }

/-- A page's counts after errors are found in a block (R185, R209). -/
def State.countErrors (s : State) (b : Loc) (corr : List Nat) (uncorr : Bool) : State :=
  s.countPage b.1 (b.2 / 8) (corr.map fun l => (b.2 % 8) * 8 + l) uncorr

/-- The tag line of a page is read and checked (R184, R208): one symbol in error is corrected and counted, and more leave the tags of
the page's eight blocks wrong (assumption 121). -/
def State.checkTags (s : State) (ch page : Nat) : State :=
  let n := symbolsBad (s.channel ch).tagErrs page
  if n = 0 then s
  else
    let s := s.modChannel ch fun k => { k with tagErrs := k.tagErrs.filter fun e => e.1 ≠ page }
    if n = 1 then s.countPage ch page [64] false
    else (rangeFrom 0 8).foldl (fun s i => s.modBlock (ch, page * 8 + i) fun b => { b with tagBad := true }) (s.countPage ch page [] true)

/-- Tag lines that a channel's tag buffer holds (R187). -/
def tagLines : Nat := 64

/-- The tag line of a page comes into the tag buffer, where the oldest makes room for it (assumption 121). -/
def State.bufferTag (s : State) (ch page : Nat) : State :=
  if (s.channel ch).tagBuf.contains page then s
  else (s.checkTags ch page).modChannel ch fun k =>
    { k with tagBuf := k.tagBuf.drop (k.tagBuf.length + 1 - tagLines) ++ [page] }

/-- A block and its tag slot are read and checked, into the buffers unless the block is buffered already (R185, R187): correctable
errors are counted and written back; an uncorrectable one is left for the reader to act on. -/
def State.load (s : State) (b : Loc) : State :=
  if (s.blockAt b).buffered then s
  else
    let s := (s.evict b.1).bufferTag b.1 (b.2 / 8)
    let k := s.blockAt b
    (s.countErrors b k.corr k.uncorr).modBlock b fun k => { k.correct with buffered := true, filled := [] }

/-- A block is poisoned (R207). -/
def State.poison (s : State) (b : Loc) : State :=
  (s.modBlock b fun k => { k with poison := true, errs := [], filled := [], told := false }).modChannel b.1 fun k =>
    { k with poisonCount := min (k.poisonCount + 1) (2 ^ 32 - 1) }

/-- Whether a buffered copy is intact under a seal: it decodes, verifies, and is neither poisoned nor foreign. -/
def Block.intact (b : Block) (k : Seal) : Bool :=
  !b.uncorr && !b.poison && !b.foreign && !b.tagBad && b.sealedBy == some k

/-! ### Losing a channel (R212) -/

/-- Whether a partition page is in a live allocation of a context that is not lost: a lost context keeps its allocations until teardown
(R316), and what is lost to make room makes room (R212). -/
def State.liveAlloc (s : State) (p a : Nat) : Bool :=
  match (s.part p).allocOf a with
  | some e => decide (e.ctx = 0) || (s.ctx e.ctx).state != .lost
  | none => false

/-- Contexts bound to the residency of a partition, and contexts that an allocation serves. -/
def State.ownersOf (s : State) (p : Nat) (e : Alloc) : List Nat :=
  match e.kind with
  | .shared => (s.ctxs.filter fun c => decide (c.2.part = p) && s.ctxBound c.1 p).map fun c => c.1
  | _ => if e.ctx = 0 then [] else [e.ctx]

/-- Whether the data of address `a` under a layout are on a channel that serves. -/
def State.servedIn (s : State) (l : Layout) (a : Nat) : Bool :=
  match s.locIn l a with
  | some b => !(s.channel b.1).fenced
  | none => false

/-- Whether the page at `a` of partition `p`, which lay under `l`, can be had from somewhere else: it is fresh, or a surviving mirror copy, a
refill source or an epoch covers it (R212, R274, R379). -/
def State.backedIn (s : State) (p : Nat) (l : Layout) (a : Nat) : Bool :=
  let q := s.part p
  let fresh := match s.locIn l a with
    | some b => s.freshAt b
    | none => true
  fresh ||
  (match q.regionOf a with
    | some r => (r.mirror && s.servedIn l (a - r.base + r.mbase)) || r.refill.isSome || r.epoch
    | none => match q.secondaryOf a with
      | some r => s.servedIn l (a - r.mbase + r.base) || r.refill.isSome || r.epoch
      | none => false)

/-- Whether the page at `a` of partition `p` can be had from somewhere else. -/
def State.backed (s : State) (p a : Nat) : Bool := s.backedIn p (s.part p).lay a

/-- The partition pages of allocation `e` that lie on channel `ch` under a layout. -/
def Layout.pagesOn (l : Layout) (ch : Nat) (e : Alloc) : List Nat :=
  (rangeFrom (e.base / 4096) (e.size / 4096)).filter fun pg =>
    match l.place (pg * 4096) with
    | some r => r.1 == ch
    | none => false

/-- Contexts whose data, on the pages that `f` takes, lay on channel `ch` alone under layout `l`. -/
def State.losersIn (s : State) (p ch : Nat) (l : Layout) (f : Nat → Bool) : List Nat :=
  distinct (((s.part p).allocs.map fun e =>
    if (l.pagesOn ch e).any (fun pg => f (pg * 4096) && !s.backedIn p l (pg * 4096)) then s.ownersOf p e else []).flatten)

/-- Contexts whose data lay on channel `ch` alone. -/
def State.losersOf (s : State) (p ch : Nat) : List Nat := s.losersIn p ch (s.part p).lay fun _ => true

/-- Bytes of HBM that a context holds in a partition. -/
def State.footprint (s : State) (p n : Nat) : Nat :=
  (s.part p).allocs.foldl (fun a e => if e.ctx = n then a + e.size else a) 0

/-- Contexts of a partition in decreasing order of footprint, the lower number first among equals. -/
def State.byFootprint (s : State) (p : Nat) : List Nat :=
  let l := (s.ctxs.filter fun c => decide (c.2.state = .live ∧ c.2.part = p)).map fun c => (s.footprint p c.1, c.1)
  (l.mergeSort fun x y => decide (y.1 < x.1 ∨ (x.1 = y.1 ∧ x.2 ≤ y.2))).map fun e => e.2

/-- Whether every range that lies in a partition stays inside a layout's address space. -/
def Layout.covers (l : Layout) (base size : Nat) : Bool :=
  size == 0 || ((l.place base).isSome && (l.place (base + size - 1)).isSome)

/-- The end of the last range that overlaps `n` bytes at `a`, if one does. -/
def clash (taken : List (Nat × Nat)) (a n : Nat) : Option Nat :=
  taken.foldl (fun b r => if r.1 < a + n ∧ a < r.1 + r.2 then some (max (b.getD 0) (r.1 + r.2)) else b) none

/-- First fit from `a` below `top` (R78): `fuel` is the number of ranges taken. -/
def firstFit (taken : List (Nat × Nat)) (align n top : Nat) : Nat → Nat → Option Nat
  | 0, a => if a + n ≤ top ∧ (clash taken a n).isNone then some a else none
  | fuel + 1, a =>
    if top < a + n then none
    else
      match clash taken a n with
      | none => some a
      | some e => firstFit taken align n top fuel (roundUp e align)

/-- Whether an allocation of partition `p` lies in a near segment that ceases to exist with its channels, or has been moved out of one. -/
def State.driven (s : State) (p : Nat) (e : Alloc) : Bool :=
  let l := (s.part p).lay
  let near := l.nearChannels ((e.base - nearBase) / 2 ^ 32)
  decide (nearBase ≤ e.base) && (l.lies e.base != e.base || (!near.isEmpty && near.all fun c => (s.channel c).fenced))

/-- Live allocations of near segments that have ceased to exist move to the interleaved segment of a layout, each to the first range that is
clear, and keep their addresses (R212); `none` where a live allocation finds no place. `lost` are contexts whose allocations need none. -/
def State.redirecting (s : State) (p : Nat) (lost : List Nat) (l : Layout) : Option Layout :=
  let live := (s.part p).allocs.filter fun e => s.liveAlloc p e.base && !lost.contains e.ctx
  let stay := (live.filter fun e => decide (e.base < nearBase)).map fun e => (e.base, e.size)
  live.foldl (fun (t : Option Layout) e =>
    match t with
    | none => none
    | some l =>
      if l.covers e.base e.size then some l
      else if !s.driven p e then none
      else
        let taken := (0, 4096) :: stay ++ l.redirect.map fun r => (r.inter, r.size)
        (firstFit taken 4096 e.size (l.segPages .interleaved * 4096) taken.length 0).map fun a =>
          { l with redirect := l.redirect ++ [⟨e.base, e.size, a⟩] }) (some { l with redirect := [] })

/-- Lose contexts in order until what is left fits. -/
def loseUntil (fits : List Nat → Bool) (lost : List Nat) : List Nat → List Nat
  | [] => lost
  | n :: r => if fits lost then lost else loseUntil fits (lost ++ [n]) r

/-- The contexts that no longer fit on the channels that a partition keeps, beside those that are `lost` already (R212). -/
def State.unfitting (s : State) (p : Nat) (lost : List Nat) : List Nat :=
  let q := s.part p
  let l := { q.lay with channels := q.lay.channels.filter fun c => !(s.channel c).fenced }
  loseUntil (fun x => (s.redirecting p x l).isSome) lost ((s.byFootprint p).filter fun n => !lost.contains n)

/-- Whether a region has a page of its primary or secondary copy on channel `ch`. -/
def Layout.regionOn (l : Layout) (r : Region) (ch : Nat) : Bool :=
  let hit (base : Nat) : Bool := (rangeFrom (base / 4096) (r.length / 4096)).any fun pg =>
    match l.place (pg * 4096) with
    | some q => q.1 == ch
    | none => false
  hit r.base || (r.mirror && hit r.mbase)

/-! ### Chunks in a change (R267, R269) -/

/-- Whether a chunk's placement differs between two layouts (R267). -/
def State.chunkMoved (s : State) (a b : Layout) (chunk : Nat) : Bool :=
  (rangeFrom 0 16).any fun i => a.place (chunk * 65536 + i * 4096) != b.place (chunk * 65536 + i * 4096) ||
    s.locIn a (chunk * 65536 + i * 4096) != s.locIn b (chunk * 65536 + i * 4096)

/-- Where chunk `chunk` of partition `p` stands in a change. -/
def Change.chunk (c : Change) (p chunk : Nat) : Option ChunkState :=
  (c.chunks.find? fun r => r.part == p && r.chunk == chunk).map fun r => r.state

/-- The change of a partition whose quoin has not come here, with its forme and member: of one that does not exist yet, the change that is
to make it. -/
def State.changeAt (s : State) (p : Nat) : Option (Nat × Change × Nat) :=
  let q := s.part p
  s.formes.findSome? fun f => f.change.bind fun c =>
    if c.quoined || c.restored then none
    else if q.inUse then (if q.forme = f.id then some (f.id, c, q.member) else none)
    else (c.own.find? fun e => e.part == p && e.fab == s.fabAddr && e.action != 2).map fun e => (f.id, c, e.member)

/-- What losing channel `ch` does to the partition whose layout serves: data that lay there alone are lost, regions with a copy there are
degraded, and the partition is recomposed unless a change that goes on takes the channel from it. -/
def State.dropServing (s : State) (p ch : Nat) (recompose : Bool) : State × List Ev :=
  let q := s.part p
  let lost := s.losersOf p ch
  let lost := if recompose then s.unfitting p lost else lost
  let mark (r : Region) : Region := if r.mirror && q.lay.regionOn r ch then { r with degraded := true } else r
  let s := s.modPart p fun q => { q with regions := q.regions.map mark }
  (if recompose then s.recomposePart p else s, (distinct lost).map .lose)

/-- What losing channel `ch` does to a RESHAPE that has been switched and not quoined (Table 09-8): `o` is the layout before it. Chunks that
are not HELD may lose their source page, and a chunk may lose its galley page; what does not move is lost as ever. -/
def State.dropReshaping (s : State) (p ch : Nat) (c : Change) (o : Layout) : State × List Ev :=
  let q := s.part p
  let moves (a : Nat) : Bool := s.chunkMoved o q.lay (a / 65536)
  let held (a : Nat) : Bool := c.chunk p (a / 65536) == some .held
  let live := q.allocs.filter fun e => s.liveAlloc p e.base
  let galley := live.any fun e => (q.lay.pagesOn ch e).any fun pg => moves (pg * 4096)
  let source := live.any fun e => (o.pagesOn ch e).any fun pg => moves (pg * 4096) && !held (pg * 4096)
  let plain := live.any fun e => (q.lay.pagesOn ch e).any fun pg => !moves (pg * 4096)
  let lost := s.losersIn p ch o (fun a => moves a && !held a) ++ s.losersIn p ch q.lay fun a => !moves a
  let s := if galley then s.changeFails q.forme 0x41 q.member else if source then s.changeFails q.forme 0x50 q.member else s
  (if plain ∨ (q.lay.channels.contains ch ∧ !galley) then s.recomposePart p else s, (distinct lost).map .lose)

/-- What losing channel `ch` does to one partition (R212, R271, R274). -/
def State.dropChannelFrom (s : State) (p ch : Nat) : State × List Ev :=
  let q := s.part p
  let serves := q.inUse && q.lay.channels.contains ch
  match s.changeAt p with
  | none => if serves then s.dropServing p ch true else (s, [])
  | some (id, c, member) =>
    if !q.inUse then
      let comes := q.layNew.any (fun l => l.channels.contains ch) && c.own.any fun e => e.member == member && e.action == 4
      (if comes then s.changeFails id 0x41 member else s, [])
    else if q.movedFrom.isSome then (if serves then s.changeFails q.forme 0x41 q.member else s, [])
    else if q.movedTo.isSome then
      -- what the target has not pulled is lost where it is missed: a pull that is not answered is a data-loss event there
      if !serves then (s, [])
      else
        let s := s.changeFails q.forme 0x50 q.member
        if q.away.isSome then (s, []) else s.dropServing p ch false
    else
      match q.layOld, q.layNew with
      | some o, _ => if serves ∨ o.channels.contains ch then s.dropReshaping p ch c o else (s, [])
      | none, some l =>
        -- admitted, not switched: the channel may be one of the target's, of the source's, or of both
        if l.channels.contains ch then
          let s := s.changeFails q.forme 0x41 q.member
          if serves then s.dropServing p ch true else (s, [])
        else if serves then (s.changeFails q.forme 0x50 q.member).dropServing p ch false
        else (s, [])
      | none, none =>
        let leaves := c.own.any fun e => e.member == q.member && (e.action == 4 || e.action == 2)
        if !serves then (s, [])
        else if leaves then (s.changeFails q.forme 0x50 q.member).dropServing p ch false
        else s.dropServing p ch true

/-- What losing channel `ch` does to several partitions. -/
def State.dropChannel (s : State) (ch : Nat) : List Nat → State × List Ev
  | [] => (s, [])
  | p :: ps =>
    let r := s.dropChannelFrom p ch
    let t := State.dropChannel r.1 ch ps
    (t.1, r.2 ++ t.2)

/-- The fences whose entries in the store have lost both copies with their channels enter ERROR (R206, R220, R550, assumption 147). -/
def State.storeGone (s : State) : List Ev :=
  if s.areaChans.isEmpty then []
  else (s.fences.filter fun e => e.2.state == .live && (let c := areaCopies s.areaChans (storePage e.1)
    (s.channel c.1).fenced && (s.channel c.2).fenced)).map fun e => .fenceErr e.1

/-- One channel is fenced off (CHANNEL_FENCED, R212): `row` is the row of Table 07-8 that applied. -/
def State.fenceOne (s : State) (ch row : Nat) : State × List Ev :=
  if (s.channel ch).fenced then (s, [])
  else
    let s := s.modChannel ch fun k => { k with
      fenced := true, held := false, copying := [], hold := [], tagBuf := [],
      blocks := k.blocks.filter fun e => !e.2.buffered }
    let s := s.record { cause := 0x14, severity := 3, island := ch / 8, cluster := some (ch / 8), channel := some ch, d5 := row }
    let es := s.storeGone
    let t := s.dropChannel ch (s.parts.map fun e => e.1)
    (t.1, es ++ t.2)

/-- Fence off channels. -/
def State.fenceMany (s : State) (row : Nat) : List Nat → State × List Ev
  | [] => (s, [])
  | c :: cs =>
    let r := s.fenceOne c row
    let t := State.fenceMany r.1 row cs
    (t.1, r.2 ++ t.2)

/-- The channels of a stack: 32 of them (R18, Table 07-1). -/
def stackChannels (ch : Nat) : List Nat := rangeFrom (ch / 32 * 32) 32

/-- A channel is fenced off, and with three or more of its stack the rest of the stack (Table 07-8, row 6). -/
def State.fenceChannel (s : State) (ch row : Nat) : State × List Ev :=
  let r := s.fenceOne ch row
  if 3 ≤ ((stackChannels ch).filter fun c => (r.1.channel c).fenced).length then
    let t := r.1.fenceMany 6 (stackChannels ch)
    (t.1, r.2 ++ t.2)
  else r

/-! ### Retiring pages (R209 to R211) -/

/-- Whether a channel page serves as data: of a share, and neither retired, the target of a relocation, nor withdrawn. -/
def Channel.usable (k : Channel) (page : Nat) : Bool :=
  !k.retired.contains page && !(k.reloc.any fun e => e.2 == page) && !(k.copying.any fun e => e.2 == page)

/-- The partition, and the partition address, that a channel page serves. -/
def State.servedBy (s : State) (ch page : Nat) : Option (Nat × Nat) :=
  let k := s.channel ch
  let home := match k.reloc.find? fun e => e.2 == page with
    | some e => e.1
    | none => page
  s.parts.findSome? fun e =>
    if e.2.inUse then (e.2.lay.addrOf ch home).map fun a => (e.1, a) else none

/-- Free pages of partition `p` on channel `ch`: usable, in its share and in no allocation (R210). -/
def State.freePagesOf (s : State) (p ch : Nat) : List Nat :=
  let q := s.part p
  let k := s.channel ch
  (rangeFrom (Tbl.get 0 q.lay.bases ch) (q.lay.eI + q.lay.eN)).filter fun pg =>
    k.usable pg && !(k.reloc.any fun e => e.1 == pg) &&
    (match q.lay.addrOf ch pg with
      | some a => ((s.part p).allocOf a).isNone && decide (a / 4096 ≠ 0)
      | none => false)

/-- Retire a page (PAGE_RETIRED, R210). One in use that cannot be relocated, for want of a free page or of an entry in the relocation list
(assumption 122), is flagged and stays in use. -/
def State.retirePage (s : State) (ch page : Nat) : State × List Ev :=
  let k := s.channel ch
  if k.fenced ∨ k.retired.contains page ∨ k.flagged.contains page then (s, [])
  else
    let note (s : State) : State :=
      s.record { cause := 0x13, severity := 0, island := ch / 8, cluster := some (ch / 8), channel := some ch,
                 addr := page * 4096, addrCh := true }
    let tooMany (s : State) : State × List Ev :=
      if 1024 < (s.channel ch).retired.length then s.fenceChannel ch 3 else (s, [])
    let retire (s : State) : State := s.modChannel ch fun k => { k with retired := insertSorted page k.retired }
    match s.servedBy ch page with
    | some (p, a) =>
      if ((s.part p).allocOf a).isSome then
        match s.freePagesOf p ch with
        | [] => (s.modChannel ch fun k => { k with flagged := insertSorted page k.flagged }, [])
        | l =>
          if 1024 ≤ k.reloc.length then (s.modChannel ch fun k => { k with flagged := insertSorted page k.flagged }, [])
          else
            let f := s.fresh
            let t := l.getD ((Config.freeBits 64 f.1).toNat % l.length) 0
            tooMany (note (retire (f.2.modChannel ch fun k => { k with copying := k.copying ++ [(page, t)] })))
      else tooMany (note (retire s))
    | none => tooMany (note (retire s))

/-- Pages of a channel with an uncorrectable error within the last hour. -/
def Channel.badPages (k : Channel) (now : Nat) : Nat :=
  (k.pageErr.filter fun e => e.2.uncorrected.any fun t => decide (now < t + 3600000000000)).length

/-- Distinct lines of a page with a corrected error within 24 hours. -/
def Channel.badLines (k : Channel) (page now : Nat) : Nat :=
  (distinct (((Tbl.get (⟨[], []⟩ : PageErr) k.pageErr page).corrected.filter fun e =>
    decide (now < e.2 + 86400000000000)).map fun e => e.1)).length

/-- Whether a page had an uncorrectable error and no block of it is poisoned any more: recovery has dealt with it (Table 07-8). -/
def Channel.healed (k : Channel) (page : Nat) : Bool :=
  !(Tbl.get (⟨[], []⟩ : PageErr) k.pageErr page).uncorrected.isEmpty &&
    !((rangeFrom (page * 8) 8).any fun i => (Tbl.get Block.reset k.blocks i).poison)

/-- The thresholds of Table 07-8 after errors have been counted in a page. -/
def State.thresholds (s : State) (ch page : Nat) : State × List Ev :=
  let k := s.channel ch
  if 4 ≤ k.badPages s.ltime ∧ !k.fenced then s.fenceChannel ch 4
  else if 2 ≤ k.badLines page s.ltime ∨ k.healed page then s.retirePage ch page
  else (s, [])

/-! ### Streams of an engine -/

/-- Change a stream of an engine wherever it stands, by its number. -/
def StreamEngine.mapSid (g : StreamEngine) (sid : Nat) (f : Stream → Stream) : StreamEngine :=
  let h (t : Stream) : Stream := if t.sid = sid then f t else t
  { g with active := g.active.map fun (p : Nat × Stream) => (p.1, h p.2), suspended := g.suspended.map h, ending := g.ending.map h }

/-- Change a stream by its engine and number. -/
def State.modStream (s : State) (e sid : Nat) (f : Stream → Stream) : State := s.modEngine e fun g => g.mapSid sid f

/-! ### Suspension (R165, R178, R180) -/

/-- Whether a stream is being suspended at tile `tile` or before it. -/
def Stream.stopsBy (t : Stream) (tile : Nat) : Bool := t.stopping && decide (t.cursor ≤ tile)

/-- The tile at which a stream is suspended for a switch, a move or a stop (R178): that issued next, or with a ring the first without credit. -/
def Stream.stopTile (t : Stream) : Nat := if bits (t.desc.getD 3 0).toNat 39 32 = 0 then t.tile else min t.tile t.credit

/-- Suspend an active stream at tile `tile` (STREAM_SUSPEND, R165): no request of that tile or a later one is issued. One that is being
suspended there or earlier keeps its cursor record. -/
def State.suspendStream (s : State) (e slot cause tile va : Nat) (write : Bool) : State :=
  match Tbl.find (s.engine e).active slot with
  | none => s
  | some t =>
    if t.stopsBy tile then s.parkStream e slot
    else
    let f := tile
    let now := s.ltime
    let s := s.modStream e t.sid fun t => { t with
      stopping := true, ready := false, lookup := none, cause := cause, write := write, va := va, cursor := f, prq := none,
      suspCount := t.suspCount + 1, suspTime := now, tile := f, line := 0,
      reqs := t.reqs.filter fun r => r.phase != .data || decide (r.tile < f),
      landed := t.landed.filter fun p => decide (p.1 < f) }
    let s := s.modEngine e fun g => { g with suspCnt := min (g.suspCnt + 1) (2 ^ 32 - 1) }
    s.parkStream e slot

end Sys2Proof.Machine
end

