-- ==== Sys2Proof/Machine/Memory.lean ====
section
/-! DEFINITION. Requests for lines of partition memory: reads, writes and memory-side operations at a channel controller (R37,
R183, R187, R194, R200 to R207, R216, R255, R269, R325, R363, R364, R378, R381, R409). -/

namespace Sys2Proof.Machine

/-! ### Memory-side operations (R200 to R202) -/

/-- A MOP byte (Table 07-6): `none` for a reserved value. -/
def mopDecode (m : Nat) : Option (MemOp × MemTy) :=
  let arith : Option MemTy := match m % 16 with
    | 0x0 => some .fp32 | 0x1 => some .bf16 | 0x2 => some .fp16 | 0x3 => some .int32 | 0x4 => some .int64
    | 0x5 => some .wx128 | _ => none
  let bitwise : Option MemTy := if m % 16 = 8 then some .b64 else none
  match m / 16 with
  | 0x1 => arith.map fun t => (.add, t)
  | 0x2 => arith.map fun t => (.min, t)
  | 0x3 => arith.map fun t => (.max, t)
  | 0x4 => bitwise.map fun t => (.and, t)
  | 0x5 => bitwise.map fun t => (.or, t)
  | 0x6 => bitwise.map fun t => (.xor, t)
  | 0x7 => bitwise.map fun t => (.cas, t)
  | _ => none

/-- Bits of an element (Table 07-7). -/
def MemTy.width : MemTy → Nat
  | .fp32 | .int32 => 32
  | .bf16 | .fp16 => 16
  | .int64 | .b64 => 64
  | .wx128 => 128

/-- The floating-point format of a type. -/
def MemTy.fmt : MemTy → Option Fmt
  | .fp32 => some .fp32
  | .bf16 => some .bf16
  | .fp16 => some .fp16
  | _ => none

/-- Whether an operation makes its command not reproducible (R204). -/
def MemOp.reordersFloats (o : MemOp) (t : MemTy) : Bool := o == .add && t.fmt.isSome

/-- One element of an operation (Table 07-7): the stored element, then the operand's. -/
def memElem (o : MemOp) (t : MemTy) (x y : Nat) : Nat :=
  let w := t.width
  match o with
  | .and => x &&& y
  | .or => x ||| y
  | .xor => x ^^^ y
  | .cas => x
  | .add =>
    match t.fmt with
    | some f => (f.convert .nearest false (FV.add (f.decode x) (f.decode y)).1).1
    | none => (x + y) % 2 ^ w
  | .min | .max =>
    let mx := o == .max
    match t.fmt with
    | some f =>
      let a := f.decode x
      let b := f.decode y
      if a.isNan || b.isNan then f.nan
      else (f.convert .nearest false (FV.minmax mx false a b).1).1
    | none =>
      let i := toSigned w x
      let j := toSigned w y
      if mx then (if i < j then y else x) else (if j < i then y else x)

/-- An operation on a line, element by element. -/
def memLine (o : MemOp) (t : MemTy) (old opd : BitVec 512) : BitVec 512 :=
  let w := t.width
  BitVec.ofNat 512 ((rangeFrom 0 (512 / w)).foldl (fun a i =>
    a + memElem o t ((old.toNat / 2 ^ (w * i)) % 2 ^ w) ((opd.toNat / 2 ^ (w * i)) % 2 ^ w) * 2 ^ (w * i)) 0)

/-- CAS on a line (R202): compare values in the low half of the operand, new values in the high half. -/
def casLine (old : BitVec 512) (opd : BitVec 1024) : BitVec 512 :=
  BitVec.ofNat 512 ((rangeFrom 0 8).foldl (fun a i =>
    let x := (old.toNat / 2 ^ (64 * i)) % 2 ^ 64
    let c := (opd.toNat / 2 ^ (64 * i)) % 2 ^ 64
    let n := (opd.toNat / 2 ^ (512 + 64 * i)) % 2 ^ 64
    a + (if x = c then n else x) * 2 ^ (64 * i)) 0)

/-- What an operation leaves in a line. -/
def applyMemOp (o : MemOp) (t : MemTy) (old : BitVec 512) (opd : BitVec 1024) : BitVec 512 :=
  if o = .cas then casLine old opd else memLine o t old (opd.truncate 512)

/-! ### What answers a request -/

/-! ### Which table resolves a request (R255, R264, R269) -/

/-- How a request is resolved. -/
inductive Resolved where
  /-- By a layout, with the layout of the source page that a write is written through to. -/
  | layout (l : Layout) (through : Option Layout)
  | wait
  | refuse
deriving DecidableEq, Repr

/-- Resolve a request by the table of the epoch it carries. A request of the newer epoch to a moved chunk is held at its new
ordering point until MOVE, and waits there for its pull (R264, R269); after an abort it is held at the source until the
epoch of the change has drained (R275). -/
def State.resolve (s : State) (p epoch a : Nat) : Resolved :=
  let q := s.part p
  if !q.inUse then .refuse
  else
    match s.forme q.forme with
    | none => .refuse
    | some f =>
      let moved := q.movedFrom.isSome || (match q.layOld with
        | some o => s.chunkMoved o q.lay (a / 65536)
        | none => false)
      if epoch = f.epoch then
        match f.change with
        | none => .layout q.lay none
        | some c =>
          if q.movedTo.isSome then .wait
          else if c.restored then
            if c.moving || !(moved || c.own.any fun e => e.member == q.member && e.action == 4) then .layout q.lay none
            else .wait
          else if c.quoined || !moved then .layout q.lay none
          else
            match c.chunk p (a / 65536) with
            | some .held | some .skipped => .layout q.lay q.layOld
            | _ => .wait
      else if f.draining = some epoch then
        let old := q.layOld.getD q.lay
        match f.change with
        | some c =>
          if c.restored && moved then
            match c.chunk p (a / 65536) with
            | some .held | some .skipped => .layout old (some q.lay)
            | _ => .wait
          else .layout old none
        | none => .layout old none
      else .refuse

/-- The copies of the block at an address: the one addressed, and the secondary of a mirrored region. A copy on a fenced
channel is not there (R206, R212). -/
def State.copies (s : State) (p : Nat) (l : Layout) (a : Nat) : List Loc :=
  let here := (s.locIn l a).toList
  let other := match (s.part p).regionOf a with
    | some r => if r.mirror then (s.locIn l (a - r.base + r.mbase)).toList else []
    | none => []
  (here ++ other).filter fun b => !(s.channel b.1).fenced

/-- Whether a controller does not serve a block now: its channel is held (R183), or its page is being copied (R210). -/
def State.busyAt (s : State) (b : Loc) : Bool :=
  let k := s.channel b.1
  k.held || k.copying.any fun e => e.1 == b.2 / 8

/-- Whether an address lies in a suspect region or its copy (R381). -/
def Partition.suspectAt (q : Partition) (a : Nat) : Bool :=
  (match q.regionOf a with
    | some r => r.suspect
    | none => false) ||
  (match q.secondaryOf a with
    | some r => r.suspect
    | none => false)

/-! ### Refusals -/

/-- The context of a principal. -/
def ctxOf : Principal → Option Nat
  | .ctx n => some n
  | _ => none

/-- A case of Table 13-10 other than the permitted one (R409): it is counted at the memory side and recorded, and with
`lose` an issuer with a context is lost. -/
def State.denyKey (s : State) (b : Loc) (r : MemReq) (sel : KeySel) (lose : Bool) : State × List Ev :=
  let n := (ctxOf r.who).getD 0
  let lost := lose && n != 0
  let s := s.modCluster (b.1 / 8) fun k => { k with keyDeny := min (k.keyDeny + 1) (2 ^ 32 - 1) }
  let base : Rec := { cause := 0x42, severity := if lost then 2 else 0, island := b.1 / 8, cluster := some (b.1 / 8),
                      part := some r.part.val, addr := r.addr.toNat / 64 * 64,
                      channel := some b.1, d5 := (if sel.dead then 2 else 1) + sel.handle * 2 ^ 8 }
  (s.record (if n = 0 then base else s.recOfCtx n base), if lost then [.lose n] else [])

/-- A region test has failed (MEM_REFUSED, R204). -/
def State.denyRegion (s : State) (r : MemReq) (mop : Nat) : State × List Ev :=
  match ctxOf r.who with
  | none => (s, [])
  | some n =>
    if (s.ctx n).refused ∨ n = 0 then (s, [])
    else
      let s := s.modCtx n fun c => { c with refused := true }
      (s.record (s.recOfCtx n { cause := 0x03, severity := 2, addr := r.addr.toNat / 64 * 64, d5 := mop }), [.lose n])

/-- A request of an epoch that is not live (MAP_EPOCH, R255). -/
def State.denyEpoch (s : State) (r : MemReq) : State :=
  let q := s.part r.part
  s.record { cause := 0x04, severity := 0, part := some r.part.val, member := if q.inUse then some q.member else none,
             ctx := (ctxOf r.who).getD 0, addr := r.addr.toNat / 64 * 64, d5 := r.epoch.toNat }

/-! ### Mirrors (R205, R206, R381) -/

/-- The die of a channel (R22). -/
def dieOfChannel (ch : Nat) : Nat := ch / 96

/-- Bridge hops between two dies (R20): the bridges join D0–D1, D1–D3, D3–D2 and D2–D0. -/
def dieHops (a b : Nat) : Nat := if a = b then 0 else if a + b = 3 then 2 else 1

/-- The die that diagonal traffic from `a` to `b` passes through (R20): by bit 12 of the destination's physical byte address, the
lower-numbered of the two where it is 0, or the one in service where the other has been fenced off. -/
def State.viaDie (s : State) (a b addr : Nat) : Option Nat :=
  if a + b ≠ 3 then none
  else
    match ([0, 1, 2, 3].filter fun d => d ≠ a ∧ d ≠ b).filter fun d => !s.dieFenced.contains d with
    | [x, y] => some (if bit addr 12 then y else x)
    | l => l.head?

/-- Of two write epochs, whether `a` is the higher (R205). -/
def higherEpoch (a b : BitVec 16) : Bool :=
  let d := (a - b).toNat
  decide (1 ≤ d ∧ d ≤ 32767)

/-- Rewrite one copy from another. -/
def State.rewrite (s : State) (src dst : Loc) : State :=
  let k := s.blockAt src
  let s := s.modBlock dst fun d => { k with buffered := d.buffered, errs := [] }
  if s.freshAt dst && !s.freshAt src then s.modChannel dst.1 fun c => c.setFresh (dst.2 / 8) false else s

/-- A bad copy is rewritten from the intact one (MIRROR_REPAIR, R206). -/
def State.repair (s : State) (p : Nat) (a : Nat) (good bad : Loc) : State :=
  (s.rewrite good bad).record { cause := 0x11, severity := 0, island := bad.1 / 8, cluster := some (bad.1 / 8),
                                part := some p, member := some (s.part p).member, addr := a / 512 * 512,
                                channel := some bad.1 }

/-- Contexts of partition `p` that have a key window over region `r`. -/
def State.windowOwners (s : State) (p : Nat) (r : Region) : List Nat :=
  distinct (((s.part p).windows.filter fun e =>
    decide (e.2.base < r.base + r.length ∧ r.base < e.2.base + e.2.length)).map fun e => e.2.owner)

/-- Whether a context is stopped for a suspect region that a key window of it selects, and is not scheduled (R381). -/
def State.suspectCtx (s : State) (n : Nat) : Bool :=
  decide (n ≠ 0) && (s.part (s.ctx n).part).regions.any fun r => r.suspect && (s.windowOwners (s.ctx n).part r).contains n

/-- Stop a context as for a context switch (R82, R178): its running cores stop, and its active streams are suspended with cause SWITCH. -/
def State.stopCtx (s : State) (n : Nat) : State :=
  let s := ((s.cores.filter fun e => e.2.ctx == n).map fun e => e.1).foldl (fun s c => s.coreStop c) s
  (s.engines.map fun e => e.1).foldl (fun s e =>
    ((s.engine e).active.filter fun p => p.2.ctx == n).foldl (fun s p => s.suspendStream e p.1 3 p.2.stopTile 0 false) s) s

/-- Resume a core whose context may be scheduled (R83, R381). -/
def State.resumeCore (s : State) (c : Nat) : State :=
  if s.suspectCtx (s.core c).ctx || (s.ctx (s.core c).ctx).state == .tearing then s else s.coreResume c

/-- Two intact copies differ (MIRROR_DIVERGENT, R381): the higher write epoch wins; where neither is higher, the region is
suspect. The flag says whether the block may be served. -/
def State.diverge (s : State) (p a : Nat) (prim sec : Loc) : Bool × State :=
  let k1 := s.blockAt prim
  let k2 := s.blockAt sec
  let note (sev : Nat) (s : State) : State :=
    s.record { cause := 0x12, severity := sev, part := some p, member := some (s.part p).member, addr := a / 512 * 512,
               channel := some prim.1, d5 := k1.wepoch.toNat + k2.wepoch.toNat * 2 ^ 16 }
  if higherEpoch k1.wepoch k2.wepoch then (true, note 1 (s.rewrite prim sec))
  else if higherEpoch k2.wepoch k1.wepoch then (true, note 1 (s.rewrite sec prim))
  else
    match (s.part p).regionOf a with
    | none => (true, s)
    | some r =>
      let mark (t : Region) : Region := if t.base = r.base then { t with suspect := true } else t
      let s := s.modPart p fun q => { q with regions := q.regions.map mark }
      let s := (s.windowOwners p r).foldl (fun s n => s.stopCtx n) s
      (false, note 2 s)

/-- Whether two intact copies have different tag slots. -/
def differ (a b : Block) : Bool :=
  a.wepoch != b.wepoch || (rangeFrom 0 8).any fun i => Tbl.get 0 a.lines i != Tbl.get 0 b.lines i

/-! ### Reads (R187, R194, R206, R207, R409) -/

/-- Bytes charged for a read of a block, and for a write or an operation (R325). -/
def readCharge (buffered : Bool) : Nat := if buffered then 0 else 520
/-- Bytes charged for a write or an operation on a block. -/
def writeCharge (buffered : Bool) : Nat := if buffered then 520 else 1040

/-- Load a block for a request and charge it. -/
def State.loadFor (s : State) (p : Nat) (b : Loc) (write : Bool) : State :=
  let hit := (s.blockAt b).buffered
  (s.charge b.1 p (if write then writeCharge hit else readCharge hit)).load b

/-- What a permitted reader finds in the copies of a block, read in the order given, the first of which is loaded (R206): a second is
read only where the first is bad, and where it is intact the first is rewritten from it. -/
def State.readCopies (s : State) (p a : Nat) (expect : Seal) : List Loc → MemStatus × BitVec 512 × State
  | [] => (.ended, 0, s)
  | [b] =>
    let k := s.blockAt b
    if k.intact expect then (.ok, Tbl.get 0 k.lines ((a / 64) % 8), s)
    else if k.poison then (.poison, 0, s)
    else (.poison, 0, s.poison b)
  | b :: c :: _ =>
    if (s.blockAt b).intact expect then (.ok, Tbl.get 0 (s.blockAt b).lines ((a / 64) % 8), s)
    else
      let s := s.loadFor p c false
      let d := s.blockAt c
      if d.intact expect then (.ok, Tbl.get 0 d.lines ((a / 64) % 8), s.repair p a c b)
      else
        let s := if (s.blockAt b).poison then s else s.poison b
        (.poison, 0, if d.poison then s else s.poison c)

/-- An uncorrectable error that a request without key permission meets in the loaded first copy (R185, R206): another copy whose code
holds takes its place, and without one the block is poisoned. -/
def State.codeFails (s : State) (p a : Nat) : List Loc → State
  | [] => s
  | b :: cs =>
    if !(s.blockAt b).uncorr then s
    else
      match cs with
      | c :: _ =>
        let s := s.loadFor p c false
        if !(s.blockAt c).uncorr && !(s.blockAt c).poison then s.repair p a c b else s.poison b
      | [] => s.poison b

/-- What a reader without permission is given of a block (R37, R207): the line as stored, or zeros where the block is poisoned. -/
def Block.shown (b : Block) (line : Nat) : BitVec 512 := if b.poison then 0 else b.stored line

/-- Thresholds of Table 07-8 for the pages of several blocks. -/
def State.thresholdsOf (s : State) : List Loc → State × List Ev
  | [] => (s, [])
  | b :: bs =>
    let r := s.thresholds b.1 (b.2 / 8)
    let t := State.thresholdsOf r.1 bs
    (t.1, r.2 ++ t.2)

/-- The order in which copies are read: READ_NEAREST takes the copy of fewer bridge hops, the primary on a tie. -/
def readOrder (nearest : Bool) (die : Nat) : List Loc → List Loc
  | [b, c] => if nearest && decide (dieHops die (dieOfChannel c.1) < dieHops die (dieOfChannel b.1)) then [c, b] else [b, c]
  | l => l

/-- A controller serves a read of one line. -/
def State.readLine (s : State) (r : MemReq) : MemOut × State × List Ev :=
  let p := r.part.val
  let a := r.addr.toNat / 64 * 64
  match s.resolve p r.epoch.toNat a with
  | .refuse => ({ status := .mapEpoch }, s.denyEpoch r, [])
  | .wait => ({ status := .hold }, s, [])
  | .layout l _ =>
    if (l.place a).isNone then ({ status := .range }, s, [])
    else
      let q := s.part p
      let near := match q.regionOf a with
        | some g => g.nearest
        | none => false
      match readOrder near r.die.val (s.copies p l a) with
      | [] => ({ status := .ended }, s, [])
      | b :: bs =>
        if (b :: bs).any s.busyAt || q.suspectAt a then ({ status := .hold }, s, [])
        else if s.freshAt b then ({ status := .ok }, s.charge b.1 p (readCharge false), [])
        else
          let s := s.loadFor p b false
          let sel := s.selectKey p a
          let out : MemOut × State × List Ev :=
            if sel.dead then
              let s := s.codeFails p a (b :: bs)
              let d := s.denyKey b r sel false
              ({ status := .deadkey, data := (s.blockAt b).shown ((a / 64) % 8) }, d.1, d.2)
            else if !s.memPermits sel.handle sel.kctx r.who then
              let s := s.codeFails p a (b :: bs)
              let d := s.denyKey b r sel true
              ({ status := .nokey, data := (s.blockAt b).shown ((a / 64) % 8) }, d.1, d.2)
            else
              let t := s.readCopies p a (s.sealFor p a) (b :: bs)
              ({ status := t.1, data := t.2.1 }, t.2.2, [])
          let t := out.2.1.thresholdsOf (b :: bs)
          (out.1, t.1, out.2.2 ++ t.2)

/-! ### Writes and operations -/

/-- The first write to a fresh page (FRESH_PAGE_FILL, R194): every block of it becomes zeros under the key of its
address. -/
def State.fillPage (s : State) (p a : Nat) (b : Loc) : State :=
  if s.freshAt b then
    let pg := b.2 / 8
    let base := a / 4096 * 4096
    let s := s.modChannel b.1 fun k => k.setFresh pg false
    (rangeFrom 0 8).foldl (fun s i =>
      s.modBlock (b.1, pg * 8 + i) fun _ => { Block.reset with sealedBy := some (s.sealFor p (base + i * 512)) }) s
  else s

/-- Bytes of a job's galley budget in a partition (R362). -/
def State.budgetBytes (s : State) (p : Nat) (j : Job) : Nat :=
  let l := (s.part p).lay
  j.budget * (l.channels.length * (l.eI + l.eN) * 4096) / 256

/-- The first write of an epoch to a chunk of an EPOCH region copies it to a shadow (GALLEY_SHADOW_COPY, R363), or the epoch
becomes unprotected (R367). -/
def State.shadow (s : State) (p : Nat) (l : Layout) (a : Nat) : State :=
  let q := s.part p
  match q.regionOf a with
  | none => s
  | some r =>
    if !r.epoch then s
    else
      let c := s.ctx r.owner
      match s.job c.forme c.job with
      | none => s
      | some j =>
        let chunk := a / 65536
        if !j.active || j.unprotected || q.shadows.any (fun h => h.chunk == chunk) then s
        else
          let cost := if r.mirror then 131072 else 65536
          let used := q.shadows.foldl (fun a h => if h.job = j.id then a + h.cost else a) 0
          if used + cost ≤ s.budgetBytes p j then
            let blocks := (rangeFrom 0 128).map fun i =>
              match s.locIn l (chunk * 65536 + i * 512) with
              | some b => s.blockAt b
              | none => Block.reset
            let used := (rangeFrom 0 16).map fun i =>
              match s.locIn l (chunk * 65536 + i * 4096) with
              | some b => !s.freshAt b
              | none => false
            s.modPart p fun q => { q with shadows := q.shadows ++ [⟨chunk, j.id, blocks, used, cost⟩] }
          else
            (s.modJob c.forme c.job fun j => { j with unprotected := true }).record
              (s.recOfCtx r.owner { cause := 0x33, severity := 0, d5 := 0 })

/-- A line written with permission into a block that does not verify: a block all of whose lines are so written while it is
buffered is whole again, under a new tag (R187, R207). -/
def Block.patch (b : Block) (k : Seal) (line : Nat) (v : BitVec 512) : Block :=
  let filled := Tbl.set b.filled line v
  if filled.length = 8 then
    { b with lines := filled, sealedBy := some k, poison := false, foreign := false, tagBad := false, errs := [],
             kept := none, filled := [], told := false }
  else
    let b := b.toStored
    { b with lines := Tbl.set b.lines line (Config.cipherLine k.key k.tweak b.wepoch.toNat line v), filled := filled }

/-- A line stored without permission (R37, R187): the block keeps its tag slot and is foreign. -/
def Block.forge (b : Block) (line : Nat) (v : BitVec 512) : Block :=
  let b := b.toStored
  { b with lines := Tbl.set b.lines line v, foreign := true, filled := [] }

/-- A line written with permission into a block: into an intact one as it stands, into another as `Block.patch` says. -/
def Block.put (b : Block) (k : Seal) (line : Nat) (v : BitVec 512) : Block :=
  if b.intact k then { b with lines := Tbl.set b.lines line v } else b.patch k line v

/-- The resulting line and the new write epoch go to the secondary copies, which store them as given (MIRROR_WRITE, R205): `f` is what
the line does to a block. -/
def State.forward (s : State) (p : Nat) (b : Loc) (f : Block → Block) : List Loc → State
  | [] => s
  | c :: cs =>
    let w := (s.blockAt b).wepoch
    State.forward ((s.loadFor p c true).modBlock c fun d => { f d with wepoch := w }) p b f cs

/-- A block written at its target is written through to the source page (WRITE_THROUGH, R269): the whole page where the
source page was fresh. -/
def State.writeThrough (s : State) (a : Nat) (new old : Layout) : State :=
  match s.locIn new a, s.locIn old a with
  | some b, some o =>
    if s.freshAt o then
      let s := s.modChannel o.1 fun k => k.setFresh (o.2 / 8) false
      (rangeFrom 0 8).foldl (fun s i =>
        let k := s.blockAt (b.1, b.2 / 8 * 8 + i)
        s.modBlock (o.1, o.2 / 8 * 8 + i) fun d => { k with buffered := d.buffered }) s
    else
      let k := s.blockAt b
      s.modBlock o fun d => { k with buffered := d.buffered }
  | _, _ => s

/-- The addresses of a block's copies. -/
def Partition.copyAddrs (q : Partition) (a : Nat) : List Nat :=
  match q.regionOf a with
  | some r => if r.mirror then [a, a - r.base + r.mbase] else [a]
  | none => [a]

/-- Whether what is written to partition `p` is written through to a source on another module: one from which the partition has moved, the
quoin has not come, and the source has not failed (R269). -/
def State.farSource (s : State) (p : Nat) : Bool :=
  let q := s.part p
  q.movedFrom.isSome && (s.forme q.forme).any fun f => !f.failedMembers.contains q.member && f.change.any fun c => !c.quoined

/-- A write or an operation has changed the block at `a`: its write epoch, its other copies and its source page on this module follow. -/
def State.spread (s : State) (p a : Nat) (l : Layout) (through : Option Layout) (b : Loc) (f : Block → Block) (bs : List Loc) : State :=
  let q := s.part p
  let mirrored := match q.regionOf a with
    | some r => r.mirror
    | none => false
  let s := if mirrored then s.modBlock b fun k => { k with wepoch := k.wepoch + 1 } else s
  let s := s.forward p b f bs
  match through with
  | some o => (q.copyAddrs a).foldl (fun s x => s.writeThrough x l o) s
  | none => s

/-- Keep an operation refused on a poisoned line (R378): operations of one MOP on one line combine, but for CAS and the
floating-point adds; a full hold loses the context. -/
def State.keepOp (s : State) (b : Loc) (r : MemReq) (mop : Nat) (opd : BitVec 1024) : State × List Ev :=
  let n := (ctxOf r.who).getD 0
  let a := r.addr.toNat / 64 * 64
  let k := s.channel b.1
  let combines := match mopDecode mop with
    | some (o, t) => o != .cas && !o.reordersFloats t
    | none => false
  let same (h : HeldOp) : Bool := combines && h.part == r.part.val && h.addr == a && h.mop == mop && h.ctx == n
  if k.hold.any same then
    let merge (h : HeldOp) : HeldOp :=
      match same h, mopDecode mop with
      | true, some (o, t) => { h with operand := (memLine o t (h.operand.truncate 512) (opd.truncate 512)).zeroExtend 1024 }
      | _, _ => h
    (s.modChannel b.1 fun k => { k with hold := k.hold.map merge }, [])
  else if 256 ≤ k.hold.length then (s, if n = 0 then [] else [.lose n])
  else (s.modChannel b.1 fun k => { k with hold := k.hold ++ [⟨r.part.val, a, mop, opd, n⟩] }, [])

/-- The MOP of a change, 0 for a plain write. -/
def Change512.mop : Change512 → Nat
  | .write _ => 0
  | .op m _ _ _ => m

/-- Whether the region tests of R204 refuse a change at an address. -/
def Partition.refuses (q : Partition) (a : Nat) (c : Change512) : Bool :=
  let wx := match q.regionOf a with
    | some r => r.wx
    | none => false
  let ro := match q.regionOf a with
    | some r => r.ro
    | none => false
  ro || (q.secondaryOf a).isSome ||
  (match c with
    | .write _ => false
    | .op _ _ t _ => if t = .wx128 then !wx else wx)

/-- A permitted change of the first copy of a block: it is checked and, where another copy is intact, repaired before the
change is applied. -/
def State.applyChange (s : State) (r : MemReq) (a : Nat) (l : Layout) (through : Option Layout) (c : Change512) (b : Loc)
    (bs : List Loc) (bit : Bool) : MemOut × State × List Ev :=
  let p := r.part.val
  let k0 := s.sealFor p a
  let line := (a / 64) % 8
  let s :=
    if (s.blockAt b).intact k0 then s
    else
      match bs with
      | o :: _ =>
        let s := s.loadFor p o false
        if (s.blockAt o).intact k0 then s.repair p a o b else s
      | [] => s
  if (s.blockAt b).intact k0 then
    let old := Tbl.get 0 (s.blockAt b).lines line
    let v := match c with
      | .write v => v
      | .op _ o t opd => applyMemOp o t old opd
    let s := s.modBlock b fun k => { k with lines := Tbl.set k.lines line v }
    ({ status := .ok, data := old, epochBit := bit, stored := true }, s.spread p a l through b (fun k => k.put k0 line v) bs, [])
  else
    let s := if (s.blockAt b).poison then s else s.poison b
    match c with
    | .write v =>
      let s := s.modBlock b fun k => k.patch k0 line v
      ({ status := .ok, epochBit := bit, stored := true }, s.spread p a l through b (fun k => k.put k0 line v) bs, [])
    | .op m _ _ opd =>
      let t := s.keepOp b r m opd
      ({ status := .poison, epochBit := bit }, t.1, t.2)

/-- What comes before a change of the line at address `a` (R194, R363): the fresh pages of its copies are filled, and the chunk of an
epoch-protected region is copied to its shadow. -/
def State.beforeChange (s : State) (p a : Nat) (l : Layout) : State :=
  (((s.part p).copyAddrs a).foldl (fun s x =>
    match s.locIn l x with
    | some o => if (s.channel o.1).fenced then s else s.fillPage p x o
    | none => s) s).shadow p l a

/-- A controller serves a write or a memory-side operation on one line. -/
def State.changeLine (s : State) (r : MemReq) (c : Change512) : MemOut × State × List Ev :=
  let p := r.part.val
  let a := r.addr.toNat / 64 * 64
  match s.resolve p r.epoch.toNat a with
  | .refuse => ({ status := .mapEpoch }, s.denyEpoch r, [])
  | .wait => ({ status := .hold }, s, [])
  | .layout l through =>
    if (l.place a).isNone then ({ status := .range }, s, [])
    else
      let q := s.part p
      match s.copies p l a with
      | [] => ({ status := .ended }, s, [])
      | b :: bs =>
        if (b :: bs).any s.busyAt || q.suspectAt a then ({ status := .hold }, s, [])
        else if q.refuses a c then
          let d := s.denyRegion r c.mop
          ({ status := .refused }, d.1, d.2)
        else
          let bit := (q.regionOf a).any fun g => g.epoch
          let sel := s.selectKey p a
          let permits := s.memPermits sel.handle sel.kctx r.who
          let isOp := c.mop != 0
          if sel.dead then
            let d := s.denyKey b r sel true
            ({ status := .deadkey }, d.1, d.2)
          else if !permits && isOp then
            let d := s.denyKey b r sel true
            ({ status := .nokey }, d.1, d.2)
          else
            let s := (s.beforeChange p a l).loadFor p b true
            let out : MemOut × State × List Ev :=
              if permits then s.applyChange r a l through c b bs bit
              else
                match c with
                | .write v =>
                  let s := (s.codeFails p a (b :: bs)).modBlock b fun k => k.forge ((a / 64) % 8) v
                  let s := s.spread p a l through b (fun k => k.forge ((a / 64) % 8) v) bs
                  let d := s.denyKey b r sel true
                  ({ status := .nokey, epochBit := bit, stored := true }, d.1, d.2)
                | .op _ _ _ _ => ({ status := .nokey }, s, [])
            let t := out.2.1.thresholdsOf (b :: bs)
            (out.1, t.1, out.2.2 ++ t.2)

/-- A plain write of one line. -/
def State.writeLine (s : State) (r : MemReq) (v : BitVec 512) : MemOut × State × List Ev := s.changeLine r (.write v)

/-- A memory-side operation named by its MOP on one line; the operand of CAS takes both halves. -/
def State.opLine (s : State) (r : MemReq) (mop : Nat) (opd : BitVec 1024) : MemOut × State × List Ev :=
  match mopDecode mop with
  | some (o, t) => s.changeLine r (.op mop o t opd)
  | none => ({ status := .refused }, s, [])

/-- An acknowledgement whose EPOCH bit is clear marks the epoch of a protected job impure (IMPURE, R364). -/
def State.opAcked (s : State) (n : Nat) (bit : Bool) : State :=
  let c := s.ctx n
  match s.job c.forme c.job with
  | some j =>
    if n ≠ 0 ∧ !bit ∧ j.active ∧ !j.impure then
      (s.modJob c.forme c.job fun j => { j with impure := true }).record
        (s.recOfCtx n { cause := 0x34, severity := 0, d5 := c.job })
    else s
  | none => s

/-! ### Requests that bulk transfers make: whole ranges of lines -/

/-- The map epoch that a unit stamps on a request to partition `p` (R255). -/
def State.epochOf (s : State) (p : Nat) : BitVec 4 :=
  match s.forme (s.part p).forme with
  | some f => BitVec.ofNat 4 f.epoch
  | none => 0

/-- A request of principal `who` to a line of partition `p`, put into the fabric on `die` under the label of control processors
(Table 11-1). -/
def State.reqAt (s : State) (who : Principal) (p a die : Nat) : MemReq :=
  ⟨who, Fin.ofNat 48 p, BitVec.ofNat 40 a, s.epochOf p, Fin.ofNat 4 die, 6⟩

/-- 64 bytes as a line, the first byte the least significant. -/
def lineOfBytes (l : List Byte) : BitVec 512 := BitVec.ofNat 512 (leNat l)
/-- The 64 bytes of a line. -/
def bytesOfLine (v : BitVec 512) : List Byte := leBytes v.toNat 64

/-- The worst of two statuses of a transfer. -/
def MemStatus.worse : MemStatus → MemStatus → MemStatus
  | .ok, t => t
  | t, _ => t

end Sys2Proof.Machine
end

