-- ==== Sys2Proof/Machine/Regulation.lean ====
section
/-! DEFINITION. Bandwidth and latency regulation at the channels (R325 to R337): commits, scale-back, windows and missed
guarantees. -/

namespace Sys2Proof.Machine

/-- Whether partition `p` has a share on a channel, in any live layout or in one being admitted. -/
def State.hasShare (s : State) (p ch : Nat) : Bool :=
  let q := s.part p
  (q.inUse && q.lay.channels.contains ch) ||
    (match q.layOld with
      | some l => l.channels.contains ch
      | none => false) ||
    (match q.layNew with
      | some l => l.channels.contains ch
      | none => false)

/-- Partitions with a share on a channel. -/
def State.sharers (s : State) (ch : Nat) : List Nat := (s.parts.map fun e => e.1).filter fun p => s.hasShare p ch

/-- The slot of a partition at a channel. -/
def State.slot (s : State) (ch p : Nat) : Regulator := Tbl.get Regulator.reset (s.channel ch).regs p
/-- Change the slot of a partition at a channel. -/
def State.modSlot (s : State) (ch p : Nat) (f : Regulator → Regulator) : State :=
  s.modChannel ch fun k => { k with regs := Tbl.mod Regulator.reset k.regs p f }

/-- Whether a change in progress binds or retains a channel on this module (R333, Table 11-5). -/
def State.changing (s : State) (ch : Nat) : Bool :=
  s.formes.any fun f => match f.change with
    | some c => c.own.any fun e => (e.fab == s.fabAddr && bit e.channels.toNat ch) || s.hasShare e.part ch
    | none => false

/-- Units per window of a sweeper's rate over `n` channels (R332): one unit is 32 MB/s. -/
def sweepUnits (rate n : Nat) : Nat := if n = 0 then 0 else ceilDiv ((if rate = 0 then 50 else rate) * 1000) (32 * n)

/-- The label-7 reservations of one change on a channel (R332): the sources and the targets of its moved chunks. -/
def State.changeUnits (s : State) (c : Change) (ch : Nat) : Nat :=
  let sides (f : Nat → List Nat) : Nat :=
    let l := (c.own.map fun e => f e.part).flatten
    if l.contains ch then sweepUnits c.hdr.sweepRate l.eraseDups.length else 0
  let moves (p : Nat) : Bool :=
    let q := s.part p
    q.movedFrom.isSome || q.movedTo.isSome || (match q.layNew, q.layOld with
      | some n, _ => n.bases != q.lay.bases || n.eI != q.lay.eI || n.eN != q.lay.eN
      | none, some o => o.bases != q.lay.bases || o.eI != q.lay.eI || o.eN != q.lay.eN
      | none, none => false)
  let source (p : Nat) : List Nat :=
    let q := s.part p
    if !moves p || q.movedFrom.isSome then [] else match q.layOld with
      | some o => o.channels
      | none => q.lay.channels
  let target (p : Nat) : List Nat :=
    let q := s.part p
    if !moves p || q.movedTo.isSome then [] else match q.layNew with
      | some n => n.channels
      | none => q.lay.channels
  if c.admitted then sides source + sides target else 0

/-- The recovery reservation of a channel, RECOV (R332). -/
def State.recov (s : State) (ch : Nat) : Nat :=
  let changes := s.formes.foldl (fun a f => match f.change with
    | some c => a + s.changeUnits c ch
    | none => a) 0
  changes + (if (s.channel ch).copying.isEmpty then 0 else 32)

/-- The committed guarantees of a channel, summed over its partitions. -/
def State.sumGuar (s : State) (ch : Nat) : Nat := (s.sharers ch).foldl (fun a p => a + (s.slot ch p).guar) 0
/-- The guarantees of a channel summed over its partitions and those that come to bind it: the shadow values of the partitions of a
plan, `mine`, and the committed values of all others (R333). -/
def State.sumPlanned (s : State) (mine coming : List Nat) (ch : Nat) : Nat :=
  (distinct (s.sharers ch ++ coming)).foldl (fun a p => a + (if mine.contains p then (s.slot ch p).shGuar else (s.slot ch p).guar)) 0
/-- The shadow guarantees of a channel, summed over its partitions. -/
def State.sumShadow (s : State) (ch : Nat) : Nat := (s.sharers ch).foldl (fun a p => a + (s.slot ch p).shGuar) 0

/-- The derated capacity of a channel (R331). -/
def derated : Nat := 2560

/-- Whether the shadows of a channel are admissible (R333). -/
def State.admissible (s : State) (ch : Nat) : Bool := decide (s.sumShadow ch + s.recov ch ≤ derated)

/-- The shadows of every slot of a channel take effect together (R337). -/
def State.commitChannel (s : State) (ch : Nat) : State :=
  s.modChannel ch fun k => { k with regs := k.regs.map fun (e : Nat × Regulator) =>
    (e.1, { e.2 with guar := e.2.shGuar, windows := e.2.shWindows, targets := e.2.shTargets }) }

/-- COMMIT (R337): the write waits for the next window; one that meets a change is refused with CRESULT 3. -/
def State.commit (s : State) (ch : Nat) : State := s.modChannel ch fun k => { k with commit := true }

/-- The commit that a window takes: CRESULT 1, 2 or 3 (Table 11-5). -/
def State.takeCommit (s : State) (ch : Nat) : State :=
  if !(s.channel ch).commit then s
  else
    let s := s.modChannel ch fun k => { k with commit := false }
    if s.changing ch then s.modChannel ch fun k => { k with cresult := 3 }
    else if s.admissible ch then (s.commitChannel ch).modChannel ch fun k => { k with cresult := 1 }
    else s.modChannel ch fun k => { k with cresult := 2 }

/-- The missed-guarantee interrupt (R330, R335): counted, and written unless one was written within 1 ms. `scaled` marks the
entry to scale-back, which the limit does not hold. -/
def State.missed (s : State) (ch p : Nat) (latency delivery scaled : Bool) : State :=
  let r := s.slot ch p
  let recent := match r.lastIrq with
    | some t => decide (s.ltime < t + 1000000)
    | none => false
  let s := s.modChannel ch fun k => { k with missCount := min (k.missCount + 1) (2 ^ 32 - 1) }
  if recent && !scaled then s
  else
    let now := s.ltime
    let s := if scaled then s else s.modSlot ch p fun r => { r with lastIrq := some now }
    s.record { cause := 0x05, severity := 0, island := ch / 8, cluster := some (ch / 8), part := some p,
               member := some (s.part p).member, channel := some ch,
               d5 := b2n latency + b2n delivery * 2 + b2n scaled * 4 + r.guarEff * 2 ^ 12 }

/-- The test of one partition's window (R330): `late` and `waiting` say whether a request charged to it completed late, and
whether one waits at the window's end. -/
def State.testWindow (s : State) (ch p : Nat) (late waiting : Bool) : State :=
  let r := s.slot ch p
  let short := decide (0 < r.account) && waiting
  if !(late || short) then s.modSlot ch p fun r => { r with missed := 0 }
  else if r.windows = 0 then s
  else if r.missed + 1 < r.windows then s.modSlot ch p fun r => { r with missed := r.missed + 1 }
  else (s.modSlot ch p fun r => { r with missed := 0, miss := true }).missed ch p late short false

/-- The effective guarantee of a slot (R334). -/
def effective (guar cap recov sum : Nat) : Nat :=
  if cap ≤ recov then 0 else if sum ≤ cap - recov then guar else guar * (cap - recov) / sum

/-- CAP_NOW of a mean clock in MHz (R334). -/
def capNow (mhz : Nat) (hot : Bool) : Nat :=
  if hot then derated * mhz * 95 / (700 * 100) else derated * mhz / 700

/-- Scale-back and the new window's accounts (R326, R334, R335). -/
def State.scale (s : State) (ch : Nat) : State :=
  let k := s.channel ch
  let rc := s.recov ch
  let sum := s.sumGuar ch
  let holds := decide (k.capNow - rc < sum)
  let quiet := if holds then 0 else k.quietWindows + 1
  let on := holds || (k.scaleBack && decide (quiet < 8))
  let s := s.modChannel ch fun k => { k with scaleBack := on, quietWindows := quiet }
  (s.sharers ch).foldl (fun s p =>
    let r := s.slot ch p
    let eff := effective r.guar k.capNow rc sum
    let s := s.modSlot ch p fun r => { r with guarEff := eff, account := ((eff * 64 : Nat) : Int), scaled := on }
    if on && !k.scaleBack && decide (eff < r.guar) then s.missed ch p false false true else s) s

/-- A Switch has committed guarantees: where the new sum exceeds what is left, scale-back begins in the same window (R336). The
accounts of the window stand. -/
def State.scaleNow (s : State) (ch : Nat) : State :=
  let k := s.channel ch
  if k.fenced ∨ s.sumGuar ch ≤ k.capNow - s.recov ch then s
  else
    let r := s.scale ch
    r.modChannel ch fun x => { x with regs := x.regs.map fun (e : Nat × Regulator) =>
      (e.1, { e.2 with account := (s.slot ch e.1).account }) }

/-- REGULATOR_WINDOW (R326, R330, R334, R335): a window of channel `ch` ends and the next begins. `mhz` is the mean clock of
the cluster island, `hot` the raised refresh rate; `late` and `waiting` name the partitions of R330's two conditions. -/
def State.regulatorWindow (s : State) (ch mhz : Nat) (hot : Bool) (late waiting : List Nat) : State :=
  if (s.channel ch).fenced then s
  else
    let w := max ((s.channel ch).window + 1) (s.ltime / 2000)
    let s := s.advanceTo (w * 2000)
    let s := (s.sharers ch).foldl (fun s p => s.testWindow ch p (late.contains p) (waiting.contains p)) s
    let s := s.modChannel ch fun k => { k with
      window := w, capNow := capNow mhz hot, recovUsed := 0, late := [],
      missCount := if k.missCountClear then 0 else k.missCount, missCountClear := false,
      demoted := if k.demotedClear then 0 else k.demoted, demotedClear := false,
      regs := k.regs.map fun (e : Nat × Regulator) => (e.1, { e.2 with miss := e.2.miss && !e.2.missClear, missClear := false }) }
    (s.takeCommit ch).scale ch

end Sys2Proof.Machine
end

