-- ==== Sys2Proof/Machine/Lanes.lean ====
section
/-! DEFINITION. Packet types, sub-lanes and slots, the receiver's credits, the reservations of VL1 and the choice of the next packet
of an output link (R248, R462, R464, R465, R474). -/

namespace Sys2Proof.Machine

/-- Link `l`. -/
def State.link (s : State) (l : Nat) : Link := Tbl.get Link.reset s.links l
/-- Change link `l`. -/
def State.modLink (s : State) (l : Nat) (f : Link → Link) : State := { s with links := Tbl.set s.links l (f (s.link l)) }

/-! ### Packet types (Table 15-6) -/

namespace PT
def read : Nat := 0x01
def write : Nat := 0x02
def memop : Nat := 0x03
def readResp : Nat := 0x04
def ack : Nat := 0x05
def nack : Nat := 0x06
def ctrl : Nat := 0x10
def recov : Nat := 0x11
def state : Nat := 0x12
def walk : Nat := 0x20
def guard : Nat := 0x21
end PT

end Sys2Proof.Machine

namespace Sys2Proof

open Sys2Proof.Machine

/-- The type of a packet. -/
def Packet.kind (p : Packet) : Nat := p.ptype.toNat

end Sys2Proof

namespace Sys2Proof.Machine

/-- Whether a type is one of Table 15-6. -/
def knownType (t : Nat) : Bool :=
  [0x01, 0x02, 0x03, 0x04, 0x05, 0x06, 0x10, 0x11, 0x12, 0x20, 0x21].contains t

end Sys2Proof.Machine

namespace Sys2Proof

open Sys2Proof.Machine

/-- Whether a packet is a response or a NACK. -/
def Packet.isResponse (p : Packet) : Bool := p.kind == PT.readResp || p.kind == PT.ack || p.kind == PT.nack

/-- The virtual lane of a packet (Tables 11-1 and 15-6). -/
def Packet.vl (p : Packet) : Nat :=
  if p.kind = PT.ctrl ∨ p.kind = PT.walk ∨ p.kind = PT.guard then 0
  else if p.kind = PT.recov ∨ p.kind = PT.state ∨ p.cls = 7 then 1
  else if p.cls = 6 then 7
  else p.cls.toNat + 2

/-- The sub-lane of a packet as CR_SUB numbers it (Table 15-3). -/
def Packet.sub (p : Packet) : Nat := p.vl + (if p.isResponse then 8 else 0)

/-- The slots of a packet (R456, R462): header, detour slot, body and tag slot. -/
def Packet.slots (p : Packet) : Nat :=
  2 + b2n p.detour.isSome + b2n p.sealedBy.isSome +
    (if p.kind = PT.ctrl then 2
     else if p.kind = PT.recov then 4 + 4 * p.len.toNat
     else if p.kind = PT.walk then 4
     else if p.kind = PT.write ∨ p.kind = PT.memop ∨ p.kind = PT.readResp ∨ p.kind = PT.state then 4 * p.len.toNat
     else 0)

/-- The flits that a packet takes: every packet begins a flit (R456; assumption 40). -/
def Packet.flits (p : Packet) : Nat := ceilDiv p.slots 15

end Sys2Proof

namespace Sys2Proof.Machine

/-- The slots that a receiver reserves for a sub-lane (Table 15-7); VL0 carries no responses. -/
def reservedSlots (sub : Nat) : Nat :=
  if sub % 8 = 1 then 512 else if sub = 8 then 0 else 256

/-- Flits that a retry buffer holds (R457). -/
def retryFlits : Nat := 1024

/-! ### What a receiver returns and grants (R464) -/

/-- Slots of the shared pool (Table 15-7), and what one grant of it gives. -/
def poolSlots : Nat := 12032
def poolGrant : Nat := 64

/-- Shared slots are granted to a data or VL1 sub-lane whose unused credits have fallen below 64, while the pool holds room. -/
def State.grantShared (s : State) (l sub : Nat) : State :=
  let k := s.link l
  let out := (k.granted.map fun e => e.2).foldl (· + ·) 0
  if sub % 8 ≠ 0 ∧ Tbl.get 0 k.rxCredits sub < poolGrant ∧ out + poolGrant ≤ poolSlots then
    (s.modLink l fun k => { k with
      granted := Tbl.mod 0 k.granted sub (· + poolGrant), rxCredits := Tbl.mod 0 k.rxCredits sub (· + poolGrant) }).emit
        (.credits l sub poolGrant)
  else s

/-- Shared slots are granted to every sub-lane that lacks credits. -/
def State.grantAll (s : State) (l : Nat) : State := (List.range 16).foldl (fun s sub => s.grantShared l sub) s

/-- Slots of a sub-lane are freed: those granted from the pool stay there, the others go back to the partner. -/
def State.freeSlots (s : State) (l sub n : Nat) : State :=
  let keep := min (Tbl.get 0 (s.link l).granted sub) n
  let back := n - keep
  let s := s.modLink l fun k => { k with
    granted := Tbl.mod 0 k.granted sub (· - keep), rxCredits := Tbl.mod 0 k.rxCredits sub (· + back) }
  (if back = 0 then s else s.emit (.credits l sub back)).grantAll l

/-- A packet that waited at an output has left it: the room that it took in the receive buffer of its arrival link is freed. -/
def State.freeBuffered (s : State) (p : Packet) : State :=
  match (List.range 16).find? fun i => (s.link i).buffered.any fun e => e.2.2 == p with
  | none => s
  | some i =>
    match (s.link i).buffered.find? fun e => e.2.2 == p with
    | none => s
    | some e => (s.modLink i fun k => { k with buffered := k.buffered.erase e }).freeSlots i e.1 e.2.1

/-- What a packet that came by link `l` leaves behind, `t` before it and `s` after it: it takes room until it leaves where it waits at an
output, and frees its slots otherwise. -/
def State.settleSlots (s : State) (l : Nat) (p : Packet) (t : State) : State :=
  let s := s.modLink l fun k => { k with rxCredits := Tbl.mod 0 k.rxCredits p.sub (· - p.slots) }
  match (List.range 16).find? fun o => decide ((t.link o).waiting.length < (s.link o).waiting.length) with
  | none => s.freeSlots l p.sub p.slots
  | some o =>
    match (s.link o).waiting.getLast? with
    | none => s.freeSlots l p.sub p.slots
    | some q =>
      if q.hops = p.hops - 1 ∧ q.srcMod = p.srcMod ∧ q.tag = p.tag then
        (s.modLink l fun k => { k with buffered := k.buffered ++ [(p.sub, p.slots, q)] }).grantAll l
      else s.freeSlots l p.sub p.slots

/-! ### Reservations of VL1 and link shares (R248, R265, R270) -/

/-- The actions of Table 09-1. -/
def actAdd : Nat := 1
def actRemove : Nat := 2
def actReshape : Nat := 3
def actMove : Nat := 4

/-- The partition that a member has on this module, if any. -/
def State.partOfMember (s : State) (f : Forme) (m : Nat) : Option Nat :=
  match Tbl.find f.members m with
  | some r => if r.fab = s.fabAddr then some r.part else none
  | none => none

/-- The partition of a member on this module. -/
def State.partHere (s : State) (id member : Nat) : Option Nat := (s.forme id).bind fun f => s.partOfMember f member

/-- The partition whose present layout holds a cluster. -/
def State.partOfCluster (s : State) (c : Nat) : Option Nat := (s.parts.find? fun e => e.2.inUse && e.2.lay.clusters.contains c).map fun e => e.1

/-- The links of a mask, in rising order. -/
def linksOf (mask : Nat) : List Nat := (List.range 16).filter fun l => mask.testBit l

/-- The link by which VL1 traffic of this module leaves for another: the one that the hash of R466 picks. -/
def State.pathLink (s : State) (dst : Nat) : Option Nat :=
  let ls := linksOf (s.mask dst)
  if ls.isEmpty then none else some (ls.getD ((s.fabAddr ^^^ dst) % ls.length) 0)

/-- The other module of a MOVE between modules that has an end here. -/
def State.moveAcross (s : State) (f : Forme) (e : PlanEntry) : Option Nat :=
  match Tbl.find (if f.membersOld.isEmpty then f.members else f.membersOld) e.member with
  | some r =>
    if e.action ≠ actMove ∨ r.fab = e.fab then none
    else if r.fab = s.fabAddr then some e.fab
    else if e.fab = s.fabAddr then some r.fab
    else none
  | none => none

/-- What a MOVE between modules reserves on VL1 of its path, in GB/s: the sweeper's rate, and 200 for a mini-switch (R265, R270). -/
def moveGb (h : PlanHeader) (e : PlanEntry) : Nat := (if h.sweepRate = 0 then 50 else h.sweepRate) + (if e.memOnly then 0 else 200)

/-- The VL1 reservations of a link (R465). -/
def State.vl1Of (s : State) (l : Nat) : Nat :=
  s.formes.foldl (fun a f => match f.change with
    | some c =>
      if c.admitted then
        c.own.foldl (fun a e => if ((s.moveAcross f e).bind s.pathLink) = some l then a + moveGb c.hdr e else a) a
      else a
    | none => a) 0

/-- The link share of a partition on a link, at least 1 (R248). -/
def State.shareOf (s : State) (l p : Nat) : Nat := max 1 ((s.part p).lay.linkShare.getD l 0)

/-! ### The next packet (R465) -/

/-- VL1 beyond its reservation competes as one more partition; transit packets take the place of one for their turns of lanes. -/
def vl1Share : Nat := 48
def transitShare : Nat := 49

/-- Whose packet one is: of transit, of VL1, or of a partition here: that of its issuing cluster, or for a response that of the member
that answers. -/
def State.senderOf (s : State) (p : Packet) : Nat :=
  if p.vl = 1 then vl1Share
  else if p.srcMod.toNat ≠ s.fabAddr then transitShare
  else if p.isResponse then (s.partHere p.formeId.toNat p.member.toNat).getD vl1Share
  else (s.partOfCluster p.srcClu.toNat).getD vl1Share

/-- The first waiting packet of each sub-lane. -/
def subHeads (w : List Packet) : List Packet := (List.range 16).filterMap fun sub => w.find? fun p => p.sub == sub

/-- The meters at local time `now`: those of a µs and of 2 µs begin again. -/
def LinkArb.tick (a : LinkArb) (now : Nat) : LinkArb :=
  let a := if a.us = now / 1000 then a else { a with us := now / 1000, vl0 := 0, all := 0 }
  if a.window = now / 2000 then a else { a with window := now / 2000, vl1 := 0 }

/-- A packet that leaves is metered. -/
def LinkArb.meter (a : LinkArb) (now : Nat) (p : Packet) : LinkArb :=
  let a := a.tick now
  { a with
    all := a.all + p.slots
    vl0 := if p.vl = 0 then a.vl0 + p.slots else a.vl0
    vl1 := if p.vl = 1 then a.vl1 + p.slots else a.vl1 }

/-- The one of a share's packets whose sub-lane comes next after the one served last. -/
def inTurn (last : Option Nat) (ps : List Packet) : Option Packet :=
  let start := match last with
    | some b => b + 1
    | none => 0
  (rangeFrom start 16).foldl (fun (a : Option Packet) i => match a with
    | some p => some p
    | none => ps.find? fun p => p.sub == i % 16) none

/-- Deficit round robin (R465): the share served last goes on while its deficit lasts; then the next share with a packet gains 32 slots
for each unit of its share. -/
def LinkArb.robin (a : LinkArb) (share : Nat → Nat) (ps : List (Nat × Packet)) : Option (LinkArb × Packet) :=
  let of_ (g : Nat) : List Packet := (ps.filter fun e => e.1 == g).map fun e => e.2
  let next (g : Nat) : Option Packet := inTurn (Tbl.find a.lastSub g) (of_ g)
  let take (a : LinkArb) (g : Nat) (p : Packet) : LinkArb × Packet :=
    ({ a with at_ := g, deficit := Tbl.set a.deficit g (Tbl.get 0 a.deficit g - p.slots), lastSub := Tbl.set a.lastSub g p.sub }, p)
  match (next a.at_).filter fun p => decide (p.slots ≤ Tbl.get 0 a.deficit a.at_) with
  | some p => some (take a a.at_ p)
  | none =>
    -- one whose packets are all sent keeps no deficit
    let a := if (of_ a.at_).isEmpty then { a with deficit := Tbl.del a.deficit a.at_ } else a
    match (rangeFrom (a.at_ + 1) (vl1Share + 1)).find? fun g => !(of_ (g % (vl1Share + 1))).isEmpty with
    | none => none
    | some g =>
      let g := g % (vl1Share + 1)
      (next g).map fun p =>
        take { a with deficit := Tbl.mod 0 a.deficit g (· + 32 * (if g = vl1Share then 1 else share g)) } g p

/-- The choice of the next packet among those that can leave, each with its share: VL0, VL1 within `reserve` slots of the present 2 µs,
then transit and injected packets in turns of 32 slots (R465). -/
def LinkArb.choose (a : LinkArb) (reserve : Nat) (share : Nat → Nat) (ps : List (Nat × Packet)) : Option (LinkArb × Packet) :=
  let vl0 := ps.find? fun e => e.2.vl == 0
  let rest := ps.filter fun e => e.2.vl != 0
  let lane1 := inTurn (Tbl.find a.lastSub vl1Share) ((rest.filter fun e => e.1 == vl1Share && decide (a.vl1 + e.2.slots ≤ reserve)).map fun e => e.2)
  let through := inTurn (Tbl.find a.lastSub transitShare) ((rest.filter fun e => e.1 == transitShare).map fun e => e.2)
  let own := rest.filter fun e => e.1 != transitShare
  let goThrough (a : LinkArb) (p : Packet) : LinkArb × Packet :=
    ({ a with transit := true, turn := (if a.transit then a.turn else 0) + p.slots, lastSub := Tbl.set a.lastSub transitShare p.sub }, p)
  let goOwn (r : LinkArb × Packet) : LinkArb × Packet :=
    ({ r.1 with transit := false, turn := (if r.1.transit then 0 else r.1.turn) + r.2.slots }, r.2)
  let third := match through with
    | some p => if own.isEmpty ∨ (a.transit == decide (a.turn < 32)) then some (goThrough a p) else (a.robin share own).map goOwn
    | none => (a.robin share own).map goOwn
  let second := match lane1 with
    | some p => some ({ a with lastSub := Tbl.set a.lastSub vl1Share p.sub }, p)
    | none => third
  match vl0 with
  | some e => if rest.isEmpty ∨ 8 * a.vl0 ≤ a.all then some (a, e.2) else second
  | none => second

end Sys2Proof.Machine
end

