-- ==== Sys2Proof/Machine/Wire.lean ====
section
/-! DEFINITION. Packets on their way: sizes and sub-lanes, credits, the retry buffer, routing, detours and sealing (R417 to R419,
R456, R457, R462 to R469). -/

namespace Sys2Proof.Machine

/-- A 16-bit counter counts one more, saturating. -/
def count16 (n : Nat) : Nat := min (n + 1) 0xFFFF

/-! ### Leaving by a link (R457, R464) -/

/-- Whether link `l` can take a packet now. -/
def Link.takes (k : Link) (p : Packet) : Bool :=
  decide (p.slots ≤ Tbl.get 0 k.credits p.sub) && decide (k.nextPos + p.flits - k.acked ≤ retryFlits)

/-- A packet leaves by link `l`: its credits are spent, it stands in the retry buffer, and its slots are metered. -/
def State.transmit (s : State) (l : Nat) (p : Packet) : State :=
  let now := s.ltime
  (s.modLink l fun k => { k with
    credits := Tbl.mod 0 k.credits p.sub fun c => c - p.slots
    nextPos := k.nextPos + p.flits
    retry := k.retry ++ [(k.nextPos + p.flits - 1, .packet p)]
    arb := k.arb.meter now p }).emit (.packet l p)

/-- A packet joins the queue of link `l`, and leaves at once where no packet of its sub-lane waits before it. -/
def State.offer (s : State) (l : Nat) (p : Packet) : State :=
  let k := s.link l
  if k.takes p && !(k.waiting.any fun q => q.sub == p.sub) then s.transmit l p
  else s.modLink l fun k => { k with waiting := k.waiting ++ [p] }

/-- The next packet that an output link sends, of those that wait and can leave (R465). -/
def State.nextPacket (s : State) (l : Nat) : Option (LinkArb × Packet) :=
  let k := s.link l
  let heads := subHeads k.waiting |>.filter k.takes
  (k.arb.tick s.ltime).choose (125 * s.vl1Of l) (s.shareOf l) (heads.map fun p => (s.senderOf p, p))

/-- Waiting packets of link `l` leave one after another; `fuel` bounds them. -/
def State.drainLink (s : State) (l : Nat) : Nat → State
  | 0 => s
  | fuel + 1 =>
    match s.nextPacket l with
    | none => s
    | some (arb, p) =>
      let s := s.modLink l fun k => { k with arb := arb, waiting := k.waiting.erase p }
      State.drainLink ((s.transmit l p).freeBuffered p) l fuel

/-- New credits or room in the retry buffer: what waits is tried again. -/
def State.retryWaiting (s : State) (l : Nat) : State := s.drainLink l (s.link l).waiting.length

/-! ### Routing (R466, R469) -/

end Sys2Proof.Machine

namespace Sys2Proof

open Sys2Proof.Machine

/-- The hash of a packet (R466). -/
def Packet.hash (p : Packet) : Nat :=
  let m := p.srcMod.toNat ^^^ p.dstMod.toNat
  if p.vl ≤ 1 ∨ p.isResponse then m
  else m ^^^ bits p.addr.toNat 27 12 ^^^ bits p.addr.toNat 39 28

end Sys2Proof

namespace Sys2Proof.Machine

end Sys2Proof.Machine

namespace Sys2Proof

open Sys2Proof.Machine

/-- Where a packet is bound at this hop: VIA_MOD for a detour, its destination otherwise. -/
def Packet.target (p : Packet) : Nat :=
  match p.detour with
  | some d => d.viaMod.toNat
  | none => p.dstMod.toNat

end Sys2Proof

namespace Sys2Proof.Machine

/-- Clear a link from every routing entry (R469). -/
def State.clearLink (s : State) (l : Nat) : State :=
  { s with routing := s.routing.map fun (e : Nat × Nat) => (e.1, if e.2.testBit l then e.2 - 2 ^ l else e.2) }

/-- A packet of lost link `l` goes as a detour to the partner, by the partner's own routing entry; `fseq` is the FSEQ of the
packet's last flit where it was sent before. The flag is false where the partner has no link (R469). -/
def State.detourBy (s : State) (l : Nat) (p : Packet) (fseq : Option Nat) : State × Bool :=
  let k := s.link l
  let up := (linksOf (s.mask k.partnerMod)).filter fun i => i ≠ l && (s.link i).state == .up
  if up.isEmpty ∨ p.detour.isSome ∨ !k.partnerV then (s, false)
  else
    let q := { p with detour := some ⟨BitVec.ofNat 16 k.partnerMod, BitVec.ofNat 4 k.partnerLink,
      BitVec.ofNat 12 (fseq.getD 0), fseq.isSome, BitVec.ofNat 16 k.epoch⟩ }
    let s := s.modLink l fun k => { k with detour := count16 k.detour }
    (s.offer (up.getD (p.hash % up.length) 0) q, true)

/-- What became of a packet given to the links. -/
inductive Launched where
  | gone (s : State)
  | unreachable (s : State)

/-- Give a packet to the links (R466): the entry's link that the hash picks, a detour where that link is down. `fuel` bounds
the links that are cleared. -/
def State.launchFuel (s : State) : Nat → Packet → Launched
  | 0, _ => .unreachable s
  | fuel + 1, p =>
    let ls := linksOf (s.mask p.target)
    if ls.isEmpty then .unreachable s
    else
      let l := ls.getD (p.hash % ls.length) 0
      if (s.link l).state = .up then .gone (s.offer l p)
      else
        match s.detourBy l p none with
        | (s, true) => .gone s
        | (s, false) => State.launchFuel (s.clearLink l) fuel p

/-- Give a packet to the links. -/
def State.launch (s : State) (p : Packet) : Launched := s.launchFuel 17 p

/-! ### Packets of this module -/

/-- The next tag of requests that cluster `clu` issues (R462). -/
def State.takeTag (s : State) (clu : Nat) : Nat × State :=
  let tag := (s.cluster clu).hub.nextTag
  (tag, s.modHub clu fun k => { k with nextTag := (tag + 1) % 2 ^ 16 })

/-- A packet with every field zero but its type, source, destination and hops. -/
def State.packet (s : State) (t dst : Nat) : Packet where
  ptype := BitVec.ofNat 8 t
  cls := 0
  epoch := 0
  sealedBy := none
  detour := none
  hops := 31
  srcMod := BitVec.ofNat 16 s.fabAddr
  dstMod := BitVec.ofNat 16 dst
  srcClu := 0
  formeId := 0
  member := 0
  tag := 0
  addr := 0
  mop := 0
  len := 0
  status := 0
  epochBit := false
  keyh := 0
  seng := 0
  ctr := 0
  rsv := false
  lines := []

/-- The packet that answers another. -/
def State.response (s : State) (p : Packet) (t status : Nat) (lines : List (BitVec 512)) : Packet :=
  { s.packet t p.srcMod.toNat with
    cls := p.cls, epoch := p.epoch, srcClu := p.srcClu, formeId := p.formeId, member := p.member, tag := p.tag,
    addr := p.addr, status := BitVec.ofNat 8 status, len := BitVec.ofNat 3 lines.length, lines := lines }

/-- A packet dropped at this module counts at link `l`, and a NACK goes back where it is no response (R466). -/
def State.drop (s : State) (l : Nat) (p : Packet) (status : Nat) : State :=
  let s := s.modLink l fun k =>
    if status = 7 then { k with hopsDrop := count16 k.hopsDrop } else { k with unreach := count16 k.unreach }
  if p.isResponse ∨ p.kind = PT.walk ∨ p.kind = PT.guard then s
  else
    match s.launch { s.response p PT.nack status [] with mop := p.mop, len := p.len } with
    | .gone s => s
    | .unreachable s => s

/-! ### Sealing (R417 to R419, R463) -/

/-- A SECURITY record (R429). -/
def State.secRecord (s : State) (event sev : Nat) (handle : Nat := 0) (ctx : Nat := 0) : State :=
  let base : Rec := { cause := 0x42, severity := sev, island := 58, d5 := event + (handle % 4096) * 2 ^ 8 }
  s.record (if ctx = 0 then base else s.recOfCtx ctx base)

/-- The most recently installed other link key of an owner (R419). -/
def State.otherLinkKey (s : State) (owner h : Nat) : Option Nat :=
  (s.keys.foldl (fun (a : Option (Nat × Nat)) e =>
    if e.2.type = .link ∧ e.2.valid ∧ e.2.owner = owner ∧ e.1 ≠ h ∧ e.2.uses < 2 ^ e.2.limitLog then
      match a with
      | some (_, o) => if o < e.2.order then some (e.1, e.2.order) else a
      | none => some (e.1, e.2.order)
    else a) none).map fun e => e.1

/-- CURRENT moves from entry `h` to entry `g` (R419). -/
def State.moveCurrent (s : State) (h g : Nat) : State :=
  (s.modKey h fun k => { k with current := false }).modKey g fun k => { k with current := true }

/-- One seal under entry `h` by engine `e` (R400, R418, R419): its counter, and the state with the use counted, the warning
given and CURRENT moved at the limit. -/
def State.useKey (s : State) (h e : Nat) : Nat × State :=
  let k := s.key h
  let ctr := Tbl.get 0 k.sendCtr e
  let limit := 2 ^ k.limitLog
  let s := s.modKey h fun k => { k with uses := k.uses + 1, sendCtr := Tbl.set k.sendCtr e (ctr + 1) }
  let s := if limit * 7 / 8 ≤ k.uses + 1 ∧ !k.warned then
      (s.secRecord 0x03 0 h).modKey h fun k => { k with warned := true }
    else s
  let s := if limit ≤ k.uses + 1 then
      match s.otherLinkKey k.owner h with
      | some g => s.moveCurrent h g
      | none => s
    else s
  (ctr, s)

/-- The bit of ENGINES that a message needs (R463). -/
def Sent.lane : Sent → Nat
  | .packet _ p => if p.kind = PT.state ∨ p.cls = 7 then 9 else 8
  | .ctrl _ _ => 9
  | _ => 8

/-- The link that a packet takes first, for the engine that seals it. -/
def State.firstLink (s : State) (p : Packet) : Option Nat :=
  let ls := linksOf (s.mask p.target)
  if ls.isEmpty then none else some (ls.getD (p.hash % ls.length) 0)

/-- A request of this module completes UNREACHABLE or ENDED at its issuer (R256, R348, R419): the operation is forgotten and
its context is affected. A pull or a write-through stays outstanding until its source is declared failed (R273, assumption 48). -/
def State.peerGone (s : State) (clu tag : Nat) (n : Nat) : State :=
  let stays (o : PeerOut) : Bool := match o.use with
    | .pull _ _ _ | .through _ _ => o.clu == clu && o.tag == tag
    | _ => false
  if s.peerOut.any stays then s
  else ({ s with peerOut := s.peerOut.filter fun o => !(o.clu == clu && o.tag == tag) }).settle (if n = 0 then [] else [.affect n])

/-- Give a packet of context `n` to the links; one that cannot leave completes UNREACHABLE. -/
def State.launchFor (s : State) (n : Nat) (p : Packet) : State :=
  match s.launch p with
  | .gone s => s
  | .unreachable s => if p.isResponse then s else s.peerGone p.srcClu.toNat p.tag.toNat n

/-- A packet of context `n` leaves: it waits for its seal where the context holds a current link key (R463). -/
def State.sendPacket (s : State) (n : Nat) (p : Packet) : State :=
  match s.linkKey n (Sent.packet 0 p).lane with
  | some _ => { s with egress := s.egress ++ [(n, .packet 0 p)] }
  | none => s.launchFor n p

/-- A message leaves unsealed. -/
def State.leaveUnsealed (s : State) (n : Nat) : Sent → State
  | .packet _ p => s.launchFor n p
  | m => s.emit m

/-- A message is sealed under entry `h` and leaves. -/
def State.leaveSealed (s : State) (n h : Nat) : Sent → State
  | .packet _ p =>
    let e := if p.kind = PT.state then 4 else ((s.firstLink p).getD 0) / 4
    let key := (s.key h).key
    let u := s.useKey h e
    u.2.launchFor n { p with sealedBy := some key, keyh := BitVec.ofNat 12 h, seng := BitVec.ofNat 3 e,
                             ctr := BitVec.ofNat 48 u.1 }
  | .ctrl opc c =>
    let ls := linksOf (s.mask c.dstMod.toNat)
    let e := (ls.getD ((c.srcMod.toNat ^^^ c.dstMod.toNat) % ls.length) 0) / 4
    let u := s.useKey h e
    u.2.emit (.underSeal h e u.1 (.ctrl opc c))
  | m => s.emit m

/-- The request of a message that may not be sealed completes ENDED (R419). -/
def State.endUnsealable (s : State) (n : Nat) : Sent → State
  | .packet _ p => s.peerGone p.srcClu.toNat p.tag.toNat n
  | _ => s.settle [.affect n]

/-- PACKET_SEAL (R463): the oldest message that waits at the egress is sealed under its context's current link key. -/
def State.packetSeal (s : State) : State :=
  match s.egress with
  | [] => s
  | (n, m) :: rest =>
    let s := { s with egress := rest }
    match s.linkKey n m.lane with
    | none => s.leaveUnsealed n m
    | some h =>
      let k := s.key h
      if 2 ^ k.limitLog ≤ k.uses then
        match s.otherLinkKey n h with
        | some g => (s.moveCurrent h g).leaveSealed n g m
        | none => s.endUnsealable n m
      else s.leaveSealed n h m

/-! ### Answers -/

/-- Send an answer: sealed under the handle that opened the request, with this module's engine and counter (R463). -/
def State.sendAnswer (s : State) (h : Option Nat) (p : Packet) : State :=
  match h with
  | none => s.launchFor 0 p
  | some h => if (s.key h).valid && decide ((s.key h).uses < 2 ^ (s.key h).limitLog) then s.leaveSealed (s.key h).owner h (.packet 0 p) else s

/-- A request has its answer. -/
def State.dropPeer (s : State) (o : PeerOut) : State := { s with peerOut := s.peerOut.filter fun x => x ≠ o }

end Sys2Proof.Machine
end

