-- ==== Sys2Proof/Machine/Arbiter.lean ====
section
/-! DEFINITION. Which of the requests that wait at a channel controller is served (R183, R198, R264, R323, R327 to R330): every
request of a unit goes through here to the controller that serves it. -/

namespace Sys2Proof.Machine

/-! ### Labels (R323, R324) -/

/-- The label that a move unit or a stream engine stamps: software's CLASS, 6 in place of 7. -/
def stampOf (cls : BitVec 3) : BitVec 3 := if cls = 7 then 6 else cls

/-! ### Requests that wait -/

/-- Whether a waiting request is the one that a unit asks again. -/
def Waiting.same (w : Waiting) (r : MemReq) (c : Option Change512) (u : ReqUnit) : Bool :=
  w.unit == u && w.req.who == r.who && w.req.part == r.part && w.req.addr.toNat / 64 == r.addr.toNat / 64 && w.change == c

/-- A request that arrives now. -/
def State.arrival (s : State) (r : MemReq) (c : Option Change512) (u : ReqUnit) : Waiting := ⟨r, c, u, s.ltime, none, none⟩

/-- A request as it waits: the one that has arrived already, with its epoch and the tables of its arrival, or a new arrival. -/
def State.asked (s : State) (r : MemReq) (c : Option Change512) (u : ReqUnit) : Waiting :=
  match s.waiting.find? fun w => w.same r c u with
  | some w => w
  | none => s.arrival r c u

/-- Whether a unit still wants what it asked: its move or its stream goes on, its queue is in use, its connection is up. -/
def State.wants (s : State) (w : Waiting) : Bool :=
  match w.unit with
  | .core c =>
    let k := s.core c
    k.enginesLive && k.xmove.isSome && w.req.who == .ctx k.ctx
  | .stream e id =>
    let g := s.engine e
    ((g.active.map fun (x : Nat × Stream) => x.2) ++ g.ending).any fun t => t.reqs.any fun r => r.id == id
  | .fetch q => (s.queue q).inUse && !(s.queue q).closing
  | .host n _ => (Tbl.get Conn.reset s.conns n).st == .up
  | .row => true
  | .none => false

/-- A request that its controller cannot serve yet keeps its place. -/
def State.wait (s : State) (w : Waiting) : State :=
  if w.unit == .none || s.waiting.contains w then s else { s with waiting := s.waiting ++ [w] }

/-- Requests of units that `p` picks are ended (R349). -/
def State.dropAsked (s : State) (p : ReqUnit → Bool) : State :=
  if s.waiting.isEmpty then s else { s with waiting := s.waiting.filter fun w => !p w.unit }

/-- Whether a region of the same range is marked in a table. -/
def Region.inTable (r : Region) (f : Region → Bool) (l : List Region) : Bool := l.any fun x => x.base == r.base && x.length == r.length && f x

/-- Serve under the tables of a request's arrival: what the service marks of a region that stands unchanged is kept. -/
def State.under (s : State) (p : Nat) (t : Option (List Region × Tbl KeyWindow)) (f : State → MemOut × State × List Ev) :
    MemOut × State × List Ev :=
  match t with
  | none => f s
  | some (rs, ws) =>
    let q := s.part p
    let o := f (s.modPart p fun q => { q with regions := rs, windows := ws })
    let after := (o.2.1.part p).regions
    let mark (r : Region) : Region := { r with suspect := r.suspect || r.inTable (fun x => x.suspect) after }
    (o.1, o.2.1.modPart p fun x => { x with regions := q.regions.map mark, windows := q.windows }, o.2.2)

/-- The controller serves a request. -/
def State.serve (s : State) (w : Waiting) : MemOut × State × List Ev :=
  s.under w.req.part.val w.tables fun s =>
    match w.change with
    | none => s.readLine w.req
    | some c => s.changeLine w.req c

/-- The channel at which a request is served, where one serves it now: it is the first copy's, and neither held nor copying the page, and
the region is not suspect. -/
def State.channelOf (s : State) (w : Waiting) : Option Nat :=
  let p := w.req.part.val
  let a := w.req.addr.toNat / 64 * 64
  let s := match w.tables with
    | some (rs, ws) => s.modPart p fun q => { q with regions := rs, windows := ws }
    | none => s
  match s.resolve p w.req.epoch.toNat a with
  | .layout l _ =>
    match s.copies p l a with
    | [] => none
    | b :: bs => if (b :: bs).any s.busyAt || (s.part p).suspectAt a then none else some b.1
  | _ => none

/-! ### Priority (Table 11-2) -/

/-- The latency target of a request at a channel, in ns: 0 for none (R327, Table 11-4). -/
def State.targetOf (s : State) (ch : Nat) (w : Waiting) : Nat := 20 * (s.slot ch w.req.part).targets.getD w.req.cls.toNat 0

/-- The age of a request (R327). -/
def State.ageOf (s : State) (w : Waiting) : Nat := s.ltime - w.arrived

/-- The priority of a request at a channel (Table 11-2). -/
def State.priority (s : State) (ch : Nat) (w : Waiting) : Nat :=
  let target := s.targetOf ch w
  let rise := if target = 0 then 0 else min 3 (4 * s.ageOf w / target)
  if w.req.cls = 7 then (if (s.channel ch).recovUsed < 64 * s.recov ch then 8 else rise)
  else if 0 < (s.slot ch w.req.part).account then 4 + rise
  else rise

/-- Whether `x` is served before `w` at a channel (R328): of higher priority; of equal priority and older; of equal age and of the lower
partition, a partition served last at that priority coming after the others. -/
def State.before (s : State) (ch : Nat) (x w : Waiting) : Bool :=
  let px := s.priority ch x
  let pw := s.priority ch w
  let last (y : Waiting) : Bool := Tbl.find (s.channel ch).lastAt px == some y.req.part.val
  let rank (y : Waiting) : Nat := (if last y then 48 else 0) + y.req.part.val
  decide (pw < px) || (px == pw && (decide (x.arrived < w.arrived) || (x.arrived == w.arrived && decide (rank x < rank w))))

/-- The waiting requests that the controller of `w` serves before it. -/
def State.ahead (s : State) (w : Waiting) : List Waiting :=
  match s.channelOf w with
  | none => []
  | some ch => s.waiting.filter fun x => x != w && x.applied.isNone && s.wants x && s.channelOf x == some ch && s.before ch x w

/-- The first of some requests at a channel. -/
def State.firstOf (s : State) (ch : Nat) : List Waiting → Option Waiting
  | [] => none
  | w :: ws =>
    match State.firstOf s ch ws with
    | none => some w
    | some x => if s.before ch x w then some x else some w

/-- A request has been served at channel `ch` with priority `n`: it leaves the list, and the controller notes the partition served last,
what label 7 has used, and a completion later than its target (R328, R330). -/
def State.noteServed (s : State) (w : Waiting) (ch n : Nat) (bytes : Nat) : State :=
  let p := w.req.part.val
  let target := s.targetOf ch w
  let late := decide (0 < target ∧ target < s.ageOf w)
  s.modChannel ch fun k => { k with
    lastAt := Tbl.set k.lastAt n p
    recovUsed := if w.req.cls = 7 then k.recovUsed + bytes else k.recovUsed
    late := if late then insertSorted p k.late else k.late }

/-- Bytes that serving a request has charged to its partition at a channel. -/
def State.charged (s t : State) (ch p : Nat) : Nat := ((s.slot ch p).account - (t.slot ch p).account).toNat

/-- A request that stood in state `s` has been served, which left `t`: it waits no more, and its channel notes it. -/
def State.taken (s : State) (w : Waiting) (t : State) : State :=
  let t := if t.waiting.isEmpty then t else { t with waiting := t.waiting.filter fun x => x ≠ w }
  match s.channelOf w with
  | some ch => t.noteServed w ch (s.priority ch w) (s.charged t ch w.req.part)
  | none => t

/-! ### Write-through to a source on another module (R268, R269) -/

/-- The context of a job on a member, on this module. -/
def State.jobCtxAt (s : State) (forme job member : Nat) : Option Nat :=
  ((s.jobCtxs forme job).find? fun e => decide (e.2.member = member)).map fun e => e.1

/-- The anchor context of a partition's resident image, for which what belongs to no context is read (R268, R286): the context on member 0 of a
job that runs the image, or where member 0 is elsewhere that job's context here (assumption 137). -/
def State.partCtx (s : State) (p : Nat) : Nat :=
  let mine := s.ctxs.filter fun e => e.2.state != .free && decide (e.2.part = p)
  let image := (s.part p).residency.map fun r => r.digest
  let runs (e : Nat × Context) : Bool := image.isSome && ((s.job e.2.forme e.2.job).bind fun j => j.digest) == image
  match (mine.find? runs).or mine.head? with
  | some e => (s.jobCtxAt e.2.forme e.2.job 0).getD e.1
  | none => 0

/-- The context for which a block that moves between modules is carried: none where it is copied as stored; the owner of its allocation, or the
anchor context, where it is re-keyed, a PARTITION or CONTEXT key selecting it (R268). -/
def State.pullCtx (s : State) (p a : Nat) : Option Nat :=
  let h := (s.selectKey p a).handle
  if h ≤ 0x31 ∨ h = 0x03F then
    match (s.part p).allocOf a with
    | some e => some (if e.ctx = 0 then s.partCtx p else e.ctx)
    | none => some (s.partCtx p)
  else none

/-- A line of a block as plaintext, where its controller holds it as such, and as stored otherwise. -/
def Block.plain (b : Block) (i : Nat) : BitVec 512 :=
  match b.sealedBy, Tbl.find b.filled i with
  | some _, _ => Tbl.get 0 b.lines i
  | none, some v => v
  | none, none => b.stored i

/-- The line at `a` is written through to the source page on another module, in a WRITE of class 7: as stored, or as plaintext under the seal of
its pull where the block is re-keyed. Answers the tag. -/
def State.sendThrough (s : State) (p a : Nat) : Nat × State :=
  let q := s.part p
  match q.movedFrom, s.locIn q.lay a with
  | some (mod, _), some b =>
    let n := s.pullCtx p a
    let line := if n.isSome then (s.blockAt b).plain ((a / 64) % 8) else (s.blockAt b).stored ((a / 64) % 8)
    let k := s.takeTag 0
    let s := { k.2 with peerOut := k.2.peerOut ++ [(⟨0, k.1, mod, q.forme, q.member, (s.epochOf p).toNat, .through p a, k.2.ltime⟩ : PeerOut)] }
    (k.1, s.sendPacket (n.getD 0) { s.packet PT.write mod with
      cls := 7, epoch := s.epochOf p, formeId := BitVec.ofNat 32 q.forme, member := BitVec.ofNat 16 q.member, tag := BitVec.ofNat 16 k.1,
      addr := BitVec.ofNat 40 a, len := 1, lines := [line] })
  | _, _ => (0, s)

/-- Where a line is to be written through to another module, the write-through leaves: the tag of its acknowledgement stands in the answer. -/
def State.through (s : State) (far : Bool) (r : MemReq) (o : MemOut) : MemOut × State :=
  if far then
    let t := s.sendThrough r.part.val (r.addr.toNat / 64 * 64)
    ({ o with tag := some t.1 }, t.2)
  else (o, s)

/-- Whether an answer tells of a line that is to be written through to another module. -/
def State.goesThrough (s : State) (r : MemReq) (o : MemOut) : Bool := o.stored && s.farSource r.part.val

/-- A change of a line by a transfer that waits for nothing. -/
def State.changeNow (s : State) (r : MemReq) (c : Change512) : State × List Ev :=
  let o := s.changeLine r c
  ((o.2.1.through (s.goesThrough r o.1) r o.1).2, o.2.2)

/-- Write lines from address `a`. -/
def State.writeLines (s : State) (who : Principal) (p die : Nat) : Nat → List (BitVec 512) → State × List Ev
  | _, [] => (s, [])
  | a, v :: vs =>
    let r := s.changeNow (s.reqAt who p a die) (.write v)
    let t := State.writeLines r.1 who p die (a + 64) vs
    (t.1, r.2 ++ t.2)

/-- Serve a request whose turn it is: one that cannot be served waits, and so does a change that its source has still to acknowledge (R269). -/
def State.turn (s : State) (w : Waiting) : MemOut × State × List Ev :=
  let o := s.serve w
  if o.1.status = .hold then (o.1, o.2.1.wait w, o.2.2)
  else
    let far := s.goesThrough w.req o.1
    let t := (s.taken w o.2.1).through far w.req o.1
    if far && w.unit != .none then
      ({ status := .hold }, { t.2 with waiting := t.2.waiting ++ [{ w with applied := some t.1 }] }, o.2.2)
    else (t.1, t.2, o.2.2)

/-! ### Answers to requests that rows name -/

/-- A status as the model's record of what left the block shows it. -/
def MemStatus.code : MemStatus → Nat
  | .ok => 0 | .poison => 1 | .nokey => 2 | .deadkey => 3 | .refused => 4 | .mapEpoch => 5 | .range => 6 | .ended => 7
  | .hold => 8

/-- Whether an answer carries the line: that of a read or of CAS. -/
def Waiting.withData (w : Waiting) : Bool :=
  match w.change with
  | none => true
  | some (.op _ o _ _) => o == .cas
  | some (.write _) => false

/-- The answer to a request that a row names leaves the block; an acknowledgement of an operation may mark the epoch of the requester's job
impure (R364). Nothing leaves for one that waits. -/
def State.answerRow (s : State) (w : Waiting) (o : MemOut) : State :=
  if o.status = .hold then s
  else
    let s := s.send (.line w.req.part.val (w.req.addr.toNat / 64 * 64) o.status.code (if w.withData then o.data else 0))
    match w.change, ctxOf w.req.who with
    | some (.op _ _ _ _), some n => if o.status = .ok ∨ o.status = .poison then s.opAcked n o.epochBit else s
    | _, _ => s

/-- An answer that waited for its write-throughs leaves. -/
def State.releaseAck (s : State) (k : LateAck) : State :=
  let s := match k.packet with
    | some p => s.sendAnswer k.handle p
    | none => s
  match k.conn with
  | some (n, plane, pseq) => s.emit (.rdmaAck n plane pseq)
  | none => s

/-- The source has acknowledged the line of a tag, or cannot any more (R269): a unit's change has its answer, those of rows and of packets
leave. -/
def State.throughDone (s : State) (tag : Nat) : State :=
  let acked (w : Waiting) : Bool := w.applied.any fun o => o.tag == some tag
  let row (w : Waiting) : Bool := acked w && w.unit == ReqUnit.row
  let clear (w : Waiting) : Waiting := if acked w then { w with applied := w.applied.map fun (o : MemOut) => { o with tag := none } } else w
  let less (k : LateAck) : LateAck := { k with tags := k.tags.filter fun t => t ≠ tag }
  let late := s.lateAcks.map less
  let rows := s.waiting.filter row
  let s := { s with
    waiting := (s.waiting.filter fun w => !row w).map clear
    lateAcks := late.filter fun k => !k.tags.isEmpty }
  let s := rows.foldl (fun (s : State) w => match w.applied with
    | some o => s.answerRow w o
    | none => s) s
  (late.filter fun k => k.tags.isEmpty).foldl (fun s k => s.releaseAck k) s

/-- Serve the requests of rows that go before `w`, in their order. -/
def State.serveAhead (s : State) (w : Waiting) : Nat → State × List Ev
  | 0 => (s, [])
  | n + 1 =>
    match s.channelOf w with
    | none => (s, [])
    | some ch =>
      match s.firstOf ch (s.ahead w) with
      | none => (s, [])
      | some x =>
        if x.unit = .row then
          let o := s.turn x
          let t := State.serveAhead (o.2.1.answerRow x o.1) w n
          (t.1, o.2.2 ++ t.2)
        else (s, [])

/-- Serve the requests of rows that wait at a channel, in their order, until the turn of another unit. -/
def State.serveRows (s : State) (ch : Nat) : Nat → State
  | 0 => s
  | n + 1 =>
    match s.firstOf ch (s.waiting.filter fun x => x.applied.isNone && s.wants x && s.channelOf x == some ch) with
    | none => s
    | some x =>
      if x.unit = .row then
        let o := s.turn x
        State.serveRows ((o.2.1.settle o.2.2).answerRow x o.1) ch n
      else s

/-- A unit asks for a line (R328): requests of rows that go before its own are served first, and where a request of another unit does, it
waits for that unit. A change that has been applied is answered once its source has acknowledged it (R269). -/
def State.ask (s : State) (r : MemReq) (c : Option Change512) (u : ReqUnit) : MemOut × State × List Ev :=
  let w := s.asked r c u
  match w.applied with
  | some o => if o.tag.isSome then ({ status := .hold }, s, []) else (o, { s with waiting := s.waiting.filter fun x => x ≠ w }, [])
  | none =>
    let a := s.serveAhead w s.waiting.length
    if (a.1.ahead w).isEmpty then
      let o := a.1.turn w
      (o.1, o.2.1, a.2 ++ o.2.2)
    else ({ status := .hold }, a.1.wait w, a.2)

/-- A unit's read of a line. -/
def State.askRead (s : State) (r : MemReq) (u : ReqUnit) : MemOut × State × List Ev := s.ask r none u

/-- A unit's plain write of a line. -/
def State.askWrite (s : State) (r : MemReq) (v : BitVec 512) (u : ReqUnit) : MemOut × State × List Ev := s.ask r (some (.write v)) u

/-- A unit's memory-side operation on a line, named by its MOP; the operand of CAS takes both halves. -/
def State.askOp (s : State) (r : MemReq) (mop : Nat) (opd : BitVec 1024) (u : ReqUnit) : MemOut × State × List Ev :=
  match mopDecode mop with
  | some (o, t) => s.ask r (some (.op mop o t opd)) u
  | none => ({ status := .refused }, s, [])

/-- Ask for lines one after another: their answers in order. -/
def State.askReads (s : State) (q : Nat → MemReq) : List Nat → List MemOut × State × List Ev
  | [] => ([], s, [])
  | l :: ls =>
    let r := s.askRead (q l) .none
    let t := State.askReads r.2.1 q ls
    (r.1 :: t.1, t.2.1, r.2.2 ++ t.2.2)

/-- A request of a move unit or a stream engine of cluster `g` is counted where its label was demoted, once (R324). -/
def State.demote (s : State) (g : Nat) (cls : BitVec 3) (r : MemReq) (u : ReqUnit) : State :=
  if s.waiting.any fun w => w.unit == u && w.req.addr.toNat / 64 == r.addr.toNat / 64 then s else s.countDemote g cls

/-- Whether a request waits at a channel that is held for a reset (R183). -/
def State.heldAt (s : State) (w : Waiting) : Bool :=
  match s.resolve w.req.part w.req.epoch.toNat (w.req.addr.toNat / 64 * 64) with
  | .layout l _ => (s.copies w.req.part l (w.req.addr.toNat / 64 * 64)).any fun b => (s.channel b.1).held
  | _ => false

/-- Whether a request of a unit waits at a held channel: no row of Table 12-5 applies to it (R183). -/
def State.parked (s : State) (u : ReqUnit) : Bool := s.waiting.any fun w => w.unit == u && w.applied.isNone && s.heldAt w

/-- What waits at a channel for a partition at the end of a window (R330): a request that it does not serve yet. -/
def State.waitsAt (s : State) (ch p : Nat) : Bool :=
  s.waiting.any fun w => w.req.part.val == p && w.applied.isNone && s.wants w && (match s.resolve p w.req.epoch.toNat (w.req.addr.toNat / 64 * 64) with
    | .layout l _ =>
      match s.copies p l (w.req.addr.toNat / 64 * 64) with
      | b :: _ => b.1 == ch
      | [] => false
    | _ => false)

end Sys2Proof.Machine
end

