-- ==== Sys2Proof/Machine/Controllers.lean ====
section
/-! DEFINITION. The meanings of the rows of the HBM channels: requests of masters outside the cores and streams, write-back,
scrub, relocation and interface errors (chapter 07). -/

namespace Sys2Proof.Machine

/-- A request that a row names: what it brings about is settled, and its answer leaves. -/
def State.rowRequest (s : State) (r : MemReq) (c : Option Change512) : State :=
  let t := s.ask r c .row
  (t.2.1.settle t.2.2).answerRow (s.asked r c .row) t.1

/-- CHANNEL_READ (R187). -/
def State.channelRead (s : State) (r : MemReq) : State := s.rowRequest r none

/-- CHANNEL_WRITE (R187). -/
def State.channelWrite (s : State) (r : MemReq) (v : BitVec 512) : State := s.rowRequest r (some (.write v))

/-- MEMORY_SIDE_OPERATION (R201): a MOP that is reserved, or CAS, is no request of this row. -/
def State.memorySideOperation (s : State) (r : MemReq) (mop : Nat) (opd : BitVec 512) : State :=
  match mopDecode mop with
  | some (o, t) => if o = .cas then s else s.rowRequest r (some (.op mop o t (opd.zeroExtend 1024)))
  | none => s

/-- CAS (R202): the old line is returned. -/
def State.casRequest (s : State) (r : MemReq) (opd : BitVec 1024) : State := s.rowRequest r (some (.op 0x78 .cas .b64 opd))

/-- BLOCK_WRITEBACK (R187). -/
def State.blockWriteback (s : State) (ch blk : Nat) : State :=
  if (s.blockAt (ch, blk)).buffered then s.modBlock (ch, blk) Block.writeBack else s

/-! ### Patrol scrub (R206, R208) -/

/-- The other copy of the block at address `a` of partition `p`, if its region is mirrored: whether the address is the
primary's, and the other copy's place. -/
def State.otherCopy (s : State) (p a : Nat) : Option (Bool × Nat × Loc) :=
  let q := s.part p
  match q.regionOf a with
  | some r =>
    if r.mirror then (s.locIn q.lay (a - r.base + r.mbase)).map fun b => (true, a, b) else none
  | none =>
    match q.secondaryOf a with
    | some r => (s.locIn q.lay (a - r.mbase + r.base)).map fun b => (false, a - r.mbase + r.base, b)
    | none => none

/-- The scrub of one block, buffered, fresh or neither: `home` is its partition and address, if it serves one. The copies of a mirrored
block are compared. -/
def State.scrubBlock (s : State) (b : Loc) (home : Option (Nat × Nat)) : State × List Ev :=
  let k := s.blockAt b
  let s := (s.countErrors b k.corr k.uncorr).modBlock b Block.correct
  let other := match home with
    | some (p, a) => (s.otherCopy p a).map fun o => (p, o)
    | none => none
  let s := match other with
    | some (p, prim, a, o) =>
      if (s.channel o.1).fenced then (if k.uncorr then s.poison b else s)
      else
        let d := s.blockAt o
        if k.uncorr && !d.uncorr && !d.poison then s.repair p a o b
        else if k.uncorr then s.poison b
        else if !k.poison && !d.poison && !d.uncorr && !s.freshAt b && !s.freshAt o && differ k d then
          (s.diverge p a (if prim then b else o) (if prim then o else b)).2
        else s
    | none => if k.uncorr then s.poison b else s
  s.thresholds b.1 (b.2 / 8)

/-- Blocks and tag lines of a channel, which the scrub reads one after another: first the blocks, then the tag line of each page. -/
def scrubPlaces : Nat := channelPages * 9

/-- PATROL_SCRUB (R208): the next block or tag line of the channel. -/
def State.patrolScrub (s : State) (ch : Nat) : State :=
  let k := s.channel ch
  if k.fenced ∨ k.held then s
  else
    let n := k.scrubPos % scrubPlaces
    let s := s.modChannel ch fun k => { k with scrubPos := (n + 1) % scrubPlaces }
    let r := if n < channelPages * 8 then s.scrubBlock (ch, n) ((s.servedBy ch (n / 8)).map fun e => (e.1, e.2 + (n % 8) * 512))
      else (s.checkTags ch (n - channelPages * 8)).thresholds ch (n - channelPages * 8)
    r.1.settle r.2

/-! ### Relocation and interface errors (R209, R210) -/

/-- PAGE_RELOCATION_DONE (R210): the page's contents stand at the new page, with corrected data. -/
def State.relocationDone (s : State) (ch page : Nat) : State :=
  let k := s.channel ch
  match k.copying.find? fun e => e.1 == page with
  | none => s
  | some (_, t) =>
    let fresh := k.fresh page
    let s := (rangeFrom 0 8).foldl (fun s i =>
      let b := s.blockAt (ch, page * 8 + i)
      s.modBlock (ch, t * 8 + i) fun _ => b.correct) s
    s.modChannel ch fun k => { (k.setFresh t fresh) with
      copying := k.copying.filter fun e => e.1 ≠ page
      reloc :=
        if k.reloc.any (fun e => e.2 == page) then k.reloc.map fun e => if e.2 = page then (e.1, t) else e
        else k.reloc ++ [(page, t)] }

/-- CHANNEL_INTERFACE_ERROR (R209): the channel is retrained once, and fenced off when the error repeats. -/
def State.interfaceError (s : State) (ch : Nat) : State :=
  let k := s.channel ch
  if k.fenced then s
  else if k.ifErrors = 0 then s.modChannel ch fun k => { k with ifErrors := 1 }
  else
    let r := s.fenceChannel ch 5
    r.1.settle r.2

end Sys2Proof.Machine
end

