-- ==== Sys2Proof/Machine/VectorForm.lean ====
section
/-! DEFINITION. The data types, modifiers and registers that a vector slot may name (R68, R128, R130, R137). -/

namespace Sys2Proof.Machine

/-- Elements of a type in one register (Table 05-1). -/
def elemCount (dt : Nat) : Option Nat :=
  if dt = 0x0 ∨ dt = 0xA then some 1024
  else if dt = 0x1 ∨ dt = 0x2 then some 2048
  else if dt = 0x8 then some 4096
  else none

/-- The base-2 logarithm of the element count. -/
def elemLog (dt : Nat) : Nat :=
  if dt = 0x0 ∨ dt = 0xA then 10 else if dt = 0x1 ∨ dt = 0x2 then 11 else 12

/-- FP32, BF16 or FP16. -/
def dtFloat (dt : Nat) : Bool := decide (dt ≤ 2)
/-- INT8 or INT32. -/
def dtInt (dt : Nat) : Bool := dt == 0x8 || dt == 0xA

/-- Whether an opcode accepts a data type (Table 05-1, R143). -/
def VecOp.accepts (op : VecOp) (dt : Nat) : Bool :=
  match op with
  | .viadd | .visub | .vimul | .vand | .vor | .vxor | .vshl | .vshr | .vsar | .vimax => dtInt dt
  | .vcmp | .vrsumx | .vsel | .vbcast | .vtrans | .vshuf => dtFloat dt || dtInt dt
  | .vperm => dtFloat dt || dt == 0xA
  | .vcvt => decide (dt ≤ 0xA)
  | .vquant => decide (3 ≤ dt ∧ dt ≤ 7)
  | .vscale32 | .vld | .vst | .vlds | .vsts => dt == 0
  | _ => dtFloat dt

/-- Whether a rounding code of VCVT and VQUANT agrees with VC (R137); 3 is reserved. -/
def roundingOk (r vc : Nat) : Bool :=
  if r = 1 then decide (vc ≤ 30) else decide (r ≠ 3) && decide (vc = 0)

/-- Whether the modifier, and VB and VC where they bear on it, are defined (Table 05-2, R68, R137). -/
def VecOp.modOk (op : VecOp) (dt m vb vc : Nat) : Bool :=
  match op with
  | .vmin | .vmax | .vgelu | .vimax => decide (m < 2)
  | .vshl | .vshr | .vsar => bits m 20 6 == 0
  | .vcmp => decide (m < 8)
  | .vcvt => decide (m < 2 ^ 7) && decide (bits m 3 0 ≤ 0xA) && roundingOk (bits m 6 5) vc
  | .vrsum | .vrmax | .vrmin | .vramax => decide (m ≤ elemLog dt)
  | .vscan => decide (m < 2 ^ 5) && decide (bits m 3 0 ≤ elemLog dt)
  | .vrsumx => decide (m < 2 ^ 21) && decide (bits m 19 16 ≤ elemLog dt) && decide (elemLog dt ≤ bits m 19 16 + 8)
  | .vbcast | .vtrans => decide (m ≤ elemLog dt)
  | .vshuf => decide (m < 4)
  | .vscale32 => decide (m < 2 ^ 5) && decide (3 ≤ bits m 3 0 ∧ bits m 3 0 ≤ 7)
  | .vquant => decide (m < 2 ^ 6) && decide (bits m 3 0 ≤ 2) && roundingOk (bits m 5 4) vc
  | .vld | .vst => vb == 0 && vc == 0
  | .vlds | .vsts => vc == 0
  | _ => decide (m = 0)

/-- The decoding fault of a vector slot that is not NOP, if any (R50). -/
def vecSlotFault (w : Nat) : Option Nat :=
  match vecOp w with
  | none => some FaultCode.illegalOp
  | some op =>
    let dt := bits w 25 22
    if op.accepts dt && op.modOk dt (bits w 21 0) (bits w 35 31) (bits w 30 26) then none
    else some FaultCode.reservedNonzero

end Sys2Proof.Machine
end

