-- ==== Sys2Proof/Machine/Issue.lean ====
section
/-! DEFINITION. What may issue and start: the decoding checks of a bundle and the room of its queues (R42, R48, R50), which matrix instructions
overlap (R108), and which issuer a token goes to (R53). -/

namespace Sys2Proof.Machine

/-! ### Bundles -/

/-- The four slots of a bundle (Table 02-1). -/
def slotOf (b : Word256) (i : Nat) : Nat := (b.toNat / 2 ^ (64 * i)) % 2 ^ 64

/-- The decoding fault of a control slot. -/
def ctlSlotFault (w : Nat) : Option Nat :=
  match ctlDecode w with
  | none => some FaultCode.illegalOp
  | some (f, op) => if f.clean w && op.clean then none else some FaultCode.reservedNonzero

/-- The decoding fault of an engine slot: a NOP must be zero in every other bit (R48). -/
def engineSlotFault (w : Nat) (f : Nat → Option Nat) : Option Nat :=
  if slotOp w = 0 then (if w = 0 then none else some FaultCode.reservedNonzero) else f w

/-- The decoding fault of a matrix slot that is not NOP. -/
def matrixSlotFault (w : Nat) : Option Nat :=
  match matrixOp w with
  | none => some FaultCode.illegalOp
  | some _ => if bits w 26 0 = 0 then none else some FaultCode.reservedNonzero

/-- The decoding fault of a move slot that is not NOP (R69). -/
def moveSlotFault (w : Nat) : Option Nat :=
  match moveOp w with
  | none => some FaultCode.illegalOp
  | some op =>
    if bits w 15 0 = 0 ∧ (op = .mpamo ∨ bits w 23 16 = 0) then none else some FaultCode.reservedNonzero

/-- The first decoding fault of a bundle, in the order control, matrix, vector, move, with its slot (R50). -/
def bundleFault (b : Word256) : Option (Nat × Nat) :=
  match ctlSlotFault (slotOf b 0) with
  | some c => some (c, 0)
  | none =>
  match engineSlotFault (slotOf b 1) matrixSlotFault with
  | some c => some (c, 1)
  | none =>
  match engineSlotFault (slotOf b 2) vecSlotFault with
  | some c => some (c, 2)
  | none =>
  match engineSlotFault (slotOf b 3) moveSlotFault with
  | some c => some (c, 3)
  | none => none

/-- Whether a queue of `depth` places has a free one: the instructions that execute, `executing` of them, have left it. -/
def hasRoom (len depth executing : Nat) : Bool := decide (len - executing < depth)

/-- Whether every engine whose slot is not NOP has a free entry (R42). -/
def Core.roomFor (k : Core) (b : Word256) : Bool :=
  (slotOf b 1 == 0 || hasRoom k.mq.length 32 k.mrun.length) &&
  (slotOf b 2 == 0 || hasRoom k.vq.length 64 (b2n k.vrun.isSome)) &&
  (slotOf b 3 == 0 || hasRoom k.xq.length 32 (b2n k.xrun.isSome))

/-! ### The overlap of matrix instructions (R108) -/

/-- MMA or MMAZ. -/
def MatrixOp.isMul (op : MatrixOp) : Bool := op == .mma || op == .mmaz

/-- The arrays that a C tile occupies (R85). -/
def tileArrays (d : Desc) : List Nat :=
  (if d.rows = 0 ∨ d.cols = 0 then [] else [0]) ++ (if 128 < d.cols then [1] else []) ++ (if 128 < d.rows then [2] else []) ++
    (if 128 < d.rows ∧ 128 < d.cols then [3] else [])

/-- What two multiplications in a run agree in (R108): the pair of formats, SCALED and the quadrants occupied. -/
def MatrixEntry.shape (e : MatrixEntry) : (Nat × Nat) × (Bool × Bool) × List Nat :=
  ((((Desc.of e.tda).fmt, (Desc.of e.tdb).fmt)), ((Desc.of e.tda).isScaled, (Desc.of e.tdb).isScaled), tileArrays (Desc.of e.tdc))

/-- Whether an entry names an exact accumulator: by MODE, or ACCZ of one that core `k` holds. -/
def MatrixEntry.isExact (e : MatrixEntry) (k : Core) : Bool :=
  if e.op = .accz then (Tbl.get Acc.reset k.acc e.acc.val).cls == .exact else (Desc.of e.tdc).mode == 1

/-- The accumulator numbers that an entry names. -/
def MatrixEntry.nums (e : MatrixEntry) (k : Core) : List Nat := rangeFrom e.acc.val (if e.isExact k then 4 else 1)

/-- Whether two entries name no number in common. -/
def MatrixEntry.apart (p e : MatrixEntry) (k : Core) : Bool := (p.nums k).all fun n => !(e.nums k).contains n

/-- Whether entry `e` may start while `p`, before it in the queue, executes (R108). DEDUCED (assumption 114): a pair that R108 does not list as
overlapping runs one after the other. -/
def MatrixEntry.overlaps (p e : MatrixEntry) (k : Core) : Bool :=
  if p.op.isMul && e.op.isMul then p.shape == e.shape && (p.apart e k || (p.acc == e.acc && p.isExact k == e.isExact k))
  else p.apart e k && ((p.op.isMul && !e.op.isMul) || (e.op.isMul && (p.op == .accst || p.op == .accld)))

/-- The next matrix instruction to start, if every one that executes lets it. -/
def Core.matrixNext (k : Core) : Option MatrixEntry :=
  match k.mq.drop k.mrun.length with
  | e :: _ => if (k.mq.take k.mrun.length).all fun p => p.overlaps e k then some e else none
  | [] => none

/-! ### Which issuer a token goes to (R53) -/

/-- The token that the control unit waits on: its next bundle would issue but for that. -/
def Core.ctlAwaits (k : Core) : Option (Fin 16) :=
  let b := Tbl.get 0 k.imem k.pc
  if k.ctl == .running && decide (k.pc < k.codeLen) && !k.imemBad.contains k.pc && (bundleFault b).isNone && k.roomFor b then
    (slotHdr (slotOf b 0)).wait
  else none

/-- The token that the instruction which an engine would start next waits on. -/
def Core.awaits (k : Core) : EngineKind → Option (Fin 16)
  | .matrix => k.matrixNext.bind fun e => e.hdr.wait
  | .vector => if k.vrun.isSome then none else k.vq.head?.bind fun e => e.hdr.wait
  | .move => if k.xrun.isSome || k.xmove.isSome then none else k.xq.head?.bind fun e => e.hdr.wait

/-- The tokens that the issuers before an engine, in the order control, matrix, vector, move, wait on. -/
def Core.ahead (k : Core) : EngineKind → List (Option (Fin 16))
  | .matrix => [k.ctlAwaits]
  | .vector => [k.ctlAwaits, k.awaits .matrix]
  | .move => [k.ctlAwaits, k.awaits .matrix, k.awaits .vector]

/-- Whether the wait of an instruction that engine `g` would start is granted: its token serves every issuer before the engine that waits on
it, and one more (R53). -/
def Core.grants (k : Core) (g : EngineKind) (h : Hdr) : Bool :=
  match h.wait with
  | none => true
  | some t => decide (((k.ahead g).filter fun w => w == some t).length < k.token t)

end Sys2Proof.Machine
end

