-- ==== Sys2Proof/Machine/Matrix.lean ====
section
/-! DEFINITION. The matrix unit: MMA, MMAZ, ACCST, ACCLD and ACCZ at the head of the matrix queue (R66, R67, R85 to R105,
R116 to R121). -/

namespace Sys2Proof.Machine

/-! ### Engines of a core -/

/-- Poison, double-bit and single-bit errors under a list of ranges (address, bytes). -/
def Core.anyPoison (k : Core) (rs : List (Nat × Nat)) : Bool := rs.any fun r => k.poisoned r.1 r.2
/-- Whether a read of any of the ranges meets a double-bit error (R72). -/
def Core.anyDouble (k : Core) (rs : List (Nat × Nat)) : Bool := rs.any fun r => k.lmDouble r.1 r.2
/-- Whether a read of any of the ranges corrects an error (R72). -/
def Core.anySingle (k : Core) (rs : List (Nat × Nat)) : Bool := rs.any fun r => k.lmSingle r.1 r.2
/-- Reads of the ranges have corrected their single-bit errors. -/
def Core.correctAll (k : Core) (rs : List (Nat × Nat)) : Core := rs.foldl (fun k r => k.lmCorrect r.1 r.2) k

/-- What an engine's instruction gives: a core fault, a hold on a poison-marked granule, or the new core and the flags that
its completion point sets. -/
inductive Engine where
  | fault (code : Nat)
  | hold
  | done (k : Core) (fl : BitVec 7)
deriving DecidableEq, Repr

/-- An instruction that reads the ranges `rs` of local memory and then acts by `f`. -/
def Engine.reading (k : Core) (rs : List (Nat × Nat)) (f : Core → Core × BitVec 7) : Engine :=
  if k.anyPoison rs then .hold
  else if k.anyDouble rs then .fault FaultCode.lmUncorr
  else
    let r := f (k.correctAll rs)
    .done r.1 (r.2 ||| flagIf (k.anySingle rs) flLmCorr)

/-! ### Tiles (R75, R93) -/

/-- The ranges of a tile's lines. -/
def Desc.ranges (d : Desc) (f : Fmt) : List (Nat × Nat) :=
  (rangeFrom 0 d.lines).map fun l => (d.base + l * d.rstride, d.lineBytes f)

/-- The range of a descriptor's scales, `n` groups along K for each of `lines` lines (R75). -/
def Desc.scaleRange (d : Desc) (groups lines : Nat) : List (Nat × Nat) :=
  if d.isScaled then [(d.scaleBase, groups * lines)] else []

/-- The bits of an element: element `j` of line `l` (R93). -/
def Desc.raw (d : Desc) (f : Fmt) (lm : Mem) (l j : Nat) : Nat :=
  let p := j * f.bits
  (Mem.readLE lm (d.base + l * d.rstride + p / 8) (f.bits / 8 + 2) / 2 ^ (p % 8)) % 2 ^ f.bits

/-- The bits of the element of row `r` and column `c`. -/
def Desc.elem (d : Desc) (f : Fmt) (lm : Mem) (r c : Nat) : Nat :=
  if d.layout = 0 then d.raw f lm r c else d.raw f lm c r

/-- The format of a valid descriptor. -/
def Desc.format (d : Desc) : Fmt := (Fmt.ofCode d.fmt).getD .fp32

/-! ### Accumulators (R87 to R90) -/

/-- Accumulator number `a`. -/
def Core.accu (k : Core) (a : Nat) : Acc := Tbl.get Acc.reset k.acc a

/-- Write an accumulator, or an exact one with the three numbers after it; earlier bit errors there are gone. -/
def Core.setAcc (k : Core) (a : Nat) (x : Acc) : Core :=
  let nums := if x.cls = .exact then [a, a + 1, a + 2, a + 3] else [a]
  let acc := Tbl.set k.acc a x
  let acc := if x.cls = .exact then
      [1, 2, 3].foldl (fun t i => Tbl.set t (a + i) { Acc.reset with cls := .partOf a }) acc
    else acc
  { k with acc := acc,
           accBad1 := k.accBad1.filter fun e => !nums.contains e.1,
           accBad2 := k.accBad2.filter fun e => !nums.contains e.1 }

/-- The numbers that an accumulator takes. -/
def Core.accNums (k : Core) (a : Nat) : List Nat :=
  if (k.accu a).cls = .exact then [a, a + 1, a + 2, a + 3] else [a]

/-- Whether reading an accumulator meets a double-bit error (R90). -/
def Core.accDouble (k : Core) (a : Nat) : Bool := k.accBad2.any fun e => (k.accNums a).contains e.1

/-- Reading an accumulator has corrected and counted its single-bit errors (R90). -/
def Core.accCorrect (k : Core) (a : Nat) : Core :=
  let ns := k.accNums a
  { k with accCorr := min (k.accCorr + (k.accBad1.filter fun e => ns.contains e.1).length) (2 ^ 32 - 1),
           accBad1 := k.accBad1.filter fun e => !ns.contains e.1 }

/-- The accumulator check, step 1 of R67 (R66, R89). -/
def Core.accFault (k : Core) (op : MatrixOp) (a : Nat) (exact : Bool) : Bool :=
  let part := match (k.accu a).cls with
    | .partOf _ => true
    | _ => false
  let live := part || (k.accu a).cls == .exact
  match op with
  | .accz => part
  | .mma => if exact then a % 4 != 0 ||
        ((k.accu a).cls == .empty && [1, 2, 3].any fun i => (k.accu (a + i)).cls != .empty) else live
  | _ => if exact then a % 4 != 0 else live

/-- The list of an accumulator's elements, row by row, as its sparse table. -/
def elemTbl {n : Nat} (l : List (BitVec n)) : Tbl (BitVec n) :=
  (l.zipIdx.filter fun e => e.1 != 0).map fun e => (e.2, e.1)

/-- The same for special states. -/
def spTbl (l : List Nat) : Tbl Nat := (l.zipIdx.filter fun e => e.1 != 0).map fun e => (e.2, e.1)

/-- The indices of an m × n tile, row by row. -/
def tileIdx (m n : Nat) : List (Nat × Nat) :=
  ((rangeFrom 0 m).map fun i => (rangeFrom 0 n).map fun j => (i, j)).flatten

/-! ### Accepted pairs and outputs (R96, R97) -/

/-- Whether a format is a narrow float. -/
def Fmt.narrow (f : Fmt) : Bool := f.scalable

/-- The class of accumulator of a pair and mode: `none` where it is not accepted (Table 03-2). -/
def pairClass (a b : Fmt) (sa sb exact : Bool) : Option AccClass :=
  if sa != sb then none
  else if a.narrow && b.narrow then some (if exact then .exact else .float)
  else if sa then none
  else if a == b && (a == .bf16 || a == .fp16) then some (if exact then .exact else .float)
  else if a == .fp32 && b == .fp32 then (if exact then none else some .float)
  else if (a == .int8 || a == .int4) && (b == .int8 || b == .int4) then some (if exact then .exact else .int)
  else none

/-- Whether a class stores, or is loaded from, an output format (R97). -/
def AccClass.allows (c : AccClass) (f : Fmt) : Bool :=
  let flt := f == .fp32 || f == .bf16 || f == .fp16 || f == .e4m3 || f == .e5m2
  match c with
  | .float => flt
  | .int => f == .int32 || f == .int8
  | .exact => flt || f == .int8 || f == .wx128
  | _ => false

/-- The class that a TDC's format and MODE give (R105): `none` for WX128 outside exact mode. -/
def tdcClass (f : Fmt) (exact : Bool) : Option AccClass :=
  if exact then some .exact
  else if AccClass.float.allows f then some .float
  else if AccClass.int.allows f then some .int
  else none

/-! ### Group updates (R98 to R101, R117 to R119) -/

/-- The exact sum of finite values, in units of the smallest exponent. -/
def sumFinite (l : List (Bool × Nat × Int)) : Int × Int :=
  let e0 := l.foldl (fun (a : Int) x => min a x.2.2) (match l with
    | x :: _ => x.2.2
    | [] => 0)
  (l.foldl (fun (a : Int) x => a + scaledInt x.1 x.2.1 x.2.2 e0) 0, e0)

/-- The finite values of a list. -/
def finites (l : List FV) : List (Bool × Nat × Int) := l.filterMap fun v => match v with
  | .fin s m e => some (s, m, e)
  | _ => none

/-- A value times a power of two. -/
def FV.scale (x : Int) : FV → FV
  | .fin s m e => .fin s m (e + x)
  | v => v

/-- One group update of a float element (R98, R99): `sc` is the exponent of the two scales, `none` for a NaN scale. -/
def floatGroup (c : FV) (ps : List FV) (sc : Option Int) : FV :=
  match sc with
  | none => .nan false
  | some x =>
    let all := c :: ps.map (FV.scale x)
    if all.any FV.isNan then .nan false
    else
      let pos := all.any fun v => v == .inf false
      let neg := all.any fun v => v == .inf true
      if pos && neg then .nan false
      else if pos then .inf false
      else if neg then .inf true
      else
        let s := sumFinite (finites all)
        (FV.ofSum s.1 s.2 (all.all fun v => v.neg && v.isZero)).toFp32

/-- What the updates of an exact element gather: sums of positive and of negative entries, whether one clamped, and the
special state. -/
structure ExactSum where
  pos : Int
  neg : Int
  clamped : Bool
  sp : Nat
deriving DecidableEq, Repr

/-- Enter one value in the window (R116, R118). -/
def ExactSum.enter (wexp : Int) (x : ExactSum) (v : FV) : ExactSum :=
  match v with
  | .fin s m e =>
    let r := windowEntry wexp s m e
    { x with pos := x.pos + max r.1 0, neg := x.neg + min r.1 0, clamped := x.clamped || r.2 }
  | v => { x with sp := spNext x.sp v.event }

/-- Whether EX_SAT is certain after an exact element has gone from `old` by the entries gathered, and whether some order of
the additions could have wrapped (R119). -/
def ExactSum.sat (x : ExactSum) (old : Int) : Bool × Bool :=
  (x.clamped || wxOut (old + x.pos + x.neg), wxOut (old + x.pos) || wxOut (old + x.neg))

/-- The same for a VRSUMX, whose segment is summed by itself before its sum goes to `old` (R142): a wrap of the segment's sum may have been
undone by that addition. -/
def ExactSum.satSum (x : ExactSum) (old : Int) : Bool × Bool :=
  ((x.sat old).1, (x.sat old).2 || wxOut x.pos || wxOut x.neg)

/-! ### MMA and MMAZ -/

/-- The operands of an MMA: the two descriptors and their formats. -/
structure MmaIn where
  a : Desc
  b : Desc
  fa : Fmt
  fb : Fmt
deriving DecidableEq, Repr

/-- Products of row `i` and column `j` in group `g`, and the exponent of the scales. -/
def MmaIn.group (x : MmaIn) (lm : Mem) (i j g : Nat) : List FV × Option Int :=
  let ks := rangeFrom (32 * g) 32
  let ps := ks.map fun k => ((x.fa.decode (x.a.elem x.fa lm i k)).mul (x.fb.decode (x.b.elem x.fb lm k j))).1
  let kg := x.a.cols / 32
  let sc := if x.a.isScaled then
      match scaleExp (Mem.read lm (x.a.scaleBase + i * kg + g)).toNat,
            scaleExp (Mem.read lm (x.b.scaleBase + j * kg + g)).toNat with
      | some p, some q => some (p + q)
      | _, _ => none
    else some 0
  (ps, sc)

/-- A float element after every group, in increasing order of K (R98). -/
def MmaIn.floatElem (x : MmaIn) (lm : Mem) (i j : Nat) (c : BitVec 128) : BitVec 128 :=
  let v := (rangeFrom 0 (x.a.cols / 32)).foldl
    (fun v g => let r := x.group lm i j g; floatGroup v r.1 r.2) (Fmt.fp32.decode c.toNat)
  BitVec.ofNat 128 (Fmt.fp32.convert .nearest false v).1

/-- An integer element (R100). -/
def MmaIn.intElem (x : MmaIn) (lm : Mem) (i j : Nat) (c : BitVec 128) : BitVec 128 :=
  let v := (rangeFrom 0 (x.a.cols / 32)).foldl
    (fun v g => v + (sumFinite (finites (x.group lm i j g).1)).1) (toSigned 32 c.toNat)
  BitVec.ofNat 128 (ofSigned 32 v)

/-- What an exact element gathers over every group (R117). -/
def MmaIn.exactElem (x : MmaIn) (lm : Mem) (wexp : Int) (i j : Nat) (sp : Nat) : ExactSum :=
  (rangeFrom 0 (x.a.cols / 32)).foldl (fun z g =>
    let r := x.group lm i j g
    match r.2 with
    | none => { z with sp := spNan }
    | some q => r.1.foldl (fun z v => z.enter wexp (v.scale q)) z) ⟨0, 0, false, sp⟩

/-- The accumulator after an MMA or MMAZ, and its EX_SAT: certain, and possible. -/
def MmaIn.run (x : MmaIn) (lm : Mem) (cls : AccClass) (wexp : Int) (old : Acc) : Acc × Bool × Bool :=
  let m := x.a.rows
  let n := x.b.cols
  let idx := tileIdx m n
  let at0 (i j : Nat) : BitVec 128 := Tbl.get 0 old.elems (i * n + j)
  match cls with
  | .float => (⟨.float, m, n, 0, elemTbl (idx.map fun p => x.floatElem lm p.1 p.2 (at0 p.1 p.2)), []⟩, false, false)
  | .int => (⟨.int, m, n, 0, elemTbl (idx.map fun p => x.intElem lm p.1 p.2 (at0 p.1 p.2)), []⟩, false, false)
  | _ =>
    let rs := idx.map fun p =>
      (toSigned 128 (at0 p.1 p.2).toNat, x.exactElem lm wexp p.1 p.2 (Tbl.get 0 old.sp (p.1 * n + p.2)))
    (⟨.exact, m, n, wexp, elemTbl (rs.map fun r => BitVec.ofNat 128 (ofSigned 128 (r.1 + r.2.pos + r.2.neg))),
      spTbl (rs.map fun r => r.2.sp)⟩,
      rs.any fun r => (r.2.sat r.1).1, rs.any fun r => (r.2.sat r.1).2)

/-- The checks of steps 2 and 3 of R67 for an MMA or MMAZ: the class of accumulator. -/
def mmaClass (a b c : Desc) : Option AccClass :=
  if !(a.valid .a && b.valid .b && c.valid .c) then none
  else if a.rows ≠ c.rows ∨ a.cols ≠ b.rows ∨ b.cols ≠ c.cols ∨ a.cols % 32 ≠ 0 then none
  else if 256 < a.rows ∨ 256 < b.cols then none
  else
    match pairClass a.format b.format a.isScaled b.isScaled (c.mode == 1) with
    | some cls => if cls.allows c.format then some cls else none
    | none => none

/-- Whether a tag matches an instruction (R88). -/
def Acc.tagged (x : Acc) (cls : AccClass) (m n : Nat) (wexp : Int) : Bool :=
  x.cls == cls && x.m == m && x.n == n && (cls != .exact || x.wexp == wexp)

/-- What an MMA or MMAZ makes of the accumulator `old` with its operands in `lm`, and the flag that it raises. -/
def MatrixEntry.mulInto (e : MatrixEntry) (zero : Bool) (cls : AccClass) (lm : Mem) (old : Acc) (free : Bool) : Acc × BitVec 7 :=
  let a := Desc.of e.tda
  let b := Desc.of e.tdb
  let x : MmaIn := ⟨a, b, a.format, b.format⟩
  let r := x.run lm cls (Desc.of e.tdc).wexp (if zero || old.cls == .empty then Acc.reset else old)
  (r.1, flagIf (r.2.1 || (r.2.2 && free)) flExSat)

/-- The local ranges that a matrix instruction with valid descriptors reads. -/
def MatrixEntry.reads (e : MatrixEntry) : List (Nat × Nat) :=
  let a := Desc.of e.tda
  let b := Desc.of e.tdb
  let c := Desc.of e.tdc
  match e.op with
  | .mma | .mmaz => a.ranges a.format ++ b.ranges b.format ++ a.scaleRange (a.cols / 32) a.rows ++ b.scaleRange (a.cols / 32) b.cols
  | .accld => c.ranges c.format
  | _ => []

/-- MMA and MMAZ (R67, R88, R98 to R101, R117): `free` is the value of EX_SAT where the order of additions decides it. DEDUCED: the first
check takes a TDC as exact where its MODE is 1 and as normal otherwise, a reserved MODE being found by the second (assumption 115). -/
def matrixMul (k : Core) (e : MatrixEntry) (zero free : Bool) : Engine :=
  let a := Desc.of e.tda
  let b := Desc.of e.tdb
  let c := Desc.of e.tdc
  let exact := c.mode == 1
  let n := e.acc.val
  if k.accFault (if zero then .mmaz else .mma) n exact then .fault FaultCode.accInvalid
  else
    match mmaClass a b c with
    | none => .fault FaultCode.descInvalid
    | some cls =>
      let old := k.accu n
      let fresh := zero || old.cls == .empty
      if !fresh && !old.tagged cls c.rows c.cols c.wexp then .fault FaultCode.descInvalid
      else if !fresh && k.accDouble n then .fault FaultCode.lmUncorr
      else
        Engine.reading k e.reads fun k =>
          let k := if fresh then k else k.accCorrect n
          let r := e.mulInto zero cls k.lm old free
          (k.setAcc n r.1, r.2)

/-! ### ACCST, ACCLD, ACCZ -/

/-- The rounding of TDC for the element of row `i` and column `j` (R76, R102, R122). -/
def Desc.rounding (c : Desc) (seed : Word64) (step : Word32) (i j : Nat) : Rnd :=
  if c.rnd = 1 then
    .stochastic (randomBits seed (BitVec.ofNat 32 c.tensor)
      (BitVec.ofNat 64 ((c.orgRow + i) * 2 ^ 32 + (c.orgCol + j))) step)
  else .nearest

/-- What ACCST stores for an element (R102 to R104, R121): its bits and the flags raised. -/
def storeElem (x : Acc) (f : Fmt) (r : Rnd) (v : BitVec 128) (sp : Nat) : Nat × BitVec 7 :=
  match x.cls with
  | .float => f.convert r false (Fmt.fp32.decode v.toNat)
  | .int => f.convert .nearest false (Fmt.int32.decode v.toNat)
  | .exact =>
    if sp = spNone then
      if f == .wx128 then (v.toNat, 0)
      else f.convert r false (FV.ofSum (toSigned 128 v.toNat) x.wexp false)
    else if f == .wx128 then (wxSpecial, if sp = spNan then flNanOut else flInfOut)
    else if sp = spNan then (if f == .int8 then (0, flCvtSat) else f.convert r false (.nan false))
    else f.convert r false (.inf (decide (sp = spNinf)))
  | _ => (0, 0)

/-- Write the elements of a tile, row by row, into its lines: formats of whole bytes. -/
def Desc.store (d : Desc) (f : Fmt) (k : Core) (l : List ((Nat × Nat) × Nat)) : Core :=
  let w := f.bits / 8
  l.foldl (fun k e =>
    let p := if d.layout = 0 then (e.1.1, e.1.2) else (e.1.2, e.1.1)
    k.lmWrite (d.base + p.1 * d.rstride + p.2 * w) (leBytes e.2 w)) k

/-- The checks of steps 2 and 3 of R67 for ACCST and ACCLD: the class that TDC gives. -/
def tdcCheck (c : Desc) : Option AccClass :=
  if !c.valid .c then none
  else if 256 < c.rows ∨ 256 < c.cols then none
  else tdcClass c.format (c.mode == 1)

/-- What an ACCST of accumulator `x` stores, element by element, with the flags raised. -/
def MatrixEntry.outs (e : MatrixEntry) (x : Acc) (seed : Word64) : List ((Nat × Nat) × Nat × BitVec 7) :=
  let c := Desc.of e.tdc
  (tileIdx c.rows c.cols).map fun p =>
    let i := p.1 * c.cols + p.2
    (p, storeElem x c.format (c.rounding seed e.step p.1 p.2) (Tbl.get 0 x.elems i) (Tbl.get 0 x.sp i))

/-- ACCST (R88, R102 to R104, R121): an EMPTY accumulator stores zeros. -/
def matrixStore (k : Core) (e : MatrixEntry) : Engine :=
  let c := Desc.of e.tdc
  let n := e.acc.val
  if k.accFault .accst n (c.mode == 1) then .fault FaultCode.accInvalid
  else
    match tdcCheck c with
    | none => .fault FaultCode.descInvalid
    | some cls =>
      let x := k.accu n
      if x.cls ≠ .empty ∧ !x.tagged cls c.rows c.cols c.wexp then .fault FaultCode.descInvalid
      else if k.accDouble n then .fault FaultCode.lmUncorr
      else
        let k := k.accCorrect n
        let outs := e.outs x k.seed
        .done (c.store c.format k (outs.map fun o => (o.1, o.2.1))) (outs.foldl (fun fl o => fl ||| o.2.2) 0)

/-- What ACCLD makes of an element (R105, R118): value and special state. -/
def loadElem (cls : AccClass) (f : Fmt) (wexp : Int) (raw : Nat) : BitVec 128 × Nat :=
  match cls with
  | .float => (BitVec.ofNat 128 (Fmt.fp32.convert .nearest false (f.decode raw)).1, 0)
  | .int => (BitVec.ofNat 128 (ofSigned 32 (toSigned f.bits raw)), 0)
  | _ =>
    if f == .wx128 then (BitVec.ofNat 128 raw, spNone)
    else
      match f.decode raw with
      | .fin s m e => (BitVec.ofNat 128 (ofSigned 128 (windowEntry wexp s m e).1), spNone)
      | v => (0, v.event)

/-- The accumulator that ACCLD loads from `lm`. -/
def MatrixEntry.loaded (e : MatrixEntry) (cls : AccClass) (lm : Mem) : Acc :=
  let c := Desc.of e.tdc
  let es := (tileIdx c.rows c.cols).map fun p => loadElem cls c.format c.wexp (c.elem c.format lm p.1 p.2)
  ⟨cls, c.rows, c.cols, if cls = .exact then c.wexp else 0, elemTbl (es.map fun e => e.1), spTbl (es.map fun e => e.2)⟩

/-- ACCLD (R88, R105). -/
def matrixLoad (k : Core) (e : MatrixEntry) : Engine :=
  let c := Desc.of e.tdc
  let n := e.acc.val
  if k.accFault .accld n (c.mode == 1) then .fault FaultCode.accInvalid
  else
    match tdcCheck c with
    | none => .fault FaultCode.descInvalid
    | some cls => Engine.reading k e.reads fun k => (k.setAcc n (e.loaded cls k.lm), 0)

/-- ACCZ (R88, R89): an exact accumulator gives all four of its numbers back. -/
def matrixZero (k : Core) (e : MatrixEntry) : Engine :=
  let n := e.acc.val
  if k.accFault .accz n false then .fault FaultCode.accInvalid
  else
    let ns := k.accNums n
    .done { k with acc := k.acc.filter fun p => !ns.contains p.1,
                   accBad1 := k.accBad1.filter fun p => !ns.contains p.1,
                   accBad2 := k.accBad2.filter fun p => !ns.contains p.1 } 0

/-- The matrix instruction at the head of a queue. -/
def MatrixEntry.run (e : MatrixEntry) (k : Core) (free : Bool) : Engine :=
  match e.op with
  | .mma => matrixMul k e false free
  | .mmaz => matrixMul k e true free
  | .accst => matrixStore k e
  | .accld => matrixLoad k e
  | .accz => matrixZero k e

/-- The next matrix instruction, if it is `op`, its wait is granted and what executes lets it start (R52, R53, R108). -/
def Core.matrixHead (k : Core) (op : MatrixOp) : Option MatrixEntry :=
  if k.enginesLive then
    match k.matrixNext with
    | some e => if e.op = op ∧ k.grants .matrix e.hdr then some e else none
    | none => none
  else none

/-- The units of its cluster that a matrix instruction of core `c` runs on: the arrays of its C tile (R438). -/
def MatrixEntry.units (e : MatrixEntry) (c : Nat) : List Nat :=
  match e.op with
  | .mma | .mmaz => (tileArrays (Desc.of e.tdc)).map fun a => 4 * (c % 4) + a
  | _ => []

/-- The vector unit of core `c`, by its number in the cluster (R436). -/
def vecUnits (c : Nat) : List Nat := [16 + c % 4]

/-- The execution of an entry that core `k` starts, with the flags that it will set and the number of its free values. -/
def MatrixEntry.begin (e : MatrixEntry) (k : Core) (fl : BitVec 7) (ix : Nat) : MatrixRun :=
  let c := Desc.of e.tdc
  let store := e.op == .accst
  ⟨fl, e.reads, if store then c.ranges c.format else [], k.accu e.acc.val, [], [], if store then k.lm else [], ix⟩

/-! ### Completion (R108, R109) -/

/-- Local memory as an execution has read it: each granule that was written meanwhile with the content of one side of each write. -/
def MatrixRun.view (r : MatrixRun) (lm : Mem) : Mem :=
  (distinct (r.torn.map fun t => t.1)).foldl (fun m g =>
    let vs := (r.torn.filter fun t => t.1 == g).map fun t => t.2
    match vs[Config.tornRead r.ix g % (vs.length + 1)]? with
    | some bs => Mem.writeBytes m (128 * g) bs
    | none => m) lm

/-- What an instruction that reads local memory makes of the accumulator `old` with `lm`: `none` for one that reads none. -/
def MatrixEntry.makes (e : MatrixEntry) (lm : Mem) (old : Acc) (free : Bool) : Option (Acc × BitVec 7) :=
  let c := Desc.of e.tdc
  match e.op with
  | .mma | .mmaz => (mmaClass (Desc.of e.tda) (Desc.of e.tdb) c).map fun cls => e.mulInto (e.op == .mmaz) cls lm old free
  | .accld => (tdcCheck c).map fun cls => (e.loaded cls lm, 0)
  | _ => none

/-- The multiplications after one whose result has changed add to the result it has now. -/
def redoAfter (n : Nat) (lm : Mem) : Acc → List (MatrixEntry × MatrixRun) → Acc × List MatrixRun
  | acc, [] => (acc, [])
  | acc, (e, r) :: l =>
    if e.acc.val = n then
      match e.makes lm acc (Config.freeBool r.ix) with
      | some a =>
        let t := redoAfter n lm a.1 l
        (t.1, { r with old := acc, flags := (r.flags &&& flLmCorr) ||| a.2 } :: t.2)
      | none =>
        let t := redoAfter n lm acc l
        (t.1, r :: t.2)
    else
      let t := redoAfter n lm acc l
      (t.1, r :: t.2)

/-- The execution at place `i`, with what it has read and written where other issuers wrote meanwhile: the core, and its flags. -/
def Core.resolve (k : Core) (i : Nat) (e : MatrixEntry) (r : MatrixRun) : Core × BitVec 7 :=
  if !r.torn.isEmpty then
    match e.makes (r.view k.lm) r.old (Config.freeBool r.ix) with
    | none => (k, r.flags)
    | some a =>
      let t := redoAfter e.acc.val k.lm a.1 ((k.mq.zip k.mrun).drop (i + 1))
      ({ k.setAcc e.acc.val t.1 with mrun := k.mrun.take (i + 1) ++ t.2 }, (r.flags &&& flLmCorr) ||| a.2)
  else if !r.raced.isEmpty then
    let c := Desc.of e.tdc
    let m := (c.store c.format { k with mrun := [] } ((e.outs (k.accu e.acc.val) k.seed).map fun o => (o.1, o.2.1))).lm
    ((distinct r.raced).foldl (fun k g =>
      if Config.tornWrite r.ix g then k.lmWrite (128 * g) (Mem.readBytes m (128 * g) 128) else k) k, r.flags)
  else (k, r.flags)

/-- The execution at place `i` of the matrix queue ends, if no multiplication before it still executes where it is one itself. -/
def Core.retireMatrix (k : Core) (i : Nat) : Option (Core × Hdr × Nat × Nat) :=
  match k.mq[i]?, k.mrun[i]? with
  | some e, some r =>
    if e.op.isMul && (k.mq.take i).any (fun p => p.op.isMul) then none
    else
      let t := k.resolve i e r
      some ({ t.1 with mq := t.1.mq.eraseIdx i, mrun := t.1.mrun.eraseIdx i, mflags := t.1.mflags ||| t.2 }, e.hdr, e.pc, 1)
  | _, _ => none

/-- A matrix instruction executes at the head of its queue once its arrays are granted (R438); its completion point comes at
INSTRUCTION_COMPLETION_POINT. Where it may not start, nothing happens. -/
def State.matrixStep (s : State) (c : Nat) (op : MatrixOp) : State :=
  let k := s.core c
  match k.matrixHead op with
  | none => s
  | some e =>
    let ix := s.fresh.1
    let t := s.fresh.2
    match e.run (k.consume e.hdr) (Config.freeBool ix) with
    | .fault code => t.fault c code e.pc 1
    | .hold => t
    | .done k fl =>
      if s.granted c (e.units c) then 
        let r := e.begin (s.core c) fl ix
        t.setCore c { k with mrun := k.mrun ++ [r], held := k.held.filter (· != .matrix) }
      else s

end Sys2Proof.Machine
end

