-- ==== Sys2Proof/Machine/Power.lean ====
section
/-! DEFINITION. Ceilings, grants, the governor, backstops, droop, temperature and energy (R432 to R449). -/

namespace Sys2Proof.Machine

/-! ### Steps, ceilings and estimates (R434, R436, R439) -/

/-- Power of cluster `c`. -/
def State.cpower (s : State) (c : Nat) : ClusterPower := Tbl.get ClusterPower.reset s.cpw c

/-- Change the power of cluster `c`. -/
def State.modCpower (s : State) (c : Nat) (f : ClusterPower → ClusterPower) : State := { s with cpw := Tbl.set s.cpw c (f (s.cpower c)) }

/-- V_op of a die in mV (R431). -/
def State.vopMv (s : State) (d : Nat) : Nat := 450 + 5 * Tbl.get 0 s.power.vop d

/-- The ceiling of the clusters of a partition on a die, in steps of 0.25 A (R434). -/
def State.ceiling (s : State) (p d : Nat) : Nat :=
  let l := (s.part p).lay
  min 480 (4 * l.power * (s.power.cap - 1000) * 920 / (65536 * max 1 l.clusters.length * s.vopMv d))

/-- The governor's step of the partition that holds a cluster. -/
def State.ngOf (s : State) (c : Nat) : Nat :=
  match s.partOfCluster c with
  | some p => (s.part p).clockStep
  | none => 0

/-- The clock step in force on a cluster, 0 to 19 (R439, R441, Table 14-3), with `ng` for the governor's step. -/
def State.stepWith (s : State) (c ng : Nat) : Nat :=
  if s.power.emergency.contains (dieOf c) then 19 else min 19 (max ng (s.cpower c).nT + s.power.backSteps)

/-- The clock step in force. -/
def State.stepOf (s : State) (c : Nat) : Nat := s.stepWith c (s.ngOf c)

/-- Static power of a cluster in mW at its temperature, between the points of Table 14-4 by linear interpolation (R446). -/
def State.staticMw (s : State) (c : Nat) : Nat :=
  let t := (s.cpower c).temp
  let at_ (i : Nat) : Nat := Tbl.get 0 s.sec.energy (64 + i)
  if t < 30 then Config.staticOutside t (at_ 0)
  else
    let x := 2 * (t - 30)
    if 31 * 5 < x then Config.staticOutside t (at_ 31)
    else (at_ (x / 5) * (5 - x % 5) + at_ (x / 5 + 1) * (x % 5)) / 5

/-- The current of a unit at 700 MHz, in amperes: an array 6, a vector unit 3 (R436). -/
def unitAmps (u : Nat) : Nat := if u < 16 then 6 else 3

/-- Twenty times the estimate of a cluster at a step, in units of 1 A divided by V_op in mV: what R436 compares is exact so. -/
def State.estimate20 (s : State) (c step : Nat) (grants : List Nat) : Nat :=
  20 * s.staticMw c + s.vopMv (dieOf c) * (20 - step) * (grants.foldl (fun a u => a + unitAmps u) 0)

/-- Whether a cluster's grants fit its ceiling at a step. -/
def State.grantsFit (s : State) (c step : Nat) (grants : List Nat) : Bool :=
  match s.partOfCluster c with
  | some p => decide (s.estimate20 c step grants ≤ 5 * s.vopMv (dieOf c) * s.ceiling p (dieOf c))
  | none => false

/-- The estimate in steps of 0.25 A (Table 14-6), rounded down. -/
def State.estimate (s : State) (c : Nat) : Nat :=
  s.estimate20 c (s.stepOf c) (s.cpower c).grants / (5 * s.vopMv (dieOf c))

/-! ### Grants (R436 to R438) -/

/-- The units that core `c` asks for or works with (R438). -/
def State.coreUnits (s : State) (c : Nat) : List Nat :=
  let k := s.core c
  if !k.enginesLive then []
  else
    let busy := (k.mq.take k.mrun.length).flatMap fun e => e.units c
    let next := match k.matrixNext with
      | some e => if k.grants .matrix e.hdr then e.units c else []
      | none => []
    let arrays := distinct (busy ++ next)
    let vec := match k.vq with
      | e :: _ => if k.vrun.isSome || k.grants .vector e.hdr then vecUnits c else []
      | [] => []
    arrays ++ vec

/-- The units that a cluster asks for or works with, in rising order. -/
def State.clusterUnits (s : State) (c : Nat) : List Nat :=
  let all := (rangeFrom (4 * c) 4).flatMap fun k => s.coreUnits k
  (all.filter fun u => u < 16) ++ all.filter fun u => 16 ≤ u

/-- Counters cleared by a write take effect at a slot (Table 14-6). -/
def State.slotClears (s : State) (c : Nat) : State :=
  if (s.cpower c).droopClear ∨ (s.cpower c).holdClear then
    s.modCpower c fun k => { k with
      droop := if k.droopClear then 0 else k.droop, hold := if k.holdClear then 0 else k.hold, droopClear := false, holdClear := false }
  else s

/-- A cluster that waits for a refused grant is counted in a slot, and its partition once (R440, Table 14-6). -/
def State.countHold (s : State) (c slot : Nat) : State :=
  let s := s.modCpower c fun k => { k with hold := min (k.hold + 1) (2 ^ 32 - 1) }
  match s.partOfCluster c with
  | none => s
  | some p =>
    if Tbl.find s.power.waitAt p = some slot then s
    else { s with power := { s.power with waitAt := Tbl.set s.power.waitAt p slot, waitSlots := Tbl.mod 0 s.power.waitSlots p (· + 1) } }

/-- One slot at a list of clusters, in the order of serving: at most `left` grants, one a cluster (R437). -/
def State.slotAt (s : State) (slot : Nat) : Nat → List Nat → State
  | _, [] => s
  | left, c :: r =>
    let s := s.slotClears c
    let have_ := (s.cpower c).grants
    let wants := (s.clusterUnits c).filter fun u => !have_.contains u
    let ok (u : Nat) : Bool := s.grantsFit c (s.stepOf c) (u :: have_)
    let s := if wants.all ok then s else s.countHold c slot
    match left, wants.find? ok with
    | n + 1, some u =>
      let s := (s.modCpower c fun k => { k with grants := k.grants ++ [u] })
      let s := { s with power := { s.power with served := Tbl.set s.power.served (dieOf c) c } }
      State.slotAt s slot n r
    | left, _ => State.slotAt s slot left r

/-- GRANT_SLOT (R437): the next 125 ns slot of a die. -/
def State.grantSlot (s : State) (d : Nat) : State :=
  let slot := Tbl.get 0 s.power.slotAt d + 125
  let s := s.advanceTo slot
  let s := { s with power := { s.power with slotAt := Tbl.set s.power.slotAt d (max slot (s.ltime / 125 * 125)) } }
  let last := (Tbl.find s.power.served d).getD (12 * d + 11)
  let order := (rangeFrom (last + 1) 12).map fun i => 12 * d + i % 12
  s.slotAt (max slot (s.ltime / 125 * 125)) 4 order

/-- GRANT_RELEASE (R438): a unit that has been idle for 1 µs. -/
def State.grantRelease (s : State) (c u : Nat) : State :=
  if (s.clusterUnits c).contains u then s
  else if (s.cpower c).grants.contains u then s.modCpower c fun k => { k with grants := k.grants.filter fun x => x ≠ u }
  else s

/-! ### The governor (R440) -/

/-- Grants that exceed a ceiling are withdrawn, last granted first (R435); `fuel` bounds them. -/
def State.withdraw (s : State) (c : Nat) : Nat → State
  | 0 => s
  | fuel + 1 =>
    let g := (s.cpower c).grants
    if g.isEmpty ∨ s.grantsFit c (s.stepOf c) g then s
    else State.withdraw (s.modCpower c fun k => { k with grants := k.grants.dropLast }) c fuel

/-- What takes effect at a governor tick: a cap, a cleared counter, and the end of the input backstop. -/
def State.tickEffects (s : State) : State :=
  let w := s.power
  let ended := match w.backResume with
    | some t => decide (t ≤ s.ltime)
    | none => false
  { s with power := { w with
      cap := w.capNext.getD w.cap
      capNext := none
      backstop := if w.backstopClear then 0 else w.backstop
      backstopClear := false
      backSteps := if ended then 0 else w.backSteps
      backResume := if ended then none else w.backResume } }

/-- GOVERNOR_TICK (R435, R440): 100 µs are 800 slots. -/
def State.governorTick (s : State) (p : Nat) : State :=
  let s := s.tickEffects
  if (s.part p).inUse then
    let waits := Tbl.get 0 s.power.waitSlots p
    let s := { s with power := { s.power with waitSlots := Tbl.del s.power.waitSlots p } }
    let cs := (s.part p).lay.clusters
    let n := (s.part p).clockStep
    let n' :=
      if s.power.backSteps ≠ 0 then n
      else if 80 < waits then min 19 (n + 1)
      else if n ≠ 0 ∧ cs.all (fun c => s.grantsFit c (s.stepWith c (n - 1)) (s.cpower c).grants) then n - 1
      else n
    let s := s.modPart p fun q => { q with clockStep := n' }
    cs.foldl (fun s c => s.withdraw c 20) s
  else s

/-! ### Backstops and droop (R441, R442) -/

/-- One backstop action is counted. -/
def State.countBackstop (s : State) : State :=
  { s with power := { s.power with backstop := min (s.power.backstop + 1) (2 ^ 32 - 1) } }

/-- RAIL_BACKSTOP (R441): the mean of VDD_CORE of a die, in 0.25 A, has reached 1,560 A. -/
def State.railBackstop (s : State) (d reading : Nat) : State :=
  if reading < 4 * 1560 then s
  else
    let s := (s.countBackstop).powerRecord PowerEvent.railBackstop 0 d reading
    { s with power := { s.power with halved := Tbl.set s.power.halved d (s.ltime + 10000) } }

/-- INPUT_BACKSTOP (R441): the 100 µs mean of the input current, in 10 mA, every 10 µs. -/
def State.inputBackstop (s : State) (reading : Nat) : State :=
  let s := { s with power := { s.power with inA := reading } }
  let active := decide (s.power.backSteps ≠ 0) && s.power.backResume.isNone
  if 10950 ≤ reading ∨ (active ∧ 10500 ≤ reading) then
    let s := if active then s else s.powerRecord PowerEvent.inputBackstop 0 0 (reading / 25)
    let s := s.countBackstop
    { s with power := { s.power with backSteps := min 19 (s.power.backSteps + 1), backResume := none } }
  else if active then { s with power := { s.power with backResume := some (s.ltime + 1000000) } }
  else s

/-- DROOP (R442): the clock of a cluster is stretched, and a storm of stretches recorded. -/
def State.droop (s : State) (c : Nat) : State :=
  if (s.cpower c).stretched then s
  else
    let now := s.ltime
    let s := s.modCpower c fun k => { k with
      stretched := true
      droop := min (k.droop + 1) (2 ^ 32 - 1)
      droopAt := (k.droopAt.filter fun t => decide (now < t + 1000000)) ++ [now] }
    let quiet := match (s.cpower c).stormAt with
      | some t => decide (now < t + 1000000000)
      | none => false
    if 1000 < (s.cpower c).droopAt.length ∧ !quiet then
      (s.powerRecord PowerEvent.droopStorm 0 c 0 (some c)).modCpower c fun k => { k with stormAt := some now }
    else s

/-- DROOP_END (R442). -/
def State.droopEnd (s : State) (c : Nat) : State :=
  if (s.cpower c).stretched then s.modCpower c fun k => { k with stretched := false } else s

/-! ### The clock of the memory side (R34, R334) -/

/-- The clock of a cluster island in MHz: 35 MHz a step, halved by a die backstop (R441) and by a stretch (R442). -/
def State.clockMhz (s : State) (c : Nat) : Nat :=
  let f := 35 * (20 - s.stepOf c)
  let f := if s.ltime < Tbl.get 0 s.power.halved (dieOf c) then f / 2 else f
  if (s.cpower c).stretched then f / 2 else f

/-- The mean clock of a cluster island over window `w`: `mhz`, as far as the clock at the two ends of the window and the stretches within
it allow. One mean serves the eight channels of the cluster. -/
def State.meanMhz (s : State) (c w mhz : Nat) : Nat :=
  let k := s.cpower c
  if k.winAt = w then k.winMhz
  else
    let slow := k.droopAt.any fun t => decide ((w - 1) * 2000 ≤ t)
    let lo := min (s.clockMhz c) k.winClock
    max (if slow then lo / 2 else lo) (min mhz (max (s.clockMhz c) k.winClock))

/-- REGULATOR_WINDOW (R326, R334): the window of a channel in service ends at the mean clock of its cluster island. -/
def State.windowEnds (s : State) (ch mhz : Nat) (hot : Bool) (late waiting : List Nat) : State :=
  if (s.channel ch).fenced then s
  else
    let w := max ((s.channel ch).window + 1) (s.ltime / 2000)
    let c := ch / 8
    let s := (s.advanceTo (w * 2000)).serveRows ch s.waiting.length
    let f := s.meanMhz c w mhz
    let clock := s.clockMhz c
    let late := late ++ (s.channel ch).late
    let waiting := waiting ++ (s.sharers ch).filter fun p => s.waitsAt ch p
    (s.modCpower c fun k => { k with winAt := w, winMhz := f, winClock := if k.winAt = w then k.winClock else clock }).regulatorWindow
      ch f hot late waiting

/-! ### Temperature (R443) -/

/-- The thermal step of one cluster after a reading (Table 14-3). -/
def State.thermalStep (s : State) (c : Nat) : State :=
  let k := s.cpower c
  let stack := Tbl.get 0 s.power.stackTemp (c / 4)
  if 95 ≤ k.temp ∨ 95 ≤ stack then
    if k.nT = 0 ∨ k.nTAt + 100000 ≤ s.ltime then
      let s := if k.nT = 0 then s.powerRecord PowerEvent.thermalThrottle 0 c (max k.temp stack) (some c) else s
      s.modCpower c fun k => { k with nT := min 19 (k.nT + 1), nTAt := s.ltime }
    else s
  else if k.temp < 92 ∧ stack < 92 ∧ k.nT ≠ 0 ∧ k.nTAt + 1000000 ≤ s.ltime then
    s.modCpower c fun k => { k with nT := k.nT - 1, nTAt := s.ltime }
  else s

/-- The hottest sensor of a die: its clusters' junctions and its fabric's. -/
def State.dieTemp (s : State) (d : Nat) : Nat :=
  (rangeFrom (12 * d) 12).foldl (fun a c => max a (s.cpower c).temp) (Tbl.get 0 s.power.fabricTemp d)

/-- The emergency of one die after a reading (Table 14-3). -/
def State.thermalEmergency (s : State) (d : Nat) : State :=
  let t := s.dieTemp d
  if s.power.emergency.contains d then
    if t < 100 then { s with power := { s.power with emergency := s.power.emergency.filter fun e => e ≠ d } } else s
  else if 105 ≤ t then
    { (s.powerRecord PowerEvent.thermalEmergency 0 d t) with
      power := { s.power with emergency := s.power.emergency ++ [d] } }
  else s

/-- THERMAL_SENSOR_READ (R443): the junctions of clusters, the die fabrics and the stacks, in °C. -/
def State.sensorRead (s : State) (clusters fabrics hbms : Tbl Nat) : State :=
  let s := clusters.foldl (fun (s : State) (e : Nat × Nat) => s.modCpower e.1 fun k => { k with temp := e.2 }) s
  let s := { s with power := { s.power with
    fabricTemp := fabrics.foldl (fun (t : Tbl Nat) (e : Nat × Nat) => Tbl.set t e.1 e.2) s.power.fabricTemp
    stackTemp := hbms.foldl (fun (t : Tbl Nat) (e : Nat × Nat) => Tbl.set t e.1 e.2) s.power.stackTemp } }
  let read := (List.range 48).filter fun c => (Tbl.find clusters c).isSome || (Tbl.find hbms (c / 4)).isSome
  let s := read.foldl (fun s c => s.thermalStep c) s
  (List.range 4).foldl (fun s d => s.thermalEmergency d) s

/-! ### Energy (R446, R447) -/

/-- The energy of what one unit did, in the unit of `energyUnit`: counts by coefficient, and the static power of its cluster for the
time that the context held it, divided by 0.92. -/
def State.actEnergy (s : State) (a : EnergyAct) : Nat :=
  let work := a.counts.foldl (fun (e : Nat) (x : Nat × Nat) => e + x.2 * Tbl.get 0 s.sec.energy x.1) 0
  (work + s.staticMw a.cluster.val * a.ns * 2 ^ 24 / 1000) * 100 / 92

/-- The context that shares the energy of a context with it while its forme makes a gang switch between their jobs (R445): on the same
partition, the one of the incoming job beside the one of the outgoing job. -/
def State.switchPartner (s : State) (n : Nat) : Option Nat :=
  let x := s.ctx n
  match s.forme x.forme with
  | none => none
  | some f =>
    match f.switching, f.running with
    | some (to_, _), some from_ =>
      let other := if x.job = to_ then some from_ else if x.job = from_ then some to_ else none
      if to_ = from_ then none
      else other.bind fun j => ((s.jobCtxs x.forme j).find? fun e => e.2.part == x.part).map fun e => e.1
    | _, _ => none

/-- Energy is added to a context and to its partition, or to the unattributed energy. -/
def State.addEnergy (s : State) (n e : Nat) : State :=
  if n = 0 ∨ (s.ctx n).state = CtxState.free then { s with power := { s.power with unattr := s.power.unattr + e } }
  else
    let s := s.modCtx n fun c => { c with energy := c.energy + e }
    { s with power := { s.power with partEnergy := Tbl.mod 0 s.power.partEnergy (s.ctx n).part (· + e) } }

/-- ENERGY_FOLD (R445 to R447): activity is folded into the energy of its context, half of it into each of two contexts during a gang
switch between their jobs, or into the unattributed energy. -/
def State.energyFold (s : State) (acts : List EnergyAct) : State :=
  acts.foldl (fun s a =>
    let e := s.actEnergy a
    let n := a.ctx.toNat
    match s.switchPartner n with
    | some m => (s.addEnergy n (e / 2)).addEnergy m (e - e / 2)
    | none => s.addEnergy n e) s

end Sys2Proof.Machine
end

