-- ==== Sys2Proof/Machine/Allocator.lean ====
section
/-! DEFINITION. The device allocator (R78 to R81, R190, R191) and the answer it gives to a waiting core. -/

namespace Sys2Proof.Machine

/-- Bytes of the live allocations of heap `h` of context `n` (R78); its per-context constants count in heap 0 (R306). -/
def Partition.heapUse (q : Partition) (n h : Nat) : Nat :=
  q.allocs.foldl (fun a e => if e.ctx = n ∧ (e.kind = .heap h ∨ (h = 0 ∧ e.kind = .const)) then a + e.size else a) 0

/-- The partition addresses of pages that are never allocated (R190, R191, R210). -/
def State.barredPages (s : State) (q : Partition) : List Nat :=
  (q.lay.channels.map fun c =>
    let k := s.channel c
    ((k.retired ++ (k.reloc.map fun e => e.2) ++ k.copying.map fun e => e.2).filterMap fun pg => q.lay.addrOf c pg).filter fun a =>
      (q.allocOf a).isNone).flatten

/-- The ranges that an allocation may not overlap, by base and size. -/
def State.takenRanges (s : State) (q : Partition) : List (Nat × Nat) :=
  (0, 4096) :: (q.allocs.map fun e => (e.base, e.size)) ++
    ((q.lay :: q.layNew.toList).flatMap fun l => l.redirect.map fun r => (r.inter, r.size)) ++ (s.barredPages q).map fun a => (a, 4096)

/-- Place `n` bytes in a segment of partition `p` by first fit. -/
def State.placeIn (s : State) (p : Nat) (g : Segment) (align n : Nat) : Option Nat :=
  let q := s.part p
  let taken := s.takenRanges q
  let base := segStart g
  let size := q.lay.segPages g * 4096
  let used := q.allocs.foldl (fun a e => if q.lay.segment e.base = some g then a + e.size else a) 0 +
    4096 * ((s.barredPages q).filter fun a => q.lay.segment a == some g).length
  if g = .interleaved ∧ size < used + n + q.budget then none
  else firstFit taken align n (base + size) taken.length (roundUp base align)

/-- Every page of a range that is given out is fresh (R194). -/
def State.freshen (s : State) (p base n : Nat) : State :=
  (rangeFrom 0 (n / 4096)).foldl (fun s i =>
    match s.locIn (s.part p).lay (base + i * 4096) with
    | some b => s.modChannel b.1 fun k => k.setFresh (b.2 / 8) true
    | none => s) s

/-- Give out a range: its pages are fresh and it is recorded. -/
def State.grant (s : State) (p base n ctx : Nat) (kind : AllocKind) : State :=
  (s.freshen p base n).modPart p fun q => { q with allocs := q.allocs ++ [⟨base, n, ctx, kind⟩] }

/-- The alignment that IMM asks for; `none` for a value that is BAD_ARG (R79). -/
def allocAlign (imm : Nat) : Option Nat :=
  let l := bits imm 13 8
  if l = 0 then some 4096 else if 12 ≤ l ∧ l ≤ 30 then some (2 ^ l) else none

/-- ALLOC for context `n` from cluster `cl` (R78, R79, Table 02-5): a status of Table 02-5 and the address. -/
def State.allocate (s : State) (n cl size imm : Nat) : Nat × Nat × State :=
  let p := (s.ctx n).part
  let q := s.part p
  let h := bits imm 7 4
  let near := bit imm 0
  let bytes := roundUp size 4096
  match allocAlign imm with
  | none => (Sync.badArg, 0, s)
  | some align =>
    if bits imm 3 1 ≠ 0 ∨ bits imm 35 14 ≠ 0 ∨ size = 0 ∨ 2 ^ 39 < size then (Sync.badArg, 0, s)
    else if (s.ctx n).quotas.getD h 0 * 16777216 < q.heapUse n h + bytes then (Sync.quota, 0, s)
    else if near ∧ (q.lay.nearChannels cl).isEmpty then (Sync.notNear, 0, s)
    else
      match s.placeIn p (if near then .near cl else .interleaved) align bytes with
      | none => (Sync.noSpace, 0, s)
      | some a => (Sync.ok, a, s.grant p a bytes n (.heap h))

/-- Pages that were flagged for want of a free page are retired once freed (R210). -/
def State.retireFlagged (s : State) (p : Nat) : List Nat → State × List Ev
  | [] => (s, [])
  | a :: as =>
    match s.locIn (s.part p).lay a with
    | none => State.retireFlagged s p as
    | some b =>
      if (s.channel b.1).flagged.contains (b.2 / 8) then
        let s := s.modChannel b.1 fun k => { k with flagged := k.flagged.filter fun x => x ≠ b.2 / 8 }
        let r := s.retirePage b.1 (b.2 / 8)
        let t := State.retireFlagged r.1 p as
        (t.1, r.2 ++ t.2)
      else State.retireFlagged s p as

/-- Take back an allocation. -/
def State.ungrant (s : State) (p : Nat) (e : Alloc) : State × List Ev :=
  (s.modPart p fun q => { q with allocs := q.allocs.filter fun x => x ≠ e }).retireFlagged p
    ((rangeFrom 0 (e.size / 4096)).map fun i => e.base + i * 4096)

/-- FREE for context `n` (R80): a status of Table 02-5. -/
def State.release (s : State) (n a : Nat) : Nat × State × List Ev :=
  let p := (s.ctx n).part
  let hit (e : Alloc) : Bool := e.base == a && e.ctx == n && (match e.kind with
    | .heap _ => true
    | _ => false)
  match (s.part p).allocs.find? hit with
  | none => (Sync.noSuch, s, [])
  | some e =>
    let r := s.ungrant p e
    (Sync.ok, r.1, r.2)

/-- What ALLOC writes to XD (R79). -/
def allocResult (st a : Nat) : Word64 := BitVec.ofNat 64 (if st = Sync.ok then a else st * 2 ^ 40)

/-- A core whose context was stopped while its call was pending stops once the call has been answered (R82, R381). -/
def State.holdSuspect (s : State) (c : Nat) : State := if s.suspectCtx (s.core c).ctx then s.coreStop c else s

/-- ALLOCATOR_ANSWER (R81): the oldest call of cluster `cl` is served, and its core goes on. -/
def State.allocatorAnswer (s : State) (cl : Nat) : State :=
  match (s.cluster cl).calls with
  | [] => s
  | call :: rest =>
    let s := s.modCluster cl fun k => { k with calls := rest }
    let c := call.core.val
    match (s.core c).ctl with
    | .blocked b =>
      let n := (s.core c).ctx
      if call.isFree then
        let r := s.release n (call.arg.toNat % 2 ^ 40)
        ((r.2.1.unblock c b.hdr b.op.dest (BitVec.ofNat 64 r.1)).settle r.2.2).holdSuspect c
      else
        let r := s.allocate n cl call.arg.toNat call.imm.toNat
        (r.2.2.unblock c b.hdr b.op.dest (allocResult r.1 r.2.1)).holdSuspect c
    | _ => s

/-- Answer every allocator call of a cluster that waits (R82, step 2). -/
def State.drainCalls (s : State) (cl : Nat) : Nat → State
  | 0 => s
  | n + 1 => State.drainCalls (s.allocatorAnswer cl) cl n

/-- CORE_STOP (R82): a pending ALLOC or FREE of the core is completed first, after the calls of its cluster that came before it. -/
def State.stopCore (s : State) (c : Nat) : State :=
  let before := (s.cluster (clusterOf c)).calls.takeWhile fun k => decide (k.core.val ≠ c)
  let s := match (s.core c).ctl with
    | .blocked ⟨.alloc _ _ _, _, _, _⟩ | .blocked ⟨.free _ _ _, _, _, _⟩ => s.drainCalls (clusterOf c) (before.length + 1)
    | _ => s
  s.coreStop c

end Sys2Proof.Machine
end

