-- ==== Sys2Proof/Machine/KeyOps.lean ====
section
/-! DEFINITION. Destroying key entries and what goes with them (R397, R399, R402, R412, R416). -/

namespace Sys2Proof.Machine

/-- Lines held in cluster caches under a handle are invalidated (R216). -/
def State.dropCached (s : State) (h kctx : Nat) : State :=
  { s with clusters := s.clusters.map fun (e : Nat × Cluster) =>
      (e.1, { e.2 with cache := e.2.cache.filter fun l => !l.underKey h kctx }) }

/-- Destroy a key entry (R402): every later use sees the entry empty. Its share list is freed with it, and a staged entry is
told apart by its session (R416). -/
def State.destroyKey (s : State) (h : Nat) : State :=
  let e := s.key h
  let s := { s with shares := s.shares.filter fun l => l.2.handle ≠ h, keys := Tbl.del s.keys h,
                    sessions := if e.type = KeyType.session then Tbl.del s.sessions h else s.sessions }
  s.dropCached h 0

/-- Destroy several entries. -/
def State.destroyKeys (s : State) (hs : List Nat) : State := hs.foldl (fun s h => s.destroyKey h) s

/-- Whether a context other than `n` is bound to session `h`. -/
def State.sessionBound (s : State) (h n : Nat) : Bool :=
  s.ctxs.any fun e => decide (e.1 ≠ n) && e.2.state != .free && decide (e.2.session = h)

/-- Destroy a session, with the staged entries that its commands installed (R412, R416). -/
def State.destroySession (s : State) (h : Nat) : State :=
  let serial := (Tbl.get (⟨0, 0, [], []⟩ : Session) s.sessions h).serial
  let staged := (s.keys.filter fun e => e.2.staged && decide (e.2.stageSession = serial)).map fun e => e.1
  (s.destroyKeys staged).destroyKey h

/-- An entry becomes its owner's current link key (R417). -/
def State.makeCurrent (s : State) (h : Nat) : State :=
  let o := (s.key h).owner
  { s with keys := s.keys.map fun (e : Nat × KeyEntry) =>
      if e.1 = h then (e.1, { e.2 with current := true })
      else if e.2.type = .link ∧ e.2.owner = o ∧ (o ≠ 0xFFFF ∨ e.2.part = (s.key h).part) then (e.1, { e.2 with current := false })
      else e }

/-- A principal is removed from every share list (R399). -/
def State.dropPrincipal (s : State) (code : Nat) : State :=
  { s with shares := s.shares.map fun (e : Nat × ShareList) => (e.1, { e.2 with members := e.2.members.filter fun m => m ≠ code }) }

/-- The residency of a partition ends (R308): its shared constants and its keys go. -/
def State.endResidency (s : State) (p : Nat) : State × List Ev :=
  let shared := (s.part p).allocs.filter fun a => a.kind == .shared
  let r := shared.foldl (fun (a : State × List Ev) e =>
    let t := a.1.ungrant p e
    (t.1, a.2 ++ t.2)) (s, [])
  let keys := (s.keys.filter fun e => e.2.owner == 0xFFFF && e.2.part == p).map fun e => e.1
  ((r.1.destroyKeys keys).modPart p fun q => { q with residency := none }, r.2)

end Sys2Proof.Machine
end

