-- ==== Sys2Proof/Machine/HostOps.lean ====
section
/-! DEFINITION. Operations of the module at its hosts: RDMA READs and WRITEs, when they may be sent, and the translation
messages that it sends (R480, R489, R495). -/

namespace Sys2Proof.Machine

/-- Host connection `n`. -/
def State.conn (s : State) (n : Nat) : Conn := Tbl.get Conn.reset s.conns n
/-- Change host connection `n`. -/
def State.modConn (s : State) (n : Nat) (f : Conn → Conn) : State := { s with conns := Tbl.set s.conns n (f (s.conn n)) }

/-- Send the operations of a list that wait and now may go; `before` is what stands before them. -/
def State.releaseRdma (s : State) (before : List RdmaOut) : List RdmaOut → State
  | [] => { s with rdmaOut := before }
  | o :: r =>
    if o.held && o.goes before then
      State.releaseRdma (s.sendRdma o) (before ++ [{ o with held := false, sentAt := s.ltime }]) r
    else State.releaseRdma s (before ++ [o]) r

/-- An operation has completed, or is lost. -/
def State.endRdma (s : State) (id : Nat) : State :=
  s.releaseRdma [] (s.rdmaOut.filter fun o => o.id ≠ id)

/-- Read host memory; `none` where the connection is not up. -/
def State.hostRead (s : State) (conn addr rkey len : Nat) (use : OutUse) : Option State :=
  if (s.conn conn).st = .up then
    let n := s.number
    some (n.2.startRdma ⟨n.1, conn, true, addr, rkey, len, [], [], false, use, 0, n.2.ltime⟩)
  else none

/-- Write host memory; `none` where the connection is not up. -/
def State.hostWrite (s : State) (conn addr rkey : Nat) (data : List Byte) (use : OutUse) : Option State :=
  if (s.conn conn).st = .up then
    let n := s.number
    some (n.2.startRdma ⟨n.1, conn, false, addr, rkey, data.length, data, [], false, use, 0, n.2.ltime⟩)
  else none

/-- A translation message with every field zero. -/
def TransMsg.zero : TransMsg := ⟨0, 0, 0, false, false, false, false, false, 0, 0, 0, 0, 0, false⟩

/-- Count a translation message discarded (R555) on the network of the active plane. -/
def State.countDiscard (s : State) (conn : Nat) : State :=
  { s with nets := Tbl.mod NetBlock.reset s.nets (s.conn conn).active fun k => { k with trDiscard := k.trDiscard + 1 } }

end Sys2Proof.Machine
end

