-- ==== Sys2Proof/Machine/SyncMsgs.lean ====
section
/-! DEFINITION. The meanings of the rows of the sync hubs: control messages between modules and the hubs' own events
(R222, R223, R236 to R243). -/

namespace Sys2Proof.Machine

/-- The principal of a control message that acts on a fence or barrier of context `owner` (R233, R420): the context of the
link key that authenticated it, or its sender's membership of the owner's forme. -/
def State.ctrlWho (s : State) (m : CtrlMsg) (owner : Nat) : Principal :=
  if m.auth ≠ 0 then .ctx m.auth.toNat
  else
    let id := (s.ctx owner).forme
    match s.forme id with
    | some f => if f.members.any fun e => e.2.fab == m.srcMod.toNat then .forme id else .nobody
    | none => .nobody

/-- The hub that counts what is wrong with a message about fence `n`. -/
def State.hubOf (s : State) (n : Nat) : Nat :=
  if (s.fence n).state = .free then s.lowestCluster else (s.fence n).home

/-- A control message of another module reaches this one: one for another module is forwarded by routing (R238), and a
request whose STATUS is not zero is discarded and counted. -/
def State.ctrlIn (s : State) (opc : Nat) (m : CtrlMsg) (hub : Nat) (f : State → State) : State :=
  if m.dstMod.toNat ≠ s.fabAddr then s.emit (.ctrl opc m)
  else if opc < 0x80 ∧ m.status ≠ 0 then s.synCount hub .badmsg
  else f s

/-- The answer to a request with its tag (R238). -/
def State.ctrlAnswer (s : State) (opc : Nat) (m : CtrlMsg) (status value : Nat) : State :=
  s.sendFor m.auth.toNat (.ctrl opc (answerMsg s m.srcMod.toNat m.srcClu.toNat m.tag.toNat m.number.toNat status value))

/-- SIGNAL (R226, R240). -/
def State.ctrlSignal (s : State) (m : CtrlMsg) : State :=
  let n := m.number.toNat
  s.ctrlIn 0x01 m (s.hubOf n) fun s =>
    let r := s.fenceSignal n m.value.toNat (s.ctrlWho m (s.fence n).owner) m.ackReq
    let s := if m.ackReq then r.2.1.ctrlAnswer 0x81 m r.1 0 else r.2.1
    s.settle r.2.2

/-- ADD (R227, R240). -/
def State.ctrlAdd (s : State) (m : CtrlMsg) : State :=
  let n := m.number.toNat
  s.ctrlIn 0x02 m (s.hubOf n) fun s =>
    let r := s.fenceAdd n m.value.toNat (s.ctrlWho m (s.fence n).owner) m.ackReq
    let s := if m.ackReq then r.2.1.ctrlAnswer 0x81 m r.1 0 else r.2.1
    s.settle r.2.2

/-- READ (R231). -/
def State.ctrlRead (s : State) (m : CtrlMsg) : State :=
  let n := m.number.toNat
  s.ctrlIn 0x03 m (s.hubOf n) fun s =>
    let r := s.fenceRead n (s.ctrlWho m (s.fence n).owner)
    r.2.2.ctrlAnswer 0x83 m r.1 r.2.1

/-- Remote waits that a hub holds (R239). -/
def State.remoteWaits (s : State) (h : Nat) : Nat :=
  (s.waits.filter fun w => (s.fence w.fence).home == h && (match w.who with
    | .remote _ _ _ _ => true
    | _ => false)).length

/-- WAIT (R239). -/
def State.ctrlWaitMsg (s : State) (m : CtrlMsg) : State :=
  let n := m.number.toNat
  s.ctrlIn 0x04 m (s.hubOf n) fun s =>
    let full := 8192 ≤ s.remoteWaits (s.hubOf n)
    match s.fenceWait n m.value.toNat (s.ctrlWho m (s.fence n).owner)
        (.remote m.srcMod.toNat m.srcClu.toNat m.tag.toNat m.auth.toNat) with
    | (some st, s) => s.ctrlAnswer 0x84 m st 0
    | (none, s') =>
      if full then ({ s' with waits := s.waits }).ctrlAnswer 0x84 m Sync.registryFull 0 else s'

/-- WAIT_CANCEL (R239). -/
def State.ctrlCancel (s : State) (m : CtrlMsg) : State :=
  s.ctrlIn 0x05 m (s.hubOf m.number.toNat) fun s =>
    (s.hubMessage (s.hubOf m.number.toNat)).dropWaits fun w =>
      match w with
      | .remote a b c _ => a == m.srcMod.toNat && b == m.srcClu.toNat && c == m.tag.toNat
      | _ => false

/-- RELEASE (R236). -/
def State.ctrlRelease (s : State) (m : CtrlMsg) : State :=
  let n := m.number.toNat
  s.ctrlIn 0x06 m (s.hubOf n) fun s =>
    match s.admitOp n (s.ctrlWho m (s.fence n).owner) with
    | (s, true) => s.releaseImport n
    | (s, false) => s

/-- The hub and instance that a barrier message names; `none` where NUMBER's reserved bits are set (Table 08-3). -/
def barTarget (m : CtrlMsg) : Option (Nat × Nat) :=
  let n := m.number.toNat
  if n / 2 ^ 14 = 0 ∧ bits n 13 8 < 48 then some (bits n 13 8, bits n 7 0) else none

/-- BAR_ARRIVE (R242): the child is named by its module, its cluster and the instance in TAG. -/
def State.ctrlBarArrive (s : State) (m : CtrlMsg) : State :=
  s.ctrlIn 0x10 m s.lowestCluster fun s =>
    match barTarget m with
    | none => s.synCount s.lowestCluster .badmsg
    | some (h, i) =>
      let child := m.srcMod.toNat * 2 ^ 14 + m.srcClu.toNat * 2 ^ 8 + m.tag.toNat % 2 ^ 8
      let r := s.barArriveChild h i child (s.ctrlWho m (s.bar h i).owner)
      r.1.settle r.2

/-- The operation of the hub of cluster `h` that an answer's TAG names. -/
def State.remoteOf (s : State) (h tag : Nat) (p : RemoteOp → Bool) : Option RemoteOp :=
  (s.cluster h).hub.remote.find? fun r => r.tag == tag && p r

/-- Remove a remote operation. -/
def State.dropRemote (s : State) (h : Nat) (r : RemoteOp) : State :=
  s.modHub h fun k => { k with remote := k.remote.filter fun q => q ≠ r }

/-- RESULT (R240): the status of a TFENCE signal reaches its stream engine. -/
def State.ctrlResult (s : State) (m : CtrlMsg) : State :=
  let h := m.srcClu.toNat
  s.ctrlIn 0x81 m h fun s =>
    let s := s.hubMessage h
    match s.remoteOf h m.tag.toNat fun r => r.isSignal with
    | none => s
    | some r =>
      let s := s.dropRemote h r
      match r.stream with
      | none => s
      | some (e, sid) =>
        let st := m.status.toNat
        if st = Sync.fenceError ∨ st = Sync.saturated ∨ st = Sync.noSuch then s.abortSid e sid 0x15
        else s.modEngine e fun g => { g with ending := g.ending.filter fun t => s.lingers e t }

/-- A remote wait is decided with a status: its core takes it as its answer, its stream goes on or is aborted. -/
def State.decideRemote (s : State) (h : Nat) (r : RemoteOp) (status : Nat) : State :=
  let s := s.dropRemote h r
  match r.core, r.stream, r.cmd with
  | some c, _, _ => s.giveAnswer c (BitVec.ofNat 64 status)
  | none, some (e, slot), _ =>
    let t := s.tellWaiter r.number status (.stream e slot)
    t.1.settle t.2
  | none, none, some (q, place) =>
    let t := s.tellWaiter r.number status (.command q place)
    t.1.settle t.2
  | none, none, none => s

/-- READ_ANS (R231, R239). -/
def State.ctrlReadAns (s : State) (m : CtrlMsg) : State :=
  let h := m.srcClu.toNat
  s.ctrlIn 0x83 m h fun s =>
    let s := s.hubMessage h
    match s.remoteOf h m.tag.toNat fun r => r.isRead || r.polling with
    | none => s
    | some r =>
      if r.polling then
        let st := m.status.toNat
        if st ≠ Sync.ok then s.decideRemote h r st
        else if r.target ≤ m.value.toNat then s.decideRemote h r Sync.ok
        else s
      else
        let s := s.dropRemote h r
        match r.core with
        | some c => s.giveAnswer c m.value
        | none => s

/-- WAIT_DONE (R239): one for a tag that has been cancelled is discarded. -/
def State.ctrlWaitDone (s : State) (m : CtrlMsg) : State :=
  let h := m.srcClu.toNat
  s.ctrlIn 0x84 m h fun s =>
    let s := s.hubMessage h
    match s.remoteOf h m.tag.toNat fun r => !r.isRead && !r.isSignal with
    | none => s
    | some r =>
      if m.status.toNat = Sync.registryFull then
        (s.modHub h fun k => { k with remote := k.remote.map fun q => if q = r then { q with polling := true } else q }).synCount
          h .poll
      else s.decideRemote h r m.status.toNat

/-- BAR_DONE (R242, R243). -/
def State.ctrlBarDone (s : State) (m : CtrlMsg) : State :=
  s.ctrlIn 0x90 m s.lowestCluster fun s =>
    match barTarget m with
    | none => s.synCount s.lowestCluster .badmsg
    | some (h, i) =>
      let r := s.barDoneAt h i m.status.toNat
      r.1.settle r.2

/-- COLD_WAIT_RETEST (R222): the waits on cold fences homed at hub `h` are tested. -/
def State.coldRetest (s : State) (h : Nat) : State :=
  let hit (w : Wait) : Bool := w.cold && (s.fence w.fence).home == h && (s.fence w.fence).state == .live &&
    decide (w.target ≤ (s.fence w.fence).value)
  let sat := s.waits.filter hit
  let s := { s with waits := s.waits.filter fun w => !hit w }
  let r := sat.foldl (fun (a : State × List Ev) w =>
    let t := a.1.tellWaiter w.fence Sync.ok w.who
    (t.1, a.2 ++ t.2)) (s, [])
  r.1.settle r.2

/-- HOT_FENCE_WRITEBACK (R223). -/
def State.hotWriteback (s : State) (n : Nat) : State :=
  let h := (s.fence n).home
  if (s.cluster h).hub.hot.any fun e => e.1 == n && e.2 then
    (s.writeBack n).modHub h fun k => { k with hot := k.hot.map fun e => if e.1 = n then (n, false) else e }
  else s

/-- REMOTE_WAIT_POLL (R239): the hub reads the fence again. -/
def State.remotePoll (s : State) (h tag : Nat) : State :=
  match s.remoteOf h tag fun r => r.polling with
  | none => s
  | some r =>
    let n := match r.core with
      | some c => (s.core c).ctx
      | none => match r.stream with
        | some (e, slot) => ((Tbl.find (s.engine e).active slot).map fun t => t.ctx).getD 0
        | none => match r.cmd with
          | some (q, _) => (s.queue q).ctx
          | none => 0
    s.send (.ctrl 0x03 ⟨0, false, BitVec.ofNat 16 s.fabAddr, BitVec.ofNat 16 r.mod, BitVec.ofNat 6 h,
      BitVec.ofNat 32 r.number, BitVec.ofNat 16 tag, BitVec.ofNat 16 n, 0, 0⟩)

end Sys2Proof.Machine
end

