-- ==== Sys2Proof/Machine/Queues.lean ====
section
/-! DEFINITION. Queues, doorbells, fetching and starting of commands (R290 to R297, R413, R497). -/

namespace Sys2Proof.Machine

/-! ### Refusal details (Tables 10-8 and 13-12) -/

namespace Dt
def contexts : Nat := 0x20
def rotationFull : Nat := 0x21
def dedicated : Nat := 0x22
def saveSpace : Nat := 0x23
def notMaster : Nat := 0x24
def inUse : Nat := 0x25
def importsLeft : Nat := 0x26
def queueLimit : Nat := 0x27
def ring : Nat := 0x28
def regionCheck : Nat := 0x29
def regionFull : Nat := 0x2A
def notOwner : Nat := 0x2B
def badMember : Nat := 0x2C
def noImage : Nat := 0x2D
def field : Nat := 0x2E
def bulkRead : Nat := 0x2F
end Dt

/-- The entries of a command (Table 10-5, Tables 12-7 and 13-11). -/
def cmdEntries (opc : Nat) : Nat := if opc = 0x01 ∨ opc = 0x14 ∨ opc = 0x52 ∨ opc = 0x54 then 2 else 1

/-- Opcodes that are not reserved (Table 10-5, Tables 12-7 and 13-11). -/
def knownOpc (opc : Nat) : Bool :=
  decide (opc ≤ 0x07) || decide (0x10 ≤ opc ∧ opc ≤ 0x14) || decide (0x18 ≤ opc ∧ opc ≤ 0x1E) || decide (0x40 ≤ opc ∧ opc ≤ 0x46) ||
    decide (0x50 ≤ opc ∧ opc ≤ 0x58)

/-- Opcodes of the admin queue alone. -/
def adminOnly (opc : Nat) : Bool := [0x01, 0x03, 0x04, 0x05, 0x06, 0x44, 0x45, 0x46, 0x50, 0x51, 0x57, 0x58].contains opc

/-- Opcodes of context queues alone. -/
def contextOnly (opc : Nat) : Bool :=
  [0x10, 0x11, 0x12, 0x13, 0x14, 0x18, 0x19, 0x1A, 0x1B, 0x1C, 0x1D, 0x1E, 0x40, 0x41, 0x42, 0x43, 0x53, 0x54, 0x55].contains opc

/-- Whether a command is BAD_CMD (R296): a reserved opcode or field, or WAITV or SIGV on HEARTBEAT. Words 1 to 7 of a HEARTBEAT
on the admin queue hold context numbers. -/
def Cmd.bad (c : Cmd) (admin : Bool) : Bool :=
  !knownOpc c.opc || decide (bits (c.word 0) 31 13 ≠ 0) ||
    (c.opc == 0x07 && (bit (c.word 0) 10 || bit (c.word 0) 11)) ||
    (!(c.opc == 0x07 && admin) && (decide (bits (c.word 1) 63 48 ≠ 0) || decide (bits (c.word 3) 63 48 ≠ 0))) ||
    (c.opc == 0x14 && decide (bits (c.arg 0) 1 0 = 3)) || (c.opc == 0x42 && decide (bits (c.arg 1) 1 0 = 3)) ||
    (c.opc == 0x43 && decide (bits (c.arg 1) 1 0 = 3)) || (c.opc == 0x46 && decide (bits (c.arg 0) 1 0 = 3)) ||
    (c.opc == 0x54 && decide (bits (c.arg 0) 13 12 = 3)) || (c.opc == 0x55 && decide (1 < bits (c.arg 0) 7 6))

/-! ### Doorbells (R292) -/

/-- A doorbell that is discarded (R292). -/
def State.stale (s : State) : State := { s with staleDb := min (s.staleDb + 1) (2 ^ 32 - 1) }

/-- Whether the contexts of a partition have gone to another module in a change that is in progress (R266): what is fetched and timed for
them is fetched and timed there. -/
def State.ctxAway (s : State) (n : Nat) : Bool := (s.ctx n).state != .free && (s.part (s.ctx n).part).away.isSome
/-- Whether a queue is one of such a context. -/
def State.queueAway (s : State) (q : Nat) : Bool := q != 0 && (s.queue q).inUse && s.ctxAway (s.queue q).ctx

/-- The ring of a queue: the admin ring's size stands in ADMIN_LOG (Table 18-7). -/
def State.ringLogOf (s : State) (q : Nat) : Nat := if q = 0 then s.adminLog else (s.queue q).ringLog

/-- Entries from HEAD to an index. -/
def Queue.ahead (k : Queue) (i : Nat) : Nat := (i + 65536 - k.head) % 65536

/-- The doorbells whose entries wait, after one more with its TAIL and its connection. -/
def Queue.rung (k : Queue) (tail conn : Nat) : List (Nat × Nat) :=
  (k.rings.filter fun r => decide (0 < k.ahead r.1) && decide (k.ahead r.1 < k.ahead tail)) ++ [(tail, conn)]

/-- The connection whose doorbell made the next `n` entries available (R492). -/
def Queue.rungBy (k : Queue) (n : Nat) : Nat :=
  match k.rings.find? fun r => decide (n ≤ k.ahead r.1) with
  | some r => r.2
  | none => k.conn

/-- HEAD passes `n` entries, and the doorbells whose entries are all fetched go. -/
def Queue.pass (k : Queue) (n : Nat) : Queue :=
  { k with head := (k.head + n) % 65536, rings := k.rings.filter fun r => decide (n < k.ahead r.1) }

/-- Ring a doorbell with a value, written by a connection (R292). A write of ADMIN_EN takes effect at the next doorbell of queue 0,
and while it is clear these doorbells are discarded (Table 18-7). -/
def State.ring (s : State) (q v conn : Nat) : State :=
  let s := if s.staleClear then { s with staleDb := 0, staleClear := false } else s
  let s := if q = 0 then { s with adminOn := s.adminEn } else s
  let k := s.queue q
  let tail := bits v 15 0
  if q = 0 ∧ !s.adminOn then s
  else if (q ≠ 0 ∧ (!k.inUse ∨ k.closing)) ∨ bits v 31 16 ≠ k.gen then s.stale
  else if k.error then s
  else if 2 ^ s.ringLogOf q < (tail + 65536 - k.head) % 65536 then s.modQueue q fun k => { k with error := true }
  else s.modQueue q fun k => { k with tail := tail, conn := conn, rings := k.rung tail conn }

/-! ### Fetching (R293, R296, R297, R413, R497) -/

/-- The request that reads the entry at index `i` of a context's ring (R37, R293). -/
def State.fetchReq (s : State) (q i : Nat) : MemReq :=
  let n := (s.queue q).ctx
  let p := (s.ctx n).part
  s.reqAt (.ctx n) p ((s.queue q).ringBase + 64 * (i % 2 ^ s.ringLogOf q)) (dieOf ((s.part p).lay.clusters.headD 0))

/-- Memory holds the fetch of a queue, where its first entry is not served: it keeps its place. -/
def State.holdFetch (s : State) (q i : Nat) : State :=
  let t := s.askRead (s.fetchReq q i) (.fetch q)
  if t.1.status = .hold then t.2.1 else s

/-- The entry at index `i` of a queue's ring, as the fetch's access reads it: a context's ring as its context (R37), the admin
ring from the composition record area. `none` while the memory holds the request. -/
def State.ringEntry (s : State) (q i : Nat) : Option (List Word64 × State × List Ev) :=
  let pos := i % 2 ^ s.ringLogOf q
  let words (v : Nat) : List Word64 := (List.range 8).map fun j => BitVec.ofNat 64 (v / 2 ^ (64 * j))
  if q = 0 then some (words (s.recordArea.readLE (s.adminBase + 64 * pos) 64), s, [])
  else
    let r := s.askRead (s.fetchReq q i) (.fetch q)
    if r.1.status = .hold then none else some (words r.1.data.toNat, r.2.1, r.2.2)

/-- Read `n` entries from index `i`. -/
def State.ringEntries (s : State) (q : Nat) : Nat → Nat → Option (List (List Word64) × State × List Ev)
  | _, 0 => some ([], s, [])
  | i, n + 1 =>
    match s.ringEntry q i with
    | none => none
    | some (e, s, evs) =>
      match State.ringEntries s q (i + 1) n with
      | none => none
      | some (r, s, more) => some (e :: r, s, evs ++ more)

/-- A session that stands under a handle. -/
def State.session (s : State) (h : Nat) : Option Session :=
  let e := s.key h
  if e.type = .session ∧ e.valid then Tbl.find s.sessions h else none

/-- Open a sealed frame (R413, R497): its words in clear under the session its trailer names, which on a context queue is the
context's; `none` for a frame that does not open. -/
def State.openFrame (s : State) (q : Nat) (words second trailer : List Word64) : Option (Nat × List Word64 × List Word64 × State) :=
  let h := bits (trailer.getD 0 0).toNat 11 0
  let want := (s.ctx (s.queue q).ctx).session
  match s.session h with
  | none => none
  | some ss =>
    let ctr := (trailer.getD 2 0).toNat
    if q ≠ 0 ∧ h ≠ want then none
    else if ctr ≤ Tbl.get 0 ss.lastIn q ∧ (Tbl.find ss.lastIn q).isSome then none
    else
      let tag : BitVec 128 := (trailer.getD 4 0).append (trailer.getD 3 0)
      match Config.gcmOpen ss.serial q ctr [words.getD 0 0, trailer.getD 0 0] (words.drop 1 ++ second) tag with
      | none => none
      | some plain =>
        some (h, words.take 1 ++ plain.take 7, plain.drop 7,
          { (s.modKey h fun e => { e with uses := e.uses + 1 }) with sessions := Tbl.set s.sessions h { ss with lastIn := Tbl.set ss.lastIn q ctr } })

/-- Complete a command with a status and detail, settled. -/
def State.finish (s : State) (q place : Nat) (a : Answer) : State :=
  let r := s.complete q place a
  r.1.settle r.2

/-- Renew a context's lease (R297, R315). -/
def State.renew (s : State) (n : Nat) : State :=
  let now := s.ltime
  s.modCtx n fun c => { c with leaseStart := now }

/-- Whether a context number is LIVE or LOST. -/
def State.holdsLease (s : State) (n : Nat) : Bool :=
  match (s.ctx n).state with
  | .live | .lost => decide (n ≠ 0)
  | _ => false

/-- Register a command's wait (R295): at the fence's home hub, or by a WAIT to the module that holds it. -/
def State.registerWait (s : State) (q : Nat) (c : Cmd) : State :=
  let name := c.word 1 % 2 ^ 48
  let target := c.word 2
  let n := bits name 31 0
  let who := (s.queue q).ctx
  if bits name 47 32 = s.fabAddr then
    let r := s.fenceWait n target (.ctx who) (.command q c.place)
    match r.1 with
    | none => r.2
    | some st =>
      let t := r.2.tellWaiter n st (.command q c.place)
      t.1.settle t.2
  else
    let h := (s.part (s.ctx who).part).lay.clusters.headD 0
    let tag := (s.cluster h).hub.nextTag
    let s := s.modHub h fun k => { k with
      nextTag := (tag + 1) % 2 ^ 16
      remote := k.remote ++ [(⟨tag, none, none, false, bits name 47 32, n, target, false, false, some (q, c.place), s.ltime⟩ : RemoteOp)] }
    s.send (.ctrl 0x04 ⟨0, false, BitVec.ofNat 16 s.fabAddr, BitVec.ofNat 16 (bits name 47 32), BitVec.ofNat 6 h, BitVec.ofNat 32 n,
      BitVec.ofNat 16 tag, BitVec.ofNat 16 who, BitVec.ofNat 64 target, 0⟩)

/-- What is wrong with a fetched command, before it may wait for its start: the status that it completes with (R296, R316,
R319). -/
def State.fetchStatus (s : State) (q : Nat) (c : Cmd) (opened : Bool) : Option Nat :=
  let n := (s.queue q).ctx
  let x := s.ctx n
  let isSealed := bit (c.word 0) 9
  if (isSealed && !opened) || (!isSealed && decide (q ≠ 0) && decide (x.session ≠ 0)) then some St.badSeal
  else if q ≠ 0 ∧ x.state = .tearing then some St.teardown
  else if q ≠ 0 ∧ x.state = .lost ∧ c.opc ≠ 0x02 then some St.ctxLost
  else if c.bad (q == 0) then some St.badCmd
  else if (q = 0 ∧ contextOnly c.opc) ∨ (q ≠ 0 ∧ adminOnly c.opc) then some St.wrongQueue
  else none

/-- A fetched command is logged for the job's epoch, and a copy of its entry goes to the master (R366); a full log leaves the epoch
unprotected (R367). -/
def State.logFetch (s : State) (q : Nat) (c : Cmd) : State :=
  let n := (s.queue q).ctx
  let x := s.ctx n
  if q = 0 ∨ c.opc = 0x07 then s
  else
    match s.job x.forme x.job with
    | none => s
    | some j =>
      let mine := j.log.filter fun e => decide ((s.ctx (s.queue e.queue).ctx).member = x.member)
      if !j.active || j.unprotected then s
      else if j.logCap ≤ mine.length then
        (s.modJob x.forme x.job fun j => { j with unprotected := true }).record (s.recOfCtx n { cause := 0x33, severity := 0, d5 := 1 })
      else
        let s := s.modJob x.forme x.job fun j => { j with log := j.log ++ [⟨q, c.place, c.words, false, false⟩] }
        match (s.forme x.forme).bind fun f => f.masterMod with
        | none => s
        | some m =>
          let msg := { s.recMsg m x.forme (member := x.member) (job := x.job) (epochNo := j.mark) with
            queue := BitVec.ofNat 16 q, entry := c.words }
          s.emit (.recov 0x0B msg)

/-- The context numbers that a HEARTBEAT of the admin queue names in words 1 to 7, 0 standing for none (Table 10-5). -/
def Cmd.named (c : Cmd) : List Nat :=
  ((rangeFrom 1 7).flatMap fun i => (List.range 4).map fun j => bits (c.word i) (16 * j + 15) (16 * j)).filter fun n => n ≠ 0

/-- Each number of a list is renewed where it holds a lease, and is counted where it does not (R297). -/
def State.renewAll (s : State) (names : List Nat) : State :=
  names.foldl (fun s n => if s.holdsLease n then s.renew n else { s with hbIgnored := s.hbIgnored + 1 }) s

/-- The processor that serves a queue (R290): the cluster control processor of the lowest cluster of its context's partition, or the die
control processor, here number 48, for queue 0 and for a memory-only member. -/
def State.serverOf (s : State) (q : Nat) : Nat :=
  if q = 0 then 48 else (s.part (s.ctx (s.queue q).ctx).part).lay.clusters.headD 48

/-- Whether a queue has entries that may be fetched. -/
def State.fetchable (s : State) (q : Nat) : Bool :=
  let k := s.queue q
  !(if q = 0 then !s.adminOn else !k.inUse || k.closing) && !k.error && !k.markHold && k.tail != k.head && !s.queueAway q &&
    decide ((s.cring k.cring).waiting.length < 256)

/-- The queue whose turn it is at a processor (R293): the first with entries after the one that it served last. -/
def State.nextQueue (s : State) (g : Nat) : Option Nat :=
  let qs := (s.queues.map fun e => e.1).filter fun q => s.serverOf q == g && s.fetchable q
  let last := Tbl.get 0 s.fetchTurn g
  match qs.find? fun q => decide (last < q) with
  | some q => some q
  | none => qs.head?

/-- The next command of a queue is fetched where all its entries are available. Fetching waits while 256
completions wait for the ring (R494), or for an EPOCH_MARK (R365). -/
def State.fetchOne (s : State) (q : Nat) : State :=
  let k := s.queue q
  let avail := (k.tail + 65536 - k.head) % 65536
  if !s.fetchable q then s
  else
    match s.ringEntry q k.head with
    | none => s.holdFetch q k.head
    | some (e0, _, _) =>
      let w0 := (e0.getD 0 0).toNat
      let isSealed := bit w0 9
      let body := cmdEntries (bits w0 7 0)
      let need := body + b2n isSealed
      if avail < need then s
      else
        match s.ringEntries q k.head need with
        | none => s.holdFetch q k.head
        | some (es, s, evs) =>
          let s := s.settle evs
          let first := es.getD 0 []
          let second := if body = 2 then es.getD 1 [] else []
          let opened := if isSealed then s.openFrame q first second (es.getD body []) else none
          let (sess, words, two, s) := opened.getD (0, first, second, s)
          let now := s.ltime
          let place := k.nextPlace
          let c : Cmd := { place := place, words := words, second := two, session := sess, state := .waiting,
                           waitMet := !bit w0 10, fetched := now, started := 0, bulk := none, bulkAsked := false, asked := false, notRepro := false,
                           fallback := false, run := none, energy0 := [], energyFar := [], silent := false, conn := k.rungBy need }
          let s := s.modQueue q fun k => { k.pass need with nextPlace := place + 1, cmds := k.cmds ++ [c] }
          let s := if q ≠ 0 ∧ s.holdsLease k.ctx then s.renew k.ctx else s
          let why := s.fetchStatus q c opened.isSome
          let s := if why.isSome then s else s.logFetch q c
          let s := if why.isNone ∧ q = 0 ∧ c.opc = 0x07 then s.renewAll c.named else s
          match why with
          | some st => s.finish q place { status := st }
          | none => if c.waitMet then s else s.registerWait q c

/-- COMMAND_FETCH: a processor serves its queues in turn, one command at a time (R293); a queue whose next command it cannot have yet
loses its turn (assumption 139). -/
def State.commandFetch (s : State) (q : Nat) : State :=
  let g := s.serverOf q
  if s.nextQueue g = some q then State.fetchOne { s with fetchTurn := Tbl.set s.fetchTurn g q } q else s

/-- Every entry that a queue's doorbells cover is fetched. -/
def State.fetchAll (s : State) (q : Nat) : Nat → State
  | 0 => s
  | n + 1 => State.fetchAll (s.fetchOne q) q n

/-! ### Starting (R294, R295) -/

/-- Whether a command may start beside what stands before it in its queue. -/
def mayStart (c : Cmd) : List Cmd → Bool
  | [] => false
  | d :: r =>
    if d.place = c.place then true
    else if bit (c.word 0) 8 then
      match r with
      | [] => false
      | e :: _ => if e.place = c.place then d.state != .waiting else mayStart c r
    else false

/-- Whether the job of a context has been rolled back and not resumed: its queues start nothing (R368, R372). -/
def State.rolledBack (s : State) (n : Nat) : Bool :=
  decide (n ≠ 0) && (s.forme (s.ctx n).forme).any fun f => f.rolledJobs.contains (s.ctx n).job

/-- Whether a command waits, has its fence and its turn. -/
def State.startable (s : State) (q : Nat) (c : Cmd) : Bool :=
  !s.queueAway q && c.state == .waiting && c.waitMet && mayStart c (s.queue q).cmds && !s.rolledBack (s.queue q).ctx

/-- Change the command at a place of a queue. -/
def State.modCmd (s : State) (q place : Nat) (f : Cmd → Cmd) : State :=
  s.modQueue q fun k => { k with cmds := k.cmds.map fun c => if c.place = place then f c else c }

/-- A command starts. -/
def State.start (s : State) (q : Nat) (c : Cmd) : State :=
  let now := s.ltime
  let e := s.energies [(s.queue q).ctx]
  s.modCmd q c.place fun d => { d with state := .running, started := now, energy0 := e }

/-- The first command of queue `q` that may start and that `p` takes. -/
def State.next (s : State) (q : Nat) (p : Cmd → Bool) : Option Cmd :=
  (s.queue q).cmds.find? fun c => s.startable q c && p c

/-- A started command waits for answers of other modules. -/
def State.ordered (s : State) (q : Nat) (c : Cmd) : State := s.modCmd q c.place fun d => { d with asked := true }

/-- The first command of queue `q` that `p` takes and that waits for answers of other modules. -/
def State.awaiting (s : State) (q : Nat) (p : Cmd → Bool) : Option Cmd :=
  (s.queue q).cmds.find? fun c => c.asked && c.state == .running && p c

/-- Run the next command of opcode `opc` of a queue. -/
def State.onCmd (s : State) (q opc : Nat) (f : State → Cmd → State) : State :=
  match s.next q fun c => c.opc == opc with
  | none => s
  | some c => f (s.start q c) c

/-- Ask for a command's bulk argument (R294): an RDMA READ of its whole length, over the connection whose doorbell made the command
available (R492). -/
def State.askBulk (s : State) (q : Nat) (c : Cmd) : State :=
  let len := bits (c.arg 1) 63 32
  let s := (s.start q c).modCmd q c.place fun d => { d with bulkAsked := true, state := .waiting }
  if len = 0 then s.modCmd q c.place fun d => { d with bulk := some [] }
  else
    match s.hostRead c.conn (c.arg 0) (bits (c.arg 1) 31 0) len (.bulk q c.place) with
    | some s => s
    | none => s.finish q c.place { status := St.refused, detail := Dt.bulkRead }

/-- Run the next command of opcode `opc` that takes a bulk argument: first it is read, then it is acted on. -/
def State.onBulk (s : State) (q opc : Nat) (f : State → Cmd → List Byte → State) : State :=
  match s.next q fun c => c.opc == opc with
  | none => s
  | some c =>
    match c.bulk with
    | some b => f (s.start q c) c b
    | none => if c.bulkAsked then s else s.askBulk q c

/-- A refusal of a command. A replayed allocation that no longer fits loses the job (R369). -/
def State.refuseCmd (s : State) (q : Nat) (c : Cmd) (detail : Nat) : State :=
  let n := (s.queue q).ctx
  let s := s.finish q c.place { status := St.refused, detail := detail }
  if c.silent ∧ c.opc = 0x12 then s.settle [.lose n] else s

/-- A command ends OK with a result. -/
def State.okCmd (s : State) (q : Nat) (c : Cmd) (result : List Word64 := []) : State :=
  s.finish q c.place { status := St.ok, result := result }

/-- WAITV_SATISFIED (R295): the wait of the first command of a queue that waits is tested at its fence's home hub. -/
def State.waitvSatisfied (s : State) (q : Nat) : State :=
  match (s.queue q).cmds.find? fun c => c.state == .waiting && !c.waitMet with
  | none => s
  | some c =>
    let name := c.word 1 % 2 ^ 48
    if bits name 47 32 ≠ s.fabAddr then s
    else
      let n := bits name 31 0
      let r := s.fenceRead n (.ctx (s.queue q).ctx)
      let mine (w : Waiter) : Bool := w == .command q c.place
      let s := r.2.2
      let st := if r.1 = Sync.ok ∧ r.2.1 < c.word 2 then none else some r.1
      match st with
      | none => s
      | some st =>
        let t := (s.dropWaits mine).tellWaiter n st (.command q c.place)
        t.1.settle t.2

/-- NOP (R296). -/
def State.cmdNop (s : State) (q : Nat) : State := s.onCmd q 0x00 fun s c => s.okCmd q c

/-- HEARTBEAT (R297): its renewals were made at its fetch, which waits for no place in the queue; the command completes in its
place. -/
def State.heartbeat (s : State) (q : Nat) : State := s.onCmd q 0x07 fun s c => s.okCmd q c

end Sys2Proof.Machine
end

