-- ==== Sys2Proof/Machine/Contexts.lean ====
section
/-! DEFINITION. Contexts, queues and teardown (R285 to R291, R311, R312, R315 to R322). -/

namespace Sys2Proof.Machine

/-! ### Creating (R285, R288, R289, R311, R312) -/

/-- A job of which nothing has run. -/
def Job.blank (forme id : Nat) : Job where
  forme := forme
  id := id
  runSeq := 0
  ran := []
  markSeq := 0
  markRan := []
  digest := none
  budget := 0
  logCap := 65536
  coreState := false
  pendCfg := none
  active := false
  mark := 0
  impure := false
  unprotected := false
  log := []
  fenceSnap := []
  allocSnap := []
  checkpoint := []
  before := none
  affected := false
  checkedOut := []
  marks := []

/-- Contexts in use (R285). -/
def State.ctxCount (s : State) : Nat := (s.ctxs.filter fun e => e.2.state != .free).length

/-- The first context number after `n` that is FREE, modulo 2^16, skipping 0 (R285). -/
def State.freeCtxFrom (s : State) : Nat → Nat → Nat
  | 0, n => n
  | fuel + 1, n =>
    let m := if (n + 1) % 65536 = 0 then 1 else (n + 1) % 65536
    if (s.ctx m).state = .free then m else State.freeCtxFrom s fuel m

/-- Bytes of the save area of one cluster (R311): 41 MiB, the scratch part and 64 KiB. -/
def State.saveBytes (s : State) (cl : Nat) : Nat := 41 * 2 ^ 20 + (16 - (s.cluster cl).csmWays) * 524288 + 65536

/-- Place `n` bytes in a segment clear of key windows too (R406). -/
def State.placeClear (s : State) (p : Nat) (g : Segment) (n : Nat) : Option Nat :=
  let q := s.part p
  let taken := s.takenRanges q ++ q.windows.map fun w => (w.2.base, w.2.length)
  let base := segStart g
  let size := q.lay.segPages g * 4096
  let used := q.allocs.foldl (fun a e => if q.lay.segment e.base = some g then a + e.size else a) 0
  if g = .interleaved ∧ size < used + n + q.budget then none
  else firstFit taken 4096 n (base + size) taken.length base

/-- Allocate the save areas of a context for each cluster of a list (R311); `none` where one finds no room. -/
def State.grantSaves (s : State) (n p : Nat) : List Nat → Option State
  | [] => some s
  | cl :: r =>
    let g : Segment := if ((s.part p).lay.nearChannels cl).length = 8 then .near cl else .interleaved
    match s.placeClear p g (s.saveBytes cl) with
    | none => none
    | some a => State.grantSaves (s.grant p a (s.saveBytes cl) n (.save cl)) n p r

/-- What CREATE_CTX asks for (Table 10-2). -/
structure CtxParams where
  forme : Nat
  member : Nat
  conn : Nat
  job : Nat
  asn : Nat
  seed : Word64
  lease : Nat
  session : Nat
  dedicated : Bool
  share : Nat
  quotas : List Nat
  bad : Bool
deriving DecidableEq, Repr

/-- Read the parameter entry of CREATE_CTX. -/
def ctxParams (c : Cmd) : CtxParams where
  forme := bits (c.word2 0) 31 0
  member := bits (c.word2 0) 47 32
  conn := bits (c.word2 0) 63 48
  job := bits (c.word2 1) 31 0
  asn := bits (c.word2 1) 51 32
  seed := c.second.getD 2 0
  lease := if bits (c.word2 3) 31 0 = 0 then 5000 else bits (c.word2 3) 31 0
  session := bits (c.word2 3) 43 32
  dedicated := bit (c.word2 3) 44
  share := if bits (c.word2 3) 48 45 = 0 then 1 else bits (c.word2 3) 48 45
  quotas := (rangeFrom 4 4).flatMap fun i => (List.range 4).map fun j => bits (c.word2 i) (16 * j + 15) (16 * j)
  bad := decide (bits (c.word2 1) 63 52 ≠ 0) || decide (bits (c.word2 3) 63 49 ≠ 0) ||
    (let l := bits (c.word2 3) 31 0
     decide (l ≠ 0 ∧ (l < 100 ∨ 600000 < l)))

/-- The reason for which CREATE_CTX is refused (R289, R312, R483), `none` where it is accepted so far; `far` are the jobs of the forme that
hold a context on its other modules. -/
def State.createWhy (s : State) (r : CtxParams) (part : Option Nat) (far : List (Nat × Bool)) : Option Nat :=
  let jobs := ((s.ctxs.filter fun e => e.2.state != .free && decide (e.2.forme = r.forme)).map fun e => (e.2.job, e.2.dedicated)) ++ far
  let rotation := distinct (((s.forme r.forme).map fun f => f.rotation).getD [] ++ far.map fun j => j.1)
  if r.bad ∨ (s.conn r.conn).st ≠ .up then some Dt.field
  else if part.isNone then some Dt.badMember
  else if (s.jobCtxs r.forme r.job).any fun e => decide (e.2.member = r.member) then some Dt.badMember
  else if 4096 ≤ s.ctxCount then some Dt.contexts
  else if !rotation.contains r.job ∧ 64 ≤ rotation.length then some Dt.rotationFull
  else if (r.dedicated && jobs.any fun j => decide (j.1 ≠ r.job)) || jobs.any fun j => j.2 && decide (j.1 ≠ r.job) then
    some Dt.dedicated
  else none

/-- CREATE_CTX (R289): the context becomes LIVE with empty heaps, its CONTEXT key and its save area. -/
def State.createCtx (s : State) (q : Nat) (far : List (Nat × Bool)) : State :=
  s.onCmd q 0x01 fun s c =>
    let r := ctxParams c
    let part := match s.forme r.forme with
      | some f => match Tbl.find f.members r.member with
        | some m => if m.fab = s.fabAddr then some m.part else none
        | none => none
      | none => none
    if r.session ≠ 0 ∧ c.session ≠ r.session then s.finish q c.place { status := St.badSeal }
    else
      match s.createWhy r part far with
      | some why => s.refuseCmd q c why
      | none =>
        let p := part.getD 0
        let n := s.freeCtxFrom 65536 s.lastCtx
        let serial := s.keySerial + 1
        let now := s.ltime
        let x : Context := { Context.reset with
          state := .live, forme := r.forme, member := r.member, part := p, conn := r.conn, job := r.job, asn := r.asn, seed := r.seed,
          leaseMs := r.lease, leaseStart := now, session := r.session, dedicated := r.dedicated, share := r.share, quotas := r.quotas,
          keySerial := serial }
        match s.grantSaves n p (if r.dedicated then [] else (s.part p).lay.clusters) with
        | none => s.refuseCmd q c Dt.saveSpace
        | some s =>
          let s := { s with ctxs := Tbl.set s.ctxs n x, lastCtx := n, keySerial := serial }
          let s := if (s.job r.forme r.job).isSome then s else { s with jobs := s.jobs ++ [Job.blank r.forme r.job] }
          let s := s.modForme r.forme fun f =>
            { f with rotation := if f.rotation.contains r.job then f.rotation else f.rotation ++ [r.job] }
          s.okCmd q c [BitVec.ofNat 64 n]

/-! ### Queues (R291, R296, R485) -/

/-- Queues that a context may hold (R291). -/
def State.queueLimit (s : State) (n : Nat) : Nat :=
  let x := s.ctx n
  match s.job x.forme x.job, (s.part x.part).residency with
  | some j, some im => if j.digest = some im.digest then max 4 im.queues else 4
  | _, _ => 4

/-- Queues that a context holds. -/
def State.queuesOf (s : State) (n : Nat) : Nat := (s.queues.filter fun e => e.2.inUse && !e.2.closing && decide (e.2.ctx = n)).length

/-- Queues of this module that context `n` can have: those of other contexts, and those that accepted loads have reserved for them, are
taken (R307). -/
def State.queuesFree (s : State) (n : Nat) : Nat :=
  let used := (s.queues.filter fun e => e.2.inUse && decide (e.2.ctx ≠ n) && decide (e.1 ≠ 0)).length
  let reserved := s.ctxs.foldl (fun a e =>
    if e.1 ≠ n ∧ s.ctxBound e.1 e.2.part then
      a + ((((s.part e.2.part).residency.map fun r => r.queues).getD 0) - s.queuesOf e.1) else a) 0
  8191 - used - reserved

/-- Barrier instances of hub `h` that context `n` of partition `p` can have, in the same way (R307). -/
def State.barsFree (s : State) (p h n : Nat) : Nat :=
  let used := ((s.cluster h).hub.bars.filter fun b => b.2.conf && b.2.owner != n).length
  let per := ((s.part p).residency.map fun r => r.barriers).getD 0
  let reserved := s.ctxs.foldl (fun a e =>
    if e.1 ≠ n ∧ s.ctxBound e.1 p then
      a + (per - ((s.cluster h).hub.bars.filter fun b => b.2.conf && b.2.owner == e.1).length) else a) 0
  256 - used - reserved

/-- Whether a ring lies within one live allocation of the context: its heaps', its constant block or a save area (R291; assumption 60). -/
def State.ringLies (s : State) (n base size : Nat) : Bool :=
  (s.part (s.ctx n).part).allocs.any fun a => decide (a.ctx = n) && decide (a.base ≤ base) && decide (base + size ≤ a.base + a.size)

/-- The status with which a command that names context `n` ends where the context is not LIVE. -/
def State.ctxStatus (s : State) (n : Nat) : Option Nat :=
  if n = 0 then some St.noCtx
  else match (s.ctx n).state with
    | .free => some St.noCtx
    | .lost => some St.ctxLost
    | .tearing => some St.teardown
    | .live => none

/-- CREATE_QUEUE (R291). -/
def State.createQueue (s : State) (q : Nat) : State :=
  s.onCmd q 0x03 fun s c =>
    let n := bits (c.arg 0) 15 0
    let log := bits (c.arg 0) 19 16
    let base := bits (c.arg 1) 39 0
    let cr := bits (c.arg 2) 15 0
    match s.ctxStatus n with
    | some st => s.finish q c.place { status := st }
    | none =>
      if log < 6 then s.refuseCmd q c Dt.field
      else if base % 4096 ≠ 0 ∨ !s.ringLies n base (64 * 2 ^ log) ∨ !(s.cring cr).defined ∨ (s.cring cr).conn ≠ (s.ctx n).conn then
        s.refuseCmd q c Dt.ring
      else if min (s.queueLimit n) (s.queuesFree n) ≤ s.queuesOf n then s.refuseCmd q c Dt.queueLimit
      else
        match (rangeFrom 1 8191).find? fun i => !(s.queue i).inUse with
        | none => s.refuseCmd q c Dt.queueLimit
        | some i =>
          let gen := ((s.queue i).gen + 1) % 65536
          let s := { s with queues := Tbl.set s.queues i { Queue.reset with
            inUse := true, ctx := n, ringLog := log, ringBase := base, cring := cr, gen := gen } }
          s.okCmd q c [BitVec.ofNat 64 (i + gen * 65536)]

/-- A queue number is given back; its generation stays (R291). -/
def State.freeQueue (s : State) (i : Nat) : State :=
  let s := s.dropWaits fun w => match w with
    | .command q _ => q == i
    | _ => false
  s.modQueue i fun k => { Queue.reset with gen := k.gen }

/-- DESTROY_QUEUE (R296): the queue fetches nothing more, and commands that it had fetched run on (R292; assumption 61). -/
def State.destroyQueue (s : State) (q : Nat) : State :=
  s.onCmd q 0x04 fun s c =>
    let i := bits (c.arg 0) 12 0
    if i = 0 ∨ !(s.queue i).inUse ∨ (s.queue i).closing then s.refuseCmd q c Dt.field
    else if (s.queue i).cmds.isEmpty then (s.freeQueue i).okCmd q c
    else (s.modQueue i fun k => { k with closing := true }).okCmd q c

/-! ### Teardown (R318 to R322) -/

/-- Every other context of a job on this module is lost; the loss is reported to the forme master (R316, R318). -/
def State.loseOthers (s : State) (n : Nat) : State :=
  let x := s.ctx n
  let others := ((s.jobCtxs x.forme x.job).filter fun e => e.1 ≠ n).map fun e => e.1
  (s.settle (others.map .lose)).send (.loss x.forme x.job x.member)

/-- The cores that run context `n`. -/
def State.coresOf (s : State) (n : Nat) : List Nat := (s.cores.filter fun e => e.2.ctx == n && e.2.busy).map fun e => e.1

/-- Step 1 and the stops of step 2 (Table 10-12): the context is TEARING, its commands end, its cores stop under R82, a pending ALLOC or FREE
completed first, and its streams stop. The command that asks for the teardown runs on. The scheduler goes to the next job (R322). -/
def State.beginTeardown (s : State) (n : Nat) (why : TeardownWhy) : State :=
  match (s.ctx n).state with
  | .live | .lost =>
    let keep : Option (Nat × Nat) := match why with
      | .command q place => some (q, place)
      | _ => none
    let ends := (s.cmdsOf n).filter fun e => some e ≠ keep
    let now := s.ltime
    let forme := (s.ctx n).forme
    let s := (s.coresOf n).foldl (fun s c => s.stopCore c) s
    let s := (s.coresOf n).foldl (fun s c => s.modCore c fun k => { k with savedArms := [] }) s
    let s := s.modCtx n fun c => { c with state := .tearing, teardown := some why, tearAt := now, drainForced := false }
    let s := s.stopStreams n
    let r := s.endCmds { status := St.teardown } ends
    ((r.1.settle r.2).loseOthers n).reschedule forme []
  | _ => s

/-- Whether an RDMA operation reads a bulk argument for a queue of context `n` (R294). -/
def State.bulkOf (s : State) (n : Nat) (u : OutUse) : Bool :=
  match u with
  | .bulk q _ => decide (q ≠ 0) && (s.queue q).ctx == n
  | _ => false

/-- Whether a request of context `n` is outstanding (R256): of its streams, at the host or at another module, or a read of a bulk
argument. -/
def State.outstandingOf (s : State) (n : Nat) : Bool :=
  (s.engines.any fun e =>
    (e.2.ending.any fun t => decide (t.ctx = n) && !t.reqs.isEmpty) ||
    e.2.active.any fun p => decide (p.2.ctx = n) && !p.2.reqs.isEmpty) ||
  s.rdmaOut.any fun o => s.bulkOf n o.use

/-- A core that last ran a context is zeroed; its instruction memory stays (R319, step 4). -/
def Core.wipe (k : Core) : Core :=
  { Core.reset with imem := k.imem, imemBad := k.imemBad, codeLen := k.codeLen, part := k.part, vcore := k.vcore, lmCorr := k.lmCorr,
                    accCorr := k.accCorr }

/-- Step 3, erase: the keys that a context owns, its CONTEXT key, its places in share lists, and the session of which it is the
last. -/
def State.eraseCtx (s : State) (n : Nat) : State :=
  let own := (s.keys.filter fun e => e.2.owner == n && e.2.type != .session && decide (0x040 ≤ e.1)).map fun e => e.1
  let ss := (s.ctx n).session
  let s := ((s.destroyKeys own).dropCached 0x03F n).dropPrincipal n
  if ss ≠ 0 ∧ !s.sessionBound ss n then s.destroySession ss else s

/-- Take back every allocation of a list. -/
def State.ungrantAll (s : State) (p : Nat) (l : List Alloc) : State × List Ev :=
  l.foldl (fun (a : State × List Ev) e =>
    let t := a.1.ungrant p e
    (t.1, a.2 ++ t.2)) (s, [])

/-- The queues of a context. -/
def State.ownQueues (s : State) (n : Nat) : List Nat :=
  (s.queues.filter fun e => e.2.inUse && decide (e.2.ctx = n) && decide (e.1 ≠ 0)).map fun e => e.1

/-- Whether queue `i` holds the command that has asked for a teardown: the queue goes with its completion. -/
def Context.lastCmd (x : Context) (i : Nat) : Bool :=
  match x.teardown with
  | some (.command q _) => q == i
  | _ => false

/-- Entries that a doorbell covers before step 4 complete with TEARDOWN too (Table 10-12, step 1). -/
def State.endRings (s : State) (n : Nat) : State :=
  (s.ownQueues n).foldl (fun s i => s.fetchAll i ((s.queue i).ahead (s.queue i).tail)) s

/-- Step 4, free: cores and scratch zeroed; allocations, save areas, regions, windows and queues freed. -/
def State.freeCtxParts (s : State) (n : Nat) : State :=
  let x := s.ctx n
  let p := x.part
  let cs := (s.cores.filter fun e => e.2.ctx == n).map fun e => e.1
  let s := cs.foldl (fun s c =>
    ((s.modCore c Core.wipe).dropWaits (Waiter.ofCore c)).modCluster (clusterOf c) fun k => { k with
      scratch := [], csmBad1 := [], csmBad2 := [] }) s
  let r := s.ungrantAll p ((s.part p).allocs.filter fun a => decide (a.ctx = n) && a.kind != .shared)
  let stopped := distinct (((s.part p).regions.filter fun g => g.suspect && decide (g.owner = n)).flatMap fun g => s.windowOwners p g)
  let s := r.1.settle (r.2 ++ (stopped.filter fun k => k ≠ n).map .lose)
  let s := s.modPart p fun q => { q with
    regions := q.regions.filter fun g => g.owner ≠ n
    windows := q.windows.filter fun w => w.2.owner ≠ n }
  (s.ownQueues n).foldl (fun s i => if x.lastCmd i then s.modQueue i fun k => { k with closing := true } else s.freeQueue i) s

/-- Step 5, fences: owned fences enter ERROR, imports are released, owned barrier instances are unconfigured, and every owned
fence in ERROR without imports becomes FREE. -/
def State.fenceStep (s : State) (n : Nat) : State :=
  let s := s.settle ((s.ownedFences n).map .fenceErr)
  let s := (s.ctx n).imports.foldl (fun s name => s.releaseName n name) s
  let s := s.settle ((s.ownedBars n).map fun b => .barDone b Sync.noSuch)
  let done := (s.fences.filter fun e => e.2.owner == n && e.2.state == .error && decide (e.2.imports = 0)).map fun e => e.1
  done.foldl (fun s f => s.freeFence f) s

/-- The residency ends when context `n`, the last bound to it, is torn down (R308). -/
def State.residencyStep (s : State) (p n : Nat) : State :=
  if (s.part p).residency.isSome && !(s.ctxs.any fun e => decide (e.1 ≠ n) && s.ctxBound e.1 p) then
    let r := s.endResidency p
    r.1.settle r.2
  else s

/-- Step 6, signal: the teardown completion of context `n`, which was `x`, on the ring of the command that asked for it or on the admin ring
with TAG 0. -/
def State.teardownDone (s : State) (n : Nat) (x : Context) : State :=
  let e := BitVec.ofNat 64 (x.energy / energyUnit)
  match x.teardown with
  | some (.command q place) => s.finish q place { status := St.ok, result := [e], drainForced := x.drainForced }
  | some why =>
    let detail := match why with
      | .lease => 0x01
      | .memberLost => 0x02
      | _ => 0x03
    let flags := b2n x.drainForced * 16
    s.pushGroup 0 ⟨0, 0, [completionHead St.ok flags 0 0 n detail ++ [0, 0, e, 0, 0, 0]]⟩
  | none => s

/-- The number becomes FREE; a job with no context left on the forme leaves the rotation. -/
def State.freeCtx (s : State) (n : Nat) : State :=
  let x := s.ctx n
  let s := { s with ctxs := Tbl.del s.ctxs n }
  let s := if (s.jobCtxs x.forme x.job).isEmpty then
      ({ s with jobs := s.jobs.filter fun j => !(decide (j.forme = x.forme) && decide (j.id = x.job)) }).modForme x.forme fun f =>
        { f with rotation := f.rotation.filter fun j => j ≠ x.job, running := if f.running = some x.job then none else f.running }
    else s
  s.reschedule x.forme []

/-- Steps 3 to 6 of a teardown (Table 10-12), after the entries rung before step 4. The queue that carried the command goes with its
completion. -/
def State.finishTeardown (s : State) (n : Nat) : State :=
  let x := s.ctx n
  let s := (s.endRings n).eraseCtx n
  let s := ((s.freeCtxParts n).fenceStep n).residencyStep x.part n
  (s.teardownDone n x).freeCtx n

/-- TEARDOWN_DRAIN_COMPLETE (R319): every request of the context has completed. -/
def State.teardownDrained (s : State) (n : Nat) : State :=
  if (s.ctx n).state = .tearing ∧ !s.outstandingOf n then s.finishTeardown n else s

/-- The bound of the drain (Table 10-12, step 2), in ns. -/
def drainBound : Nat := 20000000

/-- TEARDOWN_DRAIN_TIMEOUT (R319): at the bound of 20 ms the ladder ends the requests that are left. -/
def State.teardownForced (s : State) (n : Nat) : State :=
  if (s.ctx n).state = .tearing ∧ s.outstandingOf n then
    let ids := (s.engines.map fun (e : Nat × StreamEngine) =>
      ((e.2.ending ++ e.2.active.map fun p => p.2).filter fun t => decide (t.ctx = n)).flatMap fun t => t.reqs.map fun r => (e.1, r.id)).flatten
    let mine (u : OutUse) : Bool := match u with
      | .stream e r => ids.contains (e, r)
      | u => s.bulkOf n u
    let s := s.advanceTo ((s.ctx n).tearAt + drainBound)
    let s := { s with
      peerOut := s.peerOut.filter fun o => !mine o.use
      rdmaOut := s.rdmaOut.filter fun o => !mine o.use
      engines := s.engines.map fun (e : Nat × StreamEngine) =>
        (e.1, { e.2 with ending := e.2.ending.filter fun t => t.ctx ≠ n, active := e.2.active.filter fun p => p.2.ctx ≠ n }) }
    (s.modCtx n fun c => { c with drainForced := true }).finishTeardown n
  else s

/-- DESTROY_CTX (R318, R319). -/
def State.destroyCtx (s : State) (q : Nat) : State :=
  s.onCmd q 0x02 fun s c =>
    let a := bits (c.arg 0) 15 0
    let own := (s.queue q).ctx
    let n := if q ≠ 0 ∧ a = 0 then own else a
    if q ≠ 0 ∧ n ≠ own then s.refuseCmd q c Dt.field
    else if n = 0 ∨ (s.ctx n).state = .free then s.finish q c.place { status := St.noCtx }
    else if (s.ctx n).state = .tearing then s.finish q c.place { status := St.teardown }
    else s.beginTeardown n (.command q c.place)

/-- LEASE_EXPIRY (R315). -/
def State.leaseExpiry (s : State) (n : Nat) : State :=
  if s.holdsLease n && !s.ctxAway n then
    let x := s.ctx n
    (s.advanceTo (x.leaseStart + x.leaseMs * 1000000)).beginTeardown n .lease
  else s

/-- LOSS_REPORT (R316): every other context of the job is lost, here and through their modules. -/
def State.lossReport (s : State) (forme job member : Nat) : State :=
  let own := ((s.jobCtxs forme job).filter fun e => e.2.member ≠ member && e.2.state == .live).map fun e => e.1
  let s := own.foldl (fun s n => (s.settle [.lose n])) s
  match s.forme forme with
  | some f =>
    if s.isMaster f then (f.modules.filter fun m => m ≠ s.fabAddr).foldl (fun s _ => s.send (.loss forme job member)) s else s
  | none => s

end Sys2Proof.Machine
end

