-- ==== Sys2Proof/Machine/FormePlan.lean ====
section
/-! DEFINITION. Checking a plan at the master (R258, R259), choosing share bases (R267) and a participant's admission
checks (R261). -/

namespace Sys2Proof.Machine

/-! Reason codes of Table 09-6. -/
namespace Why09
def badPlan : Nat := 0x01
def epochMismatch : Nat := 0x02
def busy : Nat := 0x03
def clusters : Nat := 0x04
def channels : Nat := 0x05
def staging : Nat := 0x06
def guarantee : Nat := 0x07
def power : Nat := 0x08
def keyWindow : Nat := 0x09
def linkShare : Nat := 0x0A
def masterPinned : Nat := 0x0B
def vcoreBusy : Nat := 0x0C
def partitions : Nat := 0x0D
def member : Nat := 0x0E
def hostPath : Nat := 0x0F
def footprint : Nat := 0x10
end Why09

/-! ### The master's checks (R258, R259) -/

/-- Numbers of the set bits of a mask. -/
def onesOf {w : Nat} (m : BitVec w) : List Nat := (List.range w).filter fun i => m.getLsbD i

/-- Whether an entry on its own breaks R258: reserved fields, ranges, masks of a REMOVE, MEMONLY against CLUSTERS. -/
def planEntryBad (e : PlanEntry) : Bool :=
  e.rsv || decide (e.action = 0 ∨ 4 < e.action) || decide (47 < e.part) || decide (65536 < e.powerFrac) || decide (131072 < e.eN) ||
    (e.linkShare.any fun k => decide (32 < k)) || (e.memOnly && decide (e.vcoreBase ≠ 0)) ||
    (if e.action = actRemove then e.clusters != 0 || e.channels != 0 else e.memOnly != (e.clusters == 0))

/-- Whether another entry of a plan names the member of `a`. -/
def namedTwice (es : List PlanEntry) (a : PlanEntry) : Bool := decide (1 < (es.filter fun b => b.member == a.member).length)

/-- Whether another compute entry of a plan, or a member that it leaves as it is, takes a virtual core of `a` (R252); `kept` are the
present entries of the forme's members. -/
def vcoresClash (kept es : List PlanEntry) (a : PlanEntry) : Bool :=
  (es ++ kept.filter fun b => !(es.any fun e => e.member == b.member)).any fun b =>
    decide (a.member ≠ b.member) && a.action != actRemove && b.action != actRemove && !a.memOnly && !b.memOnly &&
      decide (a.vcoreBase < b.vcoreBase + 4 * (onesOf b.clusters).length) &&
      decide (b.vcoreBase < a.vcoreBase + 4 * (onesOf a.clusters).length)

/-- The present entries of a forme's members. -/
def Forme.present (f : Forme) : List PlanEntry := f.plans.map fun e => e.2

/-- Whether an entry disagrees with the member's present module (R258). -/
def Forme.entryBad (f : Forme) (e : PlanEntry) : Bool :=
  (decide (e.action = actReshape) && f.moduleOf e.member != some e.fab) ||
    (decide (e.action = actMove) && f.moduleOf e.member == some e.fab)

/-- Whether a DISSOLVE names every member by a REMOVE, and nothing else. -/
def Forme.dissolves (f : Forme) (es : List PlanEntry) : Bool :=
  (es.all fun e => e.action == actRemove) && distinct (es.map fun e => e.member) == f.members.map fun e => e.1

/-- Whether an entry names a member that does not fit the forme (Table 09-6, MEMBER). -/
def Forme.memberBad (f : Forme) (e : PlanEntry) : Bool :=
  let known := (Tbl.find f.members e.member).isSome
  if e.action = actAdd then known else !known

/-- The lowest member whose entry fails a check. -/
def firstWhere (es : List PlanEntry) (p : PlanEntry → Bool) : Option Nat := ((es.filter p).map fun e => e.member).min?

/-- The first check of a list that some entry fails: its reason and the lowest member that fails it. -/
def firstReason (es : List PlanEntry) : List (Nat × (PlanEntry → Bool)) → Nat × Option Nat
  | [] => (0, none)
  | c :: r =>
    match firstWhere es c.2 with
    | some m => (c.1, some m)
    | none => firstReason es r

/-- Whether the header of a plan breaks R258; `fits` says whether the record holds NENT entries. -/
def planHeaderBad (h : PlanHeader) (fits : Bool) : Bool :=
  h.rsv || h.version != 1 || decide (2 < h.kind) || !fits || decide (h.nent = 0 ∨ 65536 < h.nent) ||
    decide (h.sweepRate ≠ 0 ∧ (h.sweepRate < 10 ∨ 200 < h.sweepRate)) || decide (1000 < h.drainLimit) || decide (1000 < h.peerTimeout)

/-- Whether an entry puts a member on a module that no route reaches. -/
def State.unreachable (s : State) (e : PlanEntry) : Bool := decide (e.action ≠ actRemove ∧ e.fab ≠ s.fabAddr) && s.mask e.fab == 0

/-- The reason for which the master refuses a plan, 0 for none, and the member concerned. -/
def State.planReason (s : State) (h : PlanHeader) (es : List PlanEntry) (fits : Bool) : Nat × Option Nat :=
  if planHeaderBad h fits then (Why09.badPlan, none)
  else
    let own := firstReason es [(Why09.badPlan, planEntryBad), (Why09.badPlan, namedTwice es)]
    if own.1 ≠ 0 then own
    else if h.kind = 0 then
      if (s.forme h.formeId).any fun f => s.isMaster f && f.change.isSome then (Why09.busy, none)
      else if h.expectEpoch ≠ 0 then (Why09.badPlan, none)
      else if !(es.any fun e => decide (e.member = 0) && !e.memOnly) then (Why09.badPlan, some 0)
      else if es.any fun e => e.action != actAdd then (Why09.badPlan, firstWhere es fun e => e.action != actAdd)
      else if (s.forme h.formeId).isSome then (Why09.member, none)
      else firstReason es [(Why09.badPlan, vcoresClash [] es), (Why09.member, fun e => decide (e.member = 0) && decide (e.fab ≠ s.fabAddr)),
        (Why09.member, s.unreachable)]
    else
      match s.forme h.formeId with
      | none => (Why09.member, none)
      | some f =>
        if !s.isMaster f then (Why09.member, none)
        else if f.change.isSome then (Why09.busy, none)
        else if h.kind = 1 ∧ h.expectEpoch ≠ f.epoch then (Why09.epochMismatch, none)
        else if h.kind = 2 then (if f.dissolves es then (0, none) else (Why09.badPlan, firstWhere es fun e => e.action != actRemove))
        else firstReason es [(Why09.badPlan, vcoresClash f.present (f.keepVcores es)), (Why09.badPlan, f.entryBad), (Why09.member, f.memberBad),
          (Why09.masterPinned, fun e => decide (e.member = 0) && decide (e.action = actRemove ∨ e.action = actMove)),
          (Why09.member, s.unreachable)]

/-! ### Share bases (R188, R267, R550) -/

/-- A live layout of a partition, old, present or being admitted. -/
def Partition.layouts (q : Partition) : List Layout :=
  (if q.inUse then [q.lay] else []) ++ q.layOld.toList ++ q.layNew.toList

/-- Whether a layout's share on a channel meets the pages from `b` on, `n` of them. -/
def Layout.meets (l : Layout) (ch b n : Nat) : Bool :=
  l.channels.contains ch && decide (Tbl.get 0 l.bases ch < b + n) && decide (b < Tbl.get 0 l.bases ch + l.eI + l.eN)

/-- Whether a page address of partition `p` changes its place from its present layout to `l` on `ch` at `pg` (R267). -/
def State.pageMoves (s : State) (p : Nat) (moveIn : Bool) (a ch pg : Nat) : Bool :=
  moveIn || !(s.part p).inUse || (s.part p).lay.place a != some (ch, pg)

/-- Whether a chunk of a partition holds a page of a live allocation. -/
def State.chunkLive (s : State) (p chunk : Nat) : Bool := (rangeFrom (16 * chunk) 16).any fun pg => s.liveAlloc p (4096 * pg)

/-- Whether page `pg` of channel `ch` is free under R267 for a change that moves partition `p`: a page of the partition's own share is the
source page of a chunk that holds a live allocation, or free. -/
def State.pageFree (s : State) (p ch pg : Nat) : Bool :=
  decide (s.areaTop ≤ pg) && decide (pg < channelPages) && (s.channel ch).usable pg &&
    (match s.servedBy ch pg with
      | some (o, a) => if o = p then !s.chunkLive p (a / 65536) else !s.liveAlloc o a
      | none => true)

/-- Whether base `b` serves the share of layout `l` on channel `ch`: outside every other share, with every target page of a
moved chunk free. -/
def State.baseFits (s : State) (p : Nat) (moveIn : Bool) (l : Layout) (ch b : Nat) : Bool :=
  let n := l.eI + l.eN
  let l := { l with bases := Tbl.set l.bases ch b }
  decide (s.areaTop ≤ b) && decide (b + n ≤ channelPages) &&
    !(s.parts.any fun e => decide (e.1 ≠ p) && e.2.layouts.any fun k => k.meets ch b n) &&
    (rangeFrom b n).all fun pg => match l.addrOf ch pg with
      | some a => !s.pageMoves p moveIn a ch pg || s.pageFree p ch pg
      | none => true

/-- Choose the share bases of a layout on its channels (R267): a base that fits, whichever of them the compositor takes. -/
def State.chooseBases (s : State) (p : Nat) (moveIn : Bool) (l : Layout) : List Nat → Option (Layout × State)
  | [] => some (l, s)
  | ch :: r =>
    let f := s.fresh
    let start := (Config.freeBits 64 f.1).toNat % channelPages
    let old := if !moveIn && (s.part p).inUse then [Tbl.get 0 (s.part p).lay.bases ch] else []
    let order := old ++ rangeFrom start (channelPages - start) ++ rangeFrom 0 start
    match order.find? fun b => s.baseFits p moveIn l ch b with
    | none => none
    | some b => State.chooseBases f.2 p moveIn { l with bases := Tbl.set l.bases ch b } r

/-- The layout that an entry asks for, without its share bases; POWER_FRAC 0 is in proportion to clusters, and a memory-only
partition's fraction counts as 0 (R433). -/
def entryLayout (e : PlanEntry) : Layout where
  clusters := onesOf e.clusters
  channels := onesOf e.channels
  bases := []
  eI := e.eI
  eN := e.eN
  vcoreBase := e.vcoreBase
  power := if e.memOnly then 0 else if e.powerFrac = 0 then 65536 * (onesOf e.clusters).length / 48 else e.powerFrac
  linkShare := e.linkShare
  memOnly := e.memOnly
  redirect := []

/-! ### Admission at a participant (R261) -/

/-- What an admission check reads: the entry, the partition it leaves, the partition it goes to, and what goes with it. -/
structure Admit where
  e : PlanEntry
  source : Option Nat
  target : Option Nat
  carry : Option Carry
deriving DecidableEq, Repr

/-- The clusters of every partition but `p`. -/
def State.clustersOfOthers (s : State) (p : Nat) : List Nat :=
  (s.parts.map fun e => if e.1 = p then [] else (e.2.layouts.map fun l => l.clusters).flatten).flatten

/-- Whether a cluster is fenced off (R352). -/
def State.clusterOut (s : State) (c : Nat) : Bool := s.quarantine.contains c || s.dieFenced.contains (dieOf c)

/-- The sum over the partitions of this module of a number taken from their layouts, the greatest of each partition's, with
`x` for partition `p` beside its own. -/
def State.sumWith (s : State) (p x : Nat) (f : Layout → Nat) : Nat :=
  let own := (s.part p).layouts.foldl (fun a l => max a (f l)) 0
  s.parts.foldl (fun a e => if e.1 = p then a else a + e.2.layouts.foldl (fun a l => max a (f l)) 0) (max own x)

/-- Whether a context has a core running or stopped in a cluster: one that never started, has ended or has faulted is none. -/
def CtlState.occupied : CtlState → Bool
  | .idle | .ended | .faulted => false
  | _ => true

/-- Whether a cluster is vacant (R253): no context has a core running there, and none holds a core state saved for its virtual
cores. -/
def State.vacant (s : State) (p c : Nat) : Bool :=
  let l := (s.part p).lay
  let base := l.vcoreBase + 4 * l.clusters.findIdx fun k => k == c
  (rangeFrom (4 * c) 4).all (fun k => !(s.core k).ctl.occupied) &&
    s.ctxs.all fun e => !(e.2.state != .free && e.2.part == p && e.2.saved.any fun v => decide (base ≤ v.1 ∧ v.1 < base + 4))

/-- Whether a context holds a current link key with ENGINES bit [9] (R268). -/
def State.hasLane9 (s : State) (n : Nat) : Bool := (s.linkKey n 9).isSome

/-- Whether a context owns blocks that a move re-keys (R268): an allocation that no key window covers whole. -/
def ownsRekeyed (windows : Tbl KeyWindow) (allocs : List Alloc) (n : Nat) : Bool :=
  allocs.any fun a => decide (a.ctx = n) && !(windows.any fun w => decide (w.2.base ≤ a.base ∧ a.base + a.size ≤ w.2.base + w.2.length))

/-- Whether a current link key with ENGINES bit [9] stands here for a context of the member that is to come: staged for the member under
the session that the context has here (R268, R416). -/
def State.stagedLane9 (s : State) (f : Forme) (m : Nat) (x : Context) : Bool :=
  let serial := (Tbl.get (⟨0, 0, [], []⟩ : Session) s.sessions x.session).serial
  s.keys.any fun e => e.2.type == .link && e.2.valid && e.2.current && bit e.2.engines.toNat 2 && e.2.staged &&
    e.2.stageForme == f.id && e.2.stageMember == m && e.2.stageSession == serial

/-- Whether the keys of a MOVE stand at its target: every handle that a window names, staged or held, and a link key for each context
that owns re-keyed blocks (R268, R416). -/
def State.keysFor (s : State) (f : Forme) (m : Nat) (k : Carry) : Bool :=
  (k.windows.all fun w => (s.key w.2.keyh).valid) &&
    k.ctxs.all fun x => !ownsRekeyed k.windows k.allocs x.1 || s.stagedLane9 f m x.2

/-- Whether the Ethernet ports of this module can carry the host connection of a context that comes here (Table 09-6, HOST_PATH): its
number is open here over a port that is up, or a port is up and another connection may be opened (R483, R484; assumption 132). -/
def State.carriesHost (s : State) (x : Context) : Bool :=
  let k := Tbl.get Conn.reset s.conns x.conn
  let live (i : Nat) : Bool := (Tbl.get Port.reset s.ports i).up
  if k.st = .up then live k.portA || live k.portB
  else (s.ports.any fun e => e.2.up) && decide ((s.conns.filter fun e => e.2.st != .free).length < 256)

/-- Whether the recovery lane of the path cannot carry a MOVE beside what is reserved: 300 GB/s at most (R465). -/
def State.laneFull (s : State) (f : Forme) (h : PlanHeader) (e : PlanEntry) : Bool :=
  match (s.moveAcross f e).bind s.pathLink with
  | some l => decide (300 < s.vl1Of l + moveGb h e)
  | none => false

/-- What a plan asks of the channels of this module: the partitions that it names, and the label-7 units that it reserves on a
channel (R332, R333). -/
structure Planned where
  parts : List Nat
  binds : List (Nat × List Nat)
  sources : List Nat
  targets : List Nat
  rate : Nat
deriving DecidableEq, Repr

/-- Whether an admission moves chunks: a MOVE, or a RESHAPE to other channels or another share size. -/
def State.admitMoves (s : State) (a : Admit) : Bool :=
  match a.source with
  | some p =>
    let l := (s.part p).lay
    a.e.action == actMove ||
      (a.e.action == actReshape && (onesOf a.e.channels != l.channels || a.e.eI != l.eI || a.e.eN != l.eN))
  | none => a.e.action == actMove

/-- What a plan asks of the channels of this module. -/
def State.planned (s : State) (h : PlanHeader) (as : List Admit) : Planned where
  parts := distinct (as.flatMap fun a => a.source.toList ++ a.target.toList)
  binds := as.flatMap fun a => a.target.toList.map fun p => (p, onesOf a.e.channels)
  sources := as.flatMap fun a => match a.source with
    | some p => if s.admitMoves a then (s.part p).lay.channels else []
    | none => []
  targets := as.flatMap fun a => if a.target.isSome ∧ s.admitMoves a then onesOf a.e.channels else []
  rate := h.sweepRate

/-- The partitions that bind a channel by a plan. -/
def Planned.coming (k : Planned) (ch : Nat) : List Nat := (k.binds.filter fun b => b.2.contains ch).map fun b => b.1

/-- The label-7 units that a plan reserves on a channel (R332). -/
def Planned.units (k : Planned) (ch : Nat) : Nat :=
  (if k.sources.contains ch then sweepUnits k.rate k.sources.eraseDups.length else 0) +
    (if k.targets.contains ch then sweepUnits k.rate k.targets.eraseDups.length else 0)

/-- Whether a plan takes the reservation of a channel above 640 units (R332). -/
def State.overReserved (s : State) (k : Planned) (ch : Nat) : Bool := k.units ch != 0 && decide (640 < s.recov ch + k.units ch)

/-- The layout that an entry makes of partition `p`: a RESHAPE moves what lay in near segments that have ceased to exist (R212). -/
def State.layoutFor (s : State) (p : Nat) (e : PlanEntry) : Layout :=
  let l := entryLayout e
  if e.action = actReshape then (s.redirecting p [] l).getD l else l

/-- The reason that a target's entry is refused, 0 for none. A recovery change is not refused with GUARANTEE or POWER (R277, R433). -/
def State.targetReason (s : State) (f : Forme) (h : PlanHeader) (recovery : Bool) (k : Planned) (a : Admit) (p : Nat) : Nat :=
  let l := s.layoutFor p a.e
  let q := s.part p
  let isNew := decide (a.e.action = actAdd ∨ a.e.action = actMove)
  if l.clusters.any fun c => s.clusterOut c || (s.clustersOfOthers p).contains c then Why09.clusters
  else if l.channels.isEmpty ∨ (l.channels.any fun c => (s.channel c).fenced) ∨
      198180864 < l.channels.length * l.eI ∨ channelPages < s.areaTop + l.eI + l.eN then Why09.channels
  else if (s.chooseBases p isNew l l.channels).isNone then Why09.staging
  else if !recovery && !(l.channels.all fun c =>
      decide (s.sumPlanned k.parts (k.coming c) c + s.recov c + k.units c ≤ derated)) then Why09.guarantee
  else if !recovery && decide (65536 < s.sumWith p l.power (fun k => k.power)) then Why09.power
  else if (match a.carry with
      | some k => !s.keysFor f a.e.member k || k.windows.any fun w => !l.covers w.2.base w.2.length
      | none => q.inUse && q.windows.any fun w => !l.covers w.2.base w.2.length) then Why09.keyWindow
  else if ((List.range 16).any fun i =>
      decide (32 < s.sumWith p (l.linkShare.getD i 0) (fun k => k.linkShare.getD i 0))) ∨
      (l.channels.any fun c => s.overReserved k c) ∨ s.laneFull f h a.e then Why09.linkShare
  else if isNew ∧ (q.inUse ∨ q.layNew.isSome) then Why09.partitions
  else if !isNew ∧ a.source ≠ some p then Why09.partitions
  else if (match a.carry with
      | some k => k.ctxs.any fun x => !s.carriesHost x.2
      | none => false) then Why09.hostPath
  else if (match a.carry with
      | some k => (k.allocs.any fun x => !l.covers x.base x.size) || k.regions.any fun r => !l.covers r.base r.length
      | none => q.inUse && ((q.allocs.any fun x => s.liveAlloc p x.base && !l.covers x.base x.size) ||
          q.regions.any fun r => !l.covers r.base r.length)) then Why09.footprint
  else 0

/-- The clusters that a RESHAPE takes away, which must be vacant (R253): of another number of clusters, those that the new set does not
have and those whose virtual cores it gives no cluster. A RESHAPE that keeps the number moves every state. -/
def takenAway (old new : List Nat) : List Nat :=
  if new.length = old.length then [] else (old.filter fun c => !new.contains c) ++ (old.drop new.length).filter fun c => new.contains c

/-- The reason that a source's entry is refused, 0 for none. -/
def State.sourceReason (s : State) (f : Forme) (h : PlanHeader) (k : Planned) (a : Admit) (p : Nat) : Nat :=
  let q := s.part p
  let gone := if a.e.action = actRemove then q.lay.clusters
    else if a.e.action = actReshape then takenAway q.lay.clusters (onesOf a.e.clusters)
    else []
  let owners := (s.ctxs.filter fun e => e.2.state != .free && decide (e.2.part = p)).map fun e => e.1
  if a.e.action = actMove ∧ (owners.any fun n => ownsRekeyed q.windows q.allocs n && !s.hasLane9 n) then Why09.keyWindow
  else if (q.lay.channels.any fun c => s.overReserved k c) ∨ (a.target.isNone ∧ s.laneFull f h a.e) then Why09.linkShare
  else if !(gone.all fun c => s.vacant p c) then Why09.vcoreBusy
  else if a.e.action = actMove ∧ f.moduleOf a.e.member ≠ some s.fabAddr then Why09.member
  else 0

/-- The admissions of this module's part of a plan, in member-index order. -/
def State.admits (s : State) (f : Forme) (es : List PlanEntry) (carry : Tbl Carry) : List Admit :=
  (inMemberOrder (es.filter fun e => f.concerns s.fabAddr e)).map fun e =>
    ⟨e, s.partOfMember f e.member, if e.action ≠ actRemove ∧ e.fab = s.fabAddr then some e.part else none, Tbl.find carry e.member⟩

/-- The lower of two reasons, of which 0 is none. -/
def lowerReason (a b : Nat) : Nat := if a = 0 then b else if b = 0 then a else min a b

/-- The reason of one admission: the lowest of those that apply. -/
def State.admitReason (s : State) (f : Forme) (h : PlanHeader) (recovery : Bool) (k : Planned) (a : Admit) : Nat :=
  lowerReason
    (match a.source with
      | some p => s.sourceReason f h k a p
      | none => if a.target.isNone then Why09.member else 0)
    (match a.target with
      | some p => s.targetReason f h recovery k a p
      | none => 0)

/-- The fraction that a target of a recovery change gets: cut to what remains, with a POWER record (R433). -/
def State.cutFraction (s : State) (p : Nat) (l : Layout) : Layout × State :=
  let others := s.sumWith p 0 (fun k => k.power)
  if 65536 < s.sumWith p l.power (fun k => k.power) then
    ({ l with power := 65536 - others },
      s.record { cause := 0x40, severity := 0, part := some p, member := some (s.part p).member, d5 := PowerEvent.fractionReduced })
  else (l, s)

/-- Hold the target of an admission: its layout with the bases chosen, and what goes with a member that moves in. -/
def State.holdTarget (s : State) (recovery : Bool) (a : Admit) : State :=
  match a.target with
  | none => s
  | some p =>
    let moveIn := decide (a.e.action = actAdd ∨ a.e.action = actMove)
    let cut := if recovery then s.cutFraction p (s.layoutFor p a.e) else (s.layoutFor p a.e, s)
    let s := cut.2
    match s.chooseBases p moveIn cut.1 cut.1.channels with
    | some (l, s) => s.modPart p fun q => { q with layNew := some l }
    | none => s

/-- The admissions in order: the first reason with its member, or the state with every target held. -/
def State.admitAll (s : State) (f : Forme) (h : PlanHeader) (recovery : Bool) (k : Planned) : List Admit → Except (Nat × Nat) State
  | [] => .ok s
  | a :: r =>
    let why := s.admitReason f h recovery k a
    if why ≠ 0 then .error (why, a.e.member) else State.admitAll (s.holdTarget recovery a) f h recovery k r

end Sys2Proof.Machine
end

