-- ==== Sys2Proof/Machine/JobCmds.lean ====
section
/-! DEFINITION. Composition, scheduling, allocation, region, fence and barrier commands (R198, R199, R232 to R236, R241, R257,
R298, R299, R309). -/

namespace Sys2Proof.Machine

/-! ### COMPOSE and SET_SCHED -/

/-- A number of bytes of a list as a little-endian number. -/
def atBytes (b : List Byte) (ofs n : Nat) : Nat := leNat ((b.drop ofs).take n)

/-- The plan header of a record (Table 09-2). -/
def planHeader (b : List Byte) : PlanHeader :=
  let w (i : Nat) : Nat := atBytes b (8 * i) 8
  ⟨bits (w 0) 7 0, bits (w 0) 9 8, bit (w 0) 10, bits (w 0) 19 16, bits (w 0) 40 24, bits (w 1) 31 0, bits (w 2) 15 0,
    bits (w 2) 31 16, bits (w 2) 47 32,
    decide (bits (w 0) 15 11 ≠ 0 ∨ bits (w 0) 23 20 ≠ 0 ∨ bits (w 0) 63 41 ≠ 0 ∨ bits (w 1) 63 32 ≠ 0 ∨ bits (w 2) 63 48 ≠ 0 ∨
      atBytes b 24 40 ≠ 0)⟩

/-- A member entry of a record at a byte offset (Tables 09-3 and 09-4). -/
def planEntry (b : List Byte) (ofs : Nat) : PlanEntry :=
  let w (i : Nat) : Nat := atBytes b (ofs + 8 * i) 8
  let x (i : Nat) : Nat := atBytes b (ofs + 64 + 8 * i) 8
  let share (i : Nat) : Nat := atBytes b (ofs + 80 + i) 1
  ⟨bits (w 0) 15 0, bits (w 0) 31 16, bits (w 0) 37 32, bits (w 0) 42 40, bit (w 0) 43, BitVec.ofNat 48 (w 1),
    BitVec.ofNat 384 (atBytes b (ofs + 16) 48), bits (x 0) 18 0, bits (x 0) 36 19, bits (x 1) 31 0, bits (x 1) 48 32,
    (List.range 16).map fun i => bits (share i) 5 0,
    decide (bits (w 0) 39 38 ≠ 0 ∨ bits (w 0) 63 44 ≠ 0 ∨ bits (w 1) 63 48 ≠ 0 ∨ bits (x 0) 63 37 ≠ 0 ∨ bits (x 1) 63 49 ≠ 0 ∨
      atBytes b (ofs + 96) 32 ≠ 0) || (List.range 16).any fun i => decide (bits (share i) 7 6 ≠ 0)⟩

/-- The entries of a record. -/
def planEntries (b : List Byte) (n : Nat) : List PlanEntry := (List.range n).map fun i => planEntry b (64 + 128 * i)

/-- The composition payload and its renumbering entries (Table 09-9, R276), as 48-byte continuation entries of six words. -/
def composeEntries (outcome reason epoch formeId : Nat) (member : Option Nat) (lost chunksMoved us : Nat) (rs : List Renumber) :
    List (List Word64) :=
  let head : List Word64 :=
    [BitVec.ofNat 64 (outcome + reason * 2 ^ 8 + (epoch % 16) * 2 ^ 16 + (formeId % 2 ^ 32) * 2 ^ 32),
      BitVec.ofNat 64 (member.getD 0 + b2n member.isSome * 2 ^ 16 + (lost % 2 ^ 32) * 2 ^ 32),
      BitVec.ofNat 64 (chunksMoved % 2 ^ 32 + (us % 2 ^ 32) * 2 ^ 32), BitVec.ofNat 64 rs.length, 0, 0, 0, 0]
  let maps : List Word64 := rs.map fun r => BitVec.ofNat 64
    (r.member % 2 ^ 16 + (r.old % 2 ^ 16) * 2 ^ 16 + (r.new % 2 ^ 16) * 2 ^ 32 + b2n r.queue * 2 ^ 48)
  (chunks 6 (head ++ maps).length (head ++ maps)).map (padWords 6)

/-- A plan is refused at the master (R258, R259): nothing changes, and the payload says why. -/
def State.refusePlan (s : State) (q : Nat) (c : Cmd) (h : PlanHeader) (why : Nat) (m : Option Nat) : State :=
  let epoch := match s.forme h.formeId with
    | some f => f.epoch
    | none => 0
  s.finish q c.place { status := St.refused, detail := why, more := composeEntries 1 why epoch h.formeId m 0 0 0 [] }

/-- COMPOSE (R257 to R260): the plan record is checked and the change starts; the command completes with the change. -/
def State.compose (s : State) (q : Nat) : State :=
  s.onBulk q 0x05 fun s c b =>
    let h := planHeader b
    let fits := decide (64 + 128 * h.nent ≤ b.length)
    let es := if fits then planEntries b h.nent else []
    let why := s.planReason h es fits
    if why.1 ≠ 0 then s.refusePlan q c h why.1 why.2
    else
      let s := if h.kind = 0 then { s with formes := s.formes ++ [Forme.blank h.formeId] } else s
      s.startChange h.formeId h es false (some c.place)

/-- SET_SCHED (R309): the new quantum waits for the next switch. -/
def State.setSched (s : State) (q : Nat) : State :=
  s.onCmd q 0x06 fun s c =>
    let id := bits (c.arg 0) 31 0
    let ms := bits (c.arg 1) 15 0
    match s.forme id with
    | none => s.refuseCmd q c Dt.badMember
    | some f =>
      if !s.isMaster f then s.refuseCmd q c Dt.notMaster
      else if 1000 < ms then s.refuseCmd q c Dt.field
      else (s.modForme id fun f => { f with newQuantum := some (if ms = 0 then 10 else ms) }).okCmd q c

/-! ### Commands that another member may carry out (R298) -/

/-- Where a command acts: a context of this module, or another module's member. -/
inductive Acts where
  | here (n : Nat)
  | far
  | nobody
deriving DecidableEq, Repr

/-- The context of a job on a member. -/
def State.actsOn (s : State) (forme job member : Nat) : Acts :=
  match (s.jobCtxs forme job).find? fun e => decide (e.2.member = member) with
  | some e => .here e.1
  | none =>
    match s.forme forme with
    | some f =>
      match Tbl.find f.members member with
      | some r => if r.fab = s.fabAddr then .nobody else .far
      | none => .nobody
    | none => .nobody

/-- What a command did for a context: the detail of a refusal, 0 for none, a value, and the state. -/
abbrev Did := Nat × Nat × State

/-- Run a command that may act on another member: `act n args second` is what it does for context `n`. A command of a queue
whose member lies elsewhere sends an order, and ends with the answer that the member's module gives. -/
def State.onMember (s : State) (src : CmdSource) (opc : Nat) (sub : Cmd → Bool) (memberOf : Cmd → Nat)
    (act : State → Nat → List Word64 → Did) (result : Nat → List Word64) : State :=
  match src with
  | .order o =>
    if o.opc ≠ opc then s
    else
      match s.actsOn o.forme o.job o.member with
      | .here n =>
        let d := act s n o.args
        d.2.2.send (.orderDone o.forme o.job o.member opc d.1 d.2.1)
      | _ => s.send (.orderDone o.forme o.job o.member opc Dt.badMember 0)
  | .queue q reply =>
    let take (s : State) (c : Cmd) (r : BitVec 64) : State :=
      if bits r.toNat 15 0 = 0 then s.okCmd q.val c (result (bits r.toNat 63 16)) else s.refuseCmd q.val c (bits r.toNat 15 0)
    match reply, s.awaiting q.val fun c => c.opc == opc && sub c with
    | some r, some c => take s c r
    | _, _ =>
    match s.next q.val fun c => c.opc == opc && sub c with
    | none => s
    | some c =>
      let s := s.start q.val c
      let x := s.ctx (s.queue q.val).ctx
      let args := c.words.drop 5 ++ c.second
      match s.actsOn x.forme x.job (memberOf c) with
      | .nobody => s.refuseCmd q.val c Dt.badMember
      | .here n =>
        let d := act s n args
        if d.1 = 0 then d.2.2.okCmd q.val c (result d.2.1) else d.2.2.refuseCmd q.val c d.1
      | .far =>
        let s := (s.send (.memberOrder ⟨x.forme, x.job, memberOf c, opc, args, [], 0⟩)).ordered q.val c
        match reply with
        | none => s
        | some r => take s c r

/-- A word of a command's arguments. -/
def argAt (args : List Word64) (i : Nat) : Nat := (args.getD i 0).toNat

/-- ALLOC (R298): the detail is a code of Table 02-5. -/
def State.cmdAlloc (s : State) (src : CmdSource) : State :=
  s.onMember src 0x12 (fun _ => true) (fun c => bits (c.arg 1) 31 16)
    (fun s n a => s.allocate n (bits (argAt a 1) 37 32) (bits (argAt a 0) 39 0) (bits (argAt a 1) 13 0))
    fun v => [BitVec.ofNat 64 v]

/-- FREE (R298). -/
def State.cmdFree (s : State) (src : CmdSource) : State :=
  s.onMember src 0x13 (fun _ => true) (fun c => bits (c.arg 1) 31 16)
    (fun s n a =>
      let r := s.release n (bits (argAt a 0) 39 0)
      (r.1, 0, r.2.1.settle r.2.2))
    fun _ => []

/-! ### Regions (R198, R199, R298) -/

/-- The region that the words of a parameter entry ask for (Table 07-5). -/
def regionOf (a : List Word64) (n : Nat) : Region :=
  let w (i : Nat) : Nat := argAt a (3 + i)
  ⟨bits (w 0) 39 0, bits (w 1) 39 0, bit (w 2) 0, bit (w 2) 1, bit (w 2) 2, bit (w 2) 3, bit (w 2) 4, bit (w 2) 5, bit (w 2) 6,
    toSigned 16 (bits (w 2) 31 16), bits (w 3) 39 0, n, false, false, none⟩

/-- Whether two ranges meet. -/
def meet (a n b m : Nat) : Bool := decide (a < b + m) && decide (b < a + n)

/-- The ranges of a region: primary and secondary copy. -/
def Region.ranges (r : Region) : List (Nat × Nat) := (r.base, r.length) :: if r.mirror then [(r.mbase, r.length)] else []

/-- Whether a range lies inside one segment of a layout. -/
def Layout.inSegment (l : Layout) (base n : Nat) : Bool :=
  match l.segment base with
  | some g => decide (base + n ≤ segStart g + l.segPages g * 4096)
  | none => false

/-- Whether the pages of a range and of its copy lie on different stacks, one by one. -/
def Layout.apart (l : Layout) (a b n : Nat) : Bool :=
  (List.range (n / 4096)).all fun i =>
    match l.place (a + i * 4096), l.place (b + i * 4096) with
    | some x, some y => decide (x.1 / 32 ≠ y.1 / 32)
    | _, _ => false

/-- Whether a region passes R199 beside the others of its partition. -/
def Partition.regionFits (q : Partition) (r : Region) (reservedClear : Bool) (others : List Region) : Bool :=
  reservedClear && decide (r.base % 4096 = 0 ∧ r.length % 4096 = 0 ∧ r.length ≠ 0) && q.lay.inSegment r.base r.length &&
    !(others.any fun o => o.ranges.any fun x => meet r.base r.length x.1 x.2) &&
    (!(r.cache || r.shared) || r.ro) &&
    (if r.mirror then
      decide (r.mbase % 4096 = 0) && q.lay.segment r.mbase == q.lay.segment r.base && q.lay.inSegment r.mbase r.length &&
        !(meet r.base r.length r.mbase r.length) &&
        !(others.any fun o => o.ranges.any fun x => meet r.mbase r.length x.1 x.2) && q.lay.apart r.base r.mbase r.length
     else decide (r.mbase = 0))

/-- Whether the reserved bits of a region's parameter entry are clear. -/
def regionClear (a : List Word64) : Bool :=
  let w (i : Nat) : Nat := argAt a (3 + i)
  decide (bits (w 0) 63 40 = 0 ∧ bits (w 1) 63 40 = 0 ∧ bits (w 2) 15 7 = 0 ∧ bits (w 2) 63 32 = 0 ∧ bits (w 3) 63 40 = 0 ∧
    w 4 = 0 ∧ w 5 = 0 ∧ w 6 = 0 ∧ w 7 = 0)

/-- Cluster cache lines of a range of a partition are invalidated (R216). -/
def State.uncache (s : State) (p base n : Nat) : State :=
  { s with clusters := s.clusters.map fun (e : Nat × Cluster) =>
      (e.1, { e.2 with cache := e.2.cache.filter fun l => !(l.ofPart p && decide (base ≤ l.line * 64) && decide (l.line * 64 < base + n)) }) }

/-- REGION with a sub-operation: 0 install, 1 change, 2 remove. -/
def State.regionCmd (s : State) (src : CmdSource) (op : Nat) (act : State → Nat → List Word64 → Did) : State :=
  s.onMember src 0x14 (fun c => decide (bits (c.arg 0) 1 0 = op)) (fun c => bits (c.arg 0) 31 16) act fun _ => []

/-- REGION install (R199, R298). -/
def State.regionInstall (s : State) (src : CmdSource) : State :=
  s.regionCmd src 0 fun s n a =>
    let p := (s.ctx n).part
    let q := s.part p
    let r := regionOf a n
    if !q.regionFits r (regionClear a) q.regions then (Dt.regionCheck, 0, s)
    else if 256 ≤ q.regions.length then (Dt.regionFull, 0, s)
    else (0, 0, (s.keepTables p).modPart p fun q => { q with regions := q.regions ++ [r] })

/-- The region of a command by its base, where the context owns it: `inl` is a refusal. -/
def State.ownRegion (s : State) (n : Nat) (a : List Word64) : Except Nat Region :=
  let q := s.part (s.ctx n).part
  match q.regions.find? fun g => decide (g.base = bits (argAt a 3) 39 0) with
  | none => .error Dt.regionCheck
  | some g => if g.owner = n then .ok g else .error Dt.notOwner

/-- REGION change (R198, R298). -/
def State.regionChange (s : State) (src : CmdSource) : State :=
  s.regionCmd src 1 fun s n a =>
    match s.ownRegion n a with
    | .error d => (d, 0, s)
    | .ok g =>
      let p := (s.ctx n).part
      let q := s.part p
      let r := { regionOf a n with refill := g.refill, suspect := g.suspect, degraded := g.degraded }
      if !q.regionFits r (regionClear a) (q.regions.filter fun x => x ≠ g) then (Dt.regionCheck, 0, s)
      else
        (0, 0, ((s.keepTables p).modPart p fun q => { q with regions := q.regions.map fun x => if x = g then r else x }).uncache p g.base g.length)

/-- REGION remove (R198, R298): its cached lines are invalidated (R216). -/
def State.regionRemove (s : State) (src : CmdSource) : State :=
  s.regionCmd src 2 fun s n a =>
    match s.ownRegion n a with
    | .error d => (d, 0, s)
    | .ok g =>
      let p := (s.ctx n).part
      (0, 0, ((s.keepTables p).modPart p fun q => { q with regions := q.regions.filter fun x => x ≠ g }).uncache p g.base g.length)

/-! ### Fences (R232 to R236, R298, R299) -/

/-- Whether a handle may govern a fence or a barrier instance (R552). -/
def State.handleUsable (s : State) (h : Nat) : Bool :=
  h == 0 || h == 0x03F || (!(decide (0x032 ≤ h) && decide (h ≤ 0x03E)) && (s.key h).valid)

/-- Whether a context stands on its forme's master module, on the member that masters it. -/
def State.onMasterMember (s : State) (n : Nat) : Bool := decide ((s.ctx n).member = 0)

/-- FENCE_CREATE (R232). -/
def State.fenceCreate (s : State) (q : Nat) : State :=
  s.onCmd q 0x18 fun s c =>
    let n := (s.queue q).ctx
    let num := bits (c.arg 0) 31 0
    let home := bits (c.arg 0) 37 32
    let keyh := bits (c.arg 0) 49 38
    if !s.onMasterMember n then s.refuseCmd q c Dt.notMaster
    else if !s.handleUsable keyh ∨ !(s.part (s.ctx n).part).lay.clusters.contains home then s.refuseCmd q c Dt.field
    else if fenceCount ≤ num then s.refuseCmd q c Sync.noSuch
    else if (s.fence num).state ≠ .free then s.refuseCmd q c Dt.inUse
    else if (s.ctx n).fenceQuota ≤ (s.ownedFences n).length then s.refuseCmd q c Sync.quota
    else
      let v := c.arg 1
      ({ s with fences := Tbl.set s.fences num ⟨v, .live, home, keyh, n, 0, 0, v⟩ }).okCmd q c

/-- FENCE_RETIRE (R232): waits complete with NO_SUCH and arms fault. -/
def State.fenceRetire (s : State) (q : Nat) : State :=
  s.onCmd q 0x19 fun s c =>
    let n := (s.queue q).ctx
    let num := bits (c.arg 0) 31 0
    if !s.onMasterMember n then s.refuseCmd q c Dt.notMaster
    else if fenceCount ≤ num ∨ (s.fence num).state = .free then s.refuseCmd q c Sync.noSuch
    else if (s.fence num).owner ≠ n then (s.synCount (s.fence num).home .deny).refuseCmd q c Sync.noSuch
    else if (s.fence num).imports ≠ 0 then s.refuseCmd q c Dt.importsLeft
    else
      let ws := (s.waits.filter fun w => w.fence == num).map fun w => w.who
      let s := { s with waits := s.waits.filter fun w => w.fence != num }
      let r := s.tellAll num Sync.noSuch ws
      ((r.1.settle r.2).freeFence num).okCmd q c

/-- An import of fence `num` of this module by `who` (R235): the code of a refusal, 0 where it is counted. -/
def State.takeImport (s : State) (num : Nat) (who : Principal) : Nat × State :=
  match s.admitOp num who with
  | (s, false) => (Sync.noSuch, s)
  | (s, true) =>
    if (s.fence num).state = .error then (Sync.fenceError, s)
    else if 4095 ≤ (s.fence num).imports then (Sync.quota, s)
    else (0, s.modFence num fun f => { f with imports := f.imports + 1 })

/-- On whose behalf another module imports a fence of `owner`: its job's context here, or its forme's membership (R233). -/
def State.importer (s : State) (o : MemberOrder) (owner : Nat) : Principal :=
  match s.jobCtxs o.forme o.job with
  | e :: _ => .ctx e.1
  | [] => if (s.ctx owner).forme = o.forme then .forme o.forme else .nobody

/-- FENCE_IMPORT (R235, R299). The import of a fence on another module is taken there by an order, and the command ends with that module's
answer (assumption 62). -/
def State.fenceImport (s : State) (src : CmdSource) : State :=
  match src with
  | .order o =>
    if o.opc ≠ 0x1A then s
    else
      let num := bits (argAt o.args 0) 31 0
      let r := s.takeImport num (s.importer o (s.fence num).owner)
      r.2.send (.orderDone o.forme o.job o.member 0x1A r.1 0)
  | .queue q reply =>
    let name (c : Cmd) : Nat := c.arg 0 % 2 ^ 48
    let n := (s.queue q.val).ctx
    let finish (s : State) (c : Cmd) (d : Nat) : State :=
      if d = 0 then (s.modCtx n fun x => { x with imports := x.imports ++ [name c] }).okCmd q.val c else s.refuseCmd q.val c d
    match reply, s.awaiting q.val fun c => c.opc == 0x1A with
    | some r, some c => finish s c (bits r.toNat 15 0)
    | _, _ =>
      s.onCmd q.val 0x1A fun s c =>
        if bits (name c) 47 32 = s.fabAddr then
          let r := s.takeImport (bits (name c) 31 0) (.ctx n)
          finish r.2 c r.1
        else
          let x := s.ctx n
          let s := (s.send (.memberOrder ⟨x.forme, x.job, x.member, 0x1A, [BitVec.ofNat 64 (name c)], [], 0⟩)).ordered q.val c
          match reply with
          | none => s
          | some r => finish s c (bits r.toNat 15 0)

/-- FENCE_RELEASE (R236). -/
def State.fenceRelease (s : State) (q : Nat) : State :=
  s.onCmd q 0x1B fun s c =>
    let n := (s.queue q).ctx
    let name := c.arg 0 % 2 ^ 48
    if !(s.ctx n).imports.contains name then s.refuseCmd q c Sync.noSuch
    else ((s.modCtx n fun x => { x with imports := x.imports.erase name }).releaseName n name).okCmd q c

/-- FENCE_SIGNAL, as a signal or as an add (R298, R299). A fence of another module is signalled as RFSIG and RFADD do. -/
def State.fenceSignalCmd (s : State) (q : Nat) (add : Bool) : State :=
  match s.next q fun c => c.opc == 0x1C && bit (c.arg 2) 0 == add with
  | none => s
  | some c =>
    let s := s.start q c
    let n := (s.queue q).ctx
    let name := c.arg 0 % 2 ^ 48
    let num := bits name 31 0
    let v := c.arg 1
    if bits name 47 32 ≠ s.fabAddr then
      (s.send (.ctrl (if add then 0x02 else 0x01) ⟨0, false, BitVec.ofNat 16 s.fabAddr, BitVec.ofNat 16 (bits name 47 32), 0,
        BitVec.ofNat 32 num, 0, BitVec.ofNat 16 n, BitVec.ofNat 64 v, 0⟩)).okCmd q c [0]
    else
      let r := if add then s.fenceAdd num v (.ctx n) true else s.fenceSignal num v (.ctx n) true
      let s := r.2.1.settle r.2.2
      if r.1 = Sync.ok ∨ r.1 = Sync.discarded then s.okCmd q c [BitVec.ofNat 64 r.1] else s.refuseCmd q c r.1

/-! ### Barriers (R241) -/

/-- BAR_CONFIG (R241): refused while the instance has arrivals counted in its current phase, and with QUOTA where every free instance of the
hub is reserved for other contexts (R307; assumption 138). -/
def State.barConfig (s : State) (q : Nat) : State :=
  s.onCmd q 0x1D fun s c =>
    let n := (s.queue q).ctx
    let i := bits (c.arg 0) 7 0
    let h := bits (c.arg 0) 13 8
    let expect := bits (c.arg 0) 26 14
    let keyh := bits (c.arg 0) 38 27
    let b := s.bar h i
    if !(s.part (s.ctx n).part).lay.clusters.contains h ∨ expect = 0 ∨ 4096 < expect ∨ !s.handleUsable keyh then
      s.refuseCmd q c Dt.field
    else if b.conf ∧ b.owner ≠ n then s.refuseCmd q c Sync.noSuch
    else if b.conf ∧ (b.arrived ≠ 0 ∨ !b.children.isEmpty) then s.refuseCmd q c Dt.inUse
    else if !b.conf ∧ s.barsFree (s.ctx n).part h n ≤ ((s.cluster h).hub.bars.filter fun b => b.2.conf && b.2.owner == n).length then
      s.refuseCmd q c Sync.quota
    else
      let parent := if bit (c.arg 1) 30 then some (bits (c.arg 1) 29 0) else none
      (s.modBar h i fun b => { Barrier.reset with conf := true, expect := expect, keyh := keyh, owner := n, parent := parent,
                                                  phase := b.phase }).okCmd q c

/-- BAR_REMOVE (R241, R243). -/
def State.barRemove (s : State) (q : Nat) : State :=
  s.onCmd q 0x1E fun s c =>
    let n := (s.queue q).ctx
    let i := bits (c.arg 0) 7 0
    let h := bits (c.arg 0) 13 8
    if !(s.bar h i).conf ∨ (s.bar h i).owner ≠ n then s.refuseCmd q c Sync.noSuch
    else
      let r := s.barUnconfigure h i
      (r.1.settle r.2).okCmd q c

end Sys2Proof.Machine
end

