-- ==== Sys2Proof/Machine/Images.lean ====
section
/-! DEFINITION. Yelosh images: the byte format, the proof load, and placing code and constants (R304 to R308, R414). -/

namespace Sys2Proof.Machine

/-! ### The format (R304, R305) -/

/-- A section entry of Table 10-9. -/
structure Section where
  type : Nat
  shared : Bool
  rsv : Bool
  ofs : Nat
  len : Nat
  target : Nat
deriving DecidableEq, Repr

/-- The RESOURCES section (Table 10-10a). -/
structure Resources where
  vcores : Nat
  fbEntry : Nat
  localBytes : Nat
  fences : Nat
  queues : Nat
  member : Nat
  pool : Nat
  linkMin : List Nat
  progress : Nat
  fallback : Nat
  layers : Nat
  barriers : Nat
  cls : Nat
  rsv : Bool
deriving DecidableEq, Repr

/-- The section entries of an image. -/
def imageSections (b : List Byte) : List Section :=
  (List.range (atBytes b 8 4)).map fun i =>
    let w (k : Nat) : Nat := atBytes b (64 + 32 * i + 8 * k) 8
    ⟨bits (w 0) 7 0, bit (w 0) 8, decide (bits (w 0) 63 9 ≠ 0), w 1, w 2, w 3⟩

/-- The resource declaration at a byte offset. -/
def resourcesAt (b : List Byte) (ofs : Nat) : Resources :=
  let w (k : Nat) : Nat := atBytes b (ofs + 8 * k) 8
  let min_ (l : Nat) : Nat := atBytes b (ofs + 32 + l) 1
  { vcores := bits (w 0) 31 0, fbEntry := bits (w 0) 44 32, localBytes := bits (w 1) 22 0, fences := bits (w 1) 44 24,
    queues := bits (w 1) 57 45, member := bits (w 2) 39 0, pool := bits (w 3) 39 0,
    linkMin := (List.range 16).map fun l => bits (min_ l) 5 0,
    progress := bits (w 6) 31 0, fallback := bits (w 6) 63 32, layers := bits (w 7) 15 0, barriers := bits (w 7) 24 16,
    cls := bits (w 7) 27 25,
    rsv := decide (bits (w 0) 63 45 ≠ 0 ∨ bit (w 1) 23 = true ∨ bits (w 1) 63 58 ≠ 0 ∨ bits (w 7) 63 28 ≠ 0) ||
      (List.range 16).any fun l => decide (bits (min_ l) 7 6 ≠ 0) }

/-- The range of virtual cores that a code section names, and a CONST section's member and offset. -/
def Section.first (x : Section) : Nat := bits x.target 31 0
def Section.count (x : Section) : Nat := bits x.target 63 32
def Section.addr (x : Section) : Nat := bits x.target 39 0
def Section.member (x : Section) : Nat := bits x.target 55 40

/-- Whether some element meets one that stands after it. -/
def anyPair {α : Type} (p : α → α → Bool) : List α → Bool
  | [] => false
  | a :: r => r.any (p a) || anyPair p r

/-- The bytes of a section. -/
def Section.bytes (b : List Byte) (x : Section) : List Byte := (b.drop x.ofs).take x.len

/-- Where the section table ends. -/
def tableEnd (b : List Byte) : Nat := 64 + 32 * atBytes b 8 4

/-- Whether the header and the section table are well formed (FORMAT of Table 10-10). -/
def formatGood (b : List Byte) : Bool :=
  let w0 := atBytes b 0 8
  let n := atBytes b 8 4
  let xs := imageSections b
  decide (64 ≤ b.length ∧ bits w0 31 0 = 0x48534C59 ∧ bits w0 39 32 = 1 ∧ bits w0 63 42 = 0 ∧ atBytes b 12 4 = 0 ∧
    atBytes b 24 40 = 0 ∧ 1 ≤ n ∧ n ≤ 1024 ∧ atBytes b 16 8 = b.length ∧ tableEnd b ≤ b.length) &&
  xs.all (fun x => decide (1 ≤ x.type ∧ x.type ≤ 5 ∧ x.ofs % 64 = 0 ∧ x.ofs + x.len ≤ b.length) && !x.rsv) &&
  !anyPair (fun x y => meet x.ofs x.len y.ofs y.len) xs &&
  decide ((xs.filter fun x => x.type = 1).length = 1) &&
  xs.all (fun x => x.type != 1 || x.len == 64) &&
  !anyPair (fun x y => decide (x.type = y.type ∧ (x.type = 2 ∨ x.type = 3)) && meet x.first x.count y.first y.count) xs

/-- The image in clear under a session (R414): sealed bytes opened and the SEAL section zero. `none` where it does not open. -/
def State.openImage (s : State) (session : Nat) (b : List Byte) : Option (List Byte) :=
  let isSealed := bit (atBytes b 0 8) 40
  if !isSealed then (if session = 0 then some b else none)
  else
    match (imageSections b).getLast?, Tbl.find s.sessions session with
    | some x, some ss =>
      let end_ := tableEnd b
      let k := x.bytes b
      if session = 0 ∨ x.type ≠ 5 ∨ x.len ≠ 64 ∨ x.ofs < end_ ∨ ((imageSections b).filter fun y => y.type = 5).length ≠ 1 ∨
          (k.drop 12).take 4 ≠ List.replicate 4 0 ∨ k.drop 32 ≠ List.replicate 32 0 then none
      else
        match Config.imageOpen ss.serial (k.take 12) (b.take end_) ((b.drop end_).take (x.ofs - end_)) ((k.drop 16).take 16) with
        | some plain => some (b.take end_ ++ plain.take (x.ofs - end_) ++ List.replicate 64 0 ++ b.drop (x.ofs + 64))
        | none => none
    | _, _ => none

/-- The resource declaration of an image. -/
def imageResources (b : List Byte) : Resources :=
  match (imageSections b).find? fun x => x.type == 1 with
  | some x => resourcesAt b x.ofs
  | none => resourcesAt b 0

/-! ### The proof load (R307) -/

/-- The members of a forme that lie on this module. -/
def State.membersHere (s : State) (f : Forme) : List (Nat × MemberRec) := f.members.filter fun e => e.2.fab == s.fabAddr

/-- The physical core of a virtual core of a partition (R252). -/
def Layout.coreOf (l : Layout) (v : Nat) : Option Nat :=
  if v < l.vcoreBase then none
  else (l.clusters[(v - l.vcoreBase) / 4]?).map fun c => 4 * c + (v - l.vcoreBase) % 4

/-- The virtual cores of a layout. -/
def Layout.vcores (l : Layout) : List Nat := rangeFrom l.vcoreBase (4 * l.clusters.length)

/-- Bundles of a code section of a kind on a virtual core. -/
def codeOn (b : List Byte) (type v : Nat) : Option Section :=
  (imageSections b).find? fun x => x.type == type && decide (x.first ≤ v ∧ v < x.first + x.count)

/-- Bundles that a section fills. -/
def Section.bundles (x : Section) : Nat := ceilDiv x.len 32

/-- The per-context constants of a member as one block of bytes: its sections are packed in section order (R306). -/
def constBlock (b : List Byte) (m : Nat) : List Byte :=
  ((imageSections b).filter fun x => x.type == 4 && !x.shared && x.member == m).flatMap fun x => x.bytes b

/-- Bytes of the per-context constant block of a member. -/
def constBytes (b : List Byte) (m : Nat) : Nat :=
  (imageSections b).foldl (fun a x => if x.type = 4 ∧ !x.shared ∧ x.member = m then a + x.len else a) 0

/-- Shared constant sections of a member. -/
def sharedOf (b : List Byte) (m : Nat) : List Section :=
  (imageSections b).filter fun x => x.type == 4 && x.shared && x.member == m

/-- The page range of a shared constant section. -/
def Section.pages (x : Section) : Nat × Nat :=
  let base := x.addr / 4096 * 4096
  (base, roundUp (x.addr + x.len) 4096 - base)

/-- Fences that the master's store can still give to context `n` (Table 10-10): the free entries, less those reserved for other
loaded jobs. -/
def State.fencesFree (s : State) (n : Nat) : Nat :=
  let used := (s.fences.filter fun e => e.2.state != .free && e.2.owner != n).length
  let reserved := s.ctxs.foldl (fun a e =>
    if e.1 ≠ n ∧ e.2.state ≠ .free ∧ ((s.job e.2.forme e.2.job).bind fun j => j.digest).isSome then
      a + (e.2.fenceQuota - (s.ownedFences e.1).length) else a) 0
  fenceCount - used - reserved

/-- Free bytes of a partition (Table 10-10): its pages less those allocated, barred and set aside for shadows. -/
def State.freeBytes (s : State) (p : Nat) : Nat :=
  let q := s.part p
  let segs : List Segment := .interleaved :: q.lay.clusters.map fun c => .near c
  let size := segs.foldl (fun a g => a + q.lay.segPages g * 4096) 0
  size - (s.takenRanges q).foldl (fun a r => a + r.2) 0 - q.budget

/-- Where `n` bytes of constants of context `c` go: a block that it holds already, or a free place. -/
def State.constPlace (s : State) (c p n : Nat) : Option (Nat × Bool) :=
  let size := roundUp n 4096
  match (s.part p).allocs.find? fun a => a.kind == .const && decide (a.ctx = c) && decide (a.size = size) with
  | some a => some (a.base, true)
  | none => (s.placeClear p .interleaved size).map fun a => (a, false)

/-- Whether the residency of a partition stands in the way of a digest (R308). -/
def State.residentBars (s : State) (p job forme : Nat) (digest : BitVec 384) : Bool :=
  match (s.part p).residency with
  | none => false
  | some r => r.digest != digest && s.ctxs.any fun e => s.ctxBound e.1 p && !(e.2.job == job && e.2.forme == forme)

/-- What fails of Table 10-10 on one member of this module, beyond FORMAT and SEAL: `n` is the job's context there. -/
def State.memberFails (s : State) (b : List Byte) (digest : BitVec 384) (forme job m : Nat) (r : MemberRec) : List LoadFail :=
  let im := imageResources b
  let p := r.part
  let q := s.part p
  let named := (imageSections b).any fun x => x.type == 4 && x.member == m
  let one (c : Bool) (f : LoadFail) : List LoadFail := if c then [f] else []
  match s.jobCtxAt forme job m with
  | none => one (!r.memOnly || named) ⟨3, m, 0, 0⟩
  | some n =>
    let need := (if r.memOnly then im.pool else im.member) + constBytes b m
    let heap0 := (s.ctx n).quotas.getD 0 0 * 16777216 - q.heapUse n 0
    let allHeaps := (s.ctx n).quotas.foldl (fun a x => a + x * 16777216) 0
    let fresh := q.residency.all fun x => x.digest != digest
    let ends (v : Nat) : Nat :=
      max (((codeOn b 2 v).map Section.bundles).getD 0) (((codeOn b 3 v).map fun x => im.fbEntry + x.bundles).getD 0)
    let late := q.lay.vcores.any fun v => (codeOn b 3 v).isSome && decide (im.fbEntry < ((codeOn b 2 v).map Section.bundles).getD 0)
    let most := q.lay.vcores.foldl (fun a v => max a (ends v)) 0
    let bars := q.lay.clusters.foldl (fun a h => min a (s.barsFree p h n)) 256
    let taken := s.takenRanges q
    let badShared := fresh && (sharedOf b m).any fun x =>
      (q.lay.place x.addr).isNone || (q.lay.place (x.addr + x.len - 1)).isNone ||
        taken.any fun t => meet x.pages.1 x.pages.2 t.1 t.2
    let placed := if fresh then (sharedOf b m).foldl (fun s x => s.modPart p fun q => { q with
        allocs := q.allocs ++ [⟨x.pages.1, x.pages.2, 0, .shared⟩] }) s else s
    let noRoom := decide (constBytes b m ≠ 0) && (placed.constPlace n p (constBytes b m)).isNone
    let link := (List.range 16).find? fun l => decide (q.lay.linkShare.getD l 0 < im.linkMin.getD l 0)
    one (s.residentBars p job forme digest) ⟨4, m, 0, 0⟩ ++
    one (!r.memOnly && (decide (8192 < most) || late)) ⟨6, m, most, 8192⟩ ++
    one (!r.memOnly && decide (bars < im.barriers)) ⟨9, m, im.barriers, bars⟩ ++
    one (decide (s.queuesFree n < im.queues)) ⟨10, m, im.queues, s.queuesFree n⟩ ++
    one (decide (heap0 < constBytes b m ∨ allHeaps < need ∨ s.freeBytes p < need) || badShared || noRoom)
      ⟨11, m, need, min (min allHeaps (s.freeBytes p)) (if heap0 < constBytes b m then heap0 else allHeaps)⟩ ++
    (match link with
      | some l => [⟨12, m, im.linkMin.getD l 0, q.lay.linkShare.getD l 0⟩]
      | none => [])

/-- The failure that comes first: by code, then by member (R307). -/
def firstFail : List LoadFail → Option LoadFail
  | [] => none
  | f :: r =>
    match firstFail r with
    | none => some f
    | some g => if g.code < f.code ∨ (g.code = f.code ∧ g.member < f.member) then some g else some f

/-- The proof load at the anchor's module: `none` where everything passes. -/
def State.proofLoad (s : State) (f : Forme) (n : Nat) (b : List Byte) (digest : BitVec 384) (far : FarLoad) : Option LoadFail :=
  let x := s.ctx n
  let im := imageResources b
  let here := s.membersHere f
  let cores := here.foldl (fun a e => a + 4 * (s.part e.2.part).lay.clusters.length) far.vcores
  let beyond := (imageSections b).any fun y => decide ((y.type = 2 ∨ y.type = 3) ∧ im.vcores < y.first + y.count)
  let unknown := (imageSections b).filter fun y => y.type == 4 && (Tbl.find f.members y.member).isNone
  let one (c : Bool) (g : LoadFail) : List LoadFail := if c then [g] else []
  firstFail (one im.rsv ⟨1, 0, 0, 0⟩ ++ (unknown.map fun y => (⟨3, y.member, 0, 0⟩ : LoadFail)) ++
    one (decide (cores < im.vcores) || beyond) ⟨5, 0, im.vcores, cores⟩ ++
    one (decide (6291456 < im.localBytes)) ⟨7, 0, im.localBytes, 6291456⟩ ++
    one (decide (s.fencesFree n < im.fences ∨ fenceCount ≤ im.progress ∨ fenceCount ≤ im.fallback))
      ⟨8, 0, im.fences, s.fencesFree n⟩ ++
    (here.map fun e => s.memberFails b digest x.forme x.job e.1 e.2).flatten ++ far.fails)

/-! ### Placing (R306) -/

/-- The bundles of code bytes: the last one is filled up with zeros. -/
def bundlesOf (b : List Byte) : List Word256 :=
  (List.range (ceilDiv b.length 32)).map fun i => BitVec.ofNat 256 (leNat ((b.drop (32 * i)).take 32))

/-- Write bundles into a core's instruction memory from a bundle on. -/
def Core.putCode (k : Core) (at_ : Nat) (bs : List Word256) : Core :=
  let n := bs.length
  { k with
    imem := bs.zipIdx.foldl (fun m e => Tbl.set m (at_ + e.2) e.1) k.imem
    imemBad := k.imemBad.filter fun i => !(decide (at_ ≤ i ∧ i < at_ + n))
    codeLen := max k.codeLen (at_ + n) }

/-- The code of an image for virtual core `v` of partition `p`, written to a core. -/
def Core.takeCode (k : Core) (p v : Nat) (b : List Byte) : Core :=
  let k := { k with codeLen := 0, part := p, vcore := v }
  let k := match codeOn b 2 v with
    | some x => k.putCode 0 (bundlesOf (x.bytes b))
    | none => k
  match codeOn b 3 v with
    | some x => k.putCode (imageResources b).fbEntry (bundlesOf (x.bytes b))
    | none => k

/-- Write the code of an image to one core. While the core runs the write is refused and counted in the header of its cluster (R46,
R528); the offset that the header then gives is a free value, as instruction memory has none in the window. -/
def State.codeTo (s : State) (c p v : Nat) (b : List Byte) : State :=
  if (s.core c).enginesLive then
    let r := s.fresh
    r.2.refuse (0x100000 + clusterOf c * 0x10000) (Config.freeBits 24 r.1).toNat Why.imem .controlProcessor
  else s.modCore c fun k => k.takeCode p v b

/-- Write the code of an image to the cores of a partition. -/
def State.placeCode (s : State) (p : Nat) (b : List Byte) : State :=
  let l := (s.part p).lay
  l.vcores.foldl (fun s v =>
    match l.coreOf v with
    | none => s
    | some c => s.codeTo c p v b) s

/-- Lines that hold bytes from an address on, zero around them: the first line's address and the lines. -/
def linesFor (a : Nat) (b : List Byte) : Nat × List (BitVec 512) :=
  let pad := List.replicate (a % 64) 0 ++ b
  (a / 64 * 64, (List.range (ceilDiv pad.length 64)).map fun i => lineOfBytes ((pad.drop (64 * i)).take 64))

/-- Write bytes to a partition as context `n`. -/
def State.putBytes (s : State) (n p a : Nat) (b : List Byte) : State :=
  let ls := linesFor a b
  let r := s.writeLines (.ctx n) p (dieOf ((s.part p).lay.clusters.headD 0)) ls.1 ls.2
  r.1.settle r.2

/-- The residency that an image makes. -/
def residencyOf (b : List Byte) (digest : BitVec 384) (serial : Nat) : Residency :=
  let im := imageResources b
  { digest := digest, vcores := im.vcores, queues := im.queues, layers := im.layers, hasFb := bit (atBytes b 0 8) 41,
    fbEntry := im.fbEntry, cls := BitVec.ofNat 3 im.cls, fences := im.fences, progressFence := im.progress,
    fallbackFence := im.fallback, barriers := im.barriers, serial := serial }

/-- The per-context constant block of context `n` on member `m` (R306): a block of an earlier load that is as long serves again, and none is
freed before teardown (R80). -/
def State.placeConsts (s : State) (n p m : Nat) (b : List Byte) : State :=
  let data := constBlock b m
  if data.isEmpty then s.modCtx n fun c => { c with constBase := 0 }
  else
    match s.constPlace n p data.length with
    | none => s
    | some (a, true) => (s.modCtx n fun c => { c with constBase := a }).putBytes n p a data
    | some (a, false) =>
      let s := (s.grant p a (roundUp data.length 4096) n .const).modCtx n fun c => { c with constBase := a }
      s.putBytes n p a data

/-- Load an image on one member of this module: a new residency's code and shared constants, then the context's own (R306,
R308). -/
def State.loadMember (s : State) (forme job m p : Nat) (b : List Byte) (digest : BitVec 384) : State :=
  match s.jobCtxAt forme job m with
  | none => s
  | some n =>
    let same := (s.part p).residency.any fun r => r.digest == digest
    let s := if same then s else
      let r := s.endResidency p
      let s := r.1.settle r.2
      let k := s.number
      let s := k.2.modPart p fun q => { q with residency := some (residencyOf b digest k.1) }
      let s := s.placeCode p b
      let s := (sharedOf b m).foldl (fun s x => s.grant p x.pages.1 x.pages.2 0 .shared) s
      (sharedOf b m).foldl (fun s x => s.putBytes n p x.addr (x.bytes b)) s
    (s.placeConsts n p m b).modJob forme job fun j => { j with digest := some digest }

/-- LOAD_IMAGE (R307), fetched on a queue or ordered by the module that fetched it. With members on other modules it completes once their
modules have answered that every write has been acknowledged. -/
def State.loadImage (s : State) (src : CmdSource) (far : FarLoad) : State :=
  match src with
  | .order o =>
    if o.opc ≠ 0x10 then s
    else
      match (s.forme o.forme).bind fun f => Tbl.find f.members o.member with
      | some r =>
        let s := s.loadMember o.forme o.job o.member r.part o.bulk (Config.sha384 o.bulk)
        s.send (.orderDone o.forme o.job o.member 0x10 0 0)
      | none => s.send (.orderDone o.forme o.job o.member 0x10 Dt.badMember 0)
  | .queue q reply =>
    match reply, s.awaiting q.val fun c => c.opc == 0x10 with
    | some _, some c => s.okCmd q.val c
    | _, _ =>
    s.onBulk q.val 0x10 fun s c b =>
      let n := (s.queue q.val).ctx
      let x := s.ctx n
      let fail (s : State) (g : LoadFail) : State := s.finish q.val c.place
        { status := St.refused, detail := g.code, result := [BitVec.ofNat 64 g.member, BitVec.ofNat 64 g.need, BitVec.ofNat 64 g.have_] }
      if x.member ≠ 0 then s.finish q.val c.place { status := St.wrongQueue }
      else if !formatGood b then fail s ⟨1, 0, 0, 0⟩
      else
        match s.openImage x.session b, s.forme x.forme with
        | some im, some f =>
          let digest := Config.sha384 im
          match s.proofLoad f n im digest far with
          | some g => fail s g
          | none =>
            let s := s.modCtx n fun c => { c with fenceQuota := (imageResources im).fences }
            let s := f.members.foldl (fun s e =>
              if e.2.fab = s.fabAddr then s.loadMember x.forme x.job e.1 e.2.part im digest
              else s.send (.memberOrder ⟨x.forme, x.job, e.1, 0x10, [], im, 0⟩)) s
            let s := s.modJob x.forme x.job fun j => { j with digest := some digest }
            if reply.isNone ∧ f.members.any (fun e => e.2.fab != s.fabAddr) then s.ordered q.val c else s.okCmd q.val c
        | _, _ => fail s ⟨2, 0, 0, 0⟩

end Sys2Proof.Machine
end

