-- ==== Sys2Proof/Machine/Move.lean ====
section
/-! DEFINITION. The move unit (R69 to R71, R377, R554): checks at the head of the queue, transfers within a core and its
cluster, partition reads, writes and operations, and the cluster cache (R215, R216). -/

namespace Sys2Proof.Machine

/-! ### The cluster cache (R215, R216) -/

/-- Sets of the cluster cache. -/
def cacheSets : Nat := 8192

/-- Put a line into a cluster's cache: a full set gives up its least recently used line. -/
def Cluster.cacheFill (k : Cluster) (l : CacheLine) : Cluster :=
  if k.csmWays = 0 then k
  else
    let same (x : CacheLine) : Bool := x.line % cacheSets == l.line % cacheSets
    let cache := k.cache.filter fun x => !x.samePlace l
    let cache :=
      if k.csmWays ≤ (cache.filter same).length then
        match takeFirst same cache with
        | some r => r.2
        | none => cache
      else cache
    { k with cache := cache ++ [l] }

/-- A line of a cluster's cache has been used. -/
def Cluster.cacheTouch (k : Cluster) (l : CacheLine) : Cluster := { k with cache := (k.cache.filter fun x => x ≠ l) ++ [l] }

/-- The line of a member on another module that the cache of cluster `g` holds for a context (R215, assumption 146). -/
def State.peerCached (s : State) (g forme member ctx a : Nat) : Option CacheLine :=
  (s.cluster g).cache.find? fun l => l.home == .peer forme member ctx && l.line == a / 64

/-- A line of a member on another module has come for a context: one of a CACHE region fills the cache (R215). -/
def State.peerFill (s : State) (g forme member ctx a : Nat) (v : BitVec 512) : State :=
  if (s.cluster g).csmWays ≠ 0 && Config.peerCaches forme member (a / 64) then
    s.modCluster g fun k => k.cacheFill ⟨.peer forme member ctx, a / 64, v⟩
  else s

/-- Whether lines of an address may be held in the cache of cluster `g`: a CACHE region, not on a near channel. -/
def State.cacheable (s : State) (g p a : Nat) : Bool :=
  match (s.part p).regionOf a with
  | some r => r.cache && (match s.locIn (s.part p).lay a with
      | some b => b.1 / 8 != g
      | none => false)
  | none => false

/-- A read of a line through the cache of cluster `g` (CLUSTER_CACHE_HIT, R216): a hit is served after a permission check. -/
def State.cachedRead (s : State) (g : Nat) (r : MemReq) (u : ReqUnit) : MemOut × State × List Ev :=
  let p := r.part.val
  let a := r.addr.toNat / 64 * 64
  if s.cacheable g p a then
    match (s.cluster g).cache.find? fun l => l.ofPart p && l.line == a / 64 with
    | some l =>
      let permits := match l.home with
        | .here _ h kctx => s.memPermits h kctx r.who
        | .peer _ _ _ => false
      if permits then ({ status := .ok, data := l.data }, s.modCluster g fun k => k.cacheTouch l, [])
      else s.askRead r u
    | none =>
      let t := s.askRead r u
      if t.1.status = .ok then
        let sel := s.selectKey p a
        (t.1, t.2.1.modCluster g fun k => k.cacheFill ⟨.here p sel.handle sel.kctx, a / 64, t.1.data⟩, t.2.2)
      else t
  else s.askRead r u

/-! ### Checks at the head of the queue (R69, R70) -/

/-- Whether `n` bytes of local memory from `a` stay inside it. -/
def localOk (a n : Nat) : Bool := n == 0 || decide (a + n - 1 ≤ localTop)

/-- Whether `n` bytes of scratch from `a` stay inside the scratch part (R213). -/
def Cluster.scratchOk (k : Cluster) (a n : Nat) : Bool :=
  n == 0 || decide (a + n ≤ (16 - k.csmWays) * 524288)

/-- Whether `n` bytes from partition address `a` stay inside one segment of the partition address space. -/
def Layout.rangeOk (l : Layout) (a n : Nat) : Bool :=
  n == 0 ||
  (match l.segment a, l.segment (a + n - 1) with
    | some x, some y => x == y && decide (a < 2 ^ 40 ∧ a + n ≤ 2 ^ 40)
    | _, _ => false)

/-- The offsets that an MGATH reads (Table 02-8). -/
def gatherOffsets (k : Core) (e : MoveEntry) : List Nat :=
  (rangeFrom 0 e.xl.toNat).map fun i => leNat (k.peek (e.xs.toNat + 4 * i) 4)

/-- The first fault of a local move, in R70's order; a descriptor that is not valid comes first. -/
def moveLocalFault (k : Core) (e : MoveEntry) : Option Nat :=
  let xs := e.xs.toNat
  let xd := e.xd.toNat
  let n := e.xl.toNat
  let d := Desc.of e.td
  let w := match Fmt.ofCode d.fmt with
    | some f => f.bits
    | none => 8
  let lineB := d.lineElems * w / 8
  match e.op with
  | .mcpy =>
    if xs % 32 ≠ 0 ∨ xd % 32 ≠ 0 ∨ n % 32 ≠ 0 then some FaultCode.align
    else if localOk xs n && localOk xd n then none else some FaultCode.localRange
  | .mgath =>
    if !d.valid .tile then some FaultCode.descInvalid
    else if xs % 32 ≠ 0 ∨ xd % 32 ≠ 0 then some FaultCode.align
    else if !localOk xs (4 * n) then some FaultCode.localRange
    else
      let offs := gatherOffsets k e
      if offs.any fun o => (d.base + o) % 32 != 0 then some FaultCode.align
      else if (offs.all fun o => localOk (d.base + o) lineB) && (n == 0 || localOk xd ((n - 1) * d.rstride + lineB)) then none
      else some FaultCode.localRange
  | .mtrn =>
    let tl := d.lines * w / 8
    if !d.valid .tile then some FaultCode.descInvalid
    else if (w < 8 ∧ d.lines % 32 ≠ 0) ∨ d.rstride < tl then some FaultCode.descInvalid
    else if xd % 32 ≠ 0 then some FaultCode.align
    else if localOk xd ((d.lineElems - 1) * d.rstride + tl) then none else some FaultCode.localRange
  | _ => none

/-- The first fault of a move to or from cluster shared memory, partition memory or a stream engine, in R70's order. -/
def State.moveFault (s : State) (c : Nat) (k : Core) (e : MoveEntry) : Option Nat :=
  let xs := e.xs.toNat
  let xd := e.xd.toNat
  let n := e.xl.toNat
  let g := s.cluster (clusterOf c)
  let lay := (s.part k.part).lay
  match e.op with
  | .mcpy | .mgath | .mtrn => moveLocalFault k e
  | .mcsr =>
    if xs % 64 ≠ 0 ∨ xd % 32 ≠ 0 ∨ n % 64 ≠ 0 then some FaultCode.align
    else if !localOk xd n then some FaultCode.localRange
    else if !g.scratchOk xs n then some FaultCode.csmRange
    else if g.clamped then some FaultCode.refused else none
  | .mcsw =>
    if xd % 64 ≠ 0 ∨ xs % 32 ≠ 0 ∨ n % 64 ≠ 0 then some FaultCode.align
    else if !localOk xs n then some FaultCode.localRange
    else if !g.scratchOk xd n then some FaultCode.csmRange
    else if g.clamped then some FaultCode.refused else none
  | .mprd =>
    if xs % 64 ≠ 0 ∨ xd % 32 ≠ 0 ∨ n % 64 ≠ 0 then some FaultCode.align
    else if !localOk xd n then some FaultCode.localRange
    else if !lay.rangeOk xs n then some FaultCode.partRange
    else if g.clamped then some FaultCode.refused else none
  | .mpwr =>
    if xd % 64 ≠ 0 ∨ xs % 32 ≠ 0 ∨ n % 64 ≠ 0 then some FaultCode.align
    else if !localOk xs n then some FaultCode.localRange
    else if !lay.rangeOk xd n then some FaultCode.partRange
    else if g.clamped then some FaultCode.refused else none
  | .mpamo =>
    match mopDecode e.mop.toNat with
    | none => some FaultCode.reservedNonzero
    | some (o, _) =>
      if xd % 64 ≠ 0 ∨ xs % 32 ≠ 0 ∨ n % 64 ≠ 0 then some FaultCode.align
      else if !localOk xs (if o = .cas then 2 * n else n) then some FaultCode.localRange
      else if !lay.rangeOk xd n then some FaultCode.partRange
      else if g.clamped then some FaultCode.refused else none
  | .mstrm =>
    if xs % 32 ≠ 0 then some FaultCode.align
    else if !localOk xs 128 then some FaultCode.localRange
    else if g.clamped then some FaultCode.refused else none

/-! ### Reading local memory -/

/-- What a read of local memory finds. -/
inductive LocalRead where
  | hold
  | uncorr
  | ok (bytes : List Byte) (k : Core) (flags : BitVec 7)
deriving DecidableEq, Repr

/-- Read `n` bytes of local memory (R72, R377). -/
def Core.localRead (k : Core) (a n : Nat) : LocalRead :=
  if k.poisoned a n then .hold
  else if k.lmDouble a n then .uncorr
  else .ok (k.peek a n) (k.lmCorrect a n) (flagIf (k.lmSingle a n) flLmCorr)

/-- The local ranges that the head of the move queue would read next (R377). -/
def moveReads (k : Core) (e : MoveEntry) : List (Nat × Nat) :=
  let xs := e.xs.toNat
  let n := e.xl.toNat
  let d := Desc.of e.td
  let lineB := match Fmt.ofCode d.fmt with
    | some f => d.lineBytes f
    | none => 0
  let done := match k.xmove with
    | some r => r.lines
    | none => 0
  match e.op with
  | .mcpy | .mcsw => [(xs, n)]
  | .mgath => (xs, 4 * n) :: (gatherOffsets k e).map fun o => (d.base + o, lineB)
  | .mtrn => (rangeFrom 0 d.lines).map fun i => (d.base + i * d.rstride, lineB)
  | .mpwr => [(xs + 64 * done, min 64 (n - 64 * done))]
  | .mpamo =>
    let w := if e.mop.toNat = 0x78 then 128 else 64
    [(xs + w * done, if 64 * done < n then w else 0)]
  | .mstrm => [(xs, 128)]
  | .mcsr | .mprd => []

/-- Read several local ranges one after another, their bytes joined range by range. -/
def Core.localReads (k : Core) : List (Nat × Nat) → Option (List (List Byte) × Core × BitVec 7)
  | [] => some ([], k, 0)
  | (a, n) :: r =>
    match k.localRead a n with
    | .ok bs k fl =>
      match Core.localReads k r with
      | some (t, k, fm) => some (bs :: t, k, fl ||| fm)
      | none => none
    | _ => none

/-! ### Moves inside a core and its cluster (R69, R70, R554) -/

/-- The lines that an MTRN writes, from the lines it has read: element `i` of line `j` becomes element `j` of line `i`. -/
def transposeLines (w elems : Nat) (ls : List (List Byte)) : List (List Byte) :=
  let vs := ls.map leNat
  (rangeFrom 0 elems).map fun j =>
    leBytes (vs.zipIdx.foldl (fun a e => a + ((e.1 / 2 ^ (w * j)) % 2 ^ w) * 2 ^ (w * e.2)) 0) (vs.length * w / 8)

/-- Write lines to local memory, `stride` apart. -/
def Core.writeLinesAt (k : Core) (a stride : Nat) : List (List Byte) → Core
  | [] => k
  | l :: ls => Core.writeLinesAt (k.lmWrite a l) (a + stride) stride ls

/-- What a local move leaves in its core, the source having been read entirely before the first write. -/
def moveLocal (k : Core) (e : MoveEntry) (bs : List (List Byte)) : Core :=
  let d := Desc.of e.td
  let w := match Fmt.ofCode d.fmt with
    | some f => f.bits
    | none => 8
  match e.op with
  | .mcpy => k.lmWrite e.xd.toNat bs.flatten
  | .mgath => k.writeLinesAt e.xd.toNat d.rstride (bs.drop 1)
  | .mtrn => k.writeLinesAt e.xd.toNat d.rstride (transposeLines w d.lineElems bs)
  | _ => k

/-- The head of the move queue, if it is `op`, its wait is granted (R53) or it has started, and nothing executes in the unit. -/
def Core.moveHead (k : Core) (op : MoveOp) : Option MoveEntry :=
  if k.enginesLive && k.xrun.isNone then
    match k.xq with
    | e :: _ => if e.op = op ∧ (k.xmove.isSome || k.grants .move e.hdr) then some e else none
    | [] => none
  else none

/-- The move at the head begins: its token is consumed. -/
def Core.beginMove (k : Core) (e : MoveEntry) : Core :=
  match k.xmove with
  | some _ => k
  | none => { k.consume e.hdr with xmove := some ⟨0, [], 0, false⟩ }

/-- The move at the head has done everything but reach its completion point. -/
def Core.endMove (k : Core) : Core :=
  let r := k.xmove.getD ⟨0, [], 0, false⟩
  { k with xrun := some r.flags, held := k.held.filter (· != .move) }

/-- Flags that the move at the head has raised. -/
def Core.moveFlags (k : Core) (fl : BitVec 7) : Core :=
  match k.xmove with
  | some r => { k with xmove := some { r with flags := r.flags ||| fl } }
  | none => k

/-- RUN `seq` of the job of context `n` is marked not reproducible (R204): at the command where this module fetched it; else in the job's record,
for the reports of its cores to the module that fetched it, and at once where virtual core `v` has made its report. -/
def State.markRun (s : State) (n seq v : Nat) : State :=
  let x := s.ctx n
  let mine (d : Cmd) : Bool := match d.run with
    | some r => r.is x.forme x.job seq
    | none => false
  if s.queues.any fun e => e.2.cmds.any mine then
    { s with queues := s.queues.map fun (e : Nat × Queue) =>
        (e.1, { e.2 with cmds := e.2.cmds.map fun d => if mine d then { d with notRepro := true } else d }) }
  else if ((s.job x.forme x.job).map fun j => j.marks).any fun l => l.contains seq then s
  else
    let s := s.modJob x.forme x.job fun j => { j with marks := j.marks ++ [seq] }
    let runs := s.cores.any fun e => e.2.vcore == v && e.2.ctx == n && e.2.runSeq == seq && e.2.ctl != .ended && e.2.ctl != .idle
    if runs then s else s.send (.coreDone x.forme x.job v seq true 0)

/-- The RUN of core `c` is marked not reproducible. -/
def State.markNotRepro (s : State) (c : Nat) : State := s.markRun (s.core c).ctx (s.core c).runSeq (s.core c).vcore

/-- A core's move reads a local range and goes on with `f`; a poison-marked granule holds it and an uncorrectable word is
core fault LM_UNCORR. -/
def State.withLocal (s : State) (c : Nat) (e : MoveEntry) (f : List (List Byte) → State → State) : State :=
  let k := s.core c
  let rs := moveReads k e
  if rs.any fun r => k.poisoned r.1 r.2 then s
  else if rs.any fun r => k.lmDouble r.1 r.2 then s.fault c FaultCode.lmUncorr e.pc 3
  else
    match (k.beginMove e).localReads rs with
    | some (bs, k, fl) => f bs (s.setCore c (k.moveFlags fl))
    | none => s

/-- MCPY, MGATH, MTRN. -/
def State.moveInCore (s : State) (c : Nat) (e : MoveEntry) : State :=
  s.withLocal c e fun bs s => s.modCore c fun k => (moveLocal k e bs).endMove

/-- MCSR: scratch is read with its own error check (R214). -/
def State.moveFromScratch (s : State) (c : Nat) (e : MoveEntry) : State :=
  let cl := clusterOf c
  let g := s.cluster cl
  let a := e.xs.toNat
  let n := e.xl.toNat
  if !(wordsIn g.csmBad2 a n).isEmpty then s.fault c FaultCode.lmUncorr e.pc 3
  else
    let bad := wordsIn g.csmBad1 a n
    let s := s.modCluster cl fun g => { g with csmBad1 := g.csmBad1.filter fun w => !bad.contains w }
    s.modCore c fun k =>
      let k := (k.beginMove e).moveFlags (flagIf (!bad.isEmpty) flLmCorr)
      let k := { k with lmCorr := min (k.lmCorr + bad.length) (2 ^ 32 - 1) }
      (k.lmWrite e.xd.toNat (Mem.readBytes g.scratch a n)).endMove

/-- Scratch is written; errors under what is written are gone. -/
def Cluster.scratchWrite (g : Cluster) (a : Nat) (bs : List Byte) : Cluster :=
  let gone := wordsIn (g.csmBad1 ++ g.csmBad2) a bs.length
  { g with scratch := Mem.writeBytes g.scratch a bs,
           csmBad1 := g.csmBad1.filter fun w => !gone.contains w,
           csmBad2 := g.csmBad2.filter fun w => !gone.contains w }

/-- MCSW. -/
def State.moveToScratch (s : State) (c : Nat) (e : MoveEntry) : State :=
  s.withLocal c e fun bs s =>
    (s.modCluster (clusterOf c) fun g => g.scratchWrite e.xd.toNat bs.flatten).modCore c Core.endMove

/-! ### Moves to and from partition memory (R70, R204, R364, R377) -/

/-- One more line of the move at the head is done. -/
def Core.lineDone (k : Core) (bad : Option (Nat × Nat)) (impure : Bool) : Core :=
  match k.xmove with
  | some r => { k with xmove := some { r with lines := r.lines + 1, bad := r.bad ++ bad.toList, impure := r.impure || impure } }
  | none => k

/-- A request of core `c` to its partition, with the label of its CLASS (R323, R324). -/
def State.coreReq (s : State) (c a : Nat) (cls : BitVec 3) : MemReq :=
  let k := s.core c
  { s.reqAt (.ctx k.ctx) k.part a (dieOf (clusterOf c)) with cls := stampOf cls }

/-- What an ended request does to its issuer's context (R348). -/
def endedEv (st : MemStatus) (ctx : Nat) : List Ev := if st = .ended then [.affect ctx] else []

/-- MPRD, line by line. The flag says that every line has been served; a request that waits leaves the rest to a later
command. -/
def State.readMove (s : State) (c : Nat) (e : MoveEntry) : Nat → Bool × State × List Ev
  | 0 => (true, s, [])
  | n + 1 =>
    let i := match (s.core c).xmove with
      | some r => r.lines
      | none => 0
    let a := e.xs.toNat + 64 * i
    let d := e.xd.toNat + 64 * i
    let q := s.coreReq c a e.cls
    let t := (s.demote (clusterOf c) e.cls q (.core c)).cachedRead (clusterOf c) q (.core c)
    if t.1.status = .hold then (false, t.2.1, t.2.2)
    else
      let poisoned := t.1.status == .poison || t.1.status == .ended
      let data := if poisoned then 0 else t.1.data
      let bad := if poisoned then some (a, d) else none
      let s := t.2.1.modCore c fun k => (k.lmWrite d (bytesOfLine data)).lineDone bad false
      let r := State.readMove s c e n
      (r.1, r.2.1, t.2.2 ++ endedEv t.1.status (s.core c).ctx ++ r.2.2)

/-- The granules that poisoned lines have filled are marked, and the lines are put on the poison list: a seventeenth entry
loses the context (R377). -/
def State.markPoison (s : State) (c : Nat) : List (Nat × Nat) → State × List Ev
  | [] => (s, [])
  | b :: bs =>
    let full := 16 ≤ (s.core c).poisonList.length
    let s := s.modCore c fun k =>
      { k with poison := insertSorted (b.2 / 128) (insertSorted ((b.2 + 63) / 128) k.poison),
               poisonList := if full then k.poisonList else k.poisonList ++ [b] }
    let t := State.markPoison s c bs
    (t.1, (if full then [.lose (s.core c).ctx] else []) ++ t.2)

/-- MPRD. -/
def State.moveRead (s : State) (c : Nat) (e : MoveEntry) : State :=
  let s := s.modCore c fun k => k.beginMove e
  let left := e.xl.toNat / 64 - (match (s.core c).xmove with
    | some r => r.lines
    | none => 0)
  match s.readMove c e left with
  | (false, s, es) => s.settle es
  | (true, s, es) =>
    let bad := match (s.core c).xmove with
      | some r => r.bad
      | none => []
    let m := s.markPoison c bad
    (m.1.modCore c Core.endMove).settle (es ++ m.2)

/-- What one line of MPWR or MPAMO does at memory: the answer, and the state with the local side of it done. -/
def State.writeOne (s : State) (c : Nat) (e : MoveEntry) (i : Nat) (opd : List Byte) : MemOut × State × List Ev :=
  let r := s.coreReq c (e.xd.toNat + 64 * i) e.cls
  let s := s.demote (clusterOf c) e.cls r (.core c)
  match e.op with
  | .mpamo =>
    let t := s.askOp r e.mop.toNat (BitVec.ofNat 1024 (leNat opd)) (.core c)
    if e.mop.toNat = 0x78 ∧ t.1.status = .ok then
      (t.1, t.2.1.modCore c fun k => k.lmWrite (e.xs.toNat + 128 * i) (bytesOfLine t.1.data), t.2.2)
    else t
  | _ => s.askWrite r (lineOfBytes opd) (.core c)

/-- MPWR and MPAMO, line by line. -/
def State.writeMove (s : State) (c : Nat) (e : MoveEntry) : Nat → Bool × State × List Ev
  | 0 => (true, s, [])
  | n + 1 =>
    let k := s.core c
    let i := match k.xmove with
      | some r => r.lines
      | none => 0
    let rs := moveReads k e
    if rs.any fun r => k.poisoned r.1 r.2 then (false, s, [])
    else if rs.any fun r => k.lmDouble r.1 r.2 then (false, s, [.fault c FaultCode.lmUncorr e.pc 3])
    else
      match k.localReads rs with
      | none => (false, s, [])
      | some (bs, k, fl) =>
        let t := (s.setCore c (k.moveFlags fl)).writeOne c e i bs.flatten
        if t.1.status = .hold then (false, t.2.1, t.2.2)
        else
          let acked := t.1.status == .ok || t.1.status == .poison
          let impure := e.op == .mpamo && acked && !t.1.epochBit
          let s := t.2.1.modCore c fun k => k.lineDone none impure
          let r := State.writeMove s c e n
          (r.1, r.2.1, t.2.2 ++ endedEv t.1.status k.ctx ++ r.2.2)

/-- MPWR and MPAMO. -/
def State.moveWrite (s : State) (c : Nat) (e : MoveEntry) : State :=
  let k := s.core c
  if k.xmove.isNone && (moveReads k e).any (fun r => k.poisoned r.1 r.2) then s
  else
    let s := s.modCore c fun k => k.beginMove e
    let s := match e.op, mopDecode e.mop.toNat with
      | .mpamo, some (o, t) => if o.reordersFloats t then s.markNotRepro c else s
      | _, _ => s
    let left := e.xl.toNat / 64 - (match (s.core c).xmove with
      | some r => r.lines
      | none => 0)
    match s.writeMove c e left with
    | (false, s, es) => s.settle es
    | (true, s, es) => (s.modCore c Core.endMove).settle es

/-! ### MSTRM (R71, R148) -/

/-- Places of a stream engine's input queue. -/
def streamQueuePlaces : Nat := 16

/-- MSTRM: the descriptor is copied into the engine's input queue, or holds the move unit while that is full. -/
def State.moveStream (s : State) (c : Nat) (e : MoveEntry) : State :=
  let g := 4 * clusterOf c + e.se.val
  if streamQueuePlaces ≤ (s.engine g).queue.length then s
  else
    s.withLocal c e fun bs s =>
      let ws := (chunks 8 16 bs.flatten).map fun b => BitVec.ofNat 64 (leNat b)
      let k := s.core c
      (s.modEngine g fun x => { x with queue := x.queue ++ [⟨ws, k.ctx, e.cls, c, k.runSeq⟩] }).modCore c Core.endMove

/-- A move instruction executes at the head of its queue; its completion point comes at INSTRUCTION_COMPLETION_POINT.
Where it may not start or go on, nothing happens. -/
def State.moveStep (s : State) (c : Nat) (op : MoveOp) : State :=
  let k := s.core c
  match k.moveHead op with
  | none => s
  | some e =>
    match (if k.xmove.isSome then none else s.moveFault c k e) with
    | some code => (s.setCore c (k.consume e.hdr)).fault c code e.pc 3
    | none =>
      match op with
      | .mcpy | .mgath | .mtrn => s.moveInCore c e
      | .mcsr => s.moveFromScratch c e
      | .mcsw => s.moveToScratch c e
      | .mprd => s.moveRead c e
      | .mpwr | .mpamo => s.moveWrite c e
      | .mstrm => s.moveStream c e

end Sys2Proof.Machine
end

