-- ==== Sys2Proof/Machine/Functions.lean ====
section
/-! DEFINITION. The functions of Table 05-3 whose results the table only bounds (R135): what each stands for, to 200 bits and more, and
which results lie within its bound. -/

namespace Sys2Proof.Machine

/-! ### Fixed-point reals: an integer stands for that many units of 2^-256 -/

/-- One. -/
def fxOne : Int := 2 ^ 256
/-- A magnitude `m·2^e`. -/
def fxOf (m : Nat) (e : Int) : Int := if -256 ≤ e then m * 2 ^ (e + 256).toNat else m / 2 ^ (-256 - e).toNat
/-- Product. -/
def fxMul (a b : Int) : Int := a * b / fxOne
/-- Quotient. -/
def fxDiv (a b : Int) : Int := a * fxOne / b
/-- Square root. -/
def fxSqrt (a : Int) : Int := isqrt (a.toNat * 2 ^ 256)

/-- The value of a fixed-point number with a sign; one that is not zero stays so. -/
def fxValue (neg : Bool) (a : Int) : FV := .fin neg (max a.toNat 1) (-256)

/-! ### Series, each a structural recursion on the number of terms -/

/-- `acc` and `t·(1 + r/(i+1) + r²/((i+1)(i+2)) + …)`. -/
def expSeries (r : Int) : Nat → Nat → Int → Int → Int
  | 0, _, _, acc => acc
  | n + 1, i, t, acc => expSeries r n (i + 1) (fxMul t r / (i + 1)) (acc + t)

/-- `acc` and `p/(2i+1) + p·z/(2i+3) + …`: with `p` a number and `z` its square, the inverse hyperbolic tangent; with `z` the
negated square, the inverse tangent. -/
def oddSeries (z : Int) : Nat → Nat → Int → Int → Int
  | 0, _, _, acc => acc
  | n + 1, i, p, acc => oddSeries z n (i + 1) (fxMul p z) (acc + p / (2 * i + 1))

/-- `acc` and `t·(1 − z/((i+1)(i+2)) + …)`, with `z` a square: sine from `i = 1`, cosine from `i = 0`. -/
def waveSeries (z : Int) : Nat → Nat → Int → Int → Int
  | 0, _, _, acc => acc
  | n + 1, i, t, acc => waveSeries z n (i + 2) (-(fxMul t z / ((i + 1) * (i + 2)))) (acc + t)

/-- `acc` and `t·(1 + z/(2i+3) + z²/((2i+3)(2i+5)) + …)`. -/
def erfSeries (z : Int) : Nat → Nat → Int → Int → Int
  | 0, _, _, acc => acc
  | n + 1, i, t, acc => erfSeries z n (i + 1) (fxMul t z / (2 * i + 3)) (acc + t)

/-- The inverse tangent of 1/k, in units of 2^-440. -/
def atanInv (k : Nat) : Nat → Nat → Int → Int → Int
  | 0, _, _, acc => acc
  | n + 1, i, p, acc => atanInv k n (i + 1) (-(p / (k * k))) (acc + p / (2 * i + 1))

/-- A quarter of π in units of 2^-440, by Machin's formula. -/
def quarterPi : Int := 4 * atanInv 5 110 0 (2 ^ 440 / 5) 0 - atanInv 239 40 0 (2 ^ 440 / 239) 0

/-- π. -/
def fxPi : Int := quarterPi / 2 ^ 182

/-- The natural logarithm of 2. -/
def fxLn2 : Int := 2 * oddSeries (fxOne / 9) 90 0 (fxOne / 3) 0

/-! ### The functions, for finite operands ±m·2^e -/

/-- The exponential of a number: a number from one up to two, and the power of two it is multiplied by. -/
def expParts (x : Int) : Int × Int :=
  let k := x / fxLn2
  (expSeries (x - k * fxLn2) 80 0 fxOne 0, k)

/-- The exponential of minus a number that is not negative. -/
def expNeg (x : Int) : Int :=
  let r := expParts (-x)
  r.1 / 2 ^ (-r.2).toNat

/-- Beyond every format: what an operand of 512 or more, or of −512 or less, gives under VEXP and VEXP2. -/
def farOut (neg : Bool) : FV := .fin false 1 (if neg then -1000 else 1000)

/-- Whether `m·2^e` is at least `b`. -/
def atLeast (m : Nat) (e : Int) (b : Nat) : Bool := decide ((b : Int) * fxOne ≤ fxOf m e)

/-- VEXP. -/
def expOf (s : Bool) (m : Nat) (e : Int) : FV :=
  if atLeast m e 512 then farOut s
  else
    let r := expParts (if s then -(fxOf m e) else fxOf m e)
    .fin false r.1.toNat (r.2 - 256)

/-- VEXP2. -/
def exp2Of (s : Bool) (m : Nat) (e : Int) : FV :=
  if atLeast m e 512 then farOut s
  else
    let x := if s then -(fxOf m e) else fxOf m e
    let k := x / fxOne
    .fin false (expSeries (fxMul (x - k * fxOne) fxLn2) 80 0 fxOne 0).toNat (k - 256)

/-- The logarithm of `m·2^e`, as the logarithm of a number from one up to two, and the exponent. -/
def logParts (m : Nat) (e : Int) : Int × Int :=
  let l := bitLen m - 1
  let y : Int := m * fxOne / 2 ^ l
  let z := fxDiv (y - fxOne) (y + fxOne)
  (2 * oddSeries (fxMul z z) 90 0 z 0, l + e)

/-- A signed fixed-point number as a value. -/
def fxSigned (a : Int) : FV := .fin (decide (a < 0)) a.natAbs (-256)

/-- VLOG. -/
def logOf (m : Nat) (e : Int) : FV :=
  let r := logParts m e
  fxSigned (r.1 + r.2 * fxLn2)

/-- VLOG2. -/
def log2Of (m : Nat) (e : Int) : FV :=
  let r := logParts m e
  fxSigned (fxDiv r.1 fxLn2 + r.2 * fxOne)

/-- The quarter turns in `m·2^e`, and what is left of it. -/
def quarters (m : Nat) (e : Int) : Int × Int :=
  let x := fxOf m e * 2 ^ 184
  (x / (2 * quarterPi), x % (2 * quarterPi) / 2 ^ 184)

/-- The sine of a number and quarter turns. -/
def sineAt (q r : Int) : Int :=
  let z := fxMul r r
  let v := if q % 2 = 0 then waveSeries z 45 1 r 0 else waveSeries z 45 0 fxOne 0
  if q % 4 < 2 then v else -v

/-- VSIN. -/
def sinOf (s : Bool) (m : Nat) (e : Int) : FV :=
  if m = 0 then .fin s 0 0
  else
    let r := quarters m e
    fxSigned (if s then -(sineAt r.1 r.2) else sineAt r.1 r.2)

/-- VCOS. -/
def cosOf (m : Nat) (e : Int) : FV :=
  let r := quarters m e
  fxSigned (sineAt (r.1 + 1) r.2)

/-- VTANH. -/
def tanhOf (s : Bool) (m : Nat) (e : Int) : FV :=
  if m = 0 then .fin s 0 0
  else if atLeast m e 128 then .fin s 1 0
  else
    let t := expNeg (2 * fxOf m e)
    fxValue s (fxDiv (fxOne - t) (fxOne + t))

/-- VSIGM. -/
def sigmOf (s : Bool) (m : Nat) (e : Int) : FV :=
  let t := if atLeast m e 256 then 0 else expNeg (fxOf m e)
  fxValue false (fxDiv (if s then t else fxOne) (fxOne + t))

/-- The error function of a number that is not negative. -/
def erfFx (x : Int) : Int :=
  if 13 * fxOne ≤ x then fxOne
  else
    let z := fxMul x x
    let r := expParts (-z)
    fxMul (fxMul (fxSqrt (fxDiv (4 * fxOne) fxPi)) r.1) (erfSeries (2 * z) 700 0 x 0) / 2 ^ (-r.2).toNat

/-- VERF. -/
def erfOf (s : Bool) (m : Nat) (e : Int) : FV :=
  if m = 0 then .fin s 0 0 else fxValue s (erfFx (if atLeast m e 13 then 13 * fxOne else fxOf m e))

/-- VGELU, its first form or that by the hyperbolic tangent. -/
def geluOf (tanhForm s : Bool) (m : Nat) (e : Int) : FV :=
  if m = 0 then .fin s 0 0
  else if atLeast m e 32 then (if s then .fin true 1 (-1000) else .fin false m e)
  else
    let x := fxOf m e
    -- the share of `x` that is left for a negative operand; the rest of one is what a positive operand keeps
    let share := if tanhForm then
        let cube := fxMul (fxMul x x) x
        let t := expNeg (2 * fxMul (fxSqrt (fxDiv (2 * fxOne) fxPi)) (x + cube * 44715 / 1000000))
        fxDiv t (fxOne + t)
      else (fxOne - erfFx (fxMul x (fxSqrt (fxOne / 2)))) / 2
    fxValue s (fxMul x (if s then share else fxOne - share))

/-- What an opcode of 0x20 to 0x29 stands for at a finite operand (R130, Table 05-3). -/
def fnValue (op : VecOp) (modf : Nat) (s : Bool) (m : Nat) (e : Int) : FV :=
  match op with
  | .vexp => expOf s m e
  | .vexp2 => exp2Of s m e
  | .vlog => logOf m e
  | .vlog2 => log2Of m e
  | .vsin => sinOf s m e
  | .vcos => cosOf m e
  | .vtanh => tanhOf s m e
  | .vsigm => sigmOf s m e
  | .verf => erfOf s m e
  | _ => geluOf (bit modf 0) s m e

/-! ### The bounds (Table 05-3, R135) -/

/-- The bound in halves of a unit in the last place: for a 16-bit type it is one unit. -/
def fnHalves (op : VecOp) (dt : Nat) : Nat :=
  if dt ≠ 0 then 2
  else
    match op with
    | .vsin | .vcos => 3
    | .vtanh | .vsigm | .verf => 4
    | .vgelu => 6
    | _ => 2

/-- A bound on a result: so many halves of a unit in the last place, or the absolute 2^-30 of VGELU below −3. -/
inductive Bound where
  | halves (n : Nat)
  | absolute
deriving DecidableEq, Repr

/-- The bound of an opcode at an operand ±m·2^e. -/
def fnBound (op : VecOp) (dt : Nat) (s : Bool) (m : Nat) (e : Int) : Bound :=
  if op = .vgelu ∧ dt = 0 ∧ s = true ∧ 3 * fxOne < fxOf m e then .absolute else .halves (fnHalves op dt)

/-- The unit in the last place at ±n·2^g. -/
def FloatFmt.ulp (f : FloatFmt) (n : Nat) (g : Int) : Int := if n = 0 then 1 - (f.bias : Int) - f.mb else f.unitOf n g

/-- Whether ±n·2^g is a whole unit or more beyond a format's largest finite value. -/
def FloatFmt.beyond (f : FloatFmt) (n : Nat) (g : Int) : Bool :=
  let e0 := min g f.maxQ
  decide ((f.maxN + 1) * 2 ^ (f.maxQ - e0).toNat ≤ n * 2 ^ (g - e0).toNat)

/-- Whether a result keeps a bound on what it stands for, which is known to 2^-220. An infinity does where the bound passes the largest
finite value, and it alone does for a result beyond range; a zero keeps the sign. -/
def FV.keeps (f : FloatFmt) (b : Bound) (y v : FV) : Bool :=
  match y, v with
  | .fin s m e, .fin t n g =>
    let q := f.ulp n g
    let e0 := min (min e g) (min (q - 1) (-220))
    let lim := match b with
      | .halves h => h * 2 ^ (q - 1 - e0).toNat
      | .absolute => 2 ^ (-30 - e0).toNat
    !f.beyond n g && decide ((scaledInt s m e e0 - scaledInt t n g e0).natAbs ≤ lim + 2 ^ (-220 - e0).toNat) && (decide (m ≠ 0) || s == t)
  | .inf s, .fin t n g =>
    let q := f.ulp n g
    let e0 := min g (min (q - 1) f.maxQ)
    match b with
    | .halves h => s == t && decide ((f.maxN + 1) * 2 ^ (f.maxQ - e0).toNat ≤ n * 2 ^ (g - e0).toNat + h * 2 ^ (q - 1 - e0).toNat)
    | .absolute => false
  | _, _ => false

/-- A result that only a bound is stated of: the free bits `y` where they keep the bound, and otherwise what it stands for, rounded
to nearest. -/
def boundedResult (f : Fmt) (b : Bound) (v : FV) (y : Nat) : Nat × BitVec 7 :=
  match f.float with
  | none => (0, 0)
  | some g =>
    if (f.decode y).keeps g b v then (y, match f.decode y with
      | .inf _ => flInfOut
      | _ => 0)
    else f.convert .nearest false v

end Sys2Proof.Machine
end

