-- ==== Sys2Proof/Machine/Vector.lean ====
section
/-! DEFINITION. The vector unit (R127 to R144): every vector instruction at the head of the vector queue. -/

namespace Sys2Proof.Machine

/-- A vector register's bits. -/
abbrev VReg := BitVec 32768

/-- Vector register `n`. -/
def Core.vreg (k : Core) (n : Fin 32) : VReg := Tbl.get 0 k.v n.val
/-- Write vector register `n`. -/
def Core.setVreg (k : Core) (n : Fin 32) (x : VReg) : Core := { k with v := Tbl.set k.v n.val x }

/-- The first `n` elements of `b` bits (R127). -/
def elemsOf (b n : Nat) (x : VReg) : List Nat := (rangeFrom 0 n).map fun j => (x.toNat / 2 ^ (b * j)) % 2 ^ b
/-- Elements of `b` bits packed from bit 0; the remainder is zero (R129). -/
def packElems (b : Nat) (l : List Nat) : VReg := BitVec.ofNat 32768 (l.foldr (fun x a => x % 2 ^ b + a * 2 ^ b) 0)
/-- Element `j` of a list, 0 beyond it. -/
def nth (l : List Nat) (j : Nat) : Nat := l.getD j 0

/-- Bits and flags gathered from per-element results. -/
def packResults (b : Nat) (l : List (Nat × BitVec 7)) : VReg × BitVec 7 :=
  (packElems b (l.map fun r => r.1), l.foldl (fun f r => f ||| r.2) 0)

/-- The format of a data type code. -/
def dtFmt (dt : Nat) : Fmt := (Fmt.ofCode dt).getD .fp32

/-! ### Arithmetic on one element (R131, R132, R135) -/

/-- Round a value to the type. -/
def toType (f : Fmt) (v : FV) (fl : BitVec 7) : Nat × BitVec 7 :=
  let r := f.convert .nearest false v
  (r.1, r.2 ||| fl)

/-- Square root. -/
def FV.sqrt : FV → FV × BitVec 7
  | .nan b => (.nan false, flagIf b flInvalid)
  | .inf s => if s then (.nan false, flInvalid) else (.inf false, 0)
  | .fin s m e =>
    if m = 0 then (.fin s 0 0, 0)
    else if s then (.nan false, flInvalid)
    else
      let r := sqrtMag m e
      (.fin false r.1 r.2, 0)

/-- VRCP (Table 05-3). -/
def vrcp (dt x : Nat) : Nat × BitVec 7 :=
  let f := dtFmt dt
  match f.decode x with
  | .nan b => toType f (.nan false) (flagIf b flInvalid)
  | .inf s => toType f (.fin s 0 0) 0
  | .fin s m e =>
    if m = 0 then toType f (.inf s) flDivz
    else
      let r := divMag 1 m
      boundedResult f (.halves 2) (.fin s r.1 (r.2 - e)) ((Config.vecFn 0x09 dt 0 x).toNat % 2 ^ f.bits)

/-- VRSQRT (Table 05-3). -/
def vrsqrt (dt x : Nat) : Nat × BitVec 7 :=
  let f := dtFmt dt
  match f.decode x with
  | .nan b => toType f (.nan false) (flagIf b flInvalid)
  | .inf s => if s then toType f (.nan false) flInvalid else toType f (.fin false 0 0) 0
  | .fin s m e =>
    if m = 0 then toType f (.inf s) flDivz
    else if s then toType f (.nan false) flInvalid
    else
      let d := divMag (2 ^ 400) m
      let r := sqrtMag d.1 (d.2 - e - 400)
      boundedResult f (.halves 2) (.fin false r.1 r.2) ((Config.vecFn 0x08 dt 0 x).toNat % 2 ^ f.bits)

/-- What a function of Table 05-3 gives at ±infinity, at zero and for a negative operand, where the table says; `none`
where only the bound holds. -/
def vecFnSpecial (op : VecOp) (v : FV) : Option (FV × BitVec 7) :=
  match v with
  | .nan b => some (.nan false, flagIf b flInvalid)
  | .inf s =>
    match op with
    | .vexp | .vexp2 => some (if s then .fin false 0 0 else .inf false, 0)
    | .vlog | .vlog2 => some (if s then (.nan false, flInvalid) else (.inf false, 0))
    | .vsin | .vcos => some (.nan false, flInvalid)
    | .vtanh | .verf => some (.fin s 1 0, 0)
    | .vsigm => some (.fin false (if s then 0 else 1) 0, 0)
    | _ => some (if s then .fin true 0 0 else .inf false, 0)
  | .fin s m _ =>
    match op with
    | .vlog | .vlog2 => if m = 0 then some (.inf true, flDivz) else if s then some (.nan false, flInvalid) else none
    | _ => none

/-- A function of Table 05-3 (R135): which of the results within its bound it gives is fixed and not stated, a free value. -/
def vecFn (op : VecOp) (code dt modf x : Nat) : Nat × BitVec 7 :=
  let f := dtFmt dt
  match f.decode x with
  | .fin s m e =>
    match vecFnSpecial op (.fin s m e) with
    | some r => toType f r.1 r.2
    | none => boundedResult f (fnBound op dt s m e) (fnValue op modf s m e) ((Config.vecFn code dt modf x).toNat % 2 ^ f.bits)
  | v =>
    match vecFnSpecial op v with
    | some r => toType f r.1 r.2
    | none => (0, 0)

/-- An exact result with its V_INVALID, rounded to the type. -/
def rounded (f : Fmt) (r : FV × Bool) : Nat × BitVec 7 := toType f r.1 (flagIf r.2 flInvalid)

/-- A floating-point operation of 0x01 to 0x29 on one element of each operand. -/
def vecArith (op : VecOp) (dt m a b c : Nat) : Nat × BitVec 7 :=
  let f := dtFmt dt
  let x := f.decode a
  let y := f.decode b
  let z := f.decode c
  match op with
  | .vadd => rounded f (x.add y)
  | .vsub => rounded f (x.add y.negate)
  | .vmul => rounded f (x.mul y)
  | .vfma => rounded f (FV.fma x y z)
  | .vfms => rounded f (FV.fma x y z.negate)
  | .vdiv => let r := x.div y; toType f r.1 r.2
  | .vsqrt => let r := x.sqrt; toType f r.1 r.2
  | .vrsqrt => vrsqrt dt a
  | .vrcp => vrcp dt a
  | .vmin => rounded f (FV.minmax false (bit m 0) x y)
  | .vmax => rounded f (FV.minmax true (bit m 0) x y)
  | .vabs => rounded f (x.abs, x.isSig)
  | .vneg => rounded f (x.negate, x.isSig)
  | .vexp => vecFn .vexp 0x20 dt m a
  | .vexp2 => vecFn .vexp2 0x21 dt m a
  | .vlog => vecFn .vlog 0x22 dt m a
  | .vlog2 => vecFn .vlog2 0x23 dt m a
  | .vsin => vecFn .vsin 0x24 dt m a
  | .vcos => vecFn .vcos 0x25 dt m a
  | .vtanh => vecFn .vtanh 0x26 dt m a
  | .vsigm => vecFn .vsigm 0x27 dt m a
  | .verf => vecFn .verf 0x28 dt m a
  | .vgelu => vecFn .vgelu 0x29 dt m a
  | _ => (0, 0)

/-! ### Integer operations (R133) -/

/-- An integer operation of 0x40 to 0x49 on one element of `w` bits. -/
def vecInt (op : VecOp) (w m a b : Nat) : Nat :=
  let x := toSigned w a
  let y := toSigned w b
  let cnt := (if bit m 21 then bits m 5 0 else b) % w
  match op with
  | .viadd => (a + b) % 2 ^ w
  | .visub => (a + 2 ^ w - b) % 2 ^ w
  | .vimul => (a * b) % 2 ^ w
  | .vand => a &&& b
  | .vor => a ||| b
  | .vxor => a ^^^ b
  | .vshl => (a * 2 ^ cnt) % 2 ^ w
  | .vshr => a / 2 ^ cnt
  | .vsar => ofSigned w (x / 2 ^ cnt)
  | .vimax => if bit m 0 then ofSigned w (min x y) else ofSigned w (max x y)
  | _ => 0

/-! ### Comparison and class (R134) -/

/-- VCMP on one element: its truth and the flags raised. -/
def vecCmp (f : Fmt) (code a b : Nat) : Bool × BitVec 7 :=
  let x := f.decode a
  let y := f.decode b
  if x.isNan || y.isNan then
    (code == 1 || code == 6,
      flagIf ((decide (2 ≤ code) && decide (code ≤ 5)) || x.isSig || y.isSig) flInvalid)
  else
    (match code with
      | 0 => x.eq y
      | 1 => !x.eq y
      | 2 => x.lt y
      | 3 => !y.lt x
      | 4 => y.lt x
      | 5 => !x.lt y
      | 6 => false
      | _ => true, 0)

/-- VCLASS on one element. -/
def vecClass (f : Fmt) (a : Nat) : Nat × BitVec 7 :=
  match f.decode a with
  | .nan true => (1, flInvalid)
  | .nan false => (2, 0)
  | .inf s => (if s then 4 else 2 ^ 9, 0)
  | .fin s m _ =>
    let sub := match f.float with
      | some g => decide (m < 2 ^ g.mb)
      | none => false
    ((if m = 0 then (if s then 2 ^ 5 else 2 ^ 6)
      else if sub then (if s then 2 ^ 4 else 2 ^ 7)
      else (if s then 2 ^ 3 else 2 ^ 8)), 0)

/-! ### Conversion (R136, R137, R140) -/

/-- The rounding of element `j` under a rounding code. -/
def vecRnd (e : VecEntry) (seed : Word64) (code j : Nat) : Rnd :=
  if code = 1 then
    .stochastic (randomBits seed (e.xc1.truncate 32) (e.xc + BitVec.ofNat 64 j) e.step)
  else if code = 2 then .truncate else .nearest

/-- VCVT of one element. -/
def cvtElem (src dst : Fmt) (r : Rnd) (sat : Bool) (x : Nat) : Nat × BitVec 7 :=
  let v := src.decode x
  let o := dst.convert r sat v
  (o.1, o.2 ||| flagIf v.isSig flInvalid)

/-- VCVT (R136). -/
def vecCvt (e : VecEntry) (seed : Word64) (a : VReg) : VReg × BitVec 7 :=
  let m := e.modf.toNat
  let src := dtFmt (bits m 3 0)
  let dst := dtFmt e.dt.toNat
  let n := min 4096 (32768 / max src.bits dst.bits)
  packResults dst.bits ((elemsOf src.bits n a).zipIdx.map fun x =>
    cvtElem src dst (vecRnd e seed (bits m 6 5) x.2) (bit m 4) x.1)

/-- VQUANT (R140). DESIGN CHOICE: a block whose scale byte is 0xFF raises NAN_OUT alone, whatever NaN its elements are (assumption 116). -/
def vecQuant (e : VecEntry) (seed : Word64) (a b : VReg) : VReg × BitVec 7 :=
  let m := e.modf.toNat
  let src := dtFmt (bits m 3 0)
  let dst := dtFmt e.dt.toNat
  let n := (elemCount (bits m 3 0)).getD 0
  let scales := elemsOf 8 (n / 32) b
  packResults dst.bits ((elemsOf src.bits n a).zipIdx.map fun x =>
    let v := src.decode x.1
    match scaleExp (nth scales (x.2 / 32)) with
    | none => dst.convert .nearest true (.nan false)
    | some q =>
      let o := dst.convert (vecRnd e seed (bits m 5 4) x.2) true (v.scale (-q))
      (o.1, o.2 ||| flagIf v.isSig flInvalid))

/-- VAMAX32 (R138): the largest magnitude of each block, as FP32. -/
def vecAmax (dt : Nat) (a : VReg) : VReg × BitVec 7 :=
  let f := dtFmt dt
  let n := (elemCount dt).getD 0
  packResults 32 ((chunks 32 n (elemsOf f.bits n a)).map fun blk =>
    let vs := blk.map fun x => (f.decode x).abs
    let r := vs.foldl (fun (acc : FV) v => (FV.minmax true false acc v).1) (.fin false 0 0)
    toType .fp32 r (flagIf (vs.any FV.isSig) flInvalid))

/-- The exponent of a target format's largest finite value (Table 05-5). -/
def targetMax (code : Nat) : Int :=
  match code with
  | 3 => 8
  | 4 => 15
  | 6 => 4
  | _ => 2

/-- VSCALE32 on one amax value (R139). The byte 0xFF is a NaN of E8M0 (R94). -/
def scaleElem (m x : Nat) : Nat × BitVec 7 :=
  match Fmt.fp32.decode x with
  | .nan b => (0xFF, flNanOut ||| flagIf b flInvalid)
  | .inf _ => (0xFF, flNanOut)
  | .fin s n e =>
    if n = 0 then (0, 0)
    else if s then ((Config.scaleOfNegative x (bits m 3 0) (bits m 4 4)).toNat, 0)
    else
      let i : Int := (bitLen n : Int) - 1 + e - targetMax (bits m 3 0) + (bits m 4 4 : Nat) + 127
      if i < 0 then (0, flCvtSat) else if 254 < i then (254, flCvtSat) else (i.toNat, 0)

/-! ### Reductions, scans and exact sums (R141, R142) -/

/-- One level of the pairwise tree. -/
def pairUp : List (FV × Bool) → List (FV × Bool)
  | a :: b :: r =>
    let s := a.1.add b.1
    (s.1.toFp32, a.2 || b.2 || s.2) :: pairUp r
  | l => l

/-- The tree of VRSUM, of at most `fuel` levels. -/
def sumTree : Nat → List (FV × Bool) → FV × Bool
  | _, [] => (.fin false 0 0, false)
  | _, [a] => a
  | 0, a :: _ => a
  | fuel + 1, l => sumTree fuel (pairUp l)

/-- The segments of `2^g` elements. -/
def segments (g n : Nat) (l : List Nat) : List (List Nat) := chunks (2 ^ g) n l

/-- VRSUM, VRMAX, VRMIN and VRAMAX on one segment. -/
def reduceSeg (op : VecOp) (f : Fmt) (l : List Nat) : Nat × BitVec 7 :=
  let vs := l.map f.decode
  let sig := vs.any FV.isSig
  match op with
  | .vrsum => rounded f (sumTree 12 (vs.map fun v => (v, v.isSig)))
  | .vrmin =>
    match vs with
    | v :: r => rounded f (r.foldl (fun a x => (FV.minmax false false a x).1) v, sig)
    | [] => (0, 0)
  | _ =>
    match if op == .vramax then vs.map FV.abs else vs with
    | v :: r => rounded f (r.foldl (fun a x => (FV.minmax true false a x).1) v, sig)
    | [] => (0, 0)

/-- VSCAN on one segment: `run` is the running sum in FP32, `none` before the first element. -/
def scanSeg (f : Fmt) (excl : Bool) : Option FV → List Nat → List (Nat × BitVec 7)
  | _, [] => []
  | run, x :: r =>
    let v := f.decode x
    let s := match run with
      | none => (v, v.isSig)
      | some a => a.add v
    let next := s.1.toFp32
    let before := run.getD (.fin false 0 0)
    let out := f.convert .nearest false (if excl then before else next)
    -- the last element of an exclusive scan is added to nothing
    (out.1, out.2 ||| flagIf (s.2 && !(excl && r.isEmpty)) flInvalid) :: scanSeg f excl (some next) r

/-- VRSUMX on one segment (R142): the WX128 value, the flags certain, and whether EX_SAT may be set besides. DESIGN CHOICE: a segment
that holds infinities of both signs raises NAN_OUT and no V_INVALID (assumption 116). -/
def sumExact (f : Fmt) (wexp : Int) (old : Int) (l : List Nat) : Nat × BitVec 7 × Bool :=
  let vs := l.map f.decode
  let z := vs.foldl (ExactSum.enter wexp) ⟨0, 0, false, spNone⟩
  let sat := z.satSum old
  let fl := flagIf sat.1 flExSat ||| flagIf (vs.any FV.isSig) flInvalid
  if z.sp = spNone then (ofSigned 128 (old + z.pos + z.neg), fl, sat.2)
  else (wxSpecial, fl ||| (if z.sp = spNan then flNanOut else flInfOut), sat.2)

/-- VRSUMX: with `free` the value of EX_SAT where the order of additions decides it. -/
def vecSumExact (dt m : Nat) (a d : VReg) (free : Bool) : VReg × BitVec 7 :=
  let f := dtFmt dt
  let n := (elemCount dt).getD 0
  let wexp := toSigned 16 (bits m 15 0)
  let olds := elemsOf 128 256 d
  let rs := (segments (bits m 19 16) n (elemsOf f.bits n a)).zipIdx.map fun s =>
    sumExact f wexp (if bit m 20 then toSigned 128 (nth olds s.2) else 0) s.1
  (packElems 128 (rs.map fun r => r.1),
    rs.foldl (fun fl r => fl ||| r.2.1) 0 ||| flagIf ((rs.any fun r => r.2.2) && free) flExSat)

/-! ### Permutes (R143) -/

/-- Interleave two lists. -/
def interleave : List Nat → List Nat → List Nat
  | a :: as, b :: bs => a :: b :: interleave as bs
  | _, _ => []

/-- The elements of even, or of odd, index. -/
def everySecond (l : List Nat) (odd : Nat) : List Nat := (l.zipIdx.filter fun e => e.2 % 2 == odd).map fun e => e.1

/-- The elements that a permute writes. -/
def vecPermute (op : VecOp) (m n : Nat) (a b : List Nat) (idx : List Nat) : List Nat :=
  match op with
  | .vperm => (rangeFrom 0 n).map fun j => if nth idx j < n then nth a (nth idx j) else 0
  | .vbcast => (rangeFrom 0 n).map fun j => nth a (j / 2 ^ m)
  | .vtrans =>
    let rows := n / 2 ^ m
    (rangeFrom 0 n).map fun i => nth a ((i % rows) * 2 ^ m + i / rows)
  | .vshuf =>
    match m with
    | 0 => interleave (a.take (n / 2)) (b.take (n / 2))
    | 1 => interleave (a.drop (n / 2)) (b.drop (n / 2))
    | 2 => everySecond a 0 ++ everySecond b 0
    | _ => everySecond a 1 ++ everySecond b 1
  | _ => a

/-! ### Loads and stores (R144) -/

/-- The addresses of the 32 granules of a load or store. -/
def granules (e : VecEntry) (strided : Bool) : List Nat :=
  let base := e.xa + e.modf.signExtend 64
  (rangeFrom 0 32).map fun n => (base + BitVec.ofNat 64 n * (if strided then e.xb else 128)).toNat

/-- The fault of a load or store, if any: ALIGN before LOCAL_RANGE. -/
def granuleFault (e : VecEntry) (strided : Bool) : Option Nat :=
  let gs := granules e strided
  if gs.headD 0 % 128 ≠ 0 ∨ (strided ∧ e.xb.toNat % 128 ≠ 0) then some FaultCode.align
  else if gs.any fun a => decide (localTop < a + 127) then some FaultCode.localRange
  else none

/-- VLD and VLDS. -/
def vecLoad (k : Core) (e : VecEntry) (strided : Bool) : Engine :=
  match granuleFault e strided with
  | some c => .fault c
  | none =>
    let gs := granules e strided
    Engine.reading k (gs.map fun a => (a, 128)) fun k =>
      (k.setVreg e.vd (BitVec.ofNat 32768 (leNat ((gs.map fun a => k.peek a 128).flatten))), 0)

/-- VST and VSTS. DESIGN CHOICE: granules are written in rising order, so that where a stride of zero lays them on one address the last
remains (assumption 116). -/
def vecStore (k : Core) (e : VecEntry) (strided : Bool) : Engine :=
  match granuleFault e strided with
  | some c => .fault c
  | none =>
    let x := (k.vreg e.vd).toNat
    .done ((granules e strided).zipIdx.foldl (fun k g =>
      k.lmWrite g.1 (leBytes (x / 2 ^ (1024 * g.2) % 2 ^ 1024) 128)) k) 0

/-! ### The instruction at the head of the queue -/

/-- What an instruction other than a load or store writes to VD, with its flags. DESIGN CHOICE: the all-ones mask of VCMP is no NaN
written, and raises no NAN_OUT (assumption 116). -/
def VecEntry.result (e : VecEntry) (k : Core) (free : Bool) : VReg × BitVec 7 :=
  let dt := e.dt.toNat
  let m := e.modf.toNat
  let f := dtFmt dt
  let w := f.bits
  let n := (elemCount dt).getD 0
  let ra := k.vreg e.va
  let rb := k.vreg e.vb
  let rc := k.vreg e.vc
  let a := elemsOf w n ra
  let b := elemsOf w n rb
  let c := elemsOf w n rc
  match e.op with
  | .viadd | .visub | .vimul | .vand | .vor | .vxor | .vshl | .vshr | .vsar | .vimax =>
    (packElems w (List.zipWith (fun x y => vecInt e.op w m x y) a b), 0)
  | .vcmp =>
    packResults w (List.zipWith (fun x y => let r := vecCmp f m x y; (if r.1 then 2 ^ w - 1 else 0, r.2)) a b)
  | .vsel => (packElems w (List.zipWith (fun z xy => if z ≠ 0 then xy.1 else xy.2) c (List.zip a b)), 0)
  | .vclass => packResults w (a.map (vecClass f))
  | .vcvt => vecCvt e k.seed ra
  | .vrsum | .vrmax | .vrmin | .vramax => packResults w ((segments m n a).map (reduceSeg e.op f))
  | .vscan => packResults w (((segments (bits m 3 0) n a).map (scanSeg f (bit m 4) none)).flatten)
  | .vrsumx => vecSumExact dt m ra (k.vreg e.vd) free
  | .vperm | .vbcast | .vtrans | .vshuf => (packElems w (vecPermute e.op m n a b (elemsOf 16 n rb)), 0)
  | .vamax32 => vecAmax dt ra
  | .vscale32 => packResults 8 (a.map (scaleElem m))
  | .vquant => vecQuant e k.seed ra rb
  | _ => packResults w ((List.zip a (List.zip b c)).map fun x => vecArith e.op dt m x.1 x.2.1 x.2.2)

/-- The vector instruction at the head of a queue. -/
def VecEntry.run (e : VecEntry) (k : Core) (free : Bool) : Engine :=
  match e.op with
  | .vld => vecLoad k e false
  | .vlds => vecLoad k e true
  | .vst => vecStore k e false
  | .vsts => vecStore k e true
  | _ =>
    let r := e.result k free
    .done (k.setVreg e.vd r.1) r.2

/-- The head of the vector queue, if it is `op`, its wait is granted and nothing executes in the unit (R52, R53). -/
def Core.vecHead (k : Core) (op : VecOp) : Option VecEntry :=
  if k.enginesLive && k.vrun.isNone then
    match k.vq with
    | e :: _ => if e.op = op ∧ k.grants .vector e.hdr then some e else none
    | [] => none
  else none

/-- A vector instruction executes at the head of its queue once its unit is granted (R438); its completion point comes at
INSTRUCTION_COMPLETION_POINT. Where it may not start, nothing happens. -/
def State.vecStep (s : State) (c : Nat) (op : VecOp) : State :=
  let k := s.core c
  match k.vecHead op with
  | none => s
  | some e =>
    let ix := s.fresh.1
    let t := s.fresh.2
    match e.run (k.consume e.hdr) (Config.freeBool ix) with
    | .fault code => t.fault c code e.pc 2
    | .hold => t
    | .done k fl => if s.granted c (vecUnits c) then t.setCore c { k with vrun := some fl, held := k.held.filter (· != .vector) } else s

end Sys2Proof.Machine
end

