-- ==== Sys2Proof/Machine/Bundle.lean ====
section
/-! DEFINITION. Bundle issue: fetch, decoding checks, token deadlock and the engine slots' entry into their queues (R42, R43,
R46 to R54), and completion points (R55). -/

namespace Sys2Proof.Machine

/-- The engine slots enter their queues with what they capture (R43). -/
def Core.enqueue (k : Core) (b : Word256) : Core :=
  let pc := k.pc
  let mq := match matrixOp (slotOf b 1) with
    | some op => k.mq ++ [captureMatrix k pc (slotOf b 1) op]
    | none => k.mq
  let vq := match vecOp (slotOf b 2) with
    | some op => k.vq ++ [captureVec k pc (slotOf b 2) op]
    | none => k.vq
  let xq := match moveOp (slotOf b 3) with
    | some op => k.xq ++ [captureMove k pc (slotOf b 3) op]
    | none => k.xq
  { k with mq := mq, vq := vq, xq := xq }

/-- Whether every engine is idle or held at its head on a token wait, and nothing executes (R54). -/
def Core.enginesHeld (k : Core) : Bool :=
  let held (hs : List Hdr) : Bool := match hs with
    | [] => true
    | h :: _ => !k.canWait h
  k.mrun.isEmpty && k.vrun.isNone && k.xrun.isNone && k.xmove.isNone &&
    held (k.mq.map fun e => e.hdr) && held (k.vq.map fun e => e.hdr) && held (k.xq.map fun e => e.hdr)

/-- The clears of LM_CORRCNT and ACC_CORR that wait for the next bundle (Table 18-11). -/
def State.clearCorr (s : State) (c : Nat) : State :=
  if (s.core c).lmClear || (s.core c).accClear then
    s.modCore c fun k => { k with
      lmCorr := if k.lmClear then 0 else k.lmCorr, accCorr := if k.accClear then 0 else k.accCorr, lmClear := false, accClear := false }
  else s

/-- BUNDLE_ISSUE (R42): where the bundle may not issue yet, nothing happens, unless the core is deadlocked (R54). -/
def State.bundleIssue (s : State) (c : Nat) : State :=
  match (s.core c).ctl with
  | .running =>
    let s := s.clearCorr c
    let k := s.core c
    if k.codeLen ≤ k.pc then s.fault c FaultCode.imemRange (k.codeLen - 1) 0
    else if k.imemBad.contains k.pc then s.fault c FaultCode.imemParity k.pc 0
    else
      let b := Tbl.get 0 k.imem k.pc
      match bundleFault b with
      | some (code, slot) => s.fault c code k.pc slot
      | none =>
        match ctlDecode (slotOf b 0) with
        | none => s
        | some (_, op) =>
          let h := slotHdr (slotOf b 0)
          if !k.canWait h then
            if k.enginesHeld && !s.anyArm c then s.fault c FaultCode.tokenDeadlock k.pc 0 else s
          else if k.roomFor b && !op.onPoison k then
            (s.modCore c fun k => (k.consume h).enqueue b).control c h op
          else s
  | _ => s

/-! ### Completion points (R55, R77) -/

/-- The executing instruction at place `i` of an engine's queue leaves it, and its flags are set: its header, bundle and slot. The vector and the
move unit execute one at a time, the head. -/
def Core.retire (k : Core) (g : EngineKind) (i : Nat) : Option (Core × Hdr × Nat × Nat) :=
  match g with
  | .matrix => k.retireMatrix i
  | .vector =>
    match k.vrun, k.vq with
    | some fl, e :: r => some ({ k with vq := r, vrun := none, mflags := k.mflags ||| fl }, e.hdr, e.pc, 2)
    | _, _ => none
  | .move =>
    match k.xrun, k.xq with
    | some fl, e :: r => some ({ k with xq := r, xrun := none, xmove := none, mflags := k.mflags ||| fl }, e.hdr, e.pc, 3)
    | _, _ => none

/-- The units that the instruction at place `i` of an engine's queue runs on (R436). -/
def Core.runUnits (k : Core) (g : EngineKind) (i c : Nat) : List Nat :=
  match g with
  | .matrix => ((k.mq[i]?).map fun e => e.units c).getD []
  | .vector => vecUnits c
  | .move => []

/-- INSTRUCTION_COMPLETION_POINT (R55) of the instruction at place `i` of an engine's queue: the flags are set and the token is posted. A unit
whose grant was withdrawn while it worked holds until it is granted again (R435). -/
def State.completionPoint (s : State) (c : Nat) (g : EngineKind) (i : Nat) : State :=
  let k := s.core c
  if k.enginesLive then
    match (if s.granted c (k.runUnits g i c) then k.retire g i else none) with
    | none => s
    | some (k', h, pc, slot) =>
      let impure := g == .move && (match k.xmove with
        | some r => r.impure
        | none => false)
      let s := s.setCore c k'
      let s := if impure then s.opAcked k.ctx false else s
      s.postHdr c h pc slot
  else s

/-- Whether the head of an engine's queue would read a poison-marked granule now, so that its issuer holds (R377). -/
def Core.headHolds (k : Core) (g : EngineKind) : Bool :=
  if !k.enginesLive then false
  else
    match g with
    | .matrix =>
      match k.matrixNext with
      | some e => k.grants .matrix e.hdr && e.run k false == .hold
      | none => false
    | .vector =>
      match k.vrun, k.vq with
      | none, e :: _ => k.grants .vector e.hdr && e.run k false == .hold
      | _, _ => false
    | .move =>
      match k.xrun, k.xq with
      | none, e :: _ => (k.xmove.isSome || k.grants .move e.hdr) && k.anyPoison (moveReads k e)
      | _, _ => false

/-- POISONED_GRANULE_READ (R377): the issuer holds until recovery rewrites the granule. -/
def State.granuleHold (s : State) (c : Nat) (g : EngineKind) : State :=
  let k := s.core c
  if k.headHolds g && !k.held.contains g then s.setCore c { k with held := k.held ++ [g] } else s

end Sys2Proof.Machine
end

