-- ==== Sys2Proof/Machine/StateImage.lean ====
section
/-! DEFINITION. The state image of a mini-switch (R284, Tables 09-13 and 09-14): laying a core, the scratch and the hub out in
bytes, and reading them back. -/

namespace Sys2Proof.Machine

/-! ### Laying out -/

/-- One field of an image: its offset, its bytes and its value. -/
structure Field where
  ofs : Nat
  size : Nat
  val : Nat
deriving DecidableEq, Repr

/-- Write fields into an image. -/
def putFields (m : Mem) (l : List Field) : Mem := l.foldl (fun m f => m.writeLE f.ofs f.size f.val) m

/-- Copy bytes of a memory below `n` into an image at `ofs`. -/
def putMem (m src : Mem) (ofs n : Nat) : Mem :=
  src.foldl (fun m c => if c.1 < n then m.write (ofs + c.1) c.2 else m) m

/-- The bytes of an image from `ofs`, `n` of them, as a memory from 0. -/
def takeMem (m : Mem) (ofs n : Nat) : Mem :=
  (m.filter fun c => decide (ofs ≤ c.1) && decide (c.1 < ofs + n)).map fun c => (c.1 - ofs, c.2)

/-- The offset of an accumulator element's 32-bit word in the accumulator storage: array, row and column of its processing
element (R85), and the number's word among the sixteen of that element's 64 bytes (R87). -/
def accOfs (n i j : Nat) : Nat :=
  ((i / 128) * 2 + j / 128) * 2 ^ 20 + ((i % 128) * 128 + j % 128) * 64 + 4 * n

/-- The fields of one accumulator's elements. -/
def Acc.fields (a : Acc) (num : Nat) : List Field :=
  match a.cls with
  | .float | .int => a.elems.map fun e => ⟨accOfs num (e.1 / max 1 a.n) (e.1 % max 1 a.n), 4, e.2.toNat % 2 ^ 32⟩
  | .exact => a.elems.map fun e => ⟨accOfs num (e.1 / max 1 a.n) (e.1 % max 1 a.n), 16, e.2.toNat⟩
  | _ => []

/-- The class code of an accumulator tag (Table 09-14). -/
def AccClass.code : AccClass → Nat
  | .float => 1
  | .int => 2
  | .exact => 3
  | _ => 0

/-- The special states of the four possible exact accumulators, two bits an element, rows then columns. -/
def Core.spMem (k : Core) : Mem :=
  (List.range 4).foldl (fun m q =>
    let a := Tbl.get Acc.reset k.acc (4 * q)
    if a.cls = .exact then
      a.sp.foldl (fun m e =>
        let at_ := (e.1 / max 1 a.n) * 256 + e.1 % max 1 a.n
        let ofs := q * 16384 + at_ / 4
        m.write ofs (m.read ofs ||| BitVec.ofNat 8 ((e.2 % 4) * 4 ^ (at_ % 4)))) m
    else m) []

/-- A queue entry: the slot in bytes 0 to 7, then what it captured. -/
def putEntry (m : Mem) (ofs : Nat) (raw : Word64) (vals : List (Nat × Nat)) : Mem :=
  (vals.foldl (fun (a : Mem × Nat) v => (a.1.writeLE a.2 v.1 v.2, a.2 + v.1)) (m.writeLE ofs 8 raw.toNat, ofs + 8)).1

/-- The program counter's word of the control block. -/
def Core.pcWord (k : Core) : Nat := k.pc % 2 ^ 13 + k.ret.length * 2 ^ 13 + k.loops.length * 2 ^ 18

/-- An arm of the control block (Table 09-14). -/
def SavedArm.fields (fab hub ofs : Nat) (a : SavedArm) : List Field :=
  let at_ := ofs + 16 * a.tok.val
  match a.kind with
  | .fence n t => [⟨at_, 8, 1 + (n % 2 ^ 48) * 2 ^ 8⟩, ⟨at_ + 8, 8, t⟩]
  | .barrier i ph => [⟨at_, 8, 3 + (fab * 2 ^ 14 + hub * 2 ^ 8 + i) * 2 ^ 8⟩, ⟨at_ + 8, 8, ph⟩]

/-- The control block of a core at offset `o` of the image (Table 09-14). -/
def Core.control (k : Core) (fab hub o : Nat) : List Field :=
  (k.x.map fun e => ⟨o + 8 * e.1, 8, e.2.toNat⟩) ++ [⟨o + 0x100, 8, k.pcWord⟩] ++
  (k.ret.zipIdx.map fun e => ⟨o + 0x108 + 2 * e.2, 2, e.1 % 2 ^ 13⟩) ++
  (k.loops.zipIdx.map fun e => ⟨o + 0x128 + 16 * e.2, 16, e.1.first % 2 ^ 13 + (e.1.target % 2 ^ 13) * 2 ^ 16 + e.1.remaining * 2 ^ 64⟩) ++
  (k.td.map fun e => ⟨o + 0x200 + 32 * e.1, 32, e.2.toNat⟩) ++
  [⟨o + 0x600, 8, k.step.toNat⟩, ⟨o + 0x608, 8, k.seed.toNat⟩, ⟨o + 0x610, 8, k.cls.toNat⟩, ⟨o + 0x618, 8, k.mflags.toNat⟩] ++
  (k.tokens.map fun e => ⟨o + 0x620 + e.1, 1, e.2⟩) ++
  (k.acc.map fun e => ⟨o + 0x680 + 8 * e.1, 8,
    if e.2.cls.code = 0 then 0
    else e.2.cls.code + (e.2.m - 1) * 2 ^ 2 + (e.2.n - 1) * 2 ^ 11 + (ofSigned 16 e.2.wexp) * 2 ^ 20⟩) ++
  (k.savedArms.map fun a => a.fields fab hub (o + 0x700)).flatten ++
  (k.poisonList.zipIdx.map fun e => ⟨o + 0x800 + 16 * e.2, 8, e.1.1 % 2 ^ 40 + (e.1.2 % 2 ^ 23) * 2 ^ 40 + 2 ^ 63⟩)

/-- The queue contents of a core at offset `o` of the image. -/
def Core.putQueues (k : Core) (m : Mem) (o : Nat) : Mem :=
  let m := k.mq.zipIdx.foldl (fun m e => putEntry m (o + 128 * e.2) e.1.raw
    [(32, e.1.tda.toNat), (32, e.1.tdb.toNat), (32, e.1.tdc.toNat), (4, e.1.step.toNat)]) m
  let m := k.vq.zipIdx.foldl (fun m e => putEntry m (o + 128 * (32 + e.2)) e.1.raw
    [(8, e.1.xa.toNat), (8, e.1.xb.toNat), (8, e.1.xc.toNat), (8, e.1.xc1.toNat), (4, e.1.step.toNat)]) m
  k.xq.zipIdx.foldl (fun m e => putEntry m (o + 128 * (96 + e.2)) e.1.raw
    [(8, e.1.xs.toNat), (8, e.1.xd.toNat), (8, e.1.xl.toNat), (32, e.1.td.toNat), (1, e.1.cls.toNat)]) m

/-- The sub-steps of a matrix instruction (R82): the K groups of an MMA or MMAZ, the 128-row groups of an ACCST or ACCLD. -/
def MatrixEntry.subSteps (e : MatrixEntry) : Nat :=
  match e.op with
  | .mma | .mmaz => (Desc.of e.tda).cols / 32
  | .accst | .accld => ((Desc.of e.tdc).rows + 127) / 128
  | .accz => 1

/-- The sub-steps completed of the instruction at the head of the matrix queue: all of one that executes (assumption 22). -/
def Core.matrixDone (k : Core) : Nat :=
  match k.mrun, k.mq with
  | _ :: _, e :: _ => e.subSteps
  | _, _ => 0

/-- The bytes that a move transfers. -/
def MoveEntry.bytes (e : MoveEntry) : Nat :=
  let d := Desc.of e.td
  match e.op with
  | .mgath => e.xl.toNat * d.lineBytes d.format
  | .mtrn => d.lines * d.lineBytes d.format
  | .mstrm => 128
  | _ => e.xl.toNat

/-- The sub-steps of 4 KiB completed of the move at the head of its queue, all of one that has only its completion point to come. -/
def Core.moveDone (k : Core) : Nat :=
  match k.xrun, k.xq, k.xmove with
  | some _, e :: _, _ => (e.bytes + 4095) / 4096
  | _, _, some r => r.lines / 64
  | _, _, none => 0

/-- The image of one core at offset `o` (Table 09-13). -/
def Core.putImage (k : Core) (m : Mem) (fab hub o : Nat) : Mem :=
  let m := putMem m k.lm o 0x600000
  let m := putFields m ((k.acc.map fun e => (e.2.fields e.1).map fun f => { f with ofs := o + 0x600000 + f.ofs }).flatten)
  let m := putMem m k.spMem (o + 0xA00000) 0x10000
  let m := putFields m (k.imem.map fun e => ⟨o + 0xA10000 + 32 * e.1, 32, e.2.toNat⟩)
  let m := putFields m (k.v.map fun e => ⟨o + 0xA50000 + 4096 * e.1, 4096, e.2.toNat⟩)
  let m := putFields m (k.control fab hub (o + 0xA70000))
  let m := k.putQueues m (o + 0xA71000)
  putFields m [⟨o + 0xA75000, 4, k.matrixDone⟩, ⟨o + 0xA75040, 4, b2n k.vrun.isSome⟩, ⟨o + 0xA75080, 4, k.moveDone⟩]

/-- A barrier instance as Table 08-5 lays it out, 16 bytes. -/
def Barrier.words (b : Barrier) : Nat :=
  b.expect % 2 ^ 13 + b2n b.conf * 2 ^ 13 + (b.keyh % 2 ^ 12) * 2 ^ 14 + (b.owner % 2 ^ 16) * 2 ^ 26 +
    (b.children.length % 2 ^ 7) * 2 ^ 42 + (b.parent.getD 0 % 2 ^ 30) * 2 ^ 64 + b2n b.parent.isSome * 2 ^ 94 +
    (b.phase % 2 ^ 32) * 2 ^ 96

/-- The hot fence values of a hub and the suspended streams of its cluster, in the block at offset `o`. -/
def State.putStreams (s : State) (m : Mem) (c o : Nat) : Mem :=
  let m := putFields m ((s.cluster c).hub.hot.zipIdx.map fun e => ⟨o + 16 * e.2, 16, e.1.1 + (s.fence e.1.1).value * 2 ^ 64⟩)
  (List.range 4).foldl (fun m j =>
    (s.engine (4 * c + j)).held.zipIdx.foldl (fun m t =>
      let words := t.1.cursorRecord s (4 * c + j) t.1.cause ++ padWords 16 t.1.desc
      putFields m (words.zipIdx.map fun w => ⟨o + 0x9000 + (24 * j + t.2) * 256 + 8 * w.2, 8, w.1.toNat⟩)) m) m

/-- The hub and stream block (Table 09-13) at its offset. -/
def State.putHub (s : State) (m : Mem) (c : Nat) : Mem :=
  let o := 0x3200000
  putFields (s.putStreams m c o) ((s.cluster c).hub.bars.map fun e => ⟨o + 0x8000 + 16 * e.1, 16, e.2.words⟩)

/-- The bytes that a mini-switch of a cluster sends (R265, R284): four core blocks, the scratch part, the hub block. -/
def imageSize (ways : Nat) : Nat := 4 * 11010048 + (16 - ways) * 524288 + 65536

/-- The state image of cluster `c`. -/
def State.stateImage (s : State) (c : Nat) : Mem :=
  let m := (List.range 4).foldl (fun m k => (s.core (4 * c + k)).putImage m s.fabAddr c (0xA80000 * k)) []
  let m := putMem m (s.cluster c).scratch 0x2A00000 ((16 - (s.cluster c).csmWays) * 524288)
  s.putHub m c

/-- The offsets that are sent, four lines apart: those of the parts present. -/
def imageOffsets (ways : Nat) : List Nat :=
  (rangeFrom 0 (4 * 11010048 / 256)).map (· * 256) ++
    (rangeFrom 0 ((16 - ways) * 524288 / 256)).map (fun i => 0x2A00000 + 256 * i) ++
    (rangeFrom 0 256).map fun i => 0x3200000 + 256 * i

/-- The four lines at an offset of an image. -/
def imageLines (m : Mem) (ofs : Nat) : List (BitVec 512) :=
  (List.range 4).map fun i => BitVec.ofNat 512 (m.readLE (ofs + 64 * i) 64)

/-! ### Save areas (R311) -/

/-- The save area of a cluster holds its image without the instruction memories (assumption 141): the offset there of an offset of the image, where
the scratch part has `n` bytes. -/
def areaOfs (n o : Nat) : Option Nat :=
  if 0x3200000 ≤ o then some (0x2900000 + n + (o - 0x3200000))
  else if 0x2A00000 ≤ o then some (o - 0x100000)
  else
    let k := o / 0xA80000
    let r := o % 0xA80000
    if r < 0xA10000 then some (k * 0xA40000 + r) else if r < 0xA50000 then none else some (k * 0xA40000 + r - 0x40000)

/-- The offset in the image of an offset in the area. -/
def imageOfs (n a : Nat) : Nat :=
  if 0x2900000 + n ≤ a then 0x3200000 + (a - 0x2900000 - n)
  else if 0x2900000 ≤ a then a + 0x100000
  else
    let k := a / 0xA40000
    let r := a % 0xA40000
    k * 0xA80000 + (if r < 0xA10000 then r else r + 0x40000)

/-- Bytes of the scratch part of a cluster. -/
def State.scratchSize (s : State) (c : Nat) : Nat := (16 - (s.cluster c).csmWays) * 524288

/-- The lines of a cluster's save area that are not zero, by offset. -/
def State.saveLines (s : State) (c : Nat) : List (Nat × BitVec 512) :=
  let n := s.scratchSize c
  let m := (List.range 4).foldl (fun m k => (s.core (4 * c + k)).putImage m s.fabAddr c (0xA80000 * k)) []
  let m := s.putStreams (putMem m (s.cluster c).scratch 0x2A00000 n) c 0x3200000
  (distinct (m.map fun e => e.1 / 64)).filterMap fun i =>
    (areaOfs n (64 * i)).map fun a => (a, BitVec.ofNat 512 (m.readLE (64 * i) 64))

/-! ### Reading back -/

/-- A table of fields read from an image: those that are not zero. -/
def takeTbl {w : Nat} (m : Mem) (ofs size n : Nat) : Tbl (BitVec w) :=
  ((List.range n).map fun i => (i, BitVec.ofNat w (m.readLE (ofs + size * i) size))).filter fun e => e.2 != 0

/-- An accumulator read from an image: its tag, its elements and its special states. -/
def takeAcc (m : Mem) (o num : Nat) : Acc :=
  let tag := m.readLE (o + 0xA70680 + 8 * num) 8
  let mm := bits tag 10 2 + 1
  let nn := bits tag 19 11 + 1
  let wexp := toSigned 16 (bits tag 35 20)
  let idx := List.range (mm * nn)
  let elems (size : Nat) : Tbl (BitVec 128) :=
    (idx.map fun i => (i, BitVec.ofNat 128 (m.readLE (o + 0x600000 + accOfs num (i / nn) (i % nn)) size))).filter fun e => e.2 != 0
  let sp : Tbl Nat := (idx.map fun i =>
    let at_ := (i / nn) * 256 + i % nn
    (i, (m.read (o + 0xA00000 + (num / 4) * 16384 + at_ / 4)).toNat / 4 ^ (at_ % 4) % 4)).filter fun e => e.2 != 0
  match bits tag 1 0 with
  | 1 => ⟨.float, mm, nn, 0, elems 4, []⟩
  | 2 => ⟨.int, mm, nn, 0, elems 4, []⟩
  | 3 => ⟨.exact, mm, nn, wexp, elems 16, sp⟩
  | _ => Acc.reset

/-- The accumulators of a core: an exact one takes its three following numbers. -/
def takeAccs (m : Mem) (o : Nat) : Tbl Acc :=
  let own := ((List.range 16).map fun n => (n, takeAcc m o n)).filter fun e => e.2.cls != .empty
  own.foldl (fun t e => if e.2.cls = .exact then
    [1, 2, 3].foldl (fun t i => Tbl.set t (e.1 + i) { Acc.reset with cls := .partOf e.1 }) t else t) own

/-- The arms of a core, with the bundles that set them. -/
def takeArms (m : Mem) (o : Nat) (pcs : Tbl Nat) : List SavedArm :=
  (List.range 16).filterMap fun i =>
    let w := m.readLE (o + 0xA70700 + 16 * i) 8
    let target := m.readLE (o + 0xA70708 + 16 * i) 8
    if bit w 0 then
      some ⟨Fin.ofNat 16 i, Tbl.get 0 pcs i, if bit w 1 then .barrier (bits w 15 8) target else .fence (bits w 55 8) target⟩
    else none

/-- The queues of a core: a slot that is zero ends each. The bundles from which the entries were issued are the note's. -/
def takeQueues (m : Mem) (o : Nat) (note : CtlNote) : List MatrixEntry × List VecEntry × List MoveEntry :=
  let at_ (i : Nat) : Nat := o + 0xA71000 + 128 * i
  let num (i ofs n : Nat) : Nat := m.readLE (at_ i + ofs) n
  let mq := (List.range 32).filterMap fun i =>
    let w := num i 0 8
    (matrixOp w).map fun op => (⟨slotHdr w, note.matrixPcs.getD i 0, op, Fin.ofNat 16 (bits w 30 27), BitVec.ofNat 256 (num i 8 32),
      BitVec.ofNat 256 (num i 40 32), BitVec.ofNat 256 (num i 72 32), BitVec.ofNat 32 (num i 104 4), BitVec.ofNat 64 w⟩ : MatrixEntry)
  let vq := (rangeFrom 32 64).filterMap fun i =>
    let w := num i 0 8
    (vecOp w).map fun op => (⟨slotHdr w, note.vectorPcs.getD (i - 32) 0, op, regAt w 45 41, regAt w 40 36, regAt w 35 31, regAt w 30 26,
      BitVec.ofNat 4 (bits w 25 22), BitVec.ofNat 22 (bits w 21 0), BitVec.ofNat 64 (num i 8 8), BitVec.ofNat 64 (num i 16 8),
      BitVec.ofNat 64 (num i 24 8), BitVec.ofNat 64 (num i 32 8), BitVec.ofNat 32 (num i 40 4), BitVec.ofNat 64 w⟩ : VecEntry)
  let xq := (rangeFrom 96 32).filterMap fun i =>
    let w := num i 0 8
    (moveOp w).map fun op => (⟨slotHdr w, note.movePcs.getD (i - 96) 0, op, BitVec.ofNat 64 (num i 8 8), BitVec.ofNat 64 (num i 16 8),
      BitVec.ofNat 64 (num i 24 8), BitVec.ofNat 256 (num i 32 32), Fin.ofNat 4 (bits w 25 24), BitVec.ofNat 8 (bits w 23 16),
      BitVec.ofNat 3 (num i 64 1), BitVec.ofNat 64 w⟩ : MoveEntry)
  (mq, vq, xq)

/-- A core read from an image at offset `o`, for context `ctx` and virtual core `v` of partition `p`. -/
def takeCore (m : Mem) (o ctx p v codeLen : Nat) (note : CtlNote) : Core :=
  let pcw := m.readLE (o + 0xA70100) 8
  let pc := bits pcw 12 0
  let imem : Tbl Word256 := takeTbl m (o + 0xA10000) 32 8192
  let q := takeQueues m o note
  let redo := if note.redo then
      let w := slotOf (Tbl.get 0 imem pc) 0
      (ctlDecode w).map fun d => (slotHdr w, d.2)
    else none
  { Core.reset with
    x := takeTbl m (o + 0xA70000) 8 32
    pc := pc
    ret := (List.range (bits pcw 17 13)).map fun i => m.readLE (o + 0xA70108 + 2 * i) 2
    loops := (List.range (bits pcw 20 18)).map fun i =>
      let w := m.readLE (o + 0xA70128 + 16 * i) 8
      ⟨bits w 12 0, bits w 28 16, m.readLE (o + 0xA70130 + 16 * i) 8, note.retDepths.getD i (bits pcw 17 13)⟩
    tokens := ((List.range 16).map fun i => (i, m.readLE (o + 0xA70620 + i) 1)).filter fun e => e.2 != 0
    step := BitVec.ofNat 32 (m.readLE (o + 0xA70600) 8)
    seed := BitVec.ofNat 64 (m.readLE (o + 0xA70608) 8)
    cls := BitVec.ofNat 3 (m.readLE (o + 0xA70610) 8)
    mflags := BitVec.ofNat 7 (m.readLE (o + 0xA70618) 8)
    ctx := ctx
    part := p
    vcore := v
    runSeq := note.runSeq
    runEnergy := note.runEnergy
    ctl := if note.active then .stopped note.halting redo else .idle
    mq := q.1
    vq := q.2.1
    xq := q.2.2
    mrun := note.mrun
    vrun := note.vrun
    xrun := note.xrun
    xmove := note.xmove
    td := takeTbl m (o + 0xA70200) 32 32
    acc := takeAccs m o
    v := takeTbl m (o + 0xA50000) 4096 32
    lm := takeMem m o 0x600000
    poison := distinct ((List.range 16).flatMap fun i =>
      let w := m.readLE (o + 0xA70800 + 16 * i) 8
      if bit w 63 then [bits w 62 40 / 128, (bits w 62 40 + 63) / 128] else [])
    poisonList := (List.range 16).filterMap fun i =>
      let w := m.readLE (o + 0xA70800 + 16 * i) 8
      if bit w 63 then some (bits w 39 0, bits w 62 40) else none
    imem := imem
    codeLen := codeLen
    savedArms := takeArms m o note.armPcs }

/-- What an image does not lay out of a core that has stopped. -/
def Core.note (k : Core) : CtlNote where
  active := match k.ctl with
    | .idle => false
    | _ => true
  halting := match k.ctl with
    | .stopped h _ => h
    | _ => false
  redo := match k.ctl with
    | .stopped _ r => r.isSome
    | _ => false
  retDepths := k.loops.map fun l => l.retDepth
  matrixPcs := k.mq.map fun e => e.pc
  vectorPcs := k.vq.map fun e => e.pc
  movePcs := k.xq.map fun e => e.pc
  armPcs := k.savedArms.map fun a => (a.tok.val, a.pc)
  mrun := k.mrun
  vrun := k.vrun
  xrun := k.xrun
  xmove := k.xmove
  runSeq := k.runSeq
  runEnergy := k.runEnergy

/-- A barrier instance read from its 16 bytes. -/
def takeBarrier (w : Nat) (note : Option BarNote) : Barrier :=
  { Barrier.reset with
    expect := bits w 12 0, conf := bit w 13, keyh := bits w 25 14, owner := bits w 41 26,
    parent := if bit w 94 then some (bits w 93 64) else none, phase := bits w 127 96,
    arrived := (note.map fun k => k.arrived).getD 0, children := (note.map fun k => k.children).getD [],
    corePhase := (note.map fun k => k.corePhase).getD [] }

/-- A suspended stream read from its record and descriptor, for context `n` on cluster `cl`; `sid` is its new number. Its ring has the credit of
every tile before its cursor, and of the first CWIN tiles (R160). -/
def takeStream (m : Mem) (ofs n cl sid : Nat) (note : StreamNote) : Option Stream :=
  let w (i : Nat) : Nat := m.readLE (ofs + 8 * i) 8
  let desc := (List.range 16).map fun i => BitVec.ofNat 64 (w (16 + i))
  if desc.all (· == 0) then none
  else
    let f := bits (w 0) 63 32
    some { desc := desc, ctx := n, cls := note.cls, core := 4 * cl + note.core.val, run := note.run, slot := bits (w 0) 12 10, sid := sid, tile := f, line := 0, reqs := [],
           landed := [], signalled := f, credit := max f (bits (w 19) 39 32), cwait := .none, lookup := none, stopping := true, ready := true,
           cause := bits (w 0) 7 0, write := bit (w 0) 13, cursor := f, va := bits (w 1) 56 0, prq := none,
           suspCount := bits (w 4) 63 32, suspTime := w 5, notRepro := false }

end Sys2Proof.Machine
end

