-- ==== Sys2Proof/Machine/StreamDesc.lean ====
section
/-! DEFINITION. Stream descriptors: their fields, the quantities they define, and the checks made when a stream starts (R151 to
R155). -/

namespace Sys2Proof.Machine

/-- A decoded descriptor (Table 06-2); dimension `d` stands at place `d - 1` of the lists. -/
structure SDesc where
  version : Nat
  srcKind : Nat
  dstKind : Nat
  ndim : Nat
  tdim : Nat
  srcCore : Nat
  dstCore : Nat
  tfv : Bool
  spec : Bool
  mop : Nat
  src : Nat
  dst : Nat
  run : Nat
  pref : Nat
  cwin : Nat
  dtStride : Nat
  tfence : Nat
  tfBase : Nat
  cfence : Nat
  cfBase : Nat
  counts : List Nat
  sstr : List Int
  dstr : List Int
  rsv : Bool
deriving DecidableEq, Repr

/-- Word `i` of a descriptor. -/
def descWord (d : List Word64) (i : Nat) : Nat := (d.getD i 0).toNat

/-- Decode a descriptor. -/
def SDesc.of (d : List Word64) : SDesc :=
  let w := descWord d
  let dims := [0, 1, 2, 3]
  { version := bits (w 0) 7 0
    srcKind := bits (w 0) 10 8
    dstKind := bits (w 0) 13 11
    ndim := bits (w 0) 18 16
    tdim := bits (w 0) 21 19
    srcCore := bits (w 0) 25 24
    dstCore := bits (w 0) 27 26
    tfv := bit (w 0) 28
    spec := bit (w 0) 29
    mop := bits (w 0) 39 32
    src := w 1
    dst := w 2
    run := bits (w 3) 23 0
    pref := bits (w 3) 31 24
    cwin := bits (w 3) 39 32
    dtStride := bits (w 3) 63 40
    tfence := bits (w 4) 47 0
    tfBase := w 5
    cfence := bits (w 14) 47 0
    cfBase := w 15
    counts := dims.map fun i => bits (w (6 + 2 * i)) 23 0
    sstr := dims.map fun i => toSigned 40 (bits (w (6 + 2 * i)) 63 24)
    dstr := dims.map fun i => toSigned 40 (bits (w (7 + 2 * i)) 39 0)
    rsv := bits (w 0) 15 14 ≠ 0 || bits (w 0) 23 22 ≠ 0 || bits (w 0) 31 30 ≠ 0 || bits (w 0) 63 40 ≠ 0 ||
      bits (w 4) 63 48 ≠ 0 || bits (w 14) 63 48 ≠ 0 || dims.any fun i => bits (w (7 + 2 * i)) 63 40 ≠ 0 }

/-! ### What a descriptor defines (R154) -/

/-- The places of the inner dimensions, those of one tile. -/
def SDesc.inner (d : SDesc) : List Nat := List.range (d.tdim - 1)
/-- The places of the outer dimensions, those that number the tiles. -/
def SDesc.outer (d : SDesc) : List Nat := rangeFrom (d.tdim - 1) (d.ndim - d.tdim)

/-- The product of the extents of some dimensions. -/
def SDesc.extent (d : SDesc) (l : List Nat) : Nat := l.foldl (fun a i => a * d.counts.getD i 1) 1

/-- Bytes of a tile. -/
def SDesc.tileBytes (d : SDesc) : Nat := d.run * d.extent d.inner
/-- Lines of a tile. -/
def SDesc.tileLines (d : SDesc) : Nat := d.tileBytes / 64
/-- The tile count T. -/
def SDesc.tiles (d : SDesc) : Nat := d.extent d.outer
/-- Tiles that translations are prefetched ahead. -/
def SDesc.prefetch (d : SDesc) : Nat := if d.pref = 0 then 8 else d.pref

/-- The indices of a number in the dimensions of a list, the first fastest. -/
def SDesc.digits (d : SDesc) : List Nat → Nat → List (Nat × Nat)
  | [], _ => []
  | i :: r, n =>
    let c := d.counts.getD i 1
    (i, n % c) :: SDesc.digits d r (n / c)

/-- The sum of index times stride. -/
def strideSum (str : List Int) (ix : List (Nat × Nat)) : Int :=
  ix.foldl (fun a e => a + (e.2 : Int) * str.getD e.1 0) 0

/-- Indices of the run that holds a line of a tile. -/
def SDesc.innerIx (d : SDesc) (line : Nat) : List (Nat × Nat) := d.digits d.inner (line / (d.run / 64))

/-- Byte offset of a line in its run. -/
def SDesc.runOffset (d : SDesc) (line : Nat) : Nat := line % (d.run / 64) * 64

/-- The base address less the member index of a PEER endpoint. -/
def endBase (kind a : Nat) : Nat := if kind = 3 then a % 2 ^ 40 else a

/-- Source address of a line of a tile. -/
def SDesc.srcAddr (d : SDesc) (tile line : Nat) : Int :=
  (endBase d.srcKind d.src : Int) + (d.runOffset line : Int) + strideSum d.sstr (d.innerIx line) +
    strideSum d.sstr (d.digits d.outer tile)

/-- Destination address of a line of a tile: with a ring, its slot. -/
def SDesc.dstAddr (d : SDesc) (tile line : Nat) : Int :=
  (endBase d.dstKind d.dst : Int) + (d.runOffset line : Int) + strideSum d.dstr (d.innerIx line) +
    (if d.cwin = 0 then strideSum d.dstr (d.digits d.outer tile) else ((tile % d.cwin * d.dtStride * 64 : Nat) : Int))

/-- The lowest address and the address after the highest that extents and strides reach from a base. -/
def boundsOf (base : Int) (run : Nat) (terms : List (Nat × Int)) : Int × Int :=
  terms.foldl (fun b e =>
    let d := ((e.1 - 1 : Nat) : Int) * e.2
    if d < 0 then (b.1 + d, b.2) else (b.1, b.2 + d)) (base, base + (run : Int))

/-- Bounds of the source bytes. -/
def SDesc.srcBounds (d : SDesc) : Int × Int :=
  boundsOf (endBase d.srcKind d.src) d.run ((d.inner ++ d.outer).map fun i => (d.counts.getD i 1, d.sstr.getD i 0))

/-- Bounds of the destination bytes. -/
def SDesc.dstBounds (d : SDesc) : Int × Int :=
  boundsOf (endBase d.dstKind d.dst) d.run
    (if d.cwin = 0 then (d.inner ++ d.outer).map fun i => (d.counts.getD i 1, d.dstr.getD i 0)
     else (d.inner.map fun i => (d.counts.getD i 1, d.dstr.getD i 0)) ++
       [(min d.tiles d.cwin, ((d.dtStride * 64 : Nat) : Int))])

/-! ### Checks (R155) -/

/-- Bits of the address field of an endpoint kind (Table 06-1). -/
def endBits (kind : Nat) : Nat :=
  match kind with
  | 0 | 1 => 23
  | 2 => 40
  | 3 => 56
  | _ => 57

/-- Checks 1 to 9, which need the descriptor alone. -/
def SDesc.fieldsOk (d : SDesc) : Bool :=
  let used := d.inner ++ d.outer
  let rest := (List.range 4).filter fun i => !used.contains i
  decide (d.version = 1 ∧ d.srcKind ≤ 4 ∧ d.dstKind ≤ 4) && !(d.srcKind == 4 && d.dstKind == 4) && !d.rsv &&
  decide (d.src < 2 ^ endBits d.srcKind ∧ d.dst < 2 ^ endBits d.dstKind) &&
  decide (1 ≤ d.ndim ∧ d.ndim ≤ 5 ∧ 1 ≤ d.tdim ∧ d.tdim ≤ d.ndim) &&
  used.all (fun i => decide (d.counts.getD i 0 ≠ 0)) &&
  rest.all (fun i => decide (d.counts.getD i 0 = 0 ∧ d.sstr.getD i 0 = 0 ∧ d.dstr.getD i 0 = 0)) &&
  (d.cwin == 0 || (d.outer.all (fun i => decide (d.dstr.getD i 0 = 0)) && d.dtStride != 0)) &&
  decide (d.run % 64 = 0 ∧ d.run ≠ 0 ∧ d.src % 64 = 0 ∧ d.dst % 64 = 0) &&
  (d.sstr ++ d.dstr).all (fun i => decide (i % 64 = 0)) &&
  decide (d.tileBytes ≤ (if d.mop = 0 then 67108864 else 262144)) &&
  decide (d.tiles ≤ 2 ^ 32 - 1) && (!d.tfv || decide (d.tfBase + d.tiles ≤ 2 ^ 64 - 2)) &&
  (d.cwin == 0 || decide (d.cfBase + d.tiles ≤ 2 ^ 64 - 2)) &&
  (d.mop == 0 || ((mopDecode d.mop).isSome && (mopDecode d.mop).map (·.1) != some .cas && (d.dstKind == 2 || d.dstKind == 3))) &&
  decide (d.pref ≤ 64)

/-- Whether every run of one end lies in a partition address space of which `ok` says whether it holds a range: its bounds in one
segment, or each run of them. -/
def SDesc.runsIn (d : SDesc) (ok : Nat → Nat → Bool) (addr : Nat → Nat → Int) (b : Int × Int) : Bool :=
  decide (0 ≤ b.1) &&
  (ok b.1.toNat (b.2 - b.1).toNat ||
   (List.range d.tiles).all fun t => (List.range (d.extent d.inner)).all fun r =>
     ok (addr t (r * (d.run / 64))).toNat d.run)

/-- Where an end's partition memory lies: a partition of this module, another module, or nowhere. -/
inductive EndPlace where
  | here (part : Nat)
  | there (mod : Nat)
  | nowhere
deriving DecidableEq, Repr

/-- The place of a member of a context's forme. -/
def State.memberPlace (s : State) (n member : Nat) : EndPlace :=
  match s.forme (s.ctx n).forme with
  | none => .nowhere
  | some f =>
    match Tbl.find f.members member with
    | none => .nowhere
    | some r => if r.fab = s.fabAddr then .here r.part else .there r.fab

/-- Whether a range lies in the address space of a member on another module. That module alone holds the member's layout (R254, R283), so
what the engine finds is a free value (assumption 124). -/
def State.peerSpace (s : State) (n member lo len : Nat) : Bool :=
  decide (lo + len ≤ 2 ^ 40) && Config.peerHolds (s.ctx n).forme member (s.epochOf (s.ctx n).part).toNat lo len

/-- Check 10 for one end of a stream of context `n` on the engines of cluster `cl`. -/
def State.endOk (s : State) (cl n : Nat) (d : SDesc) (kind base : Nat) (addr : Nat → Nat → Int) (b : Int × Int) : Bool :=
  match kind with
  | 0 => decide (0 ≤ b.1 ∧ b.2 ≤ 0x600000)
  | 1 => decide (0 ≤ b.1) && (s.cluster cl).scratchOk b.1.toNat (b.2 - b.1).toNat
  | 2 => d.runsIn (s.part (s.ctx n).part).lay.rangeOk addr b
  | 3 =>
    match s.memberPlace n (base / 2 ^ 40) with
    | .here p => d.runsIn (s.part p).lay.rangeOk addr b
    | .there _ => d.runsIn (s.peerSpace n (base / 2 ^ 40)) addr b
    | .nowhere => false
  | _ => decide (0 ≤ b.1 ∧ b.2 ≤ 2 ^ 57)

/-- Check 11: the ends named there do not overlap by their bounds. The rule names no check of two CSM ends, and none is made
(assumption 125). -/
def SDesc.disjoint (d : SDesc) : Bool :=
  let same := (d.srcKind == 0 && d.dstKind == 0 && d.srcCore == d.dstCore) || (d.srcKind == 2 && d.dstKind == 2) ||
    (d.srcKind == 3 && d.dstKind == 3 && d.src / 2 ^ 40 == d.dst / 2 ^ 40)
  let a := d.srcBounds
  let b := d.dstBounds
  !same || decide (a.2 ≤ b.1 ∨ b.2 ≤ a.1)

/-- Every check of R155. -/
def State.descOk (s : State) (cl n : Nat) (d : SDesc) : Bool :=
  d.fieldsOk && s.endOk cl n d d.srcKind d.src d.srcAddr d.srcBounds &&
    s.endOk cl n d d.dstKind d.dst d.dstAddr d.dstBounds && d.disjoint

end Sys2Proof.Machine
end

