-- ==== Sys2Proof/Machine/Translate.lean ====
section
/-! DEFINITION. Streams in their engines, the device translation caches, suspension and page requests (R149, R158 to R173). -/

namespace Sys2Proof.Machine

/-! ### Streams of an engine -/

/-- Every stream of an engine, with its slot where it is active. -/
def StreamEngine.streams (g : StreamEngine) : List (Option Nat × Stream) :=
  (g.active.map fun p => (some p.1, p.2)) ++ (g.suspended.map fun t => (none, t)) ++ (g.ending.map fun t => (none, t))

/-- A stream by its number. -/
def StreamEngine.stream (g : StreamEngine) (sid : Nat) : Option (Option Nat × Stream) := g.streams.find? fun p => p.2.sid == sid

/-- The stream that has a request, with its slot and whether it is ending. -/
def StreamEngine.ofReq (g : StreamEngine) (id : Nat) : Option (Option Nat × Stream) :=
  g.streams.find? fun p => p.2.reqs.any fun r => r.id == id

/-- Requests of an engine that are outstanding (R149). -/
def StreamEngine.outstanding (g : StreamEngine) : Nat :=
  (g.streams.map fun p => (p.2.reqs.filter fun r => r.phase != .data).length).sum

/-- The lowest free active slot. -/
def StreamEngine.freeSlot (g : StreamEngine) : Option Nat :=
  (List.range activeSlots).find? fun i => (Tbl.find g.active i).isNone

/-- Remove a stream: what it has issued completes. -/
def State.removeStream (s : State) (e sid : Nat) : State :=
  match (s.engine e).stream sid with
  | some (some slot, t) => s.endStream e slot t
  | some (none, t) =>
    (s.modEngine e fun g =>
      { g with suspended := g.suspended.filter fun u => u.sid ≠ sid,
               ending := if t.reqs.isEmpty || g.ending.any (fun u => u.sid == sid) then g.ending else g.ending ++ [t] }).parkAll e
  | none => s

/-- A stream is stopped with a cause of Table 06-4: what it leaves to settle is the loss of its context. -/
def State.haltStream (s : State) (e sid cause : Nat) : State × List Ev :=
  match (s.engine e).stream sid with
  | none => (s, [])
  | some (_, t) => ((s.streamStop e { t with cause := cause } cause 2).removeStream e sid, [.lose t.ctx])

/-- A stream is stopped with a cause that loses its context (R156, R172, R553). -/
def State.stopStream (s : State) (e sid cause : Nat) : State :=
  let r := s.haltStream e sid cause
  r.1.settle r.2

/-- What the cursor record of a stream says of the request at which it is stopped: its tile, access and virtual address (Table 06-3). -/
def State.noteStop (s : State) (e sid tile va : Nat) (write : Bool) : State :=
  s.modStream e sid fun t => { t with cursor := tile, va := va, write := write, suspTime := s.ltime }

/-- Whether an engine has room for one more suspended stream. -/
def StreamEngine.room (g : StreamEngine) : Bool := decide (g.suspended.length < suspendedSlots) || g.freeSlot.isSome

/-- A suspended stream comes to an engine: into a suspended slot, or into a free active slot where none is free (R165). -/
def StreamEngine.adopt (g : StreamEngine) (t : Stream) : StreamEngine :=
  if g.suspended.length < suspendedSlots then { g with suspended := g.suspended ++ [t] }
  else match g.freeSlot with
    | some i => { g with active := Tbl.set g.active i t }
    | none => g

/-- A stream that has not ended: one that is active or suspended. -/
def StreamEngine.unended (g : StreamEngine) (sid : Nat) : Option Stream :=
  ((g.active.map fun p => p.2) ++ g.suspended).find? fun t => t.sid == sid

/-! ### Delivery (R158, R159, R161) -/

/-- Tiles delivered from tile `n` on, among those whose landed lines are listed. -/
def deliveredFrom (landed : Tbl Nat) (lines : Nat) : Nat → Nat → Nat
  | 0, n => n
  | fuel + 1, n => if Tbl.get 0 landed n = lines then deliveredFrom landed lines fuel (n + 1) else n

/-- Signal TFENCE for the tiles delivered; a refusal aborts the stream. -/
def State.signalTile (s : State) (e slot : Nat) (t : Stream) (d : SDesc) (n : Nat) : State :=
  let num := d.tfence % 2 ^ 32
  let mod := d.tfence / 2 ^ 32
  if mod = s.fabAddr then
    let r := s.fenceSignal num (d.tfBase + n) (.ctx t.ctx) true
    let s := r.2.1.settle r.2.2
    if r.1 = Sync.fenceError ∨ r.1 = Sync.saturated ∨ r.1 = Sync.noSuch then s.abortStream e slot 0x15 else s
  else
    let hub := e / 4
    let tag := (s.cluster hub).hub.nextTag
    let s := s.modHub hub fun k => { k with
      nextTag := (tag + 1) % 2 ^ 16,
      remote := k.remote ++ [⟨tag, none, some (e, t.sid), false, mod, num, 0, false, true, none, s.ltime⟩] }
    s.send (.ctrl 0x01 ⟨0, true, BitVec.ofNat 16 s.fabAddr, BitVec.ofNat 16 mod, BitVec.ofNat 6 hub, BitVec.ofNat 32 num,
      BitVec.ofNat 16 tag, BitVec.ofNat 16 t.ctx, BitVec.ofNat 64 (d.tfBase + n), 0⟩)

/-- TILE_DELIVERED (R158, R159): the highest tile delivered is signalled once, and the stream ends after the last. -/
def State.deliver (s : State) (e slot : Nat) : State :=
  match Tbl.find (s.engine e).active slot with
  | none => s
  | some t =>
    let d := SDesc.of t.desc
    let n := deliveredFrom t.landed d.tileLines t.landed.length t.signalled
    if n = t.signalled then s
    else
      let s := s.modStream e t.sid fun t => { t with signalled := n, landed := t.landed.filter fun p => decide (n ≤ p.1) }
      let s := if d.tfv then s.signalTile e slot { t with signalled := n } d n else s
      match Tbl.find (s.engine e).active slot with
      | some u => if u.sid = t.sid ∧ n = d.tiles then s.endStream e slot u else s
      | none => s

/-- A stream's requests have changed: it is parked, or forgotten once it has ended and its last request has completed. -/
def State.streamSettled (s : State) (e slot : Nat) : State :=
  let s := s.modEngine e fun g => { g with ending := g.ending.filter fun t => s.lingers e t }
  s.parkStream e slot

/-! ### The translation caches (R162, R163) -/

/-- The translation cache of a die. -/
def State.tcache (s : State) (d : Nat) : TransCache := Tbl.get TransCache.reset s.caches d
/-- Change the translation cache of a die. -/
def State.modTcache (s : State) (d : Nat) (f : TransCache → TransCache) : State :=
  { s with caches := Tbl.set s.caches d (f (s.tcache d)) }

/-- Bits below the page number of a size. -/
def PageSize.shift : PageSize → Nat
  | .kib4 => 12
  | .mib2 => 21
  | .gib1 => 30

/-- The page size of a PSIZE code; 3 is reserved. -/
def PageSize.ofCode : Nat → Option PageSize
  | 0 => some .kib4
  | 1 => some .mib2
  | 2 => some .gib1
  | _ => none

/-- The set of a page (R162). -/
def tcSet (asn page : Nat) : Nat := (page % 4096) ^^^ (asn % 4096)

/-- Whether an entry translates an address. -/
def TcEntry.hits (t : TcEntry) (conn asn va : Nat) : Bool :=
  t.conn == conn && t.asn == asn && t.page == va / 2 ^ t.size.shift

/-- Find an entry for an address, at the three sizes. A lookup hits on any entry that matches; where several do, the model takes that of the
smallest size (assumption 126). -/
def TransCache.find (k : TransCache) (conn asn va : Nat) : Option TcEntry :=
  [PageSize.kib4, .mib2, .gib1].findSome? fun z =>
    (Tbl.get [] k.sets (tcSet asn (va / 2 ^ z.shift))).find? fun t => t.size == z && t.hits conn asn va

/-- Mark an entry most recently used. -/
def TransCache.use (k : TransCache) (t : TcEntry) : TransCache :=
  { k with sets := Tbl.mod [] k.sets (tcSet t.asn t.page) fun l => (l.filter fun u => u ≠ t) ++ [t] }

/-- Fill an entry: it replaces the entry of its page, or the least recently used of a full set of eight. -/
def TransCache.fill (k : TransCache) (t : TcEntry) : TransCache :=
  { k with sets := Tbl.mod [] k.sets (tcSet t.asn t.page) fun l =>
      let l := l.filter fun u => !(u.conn == t.conn && u.asn == t.asn && u.size == t.size && u.page == t.page)
      (if 8 ≤ l.length then l.drop 1 else l) ++ [t] }

/-- The entries that translate an address leave the cache, at every size. -/
def TransCache.without (k : TransCache) (conn asn va : Nat) : TransCache :=
  { k with sets := k.sets.map fun (e : Nat × List TcEntry) => (e.1, e.2.filter fun t => !t.hits conn asn va) }

/-- The translation of the page at an address comes: it replaces the entries that served the address (R163). -/
def TransCache.answer (k : TransCache) (va : Nat) (t : TcEntry) : TransCache := (k.without t.conn t.asn va).fill t

/-- The address space of a context: its connection and ASN (R152). -/
def State.space (s : State) (n : Nat) : Nat × Nat := ((s.ctx n).conn, (s.ctx n).asn)

/-- Places for TRANSLATE requests of a die (R163). -/
def translatePlaces : Nat := 256

/-- Send TRANSLATE requests that wait while places are free. -/
def State.sendTranslates (s : State) (d : Nat) (before : List TransReq) : List TransReq → State
  | [] => s.modTcache d fun k => { k with out := before }
  | r :: rs =>
    if !r.sent && decide ((before.filter fun q => q.sent).length + (rs.filter fun q => q.sent).length < translatePlaces) then
      let s := s.emit (.trans r.conn 0x01 { TransMsg.zero with
        asn := BitVec.ofNat 20 r.asn, access := r.write, va := BitVec.ofNat 57 (r.page * 4096), reqId := BitVec.ofNat 32 r.reqId })
      State.sendTranslates s d (before ++ [{ r with sent := true, sentAt := s.ltime }]) rs
    else State.sendTranslates s d (before ++ [r]) rs

/-- A lookup has missed (R163, R164): one TRANSLATE for the page. `specs` is the access of a prefetch with SPEC set. -/
def State.translate (s : State) (d conn asn va : Nat) (write : Bool) (specs : List Bool) : State :=
  let page := va / 4096
  let out := (s.tcache d).out
  let same (r : TransReq) : Bool := r.conn == conn && r.asn == asn && r.page == page
  if out.any same then
    s.modTcache d fun k => { k with out := out.map fun r => if same r then { r with specs := r.specs ++ specs.filter fun w => !r.specs.contains w } else r }
  else
    let n := s.number
    n.2.sendTranslates d [] (out ++ [⟨n.1, conn, asn, page, write, 0, false, specs⟩])

/-- Whether an entry permits an access. -/
def TcEntry.permits (t : TcEntry) (write : Bool) : Bool := if write then t.write else t.read

/-- A lookup has hit an entry: it is the most recently used of its set. -/
def State.cacheHit (s : State) (d : Nat) (t : TcEntry) : State :=
  s.modTcache d fun k => { (k.use t) with hits := min (k.hits + 1) (2 ^ 32 - 1) }

/-- A lookup has missed. -/
def State.cacheMiss (s : State) (d : Nat) : State :=
  s.modTcache d fun k => { k with misses := min (k.misses + 1) (2 ^ 32 - 1) }

/-- TRANSLATION_LOOKUP on demand (R162, R163): the entry that serves an access, or a TRANSLATE sent, also where an entry lacks
the permission. -/
def State.lookupPage (s : State) (d conn asn va : Nat) (write : Bool) : Option TcEntry × State :=
  match (s.tcache d).find conn asn va with
  | some t => if t.permits write then (some t, s.cacheHit d t) else (none, (s.cacheMiss d).translate d conn asn va write [])
  | none => (none, (s.cacheMiss d).translate d conn asn va write [])

/-! ### Page requests (R168 to R173) -/

/-- Entries of the page request table. -/
def pageEntries : Nat := 1024

/-- Send the page request of an entry. -/
def State.sendPageReq (s : State) (r : PageReq) : State :=
  s.emit (.trans r.conn 0x03 { TransMsg.zero with
    asn := BitVec.ofNat 20 r.asn, spec := r.spec, access := r.write, va := BitVec.ofNat 57 (r.page * 4096),
    reqId := BitVec.ofNat 32 r.reqId })

/-- A new entry takes the lowest free number, and its request is sent. -/
def State.newPageReq (s : State) (conn asn page : Nat) (write : Bool) (specs : List (Nat × Bool)) (ws : List (Nat × Nat)) : Option (Nat × State) :=
  match (List.range pageEntries).find? fun i => (Tbl.find s.agent.table i).isNone with
  | none => none
  | some i =>
    let n := s.number
    let r : PageReq := ⟨specs, conn, asn, page, write, ws.isEmpty, ws, s.ltime, n.1⟩
    let s := n.2
    some (i, ({ s with agent := { s.agent with table := Tbl.set s.agent.table i r } }).sendPageReq r)

/-- The entry of a page. -/
def TransAgent.entryOf (g : TransAgent) (conn asn page : Nat) : Option (Nat × PageReq) :=
  g.table.find? fun e => e.2.conn == conn && e.2.asn == asn && e.2.page == page

/-- A fault finds the table full: it waits for a free entry, and the wait is counted (R168). -/
def State.waitForEntry (s : State) (w : PageWait) : State :=
  { s with agent := { s.agent with queue := s.agent.queue ++ [w], waits := min (s.agent.waits + 1) (2 ^ 32 - 1) } }

/-- Change an entry of the page request table. -/
def State.setPageReq (s : State) (i : Nat) (r : PageReq) : State :=
  { s with agent := { s.agent with table := Tbl.set s.agent.table i r } }

/-- A stream leaves the page requests that it waits on: it faults at an earlier tile. -/
def TransAgent.leave (g : TransAgent) (e sid : Nat) : TransAgent :=
  { g with
    table := g.table.map fun (p : Nat × PageReq) => (p.1, { p.2 with waiters := p.2.waiters.filter fun w => w ≠ (e, sid) })
    queue := g.queue.filter fun w => w != .demand e sid }

/-- A demand fault of a stream joins the entry of its page, takes a new one, or waits for a free one (R168, R169). -/
def State.pageFault (s : State) (e sid : Nat) : State :=
  match (s.engine e).unended sid with
  | none => s
  | some t =>
    let sp := s.space t.ctx
    let page := t.va / 4096
    match s.agent.entryOf sp.1 sp.2 page with
    | some (i, r) =>
      (s.setPageReq i { r with spec := false, waiters := r.waiters ++ [(e, sid)] }).modStream e sid fun t => { t with prq := some i }
    | none =>
      match s.newPageReq sp.1 sp.2 page t.write [] [(e, sid)] with
      | some (i, s) => s.modStream e sid fun t => { t with prq := some i }
      | none => s.waitForEntry (.demand e sid)

/-- A demand lookup of an active stream has met a fault (R165). -/
def State.demandFault (s : State) (e slot : Nat) (t : Stream) (cause tile va : Nat) (write : Bool) : State :=
  if t.stopsBy tile then s.modStream e t.sid fun t => { t with lookup := none }
  else (({ s with agent := s.agent.leave e t.sid }).suspendStream e slot cause tile va write).pageFault e t.sid

/-- A prefetch lookup of a stream with SPEC set has found a fault (R164): a speculative page request, unless its page has an
entry, which it joins (R169). -/
def State.specFault (s : State) (d conn asn page : Nat) (write : Bool) : State :=
  match s.agent.entryOf conn asn page with
  | some (i, r) => s.setPageReq i { r with specs := r.specs ++ [(d, write)].filter fun x => !r.specs.contains x }
  | none =>
    match s.newPageReq conn asn page write [(d, write)] [] with
    | some (_, s) => s
    | none => s.waitForEntry (.spec d conn asn page write)

/-- A prefetch lookup (R164): it fills the cache as a demand lookup does, and suspends nothing. -/
def State.prefetchPage (s : State) (d conn asn va : Nat) (write spec : Bool) : State :=
  match (s.tcache d).find conn asn va with
  | some t =>
    let s := s.cacheHit d t
    if spec && !t.permits write then s.specFault d conn asn (va / 4096) write else s
  | none => (s.cacheMiss d).translate d conn asn va write (if spec then [write] else [])

/-- Faults that wait for an entry take those that have become free, in order. -/
def State.servePageQueue (s : State) : List PageWait → State
  | [] => s
  | w :: r =>
    if s.agent.table.length < pageEntries then
      State.servePageQueue (match w with
        | .demand e sid => s.pageFault e sid
        | .spec d conn asn page write => s.specFault d conn asn page write) r
    else { s with agent := { s.agent with queue := w :: r } }

/-- An entry is answered or discarded. -/
def State.freePageReq (s : State) (i : Nat) : State :=
  let q := s.agent.queue
  ({ s with agent := { s.agent with table := Tbl.del s.agent.table i, queue := [] } }).servePageQueue q

/-- A demand entry cannot be resolved (R172): every stream that waits on it is stopped, and then their contexts are lost. -/
def State.unresolvable (s : State) (cause : Nat) (ws : List (Nat × Nat)) : State :=
  let r := ws.foldl (fun (a : State × List Ev) w =>
    match (a.1.engine w.1).unended w.2 with
    | none => a
    | some _ =>
      let h := a.1.haltStream w.1 w.2 cause
      (h.1, a.2 ++ h.2)) (s, [])
  r.1.settle r.2

/-- An entry is unresolvable, or discarded and counted where it is speculative (R172, R173). -/
def State.failPageReq (s : State) (i : Nat) (r : PageReq) (cause : Nat) : State :=
  let s := s.freePageReq i
  if r.spec then
    { s with agent := { s.agent with specDiscarded := min (s.agent.specDiscarded + 1) (2 ^ 32 - 1) } }
  else s.unresolvable cause r.waiters

/-- The stream whose page has come may be resumed (R166), after those of its engine whose pages came before (R170). -/
def State.readyStream (s : State) (e sid : Nat) : State :=
  (s.modStream e sid fun t => { t with ready := true, prq := none }).modEngine e fun g => { g with order := g.order.filter (· ≠ sid) ++ [sid] }

/-- Every waiter of an answered entry looks up its page again (R170): those that the answer does not serve are listed. -/
def State.wakeEach (s : State) (r : PageReq) : List (Nat × Nat) → State × List (Nat × Nat)
  | [] => (s, [])
  | (e, sid) :: ws =>
    match (s.engine e).unended sid with
    | none => s.wakeEach r ws
    | some t =>
      match (s.tcache (dieOf (e / 4))).find r.conn r.asn t.va with
      | some k =>
        if k.permits t.write then (s.readyStream e sid).wakeEach r ws
        else if t.write && !r.write then ((s.modStream e sid fun t => { t with cause := 0x02 }).pageFault e sid).wakeEach r ws
        else
          let q := s.wakeEach r ws
          (q.1, (e, sid) :: q.2)
      | none => (s.pageFault e sid).wakeEach r ws

/-- The waiters of an answered entry: a response without the permission that one needs is UNRESOLVED for it (R170, R172). -/
def State.wakeWaiters (s : State) (r : PageReq) (ws : List (Nat × Nat)) : State :=
  let q := s.wakeEach r ws
  q.1.unresolvable 0x12 q.2

/-- The prefetches that met an answered entry look up their page again: one that wanted to write where a read was asked for, and still may
not, sends a request of its own (R169). -/
def State.wakeSpecs (s : State) (r : PageReq) : State :=
  r.specs.foldl (fun s x =>
    if x.2 && !r.write then
      match (s.tcache x.1).find r.conn r.asn (r.page * 4096) with
      | some k => if k.permits true then s else s.specFault x.1 r.conn r.asn r.page true
      | none => s.specFault x.1 r.conn r.asn r.page true
    else s) s

/-- Whether an OK answer covers a page that was asked for (R496), and the entry that it gives. -/
def coveringEntry (m : TransMsg) (conn asn page : Nat) : Option TcEntry :=
  match PageSize.ofCode m.psize.toNat with
  | none => none
  | some z =>
    let va := m.va.toNat
    if m.asn.toNat = asn ∧ va % 2 ^ z.shift = 0 ∧ page * 4096 / 2 ^ z.shift = va / 2 ^ z.shift then
      some ⟨conn, asn, z, va / 2 ^ z.shift, m.target.toNat, m.mkey.toNat, m.rd, m.wr⟩
    else none

/-- Whether the fields that an answer does not use are zero and its STATUS is allowed (R555). -/
def transAnswerOk (m : TransMsg) (bad : Nat) : Bool :=
  !m.rsv && !m.spec && !m.access && !m.all && m.vaEnd == 0 &&
  (m.status == 0 || (decide (m.status.toNat = bad) && m.psize == 0 && !m.rd && !m.wr && m.va == 0 && m.target == 0 && m.mkey == 0))

/-- PAGE_ANS (R170, R172, R173, R496). -/
def State.pageAns (s : State) (conn : Nat) (m : TransMsg) : State :=
  match s.agent.table.find? fun e => e.2.conn == conn && e.2.reqId == m.reqId.toNat with
  | none => s.countDiscard conn
  | some (i, r) =>
    if !transAnswerOk m 2 then s.countDiscard conn
    else
      let k := if m.status = 0 then coveringEntry m conn r.asn r.page else none
      match k with
      | none => s.failPageReq i r 0x12
      | some k =>
        let dies := distinct ((r.waiters.map fun w => dieOf (w.1 / 4)) ++ r.specs.map fun x => x.1)
        let s := dies.foldl (fun s d => s.modTcache d fun c => c.answer (r.page * 4096) k) s
        ((s.freePageReq i).wakeWaiters r r.waiters).wakeSpecs r

/-- PAGE_REQUEST_TIMEOUT (R171, R172) of an entry: local time reaches the bound of its connection. -/
def State.pageTimeout (s : State) (i : Nat) : State :=
  match Tbl.find s.agent.table i with
  | none => s
  | some r => (s.advanceTo (r.sentAt + (s.conn r.conn).prTimeout * 1000000)).failPageReq i r 0x13

/-- Streams of a die that wait for the translation of a page, by engine, slot and stream. -/
def State.lookers (s : State) (d conn asn page : Nat) : List (Nat × Nat × Stream) :=
  (s.engines.map fun e =>
    (e.2.active.filter fun p => dieOf (e.1 / 4) == d && (s.space p.2.ctx == (conn, asn)) &&
      (match p.2.lookup with
        | some l => l.1 / 4096 == page
        | none => false)).map fun p => (e.1, p.1, p.2)).flatten

/-- A TRANSLATE is answered without a translation that serves (`entry` is what it gave): demand lookups fault, and each prefetch
with SPEC sends or joins a speculative page request. Table 06-4 gives PERMISSION the page request for write, so it is the cause of a write that an
entry without write permission meets; a read that meets an entry without read permission has NOT_PRESENT (assumption 127). -/
def State.translateFault (s : State) (d : Nat) (r : TransReq) (entry : Option TcEntry) : State :=
  let served (write : Bool) : Bool := (entry.map fun k => k.permits write).getD false
  let s := (s.lookers d r.conn r.asn r.page).foldl (fun s l =>
    match l.2.2.lookup with
    | some u =>
      if served u.2.1 then s
      else s.demandFault l.1 l.2.1 l.2.2 (if u.2.1 && entry.isSome then 0x02 else 0x01) u.2.2 u.1 u.2.1
    | none => s) s
  (r.specs.filter fun w => !served w).foldl (fun s w => s.specFault d r.conn r.asn r.page w) s

/-- A TRANSLATE of a die is answered: with an entry, or as NOT_PRESENT. -/
def State.translateDone (s : State) (d : Nat) (r : TransReq) (entry : Option TcEntry) : State :=
  let rest := (s.tcache d).out.filter fun q => q.reqId ≠ r.reqId
  let s := s.sendTranslates d [] rest
  let s := match entry with
    | some k => s.modTcache d fun c => c.answer (r.page * 4096) k
    | none => s
  let s := s.translateFault d r entry
  (s.lookers d r.conn r.asn r.page).foldl (fun s l => s.modStream l.1 l.2.2.sid fun t => { t with lookup := none }) s

/-- The outstanding TRANSLATE that an answer names. -/
def State.translateOf (s : State) (conn reqId : Nat) : Option (Nat × TransReq) :=
  (List.range 4).findSome? fun d =>
    ((s.tcache d).out.find? fun r => r.sent && r.conn == conn && r.reqId == reqId).map fun r => (d, r)

/-- TRANSLATE_ANS (R163, R496). -/
def State.translateAns (s : State) (conn : Nat) (m : TransMsg) : State :=
  match s.translateOf conn m.reqId.toNat with
  | none => s.countDiscard conn
  | some (d, r) =>
    if !transAnswerOk m 1 then s.countDiscard conn
    else s.translateDone d r (if m.status = 0 then coveringEntry m conn r.asn r.page else none)

/-- TRANSLATE_TIMEOUT (R496): a TRANSLATE unanswered for 10 ms counts as NOT_PRESENT. -/
def State.translateTimeout (s : State) (conn reqId : Nat) : State :=
  match s.translateOf conn reqId with
  | none => s
  | some (d, r) => (s.advanceTo (r.sentAt + 10000000)).translateDone d r none

end Sys2Proof.Machine
end

