-- ==== Sys2Proof/Machine/Streams.lean ====
section
/-! DEFINITION. The meanings of the rows of the stream engines: starting a stream, issuing and completing its requests, credit,
resumption, and invalidations (R148 to R180, R553). -/

namespace Sys2Proof.Machine

/-! ### Starting (R149, R155) -/

/-- A stream that has just been started. -/
def Stream.start (q : QueuedDesc) (slot sid : Nat) : Stream where
  desc := q.desc
  ctx := q.ctx
  cls := q.cls
  core := q.core
  run := q.run
  slot := slot
  sid := sid
  tile := 0
  line := 0
  reqs := []
  landed := []
  signalled := 0
  credit := (SDesc.of q.desc).cwin
  cwait := .none
  lookup := none
  stopping := false
  ready := false
  cause := 0
  write := false
  cursor := 0
  va := 0
  prq := none
  suspCount := 0
  suspTime := 0
  notRepro := false

/-- Whether a suspended stream of an engine may be resumed now (R149, R166). -/
def Stream.resumable (t : Stream) : Bool := t.stopping && t.ready && t.reqs.isEmpty

/-- STREAM_START (R149, R155): the oldest descriptor of the input queue, where a slot is free and no stream waits to resume.
One that fails a check is not started and loses its context. One of a context stopped for a suspect region waits (R381), as all do on an engine
that is stopped. -/
def State.streamStart (s : State) (e : Nat) : State :=
  let g := s.engine e
  match g.queue, g.freeSlot with
  | q :: rest, some slot =>
    if g.stopped || g.suspended.any Stream.resumable || s.suspectCtx q.ctx then s
    else
      let s := s.modEngine e fun g => { g with queue := rest }
      let n := s.number
      let t := Stream.start q slot n.1
      if s.descOk (e / 4) q.ctx (SDesc.of q.desc) then
        n.2.modEngine e fun g => { g with active := Tbl.set g.active slot t }
      else (s.streamStop e { t with suspTime := s.ltime } 0x10 2).settle [.lose q.ctx]
  | _, _ => s

/-! ### Ends of a line (R151, R420) -/

/-- Where one line of a stream is read or written. -/
inductive LineEnd where
  | localMem (core a : Nat)
  | scratch (a : Nat)
  | part (p a : Nat) (who : Principal) (own : Bool)
  | peer (mod member a : Nat)
  | host (va : Nat)
  | gone
deriving DecidableEq, Repr

/-- What a PEER request to a member of this module acts as (R420). -/
def State.peerPrincipal (s : State) (n member : Nat) : Principal :=
  let c := s.ctx n
  match s.linkKey n 8, s.ctxs.find? (fun e => decide (e.2.state = .live) && decide (e.2.forme = c.forme) &&
      decide (e.2.job = c.job) && decide (e.2.member = member)) with
  | some _, some e => .ctx e.1
  | _, _ => .forme c.forme

/-- One end of a line of a stream. -/
def State.lineEnd (s : State) (e : Nat) (t : Stream) (kind core base : Nat) (a : Int) : LineEnd :=
  let a := a.toNat
  match kind with
  | 0 => .localMem (e / 4 * 4 + core) a
  | 1 => .scratch a
  | 2 => .part (s.ctx t.ctx).part a (.ctx t.ctx) true
  | 3 =>
    let m := base / 2 ^ 40
    match s.memberPlace t.ctx m with
    | .here p => .part p a (s.peerPrincipal t.ctx m) false
    | .there f => .peer f m a
    | .nowhere => .gone
  | _ => .host a

/-- The source of a line. -/
def State.srcEnd (s : State) (e : Nat) (t : Stream) (d : SDesc) (tile line : Nat) : LineEnd :=
  s.lineEnd e t d.srcKind d.srcCore d.src (d.srcAddr tile line)
/-- The destination of a line. -/
def State.dstEnd (s : State) (e : Nat) (t : Stream) (d : SDesc) (tile line : Nat) : LineEnd :=
  s.lineEnd e t d.dstKind d.dstCore d.dst (d.dstAddr tile line)

/-- The class that a stream stamps (R324). -/
def Stream.class (t : Stream) : BitVec 3 := stampOf t.cls

/-- The map epoch current for the forme of a context (R255). -/
def State.ctxEpoch (s : State) (n : Nat) : BitVec 4 := s.epochOf (s.ctx n).part

/-! ### Issuing (R156, R157, R160, R164, R175) -/

/-- Change a request of a stream. -/
def Stream.mapReq (t : Stream) (id : Nat) (f : StreamReq → StreamReq) : Stream :=
  { t with reqs := t.reqs.map fun r => if r.id = id then f r else r }

/-- Take a request away. -/
def Stream.dropReq (t : Stream) (id : Nat) : Stream := { t with reqs := t.reqs.filter fun r => r.id ≠ id }

/-- A peer request of a stream for a line: READ, WRITE or MEMOP (R462). -/
def State.sendPeer (s : State) (e : Nat) (t : Stream) (kind mod member a mop : Nat) (req : Nat) (lines : List (BitVec 512)) :
    State :=
  let clu := e / 4
  let tag := (s.cluster clu).hub.nextTag
  let s := s.modHub clu fun k => { k with nextTag := (tag + 1) % 2 ^ 16 }
  let f := (s.ctx t.ctx).forme
  let ep := s.ctxEpoch t.ctx
  let s := { s with peerOut := s.peerOut ++ [(⟨clu, tag, mod, f, member, ep.toNat, .stream e req, s.ltime⟩ : PeerOut)] }
  s.sendPacket t.ctx { s.packet kind mod with
    cls := t.class, epoch := ep, srcClu := BitVec.ofNat 6 clu, formeId := BitVec.ofNat 32 f, member := BitVec.ofNat 16 member,
    tag := BitVec.ofNat 16 tag, addr := BitVec.ofNat 40 a, mop := BitVec.ofNat 8 mop,
    len := BitVec.ofNat 3 (max 1 lines.length), lines := lines }

/-- Pages of HOSTV that a tile touches, with the access. -/
def SDesc.hostPages (d : SDesc) (tile : Nat) : List (Nat × Bool) :=
  let pages (f : Nat → Nat → Int) : List Nat := distinct ((List.range d.tileLines).map fun l => (f tile l).toNat / 4096)
  (if d.srcKind = 4 then (pages d.srcAddr).map fun p => (p, false) else []) ++
    (if d.dstKind = 4 then (pages d.dstAddr).map fun p => (p, true) else [])

/-- Look up ahead the pages of the next tiles (R164). -/
def State.prefetchPages (s : State) (e : Nat) (t : Stream) (d : SDesc) : State :=
  let sp := s.space t.ctx
  let tiles := (rangeFrom (t.tile + 1) d.prefetch).filter fun c => decide (c < d.tiles)
  let pages := (tiles.map d.hostPages).flatten
  pages.foldl (fun s p => s.prefetchPage (dieOf (e / 4)) sp.1 sp.2 (p.1 * 4096) p.2 d.spec) s

/-- Whether a partition address still lies in its space at issue (R156). -/
def State.inSpace (s : State) (p a : Nat) : Bool := ((s.part p).lay.place a).isSome

/-- The next read of a stream enters its list of requests. -/
def Stream.issued (t : Stream) (d : SDesc) (r : StreamReq) : Stream :=
  { t with reqs := t.reqs ++ [r],
           tile := if t.line + 1 = d.tileLines then t.tile + 1 else t.tile,
           line := if t.line + 1 = d.tileLines then 0 else t.line + 1 }

/-- Issue the next read of a stream. -/
def State.issueRead (s : State) (e : Nat) (t : Stream) (d : SDesc) : State :=
  let s := if t.line = 0 ∧ (d.srcKind = 4 ∨ d.dstKind = 4) then s.prefetchPages e t d else s
  let n := s.number
  let ep := s.ctxEpoch t.ctx
  let req : StreamReq := ⟨n.1, t.tile, t.line, .reading, 0, 0, 0, 0, 0, ep, n.1, false⟩
  let add (s : State) (r : StreamReq) : State := s.modStream e t.sid fun t => t.issued d r
  let stop (s : State) (cause va : Nat) : State := (s.noteStop e t.sid t.tile va false).stopStream e t.sid cause
  match s.srcEnd e t d t.tile t.line with
  | .localMem _ _ | .scratch _ => add n.2 req
  | .part p a _ _ => if s.inSpace p a then add (n.2.countDemote (e / 4) t.cls) req else stop s 0x11 0
  | .gone => stop s 0x11 0
  | .peer m mem a =>
    if !s.peerSpace t.ctx mem a 64 then stop s 0x11 0
    else
      let held := (s.peerCached (e / 4) (s.ctx t.ctx).forme mem t.ctx a).isSome
      let f := n.2.fresh
      -- a line whose region has been cleared at its member meanwhile is held no more: no message says so (assumption 146)
      if held && Config.freeBool f.1 then add f.2 { req with hit := true }
      else (add ((if held then f.2 else n.2).countDemote (e / 4) t.cls) req).sendPeer e t PT.read m mem a 0 n.1 []
  | .host va =>
    let die := dieOf (e / 4)
    let sp := s.space t.ctx
    match s.lookupPage die sp.1 sp.2 va false with
    | (none, s) => s.modStream e t.sid fun u => { u with lookup := some (va, false, t.tile) }
    | (some k, s) =>
      let n := s.number
      let target := k.target + va % 2 ^ k.size.shift
      let s := add n.2 { req with id := n.1, seq := n.1, gen := (s.tcache die).gen, va := va, rdma := target, rkey := k.rkey }
      match s.hostRead sp.1 target k.rkey 64 (.stream e n.1) with
      | some s => s
      | none => stop s 0x16 va

/-- Issue the write of a request whose data stands ready. -/
def State.issueWrite (s : State) (e : Nat) (t : Stream) (d : SDesc) (r : StreamReq) : State :=
  let begin (s : State) (f : StreamReq → StreamReq) : State :=
    let n := s.number
    n.2.modStream e t.sid fun t => t.mapReq r.id fun q => { f q with seq := n.1 }
  let stop (s : State) (cause va : Nat) : State := (s.noteStop e t.sid r.tile va true).stopStream e t.sid cause
  let s := match mopDecode d.mop with
    | some (o, ty) => if d.mop ≠ 0 ∧ o.reordersFloats ty then s.markRun t.ctx t.run (s.core t.core).vcore else s
    | none => s
  let ep := s.ctxEpoch t.ctx
  match s.dstEnd e t d r.tile r.line with
  | .localMem _ _ | .scratch _ => begin s fun q => { q with phase := .writing, epoch := ep }
  | .part p a _ _ => if s.inSpace p a then begin (s.countDemote (e / 4) t.cls) fun q => { q with phase := .writing, epoch := ep } else stop s 0x11 0
  | .gone => stop s 0x11 0
  | .peer m mem a =>
    if !s.peerSpace t.ctx mem a 64 then stop s 0x11 0
    else (begin (s.countDemote (e / 4) t.cls) fun q => { q with phase := .writing, epoch := ep }).sendPeer e t (if d.mop = 0 then PT.write else PT.memop) m mem a d.mop
      r.id [r.data]
  | .host va =>
    let die := dieOf (e / 4)
    let sp := s.space t.ctx
    match s.lookupPage die sp.1 sp.2 va true with
    | (none, s) => s.modStream e t.sid fun u => { u with lookup := some (va, true, r.tile) }
    | (some k, s) =>
      let target := k.target + va % 2 ^ k.size.shift
      let g := (s.tcache die).gen
      let s := begin s fun q => { q with phase := .writing, gen := g, va := va, rdma := target, rkey := k.rkey, epoch := ep }
      match s.hostWrite sp.1 target k.rkey (bytesOfLine r.data) (.stream e r.id) with
      | some s => s
      | none => stop s 0x16 va

/-- The first request whose write may be issued: its data stands ready, with MOP ≠ 0 every read of its tile has returned, and
with a ring its tile has credit. -/
def Stream.writable (t : Stream) (d : SDesc) : Option StreamReq :=
  let readDone (n : Nat) : Bool :=
    decide (n < t.tile) && !(t.reqs.any fun r => r.tile == n && r.phase == .reading)
  t.reqs.find? fun r =>
    r.phase == .data && (d.mop == 0 || readDone r.tile) &&
      (d.cwin == 0 || decide (r.tile < t.credit))

/-- Whether the stream needs the credit of its next ring tile and does not wait for it yet. -/
def Stream.needsCredit (t : Stream) (d : SDesc) : Bool :=
  d.cwin != 0 && t.cwait == .none && decide (t.credit < d.tiles) &&
    (if t.stopping then t.reqs.any fun r => decide (t.credit ≤ r.tile) else decide (t.credit ≤ t.tile))

/-- Register the wait for the credit of the next ring tile (R160). -/
def State.askCredit (s : State) (e slot : Nat) (t : Stream) (d : SDesc) : State :=
  let num := d.cfence % 2 ^ 32
  let mod := d.cfence / 2 ^ 32
  let target := d.cfBase + t.credit + 1 - d.cwin
  if mod = s.fabAddr then
    match s.fenceWait num target (.ctx t.ctx) (.stream e slot) with
    | (some st, s) =>
      if st = Sync.ok then s.modStream e t.sid fun t => { t with cwait := .granted } else s.abortStream e slot 0x14
    | (none, s) => s.modStream e t.sid fun t => { t with cwait := .waiting }
  else
    let hub := e / 4
    let tag := (s.cluster hub).hub.nextTag
    let s := s.modStream e t.sid fun t => { t with cwait := .waiting }
    let s := s.modHub hub fun k => { k with
      nextTag := (tag + 1) % 2 ^ 16,
      remote := k.remote ++ [⟨tag, none, some (e, slot), false, mod, num, target, false, false, none, s.ltime⟩] }
    s.send (.ctrl 0x04 ⟨0, false, BitVec.ofNat 16 s.fabAddr, BitVec.ofNat 16 mod, BitVec.ofNat 6 hub, BitVec.ofNat 32 num,
      BitVec.ofNat 16 tag, BitVec.ofNat 16 t.ctx, BitVec.ofNat 64 target, 0⟩)

/-- Whether the next read of an active stream may be issued (R157, R160, R165). -/
def Stream.readable (t : Stream) (d : SDesc) : Bool :=
  !t.stopping && decide (t.tile < d.tiles) && (d.cwin == 0 || decide (t.tile ≤ t.credit))

/-- Whether an active stream has a request to issue. -/
def Stream.canIssue (t : Stream) : Bool :=
  let d := SDesc.of t.desc
  t.lookup.isNone && ((t.writable d).isSome || (!t.needsCredit d && t.readable d))

/-- The active slot whose turn it is (R149): the first after the one served last whose stream has a request to issue. -/
def StreamEngine.nextSlot (g : StreamEngine) : Option Nat :=
  ((rangeFrom (g.turn + 1) activeSlots).map fun i => i % activeSlots).find? fun i =>
    match Tbl.find g.active i with
    | some t => t.canIssue
    | none => false

/-- STREAM_REQUEST_ISSUE (R149, R157): the next 64-byte request of an active stream whose turn it is, or the wait that it needs first. -/
def State.streamIssue (s : State) (e slot : Nat) : State :=
  match Tbl.find (s.engine e).active slot with
  | none => s
  | some t =>
    let d := SDesc.of t.desc
    if t.lookup.isSome ∨ engineRequests ≤ (s.engine e).outstanding then s
    else if (t.writable d).isNone && t.needsCredit d then s.askCredit e slot t d
    else if (s.engine e).nextSlot ≠ some slot then s
    else
      let s := s.modEngine e fun g => { g with turn := slot }
      match t.writable d with
      | some r => s.issueWrite e t d r
      | none => s.issueRead e t d

/-- CREDIT_GRANT (R160): the credit fence has reached the value that the stream waits for. -/
def State.creditGrant (s : State) (e slot : Nat) : State :=
  match Tbl.find (s.engine e).active slot with
  | none => s
  | some t =>
    if t.cwait = .granted then s.modStream e t.sid fun t => { t with credit := t.credit + 1, cwait := .none } else s

/-! ### Completing (R150, R158, R180) -/

/-- Whether a request of a stream goes on after its read: the stream is not ending, nor suspended before its tile. -/
def Stream.keeps (t : Stream) (slot : Option Nat) (r : StreamReq) : Bool :=
  slot.isSome && (!t.stopping || decide (r.tile < t.cursor))

/-- A read has returned its data. -/
def State.readReturned (s : State) (e id : Nat) (v : BitVec 512) : State :=
  match (s.engine e).ofReq id with
  | none => s
  | some (slot, t) =>
    let go := match t.reqs.find? fun r => r.id == id with
      | some r => t.keeps slot r
      | none => false
    let s := s.modStream e t.sid fun t =>
      if go then t.mapReq id fun r => { r with phase := .data, data := v } else t.dropReq id
    match slot with
    | some i => s.streamSettled e i
    | none => s.streamSettled e activeSlots

/-- A write has been acknowledged: it counts for its tile where its stream still delivers that tile. -/
def State.writeReturned (s : State) (e id : Nat) : State :=
  match (s.engine e).ofReq id with
  | none => s
  | some (slot, t) =>
    match t.reqs.find? fun r => r.id == id with
    | none => s
    | some r =>
      let keep := t.keeps slot r
      let s := s.modStream e t.sid fun t =>
        let t := t.dropReq id
        if keep then { t with landed := Tbl.mod 0 t.landed r.tile fun n => n + 1 } else t
      match slot with
      | some i => (s.deliver e i).streamSettled e i
      | none => s.streamSettled e activeSlots

/-- A request has been ended or has completed UNREACHABLE (R348): it is forgotten, and its context affected. -/
def State.requestEnded (s : State) (e id : Nat) : State :=
  match (s.engine e).ofReq id with
  | none => s
  | some (slot, t) =>
    let s := (s.modStream e t.sid fun t => t.dropReq id).streamSettled e (slot.getD activeSlots)
    s.settle [.affect t.ctx]

/-- Whether a stream reads from a member on another module. -/
def State.srcFar (s : State) (t : Stream) : Bool :=
  let d := SDesc.of t.desc
  d.srcKind == 3 && (match s.memberPlace t.ctx (d.src / 2 ^ 40) with
    | .there _ => true
    | _ => false)

/-- A source line has failed its integrity tag (STREAM_POISON, R180): the stream is suspended at its tile. No message tells this module when a
line of another module has been restored: such a stream may resume at once, and meets the poison again until then (assumption 130). -/
def State.streamPoison (s : State) (e id a : Nat) : State :=
  match (s.engine e).ofReq id with
  | none => s
  | some (slot, t) =>
    let tile := match t.reqs.find? fun r => r.id == id with
      | some r => r.tile
      | none => t.tile
    let s := s.modStream e t.sid fun t => t.dropReq id
    match slot with
    | some i => (s.suspendStream e i 0x05 tile a false).modStream e t.sid fun u =>
        { u with ready := u.ready || (u.cause == 0x05 && decide (u.va = a) && s.srcFar u) }
    | none => s.streamSettled e activeSlots

/-- A request that is beyond its space when it is served stops its stream at its tile (R156). -/
def State.requestOutside (s : State) (e id : Nat) (write : Bool) : State :=
  match (s.engine e).ofReq id with
  | some (_, u) =>
    let tile := match u.reqs.find? fun r => r.id == id with
      | some r => r.tile
      | none => u.tile
    (s.noteStop e u.sid tile 0 write).stopStream e u.sid 0x11
  | none => s

/-- The answer of partition memory to a read of a stream. -/
def readAnswered (e id a : Nat) (t : MemOut × State × List Ev) : State :=
  let s := t.2.1.settle t.2.2
  match t.1.status with
  | .hold => s
  | .poison => s.streamPoison e id a
  | .ended => s.requestEnded e id
  | .range => s.requestOutside e id false
  | _ => s.readReturned e id t.1.data

/-- The answer of partition memory to a write or an operation of a stream. -/
def writeAnswered (e id : Nat) (op : Bool) (t : MemOut × State × List Ev) (n : Nat) : State :=
  let s := t.2.1.settle t.2.2
  match t.1.status with
  | .hold => s
  | .ended => s.requestEnded e id
  | .range => s.requestOutside e id true
  | .ok | .poison => (if op then s.opAcked n t.1.epochBit else s).writeReturned e id
  | _ => s.writeReturned e id

/-- A request of a stream to a line of partition memory, with the label of its CLASS (R323, R324). -/
def State.streamReq (s : State) (e : Nat) (t : Stream) (r : StreamReq) (who : Principal) (p a : Nat) : MemReq :=
  { s.reqAt who p a (dieOf (e / 4)) with epoch := r.epoch, cls := stampOf t.cls }

/-- A read of a stream is served at an end inside the module (R72, R150, R214, R377). -/
def State.completeRead (s : State) (e : Nat) (t : Stream) (d : SDesc) (r : StreamReq) : State :=
  match s.srcEnd e t d r.tile r.line with
  | .localMem c a =>
    let k := s.core c
    if k.poisoned a 64 then s
    else if k.lmDouble a 64 then s.fault c FaultCode.lmUncorr 0 0
    else
      let fl := k.lmSingle a 64
      let s := s.modCore c fun k => if fl then (k.lmCorrect a 64).flag 6 else k
      s.readReturned e r.id (lineOfBytes (k.peek a 64))
  | .scratch a =>
    let g := s.cluster (e / 4)
    if !(wordsIn g.csmBad2 a 64).isEmpty then s.fault t.core FaultCode.lmUncorr 0 0
    else
      let bad := wordsIn g.csmBad1 a 64
      let s := s.modCluster (e / 4) fun g => { g with csmBad1 := g.csmBad1.filter fun w => !bad.contains w }
      let s := s.modCore t.core fun k =>
        if bad.isEmpty then k else ({ k with lmCorr := min (k.lmCorr + bad.length) (2 ^ 32 - 1) }).flag 6
      s.readReturned e r.id (lineOfBytes (Mem.readBytes g.scratch a 64))
  | .part p a who _ =>
    let q := s.streamReq e t r who p a
    readAnswered e r.id a (s.cachedRead (e / 4) q (.stream e r.id))
  | .gone => s.requestEnded e r.id
  | .peer m mem a =>
    if !r.hit then s
    else
      match s.peerCached (e / 4) (s.ctx t.ctx).forme mem t.ctx a with
      | some l => (s.modCluster (e / 4) fun k => k.cacheTouch l).readReturned e r.id l.data
      | none => (s.modStream e t.sid fun t => t.mapReq r.id fun q => { q with hit := false }).sendPeer e t PT.read m mem a 0 r.id []
  | .host _ => s

/-- A write of a stream is served at an end inside the module. -/
def State.completeWrite (s : State) (e : Nat) (t : Stream) (d : SDesc) (r : StreamReq) : State :=
  match s.dstEnd e t d r.tile r.line with
  | .localMem c a => (s.modCore c fun k => k.lmWrite a (bytesOfLine r.data)).writeReturned e r.id
  | .scratch a => (s.modCluster (e / 4) fun g => g.scratchWrite a (bytesOfLine r.data)).writeReturned e r.id
  | .part p a who _ =>
    let q := s.streamReq e t r who p a
    if d.mop = 0 then writeAnswered e r.id false (s.askWrite q r.data (.stream e r.id)) t.ctx
    else writeAnswered e r.id true (s.askOp q d.mop (r.data.zeroExtend 1024) (.stream e r.id)) t.ctx
  | .gone => s.requestEnded e r.id
  | .peer _ _ _ | .host _ => s

/-- The end that an outstanding request of a stream goes to. -/
def State.reqEnd (s : State) (e : Nat) (t : Stream) (d : SDesc) (r : StreamReq) : LineEnd :=
  if r.phase = .reading then s.srcEnd e t d r.tile r.line else s.dstEnd e t d r.tile r.line

/-- Whether a request that its stream issued earlier to the same line has not been served: requests of one source to one line are delivered
in the order issued (R20). -/
def State.behind (s : State) (e : Nat) (t : Stream) (d : SDesc) (r : StreamReq) : Bool :=
  t.reqs.any fun q => q.phase != .data && decide (q.seq < r.seq) && s.reqEnd e t d q == s.reqEnd e t d r

/-- STREAM_REQUEST_COMPLETE (R157): a request to an end inside the module is served and returns. -/
def State.streamComplete (s : State) (e id : Nat) : State :=
  match (s.engine e).ofReq id with
  | none => s
  | some (_, t) =>
    match t.reqs.find? fun r => r.id == id with
    | none => s
    | some r =>
      let d := SDesc.of t.desc
      if s.behind e t d r then s
      else match r.phase with
      | .reading => s.completeRead e t d r
      | .writing => s.completeWrite e t d r
      | .data => s

/-! ### Resumption (R149, R166) -/

/-- Whether no stream of an engine whose page came before that of stream `sid` waits to resume (R170). -/
def StreamEngine.inOrder (g : StreamEngine) (sid : Nat) : Bool :=
  !g.order.contains sid || !(g.order.takeWhile (· ≠ sid)).any fun k => g.suspended.any fun u => u.sid == k && u.resumable

/-- STREAM_RESUME (R166, R170): a suspended stream whose page has come, or whose context runs again, issues its cursor tile again. -/
def State.streamResume (s : State) (e sid : Nat) : State :=
  let g := s.engine e
  if g.stopped || !g.inOrder sid then s
  else
  let again (t : Stream) (slot : Nat) : Stream :=
    { t with slot := slot, stopping := false, ready := false, lookup := none, tile := t.cursor, line := 0, cause := 0 }
  match g.suspended.find? fun t => t.sid == sid with
  | some t =>
    match t.resumable, g.freeSlot with
    | true, some slot =>
      ((s.modEngine e fun g => { g with order := g.order.filter (· ≠ sid) }).modEngine e fun g => { g with
        suspended := g.suspended.filter fun u => u.sid ≠ sid,
        active := Tbl.set g.active slot (again t slot) }).parkAll e
    | _, _ => s
  | none =>
    match g.active.find? fun p => p.2.sid == sid with
    | some (slot, t) =>
      if t.resumable then
        (s.modEngine e fun g => { g with order := g.order.filter (· ≠ sid) }).modStream e sid fun t => again t slot
      else s
    | none => s

/-! ### Operations at the host and at other modules (R158, R175, R553) -/

/-- The request of an operation, where it still stands. -/
def State.reqOf (s : State) (e id : Nat) : Option StreamReq :=
  match (s.engine e).ofReq id with
  | some (_, t) => t.reqs.find? fun r => r.id == id
  | none => none

/-- An RDMA operation of a stream has failed at the host or with its connection (R553). -/
def State.streamHostFailed (s : State) (e id : Nat) : State :=
  match (s.engine e).ofReq id with
  | none => s
  | some (slot, t) =>
    match t.reqs.find? fun r => r.id == id with
    | none => s
    | some r =>
      let s := (s.modStream e t.sid fun t => t.dropReq id).noteStop e t.sid r.tile r.va (r.phase == .writing)
      match slot with
      | some _ => s.stopStream e t.sid 0x16
      | none =>
        if (s.engine e).suspended.any fun u => u.sid == t.sid then s.stopStream e t.sid 0x16
        else s.streamSettled e activeSlots

/-- RDMA_OPERATION_FAILED (R553): the operation of a stream that a NAK answers or that its connection loses. -/
def State.rdmaFailed (s : State) (id : Nat) : State :=
  match s.rdmaOut.find? fun o => o.id == id with
  | none => s
  | some o =>
    match o.use with
    | .stream e r => (s.endRdma id).streamHostFailed e r
    | _ => s

/-! ### Invalidation (R174 to R177, R496, R555) -/

/-- Whether an invalidation of an address space removes an entry: the whole of it, or a range that meets its page. -/
def invalidates (conn asn : Nat) (all : Bool) (lo hi : Nat) (t : TcEntry) : Bool :=
  t.conn == conn && t.asn == asn &&
    (all || decide (t.page * 2 ^ t.size.shift < hi ∧ lo < (t.page + 1) * 2 ^ t.size.shift))

/-- Whether an engine has no outstanding HOSTV request older than a generation (R176). -/
def State.engineClear (s : State) (e gen : Nat) : Bool :=
  !((s.engine e).streams.any fun p =>
    let d := SDesc.of p.2.desc
    p.2.reqs.any fun r => decide (r.gen < gen) &&
      ((r.phase == .reading && d.srcKind == 4) || (r.phase == .writing && d.dstKind == 4)))

/-- Acknowledge an invalidation: its REQID joins the last 64 of its connection (R496). -/
def State.ackInvalidate (s : State) (conn asn reqId : Nat) : State :=
  (s.modConn conn fun c => { c with acked := (c.acked ++ [reqId]).drop (c.acked.length + 1 - 64) }).emit
    (.trans conn 0x06 { TransMsg.zero with asn := BitVec.ofNat 20 asn, reqId := BitVec.ofNat 32 reqId })

/-- INVALIDATE (R176, R496, R555). -/
def State.invalidate (s : State) (conn : Nat) (m : TransMsg) : State :=
  let bad := m.rsv || m.status != 0 || m.psize != 0 || m.rd || m.wr || m.spec || m.access || m.target != 0 || m.mkey != 0 ||
    (m.all && (m.va != 0 || m.vaEnd != 0))
  let id := m.reqId.toNat
  let asn := m.asn.toNat
  if bad then s.countDiscard conn
  else if (s.conn conn).acked.contains id then
    s.emit (.trans conn 0x06 { TransMsg.zero with asn := m.asn, reqId := m.reqId })
  else if s.agent.invals.any fun v => v.conn == conn && v.reqId == id then s
  else
    let g := s.agent.gen + 1
    let purge (k : TransCache) : TransCache :=
      { k with gen := g, sets := k.sets.map fun (e : Nat × List TcEntry) =>
          (e.1, e.2.filter fun t => !invalidates conn asn m.all m.va.toNat m.vaEnd.toNat t) }
    let s := (List.range 4).foldl (fun s d => s.modTcache d purge) s
    { s with agent := { s.agent with gen := g, invals := s.agent.invals ++ [⟨g, List.range 192, conn, asn, id⟩] } }

/-- INVALIDATION_ENGINE_REPORT (R176): the engine reports every invalidation in progress that it no longer holds up;
INVALIDATE_ACK follows the last report. -/
def State.engineReport (s : State) (e : Nat) : State :=
  let vs := s.agent.invals.map fun (v : Invalidation) =>
    if s.engineClear e v.gen then { v with waiting := v.waiting.filter fun k => k ≠ e } else v
  let top := vs.foldl (fun a v => if v.waiting.contains e then a else max a v.gen) (s.engine e).reported
  let s := s.modEngine e fun g => { g with reported := top }
  let done := vs.filter fun v => v.waiting.isEmpty
  let s := { s with agent := { s.agent with invals := vs.filter fun v => !v.waiting.isEmpty } }
  done.foldl (fun s v => s.ackInvalidate v.conn v.asn v.reqId) s

end Sys2Proof.Machine
end

