-- ==== Sys2Proof/Machine/Run.lean ====
section
/-! DEFINITION. Running programs: RUN, program end, the rotation and the gang switch (R60, R77, R300, R309 to R314). -/

namespace Sys2Proof.Machine

/-! ### The rotation (R309) -/

/-- QUANTUM_EXPIRY (R309): the quantum of the running job ends. -/
def State.quantumExpiry (s : State) (id : Nat) (far : List Nat) : State :=
  match s.forme id with
  | none => s
  | some f =>
    match f.running with
    | none => s.reschedule id far
    | some j =>
      if !s.isMaster f ∨ f.switching.isSome ∨ f.frozen then s
      else if !s.jobReady id j far then s.reschedule id far
      else
        match s.nextReady f (some j) far with
        | none => s
        | some k => (s.advanceTo (f.quantumStart + f.quantum * s.jobShare id j * 1000000)).beginSwitch f k

/-! ### The gang switch (R310, R311, R178, R278) -/

/-- The cores and the stream engines of a partition. -/
def Layout.cores (l : Layout) : List Nat := l.clusters.flatMap fun c => rangeFrom (4 * c) 4
def Layout.engines (l : Layout) : List Nat := l.clusters.flatMap fun c => rangeFrom (4 * c) 4

/-- Stop every core of a cluster (R82). -/
def State.stopCluster (s : State) (cl : Nat) : State :=
  let s := s.drainCalls cl (s.cluster cl).calls.length
  (rangeFrom (4 * cl) 4).foldl (fun s c => s.coreStop c) s

/-- Suspend every stream of an engine with a cause (R178): at the tile that it issues next, or at the first tile whose ring slot it has no
credit for. The engine starts and resumes nothing until it is let go; descriptors stay in its input queue (assumption 129). -/
def State.suspendEngine (s : State) (e cause : Nat) : State :=
  let s := (s.engine e).active.foldl (fun s p => s.suspendStream e p.1 cause p.2.stopTile 0 false) s
  s.modEngine e fun g => { g with stopped := true }

/-- A stopped engine starts and resumes streams again. -/
def State.letGo (s : State) (e : Nat) : State := s.modEngine e fun g => { g with stopped := false }

/-- Whether a mini-switch of a cluster of partition `p` is in progress, or clusters of a member that comes here have yet to come (R278). -/
def State.miniBusy (s : State) (p : Nat) : Bool :=
  match (s.forme (s.part p).forme).bind fun f => f.change with
  | some c => (c.minis.any fun m => m.part == p && m.begun && !m.done) ||
      ((s.part p).movedFrom.isSome && !c.quoined && !c.restored &&
        decide ((c.minis.filter fun m => m.part == p && m.done).length < (s.part p).lay.clusters.length))
  | none => false

/-- GANG_SWITCH at a member (steps 2 of Table 10-11): the cores of its clusters stop and their streams are suspended. A mini-switch
in progress defers it. -/
def State.gangSwitch (s : State) (id member job : Nat) : State :=
  match s.partHere id member with
  | none => s
  | some p =>
    if s.miniBusy p then s.modChange id fun c => { c with deferrals := c.deferrals + 1, deferred := c.deferred ++ [(member, job)] }
    else
      let l := (s.part p).lay
      let s := s.modForme id fun f => { f with switching := some (f.switching.getD (job, [])) }
      let s := l.clusters.foldl (fun s c => s.stopCluster c) s
      l.engines.foldl (fun s e => s.suspendEngine e 3) s

/-- Whether a partition's clusters have come to rest: no core issues, and no stream is active. -/
def State.atRest (s : State) (p : Nat) : Bool :=
  let l := (s.part p).lay
  l.cores.all (fun c => match (s.core c).ctl with
    | .running | .blocked _ | .halting => false
    | _ => true) &&
  l.engines.all fun e => (s.engine e).atRest

/-- A core without what stays on the module when its state is saved: its code. -/
def Core.stateOnly (k : Core) : Core := { k with imem := [], imemBad := [], codeLen := 0 }

/-- Whether the state of a context is kept when it is switched out: not that of one that is FREE or TEARING. -/
def State.keepsState (s : State) (n : Nat) : Bool :=
  decide (n ≠ 0) && (match (s.ctx n).state with
    | .live | .lost => true
    | _ => false)

/-- The context that a cluster runs. -/
def State.clusterCtx (s : State) (cl : Nat) : Option Nat :=
  ((rangeFrom (4 * cl) 4).map fun c => (s.core c).ctx).find? fun n => n != 0

/-- The save area of a context for the cluster at position `idx` of its partition (R311). -/
def State.saveArea (s : State) (n p idx : Nat) : Option Alloc :=
  ((s.part p).allocs.filter fun a => a.ctx == n && (match a.kind with
    | .save _ => true
    | _ => false))[idx]?

/-- Step 3: the state of cluster `cl` is written to the save area of its context, through that context's key window; a line written there
before that now holds nothing becomes zeros (R311, assumption 141). -/
def State.writeArea (s : State) (p idx cl : Nat) : State :=
  match s.clusterCtx cl with
  | none => s
  | some n =>
    match s.saveArea n p idx with
    | none => s
    | some a =>
      if s.keepsState n then
        let new := (s.saveLines cl).filter fun e => decide (e.1 < a.size)
        let gone := (Tbl.get [] (s.ctx n).savedLines idx).filter fun e => !new.any fun f => f.1 == e.1
        let all : List (Nat × BitVec 512) := new ++ gone.map fun e => (e.1, 0)
        let s := all.foldl (fun s e =>
          let t := s.changeNow (s.reqAt (.ctx n) p (a.base + e.1) (dieOf cl)) (.write e.2)
          t.1.settle t.2) s
        s.modCtx n fun c => { c with savedLines := Tbl.set c.savedLines idx new }
      else s

/-- What the save area of cluster `cl` holds where it is read back as other than it was written: cores, scratch and streams as its image
gives them. -/
def Context.retake (x : Context) (n idx cl base size : Nat) (lines : List (Nat × BitVec 512)) : Context :=
  let m : Mem := lines.foldl (fun m e => m.writeLE (imageOfs size e.1) 64 e.2.toNat) []
  let core (e : Nat × CoreSave) : CoreSave :=
    if base ≤ e.1 ∧ e.1 < base + 4 then
      ⟨{ takeCore m (0xA80000 * (e.1 - base)) n e.2.core.part e.1 0 e.2.core.note with ctl := e.2.core.ctl }⟩
    else e.2
  let mine (j : Nat) : List (Nat × Nat × Stream) :=
    (x.savedStreams.filter fun e => e.1 == 4 * idx + j).zipIdx.map fun e => (e.2, e.1)
  let streams := (List.range 4).flatMap fun j => (mine j).filterMap fun e =>
    let t := e.2.2
    (takeStream m (0x3209000 + (24 * j + e.1) * 256) n cl t.sid ⟨t.cls, Fin.ofNat 4 t.core, t.run⟩).map fun u => (e.2.1, u)
  { x with
    saved := x.saved.map fun e => (e.1, core e)
    savedScratch := Tbl.set x.savedScratch idx (takeMem m 0x2A00000 size)
    savedStreams := (x.savedStreams.filter fun e => e.1 / 4 != idx) ++ streams }

/-- Step 4: the save area of context `n` for cluster `cl` is read through its key window. Where every line reads as it was written, the
context's state is the one that was saved. -/
def State.readArea (s : State) (n p idx cl : Nat) : State :=
  match s.saveArea n p idx with
  | none => s
  | some a =>
    let lines := Tbl.get [] (s.ctx n).savedLines idx
    let r := lines.foldl (fun (t : State × List (Nat × BitVec 512) × Bool) e =>
      let o := t.1.readLine (t.1.reqAt (.ctx n) p (a.base + e.1) (dieOf cl))
      (o.2.1.settle o.2.2, t.2.1 ++ [(e.1, o.1.data)], t.2.2 && o.1.status == .ok && o.1.data == e.2)) (s, [], true)
    if r.2.2 then r.1
    else r.1.modCtx n fun x => x.retake n idx cl ((s.part p).lay.vcoreBase + 4 * idx) (s.scratchSize cl) r.2.1

/-- Step 3: the outgoing state goes to the save areas of the contexts that it belongs to. A context that is FREE or TEARING keeps
nothing. -/
def State.saveCluster (s : State) (p idx cl : Nat) : State :=
  let base := (s.part p).lay.vcoreBase + 4 * idx
  let keeps := s.keepsState
  let owner := s.clusterCtx cl
  let s := (List.range 4).foldl (fun s k =>
    let core := s.core (4 * cl + k)
    if keeps core.ctx then s.modCtx core.ctx fun c => { c with saved := Tbl.set c.saved (base + k) ⟨core.stateOnly⟩ } else s) s
  let s := (List.range 4).foldl (fun s j =>
    let e := 4 * cl + j
    let s := (s.engine e).held.foldl (fun s t =>
      if keeps t.ctx then s.modCtx t.ctx fun c => { c with savedStreams := c.savedStreams ++ [(4 * idx + j, { t with ready := true, prq := none })] }
      else s) s
    let s := (s.engine e).queue.foldl (fun s q =>
      if keeps q.ctx then s.modCtx q.ctx fun c => { c with savedDescs := c.savedDescs ++ [(4 * idx + j, q)] } else s) s
    s.modEngine e fun g => { g with suspended := [], active := [], queue := [], order := [] }) s
  let s := match owner with
    | some n => if keeps n then
        let m := (s.cluster cl).scratch
        s.modCtx n fun c => { c with savedScratch := Tbl.set c.savedScratch idx m }
      else s
    | none => s
  ((s.cluster cl).hub.hot.map fun e => e.1).foldl (fun s n => s.hotWriteback n) s

/-- Step 4: the incoming state of context `n` is read, or zeroed for a first start. -/
def State.restoreCluster (s : State) (n p idx cl : Nat) : State :=
  let x := s.ctx n
  let base := (s.part p).lay.vcoreBase + 4 * idx
  let s := (List.range 4).foldl (fun s k =>
    let v := base + k
    s.modCore (4 * cl + k) fun old =>
      let new := match Tbl.find x.saved v with
        | some sv => sv.core
        | none => Core.reset
      { new with imem := old.imem, imemBad := old.imemBad, codeLen := old.codeLen, ctx := n, part := p, vcore := v, seed := x.seed,
                 lmCorr := old.lmCorr, accCorr := old.accCorr }) s
  let s := s.modCluster cl fun k => { k with scratch := Tbl.get [] x.savedScratch idx, csmBad1 := [], csmBad2 := [] }
  let mine := x.savedStreams.filter fun e => e.1 / 4 == idx
  let s := mine.foldl (fun s e =>
    let own := 4 * cl + e.1 % 4
    let full (i : Nat) : Bool := decide (suspendedSlots ≤ (s.engine i).suspended.length)
    let at_ := if full own then ((rangeFrom (4 * cl) 4).find? fun i => !full i).getD own else own
    s.modEngine at_ fun g => g.adopt (if s.suspectCtx n then { e.2 with ready := false } else e.2)) s
  let s := (x.savedDescs.filter fun e => e.1 / 4 == idx).foldl (fun s e => s.modEngine (4 * cl + e.1 % 4) fun g => { g with queue := g.queue ++ [e.2] }) s
  s.modCtx n fun c => { c with
    saved := c.saved.filter fun e => !(decide (base ≤ e.1 ∧ e.1 < base + 4))
    savedScratch := Tbl.del c.savedScratch idx
    savedStreams := c.savedStreams.filter fun e => e.1 / 4 != idx
    savedDescs := c.savedDescs.filter fun e => e.1 / 4 != idx }

/-- Steps 3 to 5 on one member of this module. -/
def State.swapMember (s : State) (id member job p : Nat) : State :=
  let l := (s.part p).lay
  let s := l.clusters.zipIdx.foldl (fun s e => s.writeArea p e.2 e.1) s
  let s := l.clusters.zipIdx.foldl (fun s e => s.saveCluster p e.2 e.1) s
  let s := l.engines.foldl (fun s e => s.letGo e) s
  match s.jobCtxAt id job member with
  | none => l.cores.foldl (fun s c => s.modCore c fun k => { Core.wipe k with part := p }) s
  | some n =>
    let s := l.clusters.zipIdx.foldl (fun s e => s.readArea n p e.2 e.1) s
    let s := l.clusters.zipIdx.foldl (fun s e => s.restoreCluster n p e.2 e.1) s
    l.cores.foldl (fun s c => s.resumeCore c) s

/-- At the master: a member has returned SWITCHED; with the last one the incoming job runs, its quantum begins, and a new forme
quantum takes effect. -/
def State.memberSwitched (s : State) (id member : Nat) : State :=
  let now := s.ltime
  s.modForme id fun f =>
    match f.switching with
    | none => f
    | some (job, wait) =>
      let wait := wait.filter fun m => m ≠ member
      if wait.isEmpty then
        { f with switching := none, running := some job, quantumStart := now, quantum := f.newQuantum.getD f.quantum, newQuantum := none }
      else { f with switching := some (job, wait) }

/-- SWITCH_DONE (R310): a member's cores issue again; the master records it. -/
def State.switchDone (s : State) (id member : Nat) : State :=
  match s.forme id with
  | none => s
  | some f =>
    match f.switching, s.partOfMember f member with
    | some (job, _), some p =>
      if s.atRest p then ((s.swapMember id member job p).send (.gangSwitched id member)).memberSwitched id member else s
    | some _, none => if s.isMaster f then s.memberSwitched id member else s
    | none, _ => s

/-! ### RUN (R300, R313) -/

/-- What a RUN asks for. -/
structure RunArgs where
  first : Nat
  count : Nat
  entry : Nat
  fallbackOk : Bool
  deadline : Nat
  arg : Word64
deriving DecidableEq, Repr

/-- The arguments of a RUN from its words. -/
def runArgs (a : List Word64) : RunArgs :=
  ⟨bits (argAt a 0) 31 0, bits (argAt a 0) 63 32, bits (argAt a 1) 12 0, bit (argAt a 1) 13, bits (argAt a 1) 63 32, a.getD 2 0⟩

/-- Whether ranges together cover the `n` numbers from `a` on: `fuel` is the number of ranges. -/
def coveredBy (rs : List (Nat × Nat)) : Nat → Nat → Nat → Bool
  | 0, _, n => n == 0
  | fuel + 1, a, n =>
    if n = 0 then true
    else
      match rs.find? fun r => decide (r.1 ≤ a ∧ a < r.1 + r.2) with
      | none => false
      | some r => coveredBy rs fuel (r.1 + r.2) (n - (r.1 + r.2 - a))

/-- The ranges of virtual cores of a forme's members on this module on which a job holds a context. -/
def State.coresHere (s : State) (f : Forme) (job : Nat) : List (Nat × Nat) :=
  (s.membersHere f).filterMap fun e =>
    if (s.jobCtxAt f.id job e.1).isSome then
      some ((s.part e.2.part).lay.vcoreBase, 4 * (s.part e.2.part).lay.clusters.length)
    else none

/-- Start a core on a context for a RUN (R77, R300): on its first RUN of the job the core is zeroed and takes the image's
CLASS. -/
def Core.startRun (k : Core) (x : Context) (n : Nat) (first : Bool) (cls : BitVec 3) (r : RunArgs) (seq v : Nat) : Core :=
  let k := if first then { Core.wipe k with cls := cls } else k
  { k with
    runSeq := seq
    runEnergy := x.energy
    x := (Tbl.set (Tbl.set (Tbl.set [] 1 r.arg) 2 (BitVec.ofNat 64 x.constBase)) 3 (BitVec.ofNat 64 seq))
    pc := r.entry, ret := [], loops := [], tokens := [], td := [], seed := x.seed, ctx := n, part := x.part, vcore := v
    ctl := .running, mq := [], vq := [], xq := [], mrun := [], vrun := none, xrun := none, xmove := none, held := []
    fault := none, savedArms := [] }

/-- The virtual cores of a RUN on one member of this module, with their cores; clamps refuse what would start one (R32). -/
def State.runOn (s : State) (p : Nat) (r : RunArgs) : List (Nat × Nat) :=
  let l := (s.part p).lay
  (l.vcores.filterMap fun v => if r.first ≤ v ∧ v < r.first + r.count then (l.coreOf v).map fun c => (v, c) else none).filter fun e =>
    !(s.cluster (clusterOf e.2)).clamped

/-- Start the cores of a RUN on one member; the arrival phases kept for them are of an earlier RUN. -/
def State.startMember (s : State) (id job m p : Nat) (r : RunArgs) (seq : Nat) : State :=
  match s.jobCtxAt id job m, (s.part p).residency with
  | some n, some im =>
    let ran := ((s.job id job).map fun j => j.ran).getD []
    let s := (s.runOn p r).foldl (fun s e =>
      let x := s.ctx n
      (s.modCore e.2 fun k => k.startRun x n (!ran.contains e.1) im.cls r seq e.1).modHub (clusterOf e.2) fun h =>
        { h with bars := h.bars.map fun (b : Nat × Barrier) => (b.1, { b.2 with corePhase := Tbl.del b.2.corePhase (phaseKey n e.1) }) }) s
    let vs := (s.runOn p r).map fun e => e.1
    s.modJob id job fun j => { j with ran := j.ran ++ vs.filter fun v => !j.ran.contains v, runSeq := max j.runSeq seq }
  | _, _ => s

/-- The cores of a RUN on the members of this module. -/
def State.runCores (s : State) (f : Forme) (job : Nat) (r : RunArgs) : List Nat :=
  (s.membersHere f).flatMap fun e =>
    if (s.jobCtxAt f.id job e.1).isSome then (s.runOn e.2.part r).map fun q => q.2 else []

/-- The contexts of this module that take part in a RUN. -/
def State.runCtxs (s : State) (f : Forme) (job : Nat) (r : RunArgs) : List Nat :=
  (s.membersHere f).filterMap fun e => if (s.runOn e.2.part r).isEmpty then none else s.jobCtxAt f.id job e.1

/-- The virtual cores of a RUN that other members hold, from what is known of them: member, first virtual core, count. -/
def farCores (far : List (Nat × Nat × Nat)) (r : RunArgs) : List (Nat × Nat) :=
  far.flatMap fun e =>
    let lo := max e.2.1 r.first
    let hi := min (e.2.1 + e.2.2) (r.first + r.count)
    (rangeFrom lo (hi - lo)).map fun v => (e.1, v)

/-- A RUN's command ends once no core is left (R300): with its RUN_SEQ. -/
def State.endRun (s : State) (q : Nat) (c : Cmd) : State :=
  match c.run with
  | none => s
  | some r =>
    if r.cores.isEmpty && r.remote.isEmpty then
      let t := s.complete q c.place { status := St.ok, result := [BitVec.ofNat 64 r.seq] }
      (t.1.settle t.2).reschedule r.forme []
    else s

/-- RUN (R300). `far` gives the virtual cores of members on other modules on which the job holds a context. The RUN waits while
its job does not run on the forme, and while one of its cores runs an earlier RUN. -/
def State.run (s : State) (src : CmdSource) (far : List (Nat × Nat × Nat)) : State :=
  match src with
  | .order o =>
    match s.partHere o.forme o.member, s.forme o.forme with
    | some p, some f =>
      let r := runArgs o.args
      if o.opc ≠ 0x11 ∨ f.running ≠ some o.job ∨ (s.runOn p r).any fun e => (s.core e.2).busy then s
      else s.startMember o.forme o.job o.member p r o.seq
    | _, _ => s
  | .queue q _ =>
    match s.next q.val fun c => c.opc == 0x11 with
    | none => s
    | some c =>
      let n := (s.queue q.val).ctx
      let x := s.ctx n
      let r := runArgs (c.words.drop 5)
      match s.forme x.forme, s.job x.forme x.job with
      | some f, some j =>
        let ranges := s.coresHere f x.job ++ far.map fun e => e.2
        if j.digest.isNone then (s.start q.val c).refuseCmd q.val c Dt.noImage
        else if !coveredBy ranges ranges.length r.first r.count then (s.start q.val c).refuseCmd q.val c Dt.badMember
        else if r.deadline ≠ 0 ∧ !s.isMaster f then (s.start q.val c).refuseCmd q.val c Dt.notMaster
        else if f.frozen ∨ f.switching.isSome then s
        else if f.running ≠ some x.job then s.reschedule f.id []
        else
          let cores := s.runCores f x.job r
          let remote := farCores far r
          if (cores.any fun k => (s.core k).busy) ∨
              (s.queues.any fun e => e.2.cmds.any fun d => match d.run with
                | some u => decide (u.forme = f.id ∧ u.job = x.job) && u.remote.any fun v => remote.contains v
                | none => false) then s
          else
            let s := s.start q.val c
            let seq := j.runSeq + 1
            let im := (s.part x.part).residency
            let watch := decide (r.deadline ≠ 0) && r.fallbackOk && im.any fun m => m.hasFb && decide (m.layers ≠ 0)
            let p0 := (im.map fun m => (s.fence m.progressFence).value).getD 0
            let info : RunInfo := ⟨f.id, x.job, seq, cores, remote, r.deadline, watch, p0⟩
            let part := s.energies (distinct (n :: s.runCtxs f x.job r))
            let s := s.modCmd q.val c.place fun d => { d with run := some info, energy0 := part }
            let s := s.modJob f.id x.job fun j => { j with runSeq := seq }
            let s := (s.membersHere f).foldl (fun s e => s.startMember f.id x.job e.1 e.2.part r seq) s
            let ms := distinct (remote.map fun e => e.1)
            let s := ms.foldl (fun s m => s.send (.memberOrder ⟨f.id, x.job, m, 0x11, c.words.drop 5, [], seq⟩)) s
            match (s.queue q.val).cmds.find? fun d => d.place == c.place with
            | some d => s.endRun q.val d
            | none => s
      | _, _ => (s.start q.val c).refuseCmd q.val c Dt.noImage

/-! ### Program end (R60, R300) -/

/-- What a core reports at its program end: the RUN, the virtual core, whether the RUN is not reproducible, and the energy of its context since it
started in µJ. -/
structure CoreReport where
  forme : Nat
  job : Nat
  vcore : Nat
  seq : Nat
  mark : Bool
  energy : Nat
deriving DecidableEq, Repr

/-- A virtual core, core `core` of this module or one of another module, leaves the RUN that it belongs to. -/
def State.leaveRun (s : State) (core : Option Nat) (m : CoreReport) : State :=
  let find := (s.queues.filter fun e => !s.queueAway e.1).findSome? fun e => (e.2.cmds.find? fun c => c.run.any fun r => r.is m.forme m.job m.seq).map fun c => (e.1, c)
  match find with
  | none => s
  | some (q, c) =>
    let s := s.modCmd q c.place fun d =>
      let member := (d.run.bind fun r => r.remote.find? fun e => e.2 == m.vcore).map fun e => e.1
      { d with
        notRepro := d.notRepro || m.mark
        energyFar := match core, member with
          | none, some n => Tbl.mod 0 d.energyFar n fun e => max e m.energy
          | _, _ => d.energyFar
        run := d.run.map fun r =>
          { r with cores := r.cores.filter fun k => some k ≠ core, remote := r.remote.filter fun e => e.2 ≠ m.vcore } }
    match (s.queue q).cmds.find? fun d => d.place == c.place with
    | some d => s.endRun q d
    | none => s

/-- The report of a core of this module (R204, R300, R301). -/
def State.coreReport (s : State) (c : Nat) : CoreReport :=
  let k := s.core c
  let x := s.ctx k.ctx
  ⟨x.forme, x.job, k.vcore, k.runSeq, ((s.job x.forme x.job).map fun j => j.marks).any fun l => l.contains k.runSeq, (x.energy - k.runEnergy) / energyUnit⟩

/-- Whether this module fetched the RUN of a report. -/
def State.fetchedHere (s : State) (m : CoreReport) : Bool :=
  s.queues.any fun e => !s.queueAway e.1 && e.2.cmds.any fun d => d.run.any fun r => r.is m.forme m.job m.seq

/-- Whether a halting core has reached program end: its queues are empty and nothing executes. -/
def Core.programEnd (k : Core) : Bool :=
  k.ctl == .halting && k.mq.isEmpty && k.vq.isEmpty && k.xq.isEmpty && k.mrun.isEmpty && k.vrun.isNone && k.xrun.isNone

/-- PROGRAM_END (R60): arms that have not fired go, and the core leaves its RUN. A core that another module started is reported to
that module. -/
def State.programEnd (s : State) (who : ProgramEnd) : State :=
  match who with
  | .far f j v seq mark energy => s.leaveRun none ⟨f, j, v, seq, mark, energy⟩
  | .core c =>
    if (s.core c.val).programEnd then
      let m := s.coreReport c.val
      let mine := s.fetchedHere m
      let s := (s.dropWaits (Waiter.ofCore c.val)).modCore c.val fun k => { k with ctl := .ended }
      if mine then s.leaveRun (some c.val) m else s.send (.coreDone m.forme m.job m.vcore m.seq m.mark m.energy)
    else s

end Sys2Proof.Machine
end

