-- ==== Sys2Proof/Machine/FormeSteps.lean ====
section
/-! DEFINITION. The first steps of a change: admission, Install, Switch and Drain, and how compositor messages are taken (R256,
R260 to R263, R275, R281 to R283). -/

namespace Sys2Proof.Machine

/-! ### Taking a compositor message (R281, R282) -/

/-- Whether a message repeats one that has been answered (R282): the same OPC, CSEQ and sender about the same forme, and, where a change
sends more than one of an opcode, the same EPOCH, mini-switch or member; two FWDs are the same only where they forward the same
(assumption 71). -/
def Answered.repeats (a : Answered) (opc : Nat) (m : CompMsg) : Bool :=
  a.opc == opc && a.req.srcMod == m.srcMod && a.req.formeId == m.formeId && a.req.cseq == m.cseq && a.req.epoch == m.epoch &&
    (!(opc == 0x2E || (decide (0x31 ≤ opc) && decide (opc ≤ 0x34))) || a.req.w4 == m.w4) && (opc != 0x34 || a.req.data == m.data)

/-- Whether a reserved field of a compositor message is not zero, by Table 09-12. -/
def compReserved (opc : Nat) (m : CompMsg) : Bool :=
  let w4 := if opc = 0x22 ∨ opc = 0x29 ∨ opc = 0x2E then 16 else if opc = 0x23 then 32 else if opc = 0x2F then 1
    else if opc = 0x31 ∨ opc = 0x32 ∨ opc = 0x33 then 28 else if opc = 0x34 then 17 else if opc = 0x3F then 8 else 0
  (!(opc == 0x22 || opc == 0x2F) && m.status != 0) || decide (2 ^ w4 ≤ m.w4.toNat) ||
    decide (2 ^ (if opc = 0x31 then 32 else 0) ≤ m.w5.toNat) || decide (2 ^ (if opc = 0x31 then 5 else 0) ≤ m.w6.toNat)

/-- Whether a CSEQ comes after another in the count of a forme's changes, which wraps (R282). -/
def laterCseq (k old : Nat) : Bool := decide (0 < (k + 2 ^ 32 - old) % 2 ^ 32 ∧ (k + 2 ^ 32 - old) % 2 ^ 32 < 2 ^ 31)

/-- Whether the receiver knows the change of a message (R281): ADMIT tells of one; of the others, INSTALL is that of the change in
progress or the first word of one that comes after those known here, and MEMBER_FAILED outside a change carries the CSEQ of the last
change installed (assumption 71). -/
def State.knowsChange (s : State) (opc : Nat) (m : CompMsg) : Bool :=
  opc == 0x20 || (match s.forme m.formeId.toNat with
    | none => false
    | some f => (f.change.any fun c => c.cseq == m.cseq.toNat) || (opc == 0x23 && laterCseq m.cseq.toNat f.cseq) ||
        (opc == 0x2E && f.instCseq == m.cseq.toNat))

/-- Take a compositor message: one for another module goes on; a repeated one is answered again; one of no known change or with a
reserved field set is discarded and counted. -/
def State.compIn (s : State) (opc : Nat) (m : CompMsg) (f : State → State) : State :=
  if m.dstMod.toNat ≠ s.fabAddr then s.emit (.comp opc m)
  else
    match s.answered.find? fun a => a.repeats opc m with
    | some a => s.emit (.comp a.ansOpc a.ans)
    | none => if compReserved opc m || !s.knowsChange opc m then s.synCount s.lowestCluster .badmsg else f s

/-- Answer a request or report, and keep the answer for a repeat (R282). -/
def State.answerComp (s : State) (opc : Nat) (m : CompMsg) (ansOpc : Nat) (epoch status w4 : Nat) (data : CompData := .none) : State :=
  let a := s.compMsg m.srcMod.toNat m.formeId.toNat m.cseq.toNat epoch (status := status) (w4 := w4) (data := data)
  { s.send (.comp ansOpc a) with answered := s.answered ++ [⟨opc, m, ansOpc, a⟩] }

/-- Acknowledge a report. -/
def State.ackComp (s : State) (opc : Nat) (m : CompMsg) : State := s.answerComp opc m 0x3F 0 0 opc

/-- An answer has come: the request it answers is not sent again. -/
def State.gotAnswer (s : State) (opc : Nat) (m : CompMsg) : State :=
  { s with unanswered := s.unanswered.filter fun u =>
      !(u.opc == opc && u.msg.dstMod == m.srcMod && u.msg.formeId == m.formeId && u.msg.cseq == m.cseq) }

/-- ACK (R282). -/
def State.compAck (s : State) (m : CompMsg) : State :=
  s.compIn 0x3F m fun s => s.gotAnswer (bits m.w4.toNat 7 0) m

/-- COMPOSITOR_MESSAGE_REPEAT (R282): a request or report without an answer is sent again, 1 ms after its last sending. -/
def State.compRepeat (s : State) (opc dst forme : Nat) : State :=
  let hit (u : Unanswered) : Bool := u.opc == opc && u.msg.dstMod.toNat == dst && u.msg.formeId.toNat == forme
  match s.unanswered.find? hit with
  | none => s
  | some u =>
    let s := s.advanceTo (u.sentAt + 1000000)
    let now := s.ltime
    { s.send (.comp opc u.msg) with unanswered := s.unanswered.map fun (x : Unanswered) => if x = u then { x with sentAt := now } else x }

/-! ### What the master counts -/

/-- The master marks a module's answer in the step that is under way. -/
def State.markAnswer (s : State) (id src : Nat) : State :=
  s.modChange id fun c => { c with answered := insertSorted src c.answered }

/-- Modules that still take part: those not declared failed. -/
def Change.alive (c : Change) (ms : List Nat) : List Nat := ms.filter fun m => !c.failedMods.contains m

/-- Whether every module of a list has answered. -/
def Change.allIn (c : Change) (ms : List Nat) : Bool := (c.alive ms).all fun m => c.answered.contains m

/-- The master goes on to a step and sends its request to the modules that carry it out. -/
def State.enterStep (s : State) (id : Nat) (step : ChangeStep) (opc epoch : Nat) (toAll : Bool) (data : CompData := .none)
    (w4 : Nat := 0) : State :=
  let now := s.ltime
  let s := s.modChange id fun c => { c with step := step, answered := [], stepStart := now }
  match (s.forme id).bind fun f => f.change with
  | none => s
  | some c =>
    s.sendCompAll opc (fun m => s.compMsg m id c.cseq epoch (w4 := w4) (data := data)) (c.alive (if toAll then c.mods else c.parts))

/-! ### Install (R262, R283) -/

/-- The member-map entries of a change. -/
def Forme.mapEntries (f : Forme) (es : List PlanEntry) : List MapEntry :=
  es.map fun e =>
    if e.action = actRemove then
      let r := Tbl.get (⟨0, 0, false⟩ : MemberRec) f.members e.member
      ⟨e.member, r.fab, r.part, r.memOnly, true⟩
    else ⟨e.member, e.fab, e.part, e.memOnly, false⟩

/-- The member-map entries that restore the placement before the change (R275). -/
def Forme.undoEntries (f : Forme) (es : List PlanEntry) : List MapEntry :=
  es.map fun e =>
    match Tbl.find f.membersOld e.member with
    | some r => ⟨e.member, r.fab, r.part, r.memOnly, false⟩
    | none => ⟨e.member, e.fab, e.part, e.memOnly, true⟩

/-- Apply member-map entries to a map. -/
def applyMap (t : Tbl MemberRec) (es : List MapEntry) : Tbl MemberRec :=
  es.foldl (fun t e => if e.removed then Tbl.del t e.member else Tbl.set t e.member ⟨e.fab, e.part, e.memOnly⟩) t

/-- The member-map entries that leave nothing out: what a module without a member in the present epoch installs (R254, R283;
assumption 134). -/
def wholeMap (t : Tbl MemberRec) (es : List MapEntry) : List MapEntry :=
  (applyMap t es).map fun e => ⟨e.1, e.2.fab, e.2.part, e.2.memOnly, false⟩

/-- The master sends INSTALL: to each module the entries that change there. -/
def State.toInstall (s : State) (id : Nat) : State :=
  match s.forme id with
  | none => s
  | some f =>
    match f.change with
    | none => s
    | some c =>
      let es := if c.undo then f.undoEntries c.entries else f.mapEntries c.entries
      let epoch := if c.undo then (f.epoch + 1) % 16 else c.toEpoch
      let now := s.ltime
      let s := s.modChange id fun c => { c with step := .install, answered := [], stepStart := now }
      (c.alive c.mods).foldl (fun s m =>
        let l := if c.undo ∨ m ∈ f.modules then es else wholeMap f.members es
        s.sendComp 0x23 (s.compMsg m id c.cseq epoch (w4 := l.length) (data := .install l))) s

/-! ### Admission (R261) -/

/-- A change as a module knows it that does not lead it. -/
def Change.joined (s : State) (m : CompMsg) (h : PlanHeader) (es : List PlanEntry) (f : Forme) : Change :=
  { Change.start s m.cseq.toNat f h es false none with master := m.srcMod.toNat, own := es, parts := [], mods := [] }

/-- The header of which a module that takes no part in admission knows nothing. -/
def PlanHeader.unknown (id : Nat) : PlanHeader := ⟨1, 1, false, 0, 0, id, 50, 10, 0, false⟩

/-- Whether a change is one for recovery, as a participant that does not lead it knows it (R277; assumption 135): it brings a member that
has been declared failed, it takes from a member here what is out of service, or what comes beside a member says so. -/
def State.repairs (s : State) (f : Forme) (es : List PlanEntry) (carry : Tbl Carry) : Bool :=
  es.any fun e => f.failedMembers.contains e.member || ((Tbl.find carry e.member).any fun k => k.recovery) ||
    (match s.partOfMember f e.member with
      | some p => e.action == actReshape && ((s.part p).lay.clusters.any s.clusterOut || (s.part p).lay.channels.any fun c => (s.channel c).fenced)
      | none => false)

/-- The admissions of a recovery change that finds no free pages lose contexts, those of the largest footprint first, until the rest
find them (R212, R267). -/
def State.admitLosing (s : State) (f : Forme) (h : PlanHeader) (rec_ : Bool) (es : List PlanEntry) (carry : Tbl Carry) :
    Nat → Except (Nat × Nat) State
  | 0 => s.admitAll f h rec_ (s.planned h (s.admits f es carry)) (s.admits f es carry)
  | n + 1 =>
    match s.admitAll f h rec_ (s.planned h (s.admits f es carry)) (s.admits f es carry) with
    | .ok t => .ok t
    | .error (why, member) =>
      match rec_ && why == Why09.staging, (s.partOfMember f member).bind fun p => (s.byFootprint p).head? with
      | true, some k => State.admitLosing (s.settle [.lose k]) f h rec_ es carry n
      | _, _ => .error (why, member)

/-- ADMIT (R261): the module checks its part of the plan and holds its targets. `carry` gives what goes with each member that
moves here. -/
def State.admitHere (s : State) (m : CompMsg) (carry : Tbl Carry) : State :=
  s.compIn 0x20 m fun s =>
    match m.data with
    | .plan h es =>
      let id := m.formeId.toNat
      let f := (s.forme id).getD { Forme.blank id with epoch := h.expectEpoch }
      let leads := f.change.any fun c => c.master == s.fabAddr && c.cseq == m.cseq.toNat
      let rec_ := if leads then f.change.any fun c => c.recovery else s.repairs f es carry
      match s.admitLosing f h rec_ es carry s.ctxs.length with
      | .error (why, member) => s.answerComp 0x20 m 0x22 0 why member
      | .ok s =>
        let s := if (s.forme id).isSome then s else { s with formes := s.formes ++ [f] }
        let s := s.modForme id fun f =>
          let c := match f.change with
            | some c => if leads then c else Change.joined s m h es f
            | none => Change.joined s m h es f
          { f with change := some { c with admitted := true, own := es }, cseq := m.cseq.toNat }
        s.answerComp 0x20 m 0x21 0 0 0
    | _ => s.synCount s.lowestCluster .badmsg

/-- The first refusal in member-index order. -/
def firstRefusal : List (Nat × Nat) → Option (Nat × Nat)
  | [] => none
  | r :: rs =>
    match firstRefusal rs with
    | none => some r
    | some q => if q.1 < r.1 then some q else some r

/-- Every participant has answered: the plan is refused, or INSTALL goes out. -/
def State.admissionEnd (s : State) (id : Nat) : State :=
  match (s.forme id).bind fun f => f.change with
  | none => s
  | some c =>
    if c.step != .admission || !c.allIn c.parts then s
    else
      match firstRefusal c.refusals with
      | some (member, why) => s.abortChange id 1 why (some member)
      | none => s.toInstall id

/-- ADMIT_OK (R261). -/
def State.admitOk (s : State) (m : CompMsg) : State :=
  s.compIn 0x21 m fun s =>
    (((s.gotAnswer 0x20 m).markAnswer m.formeId.toNat m.srcMod.toNat)).admissionEnd m.formeId.toNat

/-- ADMIT_REFUSE (R261). -/
def State.admitRefuse (s : State) (m : CompMsg) : State :=
  s.compIn 0x22 m fun s =>
    let id := m.formeId.toNat
    let s := (s.gotAnswer 0x20 m).markAnswer id m.srcMod.toNat
    (s.modChange id fun c => { c with refusals := c.refusals ++ [(bits m.w4.toNat 15 0, m.status.toNat)] }).admissionEnd id

/-- INSTALL (R262): the table of the next epoch is written beside the present one. -/
def State.install (s : State) (m : CompMsg) : State :=
  s.compIn 0x23 m fun s =>
    match m.data with
    | .install es =>
      let id := m.formeId.toNat
      let s := s.modForme id fun f =>
        let c := match f.change with
          | some c => if c.cseq = m.cseq.toNat then c else Change.joined s m (PlanHeader.unknown id) [] f
          | none => Change.joined s m (PlanHeader.unknown id) [] f
        { f with
          change := some c, cseq := m.cseq.toNat, instCseq := m.cseq.toNat, membersNew := some (m.epoch.toNat, applyMap f.members es)
          draining := none, membersOld := if c.switched then f.membersOld else [] }
      s.answerComp 0x23 m 0x24 m.epoch.toNat 0 0
    | _ => s.synCount s.lowestCluster .badmsg

/-- INSTALLED (R260): once all have installed, SWITCH is sent. -/
def State.installed (s : State) (m : CompMsg) : State :=
  s.compIn 0x24 m fun s =>
    let id := m.formeId.toNat
    let s := (s.gotAnswer 0x23 m).markAnswer id m.srcMod.toNat
    match (s.forme id).bind fun f => f.change with
    | some c => if c.step == .install && c.allIn c.mods then s.enterStep id .switch 0x25 m.epoch.toNat true else s
    | none => s

/-! ### Switch (R255, R262, R337, R395) -/

/-- A new PARTITION key of partition `p` (R397). -/
def State.drawPartKey (s : State) (p : Nat) : State :=
  let n := s.keySerial + 1
  ({ s with keySerial := n }).modKey (2 + p) fun _ =>
    { KeyEntry.reset with type := .partition, valid := true, engines := 1, part := p, key := .random n, order := n }

/-- The cores of clusters that a partition gains are bound to their virtual cores. -/
def State.bindCores (s : State) (p : Nat) (only : List Nat) : State :=
  let l := (s.part p).lay
  l.vcores.foldl (fun s v => match l.coreOf v with
    | some c => if only.contains (clusterOf c) then s.modCore c fun k => { k with part := p, vcore := v } else s
    | none => s) s

/-- An entry's effect at Switch on this module. -/
def State.switchEntry (s : State) (f : Forme) (e : PlanEntry) : State :=
  let old := Tbl.find f.members e.member
  let leaves := old.any fun r => r.fab == s.fabAddr
  let p := e.part
  let l := ((s.part p).layNew).getD (entryLayout e)
  if e.action = actReshape ∧ leaves then
    let before := (s.part p).lay.clusters
    let s := s.modPart p fun q => { q with layOld := some q.lay, lay := l, layNew := none }
    s.bindCores p (l.clusters.filter fun c => !before.contains c)
  else if e.action = actRemove then s
  else
    let s := match e.action == actMove && leaves, old with
      | true, some r => s.modPart r.part fun q => { q with movedTo := some e.fab }
      | _, _ => s
    if e.fab = s.fabAddr then
      let from_ := if e.action = actMove then old.map fun r => (r.fab, r.part) else none
      let s := s.modPart p fun _ => { Partition.reset with inUse := true, forme := f.id, member := e.member, lay := l, movedFrom := from_ }
      (s.drawPartKey p).bindCores p l.clusters
    else s

/-- An entry's effect at the Switch of epoch E+2 (R275): the placement of E is current again. -/
def State.unswitchEntry (s : State) (f : Forme) (e : PlanEntry) : State :=
  let old := Tbl.find f.membersOld e.member
  if e.action = actReshape ∧ e.fab = s.fabAddr then
    s.modPart e.part fun q => match q.layOld with
      | some o => { q with lay := o, layOld := some q.lay }
      | none => q
  else
    match old with
    | some r => if e.action = actMove ∧ r.fab = s.fabAddr then s.modPart r.part fun q => { q with movedTo := none } else s
    | none => s

/-- SWITCH (R262): issuers stamp the new epoch, and the one before it drains. Ceilings are recomputed (R435). -/
def State.switch (s : State) (m : CompMsg) : State :=
  s.compIn 0x25 m fun s =>
    let id := m.formeId.toNat
    match s.forme id with
    | none => s
    | some f =>
      match f.change, f.membersNew with
      | some c, some (epoch, members) =>
        let again := c.switched
        let s := c.own.foldl (fun s e => if again then s.unswitchEntry f e else s.switchEntry f e) s
        let now := s.ltime
        let s := s.modForme id fun f => { f with
          epoch := epoch, draining := some f.epoch, members := members, membersNew := none
          membersOld := if again then f.membersOld else f.members
          peerTimeout := if again ∨ c.hdr.peerTimeout = 0 then f.peerTimeout else c.hdr.peerTimeout
          change := some { c with switched := true, restored := again, switchedAt := now, drainReported := false, moving := false,
                                  movedSent := false } }
        let chans := distinct (c.own.flatMap fun e => if e.fab = s.fabAddr then onesOf e.channels else [])
        let s := chans.foldl (fun s ch => (s.commitChannel ch).scaleNow ch) s
        let mine := distinct (c.own.flatMap fun e => if e.fab = s.fabAddr then (s.part e.part).lay.clusters else [])
        let s := mine.foldl (fun s k => s.withdraw k 20) s
        s.answerComp 0x25 m 0x26 epoch 0 0
      | _, _ => s.synCount s.lowestCluster .badmsg

/-! ### Drain (R256, R263) -/

/-- Whether a request of this module that carries an epoch of a forme is outstanding (R256). -/
def State.epochBusy (s : State) (id epoch : Nat) : Bool :=
  (s.peerOut.any fun o => o.forme == id && o.epoch == epoch) ||
    (s.waiting.any fun w => s.wants w && (s.part w.req.part).forme == id && w.req.epoch.toNat == epoch) ||
    s.engines.any fun e =>
      let mine (t : Stream) : Bool := (s.ctx t.ctx).forme == id && t.reqs.any fun r => r.epoch.toNat == epoch
      (e.2.active.any fun p => mine p.2) || e.2.ending.any mine || e.2.suspended.any mine

/-- EPOCH_DRAINED (R256): every counter of the draining epoch reads zero, and the member reports DRAINED. -/
def State.epochDrained (s : State) (id : Nat) : State :=
  match s.forme id with
  | none => s
  | some f =>
    match f.change, f.draining with
    | some c, some e =>
      if c.drainReported || s.epochBusy id e then s
      else
        (s.modChange id fun c => { c with drainReported := true }).sendComp 0x27 (s.compMsg c.master id c.cseq e)
    | _, _ => s

/-- Every member has drained: MOVE goes to the participants; an abort after Switch installs E+2 first (R275), whose MOVE names E+2, so that
it repeats nothing (assumption 71). -/
def State.drainEnd (s : State) (id : Nat) : State :=
  match s.forme id with
  | none => s
  | some f =>
    match f.change with
    | none => s
    | some c =>
      let done := (c.alive c.mods).all fun m => c.drained.contains m
      if c.step == .drain && done then
        s.enterStep id .move 0x28 (if c.undo then f.epoch else 0) false
      else if c.step == .aborting && c.undo && done && c.allIn c.mods then
        (s.modChange id fun c => { c with drained := [] }).toInstall id
      else s

/-- A SWITCHED that is taken (R260). -/
def State.switchedIn (s : State) (m : CompMsg) : State :=
  let id := m.formeId.toNat
  let s := (s.gotAnswer 0x25 m).markAnswer id m.srcMod.toNat
  match (s.forme id).bind fun f => f.change with
  | some c =>
    let now := s.ltime
    if c.step == .switch && c.allIn c.mods then
      (s.modChange id fun c => { c with step := .drain, stepStart := now }).drainEnd id
    else s
  | none => s

/-- DRAINED (R263). -/
def State.drainedIn (s : State) (m : CompMsg) : State :=
  s.compIn 0x27 m fun s =>
    let id := m.formeId.toNat
    let s := s.ackComp 0x27 m
    (s.modChange id fun c => { c with drained := insertSorted m.srcMod.toNat c.drained }).drainEnd id

end Sys2Proof.Machine
end

