-- ==== Sys2Proof/Machine/FormeMove.lean ====
section
/-! DEFINITION. Step 5 of a change: what a MOVE carries, pulls and the sweeper, mini-switches, and what is forwarded from a moved
hub or queue (R264 to R270, R278, R279, R284). -/

namespace Sys2Proof.Machine

/-! ### Control messages, and hubs that have moved (R238, R265) -/

/-- Deliver a control message to the hub that it names (Table 08-4); a reserved opcode is discarded and counted. -/
def State.ctrlDispatch (s : State) (opc : Nat) (m : CtrlMsg) : State :=
  if opc = 0x01 then s.ctrlSignal m
  else if opc = 0x02 then s.ctrlAdd m
  else if opc = 0x03 then s.ctrlRead m
  else if opc = 0x04 then s.ctrlWaitMsg m
  else if opc = 0x05 then s.ctrlCancel m
  else if opc = 0x06 then s.ctrlRelease m
  else if opc = 0x10 then s.ctrlBarArrive m
  else if opc = 0x81 then s.ctrlResult m
  else if opc = 0x83 then s.ctrlReadAns m
  else if opc = 0x84 then s.ctrlWaitDone m
  else if opc = 0x90 then s.ctrlBarDone m
  else if m.dstMod.toNat ≠ s.fabAddr then s.emit (.ctrl opc m)
  else s.synCount s.lowestCluster .badmsg

/-- The cluster that a control message names, and the message with another in its place: the hub of an answer, or of a barrier
instance. A fence's home is found by its number. -/
def ctrlCluster (opc : Nat) (m : CtrlMsg) : Option Nat :=
  if opc = 0x10 ∨ opc = 0x90 then some (bits m.number.toNat 13 8)
  else if opc = 0x81 ∨ opc = 0x83 ∨ opc = 0x84 then some m.srcClu.toNat
  else none
def ctrlAt (opc : Nat) (m : CtrlMsg) (c : Nat) : CtrlMsg :=
  if opc = 0x10 ∨ opc = 0x90 then { m with number := BitVec.ofNat 32 (setBits m.number.toNat 13 8 c) }
  else { m with srcClu := BitVec.ofNat 6 c }

/-- The hub of this module that a control message is for: that of an answer or a barrier instance, or the home of its fence. -/
def State.ctrlHub (s : State) (opc : Nat) (m : CtrlMsg) : Option Nat :=
  if m.dstMod.toNat ≠ s.fabAddr then none
  else if 1 ≤ opc ∧ opc ≤ 6 then
    if (s.fence m.number.toNat).state = .free then none else some (s.fence m.number.toNat).home
  else ctrlCluster opc m

/-- Change the mini-switch of a tag. -/
def State.modMini (s : State) (id tag : Nat) (g : MiniSwitch → MiniSwitch) : State :=
  s.modChange id fun c => { c with minis := c.minis.map fun m => if m.tag = tag then g m else m }

/-- A control message reaches this module. One for a hub whose cluster is being moved here is held until the cluster resumes, and one for a
hub that has moved goes on to the target (R265). -/
def State.ctrlArrive (s : State) (opc : Nat) (m : CtrlMsg) : State :=
  let hub := s.ctrlHub opc m
  let named := if 1 ≤ opc ∧ opc ≤ 6 then none else hub
  match hub.bind s.pausing, named.bind fun c => s.movedHubs.find? fun e => e.2.srcClu == c with
  | some (id, tag), _ => s.modMini id tag fun k => { k with held := k.held ++ [(opc, m)] }
  | none, none => s.ctrlDispatch opc m
  | none, some (id, k) =>
    if k.dstMod = s.fabAddr then s.ctrlDispatch opc (ctrlAt opc m k.dstClu)
    else
      match (s.forme id).bind fun f => f.change with
      | none => s.ctrlDispatch opc m
      | some c =>
        s.sendComp 0x34 (s.compMsg k.dstMod id c.cseq 0 (w4 := k.dstClu + 2 ^ 16)
          (data := .fwdCtrl (BitVec.ofNat 8 opc) (ctrlAt opc m k.dstClu)))

/-! ### What a MOVE carries (R266) -/

/-- The new number of an old one. -/
def renumbered (rs : List Renumber) (queue : Bool) (old : Nat) : Nat :=
  match rs.find? fun r => r.queue == queue && r.old == old with
  | some r => r.new
  | none => old

/-- Give the contexts of a carried member new numbers. -/
def State.takeCtxs (s : State) (member p : Nat) : Tbl Context → List Renumber → State × List Renumber
  | [], rs => (s, rs)
  | (old, x) :: r, rs =>
    let n := s.freeCtxFrom 65536 s.lastCtx
    let serial := s.keySerial + 1
    let s := { s with ctxs := Tbl.set s.ctxs n { x with part := p, keySerial := serial }, lastCtx := n, keySerial := serial }
    State.takeCtxs s member p r (rs ++ [⟨member, old, n, false⟩])

/-- Give the queues of a carried member new numbers. -/
def State.takeQueues (s : State) (member : Nat) : Tbl Queue → List Renumber → State × List Renumber
  | [], rs => (s, rs)
  | (old, k) :: r, rs =>
    match (rangeFrom 1 8191).find? fun i => !(s.queue i).inUse with
    | none => State.takeQueues s member r rs
    | some i =>
      let gen := ((s.queue i).gen + 1) % 65536
      let s := { s with queues := Tbl.set s.queues i { k with ctx := renumbered rs false k.ctx, gen := gen } }
      State.takeQueues s member r (rs ++ [⟨member, old, i, true⟩])

/-- A context leaves with its member: what it holds on this module goes, without a loss (R266, R272). -/
def State.endCtx (s : State) (n : Nat) (imports : Bool) : State :=
  let mine := ((s.queues.filter fun e => e.2.inUse && decide (e.2.ctx = n) && decide (e.1 ≠ 0)).flatMap fun e => e.2.cmds.map fun d => (e.1, d.place))
  let s := if imports then
      let r := s.endCmds { status := St.teardown } mine
      r.1.settle r.2
    else s
  let s := (s.eraseCtx n).freeCtxParts n
  let s := if imports then s.fenceStep n else s
  s.freeCtx n

/-- What goes with a member is taken in at its target. -/
def State.takeCarry (s : State) (member p : Nat) (k : Carry) : State × List Renumber :=
  let a := s.takeCtxs member p k.ctxs []
  let b := a.1.takeQueues member k.queues a.2
  let dest := renumbered b.2 false
  let s := b.1.modPart p fun q => { q with
    regions := k.regions.map fun r => { r with owner := dest r.owner }
    allocs := k.allocs.map fun x => { x with ctx := dest x.ctx }
    windows := k.windows.map fun (w : Nat × KeyWindow) => (w.1, { w.2 with owner := dest w.2.owner })
    residency := k.residency
    budget := k.budget
    clockStep := k.clockStep }
  ({ s with jobs := s.jobs ++ k.jobs.filter fun j => (s.job j.forme j.id).isNone }, b.2)

/-- After an abort the contexts of partition `p` come back from another module under their old numbers, with what they have become there
(R275): those that have been torn down there go here, and those created there get numbers here. -/
def State.takeBack (s : State) (member p : Nat) (k : Carry) : State × List Renumber :=
  let stays (n : Nat) : Bool := (s.ctx n).state != .free && (s.ctx n).part == p
  let gone := (s.ctxs.filter fun e => e.2.state != .free && e.2.part == p && !(k.ctxs.any fun x => x.1 == e.1)).map fun e => e.1
  let s := gone.foldl (fun s n => s.endCtx n false) s
  let s := (k.ctxs.filter fun e => stays e.1).foldl (fun s e =>
    s.modCtx e.1 fun (o : Context) => { e.2 with part := p, keySerial := o.keySerial }) s
  let own (q : Nat) : Bool := (s.queue q).inUse && q != 0 && stays (s.queue q).ctx
  let closed := (s.queues.filter fun e => own e.1 && !(k.queues.any fun x => x.1 == e.1)).map fun e => e.1
  let s := closed.foldl (fun s q => s.freeQueue q) s
  let s := (k.queues.filter fun e => own e.1).foldl (fun s e =>
    s.modQueue e.1 fun (o : Queue) => { e.2 with ctx := o.ctx, gen := o.gen }) s
  let a := s.takeCtxs member p (k.ctxs.filter fun e => !stays e.1) []
  let b := a.1.takeQueues member (k.queues.filter fun e => !stays e.2.ctx) a.2
  let dest := renumbered b.2 false
  (b.1.modPart p fun q => { q with
    regions := k.regions.map fun r => { r with owner := dest r.owner }
    allocs := k.allocs.map fun x => { x with ctx := dest x.ctx }
    windows := k.windows.map fun (w : Nat × KeyWindow) => (w.1, { w.2 with owner := dest w.2.owner })
    residency := k.residency
    budget := k.budget
    clockStep := k.clockStep }, b.2)

/-! ### Planning the mini-switches (R252, R265) -/

/-- The pairs of clusters that a list of clusters and its successor bind to one place: those that differ. -/
def rebound (old new : List Nat) : List (Nat × Nat) := (old.zip new).filter fun e => e.1 ≠ e.2

/-- The mini-switches of an entry that begin at this module. -/
def State.minisOf (s : State) (f : Forme) (c : Change) (e : PlanEntry) : List MiniSwitch :=
  let new := onesOf e.clusters
  let mk (p dst : Nat) (pairs : List (Nat × Nat)) : List MiniSwitch :=
    pairs.zipIdx.map fun x => ⟨c.nextTag + x.2, p, s.fabAddr, x.1.1, dst, x.1.2, 0, 0, false, false, false, [], false, []⟩
  if e.action = actReshape ∧ e.fab = s.fabAddr then
    match (s.part e.part).layOld with
    | some o => mk e.part s.fabAddr (rebound o.clusters new)
    | none => []
  else if e.action = actMove then
    match Tbl.find f.membersOld e.member with
    | some r => if r.fab = s.fabAddr then mk r.part e.fab ((s.part r.part).lay.clusters.zip new) else []
    | none => []
  else []

/-- Plan every mini-switch that begins here. -/
def State.planMinis (s : State) (id : Nat) (es : List PlanEntry) : State :=
  es.foldl (fun s e =>
    match s.forme id with
    | none => s
    | some f =>
      match f.change with
      | none => s
      | some c =>
        let ms := s.minisOf f c e
        s.modChange id fun c => { c with minis := c.minis ++ ms, nextTag := c.nextTag + ms.length }) s

/-- The cores of a cluster whose mini-switch has been given up resume, and its streams go on (R275). -/
def State.resumeSource (s : State) (cl : Nat) : State :=
  let es := rangeFrom (4 * cl) 4
  let s := es.foldl (fun s e => s.modEngine e fun g => { g with
    stopped := false
    suspended := g.suspended.map fun (t : Stream) => if t.cause = 4 then { t with ready := true } else t }) s
  es.foldl (fun s c => s.resumeCore c) s

/-- The mini-switches that take back what has moved (R275); a cluster that had stopped and has not moved goes on. -/
def State.planReturns (s : State) (id : Nat) : State :=
  let ms := (((s.forme id).bind fun f => f.change).map fun c => c.minis).getD []
  let s := (ms.filter fun m => m.ready && !m.done && decide (m.srcMod = s.fabAddr)).foldl (fun s m => s.resumeSource m.srcClu) s
  s.modChange id fun c =>
    let back := (c.minis.filter fun m => m.done && m.carried && decide (m.dstMod = s.fabAddr)).zipIdx.map fun x =>
      (⟨c.nextTag + x.2, x.1.part, s.fabAddr, x.1.dstClu, x.1.srcMod, x.1.srcClu, 0, 0, false, false, false, [], false, []⟩ : MiniSwitch)
    { c with minis := back, nextTag := c.nextTag + back.length }

/-- Word 4 of the messages of a mini-switch. -/
def MiniSwitch.word (m : MiniSwitch) : Nat := m.srcClu + m.dstClu * 2 ^ 6 + (m.tag % 2 ^ 16) * 2 ^ 12

/-- Whether a partition is being reset (R278). -/
def State.resetting (s : State) (p : Nat) : Bool := decide ((s.part p).recovering ≠ 0)

/-- Whether a mini-switch of a change may begin now (R265, R278): its target cluster is not itself to be moved away, no gang switch is under
way and no partition reset, and the reservation of its member on VL1 of the path serves no other: within the module no path is needed. -/
def State.mayBegin (s : State) (f : Forme) (c : Change) (m : MiniSwitch) : Bool :=
  let own := c.minis.filter fun k => decide (k.srcMod = s.fabAddr) && !k.done
  own.contains m && !m.begun && f.switching.isNone && !s.resetting m.part &&
    !(own.any fun k => decide (k.srcClu = m.dstClu ∧ m.dstMod = s.fabAddr)) &&
    (decide (m.dstMod = s.fabAddr) || !(own.any fun k => k.begun && k.part == m.part))

/-- Begin the mini-switch of a tag, if it may begin. -/
def State.beginTag (s : State) (id tag : Nat) : State :=
  match s.forme id with
  | none => s
  | some f =>
    match f.change with
    | none => s
    | some c =>
      match c.minis.find? fun m => m.tag == tag && s.mayBegin f c m with
      | none => s
      | some m =>
        let ways := (s.cluster m.srcClu).csmWays
        let s := s.modMini id m.tag fun k => { k with begun := true, size := imageSize ways, ways := ways }
        let member := (s.part m.part).member
        s.sendComp 0x31 (s.compMsg m.dstMod id c.cseq 0 (member := some member) (w4 := m.word) (w5 := imageSize ways) (w6 := ways))

/-- Begin every mini-switch of a change that may begin: as many at once as the reservations allow (R265). -/
def State.beginMini (s : State) (id : Nat) : State :=
  match (s.forme id).bind fun f => f.change with
  | none => s
  | some c => (c.minis.map fun m => m.tag).foldl (fun s t => s.beginTag id t) s

/-- Mini-switches that a gang switch or a partition reset had put off begin (R278). -/
def State.goOnMinis (s : State) : State :=
  (s.formes.filter fun f => f.change.any fun c => c.moving).foldl (fun s f => s.beginMini f.id) s

/-- SWITCH_DONE (R310): with the end of a gang switch the mini-switches that it had put off begin (R278). -/
def State.switchEnds (s : State) (id member : Nat) : State :=
  let under (t : State) : Bool := (t.forme id).any fun f => f.switching.isSome
  let t := s.switchDone id member
  if under s && !under t then t.goOnMinis else t

/-- Gang switches that waited for mini-switches of their members are carried out (R278). -/
def State.undefer (s : State) (id : Nat) : State :=
  match (s.forme id).bind fun f => f.change with
  | none => s
  | some c =>
    let ready := c.deferred.filter fun e => !((s.partHere id e.1).any s.miniBusy)
    let s := s.modChange id fun c => { c with deferred := c.deferred.filter fun e => !ready.contains e }
    ready.foldl (fun s e => s.gangSwitch id e.1 e.2) s

/-! ### Chunks (R267 to R270) -/

/-- Whether a chunk of a partition moves in the change that is in progress. -/
def State.chunkMoves (s : State) (p chunk : Nat) : Bool :=
  let q := s.part p
  q.movedFrom.isSome || (match q.layOld with
    | some o => s.chunkMoved o q.lay chunk
    | none => false)

/-- The chunks of a partition that hold a live allocation, in rising order. -/
def Partition.liveChunks (q : Partition) : List Nat :=
  distinct (q.allocs.flatMap fun a => rangeFrom (a.base / 65536) ((a.base + a.size + 65535) / 65536 - a.base / 65536))

/-- Write where a chunk stands. -/
def State.setChunk (s : State) (id p chunk : Nat) (st : ChunkState) : State :=
  let live := st == .pulling && (s.part p).liveChunks.contains chunk
  s.modChange id fun c => { c with
    chunks := (c.chunks.filter fun r => !(r.part == p && r.chunk == chunk)) ++ [⟨p, chunk, st, live⟩] }

/-- The partitions of this module whose chunks a change moves here. -/
def State.targetsOf (s : State) (c : Change) : List Nat :=
  c.own.filterMap fun e => if e.fab = s.fabAddr ∧ (e.action = actReshape ∨ e.action = actMove) then some e.part else none

/-- Pull a chunk (R268, R269): within the module its pages are copied at completion; from another module each block is read by
READs of class 7, those of a re-keyed block for the context that owns it. -/
def State.startPull (s : State) (id p chunk : Nat) : State :=
  let s := s.setChunk id p chunk .pulling
  match (s.part p).movedFrom with
  | none => s
  | some (mod, _) =>
    let q := s.part p
    (List.range 256).foldl (fun s i =>
      let a := chunk * 65536 + 256 * i
      let n := (s.pullCtx p a).getD 0
      let k := s.takeTag 0
      let s := { k.2 with peerOut := k.2.peerOut ++
        [(⟨0, k.1, mod, id, q.member, (s.epochOf p).toNat, .pull p chunk (4 * i), k.2.ltime⟩ : PeerOut)] }
      s.sendPacket n { s.packet PT.read mod with
        cls := 7, epoch := s.epochOf p, formeId := BitVec.ofNat 32 id, member := BitVec.ofNat 16 q.member, tag := BitVec.ofNat 16 k.1,
        addr := BitVec.ofNat 40 a, len := 4 }) s

/-- Whether this module may pull a chunk now. -/
def State.pullable (s : State) (c : Change) (p chunk : Nat) : Bool :=
  c.moving && !c.quoined && !c.restored && (s.targetsOf c).contains p && s.chunkMoves p chunk &&
    (match c.chunk p chunk with
      | none | some .source => true
      | _ => false)

/-- DEMAND_PULL (R269). -/
def State.demandPull (s : State) (id p chunk : Nat) : State :=
  match (s.forme id).bind fun f => f.change with
  | some c => if s.pullable c p chunk then s.startPull id p chunk else s
  | none => s

/-- Mark the galley pages of a chunk fresh (R268, R279). -/
def State.freshGalley (s : State) (p chunk : Nat) : State :=
  (List.range 16).foldl (fun s i =>
    match s.locIn (s.part p).lay (chunk * 65536 + 4096 * i) with
    | some b => s.modChannel b.1 fun k => k.setFresh (b.2 / 8) true
    | none => s) s

/-- Galley pages in use that belong to moved chunks which were not pulled are marked fresh (R270). -/
def State.freshRest (s : State) (c : Change) (p : Nat) : State :=
  let l := (s.part p).lay
  l.channels.foldl (fun s ch =>
    (s.channel ch).used.foldl (fun s pg =>
      match l.addrOf ch pg with
      | some a => if s.chunkMoves p (a / 65536) && c.chunk p (a / 65536) != some .held then s.modChannel ch fun k => k.setFresh pg true else s
      | none => s) s) s

/-- Whether step 5 is done here: every moved chunk with a live allocation is HELD or skipped, none is being pulled, and every
mini-switch is done. -/
def State.moveDone (s : State) (c : Change) : Bool :=
  c.minis.all (fun m => m.done) &&
    (c.restored || (s.targetsOf c).all fun p =>
      (s.part p).liveChunks.all (fun k => !s.chunkMoves p k || (match c.chunk p k with
        | some .held | some .skipped => true
        | _ => false)) &&
      !(c.chunks.any fun r => r.part == p && r.state == .pulling) &&
      ((s.part p).movedFrom.isNone || decide ((s.part p).lay.clusters.length ≤ (c.minis.filter fun m => m.part == p && m.done).length)))

/-- Return MOVED once step 5 is done (R270). -/
def State.tryMoved (s : State) (id : Nat) : State :=
  match (s.forme id).bind fun f => f.change with
  | none => s
  | some c =>
    if c.moving && !c.movedSent && s.moveDone c then
      let s := (s.targetsOf c).foldl (fun s p => s.freshRest c p) s
      let s := s.modChange id fun c => { c with movedSent := true }
      let epoch := if c.restored then ((s.forme id).map fun f => f.epoch).getD 0 else 0
      s.sendComp 0x29 (s.compMsg c.master id c.cseq epoch (w4 := c.renumber.length) (data := .moved c.renumber c.chunksMoved c.lostCtx))
    else s

/-- SWEEPER (R270): the next moved chunk that is still SOURCE and holds a live allocation is pulled. -/
def State.sweeper (s : State) (id : Nat) : State :=
  match (s.forme id).bind fun f => f.change with
  | none => s
  | some c =>
    match (s.targetsOf c).findSome? fun p => ((s.part p).liveChunks.find? fun k => s.pullable c p k).map fun k => (p, k) with
    | some (p, k) => s.startPull id p k
    | none => s.tryMoved id

/-- The source page of a page that moves within the module: its own place in the old layout, or, where that channel has been fenced off, the
place of the other copy of a mirrored region (R206, R269, R274). -/
def State.landSource (s : State) (p a : Nat) (old : Layout) : Option Loc :=
  let q := s.part p
  let other := match q.secondaryOf a with
    | some r => [a, a - r.mbase + r.base]
    | none => q.copyAddrs a
  (other.filterMap fun x => s.locIn old x).find? fun b => !(s.channel b.1).fenced

/-- One page of a pulled chunk lands from this module's own source page, in every target copy. One that no channel holds any more is
poisoned where a refill source or an epoch gives it back, and fresh where it is lost. -/
def State.landLocal (s : State) (p a : Nat) (old : Layout) : State :=
  let q := s.part p
  (q.copyAddrs a).foldl (fun s x =>
    match s.landSource p a old, s.locIn q.lay x with
    | none, some b =>
      if s.backedIn p old a then
        (List.range 8).foldl (fun s i => s.modBlock (b.1, b.2 / 8 * 8 + i) fun k => { k with poison := true })
          (s.modChannel b.1 fun k => k.setFresh (b.2 / 8) false)
      else s.modChannel b.1 fun k => k.setFresh (b.2 / 8) true
    | some o, some b =>
      if s.freshAt o then s.modChannel b.1 fun k => k.setFresh (b.2 / 8) true
      else
        let s := s.modChannel b.1 fun k => k.setFresh (b.2 / 8) false
        (List.range 8).foldl (fun s i =>
          let k := s.blockAt (o.1, o.2 / 8 * 8 + i)
          s.modBlock (b.1, b.2 / 8 * 8 + i) fun _ => { k with buffered := false }) s
    | _, _ => s) s

/-- One page lands from another module: `landed` gives its blocks, by their place in the chunk. A page of which none has come is
fresh. A re-keyed block is sealed under this module's key with the WEPOCH it came with (R268). -/
def State.landFar (s : State) (p chunk page : Nat) (landed : Tbl Block) : State :=
  let a := chunk * 65536 + 4096 * page
  let q := s.part p
  let mine := landed.filter fun e => e.1 / 8 == page
  (q.copyAddrs a).foldl (fun s x =>
    match s.locIn q.lay x with
    | none => s
    | some b =>
      if mine.isEmpty then s.modChannel b.1 fun k => k.setFresh (b.2 / 8) true
      else
        let s := s.modChannel b.1 fun k => k.setFresh (b.2 / 8) false
        mine.foldl (fun s e =>
          let at_ := a + 512 * (e.1 % 8)
          let sel := s.selectKey p at_
          let k := if (sel.handle ≤ 0x31 ∨ sel.handle = 0x03F) ∧ e.2.sealedBy.isSome ∧ !e.2.poison then
              { e.2 with sealedBy := some (s.sealFor p at_) }
            else e.2
          s.modBlock (b.1, b.2 / 8 * 8 + e.1 % 8) fun _ => { k with buffered := false }) s) s

/-- Whether a chunk that is being pulled has been freed during the pull (R279). -/
def State.freedInPull (s : State) (c : Change) (p chunk : Nat) : Bool :=
  (c.chunks.any fun r => r.part == p && r.chunk == chunk && r.live) && !(s.part p).liveChunks.contains chunk

/-- PULL_COMPLETE (R269): the sixteen pages have landed and the chunk is HELD; one that was freed meanwhile has its galley pages
marked fresh (R279). -/
def State.pullComplete (s : State) (id p chunk : Nat) (landed : Tbl Block) : State :=
  match (s.forme id).bind fun f => f.change with
  | none => s
  | some c =>
    if c.chunk p chunk != some .pulling then s
    else
      let s := { s with peerOut := s.peerOut.filter fun o => match o.use with
        | .pull a b _ => !(a == p && b == chunk)
        | _ => true }
      if s.freedInPull c p chunk then ((s.freshGalley p chunk).setChunk id p chunk .skipped).tryMoved id
      else
        let s := match (s.part p).layOld with
          | some o => (List.range 16).foldl (fun (s : State) i => s.landLocal p (chunk * 65536 + 4096 * i) o) s
          | none => (List.range 16).foldl (fun (s : State) i => s.landFar p chunk i landed) s
        let s := s.setChunk id p chunk .held
        (s.modChange id fun c => { c with chunksMoved := c.chunksMoved + 1 }).tryMoved id

/-! ### MOVE (R269) -/

/-- What a MOVE entry carries (R266, R275), where `old` is the member map of the epoch before the change: its contexts come to the target
and are away from the source, and after an abort they come back. -/
def State.carryEntry (s : State) (id : Nat) (old : Tbl MemberRec) (back : Bool) (carry : Tbl Carry) (e : PlanEntry) : State :=
  let source := (Tbl.find old e.member).bind fun r => if r.fab = s.fabAddr then some r.part else none
  let note (t : State × List Renumber) : State := t.1.modChange id fun c => { c with renumber := c.renumber ++ t.2 }
  match source, Tbl.find carry e.member with
  | some p, k =>
    if back then
      let s := s.modPart p fun q => { q with away := none }
      match k with
      | some k => note (s.takeBack e.member p k)
      | none => s
    else s.modPart p fun q => { q with away := some e.fab }
  | none, some k => if e.fab = s.fabAddr ∧ !back then note (s.takeCarry e.member e.part k) else s
  | none, none => s

/-- A MOVE that is taken: the targets become the ordering points; `carry` gives what goes with each member that moves here. -/
def State.move (s : State) (m : CompMsg) (carry : Tbl Carry) : State :=
  let id := m.formeId.toNat
  let s := s.ackComp 0x28 m
  match (s.forme id).bind fun f => f.change with
  | none => s
  | some c =>
    let s := s.modForme id fun f => { f with draining := none }
    let s := s.modChange id fun c => { c with moving := true }
    let old := (((s.forme id).map fun f => f.membersOld).getD [])
    let s := c.own.foldl (fun s e => if e.action = actMove then s.carryEntry id old c.restored carry e else s) s
    let s := if c.restored then s.planReturns id else s.planMinis id c.own
    (s.beginMini id).tryMoved id

/-! ### Mini-switches (R265, R284) -/

/-- The mini-switch of a tag. -/
def State.mini (s : State) (id tag : Nat) (p : MiniSwitch → Bool) : Option MiniSwitch :=
  ((s.forme id).bind fun f => f.change).bind fun c => c.minis.find? fun m => m.tag == tag && p m

/-- MS_BEGIN: the target prepares, and answers MS_READY. -/
def State.msBegin (s : State) (m : CompMsg) : State :=
  s.compIn 0x31 m fun s =>
    let id := m.formeId.toNat
    let w := m.w4.toNat
    let p := ((m.member.map fun x => x.toNat).bind fun x => s.partHere id x).getD 0
    let s := if m.srcMod.toNat = s.fabAddr then s else
      s.modChange id fun c => { c with minis := c.minis ++
        [⟨bits w 27 12, p, m.srcMod.toNat, bits w 5 0, s.fabAddr, bits w 11 6, m.w5.toNat, m.w6.toNat, true, true, false, [], false, []⟩] }
    s.answerComp 0x31 m 0x32 0 0 w

/-- Whether a cluster has come to rest. -/
def State.clusterAtRest (s : State) (c : Nat) : Bool :=
  (rangeFrom (4 * c) 4).all (fun k => match (s.core k).ctl with
    | .running | .blocked _ | .halting => false
    | _ => true) &&
  (rangeFrom (4 * c) 4).all fun e => (s.engine e).atRest

/-- Send the state image of a cluster in STATE packets (R284, R420), for the context whose link key seals it. -/
def State.sendImage (s : State) (id : Nat) (k : MiniSwitch) : State :=
  let m := s.stateImage k.srcClu
  let member := (s.part k.part).member
  let n := ((rangeFrom (4 * k.srcClu) 4).map fun c => (s.core c).ctx).find? fun n => n != 0
  (imageOffsets k.ways).foldl (fun s ofs =>
    let lines := imageLines m ofs
    s.sendPacket (n.getD 0) { s.packet PT.state k.dstMod with
      cls := 7, srcClu := BitVec.ofNat 6 k.srcClu, formeId := BitVec.ofNat 32 id, member := BitVec.ofNat 16 member,
      tag := BitVec.ofNat 16 k.tag, addr := BitVec.ofNat 40 ofs, len := 4, lines := lines }) s

/-- MS_READY: the source stops the four cores and suspends the streams; once they are at rest the state is carried. Until then
MS_BEGIN stays unanswered and is repeated (R282). -/
def State.msReady (s : State) (m : CompMsg) : State :=
  s.compIn 0x32 m fun s =>
    let id := m.formeId.toNat
    let tag := bits m.w4.toNat 27 12
    match s.mini id tag fun k => k.srcMod == s.fabAddr && !k.carried with
    | none => s
    | some k =>
      let s := s.modMini id tag fun k => { k with ready := true }
      let s := (rangeFrom (4 * k.srcClu) 4).foldl (fun s e => s.suspendEngine e 4) (s.stopCluster k.srcClu)
      if !s.clusterAtRest k.srcClu then s
      else
        let s := (s.gotAnswer 0x31 m).modMini id tag fun k => { k with carried := true }
        if k.dstMod = s.fabAddr then s else s.sendImage id k

/-- STATE (R284): the lines land at their image offset; `none` where no mini-switch here takes them. -/
def State.stateIn (s : State) (p : Packet) : Option State :=
  let id := p.formeId.toNat
  match s.mini id p.tag.toNat fun k => k.dstMod == s.fabAddr && k.srcMod == p.srcMod.toNat && !k.done with
  | none => none
  | some k =>
    let at_ := p.addr.toNat
    let lines := p.lines.zipIdx.map fun e => (at_ + 64 * e.2, e.1)
    some (s.modMini id k.tag fun k => { k with image := (k.image.filter fun e => !(lines.any fun l => l.1 == e.1)) ++ lines })

/-- A core of a cluster among four, at another cluster. -/
def atCluster (src dst c : Nat) : Nat := if c / 4 = src then 4 * dst + c % 4 else c

/-- An operation of a hub on a remote fence, the core or the engine that it serves renumbered. -/
def RemoteOp.moved (f : Nat → Nat) (r : RemoteOp) : RemoteOp :=
  { r with core := r.core.map f, stream := r.stream.map fun (x : Nat × Nat) => (f x.1, x.2) }

/-- Move the four cores, the scratch part, the hub and the streams of a cluster to another of this module (R265). -/
def State.moveCluster (s : State) (p src dst : Nat) : State :=
  let s := (List.range 4).foldl (fun s k =>
    let core := s.core (4 * src + k)
    (s.setCore (4 * dst + k) { core with part := p }).setCore (4 * src + k) Core.reset) s
  let old := s.cluster src
  let keep := (16 - old.csmWays) * 524288
  let s := s.modCluster dst fun k => { k with
    scratch := old.scratch.filter fun c => decide (c.1 < keep)
    csmWays := old.csmWays, csmBad1 := old.csmBad1, csmBad2 := old.csmBad2
    hub := { k.hub with bars := old.hub.bars, remote := old.hub.remote.map (RemoteOp.moved (atCluster src dst)), nextTag := old.hub.nextTag } }
  let hot := old.hub.hot.map fun e => e.1
  let s := hot.foldl (fun s n => s.hotWriteback n) s
  let home := (s.part p).lay.clusters.headD dst
  let mine := (s.fences.filter fun e => e.2.home == src && e.2.state != .free && decide ((s.ctx e.2.owner).part = p)).map fun e => e.1
  let s := mine.foldl (fun s n => s.modFence n fun f => { f with home := home }) s
  let s := if home = dst then s.modHub dst fun h => { h with hot := h.hot ++ (hot.filter fun n => mine.contains n).map fun n => (n, false) } else s
  let s := s.modCluster src fun k => { k with hub := { Hub.reset with cnt := k.hub.cnt }, scratch := [], csmBad1 := [], csmBad2 := [] }
  let s := (List.range 4).foldl (fun s j =>
    let old := s.engine (4 * src + j)
    let out := old.held.map fun (t : Stream) => { t with core := atCluster src dst t.core, ready := true }
    let descs := old.queue.map fun (q : QueuedDesc) => { q with core := atCluster src dst q.core }
    let s := s.modEngine (4 * dst + j) fun g => out.foldl StreamEngine.adopt { g with queue := g.queue ++ descs, stopped := false }
    s.modEngine (4 * src + j) fun g => { g with suspended := [], active := [], queue := [], order := [], stopped := false }) s
  let s := { s with
    barWaits := s.barWaits.map fun (w : BarWait) => if w.cluster = src then { w with cluster := dst } else w
    agent := { s.agent with table := s.agent.table.map fun (e : Nat × PageReq) =>
      (e.1, { e.2 with waiters := e.2.waiters.map fun w => (atCluster src dst w.1, w.2) })
                            queue := s.agent.queue.map fun (w : PageWait) => w.moved (atCluster src dst) }
    queues := s.queues.map fun (e : Nat × Queue) => (e.1, { e.2 with cmds := e.2.cmds.map fun (d : Cmd) =>
      { d with run := d.run.map fun r => { r with cores := r.cores.map (atCluster src dst) } } }) }
  (rangeFrom (4 * dst) 4).foldl (fun s c => s.resumeCore c) s

/-- The image of a mini-switch as bytes. -/
def MiniSwitch.bytes (k : MiniSwitch) : Mem := k.image.foldl (fun m e => m.writeLE e.1 64 e.2.toNat) []

/-- Bundles that an image's instruction memory fills. -/
def imageCode (m : Mem) (o : Nat) : Nat :=
  (takeTbl (w := 256) m (o + 0xA10000) 32 8192).foldl (fun a e => max a (e.1 + 1)) 0

/-- Restore a cluster from an image that another module has sent. -/
def State.restoreImage (s : State) (id : Nat) (k : MiniSwitch) (notes : List CtlNote) (bars : List BarNote) : State :=
  let m := k.bytes
  let p := k.part
  let member := (s.part p).member
  let n := ((s.forme id).bind fun f => f.running.bind fun j => s.jobCtxAt id j member).getD 0
  let l := (s.part p).lay
  let base := l.vcoreBase + 4 * l.clusters.findIdx fun c => c == k.dstClu
  let s := (List.range 4).foldl (fun s i =>
    let note := notes.getD i { active := false, halting := false, redo := false }
    let o := 0xA80000 * i
    s.setCore (4 * k.dstClu + i) (takeCore m o n p (base + i) (imageCode m o) note)) s
  let rs := (((s.forme id).bind fun f => f.change).map fun c => c.renumber).getD []
  let old := (s.cluster k.dstClu).hub.bars
  let table : Tbl Barrier := (List.range 256).filterMap fun i =>
    let w := m.readLE (0x3208000 + 16 * i) 16
    let b := takeBarrier w (bars.find? fun b => b.inst == i)
    -- a hub that a return finds still has the instances that left it, with the numbers of their contexts here
    let owner := match Tbl.find old i with
      | some o => if o.conf then o.owner else renumbered rs false b.owner
      | none => renumbered rs false b.owner
    if w = 0 then none else some (i, { b with owner := owner })
  let s := s.modCluster k.dstClu fun c => { c with
    scratch := takeMem m 0x2A00000 ((16 - k.ways) * 524288), csmWays := k.ways, csmBad1 := [], csmBad2 := []
    hub := { c.hub with bars := table } }
  let s := (List.range 4).foldl (fun s j =>
    let note := notes.getD j { active := false, halting := false, redo := false }
    let s := (List.range 24).foldl (fun s i =>
      let sid := s.number
      match takeStream m (0x3209000 + (24 * j + i) * 256) n k.dstClu sid.1 (note.streams.getD i ⟨0, 0, 0⟩) with
      | some t => sid.2.modEngine (4 * k.dstClu + j) fun g => g.adopt t
      | none => s) s
    s.modEngine (4 * k.dstClu + j) fun g => { g with queue := g.queue ++ note.descs, stopped := false }) s
  (rangeFrom (4 * k.dstClu) 4).foldl (fun s c => s.resumeCore c) s

/-- Whether every line of an image has arrived. -/
def MiniSwitch.whole (k : MiniSwitch) : Bool := (imageOffsets k.ways).all fun o => k.image.any fun e => e.1 == o

/-- MINI_SWITCH_RESTORE (R265): with the whole state held, the target restores it, resumes the cores and sends MS_DONE to the source
and the master. `notes` and `bars` give what the tables of the image leave out. -/
def State.miniRestore (s : State) (id tag : Nat) (notes : List CtlNote) (bars : List BarNote) : State :=
  match (s.forme id).bind fun f => f.change with
  | none => s
  | some c =>
    match s.mini id tag fun k => k.dstMod == s.fabAddr && !k.done &&
        (if k.srcMod = s.fabAddr then k.carried else k.whole) with
    | none => s
    | some k =>
      let s := if k.srcMod = s.fabAddr then s.moveCluster k.part k.srcClu k.dstClu else s.restoreImage id k notes bars
      let s := s.modMini id tag fun k => { k with done := true, carried := true, image := [], held := [] }
      let s := k.held.foldl (fun s e => s.ctrlArrive e.1 e.2) s
      let s := (distinct [k.srcMod, c.master]).foldl (fun s d => s.sendComp 0x33 (s.compMsg d id c.cseq 0 (w4 := k.word))) s
      (s.undefer id).tryMoved id

/-- Cores of a cluster that has left for another module: RUNs that hold them go on with their virtual cores there. -/
def State.leaveCluster (s : State) (src : Nat) : State :=
  let name (c : Nat) : Nat × Nat := ((s.part (s.core c).part).member, (s.core c).vcore)
  { s with queues := s.queues.map fun (e : Nat × Queue) => (e.1, { e.2 with cmds := e.2.cmds.map fun (d : Cmd) =>
      { d with run := d.run.map fun r => { r with
        cores := r.cores.filter fun c => decide (c / 4 ≠ src)
        remote := r.remote ++ (r.cores.filter fun c => decide (c / 4 = src)).map name } } }) }

/-- MS_DONE (R265): the source records that the cluster has moved, and begins its next mini-switch. -/
def State.msDone (s : State) (m : CompMsg) : State :=
  s.compIn 0x33 m fun s =>
    let id := m.formeId.toNat
    let tag := bits m.w4.toNat 27 12
    let s := s.ackComp 0x33 m
    match s.mini id tag fun k => k.srcMod == s.fabAddr && k.carried with
    | none => s
    | some k =>
      let s := if k.dstMod = s.fabAddr ∨ k.done then s else s.leaveCluster k.srcClu
      (((s.modMini id tag fun k => { k with done := true }).undefer id).beginMini id).tryMoved id

/-- FWD (R265, R266): a doorbell for an old queue number rings the new queue, a control message reaches the moved hub. -/
def State.fwd (s : State) (m : CompMsg) : State :=
  s.compIn 0x34 m fun s =>
    let s := s.ackComp 0x34 m
    match m.data with
    | .fwdDoorbell v =>
      let rs := (((s.forme m.formeId.toNat).bind fun f => f.change).map fun c => c.renumber).getD []
      let q := renumbered rs true (bits m.w4.toNat 15 0)
      s.ring q (bits v.toNat 15 0 + (s.queue q).gen * 65536) (s.queue q).conn
    | .fwdCtrl opc c => s.ctrlArrive opc.toNat { c with dstMod := BitVec.ofNat 16 s.fabAddr }
    | _ => s

/-- A doorbell write (R292): one for a queue of a context that has moved goes on to its module until release, unless its GEN is not that of
the old number (R266). -/
def State.doorbell (s : State) (q v conn : Nat) : State :=
  let x := s.ctx (s.queue q).ctx
  match q != 0 && (s.queue q).inUse, (s.part x.part).away, (s.forme x.forme).bind fun f => f.change with
  | true, some dst, some c =>
    if bits v 31 16 == (s.queue q).gen then
      s.sendComp 0x34 (s.compMsg dst x.forme c.cseq 0 (w4 := q) (data := .fwdDoorbell (BitVec.ofNat 64 v)))
    else s.ring q v conn
  | _, _, _ => s.ring q v conn

end Sys2Proof.Machine
end

