-- ==== Sys2Proof/Machine/FormeEnd.lean ====
section
/-! DEFINITION. The last steps of a change, its failures and its abort (R224, R271 to R277). -/

namespace Sys2Proof.Machine

/-! ### The completion (R276, R303) -/

/-- A forme that has no member on this module, and no change, is forgotten. -/
def State.dropForme (s : State) (id : Nat) : State :=
  { s with formes := s.formes.filter fun f => !(f.id == id && f.change.isNone && !(f.members.any fun e => e.2.fab == s.fabAddr)) }

/-- A plan without the channels that have been fenced off. -/
def State.withoutFenced (s : State) (es : List PlanEntry) : List PlanEntry :=
  es.map fun e => if e.fab = s.fabAddr then
      { e with channels := maskOf 384 ((onesOf e.channels).filter fun c => !(s.channel c).fenced) }
    else e

/-- A recovery report on the admin completion ring (R376), with renumbering in continuation entries (R303). -/
def State.sendReport (s : State) (status detail : Nat) (words : List Word64) (more : List (List Word64)) : State :=
  let last := more.length
  let main := completionHead status (if more.isEmpty then 0 else 8) 0 0 0 detail ++ [0, 0] ++ padWords 4 words
  s.pushGroup 0 ⟨0, 0, main :: more.zipIdx.map fun e =>
    completionHead 0 (if e.2 + 1 = last then 0 else 8) 0 0 0 detail ++ padWords 6 e.1⟩

/-- Words 4 to 6 of a recovery report (R376). -/
def State.reportWords (s : State) (f : Forme) : List Word64 :=
  [BitVec.ofNat 64 (f.id + f.rolledJobs.length * 2 ^ 32),
   BitVec.ofNat 64 (f.failedMember.getD 0 + b2n f.failedMember.isSome * 2 ^ 16 + f.recLost * 2 ^ 32),
   BitVec.ofNat 64 (((s.ltime - f.recStart) / 1000) % 2 ^ 32)]

/-- The partitions of a forme here are no longer recovering (R356). -/
def State.recovered (s : State) (id : Nat) : State :=
  { s with parts := s.parts.map fun (e : Nat × Partition) => if e.2.forme = id then (e.1, { e.2 with recovering := 0 }) else e }

/-- No reserve fits: the forme is rolled back and does not resume, and the host must plan the resize (R373). -/
def State.needsResize (s : State) (id : Nat) : State :=
  match s.forme id with
  | none => s
  | some f => ((s.sendReport St.ctxLost 0x02 (s.reportWords f) []).modForme id fun f => { f with recStep := .needsResize }).recovered id

/-- A change is over at the master: its completion is written, AUTO_RESTART starts it again after a galley failure, and the next
recovery change begins (R274 to R277). -/
def State.finishChange (s : State) (id : Nat) : State :=
  match s.forme id with
  | none => s
  | some f =>
    match f.change with
    | none => s
    | some c =>
      let kept := if c.outcome = 0 ∨ c.outcome = 3 then c.entries else []
      let s := s.modForme id fun f => { f with
        change := none, membersOld := [], membersNew := none, draining := none
        plans := kept.foldl (fun t e => if e.action = actRemove then Tbl.del t e.member else Tbl.set t e.member e) f.plans }
      let again := c.hdr.autoRestart && c.outcome == 2 && c.reason == 0x41
      let epoch := f.epoch
      let status := if c.outcome = 0 then St.ok else if c.outcome = 1 then St.refused else St.composeFailed
      let detail := if c.outcome = 1 then c.reason else 0
      let payload := composeEntries c.outcome c.reason epoch id c.reasonMember c.lostCtx c.chunksMoved ((s.ltime - c.started) / 1000) c.renumber
      -- a change that a new master took over has no command here: its completion stands on the admin ring on its own (assumption 145)
      let s := match again, c.queue with
        | false, some place => s.finish 0 place { status := status, detail := detail, more := payload }
        | false, none => if c.recovery then s else s.sendReport status detail [] payload
        | true, _ => s
      let s := match c.recovery, f.report with
        | true, some (st, detail, ws) => (s.modForme id fun f => { f with report := none }).sendReport st detail ws
            (composeEntries c.outcome c.reason epoch id c.reasonMember c.lostCtx c.chunksMoved ((s.ltime - c.started) / 1000) c.renumber)
        | _, _ => s
      let s := if c.recovery ∧ f.recStep = .planned ∧ (c.outcome = 1 ∨ c.outcome = 2) then s.needsResize id else s
      if again then
        let es := s.withoutFenced c.entries
        s.startChange id { c.hdr with autoRestart := false, expectEpoch := epoch } es c.recovery c.queue
      else
        match f.recQueue with
        | es :: rest =>
          (s.modForme id fun f => { f with recQueue := rest }).startChange id (recoveryHeader { f with epoch := epoch } es.length) es true none
        | [] => s.dropForme id

/-! ### Quoin (R224, R271) -/

/-- MOVED (R271): with the last one the quoin decision is recorded; an abort goes on to its release. -/
def State.movedIn (s : State) (m : CompMsg) : State :=
  s.compIn 0x29 m fun s =>
    let id := m.formeId.toNat
    let s := (s.ackComp 0x29 m).markAnswer id m.srcMod.toNat
    let s := match m.data with
      | .moved rs chunks lost =>
        -- what this module counted as a participant stands in the change already
        let far := decide (m.srcMod.toNat ≠ s.fabAddr)
        s.modChange id fun c => { c with
          renumber := c.renumber ++ rs.filter fun r => !c.renumber.contains r
          chunksMoved := if far then c.chunksMoved + chunks else c.chunksMoved
          lostCtx := if far then c.lostCtx + lost else c.lostCtx }
      | _ => s
    match s.forme id with
    | none => s
    | some f =>
      match f.change with
      | none => s
      | some c =>
        if c.step != .move || !c.allIn c.parts then s
        else if c.undo then s.enterStep id .release 0x2C f.epoch false
        else (s.modChange id fun c => { c with decided := true }).enterStep id .quoin 0x2A f.epoch false

/-- The homes of the fences of a partition's contexts leave the clusters that it loses (R224). -/
def State.moveHomes (s : State) (p : Nat) (gone : List Nat) : State :=
  let mine := (s.fences.filter fun e => e.2.state != .free && gone.contains e.2.home && decide ((s.ctx e.2.owner).part = p)).map fun e => e.1
  match (s.part p).lay.clusters with
  | [] => s.settle (mine.map .fenceErr)
  | h :: _ => mine.foldl (fun s n =>
      let old := (s.fence n).home
      ((s.hotWriteback n).modHub old fun k => { k with hot := k.hot.filter fun e => e.1 ≠ n }).modFence n fun f => { f with home := h }) s

/-- Clusters that a reshaped partition no longer has. -/
def Partition.lostClusters (q : Partition) : List Nat :=
  match q.layOld with
  | some o => o.clusters.filter fun c => !q.lay.clusters.contains c
  | none => []

/-- At the quoin of a RESHAPE, a mirrored region whose two copies lie on channels that serve, of different stacks, is whole again (R206). -/
def State.mendMirrors (s : State) (p : Nat) : State :=
  let l := (s.part p).lay
  let out := l.channels.filter fun ch => (s.channel ch).fenced
  let mend (r : Region) : Region :=
    if r.degraded && !(out.any fun ch => l.regionOn r ch) && l.apart r.base r.mbase r.length then { r with degraded := false } else r
  s.modPart p fun q => { q with regions := q.regions.map mend }

/-- A channel that was fenced off while a change was decided and not quoined here is lost with the quoin (R274). -/
def State.dropLate (s : State) (p : Nat) : State :=
  ((s.part p).lay.channels.filter fun ch => (s.channel ch).fenced).foldl (fun s ch =>
    let r := s.dropServing p ch true
    r.1.settle r.2) s

/-- What QUOIN does to an entry of this module. -/
def State.quoinEntry (s : State) (e : PlanEntry) : State :=
  if e.action = actRemove ∨ e.fab ≠ s.fabAddr then s
  else
    let s := if e.action = actReshape then (s.moveHomes e.part (s.part e.part).lostClusters).mendMirrors e.part else s
    s.dropLate e.part

/-- QUOIN (R271): the galley pages become the chunks' pages and write-through ends. -/
def State.quoin (s : State) (m : CompMsg) : State :=
  s.compIn 0x2A m fun s =>
    let id := m.formeId.toNat
    match (s.forme id).bind fun f => f.change with
    | none => s
    | some c =>
      let s := s.modChange id fun c => { c with quoined := true }
      let s := c.own.foldl (fun s e => s.quoinEntry e) s
      s.answerComp 0x2A m 0x2B m.epoch.toNat 0 0

/-- QUOINED (R272). -/
def State.quoinedIn (s : State) (m : CompMsg) : State :=
  s.compIn 0x2B m fun s =>
    let id := m.formeId.toNat
    let s := (s.gotAnswer 0x2A m).markAnswer id m.srcMod.toNat
    match (s.forme id).bind fun f => f.change with
    | some c => if c.step == .quoin && c.allIn c.parts then s.enterStep id .release 0x2C m.epoch.toNat false else s
    | none => s

/-! ### Release (R272, R337, R416) -/

/-- A cluster becomes idle: its cores are bound to no partition, and its hub keeps nothing. -/
def State.idleCluster (s : State) (c : Nat) : State :=
  let s := (rangeFrom (4 * c) 4).foldl (fun s k => ((s.dropGrants k).dropWaits (Waiter.ofCore k)).modCore k fun old =>
    { Core.reset with lmCorr := old.lmCorr, accCorr := old.accCorr }) s
  s.modCluster c fun k => { k with
    scratch := [], csmBad1 := [], csmBad2 := [], cache := [], calls := [], hub := { Hub.reset with cnt := k.hub.cnt } }

/-- The slots of a partition at channels that it does not bind are cleared. -/
def State.clearSlots (s : State) (p : Nat) (chans : List Nat) : State :=
  chans.foldl (fun s ch => s.modChannel ch fun k => { k with regs := Tbl.del k.regs p }) s

/-- A partition ceases to exist on this module: its contexts, its PARTITION key, its clusters and its slots. -/
def State.destroyPart (s : State) (p : Nat) (imports : Bool) : State :=
  let l := (s.part p).lay
  let ns := (s.ctxs.filter fun e => e.2.state != .free && decide (e.2.part = p)).map fun e => e.1
  let s := ns.foldl (fun s n => s.endCtx n imports) s
  let r := s.endResidency p
  let s := (r.1.settle r.2).destroyKey (2 + p)
  let s := (l.clusters.foldl (fun s c => s.idleCluster c) s).clearSlots p l.channels
  let s := { s with clusters := s.clusters.map fun (e : Nat × Cluster) => (e.1, { e.2 with cache := e.2.cache.filter fun x => !x.ofPart p }) }
  { s with
    parts := Tbl.del s.parts p
    power := { s.power with partEnergy := Tbl.del s.power.partEnergy p, waitSlots := Tbl.del s.power.waitSlots p } }

/-- Staged keys of a member that has come are claimed by its contexts (R416). -/
def State.claimStaged (s : State) (id member p : Nat) : State :=
  let owner (k : KeyEntry) : Option Nat :=
    (s.ctxs.find? fun e => e.2.state != .free && decide (e.2.part = p) &&
      decide ((Tbl.get (⟨0, 0, [], []⟩ : Session) s.sessions e.2.session).serial = k.stageSession)).map fun e => e.1
  let mine := s.keys.filter fun e => e.2.staged && decide (e.2.stageForme = id) && decide (e.2.stageMember = member)
  mine.foldl (fun s e =>
    match owner e.2 with
    | some n =>
      let s := s.modKey e.1 fun k => { k with owner := n, staged := false }
      if e.2.current then s.makeCurrent e.1 else s
    | none => s) s

/-- A hub that has moved: module and cluster before and after. -/
structure HubMove where
  srcMod : Nat
  srcClu : Nat
  dstMod : Nat
  dstClu : Nat
deriving DecidableEq, Repr

/-- The hubs that a change moves as a module knows them: those of its own mini-switches, and at the master those of every entry
(assumption 142). -/
def Forme.hubMoves (f : Forme) (c : Change) (leads : Bool) : List HubMove :=
  ((c.minis.filter fun k => k.done && k.carried).map fun k => ⟨k.srcMod, k.srcClu, k.dstMod, k.dstClu⟩) ++
    if !leads ∨ c.restored then [] else c.entries.flatMap fun e =>
      match Tbl.find f.plans e.member with
      | some o =>
        if e.action = actReshape ∨ e.action = actMove then
          (((onesOf o.clusters).zip (onesOf e.clusters)).map fun x => (⟨o.fab, x.1, e.fab, x.2⟩ : HubMove)).filter fun h =>
            h.srcMod != h.dstMod || h.srcClu != h.dstClu
        else []
      | none => []

/-- The PARENT of barrier instances that named a moved hub is rewritten. -/
def State.rewriteParents (s : State) (ms : List HubMove) : State :=
  let dest (n : Nat) : Nat :=
    match ms.find? fun m => decide (bits n 29 14 = m.srcMod ∧ bits n 13 8 = m.srcClu) with
    | some m => m.dstMod * 2 ^ 14 + m.dstClu * 2 ^ 8 + bits n 7 0
    | none => n
  { s with clusters := s.clusters.map fun (e : Nat × Cluster) =>
      (e.1, { e.2 with hub := { e.2.hub with bars := e.2.hub.bars.map fun (b : Nat × Barrier) => (b.1, { b.2 with parent := b.2.parent.map dest }) } }) }

/-- One entry's release on this module: the sources go, or the targets of a change that has been aborted. -/
def State.releaseEntry (s : State) (f : Forme) (c : Change) (e : PlanEntry) : State :=
  let old := Tbl.find f.membersOld e.member
  if e.action = actReshape then
    let q := s.part e.part
    let chans := match q.layOld with
      | some o => o.channels.filter fun ch => !q.lay.channels.contains ch
      | none => []
    let gone := q.lostClusters
    let s := (gone.foldl (fun s k => s.idleCluster k) (s.clearSlots e.part chans)).modPart e.part fun q => { q with layOld := none }
    if c.restored ∧ e.fab = s.fabAddr then s.dropLate e.part else s
  else if e.action = actRemove then
    match old with
    | some r => if r.fab = s.fabAddr ∧ !c.restored then s.destroyPart r.part true else s
    | none => s
  else
    let s := match old with
      | some r =>
        if e.action ≠ actMove ∨ r.fab ≠ s.fabAddr then s else if c.restored then s.dropLate r.part else s.destroyPart r.part false
      | none => s
    if e.fab ≠ s.fabAddr then s
    else if c.restored then s.destroyPart e.part false
    else (s.claimStaged f.id e.member e.part).modPart e.part fun q => { q with movedFrom := none }

/-- RELEASE (R272). -/
def State.releaseIn (s : State) (m : CompMsg) : State :=
  s.compIn 0x2C m fun s =>
    let id := m.formeId.toNat
    match s.forme id with
    | none => s
    | some f =>
      match f.change with
      | none => s
      | some c =>
        let s := s.rewriteParents (f.hubMoves c (decide (c.master = s.fabAddr)))
        let s := c.own.foldl (fun s e => s.releaseEntry f c e) s
        let leads := decide (c.master = s.fabAddr)
        let s := s.modForme id fun f => { f with
          draining := none, membersOld := [], change := if leads then f.change.map fun c => { c with own := [], minis := [] } else none }
        let s := s.answerComp 0x2C m 0x2D 0 0 0
        if leads then s else s.dropForme id

/-- RELEASED (R272). -/
def State.releasedIn (s : State) (m : CompMsg) : State :=
  s.compIn 0x2D m fun s =>
    let id := m.formeId.toNat
    let s := (s.gotAnswer 0x2C m).markAnswer id m.srcMod.toNat
    match (s.forme id).bind fun f => f.change with
    | some c => if c.step == .release && c.allIn c.parts then s.finishChange id else s
    | none => s

/-! ### Abort (R275) -/

/-- ABORT: before Switch the new table is discarded; after it the member waits for epoch E+2. -/
def State.abortIn (s : State) (m : CompMsg) : State :=
  s.compIn 0x2F m fun s =>
    let id := m.formeId.toNat
    match (s.forme id).bind fun f => f.change with
    | none => s
    | some c =>
      let leads := decide (c.master = s.fabAddr)
      let s := s.answerComp 0x2F m 0x30 0 0 0
      if bit m.w4.toNat 0 then s.modChange id fun c => { c with undo := true }
      else
        let s := c.own.foldl (fun s e => if e.fab = s.fabAddr ∧ e.action ≠ actRemove then
            if (s.part e.part).inUse then s.modPart e.part fun q => { q with layNew := none } else { s with parts := Tbl.del s.parts e.part }
          else s) s
        let s := (c.own.filterMap fun e => (s.forme id).bind fun f => s.partOfMember f e.member).foldl (fun s p => s.dropLate p) s
        let s := s.modForme id fun f => { f with membersNew := none, change := if leads then f.change.map fun c => { c with own := [] } else none }
        if leads then s else s.dropForme id

/-- ABORTED. -/
def State.abortedIn (s : State) (m : CompMsg) : State :=
  s.compIn 0x30 m fun s =>
    let id := m.formeId.toNat
    let s := (s.gotAnswer 0x2F m).markAnswer id m.srcMod.toNat
    match (s.forme id).bind fun f => f.change with
    | some c =>
      if c.step != .aborting || !c.allIn c.mods then s
      else if c.undo then s.drainEnd id
      else s.finishChange id
    | none => s

/-! ### Failures (R273, R274) -/

/-- A pull has failed at a request: the chunk is SOURCE again, and is pulled again unless its source is declared failed (R269, R273,
assumption 48). -/
def State.pullEnded (s : State) (id p chunk : Nat) : State :=
  match (s.forme id).bind fun f => f.change with
  | some c =>
    if c.chunk p chunk = some .pulling then
      { s with peerOut := s.peerOut.filter fun o => match o.use with
        | .pull a b _ => !(a == p && b == chunk)
        | _ => true }.setChunk id p chunk .source
    else s
  | none => s

/-- A request to another module ends UNREACHABLE at its issuer. -/
def State.endPeer (s : State) (o : PeerOut) : State :=
  let s := { s with peerOut := s.peerOut.filter fun x => x ≠ o }
  match o.use with
  | .stream e r => s.requestEnded e r
  | .through _ _ => s.throughDone o.tag
  | .pull p chunk _ => s.pullEnded o.forme p chunk
  | _ => s

/-- What a lost source costs at its target: a chunk that was not HELD is restored from elsewhere or lost with the contexts that own
it, and so is the state of a mini-switch that had not finished. -/
def State.sourceLost (s : State) (id p : Nat) (c : Change) (quiet : Bool := false) : State :=
  let lost := (s.part p).liveChunks.filter fun k => s.chunkMoves p k && c.chunk p k != some .held
  let s := lost.foldl (fun s k =>
    let a := k * 65536
    let kept := (List.range 16).all fun i => !s.liveAlloc p (a + 4096 * i) || s.backed p (a + 4096 * i)
    if kept then
      let s := (List.range 128).foldl (fun s i => match s.locIn (s.part p).lay (a + 512 * i) with
        | some b => s.modBlock b fun x => { x with poison := true }
        | none => s) s
      s.setChunk id p k .held
    else
      let owners := ((s.part p).allocs.filter fun x => meet x.base x.size a 65536).flatMap fun x => s.ownersOf p x
      let s := (s.settle (owners.map .lose)).modChange id fun c => { c with lostCtx := c.lostCtx + owners.length }
      (s.freshGalley p k).setChunk id p k .skipped) s
  let open_ := c.minis.filter fun k => decide (k.part = p) && !k.done
  let ns := (s.ctxs.filter fun e => e.2.state == .live && decide (e.2.part = p)).map fun e => e.1
  if open_.isEmpty then s
  else (if quiet then s else s.settle (ns.map .affect)).modChange id fun c => { c with
    minis := c.minis.map fun k => if k.part = p then { k with done := true } else k }

/-- What a lost target costs at its source: contexts whose cores had moved there are those of a failed member (Table 09-8). -/
def State.targetLost (s : State) (c : Change) (p : Nat) : State :=
  let gone := (c.minis.filter fun k => k.done && decide (k.part = p) && decide (k.dstMod ≠ s.fabAddr)).map fun k => k.srcClu
  let ns := (distinct (gone.flatMap fun cl => (rangeFrom (4 * cl) 4).map fun k => (s.core k).ctx)).filter fun n => (s.ctx n).state == .live
  s.settle (ns.map .affect)

/-- MEMBER_FAILED (R273): requests to the failed member complete UNREACHABLE, and a member that was moving from it keeps what it
can. -/
def State.memberFailed (s : State) (m : CompMsg) : State :=
  s.compIn 0x2E m fun s =>
    let id := m.formeId.toNat
    let failed := bits m.w4.toNat 15 0
    let s := (s.ackComp 0x2E m).modForme id fun f => { f with failedMembers := insertSorted failed f.failedMembers }
    let s := (s.peerOut.filter fun o => o.forme == id && o.member == failed).foldl (fun s o => s.endPeer o) s
    match s.forme id with
    | none => s
    | some f =>
      match f.change with
      | none => s
      | some c =>
        if c.quoined then s
        else
          let old (e : PlanEntry) : Option Nat := (Tbl.find f.membersOld e.member).bind fun r => if r.fab = s.fabAddr then some r.part else none
          let hit := c.own.filter fun e => e.action == actMove && e.member == failed
          let s := if c.restored then s
            else (hit.filter fun e => e.fab == s.fabAddr).foldl (fun s e => s.sourceLost id e.part c) s
          ((hit.filter fun e => e.fab != s.fabAddr).filterMap old).foldl (fun s p => s.targetLost c p) s

/-- The step under way is looked at again: it may have waited for a module that has failed. -/
def State.stepAgain (s : State) (id : Nat) : State :=
  match s.forme id with
  | none => s
  | some f =>
    match f.change with
    | none => s
    | some c =>
      match c.step with
      | .admission => s.admissionEnd id
      | .install => if c.allIn c.mods then s.enterStep id .switch 0x25 c.toEpoch true else s
      | .switch => if c.allIn c.mods then (s.modChange id fun c => { c with step := .drain }).drainEnd id else s
      | .drain => s.drainEnd id
      | .move => if !c.allIn c.parts then s else if c.undo then s.enterStep id .release 0x2C f.epoch false
          else (s.modChange id fun c => { c with decided := true }).enterStep id .quoin 0x2A f.epoch false
      | .quoin => if c.allIn c.parts then s.enterStep id .release 0x2C f.epoch false else s
      | .release => if c.allIn c.parts then s.finishChange id else s
      | .aborting => if !c.allIn c.mods then s else if c.undo then s.drainEnd id else s.finishChange id

/-- The master declares a module failed during a change: what follows by Table 09-8. -/
def State.failModule (s : State) (id mod : Nat) : State :=
  match s.forme id with
  | none => s
  | some f =>
    match f.change with
    | none => s
    | some c =>
      let map := if f.membersOld.isEmpty then f.members else f.membersOld
      let at_ (e : PlanEntry) : Option Nat := (Tbl.find map e.member).map fun r => r.fab
      let asTarget := c.entries.find? fun e => e.action != actRemove && e.fab == mod
      let asSource := c.entries.find? fun e => at_ e == some mod
      let members := distinct ((f.members.filter fun e => e.2.fab == mod).map (fun e => e.1) ++
        (map.filter fun e => e.2.fab == mod).map fun e => e.1)
      let s := s.modChange id fun c => { c with failedMods := insertSorted mod c.failedMods }
      let s := { s with unanswered := s.unanswered.filter fun u => !(u.msg.dstMod.toNat == mod && u.msg.formeId.toNat == id) }
      let cseq (d : Nat) : Nat := if c.step = .admission ∧ !c.parts.contains d then f.instCseq else c.cseq
      let s := members.foldl (fun s k => s.sendCompAll 0x2E (fun d => s.compMsg d id (cseq d) 0 (w4 := k))
        ((c.alive c.mods).filter fun d => d ≠ mod)) s
      let s := if c.decided then s
        else
          match asTarget, asSource with
          | some e, _ => s.abortChange id 2 0x40 (some e.member)
          | none, some e => s.modChange id fun c => { c with outcome := 3, reason := 0x50, reasonMember := some e.member }
          | none, none => s.abortChange id 2 0x43 none
      s.stepAgain id

/-- The bound of a step of Table 09-5, in ns; of step 5 the part that does not depend on what moves. -/
def Change.bound (c : Change) : Nat :=
  match c.step with
  | .admission | .install | .aborting => 1000000
  | .switch => 50000
  | .drain => (if c.hdr.drainLimit = 0 then 10 else c.hdr.drainLimit) * 1000000
  | .move | .release => 2000000
  | .quoin => 100000

/-- The longest pause of a cluster (R265), in ns: 62 µs, and the most state that a mini-switch carries at 200 GB/s. -/
def miniBound : Nat := 62000 + 52494336 / 200

/-- The bytes of chunks that an entry's target pulls, at most (R270): those that hold a live allocation on this module, those that its layout
can hold on another (assumption 136). -/
def State.sweepBytes (s : State) (e : PlanEntry) : Nat :=
  if e.action ≠ actReshape ∧ e.action ≠ actMove then 0
  else if e.fab = s.fabAddr then 65536 * ((s.part e.part).liveChunks.filter fun k => s.chunkMoves e.part k).length
  else (onesOf e.channels).length * (e.eI + e.eN) * 4096

/-- The bound of the step under way at a module (Table 09-5): step 5 is bound by the sweep to the module's targets and by the mini-switches
that it takes part in, one after another (R265, R270). -/
def State.boundOf (s : State) (f : Forme) (c : Change) (mod : Nat) : Nat :=
  if c.step ≠ .move then c.bound
  else
    let rate := if c.hdr.sweepRate = 0 then 50 else c.hdr.sweepRate
    let bytes := (c.entries.filter fun e => e.fab == mod).foldl (fun a e => a + s.sweepBytes e) 0
    let there (e : PlanEntry) : Bool := e.fab == mod || (Tbl.find f.membersOld e.member).any fun r => r.fab == mod
    let minis := (c.entries.filter there).foldl (fun a e =>
      if e.action = actReshape ∨ e.action = actMove then a + (onesOf e.clusters).length else a) 0
    max (c.bound + bytes * 5 / (4 * rate)) (minis * miniBound)

/-- COMPOSITION_TIMEOUT (R273): a module has missed the bound of the step under way by more than the composition timeout. -/
def State.compositionTimeout (s : State) (id mod : Nat) : State :=
  match s.forme id with
  | none => s
  | some f =>
    match f.change with
    | none => s
    | some c =>
      let due := match c.step with
        | .install | .switch | .aborting => c.mods
        | .drain => c.mods.filter fun m => !c.drained.contains m
        | _ => c.parts
      if c.master = s.fabAddr ∧ (c.alive due).contains mod ∧ !c.answered.contains mod then
        (s.advanceTo (c.stepStart + s.boundOf f c mod + f.peerTimeout * 1000000)).failModule id mod
      else s

end Sys2Proof.Machine
end

