-- ==== Sys2Proof/Machine/Epochs.lean ====
section
/-! DEFINITION. Epoch protection: EPOCH_CONFIG, EPOCH_MARK, rollback and replay (R362 to R369). -/

namespace Sys2Proof.Machine

/-! ### The galley budget (R362) -/

/-- Bytes of a budget of `units` / 256 of the usable HBM of a layout. -/
def Layout.budgetOf (l : Layout) (units : Nat) : Nat := units * (l.channels.length * (l.eI + l.eN) * 4096) / 256

/-- The larger budget of a job: in force, or declared for the next mark. -/
def Job.units (j : Job) : Nat := max j.budget ((j.pendCfg.map fun c => c.1).getD 0)

/-- Bytes that jobs reserve in partition `p`. -/
def State.reserved (s : State) (p : Nat) : Nat :=
  s.jobs.foldl (fun a j =>
    if (s.jobCtxs j.forme j.id).any fun e => decide (e.2.part = p) then a + (s.part p).lay.budgetOf j.units else a) 0

/-- Reserve the budgets of the jobs of partitions. -/
def State.reserveBudgets (s : State) (ps : List Nat) : State :=
  ps.foldl (fun s p =>
    let b := s.reserved p
    s.modPart p fun q => { q with budget := b }) s

/-- Whether the budget of a partition finds room in its interleaved segment beside what is allocated there. -/
def State.budgetFits (s : State) (p : Nat) : Bool :=
  let q := s.part p
  let used := q.allocs.foldl (fun a e => if q.lay.segment e.base = some .interleaved then a + e.size else a) 0
  decide (used + q.budget ≤ q.lay.segPages .interleaved * 4096)

/-! ### Commands of the anchor context that every member of the forme carries out -/

/-- Modules of a forme other than this one. -/
def State.farModules (s : State) (forme : Nat) : List Nat :=
  ((s.forme forme).map fun f => f.modules.filter fun m => m ≠ s.fabAddr).getD []

/-- Carry out a command on this module's members of the job's forme, and through orders on the others; `reply` is what they
answered together. -/
def State.onForme (s : State) (q : Nat) (c : Cmd) (reply : Option (BitVec 64)) (act : State → Nat → Nat → List Word64 → Nat × State)
    (result : List Word64) : State :=
  let x := s.ctx (s.queue q).ctx
  if x.member ≠ 0 then s.finish q c.place { status := St.wrongQueue }
  else
    let args := c.words.drop 5
    let d := act s x.forme x.job args
    if d.1 ≠ 0 then s.refuseCmd q c d.1
    else
      let far := s.farModules x.forme
      let t := far.foldl (fun s m => s.send (.memberOrder ⟨x.forme, x.job, m, c.opc, args, [], 0⟩)) d.2
      match far, reply with
      | [], _ => t.okCmd q c result
      | _, none => t
      | _, some r => if bits r.toNat 15 0 = 0 then t.okCmd q c result else s.refuseCmd q c (bits r.toNat 15 0)

/-- EPOCH_CONFIG on the members of this module (R362). -/
def State.configHere (s : State) (forme job : Nat) (a : List Word64) : Nat × State :=
  let budget := bits (argAt a 0) 6 0
  let cap := bits (argAt a 1) 20 0
  if 64 < budget ∨ (cap ≠ 0 ∧ (cap < 1024 ∨ 1048576 < cap)) then (Dt.field, s)
  else
    let ps := distinct ((s.jobCtxs forme job).map fun e => e.2.part)
    let t := (s.modJob forme job fun j => { j with
      pendCfg := some (budget, if cap = 0 then 65536 else cap, bit (argAt a 0) 7) }).reserveBudgets ps
    if ps.all fun p => t.budgetFits p then (0, t) else (Dt.saveSpace, s)

/-- EPOCH_CONFIG (R362). -/
def State.epochConfig (s : State) (src : CmdSource) : State :=
  match src with
  | .order o =>
    if o.opc ≠ 0x40 then s
    else
      let d := s.configHere o.forme o.job o.args
      d.2.send (.orderDone o.forme o.job o.member 0x40 d.1 0)
  | .queue q reply => s.onCmd q.val 0x40 fun s c => s.onForme q.val c reply State.configHere []

/-! ### EPOCH_MARK (R365) -/

/-- What of a core persists across the RUNs of a job (R300). -/
def Core.persistent (k : Core) : Core :=
  { Core.reset with lm := k.lm, lmBad1 := k.lmBad1, lmBad2 := k.lmBad2, poison := k.poison, poisonList := k.poisonList, v := k.v,
                    acc := k.acc, accBad1 := k.accBad1, accBad2 := k.accBad2, step := k.step, cls := k.cls, mflags := k.mflags }

/-- The persistent state of the virtual cores of context `n`: of its cores, or of its save area. -/
def State.persistentOf (s : State) (n : Nat) : Tbl CoreSave :=
  let x := s.ctx n
  let l := (s.part x.part).lay
  l.vcores.filterMap fun v =>
    match l.coreOf v with
    | some c =>
      if (s.core c).ctx = n then some (v, ⟨(s.core c).persistent⟩)
      else (Tbl.find x.saved v).map fun k => (v, (⟨k.core.persistent⟩ : CoreSave))
    | none => none

/-- Queues of the contexts of a job on this module. -/
def State.jobQueues (s : State) (forme job : Nat) : List (Nat × Queue) :=
  s.queues.filter fun e => e.2.inUse && decide (e.1 ≠ 0) && decide ((s.ctx e.2.ctx).forme = forme) &&
    decide ((s.ctx e.2.ctx).job = job)

/-- Whether a command of the job stands before its EPOCH_MARK at `place` of queue `q`. -/
def State.markWaits (s : State) (forme job q place : Nat) : Bool :=
  (s.jobQueues forme job).any fun e => e.2.cmds.any fun d => decide (e.1 ≠ q) || decide (d.place < place)

/-- Fetching of a job's queues is held, or goes on. -/
def State.holdQueues (s : State) (forme job : Nat) (held : Bool) : State :=
  (s.jobQueues forme job).foldl (fun s e => s.modQueue e.1 fun k => { k with markHold := held }) s

/-- Allocations of a job's heaps in its partitions (R365). -/
def State.heapsOf (s : State) (forme job : Nat) : List (Nat × List Alloc) :=
  (s.jobCtxs forme job).map fun e => (e.2.part, (s.part e.2.part).allocs.filter fun a => decide (a.ctx = e.1) && (match a.kind with
    | .heap _ => true
    | _ => false))

/-- The shadows of a job, with their partitions. -/
def State.jobShadows (s : State) (forme job : Nat) : List (Nat × Shadow) :=
  (distinct ((s.jobCtxs forme job).map fun e => e.2.part)).flatMap fun p => ((s.part p).shadows.filter fun h => h.job == job).map fun h => (p, h)

/-- What stands for a job until its next mark. -/
def Job.standing (j : Job) (shadows : List (Nat × Shadow)) : MarkBefore where
  budget := j.budget
  logCap := j.logCap
  coreState := j.coreState
  active := j.active
  mark := j.mark
  impure := j.impure
  unprotected := j.unprotected
  log := j.log
  fenceSnap := j.fenceSnap
  allocSnap := j.allocSnap
  checkpoint := j.checkpoint
  markSeq := j.markSeq
  markRan := j.markRan
  shadows := shadows

/-- Steps 3 to 6 of EPOCH_MARK on this module: shadows are committed, allocators and fences are snapshot, the checkpoint is written
and the mark is recorded. -/
def State.commitEpoch (s : State) (forme job : Nat) : State :=
  let ns := s.jobCtxs forme job
  let shadows := s.jobShadows forme job
  let s := ns.foldl (fun s e => s.modPart e.2.part fun q => { q with shadows := q.shadows.filter fun h => h.job ≠ job }) s
  let heaps := s.heapsOf forme job
  let vals := ns.flatMap fun e => (s.ownedFences e.1).map fun n => (n, (s.fence n).value)
  let cores := ns.flatMap fun e => s.persistentOf e.1
  let s := s.modJob forme job fun j =>
    let c := j.pendCfg.getD (j.budget, j.logCap, j.coreState)
    { j with before := some (j.standing shadows), budget := c.1, logCap := c.2.1, coreState := c.2.2, pendCfg := none, active := decide (c.1 ≠ 0), mark := (j.mark + 1) % 2 ^ 32,
             impure := false, unprotected := false, log := [], fenceSnap := vals, allocSnap := heaps,
             checkpoint := if c.2.2 then cores else [], markSeq := j.runSeq, markRan := j.ran }
  let s := s.modForme forme fun f => { f with logCopies := f.logCopies.filter fun e => e.2.1 ≠ job }
  (s.reserveBudgets (distinct (ns.map fun e => e.2.part))).holdQueues forme job false

/-- The master's copies of a job's command logs, as member, queue and entry (R366). -/
def State.epochLogs (s : State) (forme job : Nat) : List (Nat × Nat × List Word64) :=
  (((s.forme forme).map fun f => f.logCopies.filter fun e => e.2.1 == job).getD []).map fun e => (e.1, e.2.2.1, e.2.2.2)

/-- The master sends the deputy the snapshot of the mark (R365, step 6). -/
def State.tellDeputy (s : State) (forme job : Nat) (logs : List (Nat × Nat × List Word64)) : State :=
  match (s.forme forme).bind fun f => f.deputyMod, s.job forme job with
  | some m, some j => s.send (.snapshot forme job m j.fenceSnap logs)
  | _, _ => s

/-- EPOCH_MARK of a queue: it holds the job's queues while it waits for what was fetched before it, then the epoch is committed. -/
def State.markOf (s : State) (q : Nat) (c : Cmd) (reply : Option (BitVec 64)) : State :=
  let x := s.ctx (s.queue q).ctx
  let far := s.farModules x.forme
  if x.member ≠ 0 then s.finish q c.place { status := St.wrongQueue }
  else
    let s := s.holdQueues x.forme x.job true
    if s.markWaits x.forme x.job q c.place then s
    else
      let s := far.foldl (fun s m => s.send (.memberOrder ⟨x.forme, x.job, m, 0x41, [], [], 0⟩)) s
      match far, reply with
      | _ :: _, none => s
      | _, _ =>
        let s := (s.commitEpoch x.forme x.job).tellDeputy x.forme x.job (s.epochLogs x.forme x.job)
        let mark := ((s.job x.forme x.job).map fun j => j.mark).getD 0
        s.okCmd q c [BitVec.ofNat 64 mark]

/-- EPOCH_MARK (R365). One that waits is looked at again. -/
def State.epochMark (s : State) (src : CmdSource) : State :=
  match src with
  | .order o =>
    if o.opc ≠ 0x41 then s
    else
      let s := s.holdQueues o.forme o.job true
      if s.markWaits o.forme o.job 0 0 then s
      else (s.commitEpoch o.forme o.job).send (.orderDone o.forme o.job o.member 0x41 0 0)
  | .queue q reply =>
    match (s.queue q.val).cmds.find? fun c => c.opc == 0x41 && c.state == .running with
    | some c => s.markOf q.val c reply
    | none => s.onCmd q.val 0x41 fun s c => s.markOf q.val c reply

/-! ### Ending the requests of a context (R348) -/

/-- An ended write of a stream to partition memory may or may not have been applied: which is a free value. -/
def State.perhapsApply (s : State) (e : Nat) (t : Stream) (r : StreamReq) : State :=
  let d := SDesc.of t.desc
  match r.phase, s.dstEnd e t d r.tile r.line with
  | .writing, .part p a who _ =>
    let f := s.fresh
    if Config.freeBool f.1 then
      let q := f.2.streamReq e t r who p a
      let u := match mopDecode d.mop with
        | some (o, t) => f.2.changeNow q (.op d.mop o t (r.data.zeroExtend 1024))
        | none => if d.mop = 0 then f.2.changeNow q (.write r.data) else (f.2, [])
      u.1.settle u.2
    else f.2
  | _, _ => s

/-- Every request of the streams of an engine that `p` picks is ended, and the streams are gone. -/
def State.discardStreams (s : State) (e : Nat) (p : Stream → Bool) : State :=
  let g := s.engine e
  let all := ((g.active.map fun (x : Nat × Stream) => x.2) ++ g.suspended ++ g.ending).filter p
  let s := all.foldl (fun s t => t.reqs.foldl (fun s r => s.perhapsApply e t r) s) s
  let ids := all.flatMap fun t => t.reqs.map fun r => r.id
  let mine (u : OutUse) : Bool := match u with
    | .stream e' r => e' == e && ids.contains r
    | _ => false
  let s := (g.active.filter fun x => p x.2).foldl (fun s x => s.dropCredit e x.1) s
  let s := { s with peerOut := s.peerOut.filter fun o => !mine o.use, rdmaOut := s.rdmaOut.filter fun o => !mine o.use }
  (s.modEngine e fun g => { g with
    active := g.active.filter fun x => !p x.2
    suspended := g.suspended.filter fun t => !p t
    ending := g.ending.filter fun t => !p t }).parkAll e

/-- Descriptors of a context leave an engine's input queue. -/
def State.dropDescs (s : State) (e n : Nat) : State := s.modEngine e fun g => { g with queue := g.queue.filter fun d => d.ctx ≠ n }

/-- The streams of context `n` are discarded on every engine. -/
def State.discardCtxStreams (s : State) (n : Nat) : State :=
  (s.engines.map fun e => e.1).foldl (fun s e => (s.discardStreams e fun t => decide (t.ctx = n)).dropDescs e n) s

/-- A core stops with nothing saved: its waits, its calls and its remote operations go. -/
def State.discardCore (s : State) (c : Nat) : State :=
  let s := (((s.dropGrants c).cancelRemote c).dropWaits (Waiter.ofCore c)).modCore c Core.wipe
  s.modCluster (clusterOf c) fun k => { k with calls := k.calls.filter fun a => a.core.val ≠ c }

/-- The arrivals counted at the barrier instances that a context owns are forgotten. -/
def State.clearArrivals (s : State) (n : Nat) : State :=
  { s with clusters := s.clusters.map fun (e : Nat × Cluster) =>
      (e.1, { e.2 with hub := { e.2.hub with bars := e.2.hub.bars.map fun (b : Nat × Barrier) =>
        if b.2.owner = n then (b.1, { b.2 with arrived := 0, children := [], nextChildren := [], sentUp := false, corePhase := [] }) else b } }) }

/-! ### Rolling back (R368) -/

/-- A shadowed chunk stands again as at the mark, in both copies of a mirrored region. -/
def State.restoreShadow (s : State) (p : Nat) (h : Shadow) : State :=
  let l := (s.part p).lay
  let base := h.chunk * 65536
  let at_ (s : State) (a : Nat) : List Loc := s.copies p l a
  let s := h.old.zipIdx.foldl (fun s e =>
    (at_ s (base + e.2 * 512)).foldl (fun s b => s.modBlock b fun d => { e.1 with buffered := d.buffered }) s) s
  h.oldUsed.zipIdx.foldl (fun s e =>
    (at_ s (base + e.2 * 4096)).foldl (fun s b => s.modChannel b.1 fun k => if e.1 then k else k.setFresh (b.2 / 8) true) s) s

/-- The allocations of a job as at the mark: those made since go, those freed since return where they still find room. `false` where
one no longer fits. -/
def State.restoreHeaps (s : State) (ns : List Nat) : List (Nat × List Alloc) → Bool × State
  | [] => (true, s)
  | (p, as) :: r =>
    let now := (s.part p).allocs.filter fun a => !(ns.contains a.ctx && (match a.kind with
      | .heap _ => true
      | _ => false))
    let fits := as.all fun a => !(now.any fun b => decide (a.base < b.base + b.size ∧ b.base < a.base + a.size))
    let s := s.modPart p fun q => { q with allocs := now ++ as }
    let t := State.restoreHeaps s ns r
    (fits && t.1, t.2)

/-- One context is stopped for a rollback, and takes the state of the mark. -/
def State.rollbackCtx (s : State) (j : Job) (n : Nat) : State :=
  let cs := (s.cores.filter fun e => e.2.ctx == n).map fun e => e.1
  let s := cs.foldl (fun s c => s.discardCore c) s
  let s := (s.discardCtxStreams n).clearArrivals n
  let vs := (s.part (s.ctx n).part).lay.vcores
  s.modCtx n fun x => { x with
    saved := j.checkpoint.filter fun e => vs.contains e.1
    savedScratch := []
    savedStreams := []
    savedDescs := [] }

/-- A rollback names the mark before the last one of this module: the master has not recorded the last (R365). The job stands again as before
that mark, the older shadow of a chunk behind the younger. -/
def State.unmark (s : State) (forme job mark : Nat) : State :=
  match s.job forme job with
  | none => s
  | some j =>
    match j.before with
    | none => s
    | some b =>
      if j.mark = mark ∨ b.mark ≠ mark then s
      else
        let s := s.modJob forme job fun j => { j with
          before := none, budget := b.budget, logCap := b.logCap, coreState := b.coreState, active := b.active, mark := b.mark, impure := b.impure,
          unprotected := b.unprotected, log := b.log, fenceSnap := b.fenceSnap, allocSnap := b.allocSnap, checkpoint := b.checkpoint,
          markSeq := b.markSeq, markRan := b.markRan }
        b.shadows.foldl (fun s e => s.modPart e.1 fun q => { q with shadows := q.shadows ++ [e.2] }) s

/-- A job is rolled back on this module (ROLLBACK, R368): the flag says that the job is lost instead (R364, R367, R369, R383). -/
def State.rollbackHere (s : State) (forme job : Nat) : Bool × State :=
  match s.job forme job with
  | none => (false, s)
  | some j =>
    let ns := (s.jobCtxs forme job).map fun e => e.1
    let lose (s : State) : Bool × State :=
      (true, (s.settle (ns.map .lose)).modJob forme job fun j => { j with affected := false })
    if !j.active || j.impure || j.unprotected then lose s
    else
      let s := ns.foldl (fun s n => s.rollbackCtx j n) s
      let ps := distinct (ns.map fun n => (s.ctx n).part)
      let s := ps.foldl (fun s p =>
        let mine := (s.part p).shadows.filter fun h => h.job == job
        (mine.foldl (fun s h => s.restoreShadow p h) s).modPart p fun q => { q with shadows := q.shadows.filter fun h => h.job ≠ job }) s
      let r := s.restoreHeaps ns j.allocSnap
      if !r.1 then lose r.2
      else
        let s := r.2.modJob forme job fun j => { j with
          affected := false, runSeq := j.markSeq, ran := if j.coreState then j.markRan else [] }
        let s := s.modForme forme fun f => { f with
          running := if f.running = some job then none else f.running
          switching := match f.switching with
            | some (k, w) => if k = job then none else some (k, w)
            | none => none
          rolledJobs := if f.rolledJobs.contains job then f.rolledJobs else f.rolledJobs ++ [job] }
        (false, ns.foldl (fun s n => s.record (s.recOfCtx n { cause := 0x31, severity := 1, d5 := job + j.mark * 2 ^ 32 })) s)

/-- The master restores the fences of a job as at the mark: the one case in which a fence value falls (R368). -/
def State.restoreFences (s : State) (forme job : Nat) : State :=
  match s.job forme job with
  | none => s
  | some j => j.fenceSnap.foldl (fun s e => if (s.fence e.1).state = .live then s.putValue e.1 e.2 else s) s

/-! ### Replay (R366, R369) -/

/-- Whether a command's own effect is replayed. -/
def replayed (opc : Nat) : Bool := [0x11, 0x12, 0x13, 0x1C].contains opc

/-- A logged command as it is executed again: one that had completed does so silently, and one whose effects stand is replayed for
its wait and its signal alone. -/
def LogEntry.redo (e : LogEntry) (old : List Cmd) (now : Nat) : Cmd :=
  let w0 := (e.words.headD 0).toNat
  match old.find? fun c => c.place == e.place with
  | some c => { c with state := .waiting, run := none, waitMet := !bit w0 10, silent := c.silent || e.completed }
  | none =>
    let head := setBits w0 7 0 0
    let words := if replayed (bits w0 7 0) then e.words
      else BitVec.ofNat 64 (if e.failed then setBits head 11 11 0 else head) :: e.words.drop 1
    { place := e.place, words := words, second := [], session := 0, state := .waiting, waitMet := !bit w0 10, fetched := now, started := 0,
      bulk := none, bulkAsked := false, asked := false, notRepro := false, fallback := false, run := none, energy0 := [], energyFar := [], silent := true, conn := 0 }

/-- The logged commands of one queue are queued again, in log order, before what was fetched and not logged. -/
def State.replayQueue (s : State) (q : Nat) (log : List LogEntry) : State :=
  let mine := log.filter fun e => e.queue == q
  let old := (s.queue q).cmds
  let redone := mine.map fun e => e.redo old s.ltime
  let rest := old.filter fun c => !(mine.any fun e => e.place == c.place)
  let s := (s.dropWaits fun w => match w with
    | .command k _ => k == q
    | _ => false).modQueue q fun k => { k with cmds := redone ++ rest }
  ((redone ++ rest).filter fun c => !c.waitMet).foldl (fun s c => s.registerWait q c) s

/-- RESUME on this module: the job's queues replay the epoch (R369). -/
def State.replayHere (s : State) (forme job : Nat) : State :=
  let s := s.modForme forme fun f => { f with rolledJobs := f.rolledJobs.filter fun k => k ≠ job }
  match s.job forme job with
  | none => s
  | some j =>
    (s.jobQueues forme job).foldl (fun s e => s.replayQueue e.1 j.log) s

end Sys2Proof.Machine
end

