-- ==== Sys2Proof/Machine/Recovery.lean ====
section
/-! DEFINITION. Members on other modules: pulses, timeouts, probes, and the recovery of a forme (R370 to R376). -/

namespace Sys2Proof.Machine

/-- Take a recovery message: one for another module goes on, and one with a reserved field set is discarded and counted (R375). -/
def State.recIn (s : State) (opc : Nat) (m : RecMsg) (f : State → Forme → State) : State :=
  if m.dstMod.toNat ≠ s.fabAddr then s.emit (.recov opc m)
  else if m.status ≠ 0 ∧ ¬(opc = 0x08 ∧ m.status = 1) then s.synCount s.lowestCluster .badmsg
  else
    match s.forme m.formeId.toNat with
    | none => s
    | some g => f s g

/-! ### Pulses (R370) -/

/-- PULSE_SEND: withheld for a member whose partition is at ladder level 2 or above. -/
def State.pulseSend (s : State) (id member : Nat) : State :=
  match s.forme id, s.partHere id member with
  | some f, some p =>
    if 2 ≤ (s.part p).recovering then s
    else
      match f.masterMod with
      | some m => s.emit (.recov 0x01 (s.recMsg m id (member := member) (rseq := f.rseq)))
      | none => s
  | _, _ => s

/-- PULSE: the master notes it and answers. -/
def State.pulseIn (s : State) (m : RecMsg) : State :=
  s.recIn 0x01 m fun s f =>
    let now := s.ltime
    if !s.isMaster f then s
    else (s.modForme f.id fun f => { f with lastPulse := Tbl.set f.lastPulse m.member.toNat now }).emit
      (.recov 0x02 { s.recMsg m.srcMod.toNat f.id (member := m.member.toNat) with rseq := m.rseq })

/-- PULSE_ANS. -/
def State.pulseAns (s : State) (m : RecMsg) : State :=
  s.recIn 0x02 m fun s f =>
    let now := s.ltime
    s.modForme f.id fun f => { f with lastPulseAns := Tbl.set f.lastPulseAns m.member.toNat now }

/-! ### Freezing and thawing (R371) -/

/-- The partitions of a forme's members on this module. -/
def State.formeParts (s : State) (id : Nat) : List Nat :=
  (s.parts.filter fun e => e.2.inUse && decide (e.2.forme = id)).map fun e => e.1

/-- The forme's jobs freeze here: cores and streams stop as for a context switch, with nothing discarded. -/
def State.freeze (s : State) (id : Nat) : State :=
  let s := (s.formeParts id).foldl (fun s p =>
    let l := (s.part p).lay
    let s := l.clusters.foldl (fun s c => s.stopCluster c) s
    l.engines.foldl (fun s e => s.suspendEngine e 3) s) s
  s.modForme id fun f => { f with frozen := true }

/-- Frozen jobs resume unchanged. -/
def State.thaw (s : State) (id : Nat) : State :=
  match s.forme id with
  | none => s
  | some f =>
    if !f.frozen then s
    else
      let s := s.modForme id fun f => { f with frozen := false }
      if f.switching.isSome then s
      else
        (s.formeParts id).foldl (fun s p =>
          let l := (s.part p).lay
          let wake (t : Stream) : Stream := if t.cause = 3 ∧ !s.suspectCtx t.ctx then { t with ready := true } else t
          let s := l.engines.foldl (fun s e => s.modEngine e fun g => { g with
            active := g.active.map fun (x : Nat × Stream) => (x.1, wake x.2)
            suspended := g.suspended.map wake
            stopped := false }) s
          l.cores.foldl (fun s c => s.resumeCore c) s) s

/-- Whether the streams of an engine may not go on because their forme is frozen. -/
def State.frozenEngine (s : State) (e : Nat) : Bool :=
  s.formes.any fun f => f.frozen && (s.formeParts f.id).any fun p => (s.part p).lay.clusters.contains (e / 4)

/-- STREAM_RESUME (R166), which waits while the forme is frozen (R371). -/
def State.resumeStream (s : State) (e sid : Nat) : State := if s.frozenEngine e then s else s.streamResume e sid

/-! ### Planning the recovery change (R372, R373) -/

/-- Clusters of this module in no partition that may be composed. -/
def State.idleClusters (s : State) : List Nat :=
  (List.range 48).filter fun c =>
    !(s.parts.any fun e => e.2.inUse && e.2.lay.clusters.contains c) && !s.quarantine.contains c && !(s.cluster c).clamped &&
      !s.dieFenced.contains (dieOf c)

/-- Idle clusters of a module, where it is reachable. -/
def State.idleOf (s : State) (views : List ModuleView) (fab : Nat) : Option (List Nat) :=
  if fab = s.fabAddr then some s.idleClusters
  else (views.find? fun v => v.fab.toNat == fab).map fun v => onesOf v.idle

/-- The first reserve of a list whose module is reachable and that holds `need` idle clusters, with those clusters. -/
def State.reserveFor (s : State) (views : List ModuleView) (need : Nat) : List Reserve → Option (Reserve × List Nat)
  | [] => none
  | r :: rs =>
    match s.idleOf views r.fab with
    | some idle =>
      let fit := (onesOf r.clusters).filter fun c => idle.contains c
      if need ≤ fit.length then some (r, fit.take need) else State.reserveFor s views need rs
    | none => State.reserveFor s views need rs

/-- The recovery entry of a member: a RESHAPE onto idle clusters of the same module where that survives and holds enough, otherwise
a MOVE to a reserve; with the reserve used. -/
def State.recoveryEntry (s : State) (f : Forme) (member : Nat) (views : List ModuleView) : Option (PlanEntry × Option Reserve) :=
  let own := s.partOfMember f member
  let base := match own with
    | some p => some (s.reshapeEntry p)
    | none => Tbl.find f.plans member
  match base with
  | none => none
  | some e =>
    let have_ := if own.isSome then onesOf e.clusters else []
    let need := max ((Tbl.find f.plans member).map fun x => (onesOf x.clusters).length).toList.sum ((Tbl.find f.recMembers member).getD 0)
    -- of a failed master, member 0 moves to a reserve (R374)
    let here := match if (f.redirect.any fun r => r.1 == e.fab) then none else s.idleOf views e.fab with
      | some idle => if need ≤ have_.length + idle.length then some ((have_ ++ idle).take need) else none
      | none => none
    match here with
    | some cl => some ({ e with action := actReshape, clusters := maskOf 48 cl }, none)
    | none =>
      match s.reserveFor views need f.reserves with
      | none => none
      | some (r, cl) =>
        match views.find? fun v => v.fab.toNat == r.fab with
        | some v => some ({ e with action := actMove, fab := r.fab, part := v.part.val, clusters := maskOf 48 cl, channels := v.channels }, some r)
        | none => none

/-- The recovery entries of several members; `none` where one finds no place. -/
def State.recoveryEntries (s : State) (id : Nat) (views : List ModuleView) : List Nat → Option (List PlanEntry × State)
  | [] => some ([], s)
  | k :: ks =>
    match s.forme id with
    | none => none
    | some f =>
      match s.recoveryEntry f k views with
      | none => none
      | some (e, r) =>
        let s := match r with
          | some r => s.modForme id fun f => { f with reserves := f.reserves.erase r }
          | none => s
        (State.recoveryEntries s id views ks).map fun t => (e :: t.1, t.2)

/-! ### Resuming and reporting (R372, R376) -/

/-- What the report of a recovery says: its status and detail. -/
def Forme.reportCode (f : Forme) : Nat × Nat :=
  let lost := !f.lostJobs.isEmpty || f.culpritLost
  (if lost then St.ctxLost else St.ok,
   if f.masterMoved then 0x05 else if f.culpritLost then 0x04 else if !f.lostJobs.isEmpty then 0x03 else 0x01)

/-- The master sends RESUME, with the failed member's log to the module that holds it now, and reports the recovery. -/
def State.resumeForme (s : State) (id : Nat) : State :=
  match s.forme id with
  | none => s
  | some f =>
    let logs := f.logCopies.filter fun e => f.failedMember == some e.1 && f.rolledJobs.contains e.2.1
    let s := logs.foldl (fun s e =>
      match f.moduleOf e.1 with
      | some m => s.emit (.recov 0x0B { s.recMsg m id (member := e.1) (job := e.2.1) (rseq := f.rseq) with
          queue := BitVec.ofNat 16 e.2.2.1, entry := e.2.2.2 })
      | none => s) s
    let s := f.rolledJobs.foldl (fun s j =>
      f.modules.foldl (fun s m => s.emit (.recov 0x09 (s.recMsg m id (job := j) (rseq := f.rseq)))) s) s
    let code := f.reportCode
    let words := s.reportWords f
    let s := if f.change.isSome then s.modForme id fun f => { f with report := some (code.1, code.2, words) }
      else s.sendReport code.1 code.2 words []
    (s.modForme id fun f => { f with
      recStep := .none, failedMember := none, recMembers := [], lostJobs := [], recLost := 0, culpritLost := false, masterMoved := false }).recovered id

/-- Every ROLLED_BACK is in: fences are restored, and the recovery change is planned, or RESUME is sent. -/
def State.recoveryGoesOn (s : State) (id : Nat) (views : List ModuleView) : State :=
  match s.forme id with
  | none => s
  | some f =>
    if f.recStep ≠ .rollback ∨ !f.rollbackWait.isEmpty then s
    else
      let s := f.rolledJobs.foldl (fun s j => s.restoreFences id j) s
      let who := distinct (f.failedMember.toList ++ f.recMembers.map fun e => e.1)
      match s.recoveryEntries id views who with
      | none => s.needsResize id
      | some ([], s) => s.resumeForme id
      | some (es, s) => (s.modForme id fun f => { f with recStep := .planned }).startRecovery id es

/-- A job of a forme cannot be rolled back: every context of it is lost. -/
def State.loseJob (s : State) (f : Forme) (job : Nat) : State :=
  let ns := (s.jobCtxs f.id job).filter fun e => e.2.state == .live
  let s := s.settle (ns.map fun e => .lose e.1)
  let s := (f.modules.filter fun m => m ≠ s.fabAddr).foldl (fun s _ => s.send (.loss f.id job 0)) s
  s.modForme f.id fun f => { f with
    lostJobs := insertSorted job f.lostJobs, recLost := f.recLost + ns.length, rolledJobs := f.rolledJobs.filter fun k => k ≠ job }

/-! ### Failed members (R371 to R374) -/

/-- The jobs of a forme that have a context on a member, as far as this module knows: of a member elsewhere, every job of the
rotation. -/
def State.jobsOn (s : State) (f : Forme) (member : Nat) : List Nat :=
  if (s.partOfMember f member).isSome then f.rotation.filter fun j => (s.jobCtxAt f.id j member).isSome else f.rotation

/-- MEMBER_FAILED is sent (R273): within a change as Table 09-8 has it, otherwise to every module of the forme. -/
def State.tellFailed (s : State) (f : Forme) (member mod : Nat) : State :=
  match f.change with
  | some c => if c.master = s.fabAddr ∧ mod ≠ s.fabAddr then s.failModule f.id mod
      else s.sendCompAll 0x2E (fun d => s.compMsg d f.id f.instCseq 0 (w4 := member)) (f.aliveModules.filter fun d => d ≠ mod)
  | none => s.sendCompAll 0x2E (fun d => s.compMsg d f.id f.instCseq 0 (w4 := member)) (f.aliveModules.filter fun d => d ≠ mod)

/-- The new master leads the change of the failed one (R274): it completes a change of which a member holds QUOIN, and aborts another with
MASTER_FAILED. What it does not know of the change stands beside (assumption 145). -/
def State.leadChange (s : State) (id old : Nat) (copy : Option ChangeCopy) : State :=
  match s.forme id with
  | none => s
  | some f =>
    let known := match f.change, copy with
      | some c, _ => some c
      | none, some k => some (Change.joined s (s.compMsg s.fabAddr id k.cseq.toNat 0) (PlanHeader.unknown id) [] f)
      | none, none => none
    match known with
    | none => s
    | some c =>
      if c.master ≠ old then s
      else
        let es := match copy with
          | some k => k.entries
          | none => c.own
        let before := if f.membersOld.isEmpty then f.members else f.membersOld
        let g := { f with members := before }
        let held := c.quoined || copy.any fun k => k.quoined
        let now := s.ltime
        let c := { c with
          master := s.fabAddr, entries := es, recovery := c.recovery, step := if c.switched then .drain else .install
          parts := g.participants es, mods := g.allModules es, answered := [], drained := [], failedMods := [old], queue := none
          started := now, stepStart := now, drainReported := c.drainReported && f.draining.isNone }
        let s := s.modForme id fun f => { f with change := some c }
        if held then (s.modChange id fun c => { c with decided := true }).enterStep id .quoin 0x2A f.epoch false
        else s.abortChange id 2 0x42 none

/-- The deputy acts as master (R374): it claims the part, recreates the fences, rolls back the protected jobs and loses the
others. -/
def State.takeOver (s : State) (f : Forme) (old : Nat) (copy : DeputyCopy) : State :=
  let s := s.modForme f.id fun f => { f with
    redirect := some (old, s.fabAddr), masterMoved := true
    reserves := copy.reserves.map fun r => ⟨r.1.toNat, r.2⟩
    plans := Tbl.set f.plans copy.plan.member copy.plan }
  let s := (f.modules.filter fun m => m ≠ old).foldl (fun s m => s.emit (.recov 0x0A (s.recMsg m f.id (rseq := f.rseq)))) s
  let home := (((s.formeParts f.id).head?.map fun p => (s.part p).lay.clusters.headD 0)).getD s.lowestCluster
  let s := copy.fences.foldl (fun s e =>
    let n := e.2.1.toNat
    let v := e.2.2.toNat
    let owner := (((s.jobCtxs f.id e.1.toNat).head?).map fun x => x.1).getD 0
    if (s.fence n).state = .free then { s with fences := Tbl.set s.fences n ⟨v, .live, home, 0, owner, 0, 0, v⟩ } else s) s
  let s := s.leadChange f.id old copy.change
  let js := s.jobs.filter fun j => decide (j.forme = f.id)
  js.foldl (fun s j => if j.active then s.rollbackJob f.id j.id else s.loseJob f j.id) s

/-- A member is declared failed (R371, R372). -/
def State.declareFailed (s : State) (id member : Nat) (copy : DeputyCopy) (views : List ModuleView) : State :=
  match s.forme id with
  | none => s
  | some f =>
    match Tbl.find f.members member with
    | none => s
    | some r =>
      if f.failedMembers.contains member then s
      else
        let now := s.ltime
        let s := s.modForme id fun f => { f with
          failedMembers := insertSorted member f.failedMembers, failedMember := some member, probe := none, askers := []
          recStart := if f.recStep = .none then now else f.recStart }
        match s.forme id with
        | none => s
        | some g =>
          let s := s.tellFailed g member r.fab
          let s := if f.masterMod = some r.fab ∧ r.fab ≠ s.fabAddr then s.takeOver g r.fab copy
            else (s.jobsOn g member).foldl (fun s j => s.rollbackJob id j) s
          let s := s.modForme id fun f => { f with recStep := if f.recStep = .none then .rollback else f.recStep }
          s.recoveryGoesOn id views

/-- When what a member here waits for of another member was sent: requests, and operations of the hubs. -/
def State.sentTo (s : State) (f : Forme) (named : Nat) : List Nat :=
  let mod := f.moduleOf named
  ((s.peerOut.filter fun o => o.forme == f.id && o.member == named).map fun o => o.sentAt) ++
    s.clusters.flatMap fun (e : Nat × Cluster) => (e.2.hub.remote.filter fun r => some r.mod == mod).map fun r => r.sentAt

/-- PEER_TIMEOUT (R370, R371): `observer` is a member here, `named` the member that has not answered. -/
def State.peerTimeout (s : State) (id observer named : Nat) (copy : DeputyCopy) (views : List ModuleView) : State :=
  match s.forme id, s.partHere id observer with
  | some f, some p =>
    let first := ((f.members.head?).map fun e => e.1).getD 0
    let leads := s.isMaster f && decide (observer = first)
    let pulse := if leads then [Tbl.get 0 f.lastPulse named] else if named = first then [Tbl.get 0 f.lastPulseAns observer] else []
    match (pulse ++ s.sentTo f named).min?, Tbl.find f.members named with
    | some t, some _ =>
      if named = observer ∨ f.failedMembers.contains named then s
      else
        let s := s.advanceTo (t + f.peerTimeout * 1000000)
        let s := s.record { cause := 0x30, severity := 1, part := some p, member := some observer, d5 := named }
        if leads then s.declareFailed id named copy views
        else
          let s := s.freeze id
          let dest := if some (Tbl.get (⟨0, 0, false⟩ : MemberRec) f.members named).fab = f.masterMod then f.deputyMod else f.masterMod
          match dest with
          | some m => s.emit (.recov 0x03 (s.recMsg m id (member := named) (rseq := f.rseq)))
          | none => s
    | _, _ => s
  | _, _ => s

/-- SUSPECT: the named member is probed. -/
def State.suspectIn (s : State) (m : RecMsg) : State :=
  s.recIn 0x03 m fun s f =>
    let named := m.member.toNat
    match Tbl.find f.members named with
    | none => s
    | some r =>
      let now := s.ltime
      let s := s.modForme f.id fun f => { f with askers := insertSorted m.srcMod.toNat f.askers }
      match f.probe with
      | some _ => s
      | none => (s.modForme f.id fun f => { f with probe := some (named, now) }).emit
          (.recov 0x04 (s.recMsg r.fab f.id (member := named) (rseq := f.rseq)))

/-- PROBE: the member answers. -/
def State.probeIn (s : State) (m : RecMsg) : State :=
  s.recIn 0x04 m fun s f =>
    if (s.partHere f.id m.member.toNat).isSome then
      s.emit (.recov 0x05 { s.recMsg m.srcMod.toNat f.id (member := m.member.toNat) with rseq := m.rseq })
    else s

/-- PROBE_ANS: within 2 ms it thaws the frozen jobs. -/
def State.probeAns (s : State) (m : RecMsg) : State :=
  s.recIn 0x05 m fun s f =>
    match f.probe with
    | some (k, t) =>
      if k ≠ m.member.toNat ∨ t + 2000000 < s.ltime then s
      else
        let s := s.modForme f.id fun f => { f with probe := none, askers := [] }
        f.askers.foldl (fun s a => s.emit (.recov 0x06 (s.recMsg a f.id (member := k) (rseq := f.rseq)))) s
    | none => s

/-- PROBE_TIMEOUT: no answer within 2 ms declares the named member failed. -/
def State.probeTimeout (s : State) (id : Nat) (copy : DeputyCopy) (views : List ModuleView) : State :=
  match s.forme id with
  | none => s
  | some f =>
    match f.probe with
    | some (k, t) => (s.advanceTo (t + 2000000)).declareFailed id k copy views
    | none => s

/-- THAW. -/
def State.thawIn (s : State) (m : RecMsg) : State := s.recIn 0x06 m fun s f => s.thaw f.id

/-! ### Rolling back and resuming over the links (R372) -/

/-- ROLLBACK. -/
def State.rollbackIn (s : State) (m : RecMsg) : State :=
  s.recIn 0x07 m fun s f =>
    let r := (s.unmark f.id m.jobId.toNat m.epochNo.toNat).rollbackHere f.id m.jobId.toNat
    r.2.emit (.recov 0x08 { r.2.recMsg m.srcMod.toNat f.id (job := m.jobId.toNat) (status := b2n r.1) with
      epochNo := m.epochNo, rseq := m.rseq })

/-- ROLLED_BACK. -/
def State.rolledBackIn (s : State) (m : RecMsg) (views : List ModuleView) : State :=
  s.recIn 0x08 m fun s f =>
    let job := m.jobId.toNat
    if !f.rollbackWait.contains (job, m.srcMod.toNat) then s
    else
      let s := s.modForme f.id fun f => { f with
        rollbackWait := f.rollbackWait.filter fun e => e ≠ (job, m.srcMod.toNat)
        rolledJobs := if f.rolledJobs.contains job ∨ f.lostJobs.contains job then f.rolledJobs else f.rolledJobs ++ [job] }
      let s := if m.status = 1 then s.loseJob f job else s
      s.recoveryGoesOn f.id views

/-- SWITCHED (R260); in a recovery change RESUME follows it (Table 12-10). -/
def State.switchedRecovery (s : State) (m : CompMsg) : State :=
  s.compIn 0x26 m fun s =>
    let id := m.formeId.toNat
    let s := s.switchedIn m
    match s.forme id with
    | some f =>
      let past := f.change.any fun c => c.recovery && (c.step != .admission && c.step != .install && c.step != .switch && c.step != .aborting)
      if f.recStep = .planned ∧ past then s.resumeForme id else s
    | none => s

/-- RESUME: the frozen or rolled-back jobs go on. -/
def State.resumeIn (s : State) (m : RecMsg) : State :=
  s.recIn 0x09 m fun s f => ((s.replayHere f.id m.jobId.toNat).thaw f.id).recovered f.id

/-- LOG (R366, R372): the master keeps the copy; the module that a failed member has moved to takes the entry into its log. -/
def State.logIn (s : State) (m : RecMsg) : State :=
  s.recIn 0x0B m fun s f =>
    let job := m.jobId.toNat
    let q := m.queue.toNat
    if s.isMaster f then
      s.modForme f.id fun f => { f with logCopies := f.logCopies ++ [(m.member.toNat, job, q, m.entry)] }
    else
      let place := (s.queue q).nextPlace
      (s.modJob f.id job fun j => { j with log := j.log ++ [⟨q, place, m.entry, false, false⟩] }).modQueue q fun k =>
        { k with nextPlace := place + 1 }

/-- Imports of the old master's fences by contexts outside the forme are released, and their holders see FENCE_ERROR (R374). -/
def State.dropImports (s : State) (id old : Nat) (numbers : List Nat) : State :=
  let gone (name : Nat) : Bool := bits name 47 32 == old && numbers.contains (bits name 31 0)
  let outside (n : Nat) : Bool := decide ((s.ctx n).forme ≠ id)
  let s := { s with ctxs := s.ctxs.map fun (e : Nat × Context) =>
    if e.2.state != CtxState.free && decide (e.2.forme ≠ id) then (e.1, { e.2 with imports := e.2.imports.filter fun n => !gone n }) else e }
  let ctxOfOp (h : Nat) (r : RemoteOp) : Nat :=
    match r.core, r.stream, r.cmd with
    | some c, _, _ => (s.core c).ctx
    | none, some (e, slot), _ => ((Tbl.find (s.engine e).active slot).map fun (t : Stream) => t.ctx).getD 0
    | none, none, some (q, _) => (s.queue q).ctx
    | none, none, none => (s.core (4 * h)).ctx
  let hits := s.clusters.flatMap fun (e : Nat × Cluster) => (e.2.hub.remote.filter fun (r : RemoteOp) =>
    decide (r.mod = old) && numbers.contains r.number && outside (ctxOfOp e.1 r)).map fun r => (e.1, r)
  hits.foldl (fun (s : State) (x : Nat × RemoteOp) => s.decideRemote x.1 x.2 Sync.fenceError) s

/-- MASTER_CLAIM: fence names that carry the old master's address go to the deputy from now on. `numbers` are the forme's fences. -/
def State.masterClaim (s : State) (m : RecMsg) (numbers : List Nat) : State :=
  s.recIn 0x0A m fun s f =>
    match f.members with
    | (_, r) :: _ =>
      -- what has drained is reported to the new master
      let tells (c : Change) : Change :=
        if c.master = r.fab then { c with master := m.srcMod.toNat, drainReported := c.drainReported && f.draining.isNone } else c
      (s.modForme f.id fun f => { f with redirect := some (r.fab, m.srcMod.toNat), change := f.change.map tells }).dropImports f.id r.fab numbers
    | [] => s

/-- QUOIN (R271). From the quoin of the MOVE of member 0 on, the forme's fences are at its new module: the deputy gives them up and
the new module takes them, with the values that the deputy held (R374). -/
def State.quoinMaster (s : State) (m : CompMsg) (fences : List (Nat × Nat)) : State :=
  let id := m.formeId.toNat
  let before := ((s.forme id).bind fun f => f.change).any fun c => c.quoined
  let s := s.quoin m
  let after := ((s.forme id).bind fun f => f.change).any fun c => c.quoined
  match s.forme id with
  | some f =>
    match f.redirect, f.members with
    | some (_, deputy), (0, r) :: _ =>
      if before ∨ !after then s
      else if deputy = s.fabAddr ∧ r.fab ≠ s.fabAddr then
        let own := (s.fences.filter fun e => e.2.state != .free && decide ((s.ctx e.2.owner).forme = id)).map fun e => (e.1, e.2.value)
        (own.foldl (fun s e => s.freeFence e.1) s).emit (.fencesMoved id own)
      else if r.fab = s.fabAddr then
        let home := (s.part r.part).lay.clusters.headD 0
        let owner := ((s.ctxs.find? fun e => e.2.state != .free && decide (e.2.part = r.part)).map fun e => e.1).getD 0
        fences.foldl (fun s e => if (s.fence e.1).state = .free then
          { s with fences := Tbl.set s.fences e.1 ⟨e.2, .live, home, 0, owner, 0, 0, e.2⟩ } else s) s
      else s
    | _, _ => s
  | none => s

/-- MOVE (R264). What a failed member left behind is taken from refill sources and mirrors, not from its source (R372). -/
def State.moveRecovery (s : State) (m : CompMsg) (carry : Tbl Carry) : State :=
  s.compIn 0x28 m fun s =>
    let id := m.formeId.toNat
    let s := s.move m carry
    match s.forme id with
    | some f =>
      match f.change with
      | some c =>
        if c.recovery ∧ c.moving then
          let hit := c.own.filter fun e => e.action == actMove && f.failedMembers.contains e.member && e.fab == s.fabAddr
          hit.foldl (fun s e => s.sourceLost id e.part c true) s
        else s
      | none => s
    | none => s

/-! ### RESERVE (R373) -/

/-- RESERVE: the list replaces any earlier one. -/
def State.reserve (s : State) (q : Nat) : State :=
  s.onBulk q 0x44 fun s c b =>
    let id := atBytes b 0 4
    let n := (b.length - 8) / 8
    match s.forme id with
    | none => s.refuseCmd q c Dt.badMember
    | some f =>
      if !s.isMaster f then s.refuseCmd q c Dt.notMaster
      else if b.length < 8 ∨ b.length % 8 ≠ 0 ∨ 4096 < n then s.refuseCmd q c Dt.field
      else
        let es := (List.range n).map fun i =>
          let w := atBytes b (8 + 8 * i) 8
          (⟨bits w 15 0, BitVec.ofNat 48 (bits w 63 16)⟩ : Reserve)
        (s.modForme id fun f => { f with reserves := es }).okCmd q c

end Sys2Proof.Machine
end

