-- ==== Sys2Proof/Machine/Poison.lean ====
section
/-! DEFINITION. Poisoned blocks and what restores them, refill sources, and suspect regions (R377 to R382). -/

namespace Sys2Proof.Machine

/-! ### Regions by name (Table 12-9) -/

/-- The region that ARG0 names by its BASE, where context `n` owns it. -/
def State.namedRegion (s : State) (n base : Nat) : Except Nat Region :=
  match (s.part (s.ctx n).part).regions.find? fun g => decide (g.base = base) with
  | none => .error Dt.regionCheck
  | some g => if g.owner = n then .ok g else .error Dt.notOwner

/-- Replace a region of a partition. -/
def State.setRegion (s : State) (p : Nat) (old new : Region) : State :=
  s.modPart p fun q => { q with regions := q.regions.map fun x => if x = old then new else x }

/-- REFILL_SET (R379). -/
def State.refillSet (s : State) (src : CmdSource) : State :=
  s.onMember src 0x42 (fun _ => true) (fun c => bits (c.arg 0) 55 40)
    (fun s n a =>
      match s.namedRegion n (bits (argAt a 0) 39 0) with
      | .error d => (d, 0, s)
      | .ok g =>
        let r : Option (Bool × Nat × Nat) := match bits (argAt a 1) 1 0 with
          | 1 => some (true, bits (argAt a 2) 55 40, bits (argAt a 2) 39 0)
          | 2 => some (false, 0, bits (argAt a 2) 56 0)
          | _ => none
        (0, 0, s.setRegion (s.ctx n).part g { g with refill := r }))
    fun _ => []

/-! ### The end of recovery for a block (R207, R377, R378) -/

/-- The copies of the block at `a` of partition `p`. -/
def State.blockCopies (s : State) (p a : Nat) : List Loc :=
  let q := s.part p
  match q.secondaryOf a with
  | some r => s.copies p q.lay (a - r.mbase + r.base)
  | none => s.copies p q.lay a

/-- Operations kept for a block, in order. -/
def State.heldOps (s : State) (b : Loc) (p a : Nat) : List HeldOp :=
  (s.channel b.1).hold.filter fun h => decide (h.part = p) && decide (h.addr / 512 = a / 512)

/-- The operations kept for a block leave the hold. -/
def State.dropHeld (s : State) (b : Loc) (p a : Nat) : State :=
  s.modChannel b.1 fun k => { k with hold := k.hold.filter fun h => !(decide (h.part = p) && decide (h.addr / 512 = a / 512)) }

/-- Apply an operation that was kept to every copy of its block. -/
def State.applyHeld (s : State) (bs : List Loc) (h : HeldOp) : State :=
  match mopDecode h.mop with
  | none => s
  | some (o, t) =>
    let i := (h.addr / 64) % 8
    bs.foldl (fun s b => s.modBlock b fun k => { k with lines := Tbl.set k.lines i (applyMemOp o t (Tbl.get 0 k.lines i) h.operand) }) s

/-- Whether an entry of a poison list covers a granule. -/
def listCovers (g : Nat) (e : Nat × Nat) : Bool := g == e.2 / 128 || g == (e.2 + 63) / 128

/-- Rewrite what one entry of a poison list filled, in the granules that are still marked. -/
def Core.rewriteEntry (k : Core) (d : Nat) (v : BitVec 512) : Core :=
  { k with lm := (bytesOfLine v).zipIdx.foldl (fun m x => if k.poison.contains ((d + x.2) / 128) then m.write (d + x.2) x.1 else m) k.lm }

/-- A restored block reaches the local memory of a core: its entries leave the poison list, granules that nothing marks any more
lose their mark, and issuers held on them go on (R377). -/
def Core.restorePoison (k : Core) (a : Nat) (line : Nat → BitVec 512) : Core :=
  let mine := k.poisonList.filter fun e => decide (e.1 / 512 = a / 512)
  if mine.isEmpty then k
  else
    let k := mine.foldl (fun k e => k.rewriteEntry e.2 (line ((e.1 / 64) % 8))) k
    let left := k.poisonList.filter fun e => decide (e.1 / 512 ≠ a / 512)
    let k := { k with
      poison := k.poison.filter fun g => !(mine.any (listCovers g)) || left.any (listCovers g)
      poisonList := left }
    { k with held := k.held.filter fun g => k.headHolds g }

/-- The partition of this module from which a suspended stream reads, its own or that of a PEER source (R180). -/
def State.sourcePart (s : State) (t : Stream) : Option Nat :=
  let d := SDesc.of t.desc
  if d.srcKind = 3 then
    match s.memberPlace t.ctx (d.src / 2 ^ 40) with
    | .here p => some p
    | _ => none
  else some (s.ctx t.ctx).part

/-- Whether a stream is suspended at a poisoned line of a block of partition `p`. -/
def State.waitsOn (s : State) (t : Stream) (p a : Nat) : Bool :=
  t.cause == 0x05 && decide (t.va / 512 = a / 512) && s.sourcePart t == some p

/-- Contexts that wait for a block: of cores that hold a line of it on their poison list, and of streams suspended on it. -/
def State.poisonReaders (s : State) (p a : Nat) : List Nat :=
  let cores := s.cores.filter fun e => decide (e.2.part = p) && e.2.poisonList.any fun x => decide (x.1 / 512 = a / 512)
  let onIt (t : Stream) : Bool := s.waitsOn t p a
  let streams := s.engines.flatMap fun (e : Nat × StreamEngine) =>
    (((e.2.active.map fun (x : Nat × Stream) => x.2) ++ e.2.suspended).filter onIt).map fun t => t.ctx
  distinct ((cores.map fun e => e.2.ctx) ++ streams)

/-- Readers of a restored block go on. -/
def State.wakeReaders (s : State) (p a : Nat) (b : Loc) : State :=
  let k := s.blockAt b
  let fresh := s.freshAt b
  let line (i : Nat) : BitVec 512 := if fresh then 0 else Tbl.get 0 k.lines i
  let wake (t : Stream) : Stream :=
    if s.waitsOn t p a then { t with ready := true } else t
  { s with
    cores := s.cores.map fun (e : Nat × Core) => if e.2.part = p then (e.1, e.2.restorePoison a line) else e
    engines := s.engines.map fun (e : Nat × StreamEngine) => (e.1, { e.2 with
      active := e.2.active.map fun (x : Nat × Stream) => (x.1, wake x.2)
      suspended := e.2.suspended.map wake }) }

/-- The MEM_POISON record of a block (Table 12-4). -/
def State.poisonRecord (s : State) (p a : Nat) (b : Loc) (src : Nat) (freed : Bool) (lost : Bool) : State :=
  s.record { cause := 0x10, severity := if lost then 2 else 1, island := b.1 / 8, cluster := some (b.1 / 8), part := some p,
             member := some (s.part p).member, addr := a / 512 * 512, channel := some b.1, d5 := src + b2n freed * 4 }

/-- A page with an uncorrectable error is retired once recovery has dealt with the poison (Table 07-8). -/
def State.retireAfter (s : State) (b : Loc) : State :=
  let pg := b.2 / 8
  if (Tbl.get (⟨[], []⟩ : PageErr) (s.channel b.1).pageErr pg).uncorrected.isEmpty then s
  else
    let r := s.retirePage b.1 pg
    r.1.settle r.2

/-- A block has been restored from source `src`. -/
def State.poisonOver (s : State) (p a : Nat) (b : Loc) (src : Nat) (freed : Bool) : State :=
  let bs := s.blockCopies p a
  let ops := s.heldOps b p a
  let s := s.modBlock b fun k => { k with poison := false, told := true }
  let s := (if freed then s else ops.foldl (fun s h => s.applyHeld bs h) s).dropHeld b p a
  ((s.poisonRecord p a b src freed false).wakeReaders p a b).retireAfter b

/-- A block is lost (R379, R380): every context with an allocation that contains it, those that share its region, those that wait for
it and those whose operations were kept. -/
def State.poisonLost (s : State) (p a : Nat) (b : Loc) : State :=
  let q := s.part p
  let owners := match q.allocOf a with
    | some e => s.ownersOf p e
    | none => []
  let shared := match q.regionOf a with
    | some r => if r.shared then some (distinct (r.owner :: s.windowOwners p r)) else none
    | none => none
  let live (n : Nat) : Bool := decide (n ≠ 0) && (s.ctx n).state == .live
  let lost := (distinct (owners ++ shared.getD [] ++ s.poisonReaders p a ++ (s.heldOps b p a).map fun h => h.ctx)).filter live
  let s := (s.modBlock b fun k => { k with told := true }).dropHeld b p a
  let s := match shared with
    | some l => s.record { cause := 0x15, severity := 2, part := some p, member := some q.member, addr := a / 512 * 512,
                           channel := some b.1, d5 := (l.filter live).length }
    | none => s
  ((s.poisonRecord p a b 0 false (!lost.isEmpty)).settle (lost.map .lose)).retireAfter b

/-- Sources 3 to 5 of R379: the rollback of the job whose shadow holds the block, freshness of a page that is not allocated, or
loss. -/
def State.restoreRest (s : State) (p a : Nat) (b : Loc) : State :=
  let q := s.part p
  let job := (q.shadows.find? fun h => decide (h.chunk = a / 65536)).map fun h => h.job
  match job with
  | some j =>
    let s := ((s.modBlock b fun k => { k with told := true }).dropHeld b p a).poisonRecord p a b 3 false false
    (s.modJob q.forme j fun x => { x with affected := true }).rollbackJob q.forme j
  | none =>
    if (q.allocOf a).isNone then (s.modChannel b.1 fun k => k.setFresh (b.2 / 8) true).poisonOver p a b 0 true
    else s.poisonLost p a b

/-! ### Refill sources (R379) -/

/-- Bytes of a chunk that lie in a region: first address and length. -/
def Region.within (r : Region) (chunk : Nat) : Nat × Nat :=
  let lo := max r.base (chunk * 65536)
  let hi := min (r.base + r.length) (chunk * 65536 + 65536)
  (lo, hi - lo)

/-- Whether a refill of a chunk is under way. -/
def State.refilling (s : State) (p chunk : Nat) : Bool :=
  let mine (u : OutUse) : Bool := match u with
    | .refill p' c _ => p' == p && c == chunk
    | _ => false
  (s.peerOut.any fun o => mine o.use) || s.rdmaOut.any fun o => mine o.use

/-- Read a chunk from a peer member, 256 bytes a request, with the owner's link key. -/
def State.refillPeer (s : State) (p chunk member src : Nat) (r : Region) : State :=
  let q := s.part p
  match (s.forme q.forme).bind fun f => f.moduleOf member with
  | none => s
  | some mod =>
    let w := r.within chunk
    (List.range (w.2 / 256)).foldl (fun s i =>
      let a := w.1 + 256 * i
      let k := s.takeTag 0
      let s := { k.2 with peerOut := k.2.peerOut ++
        [(⟨0, k.1, mod, q.forme, member, (s.epochOf p).toNat, .refill p chunk ((a - chunk * 65536) / 64), k.2.ltime⟩ : PeerOut)] }
      s.sendPacket r.owner { s.packet PT.read mod with
        cls := 5, epoch := s.epochOf p, formeId := BitVec.ofNat 32 q.forme, member := BitVec.ofNat 16 member, tag := BitVec.ofNat 16 k.1,
        addr := BitVec.ofNat 40 (src + a - r.base), len := 4 }) s

/-- Read a chunk from the owner's host memory, a page a request. The flag is false while a translation is awaited. -/
def State.refillHost (s : State) (p chunk va : Nat) (r : Region) : Bool × State :=
  let x := s.ctx r.owner
  let d := dieOf ((s.part p).lay.clusters.headD 0)
  let w := r.within chunk
  let pages := List.range (w.2 / 4096)
  let looked := pages.foldl (fun (a : List (Option TcEntry) × State) i =>
    let t := a.2.lookupPage d x.conn x.asn (va + w.1 - r.base + 4096 * i) false
    (a.1 ++ [t.1], t.2)) ([], s)
  if looked.1.any Option.isNone then (false, looked.2)
  else
    (true, pages.foldl (fun s i =>
      match looked.1.getD i none with
      | none => s
      | some t =>
        let v := va + w.1 - r.base + 4096 * i
        let a := t.target + v % 2 ^ t.size.shift
        (s.hostRead x.conn a t.rkey 4096 (.refill p chunk ((w.1 + 4096 * i - chunk * 65536) / 64))).getD s) looked.2)

/-- One line of a refill is written through the region's key window to every copy. -/
def State.refillLine (s : State) (p a : Nat) (v : BitVec 512) : State :=
  let k0 := s.sealFor p a
  (s.blockCopies p a).foldl (fun s b =>
    let s := s.fillPage p a b
    s.modBlock b fun k =>
      let k := { k with buffered := true }
      if k.intact k0 then { k with lines := Tbl.set k.lines ((a / 64) % 8) v } else k.patch k0 ((a / 64) % 8) v) s

/-- Blocks of a chunk that are poisoned and not dealt with. -/
def State.poisonedIn (s : State) (p chunk : Nat) : List (Nat × Loc) :=
  (List.range 128).filterMap fun i =>
    let a := chunk * 65536 + 512 * i
    match s.locIn (s.part p).lay a with
    | some b => if (s.blockAt b).poison && !(s.blockAt b).told then some (a, b) else none
    | none => none

/-- Lines of a refill have come (R379): with the last of them its blocks are restored. `waiting` are the blocks that were poisoned. -/
def State.refillLanded (s : State) (p chunk line : Nat) (vs : List (BitVec 512)) : State :=
  let before := s.poisonedIn p chunk
  let s := vs.zipIdx.foldl (fun s x => s.refillLine p (chunk * 65536 + 64 * (line + x.2)) x.1) s
  (before.filter fun e => !(s.blockAt e.2).poison).foldl (fun s e => s.poisonOver p e.1 e.2 2 false) s

/-- A refill has failed at its source: the sources that are left are tried. -/
def State.refillFailed (s : State) (p chunk : Nat) : State :=
  let mine (u : OutUse) : Bool := match u with
    | .refill p' c _ => p' == p && c == chunk
    | _ => false
  let s := { s with peerOut := s.peerOut.filter fun o => !mine o.use, rdmaOut := s.rdmaOut.filter fun o => !mine o.use }
  (s.poisonedIn p chunk).foldl (fun s e => s.restoreRest p e.1 e.2) s

/-- A request to another module has ended unanswered: a refill goes on to the sources that are left (R379). -/
def State.endOut (s : State) (o : PeerOut) : State :=
  match o.use with
  | .refill p chunk _ => (s.dropPeer o).refillFailed p chunk
  | _ => s.endPeer o

/-- Refills of a list whose requests have ended go on to the sources that are left (R273, R379). -/
def State.endRefills (s : State) (l : List (Nat × Nat)) : State :=
  (l.filter fun e => !s.refilling e.1 e.2).foldl (fun s e => s.refillFailed e.1 e.2) s

/-- The chunks, by partition, that a member of a forme is asked to refill. -/
def State.refillsAsked (s : State) (id member : Nat) : List (Nat × Nat) :=
  (s.peerOut.filterMap fun o => match o.use with
    | .refill p chunk _ => if o.forme = id ∧ o.member = member then some (p, chunk) else none
    | _ => none).eraseDups

/-- MEMBER_FAILED (R273): besides what it does to the change, the refills asked of the member go on. -/
def State.memberGone (s : State) (m : CompMsg) : State :=
  (s.memberFailed m).endRefills (s.refillsAsked m.formeId.toNat (bits m.w4.toNat 15 0))

/-- Source 2, or what is left. -/
def State.restoreSecond (s : State) (p a : Nat) (b : Loc) : State :=
  match (s.part p).regionOf a with
  | some r =>
    match r.refill with
    | some (true, member, src) =>
      if s.refilling p (a / 65536) then s
      else
        let t := s.refillPeer p (a / 65536) member src r
        if t.refilling p (a / 65536) then t else s.restoreRest p a b
    | some (false, _, va) =>
      if s.refilling p (a / 65536) then s
      else
        let t := s.refillHost p (a / 65536) va r
        if !t.1 then t.2 else if t.2.refilling p (a / 65536) then t.2 else s.restoreRest p a b
    | none => s.restoreRest p a b
  | none => s.restoreRest p a b

/-- POISON_RESTORE (R379): the first source that exists restores the block. -/
def State.poisonRestore (s : State) (p addr : Nat) : State :=
  let q := s.part p
  let a := addr / 512 * 512
  match s.locIn q.lay a with
  | none => s
  | some b =>
    if !(s.blockAt b).poison || (s.blockAt b).told || !q.inUse then s
    else
      let k0 := s.sealFor p a
      match s.otherCopy p a with
      | some (_, prim, o) =>
        if !(s.channel o.1).fenced && (s.blockAt o).intact k0 then (s.repair p prim o b).poisonOver p a b 1 false
        else s.restoreSecond p a b
      | none => s.restoreSecond p a b

/-! ### MIRROR_RESOLVE (R382) -/

/-- The blocks of a region: primary and secondary places. -/
def State.mirrorBlocks (s : State) (p : Nat) (r : Region) : List (Loc × Loc) :=
  let l := (s.part p).lay
  (List.range (r.length / 512)).filterMap fun i =>
    match s.locIn l (r.base + 512 * i), s.locIn l (r.mbase + 512 * i) with
    | some a, some b => some (a, b)
    | _, _ => none

/-- A region is no longer suspect: the contexts that were stopped are scheduled again. -/
def State.unsuspect (s : State) (p : Nat) (r : Region) : State :=
  let s := s.setRegion p r { r with suspect := false }
  (s.windowOwners p r).foldl (fun s n =>
    if s.suspectCtx n then s
    else
      let wake (t : Stream) : Stream := if t.cause = 3 ∧ t.ctx = n then { t with ready := true } else t
      let s := (s.engines.map fun e => e.1).foldl (fun s e => s.modEngine e fun g => { g with
        active := g.active.map fun (x : Nat × Stream) => (x.1, wake x.2)
        suspended := g.suspended.map wake }) s
      ((s.cores.filter fun e => e.2.ctx == n).map fun e => e.1).foldl (fun s c => s.coreResume c) s) s

/-- MIRROR_RESOLVE with what it keeps: 0 the primary, 1 the secondary, 2 neither. -/
def State.mirrorResolve (s : State) (src : CmdSource) (keep : Nat) : State :=
  s.onMember src 0x43 (fun c => decide (bits (c.arg 1) 1 0 = keep)) (fun c => bits (c.arg 0) 55 40)
    (fun s n a =>
      match s.namedRegion n (bits (argAt a 0) 39 0) with
      | .error d => (d, 0, s)
      | .ok r =>
        let p := (s.ctx n).part
        if !r.mirror then (Dt.regionCheck, 0, s)
        else
          let bs := s.mirrorBlocks p r
          let s := if keep = 0 then bs.foldl (fun s e => s.rewrite e.1 e.2) s
            else if keep = 1 then bs.foldl (fun s e => s.rewrite e.2 e.1) s
            else bs.foldl (fun s e => [e.1, e.2].foldl (fun s b =>
              (s.modChannel b.1 fun k => if k.fresh (b.2 / 8) then { k with used := insertSorted (b.2 / 8) k.used } else k).poison b) s) s
          (0, 0, s.unsuspect p r))
    fun _ => []

end Sys2Proof.Machine
end

