-- ==== Sys2Proof/Machine/Ethernet.lean ====
section
/-! DEFINITION. Ethernet ports, host connections, their planes, and the module's RDMA operations at its hosts (R476 to R489,
R553). -/

namespace Sys2Proof.Machine

/-! ### Ports (R476 to R478) -/

/-- Port `p`. -/
def State.port (s : State) (p : Nat) : Port := Tbl.get Port.reset s.ports p

/-- Change port `p`. -/
def State.modPort (s : State) (p : Nat) (f : Port → Port) : State := { s with ports := Tbl.set s.ports p (f (s.port p)) }

/-- A saturating 32-bit counter counts one more. -/
def count32 (n : Nat) : Nat := min (n + 1) (2 ^ 32 - 1)

/-- The rate of a mode in Mb/s (Table 16-1). -/
def modeRate (m : Nat) : Nat := if m = 1 ∨ m = 2 then 400000 else if m = 3 ∨ m = 4 then 200000 else 100000

/-- Whether the Ethernet islands run: from step 6 of a boot on (R505). -/
def State.ethRuns (s : State) : Bool := s.pm.st == .ready || (s.pm.st == .booting && decide (6 < s.pm.step))

/-- The port of a connection on a plane. -/
def Conn.portOn (c : Conn) (plane : Nat) : Nat := if plane = 0 then c.portA else c.portB

/-- Whether a plane of a connection has failed. -/
def Conn.failed (c : Conn) (plane : Nat) : Bool := if plane = 0 then c.failA else c.failB

/-- Mark a plane. -/
def Conn.mark (c : Conn) (plane : Nat) (v : Bool) : Conn := if plane = 0 then { c with failA := v } else { c with failB := v }

/-- The other plane. -/
def otherPlane (plane : Nat) : Nat := 1 - plane

/-! ### Operations that fail (R294, R379, R489, R553) -/

/-- An operation fails: it is forgotten, and what waited for it learns of it. -/
def State.rdmaGone (s : State) (id : Nat) : State :=
  match s.rdmaOut.find? fun o => o.id == id with
  | none => s
  | some o =>
    match o.use with
    | .stream _ _ => s.rdmaFailed id
    | .bulk q place => (s.endRdma id).finish q place { status := St.refused, detail := Dt.bulkRead }
    | .refill p chunk _ => (s.endRdma id).refillFailed p chunk
    | _ => s.endRdma id

/-- Every operation of a connection is lost. -/
def State.rdmaLostAll (s : State) (conn : Nat) : State :=
  ((s.rdmaOut.filter fun o => o.conn == conn).map fun o => o.id).foldl (fun s id => s.rdmaGone id) s

/-! ### Service messages (R482) -/

/-- A service message with every field zero. -/
def SvcMsg.zero : SvcMsg := ⟨0, 0, 0, 0, 0, 0, 0, 0, 0, 0⟩

/-- Send a service message of a connection on a plane. -/
def State.service (s : State) (conn plane sop : Nat) (m : SvcMsg) : State := s.emit (.service conn plane sop m)

/-- The answer to a request, with its STATUS. -/
def State.answerSvc (s : State) (conn plane sop status : Nat) (req : SvcMsg) (m : SvcMsg := SvcMsg.zero) : State :=
  s.service conn plane sop { m with status := BitVec.ofNat 8 status, conn := BitVec.ofNat 16 conn, reqId := req.reqId }

namespace SvcSt
def ok : Nat := 0
def noConn : Nat := 1
def field : Nat := 2
def noPath : Nat := 3
def unknown : Nat := 4
def inUse : Nat := 5
end SvcSt

/-- LAST_PSEQ and its validity bit (Table 16-4). -/
def Conn.lastWord (c : Conn) : BitVec 64 :=
  match c.lastPseq with
  | some n => BitVec.ofNat 64 (n % 2 ^ 16 + 2 ^ 16)
  | none => 0

/-! ### Opening and closing (R483 to R485) -/

/-- Whether a CONN_REQ is well formed. -/
def connReqGood (m : SvcMsg) : Bool :=
  let w5 := m.w5.toNat
  let w7 := m.w7.toNat
  let t := bits w7 31 0
  m.status == 0 && decide (bits w5 63 55 = 0) && decide (bits w5 50 48 < 4) && decide (bits w5 53 51 < 7) &&
    decide (bits m.w6.toNat 63 48 = 0) && decide (bits w7 63 48 = 0) && decide (t = 0 ∨ (10 ≤ t ∧ t ≤ 60000))

/-- Queue pairs of a connection that has just been opened or restored: rates at the port rate. -/
def State.freshQps (s : State) (c : Conn) : Conn :=
  let r (plane : Nat) : QpRate := ⟨modeRate (s.port (c.portOn plane)).mode, 0, none, s.ltime, none⟩
  { c with rates := [r 0, r 1, r 0, r 1], failA := false, failB := false, switching := none, probeA := none, probeB := none }

/-- What a CONN_REQ sets of a connection, on the receiving port. -/
def State.connFrom (s : State) (c : Conn) (port : Nat) (m : SvcMsg) (ix : Nat) : Conn :=
  let w5 := m.w5.toNat
  let w6 := m.w6.toNat
  let w7 := m.w7.toNat
  let other := bits w5 50 48
  let t := bits w7 31 0
  let qpn (i : Nat) : Nat := (Config.freeBits 24 (ix + i)).toNat
  s.freshQps { c with
    st := .up
    portA := if port < 4 then port else other
    portB := if port < 4 then 4 + other else port
    active := port / 4
    cls := bits w5 53 51
    prTimeout := if t = 0 then 1000 else t
    hostQpn := [bits w5 23 0, bits w5 47 24, bits w6 23 0, bits w6 47 24]
    modQpn := [qpn 0, qpn 1, qpn 2, qpn 3]
    gidA := m.w1.toNat + m.w2.toNat * 2 ^ 64
    gidB := m.w3.toNat + m.w4.toNat * 2 ^ 64 }

/-- CONN_ACK with the module's queue pairs and KEYTAG. -/
def State.connAck (s : State) (n plane : Nat) (m : SvcMsg) : State :=
  let c := s.conn n
  let q (i : Nat) : Nat := c.modQpn.getD i 0
  s.answerSvc n plane 0x02 SvcSt.ok m { SvcMsg.zero with
    w5 := BitVec.ofNat 64 (q 0 + q 1 * 2 ^ 24), w6 := BitVec.ofNat 64 (q 2 + q 3 * 2 ^ 24), w7 := BitVec.ofNat 64 (c.keytag * 2 ^ 32) }

/-- The completions that waited while a connection was broken are written (R484, R494). -/
def State.flushConn (s : State) (n : Nat) : State :=
  ((s.crings.filter fun e => e.2.defined && decide (e.2.conn = n)).map fun e => e.1).foldl (fun s r => s.flushRing r) s

/-- CONN_REQ (R483, R484): it opens a connection on the receiving port and the named one, or restores a broken one. -/
def State.connReq (s : State) (port : Nat) (m : SvcMsg) : State :=
  let plane := port / 4
  let other := bits m.w5.toNat 50 48 + (if port < 4 then 4 else 0)
  let n := m.conn.toNat
  if s.pm.st ≠ .ready ∨ !(s.port port).up then s
  else if !connReqGood m then s.answerSvc n plane 0x02 SvcSt.field m
  else if bit m.w5.toNat 54 then
    let c := s.conn n
    if c.st ≠ .broken ∨ c.brokenAt + 60 * 10 ^ 9 < s.ltime ∨ c.keytag ≠ bits m.w7.toNat 47 32 ∨ 256 ≤ n then s.answerSvc n plane 0x02 SvcSt.unknown m
    else if !(s.port other).up then s.answerSvc n plane 0x02 SvcSt.noPath m
    else
      let ix := s.freeIx
      let s := { s with freeIx := ix + 4 }
      ((s.modConn n fun c => s.connFrom c port m ix).connAck n plane m).flushConn n
  else
    match (List.range 256).find? fun i => decide ((s.conn i).st = .free) with
    | none => s.answerSvc n plane 0x02 SvcSt.noConn m
    | some i =>
      if !(s.port other).up then s.answerSvc n plane 0x02 SvcSt.noPath m
      else
        let ix := s.freeIx
        let s := { s with freeIx := ix + 5 }
        let tag := (Config.freeBits 16 (ix + 4)).toNat
        (s.modConn i fun _ => { (s.connFrom Conn.reset port m ix) with keytag := if tag = 0 then 1 else tag }).connAck i plane m

/-- A connection ends (R484): its rings are removed, its operations lost, its number is free, and it leaves every share list
(R399). -/
def State.closeConn (s : State) (n : Nat) : State :=
  let c := s.conn n
  let port := c.portOn c.active
  let s := s.rdmaLostAll n
  let waiting := s.crings.foldl (fun a e => if e.2.defined ∧ e.2.conn = n then a + e.2.waiting.length else a) 0
  let s := { s with
    crings := s.crings.map fun (e : Nat × CRing) =>
      if e.2.defined ∧ e.2.conn = n then (e.1, { e.2 with defined := false, waiting := [], closed := some port }) else e
    shares := s.shares.map fun (e : Nat × ShareList) => (e.1, { e.2 with members := e.2.members.filter fun m => m ≠ n + 2 ^ 16 })
    conns := Tbl.del s.conns n }
  if waiting = 0 then s else s.modPort port fun k => { k with crDiscard := min (k.crDiscard + waiting) (2 ^ 32 - 1) }

/-- CLOSE (R484). -/
def State.closeReq (s : State) (n : Nat) (m : SvcMsg) : State :=
  let c := s.conn n
  if c.st ≠ .up then s
  else if m.status ≠ 0 ∨ [m.w1, m.w2, m.w3, m.w4, m.w5, m.w6, m.w7].any (fun w => w != 0) then s.answerSvc n c.active 0x06 SvcSt.field m
  else (s.answerSvc n c.active 0x06 SvcSt.ok m).closeConn n

/-- CONNECTION_BREAK_EXPIRY (R484): a broken connection is closed after 60 s. -/
def State.breakExpiry (s : State) (n : Nat) : State :=
  let c := s.conn n
  if c.st = .broken then (s.advanceTo (c.brokenAt + 60 * 10 ^ 9)).closeConn n else s

/-- Whether a queue names a completion ring. -/
def State.ringNamed (s : State) (r : Nat) : Bool :=
  (s.queues.any fun e => e.2.inUse && decide (e.1 ≠ 0) && decide (e.2.cring = r)) || (decide (r = 0) && s.adminOn)

/-- CRING_SET (R485). -/
def State.cringSet (s : State) (n : Nat) (m : SvcMsg) : State :=
  let c := s.conn n
  let w2 := m.w2.toNat
  let log := bits w2 36 32
  let r := bits w2 48 37
  let k := s.cring r
  if c.st ≠ .up then s
  else if m.status ≠ 0 ∨ bits w2 63 49 ≠ 0 ∨ [m.w3, m.w4, m.w5, m.w6, m.w7].any (fun w => w != 0) ∨ (log ≠ 0 ∧ (log < 6 ∨ 16 < log)) then
    s.answerSvc n c.active 0x04 SvcSt.field m
  else if k.defined ∧ (k.conn ≠ n ∨ s.ringNamed r) then s.answerSvc n c.active 0x04 SvcSt.inUse m
  else
    let s := if log = 0 then s.modCring r fun _ => CRing.reset
      else s.modCring r fun k => { CRing.reset with
        defined := true, conn := n, addr := m.w1.toNat, rkey := bits w2 31 0, log := log, phase := true, waiting := k.waiting }
    (s.answerSvc n c.active 0x04 SvcSt.ok m).flushRing r

/-! ### Planes (R486 to R489) -/

/-- PAIR_SWITCH is sent on a plane, with LAST_PSEQ. -/
def State.sendSwitch (s : State) (n plane : Nat) : State :=
  s.service n plane 0x07 { SvcMsg.zero with conn := BitVec.ofNat 16 n, w1 := (s.conn n).lastWord }

/-- A connection breaks: its outstanding operations are lost. -/
def State.breakConn (s : State) (n : Nat) : State :=
  let now := s.ltime
  (s.modConn n fun c => { c with st := .broken, failA := true, failB := true, switching := none, brokenAt := now }).rdmaLostAll n

/-- A plane of an open connection fails. -/
def State.planeFails (s : State) (n plane : Nat) : State :=
  let c := s.conn n
  if c.st ≠ .up ∨ c.failed plane then s
  else if c.failed (otherPlane plane) then s.breakConn n
  else
    let now := s.ltime
    let s := s.modConn n fun c => c.mark plane true
    if c.active = plane then
      (s.modConn n fun c => { c with switching := some ⟨2, now⟩ }).sendSwitch n (otherPlane plane)
    else s

/-- PORT_DOWN (R478): the plane of every connection that used the port fails. -/
def State.portDown (s : State) (p : Nat) : State :=
  if (s.port p).up then
    let s := s.modPort p fun k => { k with up := false, mode := 0 }
    ((s.conns.filter fun e => e.2.st == .up && decide (e.2.portOn (p / 4) = p)).map fun e => e.1).foldl (fun s n => s.planeFails n (p / 4)) s
  else s

/-- AUTO_NEGOTIATION (R476): the highest mode that both ends enable; without lane 1 the two-lane modes fall away. -/
def State.autoNegotiate (s : State) (p : Nat) (partner : BitVec 6) (lane1 : Bool) : State :=
  if s.ethRuns ∧ !s.dieFenced.contains (2 * (p / 4)) ∧ !s.power.railsOff.any (fun r => decide (32 ≤ r ∧ r % 2 = p / 4)) then
    let k := s.port p
    let common := (rangeFrom 1 6).filter fun m => bit k.modesEn (m - 1) && bit partner.toNat (m - 1)
    let best := (common.filter fun m => lane1 || decide (3 ≤ m)).headD 0
    let s := if best = 0 then s.portDown p else s
    s.modPort p fun k => { k with
      up := decide (best ≠ 0), mode := best, lane1Fail := !lane1 && common.any fun m => decide (m < 3) }
  else s

/-- The probe outstanding on a plane. -/
def Conn.probe (c : Conn) (plane : Nat) : Option Nat := if plane = 0 then c.probeA else c.probeB

/-- Write the probe of a plane. -/
def Conn.setProbe (c : Conn) (plane : Nat) (v : Option Nat) : Conn := if plane = 0 then { c with probeA := v } else { c with probeB := v }

/-- PLANE_FAILURE (R486): the port is down, a probe is unanswered for 150 µs, or operations on the active plane are outstanding and
no acknowledgement has advanced for 150 µs. -/
def State.planeFailure (s : State) (n plane : Nat) : State :=
  let c := s.conn n
  if c.st ≠ .up then s
  else if !(s.port (c.portOn plane)).up then s.planeFails n plane
  else
    match c.probe plane, s.rdmaOut.find? fun o => o.conn == n && !o.held with
    | some t, _ => (s.advanceTo (t + 150000)).planeFails n plane
    | none, some o => if c.active = plane then (s.advanceTo (max o.sentAt c.ackAt + 150000)).planeFails n plane else s
    | none, none => s

/-- Operations that the host has not acknowledged are sent again (R489). -/
def State.resendRdma (s : State) (n : Nat) : State :=
  let now := s.ltime
  let s := (s.rdmaOut.filter fun o => o.conn == n && !o.held).foldl (fun s o => s.sendRdma o) s
  { s with rdmaOut := s.rdmaOut.map fun o => if o.conn = n ∧ !o.held then { o with tries := 0, sentAt := now } else o }

/-- The plane becomes active (Table 16-5, step 4). -/
def State.switchTo (s : State) (n plane : Nat) : State :=
  let s := s.modConn n fun c => { (c.mark (otherPlane plane) true) with active := plane, switching := none }
  ({ s with nets := Tbl.mod NetBlock.reset s.nets plane fun k => { k with planeSwitches := count32 k.planeSwitches } } : State).resendRdma n

/-- PAIR_SWITCH (R488): the host declares the other plane failed; it is answered, and counts as the answer to the module's own. -/
def State.pairSwitch (s : State) (n plane : Nat) (m : SvcMsg) : State :=
  let c := s.conn n
  if c.st ≠ .up ∨ c.failed plane then s
  else if m.status ≠ 0 ∨ [m.w1, m.w2, m.w3, m.w4, m.w5, m.w6, m.w7].any (fun w => w != 0) then s.answerSvc n plane 0x08 SvcSt.field m
  else
    let s := s.answerSvc n plane 0x08 SvcSt.ok m { SvcMsg.zero with w1 := c.lastWord }
    if c.active = plane then s.modConn n fun c => c.mark (otherPlane plane) true else s.switchTo n plane

/-- PAIR_SWITCH_ACK (R488). -/
def State.pairSwitchAck (s : State) (n : Nat) : State :=
  let c := s.conn n
  if c.st = .up ∧ c.switching.isSome then s.switchTo n (otherPlane c.active) else s

/-- PAIR_SWITCH_RETRY (R488): twice more at intervals of 300 µs; then the connection is broken. -/
def State.pairSwitchRetry (s : State) (n : Nat) : State :=
  let c := s.conn n
  match c.st == .up, c.switching with
  | true, some w =>
    let s := s.advanceTo (w.sentAt + 300000)
    let now := s.ltime
    if w.left = 0 then s.breakConn n
    else (s.modConn n fun c => { c with switching := some ⟨w.left - 1, now⟩ }).sendSwitch n (otherPlane c.active)
  | _, _ => s

/-- A plane that has failed becomes standby when a probe on it is answered, by either side (R486). -/
def Conn.restore (c : Conn) (plane : Nat) : Conn := if c.failed plane ∧ c.active ≠ plane then c.mark plane false else c

/-- PAIR_PROBE (R486): a probe of the host is answered on its plane, which becomes standby where it had failed. -/
def State.pairProbe (s : State) (n plane : Nat) (m : SvcMsg) : State :=
  if (s.conn n).st ≠ .up ∨ !(s.port ((s.conn n).portOn plane)).up then s
  else if m.status ≠ 0 ∨ [m.w1, m.w2, m.w3, m.w4, m.w5, m.w6, m.w7].any (fun w => w != 0) then s.answerSvc n plane 0x0A SvcSt.field m
  else (s.answerSvc n plane 0x0A SvcSt.ok m).modConn n fun c => c.restore plane

/-- PAIR_PROBE_ANS (R486): a failed plane becomes standby, its queue pairs reset. -/
def State.probeAnswered (s : State) (n plane : Nat) : State :=
  let c := s.conn n
  if c.st ≠ .up then s
  else
    match c.probe plane with
    | none => s
    | some _ => s.modConn n fun c => (c.setProbe plane none).restore plane

/-- PAIR_PROBE_SEND (R486): a plane that has carried nothing for 100 µs, or has been failed for 10 ms. -/
def State.probeSend (s : State) (n plane : Nat) : State :=
  let c := s.conn n
  if c.st ≠ .up ∨ ((c.probe plane).isSome ∧ !c.failed plane) ∨ !(s.port (c.portOn plane)).up then s
  else
    let now := s.ltime
    (s.modConn n fun c => c.setProbe plane (some now)).service n plane 0x09 { SvcMsg.zero with conn := BitVec.ofNat 16 n }

/-! ### The module's operations (R479 to R481, R489) -/

/-- Bytes as lines. -/
def linesOf (b : List Byte) : List (BitVec 512) := (List.range (b.length / 64)).map fun i => BitVec.ofNat 512 (atBytes b (64 * i) 64)

/-- RDMA_READ_RESPONSE (R294, R379): data of a read; with the last of it, what waited for it goes on. -/
def State.readResponse (s : State) (id : Nat) (data : List Byte) : State :=
  match s.rdmaOut.find? fun o => o.id == id && o.isRead && !o.held with
  | none => s
  | some o =>
    let now := s.ltime
    let s := s.modConn o.conn fun c => { c with ackAt := now }
    let got := o.got ++ data
    if got.length < o.len then { s with rdmaOut := s.rdmaOut.map fun x => if x.id = id then { x with got := got } else x }
    else
      let b := got.take o.len
      let s := s.endRdma id
      match o.use with
      | .stream e r => s.readReturned e r (BitVec.ofNat 512 (leNat b))
      | .bulk q place => s.modCmd q place fun c => { c with bulk := some b }
      | .refill p chunk line => s.refillLanded p chunk line (linesOf b)
      | _ => s

/-- ROCE_ACKNOWLEDGE (R480): an acknowledgement of a write, or a NAK of any operation. -/
def State.roceAck (s : State) (id : Nat) (ok : Bool) : State :=
  match s.rdmaOut.find? fun o => o.id == id && !o.held with
  | none => s
  | some o =>
    if !ok then s.rdmaGone id
    else if o.isRead then s
    else
      let now := s.ltime
      let s := (s.modConn o.conn fun c => { c with ackAt := now }).endRdma id
      match o.use with
      | .stream e r => s.writeReturned e r
      | _ => s

/-- ROCE_ACK_TIMEOUT (R480): after 32 µs the operation is sent again, three times at most. -/
def State.roceTimeout (s : State) (id : Nat) : State :=
  match s.rdmaOut.find? fun o => o.id == id && !o.held with
  | none => s
  | some o =>
    if 3 ≤ o.tries ∨ (s.conn o.conn).st ≠ .up then s
    else
      let s := s.advanceTo (o.sentAt + 32000 * (o.tries + 1))
      { (s.sendRdma o) with rdmaOut := s.rdmaOut.map fun x => if x.id = id then { x with tries := o.tries + 1 } else x }

/-- Change the rate of a queue pair of a connection. -/
def State.modQp (s : State) (n qp : Nat) (f : QpRate → QpRate) : State :=
  s.modConn n fun c => { c with rates := c.rates.zipIdx.map fun e => if e.2 = qp then f e.1 else e.1 }

/-- The port rate of a queue pair. -/
def State.qpPortRate (s : State) (n qp : Nat) : Nat := modeRate (s.port ((s.conn n).portOn (qp % 2))).mode

/-- CNP (R481): the rate falls, at most once in 25 µs. -/
def State.cnpIn (s : State) (n qp : Nat) : State :=
  let now := s.ltime
  s.modQp n qp fun r =>
    if r.lastDec.any fun t => decide (now < t + 25000) then r
    else { r with prev := r.rate, rate := max 1000 (3 * r.rate / 4), lastDec := some now }

/-- RATE_INCREASE (R481): after 50 µs without a decrease. -/
def State.rateIncrease (s : State) (n qp : Nat) : State :=
  match (s.conn n).rates.drop qp with
  | [] => s
  | r :: _ =>
    let s := s.advanceTo (max (r.lastDec.getD 0) r.lastStep + 50000)
    let now := s.ltime
    let top := s.qpPortRate n qp
    s.modQp n qp fun r => { r with rate := min top (r.rate + 4000 + (r.prev - r.rate) / 2), lastStep := now }

/-- CE_MARKED_PACKET (R481): a CNP to the source, at most once in 25 µs for a queue pair. -/
def State.ceMarked (s : State) (n qp : Nat) : State :=
  match (s.conn n).rates.drop qp with
  | [] => s
  | r :: _ =>
    let now := s.ltime
    let quiet := match r.lastCnp with
      | some t => decide (now < t + 25000)
      | none => false
    if quiet then s else (s.modQp n qp fun r => { r with lastCnp := some now }).emit (.cnp n qp)

/-! ### Answers of a port (R477) -/

/-- ARP: a request for the port's IPv4 address. -/
def State.arp (s : State) (p addr : Nat) : State :=
  let k := s.port p
  if k.up && k.ipv4V && decide (addr = k.ipv4) then s.emit (.arpReply p addr) else s

/-- The link-local address formed from a MAC address (RFC 4291). -/
def linkLocal (mac : Nat) : Nat :=
  0xFE80 * 2 ^ 112 + ((bits mac 47 24) ^^^ 0x020000) * 2 ^ 40 + 0xFFFE * 2 ^ 24 + bits mac 23 0

/-- NEIGHBOUR_DISCOVERY: a solicitation of one of the port's IPv6 addresses. -/
def State.neighbour (s : State) (p addr : Nat) : State :=
  let k := s.port p
  if k.up && ((k.ipv6V && decide (addr = k.ipv6)) || decide (addr = linkLocal k.mac)) then s.emit (.ndReply p addr) else s

/-- ICMP_ECHO: a request is answered with its data. -/
def State.icmpEcho (s : State) (p : Nat) (data : List Byte) : State := if (s.port p).up then s.emit (.echoReply p data) else s

/-- PRIORITY_FLOW_CONTROL: a frame for the priority that is enabled pauses sending, or resumes it. -/
def State.flowControl (s : State) (p prio : Nat) (pause : Bool) : State :=
  let k := s.port p
  if k.up && k.pfcEn && decide (prio = k.pfcPrio) then s.modPort p fun k => { k with paused := pause } else s

end Sys2Proof.Machine
end

