-- ==== Sys2Proof/Machine/LinkTrain.lean ====
section
/-! DEFINITION. The meanings of the rows that train a link, take it down and keep it down, and of routing entries (R453 to R461,
R468, R469, R474, R475). -/

namespace Sys2Proof.Machine

/-- A LINK record (R475). -/
def State.linkRecord (s : State) (l event sev : Nat) (count : Nat := 0) : State :=
  s.record { cause := 0x41, severity := sev, island := 52 + l / 4,
             d5 := event + l * 2 ^ 8 + ((s.link l).partnerMod % 2 ^ 16) * 2 ^ 12 + (count % 2 ^ 32) * 2 ^ 32 }

/-! The events of R475. -/
namespace LinkEvent
def down : Nat := 0x01
def up : Nat := 0x02
def retrainFail : Nat := 0x03
def guardReject : Nat := 0x04
def authFail : Nat := 0x05
def walkDone : Nat := 0x06
def walkConflict : Nat := 0x07
end LinkEvent

/-! ### Going down (R458, R469) -/

/-- Packets of a lost link leave as detours; where the partner has no other link, the lost link leaves every mask and the packet
follows the links that remain. -/
def State.detourAll (s : State) (l : Nat) : List (Option Nat × Packet) → State
  | [] => s
  | (fseq, p) :: r =>
    let s := match s.detourBy l p fseq with
      | (s, true) => s
      | (s, false) =>
        match (s.clearLink l).launch p with
        | .gone s => s
        | .unreachable s => s.drop l p 5
    State.detourAll s l r

/-- LINK_DOWN (R458, R469): KIND DOWN is sent, a record written, and what was not acknowledged or waits is resent as detours. A link
that was REJECTED still waits for RETRAIN (R460; assumption 44). -/
def State.linkDown (s : State) (l : Nat) : State :=
  let k := s.link l
  if k.state = .down then s
  else
    let s := (s.emit (.flit l .down ((k.rxPos + 4095) % 4096))).linkRecord l LinkEvent.down 3
    let again := (k.retry.filterMap fun e => match e.2 with
        | .packet p => some (some (e.1 % 4096), p)
        | .nak _ => none) ++ k.waiting.map fun p => (none, p)
    let note : Option DetourRec :=
      if k.state = .up then some ⟨k.epoch, if k.rxPos = 0 then none else some ((k.rxPos + 4095) % 4096), s.ltime⟩ else k.record
    let s := s.modLink l fun k => { k with
      state := .down, downAt := some s.ltime, waits := k.waits || decide (k.state = .rejected), hello := false, nextPos := 0, acked := 0, retry := [], replays := 0, rxPos := 0,
      nakSent := false, uncorrAt := [], credits := [], waiting := [], granted := [], rxCredits := [], buffered := [], arb := LinkArb.reset,
      record := note }
    let s := k.waiting.foldl (fun s p => s.freeBuffered p) s
    let s := { s with routing := s.routing.map fun (e : Nat × Nat) =>
      (e.1, if k.partnerV && e.1 == k.partnerMod && e.2.testBit l then e.2 - 2 ^ l else e.2) }
    s.detourAll l again

/-- BLOCK_LOCK_LOSS (R458). -/
def State.lockLoss (s : State) (l : Nat) : State := s.linkDown l

/-- DOWN (R458): KIND DOWN from the partner. -/
def State.downReceived (s : State) (l : Nat) : State := s.linkDown l

/-! ### Training (R454) -/

/-- Begin at step 1, at local time `now`. -/
def Link.train (k : Link) (now : Nat) : Link := { k with state := .training 1, hello := false, stepAt := now }

/-- The bound of the step of Table 15-2 that a link is in, in ns. -/
def LinkState.bound : LinkState → Nat
  | .training 1 => 100000
  | .training 2 => 5000000
  | .training 3 => 1000000
  | .training _ => 100000
  | .guarding false => 20000000
  | .guarding true => 10000
  | _ => 0

/-- Credits when a link comes UP (Table 15-7). -/
def initialCredits : Tbl Nat := (List.range 16).map fun i => (i, reservedSlots i)

/-- Whether the link islands run (R505): in READY, from step 6 of a boot on, and through a module reset, which leaves them alone. -/
def State.linksRun (s : State) : Bool :=
  s.pm.st == .ready || (s.pm.st == .booting && (s.pm.byReset || decide (6 < s.pm.step)))

/-- Whether link `l` can train: its island runs, its die is not fenced off and its rails are on. -/
def State.mayTrain (s : State) (l : Nat) : Bool :=
  s.linksRun && !s.dieFenced.contains (l / 4) && !s.power.railsOff.any fun r => decide (r < 32 ∧ r % 4 = l / 4)

/-- LINK_TRAINING (R454): a link that may train begins, or goes on to the next step of Table 15-2. Step 4 ends at TRAIN and step 5
at PROOF. -/
def State.linkTraining (s : State) (l : Nat) : State :=
  let k := s.link l
  match k.state with
  | .down =>
    if k.disable ∨ k.waits ∨ !s.mayTrain l then s
    else
      let s := match k.downAt with
        | some t => s.advanceTo (t + 1000000)
        | none => s
      s.modLink l fun k => k.train s.ltime
  | .training n =>
    if n < 3 then s.modLink l fun k => { k with state := .training (n + 1), stepAt := s.ltime }
    else if n = 3 then
      (s.modLink l fun k => { k with state := .training 4, stepAt := s.ltime }).emit (.train l s.fabAddr s.fabV k.epoch)
    else s
  | .guarding true =>
    (s.modLink l fun k => { k with
      state := .up, credits := initialCredits, nextPos := 0, acked := 0, retry := [], replays := 0, rxPos := 0, nakSent := false,
      granted := [], rxCredits := initialCredits }).linkRecord l LinkEvent.up 0
  | _ => s

/-- TRAINING_STEP_OVERRUN (R454): the bound of the step is reached, and training starts again, or after three failures within 1 s the link stays DOWN. -/
def State.trainOverrun (s : State) (l : Nat) : State :=
  let k := s.link l
  let s := if k.state.bound = 0 then s else s.advanceTo (k.stepAt + k.state.bound)
  let failed := (k.failed.filter fun t => decide (s.ltime < t + 1000000000)) ++ [s.ltime]
  let fail (s : State) : State :=
    if 3 ≤ failed.length then
      (s.modLink l fun k => { k with state := .down, downAt := some s.ltime, waits := true, failed := [], hello := false }).linkRecord
        l LinkEvent.retrainFail 3
    else s.modLink l fun k => { k.train s.ltime with failed := failed }
  match k.state with
  | .training _ | .guarding _ => fail s
  | _ => s

/-- TRAIN (R454, step 4): the partner's identity, and LINK_EPOCH one more than the larger proposal. -/
def State.trainReceived (s : State) (l serial plink fab : Nat) (fabV : Bool) (epoch rtt : Nat) : State :=
  let k := s.link l
  match k.state with
  | .training 4 =>
    (s.modLink l fun k => { k with
      partnerSerial := serial, partnerLink := plink, partnerMod := if fabV then fab else 0, partnerV := fabV,
      epoch := (max k.epoch epoch + 1) % 2 ^ 16, rtt := min rtt 1023, state := .guarding false, hello := false, stepAt := s.ltime }).emit
      (.guard l false)
  | _ => s

/-- HELLO (R459): PROOF follows. -/
def State.helloReceived (s : State) (l : Nat) : State :=
  let k := s.link l
  match k.state with
  | .guarding false =>
    if k.hello then s else (s.modLink l fun k => { k with hello := true }).emit (.guard l true)
  | _ => s

/-- The CONFIG of a colophon (Table 13-15). -/
def Security.config (c : Security) : BitVec 384 :=
  if c.lc < 2 then 0 else Config.sha384 (leBytes c.ownerEc.toNat 48 ++ leBytes c.ownerLms.toNat 48)

/-- PROOF (R460): the partner is accepted when its signatures verify, the nonce matches its key, and STATE and CONFIG equal the
module's own, in PROVISIONED or FIELD. -/
def State.proofReceived (s : State) (l : Nat) (sigs nonce : Bool) (state : Nat) (config : BitVec 384) : State :=
  let k := s.link l
  match k.state with
  | .guarding false =>
    if !k.hello then s
    else if sigs && nonce && decide (state = s.sec.lc) && decide (config = s.sec.config) && decide (s.sec.lc = 1 ∨ s.sec.lc = 2) then
      s.modLink l fun k => { k with state := .guarding true, stepAt := s.ltime }
    else (s.modLink l fun k => { k with state := .rejected }).linkRecord l LinkEvent.guardReject 3
  | _ => s

/-! ### Flits that concern the link alone (R457, R461) -/

/-- An ACKSEQ is applied: one at or before that held changes nothing. -/
def Link.ackTo (k : Link) (ackSeq : Nat) : Link :=
  let d := (ackSeq + 1 + 4096 - k.acked % 4096) % 4096
  if 1 ≤ d ∧ k.acked + d ≤ k.nextPos then
    { k with acked := k.acked + d, replays := 0, retry := k.retry.filter fun e => decide (k.acked + d ≤ e.1) }
  else k

/-- What the retry buffer holds is sent again, byte for byte. -/
def State.resendAll (s : State) (l : Nat) : List (Nat × RetryItem) → State
  | [] => s
  | (_, .packet p) :: r => State.resendAll (s.emit (.packet l p)) l r
  | (_, .nak a) :: r => State.resendAll (s.emit (.flit l .nak a)) l r

/-- NAK (R457, R458): every flit after ACKSEQ is sent again; the eighth replay of one flit takes the link down. -/
def State.nakReceived (s : State) (l ackSeq : Nat) : State :=
  if (s.link l).state = .up then
    let s := s.modLink l fun k =>
      let k := k.ackTo ackSeq
      { k with replay := count16 k.replay, replays := k.replays + 1 }
    if 8 ≤ (s.link l).replays then s.linkDown l else s.resendAll l (s.link l).retry
  else s

/-- DETOUR_RECORD_EXPIRY (R469): 1 ms after the link went down. -/
def State.detourExpiry (s : State) (l : Nat) : State :=
  match (s.link l).record with
  | some r => (s.advanceTo (r.at_ + 1000000)).modLink l fun k => { k with record := none }
  | none => s

/-! ### Registers (R454, R458, R468, R474) -/

/-- RETRAIN: a write of 1 takes the link down and trains it. -/
def State.retrain (s : State) (l : Nat) (v : Bool) : State :=
  if v then
    let s := s.linkDown l
    if (s.link l).disable then s
    else s.modLink l fun k => { (if s.mayTrain l then k.train s.ltime else k) with waits := false, failed := [] }
  else s

/-- DISABLE: a write of 1 takes the link down and keeps it down; 0 lets it train again. -/
def State.disableLink (s : State) (l : Nat) (v : Bool) : State :=
  let s := s.modLink l fun k => { k with disable := v }
  if v then s.linkDown l else s

/-- ROUTING_ENTRY_WRITE (R468). -/
def State.routeWrite (s : State) (addr mask : Nat) : State :=
  { s with routing := if mask % 2 ^ 16 = 0 then Tbl.del s.routing addr else Tbl.set s.routing addr (mask % 2 ^ 16) }

end Sys2Proof.Machine
end

