-- ==== Sys2Proof/Machine/Resets.lean ====
section
/-! DEFINITION. Module reset, stop and loss of power: what of the state survives each (R354, R355, R504, R517, R530). -/

namespace Sys2Proof.Machine

/-- A change of the power state: the event message that tells of it is owed (R514). -/
def Pm.enter (k : Pm) (st : PmState) : Pm := { k with st := st, evStates := k.evStates ++ [st] }

/-- Headers of the link blocks, which no reset of the other islands touches. -/
def linkHeaders (t : Tbl BlockHeader) : Tbl BlockHeader := t.filter fun e => decide (0x400000 ≤ e.1 ∧ e.1 < 0x500000)

/-- A channel when its controller has been reset: its contents are lost, its retired pages stay (R211). -/
def Channel.wiped (c : Channel) : Channel := { Channel.reset with retired := c.retired }

/-- A firmware update that a reset or a loss of power cuts short leaves the slot that it writes unbootable (R516). -/
def Pm.cutUpdate (k : Pm) : Pm :=
  match k.update with
  | some u => if u.slot = 0 then { k with update := none, slotA := [] } else { k with update := none, slotB := [] }
  | none => k

/-- What every reset leaves alone: the commands that wait, what has left, the model's own counters, the error ring, the
one-time-programmable storage with the MAC addresses, the boot flash with the retirement list, and the operating voltages. -/
def State.afterReset (s : State) : State :=
  { State.reset with
    pending := s.pending
    ltime := s.ltime
    freeIx := s.freeIx
    serial := s.serial
    sent := s.sent
    keySerial := s.keySerial
    channels := s.channels.map fun e => (e.1, e.2.wiped)
    errRing := s.errRing
    errProd := s.errProd
    errCons := s.errCons
    isRoot := s.isRoot
    ports := (s.ports.filter fun e => decide (e.2.mac ≠ 0)).map fun e => (e.1, { Port.reset with mac := e.2.mac })
    sec := { s.sec with q := 0, bootGen := none, colophons := 0, measures := [], svnRun := 0 }
    power := { PowerCtl.reset with vop := s.power.vop, unattr := s.power.unattr }
    pm := { s.pm.cutUpdate with placed := false } }

/-- Module reset (R354): every island but the link islands and the always-on island; the boot begins at step 3 (R505). -/
def State.moduleReset (s : State) : State :=
  { s.afterReset with
    links := s.links
    routing := s.routing
    fabAddr := s.fabAddr
    fabV := s.fabV
    walk := s.walk
    hdrs := linkHeaders s.hdrs
    pm := { (s.afterReset.pm.enter .booting) with step := 3, bootAt := s.ltime, stepAt := s.ltime, byReset := true } }

/-- The failed state (R354): only the always-on island runs. -/
def State.fail (s : State) (cause : PmCause) : State :=
  let s := s.afterReset
  { s with failed := true, pm := { (s.pm.enter .failed) with step := 0, cause := cause } }

/-- A level-5 trigger: a module reset, or the failed state during one (R354). -/
def State.level5 (s : State) : State :=
  if s.pm.st = .booting then s.fail .level5 else if s.pm.st = .ready then s.moduleReset else s

/-- Whether the main rails are on. -/
def State.running (s : State) : Bool := s.pm.st == .ready || s.pm.st == .booting || s.pm.st == .maint

/-- What happens in an island that VDD_AO does not supply: nothing while the main rails are off (R28). -/
def State.powered (s : State) (f : State → State) : State := if s.running then f s else s

/-- A stop (R504): the consequences of a module reset, and the main rails off, the links' with them. Outside the running states
only the cause is kept. -/
def State.stopModule (s : State) (cause : PmCause) : State :=
  if s.running then
    let s := s.afterReset
    { s with pm := { (s.pm.enter .standby) with step := 0, cause := cause, start := false, stop := false } }
  else s

/-- VDD_AO goes off (R501): OFF. OTP and boot flash keep what they hold. -/
def State.powerOff (s : State) : State :=
  let t := s.afterReset
  { t with
    errRing := []
    errProd := 0
    errCons := 0
    power := PowerCtl.reset
    pm := { Pm.reset with st := .off, slotA := t.pm.slotA, slotB := t.pm.slotB, pref := t.pm.pref, identity := t.pm.identity } }

end Sys2Proof.Machine
end

