-- ==== Sys2Proof/Machine/Ladder.lean ====
section
/-! DEFINITION. Hangs, the escalation ladder, the search for the culprit, and the commands that start a reset or a fence-off
(R345 to R361). -/

namespace Sys2Proof.Machine

/-! ### Units (Tables 12-5 and 12-6) -/

/-- The row of Table 12-5 of a unit. -/
def hangRow : HangUnit → Nat
  | .issuer _ _ => 1
  | .stream _ _ => 2
  | .hub _ => 3
  | .clusterCp _ | .dieCp _ => 4
  | .channel _ => 5
  | .bridge _ _ => 6
  | .ethernet _ => 7

/-- The level at which the ladder starts for a hang (R345). -/
def startLevel : HangUnit → Nat
  | .hub _ | .clusterCp _ => 2
  | .dieCp _ | .bridge _ _ => 4
  | _ => 1

/-- The clusters in which a unit lies. -/
def unitClusters : HangUnit → List Nat
  | .issuer c _ => [clusterOf c.val]
  | .stream c _ | .hub c | .clusterCp c => [c.val]
  | .channel ch => [ch.val / 8]
  | _ => []

/-- The die that holds a unit; of a bridge the die that its failure fences off (R21). -/
def unitDie : HangUnit → Nat
  | .issuer c _ => c.val / 48
  | .stream c _ | .hub c | .clusterCp c => dieOf c.val
  | .dieCp d => d.val
  | .channel ch => ch.val / 96
  | .bridge a b => max a.val b.val
  | .ethernet n => if n = 0 then 0 else 2

/-- The island of a unit (Table 01-3). -/
def unitIsland : HangUnit → Nat
  | .dieCp d => 48 + d.val
  | .bridge a b => 48 + max a.val b.val
  | .ethernet n => 56 + n.val
  | u => (unitClusters u).headD 0

/-- The partition that a unit works for: that of its cluster, or the lowest-numbered one with a share on its channel. -/
def State.unitPart (s : State) (u : HangUnit) : Option Nat :=
  match u with
  | .channel ch => (s.parts.find? fun e => e.2.inUse && e.2.lay.channels.contains ch.val).map fun e => e.1
  | u => (s.parts.find? fun e => e.2.inUse && (unitClusters u).any fun c => e.2.lay.clusters.contains c).map fun e => e.1

/-- The die that holds a partition: that of its lowest cluster, or of its lowest channel where it is memory-only (R347). -/
def State.partDie (s : State) (p : Nat) : Nat :=
  match (s.part p).lay.clusters, (s.part p).lay.channels with
  | c :: _, _ => dieOf c
  | [], ch :: _ => ch / 96
  | [], [] => 0

/-- The die whose control processor runs the ladder for a resource. -/
def State.resDie (s : State) : Resource → Nat
  | .unit u => unitDie u
  | .part p => s.partDie p.val
  | .cluster c => dieOf c.val
  | .die d => d.val
  | .wholeModule => 0

/-- The island that a LADDER record of a resource names: the unit's, or the die fabric whose processor runs the ladder. -/
def State.resIsland (s : State) : Resource → Nat
  | .unit u => unitIsland u
  | r => 48 + s.resDie r

/-- Contexts that have streams or descriptors on an engine. -/
def StreamEngine.ctxs (g : StreamEngine) : List Nat :=
  distinct ((g.queue.map fun d => d.ctx) ++ (g.active.map fun (x : Nat × Stream) => x.2.ctx) ++
    (g.suspended.map fun t => t.ctx) ++ (g.ending.map fun t => t.ctx))

/-- The suspects of a hang (R358): a core's or an engine's own contexts, and of a shared unit the contexts that the command names. -/
def State.suspectsOf (s : State) (u : HangUnit) (named : List Nat) : List Nat :=
  match u with
  | .issuer c _ => if (s.core c.val).ctx = 0 then [] else [(s.core c.val).ctx]
  | .stream c e => (s.engine (4 * c.val + e.val)).ctxs
  | _ => (distinct named).filter fun n => (s.ctx n).state == .live

/-- Whether a control unit is blocked on a remote read or wait that has no timeout and no answer: the ladder ends it (R62). -/
def Blocked.unanswered (b : Blocked) : Bool :=
  b.answer.isNone && b.deadline.isNone && (match b.op with
    | .rfread _ _ _ | .rfwait _ _ _ _ => true
    | _ => false)

/-- Whether the condition of Table 12-5 can hold of a unit: a core issuer executes, or is blocked on a remote module that does not answer, an engine has a request outstanding, and no unit of
a die that has been fenced off hangs. -/
def State.canHang (s : State) (u : HangUnit) : Bool :=
  !s.dieFenced.contains (unitDie u) &&
  match u with
  | .issuer c none =>
    match (s.core c.val).ctl with
    | .running => true
    | .blocked b => b.unanswered
    | _ => false
  | .issuer c (some .matrix) => !(s.core c.val).mrun.isEmpty
  | .issuer c (some .vector) => (s.core c.val).vrun.isSome
  | .issuer c (some .move) => ((s.core c.val).xrun.isSome || (s.core c.val).xmove.isSome) && !s.parked (.core c.val)
  | .stream c e =>
    let n := 4 * c.val + e.val
    let g := s.engine n
    let out (t : Stream) : Bool := t.reqs.any fun r => r.phase != .data && !s.parked (.stream n r.id)
    g.ending.any out || g.active.any fun (x : Nat × Stream) => out x.2
  | .hub c | .clusterCp c => !s.quarantine.contains c.val
  | .channel ch => !(s.channel ch.val).fenced && !(s.channel ch.val).held
  | .bridge a b => dieHops a.val b.val == 1 && !s.dieFenced.contains a.val && !s.dieFenced.contains b.val
  | _ => true

/-- How long the condition of Table 12-5 has held when a unit counts as hung, in ns. The model keeps no start of the wait: it counts from
the last command (assumption 119). -/
def State.hangLimit (s : State) (u : HangUnit) : Nat :=
  match u with
  | .issuer _ _ => (if s.coreHang = 0 then 10 else s.coreHang) * 100000
  | .stream _ _ => 2000000
  | .hub _ | .bridge _ _ => 100000
  | .clusterCp _ | .dieCp _ => (if s.cpHang < 2 then 10 else s.cpHang) * 1000000
  | .channel _ => 1000000
  | .ethernet _ => 10000000

/-! ### What a level does to clusters and contexts -/

/-- Whether a hung stream engine or issuer takes no new work (R349, step 1). -/
def State.quiesced (s : State) (u : HangUnit) : Bool :=
  s.ladders.any fun l => l.res == .unit u && decide (l.level = 1) && !l.waiting

/-- The die that runs the compositor, the module scheduler and the translation agent (R29). -/
def State.compositorDie (s : State) : Nat :=
  if s.dieFenced.contains 1 then ((List.range 4).find? fun d => !s.dieFenced.contains d).getD 0 else 1

/-- Whether the control processor that serves a queue takes no new commands (R290): of the lowest cluster of the context's partition,
or of the compositor's die for the admin queue and on a memory-only member. -/
def State.fetchQuiesced (s : State) (q : Nat) : Bool :=
  let k := s.queue q
  match if q = 0 then none else (s.part (s.ctx k.ctx).part).lay.clusters.head? with
  | none => s.quiesced (.dieCp (Fin.ofNat 4 s.compositorDie))
  | some c => s.quiesced (.clusterCp (Fin.ofNat 48 c))

/-- Whether the Ethernet engine of a plane of a connection takes no new work. -/
def State.planeQuiesced (s : State) (conn plane : Nat) : Bool :=
  s.quiesced (.ethernet (Fin.ofNat 2 ((s.conn conn).portOn plane / 4)))

/-- Contexts whose state a cluster holds: on its cores and its stream engines. -/
def State.clusterCtxs (s : State) (c : Nat) : List Nat :=
  distinct ((((rangeFrom (4 * c) 4).map fun k => (s.core k).ctx).filter fun n => n ≠ 0) ++
    (rangeFrom (4 * c) 4).flatMap fun e => (s.engine e).ctxs)

/-- A cluster is reset (R350): its cores, stream engines, hub, shared memory and control processor lose what they hold. The
configuration of its barrier instances stays with the hub; the arrivals do not. -/
def State.resetCluster (s : State) (c : Nat) : State :=
  let s := (rangeFrom (4 * c) 4).foldl (fun s k => s.discardCore k) s
  let s := (rangeFrom (4 * c) 4).foldl (fun s e => (s.discardStreams e fun _ => true).modEngine e fun g => { g with queue := [] }) s
  s.modCluster c fun k => { k with
    scratch := [], csmBad1 := [], csmBad2 := [], cache := [], calls := []
    hub := { k.hub with
      hot := [], remote := []
      bars := k.hub.bars.map fun (b : Nat × Barrier) =>
        (b.1, { b.2 with arrived := 0, children := [], nextChildren := [], sentUp := false, corePhase := [] }) } }

/-- A working hub writes its changed hot fences back before it is reset (R223). -/
def State.writeHotBack (s : State) (c : Nat) : State := (s.cluster c).hub.hot.foldl (fun s e => s.hotWriteback e.1) s

/-- A hub is fenced off before a write-back: the fences that were hot there enter ERROR (R223). -/
def State.loseHot (s : State) (c : Nat) : State := s.settle ((s.cluster c).hub.hot.map fun e => .fenceErr e.1)

/-- The homes of the fences of clusters that are fenced off move to the lowest cluster that remains in the owner's partition; where
none remains the fence enters ERROR (R224). -/
def State.homesFrom (s : State) (gone : List Nat) : State :=
  let mine := (s.fences.filter fun e => e.2.state != .free && gone.contains e.2.home).map fun e => e.1
  mine.foldl (fun s n =>
    let left := (s.part (s.ctx (s.fence n).owner).part).lay.clusters.filter fun c =>
      !gone.contains c && !s.quarantine.contains c && !s.dieFenced.contains (dieOf c)
    match left with
    | h :: _ => s.modFence n fun f => { f with home := h }
    | [] => s.settle [.fenceErr n]) s

/-- EXPIRE entries of a partition's contexts and of its residency are destroyed at the start of a reset at level 2 or above (R401). -/
def State.expireKeys (s : State) (p : Nat) : State :=
  let mine (k : KeyEntry) : Bool :=
    if k.owner = 0xFFFF then decide (k.part = p) else (s.ctx k.owner).state != .free && decide ((s.ctx k.owner).part = p)
  s.destroyKeys ((s.keys.filter fun e => e.2.valid && e.2.expire && mine e.2).map fun e => e.1)

/-- Whether an affected context's job is rolled back and not lost (R348). -/
def State.protected (s : State) (n : Nat) : Bool :=
  match s.job (s.ctx n).forme (s.ctx n).job with
  | some j => j.active && !j.unprotected
  | none => false

/-- Contexts are affected (R348). The one suspect of a hang is the culprit, whose turn comes at the end of the ladder; several protected
suspects are rolled back one at a time, as they are tested, and wait until then (R359, R360). -/
def State.affect (s : State) (suspects ns : List Nat) : State :=
  let now := ns.filter fun n => !(suspects.contains n && (suspects.length == 1 || s.protected n))
  let later := ns.filter fun n => suspects.contains n && decide (1 < suspects.length) && s.protected n
  let s := later.foldl (fun s n => s.modJob (s.ctx n).forme (s.ctx n).job fun j => { j with affected := true }) s
  let lost := now.filter fun n => !s.protected n && (s.ctx n).state == .live
  let s := lost.foldl (fun s n => s.modForme (s.ctx n).forme fun f => { f with
    lostJobs := insertSorted (s.ctx n).job f.lostJobs, recLost := f.recLost + 1 }) s
  s.settle (now.map .affect)

/-! ### Members that need clusters elsewhere (R352, R353) -/

/-- The partition's member needs as many clusters as it had: the master plans the recovery change, another module tells it. -/
def State.needClusters (s : State) (p : Nat) : State :=
  let q := s.part p
  match s.forme q.forme with
  | none => s
  | some f =>
    if s.isMaster f then
      let now := s.ltime
      s.modForme f.id fun f => { f with
        recMembers := Tbl.set f.recMembers q.member q.lay.clusters.length
        recStep := if f.recStep = .none then .rollback else f.recStep
        recStart := if f.recStep = .none then now else f.recStart }
    else s.emit (.recompose q.forme q.member)

/-- The failure of Table 09-8 that the loss of clusters is to the change of a partition: forme, reason and member. A cluster that the change
brings is a target's, one that it takes away a source's. -/
def State.partyOf (s : State) (p : Nat) (out : List Nat) : Option (Nat × Nat × Nat) :=
  (s.changeAt p).bind fun k =>
    let q := s.part p
    let moving := k.2.1.own.any fun e => e.member == k.2.2 && (e.action == actMove || e.action == actRemove)
    let targets := if q.movedFrom.isSome || q.layOld.isSome then q.lay.clusters else (q.layNew.map fun l => l.clusters).getD []
    if out.any targets.contains then some (k.1, 0x40, k.2.2)
    else if q.movedTo.isSome || q.layOld.isSome || q.layNew.isSome || moving then some (k.1, 0x50, k.2.2)
    else none

/-- Clusters of a partition are out of service (R274, R352): a change of the partition fails at that party, or its member needs others. -/
def State.clustersLost (s : State) (p : Nat) (out : List Nat) : State :=
  match s.partyOf p out with
  | some (f, 0x50, m) => s.changeFails f 0x50 m
  | some (f, r, m) => (s.changeFails f r m).needClusters p
  | none => s.needClusters p

/-- A partition is reset while its clusters move: a failure of that party (R278). -/
def State.resetFails (s : State) (p : Nat) : State :=
  match s.changeAt p, s.partyOf p (s.part p).lay.clusters with
  | some (_, c, _), some (f, r, m) => if c.moving then s.changeFails f r m else s
  | _, _ => s

/-- The forme of a partition is in recovery since `t`, where its master is here: a report is owed (R376). -/
def State.openRecovery (s : State) (p t : Nat) : State :=
  match s.forme (s.part p).forme with
  | none => s
  | some f =>
    if s.isMaster f ∧ f.recStep = .none then s.modForme f.id fun f => { f with recStep := .rollback, recStart := t } else s

/-- Recovery goes on in every forme of this module. -/
def State.planRecoveries (s : State) (views : List ModuleView) : State :=
  (s.formes.map fun f => f.id).foldl (fun s id => s.recoveryGoesOn id views) s

/-! ### Ladders -/

/-- Change the ladder of a resource. -/
def State.modLadder (s : State) (r : Resource) (g : Ladder → Ladder) : State :=
  { s with ladders := s.ladders.map fun l => if l.res = r then g l else l }

/-- The ladder of a resource that is not waiting. -/
def State.ladderOf (s : State) (r : Resource) : Option Ladder := s.ladders.find? fun l => l.res == r && !l.waiting

/-- A ladder begins a level at a resource: the LADDER record (R347), and the partition recovers at that level (R356). -/
def State.noteLevel (s : State) (l : Ladder) (r : Resource) (level : Nat) (overran : Bool) : State :=
  let now := s.ltime
  let s := s.record { cause := 0x21, severity := if level ≤ 2 then 1 else if level ≤ 4 then 3 else 4, level := level,
                      island := s.resIsland r, part := l.part, d5 := level + b2n overran * 8 }
  let s := match l.part with
    | some p => s.modPart p fun q => { q with recovering := level }
    | none => s
  s.modLadder l.res fun k => { k with res := r, level := level, start := now, escalate := false }

/-- Contexts affected by a level are added to those of the ladder, and the consequences taken. -/
def State.noteAffected (s : State) (r : Resource) (suspects ns : List Nat) : State :=
  let ns := distinct ns
  (s.affect suspects ns).modLadder r fun k => { k with affected := distinct (k.affected ++ ns) }

/-- Level 1 begins (R349): the unit takes no new work. -/
def State.beginQuiesce (s : State) (u : HangUnit) : State :=
  match u with
  | .issuer c _ => s.stopCore c.val
  | .channel ch => s.modChannel ch.val fun k => { k with held := true }
  | _ => s

/-- Suspects whose work at the hung unit goes with the clusters that are reset. -/
def Ladder.hit (l : Ladder) (clusters : List Nat) : List Nat :=
  match l.unit with
  | some (.hub c) | some (.clusterCp c) => if clusters.contains c.val then l.suspects else []
  | _ => []

/-- Level 2 begins (R350, R351): EXPIRE keys go, hubs write back, the clusters are reset, and the channels of this partition alone are
held. -/
def State.beginReset (s : State) (l : Ladder) (r : Resource) (p : Nat) : State :=
  let now := s.ltime
  let cl := (s.part p).lay.clusters
  let s := s.expireKeys p
  let s := cl.foldl (fun s c => s.writeHotBack c) s
  let hit := cl.flatMap (fun c => s.clusterCtxs c) ++ l.hit cl
  let s := cl.foldl (fun s c => (s.resetCluster c).modCluster c fun k => { k with resets := k.resets ++ [now] }) s
  let alone := (s.part p).lay.channels.filter fun ch =>
    !(s.parts.any fun e => e.2.inUse && decide (e.1 ≠ p) && e.2.lay.channels.contains ch) && !(s.channel ch).fenced
  let s := alone.foldl (fun s ch => s.modChannel ch fun k => { k with held := true }) s
  (s.noteAffected r l.suspects hit).resetFails p

/-- Level 3 begins (R352): the clamps of the partition's clusters close, and each cluster is reset alone. -/
def State.beginFenceOff (s : State) (l : Ladder) (r : Resource) (p : Nat) : State :=
  let cl := (s.part p).lay.clusters
  let s := s.expireKeys p
  let s := cl.foldl (fun s c => (s.loseHot c).modCluster c fun k => { k with clamped := true }) s
  let hit := cl.flatMap (fun c => s.clusterCtxs c) ++ l.hit cl
  let s := cl.foldl (fun s c => s.resetCluster c) s
  s.noteAffected r l.suspects hit

/-- The channels held for a partition's reset serve again (R183). -/
def State.releaseHeld (s : State) (p : Nat) : State :=
  (s.part p).lay.channels.foldl (fun s ch => s.modChannel ch fun k => { k with held := false }) s

/-- The translation agent goes with the compositor to another die: it sends every entry of its table again (R29, R170). -/
def State.moveAgent (s : State) (old : Nat) : State :=
  if s.compositorDie = old then s else s.agent.table.foldl (fun s e => s.sendPageReq e.2) s

/-- Level 4 (R353): every crossing into the die is clamped, and its resources leave every partition. -/
def State.fenceDie (s : State) (r : Resource) (suspects : List Nat) (d : Nat) : State :=
  let cl := rangeFrom (12 * d) 12
  let ps := (s.parts.filter fun e => e.2.inUse && e.2.lay.clusters.any fun c => cl.contains c).map fun e => e.1
  let s := ps.foldl (fun s p => s.expireKeys p) s
  let old := s.compositorDie
  let s := { s with dieFenced := insertSorted d s.dieFenced }
  let s := cl.foldl (fun s c => (s.loseHot c).modCluster c fun k => { k with clamped := true }) s
  let hit := cl.flatMap fun c => s.clusterCtxs c
  let s := cl.foldl (fun s c => s.resetCluster c) s
  let s := s.homesFrom cl
  let t := s.fenceMany 0 (rangeFrom (96 * d) 96)
  let s := t.1.settle t.2
  let s := (rangeFrom (4 * d) 4).foldl (fun s l => s.linkDown l) s
  let s := if d = 2 then (rangeFrom 4 4).foldl (fun s p => s.portDown p) s else s
  let s := ps.foldl (fun s p => s.clustersLost p cl) s
  -- targets of a change that has not been switched
  let come := (s.parts.filter fun e => !e.2.inUse && e.2.layNew.any fun l => l.clusters.any cl.contains).map fun e => e.1
  let s := come.foldl (fun s p => s.clustersLost p cl) s
  (s.noteAffected r suspects hit).moveAgent old

/-- A die is fenced off, or the module is reset where that would take D0 or a second die (R353, Table 12-6). -/
def State.dieOrModule (s : State) (l : Ladder) (d : Nat) (overran : Bool) : State :=
  if d = 0 ∨ s.dieFenced.any (fun e => e ≠ d) then (s.noteLevel l .wholeModule 5 overran).level5
  else
    let r : Resource := .die (Fin.ofNat 4 d)
    let s := s.noteLevel l r 4 overran
    (match l.part with
      | some p => s.releaseHeld p
      | none => s).fenceDie r l.suspects d

/-- Whether a partition reset of a cluster would be the fourth within 24 hours (Table 12-6). -/
def State.fourthReset (s : State) (p : Nat) : Bool :=
  (s.part p).lay.clusters.any fun c =>
    decide (3 ≤ ((s.cluster c).resets.filter fun t => decide (s.ltime < t + 86400000000000)).length)

/-- A ladder begins a level. A resource of no partition has no levels 2 and 3. -/
def State.beginLevel (s : State) (l : Ladder) (level : Nat) (overran : Bool) : State :=
  let d := s.resDie l.res
  if level ≤ 1 then
    let s := s.noteLevel l l.res 1 overran
    match l.res with
    | .unit u => s.beginQuiesce u
    | _ => s
  else
    match l.part with
    | some p =>
      let r : Resource := .part (Fin.ofNat 48 p)
      if level = 2 ∧ !s.fourthReset p then (s.noteLevel l r 2 overran).beginReset l r p
      else if level ≤ 3 then (s.noteLevel l r 3 overran).beginFenceOff l r p
      else if level = 4 then s.dieOrModule l d overran
      else (s.noteLevel l .wholeModule 5 overran).level5
    | none => if level ≤ 4 then s.dieOrModule l d overran else (s.noteLevel l .wholeModule 5 overran).level5

/-- Ladders that a die control processor runs at once (R357). -/
def State.laddersOn (s : State) (d : Nat) : Nat := (s.ladders.filter fun l => !l.waiting && s.resDie l.res == d).length

/-- A ladder starts, or waits for its turn. Where one of the same resource is in progress it goes on with the next level. -/
def State.startLadder (s : State) (l : Ladder) (level : Nat) : State :=
  if s.ladders.any fun k => k.res == l.res then s.modLadder l.res fun k => { k with escalate := true }
  else if level ≤ 3 ∧ 8 ≤ s.laddersOn (s.resDie l.res) then
    { s with ladders := s.ladders ++ [{ l with waiting := true, level := level }] }
  else ({ s with ladders := s.ladders ++ [l] } : State).beginLevel l level false

/-- The next ladder that waits on a die starts. -/
def State.nextLadder (s : State) (d : Nat) : State :=
  match s.ladders.find? fun l => l.waiting && s.resDie l.res == d with
  | some l =>
    if s.laddersOn d < 8 then
      (s.modLadder l.res fun k => { k with waiting := false }).beginLevel { l with waiting := false } l.level false
    else s
  | none => s

/-! ### HANG (R345) -/

/-- HANG: the record, and the ladder at the level that R345 gives. A hang of a partition that is recovering escalates that recovery,
but for one that a culprit search provokes (R356). -/
def State.hang (s : State) (u : HangUnit) (named : List Nat) : State :=
  if !s.canHang u then s
  else
    let s := s.advanceTo (s.ltime + s.hangLimit u)
    let part := s.unitPart u
    let test := (s.culprits.find? fun c => c.unit == u).bind fun c => c.testing
    let busy : Option Nat := match part with
      | some p => if (s.part p).recovering ≠ 0 ∧ test.isNone then some p else none
      | none => none
    let ctx := match u with
      | .issuer c _ => (s.core c.val).ctx
      | _ => 0
    let cl : Option Nat := match u with
      | .issuer _ _ | .stream _ _ | .hub _ | .clusterCp _ => (unitClusters u).head?
      | _ => none
    let ch : Option Nat := match u with
      | .channel c => some c.val
      | _ => none
    let s := s.record { s.recOfCtx ctx { cause := 0x20, severity := 1, nested := busy.isSome, island := unitIsland u,
                                         cluster := cl, channel := ch, d5 := hangRow u } with part := part }
    let s := match u with
      | .bridge a b => s.record { cause := 0x23, severity := 3, island := unitIsland u, d5 := (2 ^ a.val) ||| (2 ^ b.val) }
      | _ => s
    match busy with
    | some p => s.markEscalate p
    | none =>
      let sus := match test with
        | some n => [n]
        | none => s.suspectsOf u named
      s.startLadder ⟨.unit u, some u, startLevel u, s.ltime, part, sus, [], false, test.isSome, false⟩ (startLevel u)

/-! ### The culprit (R359 to R361) -/

/-- A culprit is lost and torn down. -/
def State.condemn (s : State) (n tested : Nat) : State :=
  let x := s.ctx n
  let s := s.record (s.recOfCtx n { cause := 0x32, severity := 2, d5 := tested })
  let s := (s.settle [.lose n]).beginTeardown n .recovery
  let s := s.modJob x.forme x.job fun j => { j with affected := false }
  s.modForme x.forme fun f => { f with culpritLost := true, recLost := f.recLost + 1 }

/-- The next suspect of a search is tested: its job is rolled back. A search with none left is over. -/
def State.nextTest (s : State) (u : HangUnit) : State :=
  match s.culprits.find? fun c => c.unit == u with
  | none => s
  | some c =>
    match c.todo.filter fun n => (s.ctx n).state == .live with
    | [] => { s with culprits := s.culprits.filter fun k => k.unit ≠ u }
    | n :: ns =>
      let s := { s with culprits := s.culprits.map fun (k : Culprit) =>
        if k.unit = u then { k with todo := ns, testing := some n, tested := k.tested + 1 } else k }
      s.rollbackJob (s.ctx n).forme (s.ctx n).job

/-- The unit is restored after a hang: one suspect is the culprit, several are tested in turn, and a repeated hang names the one that
was being tested. -/
def State.judge (s : State) (l : Ladder) : State :=
  match l.unit with
  | none => s
  | some u =>
    if l.repeated then
      match s.culprits.find? fun c => c.unit == u with
      | none => s
      | some c =>
        match c.testing with
        | none => s
        | some n =>
          let s := { s with culprits := s.culprits.map fun (k : Culprit) => if k.unit = u then { k with testing := none } else k }
          (s.condemn n c.tested).nextTest u
    else
      match l.suspects with
      | [] => s
      | [n] => s.condemn n 0
      | ns =>
        let todo := (distinct ns).filter fun n => l.affected.contains n && (s.ctx n).state == .live && s.protected n
        if todo.isEmpty then s
        else { s with culprits := (s.culprits.filter fun k => k.unit ≠ u) ++ [⟨u, todo, none, 0, startLevel u⟩] }

/-- CULPRIT_TEST (R360): the next suspect's test begins, or with `passed` the replay of the suspect under test has completed the command
that was running at the hang, and it is cleared. -/
def State.culpritTest (s : State) (u : HangUnit) (passed : Bool) : State :=
  match s.culprits.find? fun c => c.unit == u with
  | none => s
  | some c =>
    match passed, c.testing with
    | false, none => s.nextTest u
    | true, some _ =>
      ({ s with culprits := s.culprits.map fun (k : Culprit) => if k.unit = u then { k with testing := none } else k } : State).nextTest u
    | _, _ => s

/-! ### Ends of levels -/

/-- At the bound of level 1 every request of the unit is ended, and the unit returns to service empty (R349). A channel is fenced off
(R351). -/
def State.endQuiesce (s : State) (l : Ladder) (u : HangUnit) : State :=
  match u with
  | .stream c e =>
    let k := 4 * c.val + e.val
    let hit := (s.engine k).ctxs
    ((s.discardStreams k fun _ => true).modEngine k fun g => { g with queue := [] }).noteAffected l.res l.suspects hit
  | .channel ch =>
    let s := s.modChannel ch.val fun k => { k with held := false }
    let t := s.fenceChannel ch.val 0
    t.1.settle t.2
  | .ethernet n =>
    let ids := (s.rdmaOut.filter fun o => (s.conn o.conn).active == n.val).map fun o => o.id
    ids.foldl (fun s i => s.rdmaGone i) s
  | .issuer c _ => s.dropAsked fun u => u == .core c.val
  | _ => s

/-- A fault implicates the memory side through channel `ch` (R24, R351): the channel is fenced off, and with a fence-off of its cluster the
eight near channels of the cluster, whichever partitions they serve. -/
def State.fenceNear (s : State) (ch : Nat) (all : Bool) : State :=
  (if all then rangeFrom (ch / 8 * 8) 8 else [ch]).foldl (fun s c =>
    let t := s.fenceChannel c 0
    t.1.settle t.2) s

/-- Level 3 ends (R352): clusters whose reset overran, and the cluster of the hung unit, are quarantined; the others return to the
idle state. -/
def State.endFenceOff (s : State) (l : Ladder) (p : Nat) (bad : List Nat) : State :=
  let cl := (s.part p).lay.clusters
  let hung := match l.unit with
    | some u => unitClusters u
    | none => []
  let out := cl.filter fun c => bad.contains c || hung.contains c
  let s := (s.releaseHeld p)
  let s := match l.unit with
    | some (.channel ch) => s.fenceNear ch.val (out.contains (ch.val / 8))
    | _ => s
  let s := (cl.filter fun c => !out.contains c).foldl (fun s c => s.modCluster c fun k => { k with clamped := false }) s
  if out.isEmpty then s
  else
    let s := { s with quarantine := out.foldl (fun q c => insertSorted c q) s.quarantine }
    let s := s.record { cause := 0x22, severity := 3, level := 3, island := out.headD 0, part := some p,
                        d5 := (maskOf 48 out).toNat }
    (s.homesFrom out).clustersLost p out

/-- A ladder has ended: recovery is over where no context was affected, the suspects are judged, and the next ladder starts. -/
def State.endLadder (s : State) (r : Resource) (views : List ModuleView) : State :=
  match s.ladderOf r with
  | none => s
  | some l =>
    let d := s.resDie r
    let s := { s with ladders := s.ladders.filter fun k => k.res ≠ r }
    let s := match l.part with
      | some p => if l.affected.isEmpty then s.modPart p fun q => { q with recovering := 0 } else s
      | none => s
    let s := s.judge l
    let tested := s.culprits.any fun c => some c.unit == l.unit
    let s := match l.part with
      | some p => if tested ∨ (l.affected.isEmpty ∧ l.suspects.length ≠ 1) then s else s.openRecovery p l.start
      | none => s
    ((s.nextLadder d).planRecoveries views).goOnMinis

/-- LADDER_LEVEL_COMPLETE (R349 to R353, R356): the level's action has ended within its bound. A recovery that a nested error has
escalated goes on with the next level. -/
def State.levelComplete (s : State) (r : Resource) (bad : List Nat) (views : List ModuleView) : State :=
  match s.ladderOf r with
  | none => s
  | some l =>
    let s := if l.level = 1 then s.advanceTo (l.start + 100000) else s
    let s := match l.level, r, l.part with
      | 1, .unit u, _ => s.endQuiesce l u
      | 2, _, some p =>
        if l.escalate then s
        else
          let s := s.releaseHeld p
          match l.unit with
          | some (.channel ch) =>
            let t := s.fenceChannel ch.val 0
            t.1.settle t.2
          | _ => s
      | 3, _, some p => if l.escalate then s else s.endFenceOff l p bad
      | _, _, _ => s
    match s.ladderOf r with
    | none => s
    | some l => if l.escalate then s.beginLevel l (l.level + 1) false else s.endLadder r views

/-- The bound of a level, in ns (Table 12-6). -/
def levelBound : Nat → Nat
  | 1 => 100000
  | 2 => 5000000
  | 3 => 1000000
  | 4 => 10000000
  | _ => 3000000000

/-- LADDER_LEVEL_OVERRUN (R347): the resource goes to the next level. -/
def State.levelOverrun (s : State) (r : Resource) : State :=
  match s.ladderOf r with
  | none => s
  | some l => (s.advanceTo (l.start + levelBound l.level)).beginLevel l (l.level + 1) true

/-! ### Drain overrun (R263) -/

/-- DRAIN_LIMIT_EXPIRY: the issuers that still count requests of the draining epoch enter the ladder at level 1; requests of the
compositor and of the refills end at once. -/
def State.drainLimitExpiry (s : State) (id : Nat) : State :=
  match s.forme id with
  | none => s
  | some f =>
    match f.change, f.draining with
    | some c, some e =>
      if c.drainReported ∨ !s.epochBusy id e then s
      else
        let s := s.advanceTo (c.switchedAt + (if c.hdr.drainLimit = 0 then 10 else c.hdr.drainLimit) * 1000000)
        let mine (t : Stream) : Bool := (s.ctx t.ctx).forme == id && t.reqs.any fun r => r.epoch.toNat == e
        let es := (s.engines.filter fun (g : Nat × StreamEngine) =>
          (g.2.active.any fun x => mine x.2) || g.2.ending.any mine || g.2.suspended.any mine).map fun g => g.1
        let other := s.peerOut.filter fun o => o.forme == id && o.epoch == e && (match o.use with
          | .stream _ _ => false
          | _ => true)
        let s := other.foldl (fun s o => s.endOut o) s
        es.foldl (fun s k =>
          let u : HangUnit := .stream (Fin.ofNat 48 (k / 4)) (Fin.ofNat 4 (k % 4))
          s.startLadder ⟨.unit u, none, 1, s.ltime, s.unitPart u, [], [], false, false, false⟩ 1) s
    | _, _ => s

/-! ### Commands of the host (Table 12-14) -/

/-- RESET_PARTITION: the ladder starts at level 2. -/
def State.resetPartition (s : State) (q : Nat) : State :=
  s.onCmd q 0x45 fun s c =>
    let p := bits (c.arg 0) 5 0
    if 48 ≤ p ∨ !(s.part p).inUse then s.refuseCmd q c Dt.field
    else
      let s := s.okCmd q c
      s.startLadder ⟨.part (Fin.ofNat 48 p), none, 2, s.ltime, some p, [], [], false, false, false⟩ 2

/-- A FENCE_OFF command of one kind. -/
def State.fenceOffCmd (s : State) (q kind limit : Nat) (act : State → Nat → State) : State :=
  match s.next q fun c => c.opc == 0x46 && bits (c.arg 0) 1 0 == kind with
  | none => s
  | some c =>
    let s := s.start q c
    let n := bits (c.arg 0) 10 2
    if limit ≤ n then s.refuseCmd q c Dt.field else act (s.okCmd q c) n

/-- A cluster is fenced off by itself (R352): clamped, reset and quarantined; its partition's member needs a cluster elsewhere. -/
def State.fenceCluster (s : State) (c : Nat) (views : List ModuleView) : State :=
  if s.quarantine.contains c then s
  else
    let r : Resource := .cluster (Fin.ofNat 48 c)
    let part := (s.parts.find? fun e => e.2.inUse && e.2.lay.clusters.contains c).map fun e => e.1
    let l : Ladder := ⟨r, none, 3, s.ltime, part, [], [], false, false, false⟩
    let s := ({ s with ladders := s.ladders ++ [l] } : State).noteLevel l r 3 false
    let s := (s.loseHot c).modCluster c fun k => { k with clamped := true }
    let hit := s.clusterCtxs c
    let s := s.resetCluster c
    let s := { s with quarantine := insertSorted c s.quarantine }
    let s := s.record { cause := 0x22, severity := 3, level := 3, island := c, cluster := some c, part := part, d5 := 2 ^ c }
    let s := (s.homesFrom [c]).noteAffected r [] hit
    let s := match part with
      | some p => s.needClusters p
      | none => s
    s.endLadder r views

/-- FENCE_OFF_CLUSTER. -/
def State.fenceOffCluster (s : State) (q : Nat) (views : List ModuleView) : State :=
  s.fenceOffCmd q 0 48 fun s n => s.fenceCluster n views

/-- FENCE_OFF_CHANNEL (R212). -/
def State.fenceOffChannel (s : State) (q : Nat) : State :=
  s.fenceOffCmd q 1 384 fun s n =>
    let t := s.fenceChannel n 0
    t.1.settle t.2

/-- FENCE_OFF_DIE (R353). -/
def State.fenceOffDie (s : State) (q : Nat) : State :=
  s.fenceOffCmd q 2 4 fun s n =>
    if s.dieFenced.contains n then s
    else s.startLadder ⟨.die (Fin.ofNat 4 n), none, 4, s.ltime, none, [], [], false, false, false⟩ 4

end Sys2Proof.Machine
end

