-- ==== Sys2Proof/Machine/Walk.lean ====
section
/-! DEFINITION. The meanings of the rows of the addressing walk (R471 to R473, Table 15-9). -/

namespace Sys2Proof.Machine

/-! ### WALK packets (Table 15-9) -/

/-- Link `i` of a ROUTE or RETURN field. -/
def hopLink (f : BitVec 64) (i : Nat) : Nat := bits f.toNat (4 * i + 3) (4 * i)

/-- A ROUTE or RETURN field with link `i` set. -/
def setHop (f : BitVec 64) (i l : Nat) : BitVec 64 := BitVec.ofNat 64 (setBits f.toNat (4 * i + 3) (4 * i) l)

/-- The links of a field, first hop first. -/
def hopsOf (f : BitVec 64) (n : Nat) : List Nat := (List.range n).map (hopLink f)

/-- A field from links. -/
def packHops (l : List Nat) : BitVec 64 := BitVec.ofNat 64 (l.zipIdx.foldl (fun a e => a + e.1 * 2 ^ (4 * e.2)) 0)

/-- Send a WALK packet by link `l`; one whose link is not UP is dropped and counted. -/
def State.sendWalk (s : State) (l wop : Nat) (b : WalkBody) (routes : Bool) : State :=
  if (s.link l).state = .up then s.emit (.walk l wop b routes)
  else s.modLink l fun k => { k with unreach := count16 k.unreach }

/-- A WALK request arrives by link `l`: its arrival link is noted; it goes on by its ROUTE, or is for this module. -/
def State.walkOnward (s : State) (l wop : Nat) (b : WalkBody) (routes : Bool) : Option WalkBody × State :=
  let h := b.hop.toNat
  let b := { b with ret := setHop b.ret h l, hop := b.hop + 1 }
  if h + 1 < b.nhops.toNat then (none, s.sendWalk (hopLink b.route (h + 1)) wop b routes) else (some b, s)

/-- A WALK answer goes back by its RETURN: HOP counts the hops left. -/
def State.walkBack (s : State) (wop : Nat) (b : WalkBody) : Bool × State :=
  let h := b.hop.toNat
  if h = 0 then (true, s) else (false, s.sendWalk (hopLink b.ret (h - 1)) wop { b with hop := b.hop - 1 } false)

/-- Send the answer to a request that has arrived here. -/
def State.walkAnswer (s : State) (wop : Nat) (b : WalkBody) : State :=
  let n := b.nhops.toNat
  s.sendWalk (hopLink b.ret (n - 1)) wop { b with hop := BitVec.ofNat 5 (n - 1) } false

/-- The mask of links that are UP. -/
def State.upMask (s : State) : Nat :=
  (List.range 16).foldl (fun a l => if (s.link l).state = .up then a + 2 ^ l else a) 0

/-- Both roots stop (R473). -/
def State.walkConflict (s : State) : State :=
  ({ s with walk := { s.walk with wstatus := 3, queries := [], assigns := [] } }).linkRecord 0 LinkEvent.walkConflict 3

/-- QUERY (R471): a module answers with its serial number, its address and its links UP; a root that is asked by another stops. -/
def State.walkQuery (s : State) (l : Nat) (b : WalkBody) : State :=
  match s.walkOnward l 1 b false with
  | (none, s) => s
  | (some b, s) =>
    let own := s.isRoot && s.walk.wstatus == 1 && decide (b.walkId.toNat = s.walk.walkId)
    let s := if s.isRoot && !own then s.walkConflict else s
    s.walkAnswer 2 { b with
      addr := BitVec.ofNat 16 s.fabAddr, addrV := s.fabV, root := s.isRoot, up := BitVec.ofNat 16 s.upMask,
      serial := BitVec.ofNat 112 s.sec.serial }

/-! ### Discovery at the root (R471) -/

/-- Queries outstanding at once, and hops and modules that a walk reaches. -/
def walkQueries : Nat := 1024
def walkHops : Nat := 16
def walkModules : Nat := 65536

/-- The QUERY of a route. -/
def State.queryBody (s : State) (route : List Nat) : WalkBody where
  nhops := BitVec.ofNat 5 route.length
  hop := 0
  walkId := BitVec.ofNat 32 s.walk.walkId
  route := packHops route
  ret := 0
  addr := 0
  addrV := false
  root := s.isRoot
  parentLink := 0
  up := 0
  child := 0
  serial := 0
  ends := []

/-- Send the queries of a list that have not been sent, while places are free; `sent` counts those outstanding. -/
def State.sendQueries (s : State) (sent : Nat) (done : List WalkQuery) : List WalkQuery → State
  | [] => { s with walk := { s.walk with queries := done } }
  | q :: r =>
    if q.tries = 0 ∧ sent < walkQueries then
      State.sendQueries (s.sendWalk (q.route.headD 0) 1 (s.queryBody q.route) false) (sent + 1)
        (done ++ [{ q with tries := 1, sentAt := s.ltime }]) r
    else State.sendQueries s sent (done ++ [q]) r

/-- Nodes of the tree below node `i`, `i` first, in depth-first preorder with children in increasing link number; `fuel` bounds
the depth. -/
def preorder (nodes : List WalkNode) : Nat → Nat → List Nat
  | 0, i => [i]
  | fuel + 1, i =>
    let kids := (nodes.zipIdx.filter fun e => decide (e.2 ≠ 0) && e.1.parent == i).map fun e => (e.1.parentLink, e.2)
    let sorted := kids.mergeSort fun a b => decide (a.1 ≤ b.1)
    i :: (sorted.map fun e => preorder nodes fuel e.2).flatten

/-- Give addresses in preorder: in the first walk all of them, later the lowest unused to modules without one (R471, R473). -/
def numberNodes (first : Bool) (used : List Nat) : Nat → List Nat → List WalkNode → List WalkNode
  | _, [], nodes => nodes
  | next, i :: r, nodes =>
    match nodes[i]? with
    | none => numberNodes first used next r nodes
    | some n =>
      if first then numberNodes first used (next + 1) r (setAt nodes i { n with addr := some next, given := decide (i ≠ 0) })
      else
        match n.addr with
        | some _ => numberNodes first used next r nodes
        | none =>
          let a := ((List.range walkModules).find? fun a => !used.contains a).getD 0
          numberNodes first (a :: used) next r (setAt nodes i { n with addr := some a, given := true })

/-- The last address below a node. -/
def endOf (nodes : List WalkNode) (i : Nat) : Nat :=
  ((preorder nodes walkHops i).filterMap fun j => (nodes[j]?).bind fun n => n.addr).foldl max 0

/-- The child links of a node, with the last address below each. -/
def childEnds (nodes : List WalkNode) (i : Nat) : List (Nat × Nat) :=
  (nodes.zipIdx.filter fun e => decide (e.2 ≠ 0) && e.1.parent == i).map fun e => (e.1.parentLink, endOf nodes e.2)

/-- The ASSIGN of a node. -/
def State.assignBody (s : State) (first : Bool) (nodes : List WalkNode) (i : Nat) (n : WalkNode) : WalkBody :=
  let kids := if first then childEnds nodes i else []
  { s.queryBody n.route with
    addr := BitVec.ofNat 16 (n.addr.getD 0), addrV := true, root := true,
    parentLink := BitVec.ofNat 4 (n.ret.getLastD 0),
    child := BitVec.ofNat 16 (kids.foldl (fun a e => a + 2 ^ e.1) 0),
    ends := (List.range 16).map fun l => BitVec.ofNat 16 ((kids.find? fun e => e.1 == l).map (·.2) |>.getD 0) }

/-- Tree routes (R472): from one address on, each child link takes the addresses up to its END. -/
def childRoutes : Nat → List (Nat × Nat) → Tbl Nat
  | _, [] => []
  | a, (l, e) :: r => ((rangeFrom a (e + 1 - a)).map fun d => (d, 2 ^ l)) ++ childRoutes (max a (e + 1)) r

/-- The routing table of a module with address `addr`, child links with their ENDs in rising order of END, and a parent link:
addresses outside the subtree go to the parent, where there is one. -/
def treeRoutes (addr : Nat) (kids : List (Nat × Nat)) (parent : Option Nat) : Tbl Nat :=
  let kids := kids.mergeSort fun a b => decide (a.2 ≤ b.2)
  let last := kids.foldl (fun a e => max a e.2) addr
  let up (lo n : Nat) : Tbl Nat := match parent with
    | some l => (rangeFrom lo n).map fun d => (d, 2 ^ l)
    | none => []
  up 0 addr ++ childRoutes (addr + 1) kids ++ up (last + 1) (65536 - (last + 1))

/-- The walk ends when every ASSIGN has been acknowledged. -/
def State.walkDone (s : State) : State :=
  if s.walk.wstatus = 1 ∧ s.walk.assigns.isEmpty ∧ s.walk.queries.isEmpty then
    let n := (s.walk.nodes.filter fun n => n.given).length + b2n s.walk.first
    ({ s with walk := { s.walk with wstatus := 2, wcount := n, first := false } }).linkRecord 0 LinkEvent.walkDone 0 n
  else s

/-- Discovery is over: the root numbers the tree and sends every ASSIGN (R471, R472). -/
def State.walkAssign (s : State) : State :=
  if s.walk.wstatus = 1 ∧ s.walk.queries.isEmpty then
    let first := s.walk.first
    let used := s.walk.nodes.filterMap fun n => n.addr
    let nodes := numberNodes first used 0 (preorder s.walk.nodes walkHops 0) s.walk.nodes
    let new := (nodes.zipIdx.filter fun e => e.1.given).map fun e => e.2
    let s := { s with walk := { s.walk with nodes := nodes, assigns := new } }
    let s := if first then { s with fabAddr := 0, fabV := true, routing := treeRoutes 0 (childEnds nodes 0) none } else s
    let s := nodes.zipIdx.foldl (fun s e =>
      if e.1.given then s.sendWalk (e.1.route.headD 0) 3 (s.assignBody first nodes e.2 e.1) first else s) s
    s.walkDone
  else s

/-- A query has been answered or given up: more are sent, and with none left the root assigns. -/
def State.walkGoOn (s : State) : State :=
  let sent := (s.walk.queries.filter fun q => decide (q.tries ≠ 0)).length
  (s.sendQueries sent [] s.walk.queries).walkAssign

/-- The queries that extend a node's route by its UP links. -/
def WalkNode.extend (n : WalkNode) (i : Nat) (back : Option Nat) : List WalkQuery :=
  ((linksOf n.up).filter fun l => some l ≠ back).map fun l => ⟨n.route ++ [l], i, 0, 0⟩

/-- QUERY_ANS (R471, R473): a module not yet seen joins the tree and its route is extended by its UP links. -/
def State.walkQueryAns (s : State) (b : WalkBody) : State :=
  match s.walkBack 2 b with
  | (false, s) => s
  | (true, s) =>
    let route := hopsOf b.route b.nhops.toNat
    if s.walk.wstatus ≠ 1 ∨ b.walkId.toNat ≠ s.walk.walkId then s
    else
      match s.walk.queries.find? fun q => q.route == route && decide (q.tries ≠ 0) with
      | none => s
      | some q =>
        let w := s.walk
        let qs := w.queries.filter fun p => p.route ≠ route
        let known := w.nodes.any fun n => n.serial == b.serial.toNat
        if known then ({ s with walk := { w with queries := qs } }).walkGoOn
        else if b.root then s.walkConflict
        else if walkModules ≤ w.nodes.length then ({ s with walk := { w with queries := qs, beyond := w.beyond + 1 } }).walkGoOn
        else
          let ret := hopsOf b.ret b.nhops.toNat
          let n : WalkNode := ⟨b.serial.toNat, route, ret, q.parent, route.getLastD 0, b.up.toNat,
            if b.addrV then some b.addr.toNat else none, false⟩
          let more := n.extend w.nodes.length ret.getLast?
          let far := walkHops ≤ route.length
          ({ s with walk := { w with
            nodes := w.nodes ++ [n], queries := if far then qs else qs ++ more,
            beyond := if far then w.beyond + more.length else w.beyond } }).walkGoOn

/-- QUERY_TIMEOUT (R471): a query unanswered for 1 ms is sent twice more, and its module is then treated as absent. -/
def State.walkQueryTimeout (s : State) (route : List Nat) : State :=
  match s.walk.queries.find? fun q => q.route == route && decide (q.tries ≠ 0) with
  | none => s
  | some q =>
    let s := s.advanceTo (q.sentAt + 1000000)
    if q.tries < 3 then
      let s := s.sendWalk (route.headD 0) 1 (s.queryBody route) false
      let again (p : WalkQuery) : WalkQuery := if p.route = route then { p with tries := p.tries + 1, sentAt := s.ltime } else p
      { s with walk := { s.walk with queries := s.walk.queries.map again } }
    else ({ s with walk := { s.walk with queries := s.walk.queries.filter fun p => p.route ≠ route } }).walkGoOn

/-- ASSIGN (R472, R473): the module takes its address, writes its tree routes and answers. -/
def State.walkAssigned (s : State) (l : Nat) (b : WalkBody) (routes : Bool) : State :=
  match s.walkOnward l 3 b routes with
  | (none, s) => s
  | (some b, s) =>
    let a := b.addr.toNat
    let kids := (linksOf b.child.toNat).map fun i => (i, (b.ends.getD i 0).toNat)
    let s := { s with
      fabAddr := a, fabV := true,
      routing := if routes then treeRoutes a kids (some b.parentLink.toNat) else s.routing }
    s.walkAnswer 4 { b with addrV := true, root := s.isRoot }

/-- ASSIGN_ACK (R472). -/
def State.walkAssignAck (s : State) (b : WalkBody) : State :=
  match s.walkBack 4 b with
  | (false, s) => s
  | (true, s) =>
    let route := hopsOf b.route b.nhops.toNat
    let hit (i : Nat) : Bool := match s.walk.nodes[i]? with
      | some n => n.route == route
      | none => false
    if s.walk.wstatus = 1 ∧ b.walkId.toNat = s.walk.walkId then
      ({ s with walk := { s.walk with assigns := s.walk.assigns.filter fun i => !hit i } }).walkDone
    else s

/-- A walk of the root begins (R471). -/
def State.walkBegin (s : State) : State :=
  if s.isRoot && s.walk.wstatus != 1 then
    let n : WalkNode := ⟨s.sec.serial, [], [], 0, 0, s.upMask, if s.fabV then some s.fabAddr else none, false⟩
    ({ s with walk := { s.walk with
      wstatus := 1, walkId := (s.walk.walkId + 1) % 2 ^ 32, nodes := [n], queries := n.extend 0 none, assigns := [], beyond := 0 } }).walkGoOn
  else s

/-- WALK_START (R471, R474): a write of 1 is refused unless the module is root. -/
def State.walkStart (s : State) (v : Bool) (m : Master) : State :=
  if !v then s
  else if s.isRoot then s.walkBegin
  else s.refuse 0x400000 0x1018 Why.range m

end Sys2Proof.Machine
end

