-- ==== Sys2Proof/Machine/Boot.lean ====
section
/-! DEFINITION. Input power, standby, the boot sequence, stops and rail faults (R430, R443, R499 to R511). -/

namespace Sys2Proof.Machine

/-- Channels in service. -/
def State.channelsUp (s : State) : List Nat := (List.range 384).filter fun c => !(s.channel c).fenced

/-! ### The boot (Table 17-2) -/

/-- The boot ends in STANDBY, with the main rails off. -/
def State.abandonBoot (s : State) (cause : PmCause) : State := s.stopModule cause

/-- The slot that BOOT_PREF names, and the stages of a slot. -/
def Pm.prefSlot (k : Pm) : Nat := if k.pref = 1 then 1 else 0
def Pm.stages (k : Pm) (slot : Nat) : List StageImage := if k.noFlash then [] else if slot = 0 then k.slotA else k.slotB

/-- Whether stages `a` to `b` of a slot are accepted (R423). -/
def State.slotGood (s : State) (slot a b : Nat) : Bool :=
  let l := s.pm.stages slot
  (rangeFrom a (b + 1 - a)).all fun i => match l[i - 1]? with
    | some g => g.good && decide (s.sec.svn ≤ g.svn)
    | none => false

/-- Both slots have failed: the module stays in STANDBY (R423). -/
def State.bootFails (s : State) : State :=
  let s := (s.secRecord 0x05 4).abandonBoot .bootVerify
  { s with pm := { s.pm with bothFailed := true } }

/-- Slots whose digest must be right for the boot to go on: Svettia's roots, and the roots and identity seeds of the present state
(R387, R391). -/
def Security.needed (c : Security) : List Nat :=
  [2, 3] ++ (if c.lc = 0 then [9] else if c.lc = 1 then [10, 13, if c.idGen = 0 then 14 else 15]
    else if c.lc = 2 then [10, 11, 13, if c.idGen = 0 then 14 else 15] else [12])

/-- Step 4: the life-cycle state, the digests (those of `bad`, which have decayed, and those that the storage does not match), and stage 1 of the preferred slot, then of the other. -/
def State.bootRom (s : State) (bad : List Nat) : State :=
  let s := { s with sec := s.sec.completeLife }
  if s.sec.lc = 4 then s.abandonBoot .scrap
  else
    let bad := distinct (bad ++ s.sec.badDigests)
    let stops := bad.any fun i => s.sec.needed.contains i
    let s := bad.foldl (fun s i => s.secRecord 0x04 (if s.sec.needed.contains i then 4 else 0)) s
    if stops then
      let f := s.fresh
      f.2.abandonBoot (.otpDigest (Config.freeBits 8 f.1).toNat)
    else
      let a := s.pm.prefSlot
      let go (s : State) (slot : Nat) (fell : Bool) : State :=
        { s with pm := { s.pm with step := 5, slot := slot, fallback := fell, actPending := false, bothFailed := false } }
      if s.slotGood a 1 1 then go s a false
      else if s.slotGood (1 - a) 1 1 then go s (1 - a) true
      else s.bootFails

/-- The MODULE key as the key register holds it (R401, Table 13-7), derived from the root of the present state (R40, Table 13-8). -/
def moduleKey (k : Security) : KeyEntry :=
  let slot := k.rootSlot.getD 0
  { KeyEntry.reset with type := .module, valid := true, engines := 1, key := .modstore slot (k.maskedValue slot) }

/-- A boot leaf of the generation in use is spent (R424), and LEAVES_LOW recorded where few are left (R394). -/
def State.spendLeaf (s : State) : State :=
  let c := s.sec
  if c.lc ≠ 1 ∧ c.lc ≠ 2 then s
  else
    let g := c.idGen
    let s := if c.leavesLeft = 0 then s
      else if g = 0 then { s with sec := { c with leaf0 := c.leaf0 + 1, q := c.leaf0, bootGen := some 0, colophons := 0 } }
      else { s with sec := { c with leaf1 := c.leaf1 + 1, q := c.leaf1, bootGen := some 1, colophons := 0 } }
    let left := genLeaves - (if g = 0 then s.sec.leaf0 else s.sec.leaf1)
    if left < 1024 then s.secRecord 0x06 0 else s

/-- Step 5: stage 1, and stages 2 to 4 of the same slot. -/
def State.bootStage1 (s : State) : State :=
  let s := s.spendLeaf
  -- the link colophon (R459)
  let s := { s with sec := { s.sec with colophons := s.sec.colophons + b2n s.sec.bootGen.isSome } }
  let a := s.pm.slot
  let pick := if s.slotGood a 1 4 then some a else if !s.pm.fallback && s.slotGood (1 - a) 1 4 then some (1 - a) else none
  match pick with
  | none => s.bootFails
  | some slot =>
    let l := s.pm.stages slot
    let svn := (l.map fun g => g.svn).foldl min ((l.map fun g => g.svn).headD 0)
    { s with
      keys := Tbl.set s.keys 1 (moduleKey s.sec)
      sec := { s.sec with measures := l.map fun g => g.digest, svnRun := svn }
      pm := { s.pm with step := 6, slot := slot } }

/-- Step 6: a die whose stage 2 does not start is fenced off; without D0 the module will not be ready (R506). -/
def State.bootFabric (s : State) (bad : List Nat) : State :=
  let s := (distinct bad).foldl (fun s d =>
    if s.pm.st ≠ .booting then s
    else if d = 0 then { s with dieFenced := insertSorted 0 s.dieFenced }
    else if s.dieFenced.any (fun e => e ≠ 0) then s.level5
    else s.fenceDie (.die (Fin.ofNat 4 d)) [] d) s
  if s.pm.st = .booting then { s with pm := { s.pm with step := 7 } } else s

/-- Step 7 (R431, R506, R507): operating voltages, which hold from then on; clusters quarantined, channels fenced off, pages with errors
counted and retired. -/
def State.bootTest (s : State) (vop : List (Nat × Nat)) (clusters channels : List Nat) (corr : List (Nat × Nat × Nat))
    (bad : List (Nat × Nat)) : State :=
  let s := vop.foldl (fun s e => { s with power := { s.power with
    vop := if (Tbl.find s.power.vop e.1).isSome then s.power.vop else Tbl.set s.power.vop e.1 e.2 } }) s
  let out := (distinct clusters).filter fun c => !s.quarantine.contains c && !s.dieFenced.contains (dieOf c)
  let s := if out.isEmpty then s
    else
      let s := out.foldl (fun s c => s.modCluster c fun k => { k with clamped := true }) s
      { s with quarantine := out.foldl (fun q c => insertSorted c q) s.quarantine }.record
        { cause := 0x22, severity := 3, island := out.headD 0, d5 := (maskOf 48 out).toNat }
  let s := channels.foldl (fun s c =>
    let t := s.fenceChannel c 5
    (t.1.settle t.2).modChannel c fun k => { k with untrained := true }) s
  let s := corr.foldl (fun s e =>
    let s := s.countErrors (e.1, e.2.1 * 8 + e.2.2 / 8) [e.2.2 % 8] false
    let t := s.thresholds e.1 e.2.1
    t.1.settle t.2) s
  let s := bad.foldl (fun s e =>
    let s := s.countErrors (e.1, e.2 * 8) [] true
    let t := s.retirePage e.1 e.2
    let s := t.1.settle t.2
    let u := s.thresholds e.1 e.2
    u.1.settle u.2) s
  { s with pm := { s.pm with step := 8 } }

/-- Step 8: the module areas are placed, if channels of two stacks serve (R550). -/
def State.bootPlace (s : State) : State :=
  match moduleAreaTop s.channelsUp with
  | some u => { s with areaTop := u, areaChans := s.channelsUp, pm := { s.pm with step := 9, placed := true } }
  | none => { s with pm := { s.pm with step := 9, placed := false } }

/-- The conditions of Table 17-4 that steps 4 to 8 have not already decided. -/
def State.isReady (s : State) : Bool :=
  !s.dieFenced.contains 0 && s.pm.placed &&
  ((List.range 48).any fun c => !s.quarantine.contains c && !s.dieFenced.contains (dieOf c)) &&
  decide (2 ≤ (distinct (s.channelsUp.map stackOf)).length)

/-- Step 9 (R508, R511): READY, with the first walk of the root, or FAILED. -/
def State.bootReady (s : State) : State :=
  if s.isReady then
    let s := { s with pm := { (s.pm.enter .ready) with step := 0, bootMs := ((s.ltime - s.pm.bootAt) / 1000000) % 2 ^ 16 } }
    if s.isRoot then s.walkBegin else s
  else s.fail .notReady

/-- The bound of a step of Table 17-2, in ms; that of step 4 is of both slots. -/
def bootBound (step : Nat) : Nat :=
  match step with
  | 3 => 20 | 4 => 400 | 5 => 500 | 6 => 100 | 7 => 1500 | 8 => 50 | _ => 10

/-- One step of the boot ends. What does not belong to the step in progress changes nothing. -/
def State.bootStep (s : State) (b : BootStep) : State :=
  let t := if s.pm.st ≠ .booting then s
  else
    match s.pm.step, b with
    | 3, .rails => { s with pm := { s.pm with step := 4 } }
    | 4, .rom bad => s.bootRom (bad.map fun i => i.val)
    | 5, .stage1 => s.bootStage1
    | 6, .fabric bad => s.bootFabric (bad.map fun d => d.val)
    | 7, .test v cl ch co un =>
      s.bootTest (v.map fun e => (e.1.val, e.2.toNat)) (onesOf cl) (onesOf ch)
        (co.map fun e => (e.1.val, e.2.1.toNat, e.2.2.val)) (un.map fun e => (e.1.val, e.2.toNat))
    | 8, .place => s.bootPlace
    | 9, .ready => s.bootReady
    | _, _ => s
  if t.pm.step = s.pm.step then t else { t with pm := { t.pm with stepAt := t.ltime } }

/-- Steps of the boot, in order. -/
def State.bootSteps (s : State) (bs : List BootStep) : State := bs.foldl (fun s b => s.bootStep b) s

/-- BOOT_STEP_OVERRUN (R505): the bound of the step is reached. FAILED, but in step 4, where no slot has been found in time, and in step 7, which goes on with what the
tests have found. -/
def State.bootOverrun (s : State) (bs : List BootStep) : State :=
  let now := s
  let s := s.advanceTo (s.pm.stepAt + 1000000 * bootBound s.pm.step)
  if s.pm.st ≠ .booting then now
  else if s.pm.step = 4 then s.bootFails
  else if s.pm.step = 7 then
    let t := s.bootSteps (bs.take 1)
    if t.pm.st = .booting ∧ t.pm.step = 7 then { t with pm := { t.pm with step := 8 } } else t
  else s.fail .notReady

/-! ### Standby and stops (R503, R504) -/

/-- Whether the module may leave STANDBY at a sample of MOD_EN_N: 60 s must have passed after a THERMAL stop, and PM_AUTO neither ends such
a stop nor starts again what the ROM has refused. -/
def State.mayLeave (s : State) (start edge : Bool) : Bool :=
  match s.pm.thermalAt, s.pm.cause with
  | some t, _ => (start || edge) && decide (t + 60000000000 ≤ s.ltime)
  | none, .scrap => false
  | none, .bootVerify | none, .otpDigest _ => start
  | none, _ => s.pm.auto || start

/-- The boot begins at step 3. -/
def State.bootBegin (s : State) : State :=
  { s with pm := { (s.pm.enter .booting) with
    step := 3, bootAt := s.ltime, stepAt := s.ltime, byReset := false, thermalAt := none, edge := false, start := false, stop := false } }

/-- MOD_EN_SAMPLE (R503, R504): each millisecond MOD_EN_N is sampled, `pin` true being high, and the input measured: watts, 10 mV and
10 mA. `steps` are the steps of the boot that have ended since the last sample. -/
def State.modEnSample (s : State) (pin : Bool) (input : Nat × Nat × Nat) (steps : List BootStep) : State :=
  if s.pm.st = .off then s
  else
    let s := s.advanceTo ((s.ltime / 1000000 + 1) * 1000000)
    let old := s.pm.modEn
    let start := s.pm.start
    let stop := s.pm.stop
    let edge := s.pm.edge || (s.pm.thermalAt.isSome && old && !pin)
    let s := { s with
      power := { s.power with inW := input.1, inV := input.2.1, inA := input.2.2 }
      pm := { s.pm with modEn := pin, edge := edge, start := false, stop := false } }
    if s.running ∧ (stop ∨ (pin ∧ !old)) then s.stopModule (if stop then .stop else .modEn)
    else if s.pm.st = .booting then s.bootSteps steps
    else if s.pm.st = .standby ∧ !pin ∧ !stop ∧ !s.pm.inputBad ∧ s.mayLeave start edge then s.bootBegin.bootSteps steps
    else s

/-- PM_START, PM_STOP and PM_AUTO are written (Table 17-8); a write of both PM_START and PM_STOP acts as PM_STOP. -/
def State.pmWrite (s : State) (auto start stop : Bool) : State :=
  { s with pm := { s.pm with
    auto := auto, start := if stop then false else s.pm.start || start, stop := s.pm.stop || stop } }

/-! ### Input power (R501) -/

/-- INPUT_RISE: VDD_AO is up, local time counts from 0, and FAB_ROOT_N is sampled. -/
def State.inputRise (s : State) (root : Bool) : State :=
  if s.pm.st = .off then
    { s with
      ltime := 0, isRoot := root
      pm := { Pm.reset with slotA := s.pm.slotA, slotB := s.pm.slotB, pref := s.pm.pref, identity := s.pm.identity, evStates := [.standby] } }
  else s

/-- UNDERVOLT and OVERVOLT: the main rails go off. -/
def State.inputFails (s : State) (cause : PmCause) : State :=
  if s.pm.st = .off then s
  else
    let s := s.stopModule cause
    { s with pm := { s.pm with inputBad := true } }

/-- INPUT_LOSS. -/
def State.inputLoss (s : State) : State := if s.pm.st = .off then s else s.powerOff

/-- INPUT_RESTORED: the module may restart under R503. -/
def State.inputRestored (s : State) : State := { s with pm := { s.pm with inputBad := false } }

/-! ### Rails and temperature (Table 14-1, Table 14-3) -/

/-- A die loses a rail: die fence-off, level 5 for D0, and during a boot what R506 says. -/
def State.dieRail (s : State) (d : Nat) : State :=
  if s.pm.st = .booting ∧ d = 0 then { s with dieFenced := insertSorted 0 s.dieFenced }
  else if s.dieFenced.contains d then s
  else s.startLadder ⟨.die (Fin.ofNat 4 d), none, 4, s.ltime, none, [], [], false, false, false⟩ 4

/-- RAIL_FAULT (R430): the record, and the action of Table 14-1. -/
def State.railFault (s : State) (rail reading : Nat) : State :=
  if s.pm.st = .off ∨ (rail ≠ 37 ∧ !s.running) then s
  else
    let s := s.powerRecord PowerEvent.railFault (if rail = 0 ∨ rail = 4 ∨ rail = 37 then 4 else 3) rail reading
    let off (s : State) : State := { s with power := { s.power with railsOff := insertSorted rail s.power.railsOff } }
    if rail < 8 then s.dieRail (rail % 4)
    else if rail < 24 then
      let t := s.fenceMany 0 (rangeFrom (96 * (rail % 4)) 96)
      t.1.settle t.2
    else if rail < 32 then (rangeFrom (4 * (rail % 4)) 4).foldl (fun s l => s.linkDown l) (off s)
    else if rail < 36 then (rangeFrom (4 * (rail % 2)) 4).foldl (fun s p => s.portDown p) (off s)
    else if rail = 36 then { s with pm := { s.pm with noFlash := true, update := s.pm.update.map fun (u : Update) => { u with ended := true } } }
    else s.fail .level5

/-- THERMAL_SHUTDOWN (R443): at 115 °C or more (R2, Table 14-3) comparators turn off every rail but VDD_AO; `what` is the sensor's cluster. -/
def State.thermalShutdown (s : State) (what reading : Nat) : State :=
  if s.running ∧ 115 ≤ reading then
    let s := (s.powerRecord PowerEvent.thermalShutdown 4 what reading).stopModule .thermal
    { s with pm := { s.pm with thermalAt := some s.ltime, edge := false } }
  else s

/-- The first reading of 115 °C or more (Table 14-3), with the cluster, die or stack that it names: what stops the module. -/
def hottest (readings : List (Nat × Nat)) : Option (Nat × Nat) := readings.find? fun e => decide (115 ≤ e.2)

/-- THERMAL_SENSOR_READ (R443): the thresholds of Table 14-3, the last of which stops the module. -/
def State.sensorsRead (s : State) (clusters fabrics hbms : Tbl Nat) : State :=
  let t := s.sensorRead clusters fabrics hbms
  match hottest (clusters ++ fabrics ++ hbms) with
  | some e => t.thermalShutdown e.1 e.2
  | none => t

end Sys2Proof.Machine
end

