-- ==== Sys2Proof/Machine/Manage.lean ====
section
/-! DEFINITION. The management bus: I3C commands, the endpoint, sensors and effecters, events, and the firmware update (R512 to
R516); and the test access port (R40). -/

namespace Sys2Proof.Machine

/-! ### I3C (R512) -/

/-- Answer a command code. -/
def State.i3cAns (s : State) (ack : Bool) (data : List Byte := []) : State := s.emit (.i3c ack data)

/-- A number as `n` bytes, the most significant first, as I3C returns them. -/
def beBytes (v n : Nat) : List Byte := (leBytes v n).reverse

/-- Whether the target has an address at which a directed command finds it. -/
def State.onBus (s : State) : Bool := s.pm.st != .off && s.pm.da.isSome

/-- ENTDAA: a target without an address takes one, from STANDBY on. -/
def State.entdaa (s : State) (da : Nat) : State :=
  if s.pm.st = .off ∨ s.pm.da.isSome then s
  else ({ s with pm := { s.pm with da := some (da % 128), hotJoin := false } } : State).i3cAns true

/-- RSTDAA: the address is gone until the next ENTDAA. -/
def State.rstdaa (s : State) : State :=
  if s.pm.st = .off then s else ({ s with pm := { s.pm with da := none } } : State).i3cAns true

/-- SETNEWDA. -/
def State.setnewda (s : State) (da : Nat) : State :=
  if s.onBus then ({ s with pm := { s.pm with da := some (da % 128) } } : State).i3cAns true else s

/-- The provisional ID (Table 17-5): Svettia's manufacturer ID, which is stated nowhere, bit 32, and bits [31:0] of SHA-384 over the
serial number. -/
def State.pid (s : State) : Nat :=
  Config.mipiId.toNat * 2 ^ 33 + 2 ^ 32 + (Config.sha384 (leBytes s.sec.serial 14)).toNat % 2 ^ 32

/-- GETPID, GETBCR, GETDCR. -/
def State.getPid (s : State) : State := if s.onBus then s.i3cAns true (beBytes s.pid 6) else s
def State.getBcr (s : State) : State := if s.onBus then s.i3cAns true [0x0E] else s
def State.getDcr (s : State) : State := if s.onBus then s.i3cAns true [0x00] else s

/-- GETSTATUS: two bytes whose content is not stated. -/
def State.getStatus (s : State) : State :=
  if s.onBus then
    let f := s.fresh
    f.2.i3cAns true (beBytes (Config.freeBits 16 f.1).toNat 2)
  else s

/-- ENEC and DISEC: the events that a mask names. -/
def State.enec (s : State) (mask : BitVec 8) : State :=
  if s.pm.st = .off then s
  else ({ s with pm := { s.pm with events := (BitVec.ofNat 8 s.pm.events ||| mask).toNat } } : State).i3cAns true
def State.disec (s : State) (mask : BitVec 8) : State :=
  if s.pm.st = .off then s
  else ({ s with pm := { s.pm with events := (BitVec.ofNat 8 s.pm.events &&& ~~~mask).toNat } } : State).i3cAns true

/-- SETMWL, SETMRL: 256 bytes at most. -/
def State.setMwl (s : State) (n : Nat) : State :=
  if s.pm.st = .off then s else ({ s with pm := { s.pm with mwl := min n 256 } } : State).i3cAns true
def State.setMrl (s : State) (n : Nat) : State :=
  if s.pm.st = .off then s else ({ s with pm := { s.pm with mrl := min n 256 } } : State).i3cAns true

/-- GETMWL, GETMRL. -/
def State.getMwl (s : State) : State := if s.onBus then s.i3cAns true (beBytes s.pm.mwl 2) else s
def State.getMrl (s : State) : State := if s.onBus then s.i3cAns true (beBytes s.pm.mrl 2) else s

/-- RSTACT: accepted with defining bytes 0x00 and 0x01, and not acknowledged otherwise. -/
def State.rstAct (s : State) (b : BitVec 8) : State :=
  if s.pm.st = .off then s
  else if b.toNat ≤ 1 then ({ s with pm := { s.pm with rstact := b.toNat } } : State).i3cAns true
  else s.i3cAns false

/-- HOT_JOIN: once the bus is idle, where the event is enabled (ENEC bit 3) and no address has come meanwhile. -/
def State.hotJoin (s : State) : State :=
  if s.pm.st ≠ .off ∧ s.pm.hotJoin ∧ s.pm.da.isNone ∧ bit s.pm.events 3 then
    ({ s with pm := { s.pm with hotJoin := false } } : State).emit .hotJoin
  else s

/-! ### Contacts (R541, R543) -/

/-- Whether the module pulls an open-drain contact low: MOD_READY_N in READY, MOD_FAULT_N in FAILED. It does not in OFF. -/
def State.readyLow (s : State) : Bool := s.pm.st == .ready
def State.faultLow (s : State) : Bool := s.pm.st == .failed

/-! ### PLDM (R513, R514) -/

/-- Answer a PLDM command. -/
def State.pldmAns (s : State) (r : PldmReply) : State := s.emit (.pldm r)

/-- SET_ENDPOINT_ID (R513). -/
def State.setEid (s : State) (eid : Nat) : State :=
  if s.onBus then ({ s with pm := { s.pm with eid := eid % 256 } } : State).pldmAns .success else s

/-- The value of a sensor of Table 17-6. -/
def State.sensorValue (s : State) (id : Nat) : Option Nat :=
  if id = 1 then some s.power.inW
  else if id = 2 then some s.power.inV
  else if id = 3 then some s.power.inA
  else if 4 ≤ id ∧ id ≤ 7 then some (((rangeFrom (12 * (id - 4)) 12).map fun c => (s.cpower c).temp).foldl max 0)
  else if 8 ≤ id ∧ id ≤ 19 then some (Tbl.get 0 s.power.stackTemp (id - 8))
  else if id = 20 then some (s.pm.st.code + 1)
  else none

/-- GET_SENSOR_READING: in STANDBY and FAILED only sensor 2 reads. -/
def State.getSensor (s : State) (id : Nat) : State :=
  if s.pm.st = .off then s
  else if id = 0 ∨ 20 < id then s.pldmAns .error
  else if (s.pm.st = .standby ∨ s.pm.st = .failed) ∧ id ≠ 2 then s.pldmAns (.reading id none)
  else s.pldmAns (.reading id (s.sensorValue id))

/-- SET_POWER_STATE_EFFECTER: 1 acts as PM_START, 2 as a stop. -/
def State.setPowerState (s : State) (v : Nat) : State :=
  if s.pm.st = .off then s
  else if v = 1 then (s.pmWrite s.pm.auto true false).pldmAns .success
  else if v = 2 then (s.stopModule .stop).pldmAns .success
  else s.pldmAns .error

/-- PLATFORM_EVENT_MESSAGE (R514): records and changes of power state not yet told of, once per 10 ms at most. -/
def State.platformEvent (s : State) : State :=
  let n := (s.errProd + 2 ^ 32 - s.pm.evProd) % 2 ^ 32
  if s.pm.st = .off ∨ (n = 0 ∧ s.pm.evStates.isEmpty) then s
  else
    let s := match s.pm.evAt with
      | some t => s.advanceTo (t + 10000000)
      | none => s
    let recs := (rangeFrom (s.pm.evProd + (n - min n 4096)) (min n 4096)).map fun i => i % 2 ^ 32
    let s := s.emit (.pldmEvent recs s.pm.evStates)
    { s with pm := { s.pm with evProd := s.errProd, evStates := [], evAt := some s.ltime } }

/-- REC_READ (R515): the record at an index of the error ring. -/
def State.recRead (s : State) (i : Nat) : State :=
  if s.pm.st = .off then s else s.pldmAns (.words (Tbl.get (List.replicate 8 0) s.errRing (i % 4096)))

/-! ### Firmware update (R516) -/

/-- The header and body of a stage (Table 13-13); bytes 72 to 4,047 are its certificate and signatures. -/
def StageImage.bytes (g : StageImage) (stage : Nat) : List Byte :=
  leBytes 0x4D495653 4 ++ leBytes stage 1 ++ leBytes 0 3 ++ leBytes g.svn 4 ++ leBytes 0 4 ++ leBytes g.body.length 8 ++ leBytes g.digest.toNat 48 ++
    (g.signed ++ List.replicate 3976 0).take 3976 ++ leBytes 0 48 ++ g.body

/-- Where the stages of a slot lie, from `at_` on: each at a 4 KiB boundary (R422). -/
def placeStages (at_ stage : Nat) : List StageImage → List (Nat × List Byte)
  | [] => []
  | g :: r => (at_, g.bytes stage) :: placeStages (at_ + (4096 + g.body.length + 4095) / 4096 * 4096) (stage + 1) r

/-- What the boot flash holds, by address (R1, R422): slot A, slot B, the identity area and BOOT_PREF. What lies elsewhere in its 256 MiB is
stated nowhere. -/
def Pm.flash (k : Pm) : List (Nat × List Byte) :=
  placeStages 0 1 k.slotA ++ placeStages 0x6000000 1 k.slotB ++
    [(0xC000000, k.identity.flatMap fun e => e.2.cert ++ e.2.issuing ++ e.2.nodes), (0xE000000, leBytes k.pref 1)]

/-- The FRU record (R3, R513): serial number, revision, week of manufacture and Svettia's enterprise number. -/
def State.fruRecord (s : State) : List Byte :=
  leBytes s.sec.serial 14 ++ leBytes s.sec.hwRev 2 ++ leBytes s.sec.mfgWeek 2 ++ leBytes Config.enterprise.toNat 4

/-- The stages of a slot of the flash. -/
def Pm.setSlot (k : Pm) (slot : Nat) (l : List StageImage) : Pm := if slot = 0 then { k with slotA := l } else { k with slotB := l }

/-- REQUEST_UPDATE: in READY for the slot that is not running; in STANDBY after both slots have failed, through MAINT, for the slot that
BOOT_PREF does not name. -/
def State.requestUpdate (s : State) : State :=
  let go (s : State) (slot : Nat) : State :=
    ({ s with pm := { (s.pm.setSlot slot []) with update := some ⟨slot, 0, false⟩ } } : State).pldmAns .success
  if s.pm.st = .off then s
  else if s.pm.update.isSome then s.pldmAns .alreadyUpdating
  else if s.pm.noFlash then s.pldmAns .error
  else
    match s.pm.st with
    | .ready => go s (1 - s.pm.slot)
    | .maint => go s (1 - s.pm.prefSlot)
    | .standby =>
      if s.pm.bothFailed then go { s with pm := s.pm.enter .maint } (1 - s.pm.prefSlot) else s.pldmAns .error
    | _ => s.pldmAns .error

/-- SLOT_IMAGE_STAGE: the next stage arrives and is checked under R423; `good` says whether its certificate, signatures and body verify. -/
def State.slotStage (s : State) (good : Bool) (svn : Nat) (f : StageFile) : State :=
  match s.pm.update with
  | none => s.pldmAns .error
  | some u =>
    if u.ended ∨ 4 ≤ u.stages then s.pldmAns .error
    else if good ∧ s.sec.svn ≤ svn then
      let l := (if u.slot = 0 then s.pm.slotA else s.pm.slotB) ++ [⟨true, svn, f.digest, f.signed, f.body⟩]
      ({ s with pm := { (s.pm.setSlot u.slot l) with update := some { u with stages := u.stages + 1 } } } : State).pldmAns .success
    else ({ s with pm := { s.pm with update := some { u with ended := true } } } : State).pldmAns .verifyFailed

/-- ACTIVATE_FIRMWARE: BOOT_PREF is written, when every stage has passed. -/
def State.activate (s : State) : State :=
  match s.pm.update with
  | none => s.pldmAns .error
  | some u =>
    if u.ended ∨ u.stages < 4 then s.pldmAns .error
    else ({ s with pm := { s.pm with pref := u.slot, actPending := true, update := none } } : State).pldmAns .success

/-- CANCEL_UPDATE: the slot is left unbootable. -/
def State.cancelUpdate (s : State) : State :=
  match s.pm.update with
  | none => s.pldmAns .error
  | some _ => ({ s with pm := s.pm.cutUpdate } : State).pldmAns .success

/-! ### The test access port (R40) -/

/-- TEST_ACCESS_PORT: open in BLANK and RETURN; elsewhere the pins are ignored and TDO is high-impedance. -/
def State.testPort (s : State) : State := s.emit (.tdo (decide (s.sec.lc = 0 ∨ s.sec.lc = 3)))

end Sys2Proof.Machine
end

