-- ==== Sys2Proof/Machine/Registers.lean ====
section
/-! DEFINITION. The register window: blocks and their headers, the capability list, and what a read and a write of each register do
(R518 to R532). -/

namespace Sys2Proof.Machine

/-! ### Words and fields -/

/-- A word put together from fields: value, width in bits, the least significant first. -/
def packFields : List (Nat × Nat) → Nat
  | [] => 0
  | (v, w) :: r => v % 2 ^ w + 2 ^ w * packFields r

/-- Whether a write clears the counter in bits `hi` to `lo`: by writing 0 (R527). -/
def clears (v hi lo : Nat) : Bool := bits v hi lo == 0

/-! ### Blocks (Tables 18-1 to 18-3) -/

/-- A block of the window, by its instance. -/
inductive Blk where
  | module | cluster (c : Nat) | link (l : Nat) | port (p : Nat) | net (n : Nat) | fabric (d : Nat)
deriving DecidableEq, Repr

/-- Window offset of a block. -/
def Blk.base : Blk → Nat
  | .module => 0
  | .cluster c => 0x100000 + c * 0x10000
  | .link l => 0x400000 + l * 0x10000
  | .port p => 0x500000 + p * 0x8000
  | .net n => 0x540000 + n * 0x10000
  | .fabric d => 0x580000 + d * 0x20000

/-- The block that holds a window offset, and the offset in it. Completion ring heads and doorbells are no blocks. -/
def blkOf (ofs : Nat) : Option (Blk × Nat) :=
  if ofs < 0x100000 then some (.module, ofs)
  else if ofs < 0x400000 then some (.cluster ((ofs - 0x100000) / 0x10000), ofs % 0x10000)
  else if ofs < 0x500000 then some (.link ((ofs - 0x400000) / 0x10000), ofs % 0x10000)
  else if ofs < 0x540000 then some (.port ((ofs - 0x500000) / 0x8000), ofs % 0x8000)
  else if ofs < 0x560000 then some (.net ((ofs - 0x540000) / 0x10000), ofs % 0x10000)
  else if 0x580000 ≤ ofs ∧ ofs < 0x600000 then some (.fabric ((ofs - 0x580000) / 0x20000), ofs % 0x20000)
  else none

/-- BLOCK_TYPE, INSTANCE, PAGES and CAP_PTR of a block (Table 18-3). -/
def Blk.ident : Blk → Nat × Nat × Nat × Nat
  | .module => (0x01, 0, 255, 0x40)
  | .cluster c => (0x02, c, 15, 0)
  | .link l => (0x03, l, 15, 0)
  | .port p => (0x04, p, 7, 0)
  | .net n => (0x05, n, 15, 0)
  | .fabric d => (0x07, d, 31, 0)

/-- The die of a block; the module block's pages lie in islands that no die fence-off takes. -/
def Blk.die : Blk → Option Nat
  | .module => none
  | .cluster c => some (dieOf c)
  | .link l => some (l / 4)
  | .port p => some (2 * (p / 4))
  | .net n => some (2 * n)
  | .fabric d => some d

/-- Whether a block lies on a die that is fenced off. -/
def State.blkFenced (s : State) (b : Blk) : Bool := b.die.any fun d => s.dieFenced.contains d

/-- Whether a block's island is clamped or fenced off (R522). -/
def State.blkClamped (s : State) (b : Blk) : Bool :=
  s.blkFenced b || (match b with
    | .cluster c => (s.cluster c).clamped || s.quarantine.contains c
    | _ => false)

/-- CORE_STATE (Table 18-11): an ended core still holds its context. -/
def Core.state (k : Core) : Nat :=
  match k.ctl with
  | .idle => 0
  | .running | .blocked _ | .halting => 1
  | .ended => if k.ctx = 0 then 0 else 2
  | .stopped _ _ => 2
  | .faulted => 3

/-- Connections with a plane on a port: open or broken. -/
def State.portConns (s : State) (p : Nat) : Bool :=
  s.conns.any fun e => e.2.st != .free && decide (e.2.portOn (p / 4) = p)

/-- When a block runs (Table 18-2). The host page of the module block has a condition of its own. -/
def State.runs (s : State) : Blk → Bool
  | .module => s.pm.st == .ready
  | .cluster c => (rangeFrom (4 * c) 4).any fun k => (s.core k).state == 1 || ((s.core k).state == 2 && decide ((s.core k).ctx ≠ 0))
  | .link l => match (s.link l).state with
    | .down | .rejected => false
    | _ => true
  | .port p => s.portConns p
  | .net _ => s.conns.any fun e => e.2.st == .up
  | .fabric d => !s.dieFenced.contains d

/-- Whether a shadow of a slot differs from what is committed. -/
def Regulator.dirty (r : Regulator) : Bool := r.guar != r.shGuar || r.windows != r.shWindows || r.targets != r.shTargets

/-- SHADOW_DIRTY. -/
def State.shadowDirty (s : State) : Blk → Bool
  | .cluster c => (rangeFrom (8 * c) 8).any fun ch => (s.channel ch).regs.any fun e => e.2.dirty
  | _ => false

/-- STATUS: 1 quarantined, 2 fenced off. -/
def State.blkStatus (s : State) (b : Blk) : Nat :=
  match b with
  | .cluster c => if s.quarantine.contains c then 1 else if s.blkClamped b then 2 else 0
  | _ => if s.blkFenced b then 2 else 0

/-- The header of a block. -/
def State.hdr (s : State) (b : Blk) : BlockHeader := Tbl.get BlockHeader.reset s.hdrs b.base

/-- Words of a block header (Table 18-3). -/
def State.headerWord (s : State) (b : Blk) (o : Nat) : Nat :=
  let i := b.ident
  let h := s.hdr b
  if o = 0 then packFields [(i.1, 8), (1, 8), (i.2.1, 8), (i.2.2.1, 8), (i.2.2.2, 16), (b2n (s.runs b), 1), (b2n (s.shadowDirty b), 1),
    (s.blkStatus b, 2)]
  else if o = 0x08 then packFields [(h.refused, 32), (h.lastOfs, 24), (h.lastWhy, 4)]
  else if o = 0x10 then packFields [(h.lastMaster, 3), (h.lastSrc, 16)]
  else 0

/-! ### Reading the module block -/

/-- The capability list (Table 18-5): type, version, count, stride and base. -/
def capEntries : List (Nat × Nat × Nat × Nat × Nat) :=
  [(0x01, 1, 1, 0, 0), (0x18, 1, 1, 0, 0x1000), (0x19, 1, 1, 0, 0x2000), (0x10, 1, 1, 0, 0x3000), (0x11, 1, 1, 0, 0x4000),
   (0x12, 1, 1, 0, 0x5000), (0x13, 1, 1, 0, 0x6000), (0x14, 1, 8192, 16, 0x20000), (0x15, 1, 4096, 64, 0x80000),
   (0x16, 1, 4096, 32, 0xC0000), (0x17, 1, 48, 0x400, 0xE0000)] ++
  [(0x02, 1, 48, 0x10000, 0x100000), (0x03, 1, 16, 0x10000, 0x400000), (0x04, 1, 8, 0x8000, 0x500000),
   (0x05, 1, 2, 0x10000, 0x540000), (0x06, 1, 4096, 8, 0x560000), (0x07, 1, 4, 0x20000, 0x580000), (0x08, 1, 8192, 8, 0x600000),
   (0x40, 1, 1, 0, 0x3FF), (0x00, 0, 0, 0, 0)]

/-- A word of the capability list. -/
def capWord (o : Nat) : Nat :=
  match capEntries[(o - 0x40) / 16]? with
  | some (t, v, n, st, b) => if o % 16 = 0 then packFields [(t, 8), (v, 8), (n, 16), (st, 32)] else b
  | none => 0

/-- The recovery page (Table 12-2). -/
def State.recoveryWord (s : State) (o : Nat) : Nat :=
  if o = 0 then s.errProd % 2 ^ 32
  else if o = 0x08 then s.errCons % 2 ^ 32
  else if o = 0x10 then s.errOvf
  else if o = 0x18 then packFields [(s.coreHang, 8), (s.cpHang, 8)]
  else if o = 0x20 then packFields [((maskOf 48 s.quarantine).toNat, 48), ((maskOf 4 s.dieFenced).toNat, 4), (b2n s.failed, 1)]
  else 0

/-- The power page (Table 14-5); a slot of a partition that is not in use reads zero. -/
def State.powerWord (s : State) (o : Nat) : Nat :=
  let w := s.power
  if o = 0 then (w.capNext.getD w.cap) % 2 ^ 13
  else if o = 0x08 then packFields [(w.inW, 16), (w.inV, 16), (w.inA, 16)]
  else if o = 0x10 then packFields ((List.range 4).map fun d => (Tbl.get 0 w.vop d, 8))
  else if o = 0x18 then w.backstop
  else if o = 0x20 then w.unattr / energyUnit
  else if 0x100 ≤ o ∧ o < 0x400 then
    let p := (o - 0x100) / 16
    let q := s.part p
    if !q.inUse then 0
    else if o % 16 = 0 then packFields [(q.lay.power, 17), (s.ceiling p (dieOf (q.lay.clusters.headD 0)), 9), (q.clockStep, 5)]
    else Tbl.get 0 w.partEnergy p / energyUnit
  else 0

/-- The power-management page (Table 17-8). -/
def State.pmWord (s : State) (o : Nat) : Nat :=
  let k := s.pm
  if o = 0 then packFields [(k.st.code, 3), (if k.st = .booting then k.step else 0, 4), (0, 1), (k.cause.code, 8)]
  else if o = 0x08 then b2n k.auto
  else if o = 0x10 then packFields [(k.slot, 1), (b2n k.fallback, 1), (b2n k.actPending, 1), (0, 13), (k.bootMs, 16)]
  else if o = 0x18 then packFields [(k.da.getD 0, 7), (b2n k.da.isSome, 1), (k.eid, 8)]
  else 0

/-- The security page (Table 18-8). -/
def State.securityWord (s : State) (o : Nat) : Nat :=
  let c := s.sec
  if o = 0 then packFields [(c.lc, 3), (c.idGen, 1), (c.leavesLeft, 16), (bootColophons - c.colophons, 11), (c.svn, 9), (c.svnRun, 9)]
  else if o = 0x08 then packFields [((s.keys.filter fun e => e.2.valid).length, 13), (s.shares.length, 8)]
  else 0

/-- A queue table entry (Table 18-9). -/
def State.queueWord (s : State) (q : Nat) (o : Nat) : Nat :=
  let k := s.queue q
  let on := if q = 0 then s.adminOn else k.inUse && !k.closing
  if o = 0 then packFields [(k.head, 16), (k.tail, 16), (k.gen, 16), (if k.error then 2 else if on then 1 else 0, 2), (s.ringLogOf q, 4)]
  else packFields [(if q = 0 then 0 else k.ringBase, 40), (k.cring, 12)]

/-- TYPE of a key entry (Table 13-7). -/
def KeyType.num : KeyType → Nat
  | .none => 0 | .module => 1 | .partition => 2 | .context => 3 | .mem => 4 | .link => 5 | .session => 6 | .access => 7

/-- The attributes of a key entry (Table 13-6); handle 0x03F stands for the CONTEXT keys (R395). -/
def State.keyWord (s : State) (h : Nat) (i : Nat) : Nat :=
  if h = 0x03F then (if i = 0 then packFields [(3, 4), (1, 1), (0, 1), (0, 1), (1, 6)] else 0)
  else
    let e := s.key h
    if i = 0 then packFields [(e.type.num, 4), (b2n e.valid, 1), (b2n e.expire, 1), (b2n e.staged, 1), (e.engines.toNat, 6), (0, 3),
      (e.owner, 16), (e.share, 8), (e.part, 6), (b2n e.current, 1)]
    else if i = 1 then packFields [(e.uses, 48), (e.limitLog, 6)]
    else if i = 2 then packFields [(e.stageForme, 32), (e.stageMember, 16)]
    else 0

/-- A key window (Table 13-9). -/
def State.windowWord (s : State) (p i : Nat) (second : Bool) : Nat :=
  match Tbl.find (s.part p).windows i with
  | some w => if second then packFields [(w.length, 40), (w.owner, 16)] else packFields [(w.base, 40), (w.keyh, 12), (1, 1)]
  | none => 0

/-- A word of the module block. -/
def State.moduleWord (s : State) (o : Nat) : Nat :=
  if o < 0x40 then s.headerWord .module o
  else if o < 0x1000 then capWord o
  else if o < 0x2000 then
    (if o = 0x1000 then s.sec.serial % 2 ^ 64
    else if o = 0x1008 then packFields [(s.sec.serial / 2 ^ 64, 48), (s.sec.hwRev, 16)]
    else if o = 0x1010 then s.sec.mfgWeek % 2 ^ 16 else 0)
  else if o < 0x3000 then
    (if o = 0x2000 then packFields [(b2n s.adminEn, 1), (s.adminLog, 4)]
    else if o = 0x2008 then s.adminBase
    else if o = 0x2010 then s.staleDb else 0)
  else if o < 0x4000 then s.recoveryWord (o - 0x3000)
  else if o < 0x5000 then s.powerWord (o - 0x4000)
  else if o < 0x6000 then s.pmWord (o - 0x5000)
  else if o < 0x7000 then s.securityWord (o - 0x6000)
  else if 0x20000 ≤ o ∧ o < 0x40000 then s.queueWord ((o - 0x20000) / 16) (o % 16)
  else if 0x80000 ≤ o ∧ o < 0xC0000 then
    (((Tbl.get [] s.errRing ((o - 0x80000) / 64)).getD ((o % 64) / 8) 0 : Word64)).toNat
  else if 0xC0000 ≤ o ∧ o < 0xE0000 then s.keyWord ((o - 0xC0000) / 32) ((o % 32) / 8)
  else if 0xE0000 ≤ o ∧ o < 0xEC000 then s.windowWord ((o - 0xE0000) / 0x400) ((o % 0x400) / 16) (decide (o % 16 = 8))
  else 0

/-! ### Reading the other blocks -/

/-- The core page (Table 18-11). -/
def State.coreWord (s : State) (c o : Nat) : Nat :=
  let k := s.core c
  if o = 0 then packFields [(k.state, 2), (k.ctx, 16), (if k.state = 2 ∨ k.state = 3 then k.pc else 0, 13),
    ((k.fault.map fun f => f.code).getD 0, 8)]
  else if o = 0x08 then k.vcore % 2 ^ 32
  else if o = 0x10 then packFields [(k.accCorr, 32), (k.lmCorr, 32)]
  else 0

/-- A suspended stream's slot (Table 18-10). -/
def State.slotWord (s : State) (e slot i : Nat) : Nat :=
  match (s.engine e).suspended[slot]? with
  | some t => ((if i < 16 then (t.cursorRecord s e t.cause).getD i 0 else t.desc.getD (i - 16) 0 : Word64)).toNat
  | none => 0

/-- The stream engine page (Table 18-12). -/
def State.engineWord (s : State) (e o : Nat) : Nat :=
  let g := s.engine e
  let out := (g.active.foldl (fun a (x : Nat × Stream) => a + x.2.reqs.length) 0) + g.suspended.foldl (fun a t => a + t.reqs.length) 0 +
    g.ending.foldl (fun a t => a + t.reqs.length) 0
  if o = 0 then packFields [(g.active.length, 4), (g.suspended.length, 5), (g.queue.length, 5), (out, 14)]
  else if o = 0x08 then packFields [(g.suspCnt, 32), (g.aborts, 32)]
  else 0

/-- The sync page (Tables 08-7, 08-8 and 18-13). -/
def State.syncWord (s : State) (c o : Nat) : Nat :=
  let h := (s.cluster c).hub
  let k := h.cnt
  if o = 0 then packFields [(k.drop, 32), (k.sat, 32)]
  else if o = 0x08 then packFields [(k.deny, 16), (k.errsig, 16), (k.cold, 8), (k.poll, 8), (k.unreach, 8), (k.badmsg, 8)]
  else if o = 0x10 then
    let far := (s.waits.filter fun w => (s.fence w.fence).home == c && (match w.who with
      | .remote _ _ _ _ => true
      | _ => false)).length
    packFields [(h.hot.length, 12), ((h.hot.filter fun e => s.pinned e.1).length, 12), (far, 14), ((h.bars.filter fun b => b.2.conf).length, 9)]
  else 0

/-- The memory-side page (Table 18-14). -/
def State.memWord (s : State) (c o : Nat) : Nat :=
  let k := s.cluster c
  if o = 0 then k.csmWays
  else if o = 0x08 then k.keyDeny
  else if 0x10 ≤ o ∧ o < 0x50 then
    let ch := s.channel (8 * c + (o - 0x10) / 8)
    packFields [(if ch.untrained then 2 else if ch.fenced then 1 else 0, 2), (min ch.retired.length 1024, 11), (ch.scrubHours, 8), (ch.corrCount, 32)]
  else 0

/-- The cluster power page (Table 14-6). -/
def State.clusterPowerWord (s : State) (c o : Nat) : Nat :=
  let k := s.cpower c
  if o = 0 then packFields [(s.stepOf c, 5), (k.nT, 5), (k.grants.length, 5), (s.estimate c, 9), (k.temp, 8)]
  else if o = 0x08 then packFields [(k.droop, 32), (k.hold, 32)]
  else 0

/-- Regulator slots and channel registers (Tables 11-3 to 11-5). -/
def State.regulatorWord (s : State) (c o : Nat) : Nat :=
  if o < 0xD800 then
    let i := (o - 0xC000) / 16
    let r := s.slot (8 * c + i / 48) (i % 48)
    if o % 16 = 0 then packFields [(r.shGuar, 12), (r.shWindows, 8), (r.guarEff, 12), (b2n r.miss, 1), (b2n r.scaled, 1)]
    else packFields (r.shTargets.map fun t => (t, 8))
  else if 0xE000 ≤ o ∧ o < 0xE200 then
    let ch := 8 * c + (o - 0xE000) / 64
    let k := s.channel ch
    let w := o % 64
    if w = 0 then packFields [(derated, 12), (k.capNow, 12), (s.sumGuar ch, 12), (s.recov ch, 12)]
    else if w = 0x10 then k.cresult
    else if w = 0x18 then packFields [(k.missCount, 32), (if ch % 8 = 0 then k.demoted else 0, 32)]
    else 0
  else 0

/-- A word of a cluster block (Table 18-10). -/
def State.clusterWord (s : State) (c o : Nat) : Nat :=
  if o < 0x1000 then s.headerWord (.cluster c) o
  else if o < 0x2000 then (if o < 0x1100 then s.coreWord (4 * c + (o - 0x1000) / 0x40) (o % 0x40) else 0)
  else if o < 0x6000 then s.slotWord (4 * c + (o - 0x2000) / 0x1000) ((o % 0x1000) / 0x100) ((o % 0x100) / 8)
  else if o < 0x7000 then (if o < 0x6100 then s.engineWord (4 * c + (o - 0x6000) / 0x40) (o % 0x40) else 0)
  else if o < 0x8000 then s.syncWord c (o - 0x7000)
  else if o < 0x9000 then s.memWord c (o - 0x8000)
  else if o < 0xA000 then s.clusterPowerWord c (o - 0x9000)
  else if 0xC000 ≤ o then s.regulatorWord c o
  else 0

/-- STATE of a link (Table 15-10). -/
def LinkState.num : LinkState → Nat
  | .down => 0 | .training _ => 1 | .guarding _ => 2 | .up => 3 | .rejected => 4

/-- A word of a link block (R474). -/
def State.linkWord (s : State) (l o : Nat) : Nat :=
  let k := s.link l
  let p := o - 0x1000
  if o < 0x1000 then s.headerWord (.link l) o
  else if 0x8000 ≤ o ∧ o < 0xA000 then
    let a := 4096 * l + (o - 0x8000) / 2
    packFields ((List.range 4).map fun i => (s.mask (a + i), 16))
  else if 0x2000 ≤ o then 0
  else if p = 0 then packFields [(k.state.num, 3), (k.partnerMod, 16), (b2n k.partnerV, 1), (k.partnerLink, 4), (k.epoch, 16), (k.rtt, 10)]
  else if p = 0x08 then b2n k.disable * 2
  else if p = 0x10 then s.vl1Of l % 2 ^ 16
  else if p = 0x18 then
    (if l = 0 then packFields [(s.fabAddr, 16), (b2n s.fabV, 1), (0, 1), (s.walk.wstatus, 2), (s.walk.wcount, 17)] else 0)
  else if p = 0x20 then packFields [(k.fecCorr, 32), (k.fecUncorr, 32)]
  else if p = 0x28 then packFields [(k.replay, 16), (k.authFail, 16), (k.unreach, 16), (k.hopsDrop, 16)]
  else if p = 0x30 then packFields [(k.detour, 16), (k.detourDup, 16), (k.guardFail, 16)]
  else if 0x40 ≤ p ∧ p < 0x1C0 then
    let q := s.part ((p - 0x40) / 8)
    if q.inUse then q.lay.linkShare.getD l 0 % 64 else 0
  else 0

/-- A word of an Ethernet port block (Table 18-15). -/
def State.portWord (s : State) (i o : Nat) : Nat :=
  let k := s.port i
  if o < 0x1000 then s.headerWord (.port i) o
  else if o = 0x1000 then packFields [(k.mode, 3), (k.modesEn, 6), (b2n k.lane1Fail, 1)]
  else if o = 0x1008 then k.mac % 2 ^ 48
  else if o = 0x1010 then packFields [(k.ipv4, 32), (b2n k.ipv4V, 1)]
  else if o = 0x1018 then k.ipv6 / 2 ^ 64
  else if o = 0x1020 then k.ipv6 % 2 ^ 64
  else if o = 0x1028 then packFields [(b2n k.ipv6V, 1), (k.vlanId, 12), (b2n k.vlanEn, 1), (k.dscp, 6), (k.pcp, 3), (k.pfcPrio, 3), (b2n k.pfcEn, 1)]
  else if o = 0x1030 then packFields [(k.dupOps, 32), (k.memRefused, 32)]
  else if o = 0x1038 then packFields [(k.udDiscard, 32), (k.crDiscard, 32)]
  else 0

/-- A network block's state. -/
def State.net (s : State) (n : Nat) : NetBlock := Tbl.get NetBlock.reset s.nets n

/-- A word of an Ethernet network block (Table 18-16). -/
def State.netWord (s : State) (n o : Nat) : Nat :=
  let k := s.net n
  if o < 0x1000 then s.headerWord (.net n) o
  else if o = 0x1000 then (s.conns.filter fun e => e.2.st != .free).length
  else if o = 0x1008 then packFields [(k.trDiscard, 32), (k.crhBad, 32)]
  else if o = 0x1010 then k.planeSwitches
  else if 0x2000 ≤ o ∧ o < 0x4000 then
    let c := s.conn ((o - 0x2000) / 32)
    let st := match c.st with
      | .free => 0
      | .up => 1
      | .broken => 2
    if st = 0 then 0
    else if o % 32 = 0 then
      packFields [(st, 2), (if c.failed n then 3 else if c.active = n then 1 else 2, 2), (c.portOn n % 4, 3), (c.cls, 3),
        (c.lastPseq.getD 0, 16), (c.prTimeout, 16)]
    else if o % 32 = 8 then packFields [(c.modQpn.getD n 0, 24), (c.modQpn.getD (2 + n) 0, 24)]
    else 0
  else 0

/-- A word of a fabric block (Table 18-17). -/
def State.fabricWord (s : State) (d o : Nat) : Nat :=
  let t := Tbl.get TransCache.reset s.caches d
  let here := decide (s.compositorDie = d)
  if o < 0x1000 then s.headerWord (.fabric d) o
  else if o = 0x1000 then packFields [(b2n here, 1), (b2n (!s.dieFenced.contains d), 1)]
  else if o = 0x1008 then packFields [(t.gen, 32), ((t.out.filter fun r => r.sent).length, 9)]
  else if o = 0x1010 then (if here then packFields [(s.agent.table.length, 11), (0, 21), (s.agent.waits, 32)] else 0)
  else if o = 0x1018 then packFields [(t.hits, 32), (t.misses, 32)]
  else if o = 0x1020 then (if here then s.agent.specDiscarded else 0)
  else 0

/-- Whether something waits or has been pushed for ring `r`: CR_HEAD (Table 16-7). -/
def State.cringWord (s : State) (r : Nat) : Nat :=
  let k := s.cring r
  packFields [(k.head, 17), (b2n k.notify, 1), (0, 14), (k.tail, 17), (b2n k.defined, 1)]

/-- The word at an 8-byte-aligned window offset (R518, R519, R522). -/
def State.regRead (s : State) (ofs : Nat) : Nat :=
  match blkOf ofs with
  | some (b, o) =>
    if s.blkClamped b then
      match b with
      | .cluster c => if o = 0 ∧ !s.blkFenced b then s.headerWord (.cluster c) 0 else 0
      | _ => 0
    else
      match b with
      | .module => s.moduleWord o
      | .cluster c => s.clusterWord c o
      | .link l => s.linkWord l o
      | .port p => s.portWord p o
      | .net n => s.netWord n o
      | .fabric d => s.fabricWord d o
  | none => if 0x560000 ≤ ofs ∧ ofs < 0x568000 then s.cringWord ((ofs - 0x560000) / 8) else 0

end Sys2Proof.Machine
end

