-- ==== Sys2Proof/Machine/RegWrite.lean ====
section
/-! DEFINITION. Writes to the register window: update classes, refusals and the counter write rule (R527 to R531), and the management
bus's accesses to it (R515, R520). -/

namespace Sys2Proof.Machine

/-- A write is refused (R528): it is counted in the header of its block. -/
def State.refusedAt (s : State) (b : Blk) (o why : Nat) (m : Master) : State × Bool := (s.refuse b.base o why m, true)

/-! ### The module block -/

/-- Bytes of the admin region (Table 18-7). -/
def adminRegion : Nat := 0x200000

/-- The host page: ADMIN_EN, ADMIN_LOG, ADMIN_BASE, QUE_STALE_DB. -/
def State.hostWrite18 (s : State) (m : Master) (o v : Nat) : State × Bool :=
  if o = 0x2000 then
    let log := bits v 4 1
    if log ≠ s.adminLog ∧ s.adminOn then s.refusedAt .module o Why.running m
    else if log < 6 ∨ 15 < log ∨ adminRegion < s.adminBase + 64 * 2 ^ log then s.refusedAt .module o Why.range m
    else ({ s with adminEn := bit v 0, adminLog := log }, false)
  else if o = 0x2008 then
    let base := bits v 20 0
    if base ≠ s.adminBase ∧ s.adminOn then s.refusedAt .module o Why.running m
    else if base % 4096 ≠ 0 ∨ adminRegion < base + 64 * 2 ^ s.adminLog then s.refusedAt .module o Why.range m
    else ({ s with adminBase := base }, false)
  else if o = 0x2010 ∧ clears v 31 0 then ({ s with staleClear := true }, false)
  else (s, false)

/-- The recovery page: ERR_CONS, ERR_OVF, CORE_HANG and CP_HANG. -/
def State.recoveryWrite (s : State) (o v : Nat) : State :=
  if o = 0x3008 then
    let c := bits v 31 0
    if (c + 2 ^ 32 - s.errCons) % 2 ^ 32 ≤ s.errUsed then { s with errCons := c } else s
  else if o = 0x3010 then (if clears v 31 0 then { s with errOvf := 0 } else s)
  else if o = 0x3018 then { s with coreHang := bits v 7 0, cpHang := bits v 15 8 }
  else s

/-- The power page: PWR_CAP and PWR_BACKSTOP. -/
def State.powerWrite (s : State) (m : Master) (o v : Nat) : State × Bool :=
  if o = 0x4000 then
    let w := bits v 12 0
    if w < 2000 ∨ 5000 < w then s.refusedAt .module o Why.range m
    else ({ s with power := { s.power with capNext := some w } }, false)
  else if o = 0x4018 ∧ clears v 31 0 then ({ s with power := { s.power with backstopClear := true } }, false)
  else (s, false)

/-- A write to the module block. -/
def State.moduleWrite (s : State) (m : Master) (o v : Nat) : State × Bool :=
  if 0x2000 ≤ o ∧ o < 0x3000 then s.hostWrite18 m o v
  else if 0x3000 ≤ o ∧ o < 0x4000 then (s.recoveryWrite o v, false)
  else if 0x4000 ≤ o ∧ o < 0x5000 then s.powerWrite m o v
  else if o = 0x5008 then (s.pmWrite (bit v 0) (bit v 1) (bit v 2), false)
  else (s, false)

/-! ### Cluster blocks -/

/-- A change of CSM_WAYS (R213, R531): scratch above the new size is discarded, and the cache invalidated. -/
def State.setWays (s : State) (c w : Nat) : State :=
  let top := (16 - w) * 524288
  s.modCluster c fun k =>
    if k.csmWays = w then k
    else { k with
      csmWays := w, cache := [], scratch := k.scratch.filter fun e => decide (e.1 < top)
      csmBad1 := k.csmBad1.filter fun i => decide (8 * i < top), csmBad2 := k.csmBad2.filter fun i => decide (8 * i < top) }

/-- CSM_WAYS (R213). -/
def State.waysWrite (s : State) (m : Master) (c v : Nat) : State × Bool :=
  let w := bits v 4 0
  if w ≠ (s.cluster c).csmWays ∧ s.runs (.cluster c) then s.refusedAt (.cluster c) 0x8000 Why.running m
  else if 16 < w then s.refusedAt (.cluster c) 0x8000 Why.range m
  else (s.setWays c w, false)

/-- The counters of the sync page whose fields a write clears (R245). -/
def syncClears (o v : Nat) : List SynCnt :=
  if o = 0x7000 then (if clears v 31 0 then [.drop] else []) ++ (if clears v 63 32 then [.sat] else [])
  else (if clears v 15 0 then [SynCnt.deny] else []) ++ (if clears v 31 16 then [.errsig] else []) ++
    (if clears v 39 32 then [.cold] else []) ++ (if clears v 47 40 then [.poll] else []) ++
    (if clears v 55 48 then [.unreach] else []) ++ (if clears v 63 56 then [.badmsg] else [])

/-- The memory-side page beyond CSM_WAYS (Table 18-14). -/
def State.memSideWrite (s : State) (m : Master) (c o v : Nat) : State × Bool :=
  if o = 0x8008 then (if clears v 31 0 then s.modCluster c fun k => { k with keyDeny := 0 } else s, false)
  else if 0x8010 ≤ o ∧ o < 0x8050 then
    let h := bits v 20 13
    if h < 1 ∨ 168 < h then s.refusedAt (.cluster c) o Why.range m
    else (s.modChannel (8 * c + (o - 0x8010) / 8) fun k => { k with
      scrubHours := h, corrCount := if clears v 52 21 then 0 else k.corrCount }, false)
  else (s, false)

/-- Regulator slots and channel registers (R337, R528). -/
def State.regulatorWrite (s : State) (m : Master) (c o v : Nat) : State × Bool :=
  if o < 0xD800 then
    let i := (o - 0xC000) / 16
    let ch := 8 * c + i / 48
    if o % 16 = 0 ∧ 2560 < bits v 11 0 then s.refusedAt (.cluster c) o Why.range m
    else if s.changing ch ∧ m ≠ .controlProcessor then s.refusedAt (.cluster c) o Why.busy m
    else if o % 16 = 0 then
      (s.modSlot ch (i % 48) fun r => { r with
        shGuar := bits v 11 0, shWindows := bits v 19 12, missClear := r.missClear || bit v 32 }, false)
    else (s.modSlot ch (i % 48) fun r => { r with shTargets := (List.range 8).map fun n => bits v (8 * n + 7) (8 * n) }, false)
  else if 0xE000 ≤ o ∧ o < 0xE200 then
    let ch := 8 * c + (o - 0xE000) / 64
    if o % 64 = 8 then (if bit v 0 then s.commit ch else s, false)
    else if o % 64 = 0x18 then
      (s.modChannel ch fun k => { k with
        missCountClear := k.missCountClear || clears v 31 0
        demotedClear := k.demotedClear || (clears v 63 32 && decide (ch % 8 = 0)) }, false)
    else (s, false)
  else (s, false)

/-- A write to a cluster block (Table 18-10). -/
def State.clusterWrite (s : State) (m : Master) (c o v : Nat) : State × Bool :=
  if 0x1000 ≤ o ∧ o < 0x1100 then
    (if o % 0x40 = 0x10 then s.modCore (4 * c + (o - 0x1000) / 0x40) fun k => { k with
        accClear := k.accClear || clears v 31 0, lmClear := k.lmClear || clears v 63 32 } else s, false)
  else if 0x6000 ≤ o ∧ o < 0x6100 then
    (if o % 0x40 = 0x08 then s.modEngine (4 * c + (o - 0x6000) / 0x40) fun g => { g with
        suspCnt := if clears v 31 0 then 0 else g.suspCnt, aborts := if clears v 63 32 then 0 else g.aborts } else s, false)
  else if o = 0x7000 ∨ o = 0x7008 then
    (s.modHub c fun h => { h with cnt := { h.cnt with clearing := h.cnt.clearing ++ syncClears o v } }, false)
  else if o = 0x8000 then s.waysWrite m c v
  else if 0x8000 < o ∧ o < 0x9000 then s.memSideWrite m c o v
  else if o = 0x9008 then
    (s.modCpower c fun k => { k with
      droopClear := k.droopClear || clears v 31 0, holdClear := k.holdClear || clears v 63 32 }, false)
  else if 0xC000 ≤ o ∧ o < 0xF000 then s.regulatorWrite m c o v
  else (s, false)

/-! ### Link, Ethernet and fabric blocks -/

/-- The counters of a link block that a write clears, by number (Table 15-10). -/
def linkClears (o v : Nat) : List Nat :=
  if o = 0x1020 then (if clears v 31 0 then [0] else []) ++ (if clears v 63 32 then [1] else [])
  else if o = 0x1028 then (if clears v 15 0 then [2] else []) ++ (if clears v 31 16 then [3] else []) ++
    (if clears v 47 32 then [4] else []) ++ (if clears v 63 48 then [5] else [])
  else if o = 0x1030 then (if clears v 15 0 then [6] else []) ++ (if clears v 31 16 then [7] else []) ++
    (if clears v 47 32 then [8] else [])
  else []

/-- A write to a link block (R454, R458, R468, R471, R474). -/
def State.linkWrite (s : State) (m : Master) (l o v : Nat) : State × Bool :=
  if o = 0x1008 then
    let s := s.disableLink l (bit v 1)
    (if bit v 0 ∧ !bit v 1 then s.retrain l true else s, false)
  else if o = 0x1018 then
    if l = 0 ∧ bit v 17 then (s.walkStart true m, !s.isRoot) else (s, false)
  else if 0x8000 ≤ o ∧ o < 0xA000 then
    let a := 4096 * l + (o - 0x8000) / 2
    ((List.range 4).foldl (fun s i => s.routeWrite (a + i) (bits v (16 * i + 15) (16 * i))) s, false)
  else if (linkClears o v).isEmpty then (s, false)
  else (s.modLink l fun k => { k with clearing := k.clearing ++ linkClears o v }, false)

/-- The word of a port block that holds IPV6_V, the VLAN, DSCP, PCP and flow control (Table 18-15). -/
def State.portFlagsWrite (s : State) (m : Master) (i v : Nat) : State × Bool :=
  let k := s.port i
  let same : Bool := k.ipv6V == bit v 0 && k.vlanId == bits v 12 1 && k.vlanEn == bit v 13 && k.pfcPrio == bits v 25 23 && k.pfcEn == bit v 26
  if !same ∧ s.runs (.port i) then s.refusedAt (.port i) 0x1028 Why.running m
  else if bit v 13 ∧ (bits v 12 1 = 0 ∨ bits v 12 1 = 4095) then s.refusedAt (.port i) 0x1028 Why.range m
  else
    (s.modPort i fun k => { k with
      ipv6V := bit v 0, vlanId := bits v 12 1, vlanEn := bit v 13, dscp := bits v 19 14, pcp := bits v 22 20, pfcPrio := bits v 25 23
      pfcEn := bit v 26 }, false)

/-- A write to an Ethernet port block (Table 18-15). -/
def State.portWrite (s : State) (m : Master) (i o v : Nat) : State × Bool :=
  let k := s.port i
  let run := s.runs (.port i)
  let static (same : Bool) (t : State) : State × Bool :=
    if !same && run then s.refusedAt (.port i) o Why.running m else (t, false)
  if o = 0x1000 then
    if bits v 8 3 = 0 then s.refusedAt (.port i) o Why.range m else (s.modPort i fun k => { k with modesEn := bits v 8 3 }, false)
  else if o = 0x1010 then
    static (k.ipv4 == bits v 31 0 && k.ipv4V == bit v 32) (s.modPort i fun k => { k with ipv4 := bits v 31 0, ipv4V := bit v 32 })
  else if o = 0x1018 then
    static (k.ipv6 / 2 ^ 64 == v) (s.modPort i fun k => { k with ipv6 := v % 2 ^ 64 * 2 ^ 64 + k.ipv6 % 2 ^ 64 })
  else if o = 0x1020 then
    static (k.ipv6 % 2 ^ 64 == v) (s.modPort i fun k => { k with ipv6 := k.ipv6 / 2 ^ 64 * 2 ^ 64 + v % 2 ^ 64 })
  else if o = 0x1028 then s.portFlagsWrite m i v
  else if o = 0x1030 then
    (s.modPort i fun k => { k with
      dupOps := if clears v 31 0 then 0 else k.dupOps, memRefused := if clears v 63 32 then 0 else k.memRefused }, false)
  else if o = 0x1038 then
    (s.modPort i fun k => { k with
      udDiscard := if clears v 31 0 then 0 else k.udDiscard, crDiscard := if clears v 63 32 then 0 else k.crDiscard }, false)
  else (s, false)

/-- A write to an Ethernet network block (Table 18-16). -/
def State.netWrite (s : State) (n o v : Nat) : State :=
  let put (f : NetBlock → NetBlock) : State := { s with nets := Tbl.mod NetBlock.reset s.nets n f }
  if o = 0x1008 then put fun k => { k with
      trDiscard := if clears v 31 0 then 0 else k.trDiscard, crhBad := if clears v 63 32 then 0 else k.crhBad }
  else if o = 0x1010 ∧ clears v 31 0 then put fun k => { k with planeSwitches := 0 }
  else s

/-- A write to a fabric block (Table 18-17). -/
def State.fabricWrite (s : State) (d o v : Nat) : State :=
  let here := decide (s.compositorDie = d)
  if o = 0x1010 ∧ here ∧ clears v 63 32 then { s with agent := { s.agent with waits := 0 } }
  else if o = 0x1018 then
    { s with caches := Tbl.mod TransCache.reset s.caches d fun t => { t with
        hits := if clears v 31 0 then 0 else t.hits, misses := if clears v 63 32 then 0 else t.misses } }
  else if o = 0x1020 ∧ here ∧ clears v 31 0 then { s with agent := { s.agent with specDiscarded := 0 } }
  else s

/-! ### The whole window -/

/-- A clear of WR_REFUSED takes effect at the next write to the block. -/
def State.takeClear (s : State) (b : Blk) : State :=
  if (s.hdr b).clear then
    { s with hdrs := Tbl.mod BlockHeader.reset s.hdrs b.base fun h => { h with refused := 0, clear := false } }
  else s

/-- CR_HEAD (R494, Table 16-7): a HEAD beyond TAIL is discarded and counted; space returned lets groups through. -/
def State.headWrite (s : State) (r v : Nat) : State :=
  let k := s.cring r
  if !k.defined then s
  else
    let h := bits v 16 0
    let ok := decide ((h + 2 ^ 17 - k.head) % 2 ^ 17 ≤ (k.tail + 2 ^ 17 - k.head) % 2 ^ 17)
    let s := if ok then s
      else { s with nets := Tbl.mod NetBlock.reset s.nets (s.conn k.conn).active fun n => { n with crhBad := min (n.crhBad + 1) (2 ^ 32 - 1) } }
    (s.modCring r fun k => { k with head := if ok then h else k.head, notify := bit v 17 }).flushRing r

/-- The connection of a doorbell: the writer's, or where no host writes the one that the queue has. -/
def State.bellConn (s : State) (m : Master) (q : Nat) : Nat :=
  match m with
  | .host c => c
  | _ => (s.queue q).conn

/-- Whether the islands through which a master reaches the window run (R28, R32): from step 6 of a boot on, where a control processor of
a die runs. The management bus enters in the always-on island; how far it goes is `State.busReaches`. -/
def State.windowUp (s : State) (m : Master) : Bool :=
  m == .management || s.pm.st == .ready || s.pm.st == .maint || (s.pm.st == .booting && decide (6 ≤ s.pm.step))

/-- A write of one word at an 8-byte-aligned window offset, and whether it was refused (R527, R528). Writes to read-only fields and to
reserved addresses are discarded. While the islands are in reset a write is refused at the first crossing and counted nowhere (R32). -/
def State.regWriteR (s : State) (m : Master) (ofs v : Nat) : State × Bool :=
  if !s.windowUp m then (s, true)
  else match blkOf ofs with
  | some (b, o) =>
    if s.blkClamped b then s.refusedAt .module ofs Why.clamped m
    else
      let s := s.takeClear b
      if o = 0x08 then
        (if clears v 31 0 then { s with hdrs := Tbl.mod BlockHeader.reset s.hdrs b.base fun h => { h with clear := true } } else s, false)
      else if o < 0x1000 then (s, false)
      else
        match b with
        | .module => s.moduleWrite m o v
        | .cluster c => s.clusterWrite m c o v
        | .link l => s.linkWrite m l o v
        | .port p => s.portWrite m p o v
        | .net n => (s.netWrite n o v, false)
        | .fabric d => (s.fabricWrite d o v, false)
  | none =>
    if 0x560000 ≤ ofs ∧ ofs < 0x568000 then (s.headWrite ((ofs - 0x560000) / 8) v, false)
    else if 0x600000 ≤ ofs ∧ ofs < 0x610000 then
      (s.doorbell ((ofs - 0x600000) / 8) v (s.bellConn m ((ofs - 0x600000) / 8)), false)
    else (s, false)

/-- A write of one word. -/
def State.regWrite (s : State) (m : Master) (ofs v : Nat) : State := (s.regWriteR m ofs v).1

/-- REGISTER_WRITE (R519): an access that is not 8-byte aligned moves no word. -/
def State.registerWrite (s : State) (m : Master) (ofs v : Nat) : State :=
  if ofs % 8 = 0 then s.regWrite m ofs v else s

/-! ### Registers with rows of their own -/

/-- COMMIT, PWR_CAP, ERR_CONS, ADMIN_EN, CSM_WAYS. -/
def State.commitWrite (s : State) (m : Master) (ch : Nat) (v : Bool) : State :=
  s.regWrite m (0x100000 + ch / 8 * 0x10000 + 0xE000 + 64 * (ch % 8) + 8) (b2n v)
def State.capWrite (s : State) (m : Master) (w : Nat) : State := s.regWrite m 0x4000 w
def State.errConsWrite (s : State) (m : Master) (v : Nat) : State := s.regWrite m 0x3008 v
def State.adminEnWrite (s : State) (m : Master) (en : Bool) : State := s.regWrite m 0x2000 (b2n en + 2 * s.adminLog)
def State.csmWaysWrite (s : State) (m : Master) (c w : Nat) : State := s.regWrite m (0x108000 + c * 0x10000) w

/-- HEAD: the host returns space and arms nothing. NOTIFY: it arms a notification too. -/
def State.headRow (s : State) (m : Master) (r head : Nat) : State := s.regWrite m (0x560000 + 8 * r) (head % 2 ^ 17)
def State.notifyRow (s : State) (m : Master) (r head : Nat) : State := s.regWrite m (0x560000 + 8 * r) (head % 2 ^ 17 + 2 ^ 17)

/-- RETRAIN and DISABLE of a link; RETRAIN is written with DISABLE at its present value. -/
def State.retrainWrite (s : State) (m : Master) (l : Nat) (v : Bool) : State :=
  s.regWrite m (0x401008 + l * 0x10000) (b2n v + 2 * b2n (s.link l).disable)
def State.disableWrite (s : State) (m : Master) (l : Nat) (v : Bool) : State := s.regWrite m (0x401008 + l * 0x10000) (2 * b2n v)

/-- WALK_START, written in the block of L0. -/
def State.walkStartWrite (s : State) (m : Master) (v : Bool) : State := s.regWrite m 0x401018 (b2n v * 2 ^ 17)

/-- ROUTING_ENTRY_WRITE: the entry of one address; its three neighbours in the word are written at their present values. -/
def State.routeRow (s : State) (m : Master) (addr mask : Nat) : State :=
  let l := addr / 4096
  let o := (addr % 4096) * 2 / 8 * 8
  let word := packFields ((List.range 4).map fun i =>
    (if addr / 4 * 4 + i = addr then mask else s.mask (addr / 4 * 4 + i), 16))
  s.regWrite m (0x408000 + l * 0x10000 + o) word

/-- PM_START, PM_STOP and PM_AUTO: PM_AUTO is written at its present value with the others. -/
def State.pmStartWrite (s : State) (m : Master) (v : Bool) : State := s.regWrite m 0x5008 (b2n s.pm.auto + 2 * b2n v)
def State.pmStopWrite (s : State) (m : Master) (v : Bool) : State := s.regWrite m 0x5008 (b2n s.pm.auto + 4 * b2n v)
def State.pmAutoWrite (s : State) (m : Master) (v : Bool) : State := s.regWrite m 0x5008 (b2n v)

/-- DOORBELL (R292). -/
def State.doorbellRow (s : State) (m : Master) (q v : Nat) : State := s.regWrite m (0x600000 + 8 * q) v

/-! ### The management bus (R515, R520) -/

/-- Whether the management bus reaches a word: the module block and the port blocks; before READY the power-management page alone. -/
def State.busReaches (s : State) (ofs : Nat) : Bool :=
  if s.pm.st = .ready then decide (ofs < 0x100000 ∨ (0x500000 ≤ ofs ∧ ofs < 0x540000)) else decide (0x5000 ≤ ofs ∧ ofs < 0x6000)

/-- Whether an access of `n` words is one that REG_READ and REG_WRITE take. -/
def State.busFits (s : State) (addr n : Nat) : Bool :=
  decide (addr % 8 = 0) && decide (1 ≤ n ∧ n ≤ 16) && (List.range n).all fun i => s.busReaches (addr + 8 * i)

/-- REG_READ. -/
def State.pldmRead (s : State) (addr n : Nat) : State :=
  if s.pm.st = .off then s
  else if s.busFits addr n then
    s.pldmAns (.words ((List.range n).map fun i => BitVec.ofNat 64 (s.regRead (addr + 8 * i))))
  else s.pldmAns .invalidData

/-- Write words in ascending order; the flag says that one was refused. -/
def State.writeWords (s : State) (m : Master) : Nat → List Nat → State × Bool
  | _, [] => (s, false)
  | o, v :: vs =>
    let r := s.regWriteR m o v
    let t := State.writeWords r.1 m (o + 8) vs
    (t.1, r.2 || t.2)

/-- REG_WRITE. -/
def State.pldmWrite (s : State) (addr : Nat) (vs : List Nat) : State :=
  if s.pm.st = .off then s
  else if s.busFits addr vs.length then
    let r := s.writeWords .management addr vs
    r.1.pldmAns (if r.2 then .error else .success)
  else s.pldmAns .invalidData

/-- SET_CAP_EFFECTER (R514): PWR_CAP receives the write. -/
def State.setCap (s : State) (w : Nat) : State :=
  if s.pm.st = .off then s
  else
    let r := s.regWriteR .management 0x4000 (min w 8191)
    r.1.pldmAns (if r.2 then .error else .success)

end Sys2Proof.Machine
end

