-- ==== Sys2Proof/Machine/BootRows.lean ====
section
/-! DEFINITION. The meanings of the rows of the input power, the boot and the power management (R501 to R505). -/

namespace Sys2Proof.Machine

/-- INPUT_RISE (R501): The input rises above 44 V for 10 ms and the always-on island comes up to STANDBY. -/
def execInputRise (root : Bool) (s : State) : Host.Outcome State Fault Refusal :=
  s.answer (s.inputRise root)

/-- UNDERVOLT (R501): The input falls below 42 V for 100 µs and the main rails go off. -/
def execUndervolt (s : State) : Host.Outcome State Fault Refusal :=
  s.answer (s.inputFails .undervolt)

/-- OVERVOLT (R501): The input exceeds 58 V for 100 µs and the main rails go off. -/
def execOvervolt (s : State) : Host.Outcome State Fault Refusal :=
  s.answer (s.inputFails .overvolt)

/-- INPUT_LOSS (R501): The input falls below 30 V and the module goes OFF. -/
def execInputLoss (s : State) : Host.Outcome State Fault Refusal :=
  s.answer s.inputLoss

/-- INPUT_RESTORED (R501): After UNDERVOLT or OVERVOLT, the input stays between 46 V and 56 V for 100 ms and the
module may restart under R503. -/
def execInputRestored (s : State) : Host.Outcome State Fault Refusal :=
  s.answer s.inputRestored

/-- MOD_EN_SAMPLE (R503): Every 1 ms MOD_EN_N is sampled, leaving STANDBY to boot or triggering a stop. -/
def execModEnSample (high : Bool) (inW inV inA : Nat) (steps : List BootStep) (s : State) : Host.Outcome State Fault Refusal :=
  s.answer (s.modEnSample high (inW, inV, inA) steps)

/-- PM_START (R503): A write of 1 makes the module leave STANDBY at the next sample. -/
def execPmStart (m : Master) (v : Bool) (s : State) : Host.Outcome State Fault Refusal :=
  s.answer (s.pmStartWrite m v)

/-- PM_STOP (R504): A write of 1 stops the module at the next sample. -/
def execPmStop (m : Master) (v : Bool) (s : State) : Host.Outcome State Fault Refusal :=
  s.answer (s.pmStopWrite m v)

/-- PM_AUTO (R503): A write sets whether the module boots when MOD_EN_N is low. -/
def execPmAuto (m : Master) (v : Bool) (s : State) : Host.Outcome State Fault Refusal :=
  s.answer (s.pmAutoWrite m v)

/-- BOOT_STEP_OVERRUN (R505): A boot step overruns its bound and the module enters FAILED. -/
def execBootStepOverrun (steps : List BootStep) (s : State) : Host.Outcome State Fault Refusal :=
  s.answer (s.bootOverrun steps)

end Sys2Proof.Machine
end

