-- ==== Sys2Proof/Machine/ChannelRows.lean ====
section
/-! DEFINITION. The meanings of the rows of the channel controllers and their regulators (R183 to R212, R326 to R337). -/

namespace Sys2Proof.Machine

/-- CHANNEL_READ (R187): A channel controller serves a line read, checking code and tag and decrypting under key
permission. -/
def execChannelRead (q : MemReq) (s : State) : Host.Outcome State Fault Refusal :=
  s.answer (s.channelRead q)

/-- CHANNEL_WRITE (R187): A channel controller merges a line write into the buffered block and acknowledges it. -/
def execChannelWrite (q : MemReq) (data : BitVec 512) (s : State) : Host.Outcome State Fault Refusal :=
  s.answer (s.channelWrite q data)

/-- MEMORY_SIDE_OPERATION (R201): A channel controller applies an ADD, MIN, MAX, AND, OR or XOR to a line atomically.
-/
def execMemorySideOperation (q : MemReq) (mop : BitVec 8) (operand : BitVec 512) (s : State) : Host.Outcome State Fault Refusal :=
  s.answer (s.memorySideOperation q mop.toNat operand)

/-- CAS (R202): A channel controller applies a compare-and-swap to a line and returns the old line. -/
def execCas (q : MemReq) (operand : BitVec 1024) (s : State) : Host.Outcome State Fault Refusal :=
  s.answer (s.casRequest q operand)

/-- BLOCK_WRITEBACK (R187): An evicted buffered block is written back with its new tag, or without one if foreign. -/
def execBlockWriteback (ch : ChannelId) (block : BitVec 22) (s : State) : Host.Outcome State Fault Refusal :=
  s.answer (s.powered fun s => s.blockWriteback ch.val block.toNat)

/-- PATROL_SCRUB (R208): The controller scrubs the next block in its scrub period, correcting or poisoning. -/
def execPatrolScrub (ch : ChannelId) (s : State) : Host.Outcome State Fault Refusal :=
  s.answer (s.powered fun s => s.patrolScrub ch.val)

/-- PAGE_RELOCATION_DONE (R210): The copy of a retired allocated page completes and waiting requests go to the new
page. -/
def execPageRelocationDone (ch : ChannelId) (page : BitVec 19) (s : State) : Host.Outcome State Fault Refusal :=
  s.answer (s.relocationDone ch.val page.toNat)

/-- CHANNEL_INTERFACE_ERROR (R209): The HBM channel interface reports a training, command parity or link error, and
the channel is retrained, or is fenced off when the error repeats. -/
def execChannelInterfaceError (ch : ChannelId) (s : State) : Host.Outcome State Fault Refusal :=
  s.answer (s.powered fun s => s.interfaceError ch.val)

/-- REGULATOR_WINDOW (R326): At each 2 µs window the controller computes CAP_NOW and scale-back, refills accounts and
tests missed guarantees. -/
def execRegulatorWindow (ch : ChannelId) (mhz : Nat) (hot : Bool) (late waiting : List PartId)
    (s : State) : Host.Outcome State Fault Refusal :=
  s.answer (s.powered fun s => s.windowEnds ch.val mhz hot (late.map fun p => p.val) (waiting.map fun p => p.val))

/-- COMMIT (R337): A write of 1 checks the channel's regulator shadows for admissibility and commits them at the next
window. -/
def execCommit (m : Master) (ch : ChannelId) (v : Bool) (s : State) : Host.Outcome State Fault Refusal :=
  s.answer (s.commitWrite m ch.val v)

end Sys2Proof.Machine
end

