-- ==== Sys2Proof/Machine/ControlRows.lean ====
section
/-! DEFINITION. The meanings of the control-slot rows: each is one control-slot instruction issued with NOP in every engine
slot of its bundle (Table 02-4). -/

namespace Sys2Proof.Machine

/-- NOP (R56): A control-slot NOP does nothing except act on its token header. -/
def execNop (core : CoreId) (h : Hdr) (s : State) : Host.Outcome State Fault Refusal :=
  s.answer (s.issueControl core.val h (.nop))

/-- ADD (R56): XD receives XA plus XB modulo 2^64. -/
def execAdd (core : CoreId) (h : Hdr) (xd xa xb : Fin 32) (s : State) : Host.Outcome State Fault Refusal :=
  s.answer (s.issueControl core.val h (.add xd xa xb))

/-- SUB (R56): XD receives XA minus XB modulo 2^64. -/
def execSub (core : CoreId) (h : Hdr) (xd xa xb : Fin 32) (s : State) : Host.Outcome State Fault Refusal :=
  s.answer (s.issueControl core.val h (.sub xd xa xb))

/-- AND (R56): XD receives the bitwise AND of XA and XB. -/
def execAnd (core : CoreId) (h : Hdr) (xd xa xb : Fin 32) (s : State) : Host.Outcome State Fault Refusal :=
  s.answer (s.issueControl core.val h (.and xd xa xb))

/-- OR (R56): XD receives the bitwise OR of XA and XB. -/
def execOr (core : CoreId) (h : Hdr) (xd xa xb : Fin 32) (s : State) : Host.Outcome State Fault Refusal :=
  s.answer (s.issueControl core.val h (.or xd xa xb))

/-- XOR (R56): XD receives the bitwise XOR of XA and XB. -/
def execXor (core : CoreId) (h : Hdr) (xd xa xb : Fin 32) (s : State) : Host.Outcome State Fault Refusal :=
  s.answer (s.issueControl core.val h (.xor xd xa xb))

/-- SHL (R56): XD receives XA shifted left by XB[5:0]. -/
def execShl (core : CoreId) (h : Hdr) (xd xa xb : Fin 32) (s : State) : Host.Outcome State Fault Refusal :=
  s.answer (s.issueControl core.val h (.shl xd xa xb))

/-- SHR (R56): XD receives XA shifted right logically by XB[5:0]. -/
def execShr (core : CoreId) (h : Hdr) (xd xa xb : Fin 32) (s : State) : Host.Outcome State Fault Refusal :=
  s.answer (s.issueControl core.val h (.shr xd xa xb))

/-- SAR (R56): XD receives XA shifted right arithmetically by XB[5:0]. -/
def execSar (core : CoreId) (h : Hdr) (xd xa xb : Fin 32) (s : State) : Host.Outcome State Fault Refusal :=
  s.answer (s.issueControl core.val h (.sar xd xa xb))

/-- MUL (R56): XD receives the low 64 bits of XA times XB. -/
def execMul (core : CoreId) (h : Hdr) (xd xa xb : Fin 32) (s : State) : Host.Outcome State Fault Refusal :=
  s.answer (s.issueControl core.val h (.mul xd xa xb))

/-- MULH (R56): XD receives the signed high 64 bits of XA times XB. -/
def execMulh (core : CoreId) (h : Hdr) (xd xa xb : Fin 32) (s : State) : Host.Outcome State Fault Refusal :=
  s.answer (s.issueControl core.val h (.mulh xd xa xb))

/-- MIN (R56): XD receives the signed minimum of XA and XB. -/
def execMin (core : CoreId) (h : Hdr) (xd xa xb : Fin 32) (s : State) : Host.Outcome State Fault Refusal :=
  s.answer (s.issueControl core.val h (.min xd xa xb))

/-- MAX (R56): XD receives the signed maximum of XA and XB. -/
def execMax (core : CoreId) (h : Hdr) (xd xa xb : Fin 32) (s : State) : Host.Outcome State Fault Refusal :=
  s.answer (s.issueControl core.val h (.max xd xa xb))

/-- SLT (R56): XD receives 1 if XA is signed-less than XB, else 0. -/
def execSlt (core : CoreId) (h : Hdr) (xd xa xb : Fin 32) (s : State) : Host.Outcome State Fault Refusal :=
  s.answer (s.issueControl core.val h (.slt xd xa xb))

/-- SLTU (R56): XD receives 1 if XA is unsigned-less than XB, else 0. -/
def execSltu (core : CoreId) (h : Hdr) (xd xa xb : Fin 32) (s : State) : Host.Outcome State Fault Refusal :=
  s.answer (s.issueControl core.val h (.sltu xd xa xb))

/-- ADDI (R56): XD receives XA plus the sign-extended immediate. -/
def execAddi (core : CoreId) (h : Hdr) (xd xa : Fin 32) (imm : BitVec 36) (s : State) : Host.Outcome State Fault Refusal :=
  s.answer (s.issueControl core.val h (.addi xd xa imm))

/-- ANDI (R56): XD receives XA AND the immediate. -/
def execAndi (core : CoreId) (h : Hdr) (xd xa : Fin 32) (imm : BitVec 36) (s : State) : Host.Outcome State Fault Refusal :=
  s.answer (s.issueControl core.val h (.andi xd xa imm))

/-- ORI (R56): XD receives XA OR the immediate. -/
def execOri (core : CoreId) (h : Hdr) (xd xa : Fin 32) (imm : BitVec 36) (s : State) : Host.Outcome State Fault Refusal :=
  s.answer (s.issueControl core.val h (.ori xd xa imm))

/-- XORI (R56): XD receives XA XOR the immediate. -/
def execXori (core : CoreId) (h : Hdr) (xd xa : Fin 32) (imm : BitVec 36) (s : State) : Host.Outcome State Fault Refusal :=
  s.answer (s.issueControl core.val h (.xori xd xa imm))

/-- SHLI (R56): XD receives XA shifted left by IMM[5:0]. -/
def execShli (core : CoreId) (h : Hdr) (xd xa : Fin 32) (imm : BitVec 36) (s : State) : Host.Outcome State Fault Refusal :=
  s.answer (s.issueControl core.val h (.shli xd xa imm))

/-- SHRI (R56): XD receives XA shifted right logically by IMM[5:0]. -/
def execShri (core : CoreId) (h : Hdr) (xd xa : Fin 32) (imm : BitVec 36) (s : State) : Host.Outcome State Fault Refusal :=
  s.answer (s.issueControl core.val h (.shri xd xa imm))

/-- LDHI (R56): XD receives XA[31:0] shifted left by 32 ORed with IMM[31:0]. -/
def execLdhi (core : CoreId) (h : Hdr) (xd xa : Fin 32) (imm : BitVec 36) (s : State) : Host.Outcome State Fault Refusal :=
  s.answer (s.issueControl core.val h (.ldhi xd xa imm))

/-- LD (R57): XD is loaded with 8 bytes of local memory at XA plus IMM, with alignment and range checks. -/
def execLd (core : CoreId) (h : Hdr) (xd xa : Fin 32) (imm : BitVec 36) (s : State) : Host.Outcome State Fault Refusal :=
  s.answer (s.issueControl core.val h (.ld xd xa imm))

/-- ST (R57): XD is stored as 8 bytes to local memory at XA plus IMM, with alignment and range checks. -/
def execSt (core : CoreId) (h : Hdr) (xd xa : Fin 32) (imm : BitVec 36) (s : State) : Host.Outcome State Fault Refusal :=
  s.answer (s.issueControl core.val h (.st xd xa imm))

/-- TDLD (R57): A tile descriptor is loaded from 32 bytes of local memory. -/
def execTdld (core : CoreId) (h : Hdr) (xd xa : Fin 32) (imm : BitVec 36) (s : State) : Host.Outcome State Fault Refusal :=
  s.answer (s.issueControl core.val h (.tdld xd xa imm))

/-- TDST (R57): A tile descriptor is stored to 32 bytes of local memory. -/
def execTdst (core : CoreId) (h : Hdr) (xd xa : Fin 32) (imm : BitVec 36) (s : State) : Host.Outcome State Fault Refusal :=
  s.answer (s.issueControl core.val h (.tdst xd xa imm))

/-- J (R45): The program counter jumps to TARGET, ending any loop it leaves. -/
def execJ (core : CoreId) (h : Hdr) (target : BitVec 13) (s : State) : Host.Outcome State Fault Refusal :=
  s.answer (s.issueControl core.val h (.j target))

/-- BEQ (R45): Branches to TARGET if XA equals XB. -/
def execBeq (core : CoreId) (h : Hdr) (xa xb : Fin 32) (target : BitVec 13) (s : State) : Host.Outcome State Fault Refusal :=
  s.answer (s.issueControl core.val h (.beq xa xb target))

/-- BNE (R45): Branches to TARGET if XA differs from XB. -/
def execBne (core : CoreId) (h : Hdr) (xa xb : Fin 32) (target : BitVec 13) (s : State) : Host.Outcome State Fault Refusal :=
  s.answer (s.issueControl core.val h (.bne xa xb target))

/-- BLT (R45): Branches to TARGET if XA is signed-less than XB. -/
def execBlt (core : CoreId) (h : Hdr) (xa xb : Fin 32) (target : BitVec 13) (s : State) : Host.Outcome State Fault Refusal :=
  s.answer (s.issueControl core.val h (.blt xa xb target))

/-- BGE (R45): Branches to TARGET if XA is signed-greater-or-equal to XB. -/
def execBge (core : CoreId) (h : Hdr) (xa xb : Fin 32) (target : BitVec 13) (s : State) : Host.Outcome State Fault Refusal :=
  s.answer (s.issueControl core.val h (.bge xa xb target))

/-- BLTU (R45): Branches to TARGET if XA is unsigned-less than XB. -/
def execBltu (core : CoreId) (h : Hdr) (xa xb : Fin 32) (target : BitVec 13) (s : State) : Host.Outcome State Fault Refusal :=
  s.answer (s.issueControl core.val h (.bltu xa xb target))

/-- CALL (R58): Pushes PC+1 on the return stack and jumps to TARGET, faulting STACK on overflow. -/
def execCall (core : CoreId) (h : Hdr) (target : BitVec 13) (s : State) : Host.Outcome State Fault Refusal :=
  s.answer (s.issueControl core.val h (.call target))

/-- RET (R58): Pops the return stack into the PC and ends loops entered since the CALL, faulting STACK on underflow.
-/
def execRet (core : CoreId) (h : Hdr) (s : State) : Host.Outcome State Fault Refusal :=
  s.answer (s.issueControl core.val h (.ret))

/-- JR (R47): Jumps to XA[12:0], faulting IMEM_RANGE if XA[63:13] is not zero. -/
def execJr (core : CoreId) (h : Hdr) (xa : Fin 32) (s : State) : Host.Outcome State Fault Refusal :=
  s.answer (s.issueControl core.val h (.jr xa))

/-- LOOP (R58): Starts a hardware loop repeating bundles PC+1 to TARGET XA times, with depth and target checks. -/
def execLoop (core : CoreId) (h : Hdr) (xa : Fin 32) (target : BitVec 13) (s : State) : Host.Outcome State Fault Refusal :=
  s.answer (s.issueControl core.val h (.loop xa target))

/-- HALT (R60): Stops issue and waits for every queue to empty and every completion point to be reached. -/
def execHalt (core : CoreId) (h : Hdr) (s : State) : Host.Outcome State Fault Refusal :=
  s.answer (s.issueControl core.val h (.halt))

/-- CSRR (R59): Reads a core state register into XD. -/
def execCsrr (core : CoreId) (h : Hdr) (xd xa : Fin 32) (imm : BitVec 36) (s : State) : Host.Outcome State Fault Refusal :=
  s.answer (s.issueControl core.val h (.csrr xd xa imm))

/-- CSRW (R59): Writes XA to a core state register, effective for the next bundle. -/
def execCsrw (core : CoreId) (h : Hdr) (xd xa : Fin 32) (imm : BitVec 36) (s : State) : Host.Outcome State Fault Refusal :=
  s.answer (s.issueControl core.val h (.csrw xd xa imm))

/-- CSRS (R59): Sets bits of a core state register from XA. -/
def execCsrs (core : CoreId) (h : Hdr) (xd xa : Fin 32) (imm : BitVec 36) (s : State) : Host.Outcome State Fault Refusal :=
  s.answer (s.issueControl core.val h (.csrs xd xa imm))

/-- CSRC (R59): Clears bits of a core state register from XA. -/
def execCsrc (core : CoreId) (h : Hdr) (xd xa : Fin 32) (imm : BitVec 36) (s : State) : Host.Outcome State Fault Refusal :=
  s.answer (s.issueControl core.val h (.csrc xd xa imm))

/-- ALLOC (R79): Requests a region from a context heap; the control unit blocks until the cluster control processor
answers with an address or a status. -/
def execAlloc (core : CoreId) (h : Hdr) (xd xa : Fin 32) (imm : BitVec 36) (s : State) : Host.Outcome State Fault Refusal :=
  s.answer (s.issueControl core.val h (.alloc xd xa imm))

/-- FREE (R80): Releases an allocation of the core's own context, returning OK or NO_SUCH. -/
def execFree (core : CoreId) (h : Hdr) (xd xa xb : Fin 32) (s : State) : Host.Outcome State Fault Refusal :=
  s.answer (s.issueControl core.val h (.free xd xa xb))

/-- FSIG (R62): Signals a local fence with XB and blocks until the home hub returns a status. -/
def execFsig (core : CoreId) (h : Hdr) (xd xa xb : Fin 32) (s : State) : Host.Outcome State Fault Refusal :=
  s.answer (s.issueControl core.val h (.fsig xd xa xb))

/-- FADD (R62): Adds XB to a local fence and blocks until the home hub returns a status. -/
def execFadd (core : CoreId) (h : Hdr) (xd xa xb : Fin 32) (s : State) : Host.Outcome State Fault Refusal :=
  s.answer (s.issueControl core.val h (.fadd xd xa xb))

/-- FWAIT (R63): Waits until a local fence reaches XB or the timeout elapses, returning a status. -/
def execFwait (core : CoreId) (h : Hdr) (xd xa xb : Fin 32) (imm : BitVec 31) (s : State) : Host.Outcome State Fault Refusal :=
  s.answer (s.issueControl core.val h (.fwait xd xa xb imm))

/-- FREAD (R231): Reads a fence's value without waiting. -/
def execFread (core : CoreId) (h : Hdr) (xd xa xb : Fin 32) (s : State) : Host.Outcome State Fault Refusal :=
  s.answer (s.issueControl core.val h (.fread xd xa xb))

/-- FTOK (R64): Arms a fence to post a token when its value reaches a target. -/
def execFtok (core : CoreId) (h : Hdr) (xd xa xb : Fin 32) (s : State) : Host.Outcome State Fault Refusal :=
  s.answer (s.issueControl core.val h (.ftok xd xa xb))

/-- RFSIG (R62): Signals a remote fence, returning OK once the signal has entered the control network. -/
def execRfsig (core : CoreId) (h : Hdr) (xd xa xb : Fin 32) (s : State) : Host.Outcome State Fault Refusal :=
  s.answer (s.issueControl core.val h (.rfsig xd xa xb))

/-- RFADD (R62): Adds to a remote fence, returning OK once the message has entered the control network. -/
def execRfadd (core : CoreId) (h : Hdr) (xd xa xb : Fin 32) (s : State) : Host.Outcome State Fault Refusal :=
  s.answer (s.issueControl core.val h (.rfadd xd xa xb))

/-- RFWAIT (R239): Registers a wait on a remote fence and blocks until WAIT_DONE or timeout. -/
def execRfwait (core : CoreId) (h : Hdr) (xd xa xb : Fin 32) (imm : BitVec 31) (s : State) : Host.Outcome State Fault Refusal :=
  s.answer (s.issueControl core.val h (.rfwait xd xa xb imm))

/-- RFREAD (R62): Reads a remote fence and blocks until the answer arrives. -/
def execRfread (core : CoreId) (h : Hdr) (xd xa xb : Fin 32) (s : State) : Host.Outcome State Fault Refusal :=
  s.answer (s.issueControl core.val h (.rfread xd xa xb))

/-- BARA (R242): Counts an arrival at a barrier instance of the core's hub and records the arrival phase. -/
def execBara (core : CoreId) (h : Hdr) (xd xa xb : Fin 32) (s : State) : Host.Outcome State Fault Refusal :=
  s.answer (s.issueControl core.val h (.bara xd xa xb))

/-- BARW (R243): Waits for completion of the core's arrival phase of a barrier instance, with timeout. -/
def execBarw (core : CoreId) (h : Hdr) (xd xa xb : Fin 32) (imm : BitVec 31) (s : State) : Host.Outcome State Fault Refusal :=
  s.answer (s.issueControl core.val h (.barw xd xa xb imm))

/-- BART (R64): Arms a barrier instance to post a token when the phase completes. -/
def execBart (core : CoreId) (h : Hdr) (xd xa xb : Fin 32) (s : State) : Host.Outcome State Fault Refusal :=
  s.answer (s.issueControl core.val h (.bart xd xa xb))

end Sys2Proof.Machine
end

