-- ==== Sys2Proof/Machine/CoreRows.lean ====
section
/-! DEFINITION. The meanings of the rows of cores and stream engines beside their instructions (R55 to R84, R148 to R180, R377). -/

namespace Sys2Proof.Machine

/-- BUNDLE_ISSUE (R42): The control unit issues the next bundle once its token wait is met and every non-NOP engine
queue has room; its engine slots enter their queues and its control slot executes. -/
def execBundleIssue (core : CoreId) (s : State) : Host.Outcome State Fault Refusal :=
  s.answer (s.bundleIssue core.val)

/-- PROGRAM_END (R60): After HALT, once all work has completed, the core reports program end, disarms unfired arms and
completes its share of the RUN. -/
def execProgramEnd (who : ProgramEnd) (s : State) : Host.Outcome State Fault Refusal :=
  s.answer (s.programEnd who)

/-- ALLOCATOR_ANSWER (R81): The cluster control processor completes a pending ALLOC or FREE and unblocks the calling
core. -/
def execAllocatorAnswer (cluster : ClusterId) (s : State) : Host.Outcome State Fault Refusal :=
  s.answer (if s.quiesced (.clusterCp cluster) then s else s.allocatorAnswer cluster.val)

/-- SYNC_ANSWER (R62): The hub's answer to a blocking fence or barrier operation reaches the core and writes the
status into XD. -/
def execSyncAnswer (core : CoreId) (s : State) : Host.Outcome State Fault Refusal :=
  s.answer (s.syncAnswer core.val)

/-- FENCE_WAIT_TIMEOUT (R63): The local-time timeout of a fence or barrier wait elapses and the wait returns TIMEOUT.
-/
def execFenceWaitTimeout (core : CoreId) (s : State) : Host.Outcome State Fault Refusal :=
  s.answer (s.waitTimeout core.val)

/-- INSTRUCTION_COMPLETION_POINT (R55): An instruction reaches its completion point and posts its token, faulting
TOKEN_OVERFLOW above 63. -/
def execInstructionCompletionPoint (core : CoreId) (g : Executing) (s : State) : Host.Outcome State Fault Refusal :=
  s.answer (s.completionPoint core.val g.engine.1 g.engine.2)

/-- POISONED_GRANULE_READ (R377): An engine about to read a poison-marked granule holds its issuer until recovery
rewrites it. -/
def execPoisonedGranuleRead (core : CoreId) (g : EngineKind) (s : State) : Host.Outcome State Fault Refusal :=
  s.answer (s.granuleHold core.val g)

/-- CORE_STOP (R82): A stop request brings the core to a stopped state at sub-step boundaries and reports stopped. -/
def execCoreStop (core : CoreId) (s : State) : Host.Outcome State Fault Refusal :=
  s.answer (s.stopCore core.val)

/-- CORE_RESUME (R83): A stopped core resumes from its saved state, re-arming fences and continuing sub-steps. -/
def execCoreResume (core : CoreId) (s : State) : Host.Outcome State Fault Refusal :=
  s.answer (s.resumeCore core.val)

/-- STREAM_START (R155): A stream engine takes a descriptor from its input queue into an active slot and checks it. -/
def execStreamStart (cluster : ClusterId) (se : Fin 4) (s : State) : Host.Outcome State Fault Refusal :=
  s.answer (if s.quiesced (.stream cluster se) then s else s.streamStart (4 * cluster.val + se.val))

/-- STREAM_REQUEST_ISSUE (R157): An engine issues the next 64-byte request of an active stream in tile order,
rechecking ranges and translations. -/
def execStreamRequestIssue (cluster : ClusterId) (se : Fin 4) (slot : Fin 8) (s : State) : Host.Outcome State Fault Refusal :=
  s.answer (if s.quiesced (.stream cluster se) then s else s.streamIssue (4 * cluster.val + se.val) slot.val)

/-- STREAM_REQUEST_COMPLETE (R157): A stream request's read data or write acknowledgement returns to the engine. -/
def execStreamRequestComplete (cluster : ClusterId) (se : Fin 4) (req : Nat) (s : State) : Host.Outcome State Fault Refusal :=
  s.answer (s.streamComplete (4 * cluster.val + se.val) req)

/-- CREDIT_GRANT (R160): The credit fence reaches the value that lets the engine write the next ring tile. -/
def execCreditGrant (cluster : ClusterId) (se : Fin 4) (slot : Fin 8) (s : State) : Host.Outcome State Fault Refusal :=
  s.answer (s.creditGrant (4 * cluster.val + se.val) slot.val)

/-- STREAM_RESUME (R166): A suspended stream re-issues its cursor tile from the start after its page is resolved or
its context resumes. -/
def execStreamResume (cluster : ClusterId) (se : Fin 4) (stream : Nat) (s : State) : Host.Outcome State Fault Refusal :=
  s.answer (if s.quiesced (.stream cluster se) then s else s.resumeStream (4 * cluster.val + se.val) stream)

/-- PAGE_REQUEST_TIMEOUT (R172): A page request unanswered within the connection's timeout makes its waiters
unresolvable and loses their contexts. -/
def execPageRequestTimeout (entry : Fin 1024) (s : State) : Host.Outcome State Fault Refusal :=
  s.answer (s.pageTimeout entry.val)

/-- RDMA_OPERATION_FAILED (R553): A stream's RDMA operation is NAKed or lost and the stream stops with HOST_FAILED,
losing its context. -/
def execRdmaOperationFailed (op : Nat) (s : State) : Host.Outcome State Fault Refusal :=
  s.answer (s.rdmaFailed op)

/-- INVALIDATION_ENGINE_REPORT (R176): A stream engine has no outstanding HOSTV request older than the invalidation
generation and reports it. -/
def execInvalidationEngineReport (cluster : ClusterId) (se : Fin 4) (s : State) : Host.Outcome State Fault Refusal :=
  s.answer (s.engineReport (4 * cluster.val + se.val))

/-- TRANSLATE_ANS (R496): A translation answer fills the die cache or counts as NOT_PRESENT for the waiting lookup. -/
def execTranslateAns (conn : ConnId) (m : TransMsg) (s : State) : Host.Outcome State Fault Refusal :=
  s.answer (s.translateAns conn.val m)

/-- TRANSLATE_TIMEOUT (R496): A TRANSLATE unanswered for 10 ms counts as NOT_PRESENT. -/
def execTranslateTimeout (conn : ConnId) (reqId : BitVec 32) (s : State) : Host.Outcome State Fault Refusal :=
  s.answer (s.translateTimeout conn.val reqId.toNat)

/-- PAGE_ANS (R170): A page response fills caches and resumes or loses its waiters. -/
def execPageAns (conn : ConnId) (m : TransMsg) (s : State) : Host.Outcome State Fault Refusal :=
  s.answer (s.pageAns conn.val m)

/-- INVALIDATE (R176): An invalidation assigns a generation and removes matching cache entries. -/
def execInvalidate (conn : ConnId) (m : TransMsg) (s : State) : Host.Outcome State Fault Refusal :=
  s.answer (s.invalidate conn.val m)

end Sys2Proof.Machine
end

