-- ==== Sys2Proof/Machine/HostMem.lean ====
section
/-! DEFINITION. RDMA operations of a host at the module: the register window, partition memory and the admin ring (R487, R490,
R491). -/

namespace Sys2Proof.Machine

/-- The space that an R_Key and a RETH address reach, `none` where R490 answers Remote Access Error. -/
def State.rdmaSpace (s : State) (n rkey va len : Nat) : Option Nat :=
  let space := rkey / 2 ^ 30
  let a := va % 2 ^ 48
  if rkey % 2 ^ 30 ≠ (s.conn n).keytag then none
  else if space = 0 then (if a + len ≤ 2 ^ 26 then some 0 else none)
  else if space = 1 then
    let p := bits a 45 40
    let l := (s.part p).lay
    let base := bits a 39 0
    if a < 2 ^ 46 ∧ p < 48 ∧ (s.part p).inUse ∧ (l.place base).isSome ∧ (l.place (base + (len - 1))).isSome then some 1 else none
  else if space = 2 then (if a + len ≤ 64 * 2 ^ s.adminLog then some 2 else none)
  else none

/-- Where an operation stands by its PSEQ (R487). -/
inductive PseqPlace where
  | next | duplicate | wrong
deriving DecidableEq, Repr

/-- The place of a PSEQ; the first operation of a connection has no predecessor. -/
def Conn.placeOf (c : Conn) (pseq : Nat) : PseqPlace :=
  match c.lastPseq with
  | none => .next
  | some last =>
    if (last + 2 ^ 16 - pseq) % 2 ^ 16 ≤ 1023 then .duplicate
    else if pseq = (last + 1) % 2 ^ 16 then .next
    else .wrong

/-- Whether an access of SPACE 0 has a form that R491 takes. -/
def windowForm (a len : Nat) : Bool := decide (a % 8 = 0) && decide (len % 8 = 0) && decide (len ≤ 4096)

/-- The lines that hold `len` bytes from `a`, by number. -/
def lineNumbers (a len : Nat) : List Nat := if len = 0 then [] else rangeFrom (a / 64) ((a + len - 1) / 64 + 1 - a / 64)

/-- A line with the bytes that lie in it of `data`, which begins at `a`. -/
def mergeLine (line a : Nat) (data : List Byte) (old : BitVec 512) : BitVec 512 :=
  lineOfBytes ((bytesOfLine old).zipIdx.map fun e =>
    let x := line * 64 + e.2
    if a ≤ x ∧ x < a + data.length then data.getD (x - a) 0 else e.1)

/-- What a host's access to partition memory has come to: refused somewhere, or held. -/
structure HostAcc where
  refused : Bool
  held : Bool
  tags : List Nat
  s : State
  evs : List Ev

/-- Write bytes into lines of partition `p`; a line that is not covered whole is read first. -/
def State.hostStore (s : State) (q : Nat → MemReq) (a : Nat) (data : List Byte) : List Nat → HostAcc
  | [] => ⟨false, false, [], s, []⟩
  | l :: ls =>
    let whole := decide (a ≤ l * 64 ∧ l * 64 + 64 ≤ a + data.length)
    let old := if whole then ({ status := .ok }, s, []) else s.askRead (q l) .none
    let w := old.2.1.askWrite (q l) (mergeLine l a data old.1.data) .none
    let r := State.hostStore w.2.1 q a data ls
    ⟨r.refused || w.1.status != .ok, r.held || old.1.status == .hold || w.1.status == .hold, w.1.tag.toList ++ r.tags, r.s, old.2.2 ++ w.2.2 ++ r.evs⟩

/-- The request of a host's operation for a line of a partition: as the connection, with its CLASS, and with the map epoch of the
operation's arrival, which one that memory has held keeps (R255, R491). -/
def State.hostReq (s : State) (n plane pseq p l : Nat) : MemReq :=
  let r := { s.reqAt (.conn n) p (64 * l) (2 * plane) with cls := BitVec.ofNat 3 (s.conn n).cls }
  match s.waiting.find? fun w => w.unit == .host n pseq with
  | some w => { r with epoch := w.req.epoch }
  | none => r

/-- Memory holds a host's operation at line `l`: it keeps its place and its epoch (R256, R264). -/
def State.holdHost (s : State) (n plane pseq p l : Nat) : State :=
  if s.waiting.any fun w => w.unit == .host n pseq then s
  else s.wait ⟨s.hostReq n plane pseq p l, none, .host n pseq, s.ltime, none, none⟩

/-- A host's operation is no longer held. -/
def State.freeHost (s : State) (n pseq : Nat) : State := s.dropAsked fun u => u == .host n pseq

/-- Words of bytes, eight at a time. -/
def wordsOfBytes (d : List Byte) : List Nat := (List.range (d.length / 8)).map fun i => leNat ((d.drop (8 * i)).take 8)

/-- Whether a connection's operations are taken: the module is READY, the connection is up, and the plane has not failed (R488,
R510). -/
def State.rdmaOpen (s : State) (n plane : Nat) : Bool :=
  s.pm.st == .ready && (s.conn n).st == .up && !(s.conn n).failed plane

/-- The operation of a PSEQ has been executed. -/
def State.executed (s : State) (n pseq : Nat) : State := s.modConn n fun c => { c with lastPseq := some pseq, held := none }

/-- Whether an operation comes after the next one, which waits: it waits behind it (R487). -/
def Conn.behind (c : Conn) (pseq : Nat) : Bool :=
  c.held.any fun w => decide (1 ≤ (pseq + 2 ^ 16 - w) % 2 ^ 16 ∧ (pseq + 2 ^ 16 - w) % 2 ^ 16 ≤ 1023)

/-- The next operation of a connection waits. -/
def State.holdNext (s : State) (n pseq : Nat) : State := s.modConn n fun c => { c with held := some pseq }

/-- Whether a write of the register window rings a doorbell while memory has not acknowledged an earlier write of its connection
(R492). -/
def State.bellWaits (s : State) (n a len : Nat) : Bool :=
  decide (a < 0x610000 ∧ 0x600000 < a + len) && s.lateAcks.any fun k => k.conn.any fun h => h.1 == n

/-- A duplicate is counted in the port block. -/
def State.countDup (s : State) (n plane : Nat) : State :=
  s.modPort ((s.conn n).portOn plane) fun k => { k with dupOps := min (k.dupOps + 1) (2 ^ 32 - 1) }

/-- A new write is applied in its space, acknowledged, and counted where memory refused it. A line that is held keeps the whole
operation waiting. -/
def State.applyRdma (s : State) (n plane space va : Nat) (data : List Byte) : State :=
  let pseq := va / 2 ^ 48
  let a := va % 2 ^ 48
  let done (s : State) : State := (s.executed n pseq).emit (.rdmaAck n plane pseq)
  if space = 0 then
    if s.bellWaits n a data.length then s.holdNext n pseq
    else if windowForm a data.length then done (s.writeWords (.host n) a (wordsOfBytes data)).1
    else s.emit (.rdmaNak n plane pseq false)
  else if space = 1 then
    let base := bits a 39 0
    let p := bits a 45 40
    let r := s.hostStore (s.hostReq n plane pseq p) base data (lineNumbers base data.length)
    if r.held then (s.holdHost n plane pseq p (base / 64)).holdNext n pseq
    else
      let t := (r.s.freeHost n pseq).settle r.evs
      let t := if r.refused then t.modPort ((s.conn n).portOn plane) fun k => { k with memRefused := min (k.memRefused + 1) (2 ^ 32 - 1) } else t
      if r.tags.isEmpty then done t
      else { t.executed n pseq with lateAcks := t.lateAcks ++ [⟨r.tags, some (n, plane, pseq), none, none⟩] }
  else done { s with recordArea := s.recordArea.writeBytes (s.adminBase + a) data }

/-- RDMA_WRITE (R490, R491): `rkey` and `va` as the RETH carries them. -/
def State.rdmaWriteIn (s : State) (n plane rkey va : Nat) (data : List Byte) : State :=
  let pseq := va / 2 ^ 48
  if !s.rdmaOpen n plane then s
  else
    match s.rdmaSpace n rkey va data.length with
    | none => s.emit (.rdmaNak n plane pseq true)
    | some space =>
      match (s.conn n).placeOf pseq with
      | .wrong => if (s.conn n).behind pseq then s else s.emit (.rdmaNak n plane pseq false)
      | .duplicate => (s.countDup n plane).emit (.rdmaAck n plane pseq)
      | .next => s.applyRdma n plane space va data

/-- What a read of a host returns: the data, whether it is held, and the state. -/
def State.rdmaData (s : State) (n plane space va len : Nat) : List Byte × Bool × State :=
  let a := va % 2 ^ 48
  if space = 0 then
    (((List.range (len / 8)).flatMap fun i => leBytes (s.regRead (a + 8 * i)) 8), false, s)
  else if space = 1 then
    let base := bits a 39 0
    let p := bits a 45 40
    let q := s.hostReq n plane (va / 2 ^ 48) p
    let r := s.askReads q (lineNumbers base len)
    let bs := r.1.flatMap fun o => bytesOfLine o.data
    if r.1.any fun o => o.status == .hold then ([], true, s.holdHost n plane (va / 2 ^ 48) p (base / 64))
    else ((bs.drop (base % 64)).take len, false, (r.2.1.freeHost n (va / 2 ^ 48)).settle r.2.2)
  else (s.recordArea.readBytes (s.adminBase + a) len, false, s)

/-- RDMA_READ (R487, R490, R491). -/
def State.rdmaReadIn (s : State) (n plane rkey va len : Nat) : State :=
  let pseq := va / 2 ^ 48
  if !s.rdmaOpen n plane then s
  else
    match s.rdmaSpace n rkey va len with
    | none => s.emit (.rdmaNak n plane pseq true)
    | some space =>
      match (s.conn n).placeOf pseq with
      | .wrong => if (s.conn n).behind pseq then s else s.emit (.rdmaNak n plane pseq false)
      | place =>
        if space = 0 ∧ !windowForm (va % 2 ^ 48) len then s.emit (.rdmaNak n plane pseq false)
        else
          let r := s.rdmaData n plane space va len
          if r.2.1 then (if place = .next then r.2.2.holdNext n pseq else r.2.2)
          else
            let t := r.2.2
            let t := if place = .duplicate then t.countDup n plane else t.executed n pseq
            t.emit (.rdmaResponse n plane pseq r.1)

end Sys2Proof.Machine
end

