-- ==== Sys2Proof/Machine/EthRows.lean ====
section
/-! DEFINITION. The meanings of the rows of the Ethernet ports and the host connections (R476 to R494). -/

namespace Sys2Proof.Machine

/-- PORT_DOWN (R478): A port loses link or its rails fault and fails the plane of its connections. -/
def execPortDown (port : PortId) (s : State) : Host.Outcome State Fault Refusal :=
  s.answer (s.portDown port.val)

/-- AUTO_NEGOTIATION (R476): A port negotiates its mode, falling back to lane 0 if lane 1 fails. -/
def execAutoNegotiation (port : PortId) (partner : BitVec 6) (lane1 : Bool) (s : State) : Host.Outcome State Fault Refusal :=
  s.answer (s.autoNegotiate port.val partner lane1)

/-- RDMA_WRITE (R491): A host RDMA WRITE to the register window, partition memory or admin ring is applied in PSEQ
order. -/
def execRdmaWrite (conn : ConnId) (plane : Fin 2) (rkey : BitVec 32) (va : BitVec 64) (data : List (BitVec 8))
    (s : State) : Host.Outcome State Fault Refusal :=
  s.answer (if s.planeQuiesced conn.val plane.val then s else s.rdmaWriteIn conn.val plane.val rkey.toNat va.toNat data)

/-- RDMA_READ (R491): A host RDMA READ is answered in PSEQ order. -/
def execRdmaRead (conn : ConnId) (plane : Fin 2) (rkey : BitVec 32) (va : BitVec 64) (len : BitVec 32)
    (s : State) : Host.Outcome State Fault Refusal :=
  s.answer (if s.planeQuiesced conn.val plane.val then s else s.rdmaReadIn conn.val plane.val rkey.toNat va.toNat len.toNat)

/-- ROCE_ACKNOWLEDGE (R480): A RoCEv2 Acknowledge or NAK arrives for a module operation. -/
def execRoceAcknowledge (op : Nat) (ok : Bool) (s : State) : Host.Outcome State Fault Refusal :=
  s.answer (s.roceAck op ok)

/-- ROCE_ACK_TIMEOUT (R480): A module RC operation is unacknowledged for 32 µs and is retried. -/
def execRoceAckTimeout (op : Nat) (s : State) : Host.Outcome State Fault Refusal :=
  s.answer (s.roceTimeout op)

/-- CNP (R481): A CNP decreases the QP's send rate. -/
def execCnp (conn : ConnId) (qp : BitVec 24) (s : State) : Host.Outcome State Fault Refusal :=
  s.answer (s.cnpIn conn.val qp.toNat)

/-- RATE_INCREASE (R481): After 50 µs without a decrease, a QP's rate rises. -/
def execRateIncrease (conn : ConnId) (qp : BitVec 24) (s : State) : Host.Outcome State Fault Refusal :=
  s.answer (s.rateIncrease conn.val qp.toNat)

/-- CE_MARKED_PACKET (R481): A packet marked CE makes the module send a CNP to its source QP. -/
def execCeMarkedPacket (conn : ConnId) (qp : BitVec 24) (s : State) : Host.Outcome State Fault Refusal :=
  s.answer (s.ceMarked conn.val qp.toNat)

/-- CONN_REQ (R483): Opens or reattaches a paired host connection and answers CONN_ACK. -/
def execConnReq (port : PortId) (m : SvcMsg) (s : State) : Host.Outcome State Fault Refusal :=
  s.answer (s.connReq port.val m)

/-- CRING_SET (R485): Defines or removes a completion ring and answers CRING_ACK. -/
def execCringSet (conn : ConnId) (m : SvcMsg) (s : State) : Host.Outcome State Fault Refusal :=
  s.answer (s.cringSet conn.val m)

/-- CLOSE (R484): Closes a connection and answers CLOSE_ACK. -/
def execCloseConn (conn : ConnId) (m : SvcMsg) (s : State) : Host.Outcome State Fault Refusal :=
  s.answer (s.closeReq conn.val m)

/-- CONNECTION_BREAK_EXPIRY (R484): A broken connection not reattached within 60 s is closed. -/
def execConnectionBreakExpiry (conn : ConnId) (s : State) : Host.Outcome State Fault Refusal :=
  s.answer (s.breakExpiry conn.val)

/-- PLANE_FAILURE (R486): A plane's port goes down or its probe or acknowledgements stall, and it is declared failed.
-/
def execPlaneFailure (conn : ConnId) (plane : Fin 2) (s : State) : Host.Outcome State Fault Refusal :=
  s.answer (s.planeFailure conn.val plane.val)

/-- PAIR_SWITCH (R488): A PAIR_SWITCH moves the failed plane's QPs to error and is answered with LAST_PSEQ. -/
def execPairSwitch (conn : ConnId) (plane : Fin 2) (m : SvcMsg) (s : State) : Host.Outcome State Fault Refusal :=
  s.answer (s.pairSwitch conn.val plane.val m)

/-- PAIR_SWITCH_ACK (R488): The standby plane becomes active and unacknowledged operations are resent. -/
def execPairSwitchAck (conn : ConnId) (s : State) : Host.Outcome State Fault Refusal :=
  s.answer (s.pairSwitchAck conn.val)

/-- PAIR_SWITCH_RETRY (R488): An unanswered PAIR_SWITCH is resent at 300 µs, and the connection breaks after three
tries. -/
def execPairSwitchRetry (conn : ConnId) (s : State) : Host.Outcome State Fault Refusal :=
  s.answer (s.pairSwitchRetry conn.val)

/-- PAIR_PROBE (R486): A plane probe is answered with PROBE_ANS. -/
def execPairProbe (conn : ConnId) (plane : Fin 2) (m : SvcMsg) (s : State) : Host.Outcome State Fault Refusal :=
  s.answer (s.pairProbe conn.val plane.val m)

/-- PAIR_PROBE_ANS (R486): A probe answer restores a failed plane to standby. -/
def execPairProbeAns (conn : ConnId) (plane : Fin 2) (s : State) : Host.Outcome State Fault Refusal :=
  s.answer (s.probeAnswered conn.val plane.val)

/-- PAIR_PROBE_SEND (R486): A plane idle for 100 µs, or failed for 10 ms, is probed. -/
def execPairProbeSend (conn : ConnId) (plane : Fin 2) (s : State) : Host.Outcome State Fault Refusal :=
  s.answer (s.probeSend conn.val plane.val)

/-- HEAD (R494): A CR_HEAD write returns completion ring space to the module. -/
def execHead (m : Master) (ring : Fin 4096) (head : BitVec 17) (s : State) : Host.Outcome State Fault Refusal :=
  s.answer (s.headRow m ring.val head.toNat)

/-- NOTIFY (R494): A CR_HEAD write arms one notification after the next group. -/
def execNotify (m : Master) (ring : Fin 4096) (head : BitVec 17) (s : State) : Host.Outcome State Fault Refusal :=
  s.answer (s.notifyRow m ring.val head.toNat)

/-- ARP (R477): A port receives an ARP request for its IPv4 address and answers it. -/
def execArp (port : PortId) (addr : BitVec 32) (s : State) : Host.Outcome State Fault Refusal :=
  s.answer (s.arp port.val addr.toNat)

/-- NEIGHBOUR_DISCOVERY (R477): A port receives an IPv6 Neighbour Discovery message and answers it. -/
def execNeighbourDiscovery (port : PortId) (addr : BitVec 128) (s : State) : Host.Outcome State Fault Refusal :=
  s.answer (s.neighbour port.val addr.toNat)

/-- ICMP_ECHO (R477): A port receives an ICMP echo request and answers it. -/
def execIcmpEcho (port : PortId) (data : List (BitVec 8)) (s : State) : Host.Outcome State Fault Refusal :=
  s.answer (s.icmpEcho port.val data)

/-- PRIORITY_FLOW_CONTROL (R477): A port with IEEE 802.1Qbb enabled receives a priority flow control frame for its
priority and pauses or resumes sending. -/
def execPriorityFlowControl (port : PortId) (prio : Fin 8) (pause : Bool) (s : State) : Host.Outcome State Fault Refusal :=
  s.answer (s.flowControl port.val prio.val pause)

/-- RDMA_READ_RESPONSE (R294): Host RDMA READ responses arrive for a read that the module issued, such as a bulk
argument or a HOSTV refill source, and the waiting command or restoration proceeds. -/
def execRdmaReadResponse (op : Nat) (data : List (BitVec 8)) (s : State) : Host.Outcome State Fault Refusal :=
  s.answer (s.readResponse op data)

end Sys2Proof.Machine
end

