-- ==== Sys2Proof/Machine/Packets.lean ====
section
/-! DEFINITION. The meanings of the rows that receive flits and packets: acceptance and replay, detours and routing, opening, peer
requests and their answers, and the messages that CTRL, RECOV and WALK packets carry (R203, R238, R281 to R283, R375, R417, R418,
R455 to R470). -/

namespace Sys2Proof.Machine

/-! ### Opening a sealed packet (R417, R418, R463) -/

/-- The bit of ENGINES that a packet needs (R463): [9] for CTRL, STATE and class 7, [8] for the rest. -/
def packetLane (p : Packet) : Nat := if p.kind = PT.ctrl ∨ p.kind = PT.state ∨ p.cls = 7 then 9 else 8

/-- The window of a key for a source and engine. -/
def KeyEntry.window (k : KeyEntry) (src e : Nat) : Option RecvWin := k.recv.find? fun w => w.src == src && w.engine == e

/-- Whether a counter is neither below the window nor accepted before. -/
def KeyEntry.takesCtr (k : KeyEntry) (src e ctr : Nat) : Bool :=
  match k.window src e with
  | none => true
  | some w => decide (w.highest < ctr) || (decide (w.highest ≤ ctr + 1024) && !w.seen.contains ctr)

/-- A counter is accepted. -/
def KeyEntry.acceptCtr (k : KeyEntry) (src e ctr : Nat) : KeyEntry :=
  let old := (k.window src e).getD ⟨src, e, ctr, []⟩
  let high := max old.highest ctr
  let new : RecvWin := ⟨src, e, high, (insertSorted ctr old.seen).filter fun c => decide (high ≤ c + 1024)⟩
  { k with recv := (k.recv.filter fun w => !(w.src == src && w.engine == e)) ++ [new] }

/-- Whether a sealed packet opens: its handle names a VALID link entry with the lane's bit, its tag verifies, and its counter is
new. -/
def State.opens (s : State) (p : Packet) : Bool :=
  let k := s.key p.keyh.toNat
  k.valid && k.type == .link && k.engines.toNat.testBit (packetLane p - 7) && p.sealedBy == some k.key &&
    k.takesCtr p.srcMod.toNat p.seng.toNat p.ctr.toNat

/-- A packet that fails authentication is counted at its link; a record is written at most once per 1 ms (R463). -/
def State.authFailed (s : State) (l : Nat) : State :=
  let s := s.modLink l fun k => { k with authFail := count16 k.authFail }
  let due := match (s.link l).authRecAt with
    | some t => decide (t + 1000000 ≤ s.ltime)
    | none => true
  if due then
    let now := s.ltime
    (s.linkRecord l LinkEvent.authFail 0).modLink l fun k => { k with authRecAt := some now }
  else s

/-- Open a packet at its destination: the context it acts as, 0 where it is not sealed, and the handle that opened it. `none` where it
fails authentication. -/
def State.openPacket (s : State) (l : Nat) (p : Packet) : Option (Nat × Option Nat) × State :=
  match p.sealedBy with
  | none => (some (0, none), s)
  | some _ =>
    if s.opens p then
      let h := p.keyh.toNat
      (some ((s.key h).owner, some h), s.modKey h fun k => k.acceptCtr p.srcMod.toNat p.seng.toNat p.ctr.toNat)
    else (none, s.authFailed l)

/-! ### Answers -/

/-- STATUS of a response (Table 15-5). -/
def MemStatus.packetStatus : MemStatus → Nat
  | .ok => 0
  | .refused | .range => 1
  | .poison => 2
  | .nokey => 3
  | .deadkey => 4
  | .ended | .hold => 5
  | .mapEpoch => 6

/-! ### Peer requests at their destination (R203, R255, R268, R269, R420) -/

/-- The partition of the member that a packet names. -/
def State.destination (s : State) (p : Packet) : Option Nat := s.partHere p.formeId.toNat p.member.toNat

/-- What a request acts as: the owner of the key that opened it, or no context (R417, R420). -/
def requester (p : Packet) (n : Nat) : Principal := if n = 0 then .forme p.formeId.toNat else .ctx n

/-- The request of a packet for one of its lines. -/
def State.packetReq (s : State) (who : Principal) (part : Nat) (p : Packet) (l i : Nat) : MemReq :=
  { s.reqAt who part (p.addr.toNat / 64 * 64 + 64 * i) (l / 4) with epoch := p.epoch, cls := p.cls }

/-- The layout of the source of a chunk that another module pulls. -/
def State.sourceLayout (s : State) (part : Nat) : Layout := (s.part part).layOld.getD (s.part part).lay

/-- A pull reads a line at the source page: as stored, or, where the request was sealed, decrypted for its context (R268) and checked as any
request of it is (R409). -/
def State.pullRead (s : State) (r : MemReq) (sealed_ : Bool) : MemOut × State × List Ev :=
  let part := r.part.val
  let a := r.addr.toNat / 64 * 64
  match s.copies part (s.sourceLayout part) a with
  | [] => ({ status := .ended }, s, [])
  | bs =>
    if bs.any s.busyAt then ({ status := .hold }, s, [])
    else
      let b := bs.headD (0, 0)
      let k := s.blockAt b
      if s.freshAt b then ({ status := .ok }, s, [])
      else if k.poison then ({ status := .poison }, s, [])
      else if !sealed_ then ({ status := .ok, data := k.stored ((a / 64) % 8) }, s, [])
      else
        let sel := s.selectKey part a
        if sel.dead || !s.memPermits sel.handle sel.kctx r.who then
          let d := s.denyKey b r sel (!sel.dead)
          ({ status := if sel.dead then .deadkey else .nokey, data := k.stored ((a / 64) % 8) }, d.1, d.2)
        else
          let t := s.readCopies part a (s.sealFor part a) bs
          ({ status := t.1, data := t.2.1 }, t.2.2, [])

/-- A write-through line is written into its source page, the primary, which its mirror follows (R205, R269): as it came where it is plaintext,
else as the line whose stored form it is. -/
def State.throughLine (s : State) (r : MemReq) (v : BitVec 512) : MemOut × State × List Ev :=
  let part := r.part.val
  let a := r.addr.toNat / 64 * 64
  let sel := s.selectKey part a
  match s.copies part (s.sourceLayout part) a with
  | [] => ({ status := .ended }, s, [])
  | b :: bs =>
    if (b :: bs).any s.busyAt then ({ status := .hold }, s, [])
    else if (s.pullCtx part a).isSome && !s.memPermits sel.handle sel.kctx r.who then
      let d := s.denyKey b r sel true
      ({ status := .nokey }, d.1, d.2)
    else
      let s := s.fillPage part a b
      let k0 := s.sealFor part a
      let line := (a / 64) % 8
      let v := if (s.pullCtx part a).isSome then v else Config.plainLine k0.key k0.tweak (s.blockAt b).wepoch.toNat line v
      let s := s.modBlock b fun k => k.put k0 line v
      let s := match (s.part part).regionOf a with
        | some r => if r.mirror then s.modBlock b fun k => { k with wepoch := k.wepoch + 1 } else s
        | none => s
      ({ status := .ok }, s.forward part b (fun k => k.put k0 line v) bs, [])

/-- What has become of the lines of a request: the worst status, the data, the EPOCH bit of every acknowledgement, and the tags of lines
written through whose acknowledgement it waits for (R269). -/
structure Served where
  status : MemStatus
  lines : List (BitVec 512)
  epochBit : Bool
  tags : List Nat
  s : State
  evs : List Ev

/-- Serve lines one after another. -/
def State.serveLines (s : State) (f : State → Nat → MemOut × State × List Ev) : List Nat → Served
  | [] => ⟨.ok, [], true, [], s, []⟩
  | i :: is =>
    let t := f s i
    let r := State.serveLines t.2.1 f is
    let st := if t.1.status = .hold ∨ r.status = .hold then .hold else t.1.status.worse r.status
    ⟨st, t.1.data :: r.lines, t.1.epochBit && r.epochBit, t.1.tag.toList ++ r.tags, r.s, t.2.2 ++ r.evs⟩

/-- Serve the lines of a READ, a WRITE or a MEMOP in partition `part`. -/
def State.servePacket (s : State) (who : Principal) (sealed_ : Bool) (part l : Nat) (p : Packet) : Served :=
  if p.kind = PT.read then
    if p.cls = 7 then s.serveLines (fun s i => s.pullRead (s.packetReq who part p l i) sealed_) (List.range p.len.toNat)
    else s.serveLines (fun s i => s.askRead (s.packetReq who part p l i) .none) (List.range p.len.toNat)
  else if p.kind = PT.write then
    if p.cls = 7 then s.serveLines (fun s i => s.throughLine (s.packetReq who part p l i) (p.lines.getD i 0)) (List.range p.lines.length)
    else s.serveLines (fun s i => s.askWrite (s.packetReq who part p l i) (p.lines.getD i 0) .none) (List.range p.lines.length)
  else
    match mopDecode p.mop.toNat with
    | some (o, _) =>
      if o = .cas then ⟨.refused, [], true, [], s, []⟩
      else s.serveLines (fun s i => s.askOp (s.packetReq who part p l i) p.mop.toNat ((p.lines.getD i 0).zeroExtend 1024) .none)
        (List.range p.lines.length)
    | none => ⟨.refused, [], true, [], s, []⟩

/-- An answer leaves, once the sources have acknowledged what was written through to them (R269). -/
def State.answerAfter (s : State) (tags : List Nat) (h : Option Nat) (p : Packet) : State :=
  if tags.isEmpty then s.sendAnswer h p else { s with lateAcks := s.lateAcks ++ [⟨tags, none, h, some p⟩] }

/-- Answer a request with what was served. -/
def State.answerServed (s : State) (p : Packet) (h : Option Nat) (r : Served) : State :=
  let lines := if p.kind = PT.read ∧ (r.status = .ok ∨ r.status = .nokey ∨ r.status = .deadkey) then r.lines else []
  s.answerAfter r.tags h { s.response p (if p.kind = PT.read then PT.readResp else PT.ack) r.status.packetStatus lines with
    epochBit := r.epochBit && p.kind == PT.memop }

/-- Serve a request that has arrived, or one that waits; the flag is false where it must wait (R264). -/
def State.tryPeer (s : State) (l : Nat) (who : Principal) (h : Option Nat) (p : Packet) : Bool × State :=
  match s.destination p with
  | none =>
    (true, (s.record { cause := 0x04, severity := 0, addr := p.addr.toNat / 64 * 64, d5 := p.epoch.toNat }).answerServed p h
      ⟨.mapEpoch, [], false, [], s, []⟩)
  | some part =>
    let r := s.servePacket who h.isSome part l p
    if r.status = .hold then (false, s) else (true, (r.s.settle r.evs).answerServed p h r)

/-- Whether two requests touch a line of the same member. -/
def samePlace (p q : Packet) : Bool :=
  p.formeId == q.formeId && p.member == q.member &&
    meet (p.addr.toNat / 64) (max 1 p.len.toNat) (q.addr.toNat / 64) (max 1 q.len.toNat)

/-- A peer request arrives at its destination: it is served, unless an earlier one for the same lines waits or it must wait. -/
def State.peerArrive (s : State) (l : Nat) (p : Packet) (n : Nat) (h : Option Nat) : State :=
  let who := requester p n
  let wait (s : State) : State := { s with inbox := s.inbox ++ [(l, who, h, p)] }
  if s.inbox.any fun e => samePlace e.2.2.2 p then wait s
  else
    match s.tryPeer l who h p with
    | (true, s) => s
    | (false, s) => wait s

/-- A request that waits is tried again, where no earlier one for the same lines waits. -/
def State.peerAgain (s : State) (l : Nat) (p : Packet) : State :=
  let before := s.inbox.takeWhile fun e => !(e.1 == l && e.2.2.2 == p)
  match s.inbox.find? fun e => e.1 == l && e.2.2.2 == p with
  | none => s
  | some e =>
    if before.any fun b => samePlace b.2.2.2 p then s
    else
      match s.tryPeer l e.2.1 e.2.2.1 p with
      | (true, s) => { s with inbox := s.inbox.erase e }
      | (false, s) => s

/-! ### Responses at their issuer (R256, R269, R379, R466) -/

/-- The request that a response answers. -/
def State.answeredBy (s : State) (p : Packet) : Option PeerOut :=
  s.peerOut.find? fun o => o.clu == p.srcClu.toNat && o.tag == p.tag.toNat && o.mod == p.srcMod.toNat

/-- READ_RESP: the data reaches the stream, the refill or the pull that asked for it. -/
def State.readRespIn (s : State) (p : Packet) : State :=
  match s.answeredBy p with
  | none => s
  | some o =>
    let st := p.status.toNat
    if st = 5 ∨ st = 7 then s.endOut o
    else
      let s := s.dropPeer o
      match o.use with
      | .stream e r =>
        if st = 2 then s.streamPoison e r p.addr.toNat
        else
          let s := match (s.engine e).ofReq r, decide (st = 0) with
            | some (_, t), true => s.peerFill (e / 4) o.forme o.member t.ctx p.addr.toNat (p.lines.getD 0 0)
            | _, _ => s
          s.readReturned e r (p.lines.getD 0 0)
      | .refill part chunk line => if st = 0 then s.refillLanded part chunk line p.lines else s.refillFailed part chunk
      | _ => s

/-- ACK: a write or an operation of a stream is complete; an EPOCH bit that is clear makes the job's epoch impure (R364). -/
def State.ackIn (s : State) (p : Packet) : State :=
  match s.answeredBy p with
  | none => s
  | some o =>
    let st := p.status.toNat
    if st = 5 ∨ st = 7 then s.endOut o
    else
      let s := s.dropPeer o
      match o.use with
      | .stream e r =>
        let s := match (s.engine e).ofReq r with
          | some (_, t) => if (SDesc.of t.desc).mop ≠ 0 ∧ st = 0 then s.opAcked t.ctx p.epochBit else s
          | none => s
        s.writeReturned e r
      | .through _ _ => s.throughDone o.tag
      | _ => s

/-- Links of the entry of a destination that are down leave every mask: a detour has not reached the partner (R469). -/
def State.endDetours (s : State) (dst : Nat) : State :=
  ((linksOf (s.mask dst)).filter fun l => (s.link l).state != .up).foldl (fun s l => s.clearLink l) s

/-- NACK (R466): the issuer's request completes UNREACHABLE; one for a control message is counted at the sending hub (R240). -/
def State.nackIn (s : State) (p : Packet) : State :=
  match s.answeredBy p, s.peerOut.find? fun o => o.clu == p.srcClu.toNat && o.tag == p.tag.toNat && o.forme == p.formeId.toNat &&
      o.member == p.member.toNat with
  | some o, _ | none, some o =>
    (s.endDetours o.mod).endOut o
  | none, none =>
    if p.cls = 7 then s
    else s.modHub p.srcClu.toNat fun k => { k with cnt := { k.cnt with unreach := min (k.cnt.unreach + 1) 255 } }

/-! ### Messages in packets (R238, R281 to R283, R375) -/

/-- Word `i` of a line. -/
def lineWord (v : BitVec 512) (i : Nat) : Nat := bits v.toNat (64 * i + 63) (64 * i)

/-- The control message of a line (Table 08-3), `none` where a reserved bit is set; `auth` is the context that authenticated it. -/
def ctrlOfLine (v : BitVec 512) (auth : Nat) : Option (Nat × CtrlMsg) :=
  let w0 := lineWord v 0
  let w1 := lineWord v 1
  if bits w0 23 17 ≠ 0 ∨ bits w0 63 62 ≠ 0 ∨ bits v.toNat 511 192 ≠ 0 then none
  else some (bits w0 7 0, ⟨BitVec.ofNat 8 (bits w0 15 8), bit w0 16, BitVec.ofNat 16 (bits w0 39 24), BitVec.ofNat 16 (bits w0 55 40),
    BitVec.ofNat 6 (bits w0 61 56), BitVec.ofNat 32 w1, BitVec.ofNat 16 (bits w1 47 32), BitVec.ofNat 16 (bits w1 63 48),
    BitVec.ofNat 64 (lineWord v 2), BitVec.ofNat 16 auth⟩)

/-- A CTRL packet delivers its message (R238). -/
def State.ctrlPacket (s : State) (p : Packet) (auth : Nat) : State :=
  match ctrlOfLine (p.lines.getD 0 0) auth with
  | none => s.synCount s.lowestCluster .badmsg
  | some (opc, m) => s.ctrlArrive opc m

/-- A member-map entry of INSTALL (R283), `none` where a reserved bit is set. -/
def mapEntryOf (w : Nat) : Option MapEntry :=
  if 2 ^ 40 ≤ w then none else some ⟨bits w 15 0, bits w 31 16, bits w 37 32, bit w 38, bit w 39⟩

/-- A renumbering entry (R276), `none` where a reserved bit is set. -/
def renumberOf (w : Nat) : Option Renumber :=
  if 2 ^ 49 ≤ w then none else some ⟨bits w 15 0, bits w 31 16, bits w 47 32, bit w 48⟩

/-- The first `n` eight-byte entries of data lines. -/
def lineEntries (ls : List (BitVec 512)) (n : Nat) : List Nat := (List.range n).map fun i => lineWord (ls.getD (i / 8) 0) (i % 8)

/-- Every entry read, or none where one of them is not well formed. -/
def allSome {α : Type} : List (Option α) → Option (List α)
  | [] => some []
  | none :: _ => none
  | some a :: r => (allSome r).map fun l => a :: l

/-- The data of a compositor message by its opcode (R283). -/
def compDataOf (opc w4 : Nat) (ls : List (BitVec 512)) : Option CompData :=
  if opc = 0x20 then
    let b := (ls.map bytesOfLine).flatten
    some (.plan (planHeader b) (planEntries b ((ls.length - 1) / 2)))
  else if opc = 0x23 then (allSome ((lineEntries ls (bits w4 31 0)).map mapEntryOf)).map .install
  else if opc = 0x29 then (allSome ((lineEntries ls (bits w4 15 0)).map renumberOf)).map fun rs => .moved rs 0 0
  else if opc = 0x34 then
    if bit w4 16 then (ctrlOfLine (ls.getD 0 0) 0).map fun e => .fwdCtrl (BitVec.ofNat 8 e.1) e.2
    else some (.fwdDoorbell (BitVec.ofNat 64 (lineWord (ls.getD 0 0) 0)))
  else some .none

/-- The compositor message of a line, with its data lines (Table 09-11); `none` where a reserved bit is set. -/
def compOfLine (v : BitVec 512) (ls : List (BitVec 512)) : Option CompMsg :=
  let w0 := lineWord v 0
  let w1 := lineWord v 1
  if bits w0 63 52 ≠ 0 ∨ bits w1 63 49 ≠ 0 ∨ bits (lineWord v 3) 63 32 ≠ 0 ∨ lineWord v 7 ≠ 0 then none
  else (compDataOf (bits w0 7 0) (lineWord v 4) ls).map fun d =>
    ⟨BitVec.ofNat 8 (bits w0 15 8), BitVec.ofNat 16 (bits w0 31 16), BitVec.ofNat 16 (bits w0 47 32), BitVec.ofNat 4 (bits w0 51 48),
      BitVec.ofNat 32 w1, if bit w1 48 then some (BitVec.ofNat 16 (bits w1 47 32)) else none, BitVec.ofNat 32 (lineWord v 2),
      BitVec.ofNat 64 (lineWord v 4), BitVec.ofNat 64 (lineWord v 5), BitVec.ofNat 64 (lineWord v 6), d⟩

/-- The recovery message of a line, with the entry of a LOG (Table 12-11); `none` where a reserved bit is set. -/
def recOfLine (v : BitVec 512) (ls : List (BitVec 512)) : Option RecMsg :=
  let w0 := lineWord v 0
  let w1 := lineWord v 1
  let w3 := lineWord v 3
  if bits w0 63 48 ≠ 0 ∨ bits w1 63 48 ≠ 0 ∨ bits w3 63 48 ≠ 0 ∨ bits v.toNat 511 256 ≠ 0 then none
  else some ⟨BitVec.ofNat 8 (bits w0 15 8), BitVec.ofNat 16 (bits w0 31 16), BitVec.ofNat 16 (bits w0 47 32), BitVec.ofNat 32 w1,
    BitVec.ofNat 16 (bits w1 47 32), BitVec.ofNat 32 (lineWord v 2), BitVec.ofNat 32 (lineWord v 2 / 2 ^ 32), BitVec.ofNat 32 w3,
    BitVec.ofNat 16 (bits w3 47 32), if ls.isEmpty then [] else (List.range 8).map fun i => BitVec.ofNat 64 (lineWord (ls.getD 0 0) i)⟩

/-- Deliver a compositor message by its opcode (Table 09-12); a reserved one is discarded and counted. -/
def State.compDeliver (s : State) (opc : Nat) (m : CompMsg) (t : Told) : State :=
  if opc = 0x20 then s.admitHere m t.carry
  else if opc = 0x21 then s.admitOk m
  else if opc = 0x22 then s.admitRefuse m
  else if opc = 0x23 then s.install m
  else if opc = 0x24 then s.installed m
  else if opc = 0x25 then s.switch m
  else if opc = 0x26 then s.switchedRecovery m
  else if opc = 0x27 then s.drainedIn m
  else if opc = 0x28 then s.moveRecovery m t.carry
  else if opc = 0x29 then
    s.movedIn (match m.data with
      | .moved rs _ _ => { m with data := .moved rs t.chunks t.lost }
      | _ => m)
  else if opc = 0x2A then s.quoinMaster m t.fences
  else if opc = 0x2B then s.quoinedIn m
  else if opc = 0x2C then s.releaseIn m
  else if opc = 0x2D then s.releasedIn m
  else if opc = 0x2E then s.memberGone m
  else if opc = 0x2F then s.abortIn m
  else if opc = 0x30 then s.abortedIn m
  else if opc = 0x31 then s.msBegin m
  else if opc = 0x32 then s.msReady m
  else if opc = 0x33 then s.msDone m
  else if opc = 0x34 then s.fwd m
  else if opc = 0x3F then s.compAck m
  else s.synCount s.lowestCluster .badmsg

/-- Deliver a recovery message by its opcode (Table 12-11); a reserved one is discarded and counted. -/
def State.recDeliver (s : State) (opc : Nat) (m : RecMsg) (t : Told) : State :=
  if opc = 0x01 then s.pulseIn m
  else if opc = 0x02 then s.pulseAns m
  else if opc = 0x03 then s.suspectIn m
  else if opc = 0x04 then s.probeIn m
  else if opc = 0x05 then s.probeAns m
  else if opc = 0x06 then s.thawIn m
  else if opc = 0x07 then s.rollbackIn m
  else if opc = 0x08 then s.rolledBackIn m t.views
  else if opc = 0x09 then s.resumeIn m
  else if opc = 0x0A then s.masterClaim m t.numbers
  else if opc = 0x0B then s.logIn m
  else s.synCount s.lowestCluster .badmsg

/-- Every line of a message from 0 to TOTAL − 1, where all are held. -/
def PartMsg.whole (m : PartMsg) : Option (List (BitVec 512)) :=
  allSome ((List.range m.total).map fun i => Tbl.find m.lines i)

/-- A RECOV packet delivers its message once every data line is held (R281, R375). -/
def State.recovPacket (s : State) (p : Packet) (t : Told) : State :=
  let v := p.lines.getD 0 0
  let more := p.lines.drop 1
  let opc := lineWord v 0 % 2 ^ 8
  let bad (s : State) : State := s.synCount s.lowestCluster .badmsg
  if opc < 0x20 then
    match recOfLine v more with
    | some m => s.recDeliver opc m t
    | none => bad s
  else if 0x3F < opc then bad s
  else
    let total := lineWord v 3 % 2 ^ 32
    let ofs := lineWord v 2 / 2 ^ 32
    let forme := lineWord v 1 % 2 ^ 32
    let cseq := lineWord v 2 % 2 ^ 32
    let src := bits (lineWord v 0) 31 16
    let mine (m : PartMsg) : Bool := m.forme == forme && m.opc == opc && m.cseq == cseq && m.src == src
    let old := match s.partMsgs.find? mine with
      | some m => m.lines
      | none => []
    let now : PartMsg := ⟨forme, opc, cseq, src, total, more.zipIdx.foldl (fun a e => Tbl.set a (ofs + e.2) e.1) old⟩
    let rest := s.partMsgs.filter fun m => !mine m
    -- a packet of a message in several packets that has been answered is answered again
    let again := if total ≤ 4 then none else (compOfLine v []).bind fun m => s.answered.find? fun a => a.repeats opc m
    match again, now.whole with
    | some a, _ => s.emit (.comp a.ansOpc a.ans)
    | none, none => { s with partMsgs := rest ++ [now] }
    | none, some ls =>
      let s := { s with partMsgs := rest }
      match compOfLine v ls with
      | some m => s.compDeliver opc m t
      | none => bad s

/-- The WALK message of a line (Table 15-9); `none` where a reserved bit is set. -/
def walkOfLine (v : BitVec 512) : Option (Nat × WalkBody) :=
  let w0 := lineWord v 0
  let w3 := lineWord v 3
  let tail := bits v.toNat 511 256
  if bits w0 31 18 ≠ 0 ∨ bits w3 63 54 ≠ 0 then none
  else some (bits w0 7 0, ⟨BitVec.ofNat 5 (bits w0 12 8), BitVec.ofNat 5 (bits w0 17 13), BitVec.ofNat 32 (bits w0 63 32),
    BitVec.ofNat 64 (lineWord v 1), BitVec.ofNat 64 (lineWord v 2), BitVec.ofNat 16 (bits w3 15 0), bit w3 16, bit w3 17,
    BitVec.ofNat 4 (bits w3 21 18), BitVec.ofNat 16 (bits w3 37 22), BitVec.ofNat 16 (bits w3 53 38), BitVec.ofNat 112 tail,
    (List.range 16).map fun i => BitVec.ofNat 16 (bits tail (16 * i + 15) (16 * i))⟩)

/-- A WALK packet arrives on link `l` (R471, R472); one with a reserved WOP is dropped and counted. -/
def State.walkPacket (s : State) (l : Nat) (p : Packet) (t : Told) : State :=
  match walkOfLine (p.lines.getD 0 0) with
  | some (1, b) => s.walkQuery l b
  | some (2, b) => s.walkQueryAns b
  | some (3, b) => s.walkAssigned l b t.routes
  | some (4, b) => s.walkAssignAck b
  | _ => s.drop l p 7

/-! ### Delivery, detours and transit (R466, R469, R470) -/

/-- A packet for this module is delivered. -/
def State.deliverPacket (s : State) (l : Nat) (p : Packet) (t : Told) : State :=
  if s.pm.st ≠ .ready then s.drop l p 5
  else if p.kind = PT.recov then s.recovPacket p t
  else
    match s.openPacket l p with
    | (none, s) => s
    | (some (n, h), s) =>
      if p.kind = PT.read ∨ p.kind = PT.write ∨ p.kind = PT.memop then s.peerArrive l p n h
      else if p.kind = PT.readResp then s.readRespIn p
      else if p.kind = PT.ack then s.ackIn p
      else if p.kind = PT.nack then s.nackIn p
      else if p.kind = PT.ctrl then s.ctrlPacket p n
      else
        match s.stateIn p with
        | some s => s.sendAnswer h (s.response p PT.ack 0 [])
        | none => s

/-- A packet for another module goes on, one hop nearer (R466); across dies only while the module is READY (R470). -/
def State.forwardPacket (s : State) (l : Nat) (p : Packet) : State :=
  if p.hops.toNat ≤ 1 then s.drop l p 7
  else
    let q := { p with hops := p.hops - 1 }
    let crosses := match s.firstLink q with
      | some o => o / 4 != l / 4
      | none => false
    if crosses && s.pm.st != .ready then s.drop l p 5
    else
      match s.launch q with
      | .gone s => s
      | .unreachable s => s.drop l p 5

/-- A packet is handled as if it had arrived on link `l`. -/
def State.routePacket (s : State) (l : Nat) (p : Packet) (t : Told) : State :=
  if p.kind = PT.walk then s.walkPacket l p t
  else if p.kind = PT.guard then s
  else if p.target = s.fabAddr then s.deliverPacket l p t
  else s.forwardPacket l p

/-- Whether a detour repeats a packet that this end of the lost link had accepted. -/
def DetourRec.had (r : DetourRec) (d : DetourSlot) : Bool :=
  d.fseqV && r.epoch == d.epoch.toNat && (match r.fseq with
    | some f => decide ((f + 4096 - d.fseq.toNat) % 4096 < 2048)
    | none => false)

/-- A packet has arrived on link `l` (PACKET_ROUTE): a reserved type or field drops it; a detour bound here is discarded where its
packet came before, and otherwise goes on as if it had arrived on the lost link. -/
def State.packetIn (s : State) (l : Nat) (p : Packet) (t : Told) : State :=
  if p.rsv || !knownType p.kind then s.modLink l fun k => { k with hopsDrop := count16 k.hopsDrop }
  else
    match p.detour with
    | none => s.routePacket l p t
    | some d =>
      if d.viaMod.toNat ≠ s.fabAddr then s.routePacket l p t
      else
        let v := d.viaLink.toNat
        let had := match (s.link v).record with
          | some r => r.had d
          | none => false
        if had then s.modLink v fun k => { k with detourDup := count16 k.detourDup }
        else s.routePacket v { p with detour := none } t

/-- Packets in the order in which they end in a flit; each frees its slots of the receive buffer (R464). -/
def State.packetsIn (s : State) (l : Nat) (t : Told) : List Packet → State
  | [] => s
  | p :: r => State.packetsIn ((s.packetIn l p t).settleSlots l p s) l t r

/-! ### Flits (R455 to R458, R461, R464) -/

/-- The clears of link counters that wait for the next flit are taken (R474). -/
def Link.takeClears (k : Link) : Link :=
  let z (i n : Nat) : Nat := if k.clearing.contains i then 0 else n
  { k with
    fecCorr := z 0 k.fecCorr, fecUncorr := z 1 k.fecUncorr, replay := z 2 k.replay, authFail := z 3 k.authFail,
    unreach := z 4 k.unreach, hopsDrop := z 5 k.hopsDrop, detour := z 6 k.detour, detourDup := z 7 k.detourDup,
    guardFail := z 8 k.guardFail, clearing := [] }

/-- A flit has failed (R457): one NAK names the last flit accepted, and what follows is discarded until the replay. -/
def State.flitFailed (s : State) (l : Nat) : State :=
  let k := s.link l
  if k.nakSent then s
  else
    let a := (k.rxPos + 4095) % 4096
    (s.modLink l fun k => { k with
      nakSent := true, retry := k.retry ++ [(k.nextPos, .nak a)], nextPos := k.nextPos + 1 }).emit (.flit l .nak a)

/-- A block that does not decode: every flit of it is dropped; more than 1,000 in 1 ms take the link down (R455, R458). -/
def State.blockFailed (s : State) (l : Nat) : State :=
  let now := s.ltime
  let s := s.modLink l fun k => { k with
    fecUncorr := min (k.fecUncorr + 1) (2 ^ 32 - 1)
    uncorrAt := (k.uncorrAt.filter fun t => decide (now < t + 1000000)) ++ [now] }
  if 1000 < (s.link l).uncorrAt.length then s.linkDown l else s.flitFailed l

/-- A flit is accepted: its ACKSEQ and credits are applied, and what it carries is taken. -/
def State.flitAccepted (s : State) (l : Nat) (f : Flit) (t : Told) : State :=
  let s := s.modLink l fun k =>
    let k := k.ackTo f.ackSeq.toNat
    { k with rxPos := k.rxPos + 1, nakSent := false,
             credits := Tbl.mod 0 k.credits f.crSub.toNat fun c => c + f.crSlots.toNat }
  match f.kind with
  | .idle => s.retryWaiting l
  | .nak => (s.retryWaiting l).nakReceived l f.ackSeq.toNat
  | .down => s.downReceived l
  | .data => (s.retryWaiting l).packetsIn l t f.packets

/-- FLIT_RECEIVE (R457): a flit of an UP link. -/
def State.flitReceive (s : State) (l : Nat) (f : Flit) (t : Told) : State :=
  if (s.link l).state ≠ .up then s
  else
    let s := s.modLink l Link.takeClears
    if !f.decoded then s.blockFailed l
    else
      let s := s.modLink l fun k => { k with fecCorr := min (k.fecCorr + f.corrected.toNat) (2 ^ 32 - 1) }
      if !f.check then (s.modLink l fun k => { k with guardFail := count16 k.guardFail }).flitFailed l
      else if f.fseq.toNat ≠ (s.link l).rxPos % 4096 then s.flitFailed l
      else s.flitAccepted l f t

/-! ### The rows of single packets -/

/-- READ, WRITE and MEMOP: a request of that type arrives on link `l`, or one that waits is tried again. -/
def State.peerRow (s : State) (l kind : Nat) (p : Packet) : State :=
  if p.kind ≠ kind then s
  else if s.inbox.any fun e => e.1 == l && e.2.2.2 == p then s.peerAgain l p
  else s.packetIn l p Told.none

/-- READ_RESP, PACKET_ACK, NACK and CTRL: a packet of that type arrives on link `l`. -/
def State.packetRow (s : State) (l kind : Nat) (p : Packet) (t : Told) : State :=
  if p.kind ≠ kind then s else s.packetIn l p t

/-- STATE (R284): a packet of mini-switch state arrives on link `l`. -/
def State.stateRow (s : State) (l : Nat) (p : Packet) : State := s.packetRow l PT.state p Told.none

end Sys2Proof.Machine
end

