-- ==== Sys2Proof/Machine/FormeRows.lean ====
section
/-! DEFINITION. The meanings of the rows that change a forme (R256 to R284). -/

namespace Sys2Proof.Machine

/-- ADMIT (R261): A participant checks its part of a plan and answers ADMIT_OK or ADMIT_REFUSE. -/
def execAdmit (m : CompMsg) (carry : Tbl Carry) (s : State) : Host.Outcome State Fault Refusal :=
  s.answer (s.admitHere m carry)

/-- ADMIT_OK (R261): The master records a participant's admission. -/
def execAdmitOk (m : CompMsg) (s : State) : Host.Outcome State Fault Refusal :=
  s.answer (s.admitOk m)

/-- ADMIT_REFUSE (R261): The master refuses the plan with the participant's reason. -/
def execAdmitRefuse (m : CompMsg) (s : State) : Host.Outcome State Fault Refusal :=
  s.answer (s.admitRefuse m)

/-- INSTALL (R262): A member writes the E+1 imposition table beside E and answers INSTALLED. -/
def execInstall (m : CompMsg) (s : State) : Host.Outcome State Fault Refusal :=
  s.answer (s.install m)

/-- INSTALLED (R260): The master records an installation and sends SWITCH once all have installed. -/
def execInstalled (m : CompMsg) (s : State) : Host.Outcome State Fault Refusal :=
  s.answer (s.installed m)

/-- SWITCH (R262): A member's issuers start stamping E+1, making E draining, and the member answers SWITCHED. -/
def execSwitchEpoch (m : CompMsg) (s : State) : Host.Outcome State Fault Refusal :=
  s.answer (s.switch m)

/-- SWITCHED (R260): The master records a switch. -/
def execSwitched (m : CompMsg) (s : State) : Host.Outcome State Fault Refusal :=
  s.answer (s.switchedRecovery m)

/-- EPOCH_DRAINED (R256): Every counter of the draining epoch on a member reaches zero and the member reports DRAINED.
-/
def execEpochDrained (forme : BitVec 32) (s : State) : Host.Outcome State Fault Refusal :=
  s.answer (s.epochDrained forme.toNat)

/-- DRAINED (R263): The master records a drain and sends MOVE once every member has drained. -/
def execDrained (m : CompMsg) (s : State) : Host.Outcome State Fault Refusal :=
  s.answer (s.drainedIn m)

/-- DRAIN_LIMIT_EXPIRY (R263): An epoch not drained within DRAIN_LIMIT hands the remaining requests to the escalation
ladder. -/
def execDrainLimitExpiry (forme : BitVec 32) (s : State) : Host.Outcome State Fault Refusal :=
  s.answer (s.drainLimitExpiry forme.toNat)

/-- MOVE (R269): A participant makes its targets the ordering points, starts pulls, the sweeper and mini-switches. -/
def execMove (m : CompMsg) (carry : Tbl Carry) (s : State) : Host.Outcome State Fault Refusal :=
  s.answer (s.moveRecovery m carry)

/-- DEMAND_PULL (R269): A request to a SOURCE chunk starts its pull and waits. -/
def execDemandPull (forme : BitVec 32) (p : PartId) (chunk : BitVec 24) (s : State) : Host.Outcome State Fault Refusal :=
  s.answer (s.demandPull forme.toNat p.val chunk.toNat)

/-- PULL_COMPLETE (R269): All sixteen pages of a pulled chunk land and it becomes HELD, releasing waiting requests. -/
def execPullComplete (forme : BitVec 32) (p : PartId) (chunk : BitVec 24) (landed : Tbl Block)
    (s : State) : Host.Outcome State Fault Refusal :=
  s.answer (s.pullComplete forme.toNat p.val chunk.toNat landed)

/-- SWEEPER (R270): The target's sweeper pulls the next SOURCE chunk holding a live allocation. -/
def execSweeper (forme : BitVec 32) (s : State) : Host.Outcome State Fault Refusal :=
  s.answer (s.sweeper forme.toNat)

/-- MOVED (R271): The master records a participant's move and records the quoin decision when all have moved. -/
def execMoved (m : CompMsg) (s : State) : Host.Outcome State Fault Refusal :=
  s.answer (s.movedIn m)

/-- QUOIN (R271): A participant makes galley pages authoritative, stops write-through and answers QUOINED. -/
def execQuoin (m : CompMsg) (fences : List (BitVec 32 × BitVec 64)) (s : State) : Host.Outcome State Fault Refusal :=
  s.answer (s.quoinMaster m (fences.map fun e => (e.1.toNat, e.2.toNat)))

/-- QUOINED (R272): The master records a quoin and sends RELEASE when all are in. -/
def execQuoined (m : CompMsg) (s : State) : Host.Outcome State Fault Refusal :=
  s.answer (s.quoinedIn m)

/-- RELEASE (R272): A participant frees sources, removes E tables, releases imports and answers RELEASED. -/
def execRelease (m : CompMsg) (s : State) : Host.Outcome State Fault Refusal :=
  s.answer (s.releaseIn m)

/-- RELEASED (R272): The master records a release and writes the composition completion when all are in. -/
def execReleased (m : CompMsg) (s : State) : Host.Outcome State Fault Refusal :=
  s.answer (s.releasedIn m)

/-- COMPOSITION_TIMEOUT (R273): A participant misses a step bound by more than the composition timeout and is declared
failed. -/
def execCompositionTimeout (forme : BitVec 32) (mod : BitVec 16) (s : State) : Host.Outcome State Fault Refusal :=
  s.answer (s.compositionTimeout forme.toNat mod.toNat)

/-- MEMBER_FAILED (R273): Each issuer completes requests to the failed member UNREACHABLE within 1 ms. -/
def execMemberFailed (m : CompMsg) (s : State) : Host.Outcome State Fault Refusal :=
  s.answer (s.memberGone m)

/-- ABORT (R275): A member aborts the change, discarding E+1 or preparing the E+2 restoring epoch. -/
def execAbort (m : CompMsg) (s : State) : Host.Outcome State Fault Refusal :=
  s.answer (s.abortIn m)

/-- ABORTED (R275): The master records an abort acknowledgement. -/
def execAborted (m : CompMsg) (s : State) : Host.Outcome State Fault Refusal :=
  s.answer (s.abortedIn m)

/-- MS_BEGIN (R284): A mini-switch target prepares to receive a state image and answers MS_READY. -/
def execMsBegin (m : CompMsg) (s : State) : Host.Outcome State Fault Refusal :=
  s.answer (s.msBegin m)

/-- MS_READY (R284): The mini-switch source begins sending the state image in STATE packets. -/
def execMsReady (m : CompMsg) (s : State) : Host.Outcome State Fault Refusal :=
  s.answer (s.msReady m)

/-- STATE (R284): A STATE packet of mini-switch state lands at its image offset and is acknowledged. -/
def execStatePacket (link : LinkId) (p : Packet) (s : State) : Host.Outcome State Fault Refusal :=
  s.answer (s.stateRow link.val p)

/-- MINI_SWITCH_RESTORE (R265): With every part of the image held, the target restores state, resumes the cores and
sends MS_DONE. -/
def execMiniSwitchRestore (forme : BitVec 32) (tag : BitVec 16) (notes : List CtlNote) (bars : List BarNote)
    (s : State) : Host.Outcome State Fault Refusal :=
  s.answer (s.miniRestore forme.toNat tag.toNat notes bars)

/-- MS_DONE (R265): The source and master record a finished mini-switch. -/
def execMsDone (m : CompMsg) (s : State) : Host.Outcome State Fault Refusal :=
  s.answer (s.msDone m)

/-- FWD (R266): A forwarded doorbell or control message for an old number is delivered at the move target. -/
def execFwd (m : CompMsg) (s : State) : Host.Outcome State Fault Refusal :=
  s.answer (s.fwd m)

/-- ACK (R282): A compositor report or request is acknowledged. -/
def execAck (m : CompMsg) (s : State) : Host.Outcome State Fault Refusal :=
  s.answer (s.compAck m)

/-- COMPOSITOR_MESSAGE_REPEAT (R282): After at least 1 ms without an answer, a sender repeats a compositor request or
report. -/
def execCompositorMessageRepeat (opc : BitVec 8) (mod : BitVec 16) (forme : BitVec 32) (s : State) : Host.Outcome State Fault Refusal :=
  s.answer (s.compRepeat opc.toNat mod.toNat forme.toNat)

end Sys2Proof.Machine
end

