-- ==== Sys2Proof/Machine/JobRows.lean ====
section
/-! DEFINITION. The meanings of the rows of queues, commands, jobs and contexts (R287 to R319). -/

namespace Sys2Proof.Machine

/-- DOORBELL (R292): A doorbell write makes ring entries available, is discarded as stale, or puts the queue into
ERROR. -/
def execDoorbell (m : Master) (q : QueueId) (v : BitVec 64) (s : State) : Host.Outcome State Fault Refusal :=
  s.answer (s.doorbellRow m q.val v.toNat)

/-- COMMAND_FETCH (R293): The serving processor fetches the next command of a queue, renewing the lease and opening
sealed frames. -/
def execCommandFetch (q : QueueId) (s : State) : Host.Outcome State Fault Refusal :=
  s.answer (if s.fetchQuiesced q.val then s else s.commandFetch q.val)

/-- CMD_NOP (R296): The NOP command does nothing and completes. -/
def execCmdNop (q : QueueId) (s : State) : Host.Outcome State Fault Refusal :=
  s.answer (s.cmdNop q.val)

/-- CREATE_CTX (R289): Creates a LIVE context from its parameter entry, with heaps and a save area. -/
def execCreateCtx (q : CtxSource) (s : State) : Host.Outcome State Fault Refusal :=
  s.answer (s.createCtx q.q.val q.far)

/-- DESTROY_CTX (R319): Begins the teardown of a context. -/
def execDestroyCtx (q : QueueId) (s : State) : Host.Outcome State Fault Refusal :=
  s.answer (s.destroyCtx q.val)

/-- CREATE_QUEUE (R291): Creates a queue bound to a context with a ring and completion ring. -/
def execCreateQueue (q : QueueId) (s : State) : Host.Outcome State Fault Refusal :=
  s.answer (s.createQueue q.val)

/-- DESTROY_QUEUE (R296): Destroys a queue. -/
def execDestroyQueue (q : QueueId) (s : State) : Host.Outcome State Fault Refusal :=
  s.answer (s.destroyQueue q.val)

/-- COMPOSE (R257): Reads a plan record and starts a change of a forme at the master's compositor. -/
def execCompose (q : QueueId) (s : State) : Host.Outcome State Fault Refusal :=
  s.answer (s.compose q.val)

/-- SET_SCHED (R309): Sets a forme's quantum for the next switch. -/
def execSetSched (q : QueueId) (s : State) : Host.Outcome State Fault Refusal :=
  s.answer (s.setSched q.val)

/-- HEARTBEAT (R297): Renews the lease of its context or of the contexts named. The renewal is made at the fetch
(COMMAND_FETCH); this row completes the command. -/
def execHeartbeat (q : QueueId) (s : State) : Host.Outcome State Fault Refusal :=
  s.answer (s.heartbeat q.val)

/-- LOAD_IMAGE (R307): Proof-loads a Yelosh image and writes code and constants. -/
def execLoadImage (src : CmdSource) (far : FarLoad) (s : State) : Host.Outcome State Fault Refusal :=
  s.answer (s.loadImage src far)

/-- RUN (R300): Starts a program on a range of virtual cores and completes when all reach program end. -/
def execRun (src : CmdSource) (far : List (BitVec 16 × BitVec 32 × BitVec 32)) (s : State) : Host.Outcome State Fault Refusal :=
  s.answer (s.run src (far.map fun e => (e.1.toNat, e.2.1.toNat, e.2.2.toNat)))

/-- CMD_ALLOC (R298): Allocates a region for the job's context on a member. -/
def execCmdAlloc (src : CmdSource) (s : State) : Host.Outcome State Fault Refusal :=
  s.answer (s.cmdAlloc src)

/-- CMD_FREE (R298): Frees an allocation for the job's context on a member. -/
def execCmdFree (src : CmdSource) (s : State) : Host.Outcome State Fault Refusal :=
  s.answer (s.cmdFree src)

/-- REGION_INSTALL (R199): Installs a region descriptor after its checks. -/
def execRegionInstall (src : CmdSource) (s : State) : Host.Outcome State Fault Refusal :=
  s.answer (s.regionInstall src)

/-- REGION_CHANGE (R198): Changes the owner's region descriptor. -/
def execRegionChange (src : CmdSource) (s : State) : Host.Outcome State Fault Refusal :=
  s.answer (s.regionChange src)

/-- REGION_REMOVE (R198): Removes the owner's region descriptor, invalidating cached lines. -/
def execRegionRemove (src : CmdSource) (s : State) : Host.Outcome State Fault Refusal :=
  s.answer (s.regionRemove src)

/-- FENCE_CREATE (R232): Creates a LIVE fence on the master with value, home and key handle. -/
def execFenceCreate (q : QueueId) (s : State) : Host.Outcome State Fault Refusal :=
  s.answer (s.fenceCreate q.val)

/-- FENCE_RETIRE (R232): Retires a fence to FREE, ending its waits and arms. -/
def execFenceRetire (q : QueueId) (s : State) : Host.Outcome State Fault Refusal :=
  s.answer (s.fenceRetire q.val)

/-- FENCE_IMPORT (R235): Takes an import of an exported fence. -/
def execFenceImport (q : CmdSource) (s : State) : Host.Outcome State Fault Refusal :=
  s.answer (s.fenceImport q)

/-- FENCE_RELEASE (R236): Releases an import of a fence. -/
def execFenceRelease (q : QueueId) (s : State) : Host.Outcome State Fault Refusal :=
  s.answer (s.fenceRelease q.val)

/-- FENCE_SIGNAL (R298): Signals a fence by command. -/
def execFenceSignal (q : QueueId) (s : State) : Host.Outcome State Fault Refusal :=
  s.answer (s.fenceSignalCmd q.val false)

/-- FENCE_SIGNAL_ADD (R298): Adds to a fence by command, selected by ARG2 bit 0. -/
def execFenceSignalAdd (q : QueueId) (s : State) : Host.Outcome State Fault Refusal :=
  s.answer (s.fenceSignalCmd q.val true)

/-- BAR_CONFIG (R241): Configures a barrier instance. -/
def execBarConfig (q : QueueId) (s : State) : Host.Outcome State Fault Refusal :=
  s.answer (s.barConfig q.val)

/-- BAR_REMOVE (R241): Removes a barrier instance. -/
def execBarRemove (q : QueueId) (s : State) : Host.Outcome State Fault Refusal :=
  s.answer (s.barRemove q.val)

/-- WAITV_SATISFIED (R295): A command's wait fence reaches its target and the command starts, or fails with
FENCE_ERROR. -/
def execWaitvSatisfied (q : QueueId) (s : State) : Host.Outcome State Fault Refusal :=
  s.answer (s.waitvSatisfied q.val)

/-- QUANTUM_EXPIRY (R309): The running job's quantum ends and the scheduler switches to the next ready job. -/
def execQuantumExpiry (forme : BitVec 32) (far : List (BitVec 32)) (s : State) : Host.Outcome State Fault Refusal :=
  s.answer (s.quantumExpiry forme.toNat (far.map fun j => j.toNat))

/-- GANG_SWITCH (R310): Every compute member stops, saves and restores state and resumes the next job. -/
def execGangSwitch (forme : BitVec 32) (member : BitVec 16) (job : BitVec 32) (s : State) : Host.Outcome State Fault Refusal :=
  s.answer (s.gangSwitch forme.toNat member.toNat job.toNat)

/-- SWITCH_DONE (R310): A member's cores issue again and it returns SWITCHED to the master. -/
def execSwitchDone (forme : BitVec 32) (member : BitVec 16) (s : State) : Host.Outcome State Fault Refusal :=
  s.answer (s.switchEnds forme.toNat member.toNat)

/-- LEASE_EXPIRY (R315): A context's lease expires and teardown begins with reason LEASE. -/
def execLeaseExpiry (ctx : BitVec 16) (s : State) : Host.Outcome State Fault Refusal :=
  s.answer (s.leaseExpiry ctx.toNat)

/-- LOSS_REPORT (R316): The forme master receives a loss report and marks the job's other contexts lost. -/
def execLossReport (forme job : BitVec 32) (member : BitVec 16) (s : State) : Host.Outcome State Fault Refusal :=
  s.answer (s.lossReport forme.toNat job.toNat member.toNat)

/-- TEARDOWN_DRAIN_COMPLETE (R319): All requests of a TEARING context complete and teardown proceeds to erase, free,
fences and signal. -/
def execTeardownDrainComplete (ctx : BitVec 16) (s : State) : Host.Outcome State Fault Refusal :=
  s.answer (s.teardownDrained ctx.toNat)

/-- TEARDOWN_DRAIN_TIMEOUT (R319): The 20 ms drain bound passes and the ladder ends the rest with DRAIN_FORCED. -/
def execTeardownDrainTimeout (ctx : BitVec 16) (s : State) : Host.Outcome State Fault Refusal :=
  s.answer (s.teardownForced ctx.toNat)

end Sys2Proof.Machine
end

