-- ==== Sys2Proof/Machine/Keys.lean ====
section
/-! DEFINITION. Sessions, key and window commands, attestation, the life cycle and the security version floor (R387 to R388,
R394 to R401, R406 to R417, R424 to R427). -/

namespace Sys2Proof.Machine

/-! ### Refusal details (Table 13-12) -/

namespace Kd
def handleInUse : Nat := 0x30
def noHandle : Nat := 0x31
def keyType : Nat := 0x32
def keyOwner : Nat := 0x33
def windowRange : Nat := 0x34
def windowFull : Nat := 0x35
def shareFull : Nat := 0x36
def sessionInUse : Nat := 0x37
def attLeaves : Nat := 0x38
def token : Nat := 0x39
def svnNone : Nat := 0x3A
end Kd

/-! ### Certificates and the colophon (R426, R427) -/

/-- Bytes whose values the specification leaves open. -/
def State.drawBytes (s : State) (n : Nat) : List Byte × State :=
  (leBytes (Config.freeBits (8 * n) s.fresh.1).toNat n, s.fresh.2)

/-- The first `n` bytes, with zeros after a shorter list: what a field of `n` bytes holds. -/
def fieldBytes (n : Nat) (l : List Byte) : List Byte := (l ++ List.replicate n 0).take n

/-- The colophon of a nonce and a transcript: its fields are stated, its two signatures open (Table 13-15). It spends one leaf of
the per-boot tree. -/
def State.colophon (s : State) (nonce transcript : List Byte) : List Byte × State :=
  let k := s.sec
  let m (i : Nat) : List Byte := leBytes (k.measures.getD i 0).toNat 48
  let head := leBytes 0x4E504C43 4 ++ leBytes 1 1 ++ leBytes k.lc 1 ++ leBytes k.certGen 2 ++ leBytes k.serial 14 ++ leBytes k.hwRev 2 ++
    leBytes k.q 4 ++ leBytes k.colophons 2 ++ leBytes (if s.fabV then s.fabAddr else 0) 2 ++ leBytes k.svn 4 ++ leBytes k.svnRun 4 ++
    fieldBytes 48 nonce ++ fieldBytes 48 transcript ++
    m 0 ++ m 1 ++ m 2 ++ m 3 ++
    leBytes (if k.lc < 2 then 0 else (Config.sha384 (leBytes k.ownerEc.toNat 48 ++ leBytes k.ownerLms.toNat 48)).toNat) 48 ++ leBytes 0 8
  let sigs := s.drawBytes 1548
  (head ++ sigs.1, { sigs.2 with sec := { sigs.2.sec with colophons := k.colophons + 1 } })

/-- The identity certificate of generation `g` (R426, Table 13-14) over subject keys and signatures that the specification leaves open. It
carries the serial number (R4). -/
def Security.identityCert (k : Security) (g : Nat) (keys sigs : List Byte) : List Byte :=
  leBytes 0x43525453 4 ++ leBytes 1 1 ++ leBytes 2 1 ++ leBytes 0 2 ++ leBytes k.serial 14 ++ leBytes k.hwRev 2 ++ leBytes g 4 ++ leBytes 0 4 ++
    fieldBytes 152 keys ++ leBytes 0 56 ++ fieldBytes 1868 sigs

/-- An identity generation is certified (R388, R394): its certificate, the issuing certificate that ends the token, and the cached nodes of its
tree are written to the identity area (R422). -/
def State.certify (s : State) (g : Nat) (token : List Byte) : State :=
  let keys := s.drawBytes 152
  let sigs := keys.2.drawBytes 1868
  let f := sigs.2.fresh
  let item : IdentityItem := ⟨s.sec.identityCert g keys.1 sigs.1, (token.drop 2044).take 2108, Config.treeNodes f.1⟩
  { f.2 with pm := { f.2.pm with identity := Tbl.set f.2.pm.identity g item } }

/-- The identity and issuing certificates of the generation in use, from the boot flash. Where it holds none, an identity certificate with
open keys, and an open issuing certificate. -/
def State.idCertificates (s : State) : List Byte × State :=
  match Tbl.find s.pm.identity s.sec.certGen with
  | some i => (fieldBytes 2108 i.cert ++ fieldBytes 2108 i.issuing, s)
  | none =>
    let keys := s.drawBytes 152
    let sigs := keys.2.drawBytes 1868
    let issuing := sigs.2.drawBytes 2108
    (s.sec.identityCert s.sec.certGen keys.1 sigs.1 ++ issuing.1, issuing.2)

/-- The three certificates that follow a colophon: boot, identity and issuing (R410, R426). Keys and signatures of the boot certificate are
open. -/
def State.certificates (s : State) : List Byte × State :=
  let k := s.sec
  let keys := s.drawBytes 152
  let sigs := keys.2.drawBytes 1708
  let others := sigs.2.idCertificates
  let m := (List.range 4).flatMap fun i => leBytes (k.measures.getD i 0).toNat 48
  (leBytes 0x43525453 4 ++ leBytes 1 1 ++ leBytes 3 1 ++ leBytes 0 2 ++ leBytes k.serial 14 ++ leBytes k.hwRev 2 ++ leBytes k.q 4 ++
    leBytes k.svnRun 4 ++ keys.1 ++ leBytes (Config.sha384 m).toNat 48 ++ leBytes 0 8 ++ sigs.1 ++ others.1, others.2)

/-! ### Sessions (R410 to R412) -/

/-- A free handle for an entry of the module's choice (R395): the lowest. -/
def State.freeHandle (s : State) : Option Nat :=
  (rangeFrom 0x040 0xFC0).find? fun h => !(s.key h).valid && !(s.key h).staged

/-- Whether a 1,568-byte ML-KEM-1024 encapsulation key passes the modulus check of FIPS 203: its 1,024 coefficients of twelve bits
are below 3,329. -/
def kemKeyGood (b : List Byte) : Bool :=
  decide (b.length = 1568) && (List.range 512).all fun i =>
    decide (bits (atBytes b (3 * i) 3) 11 0 < 3329) && decide (bits (atBytes b (3 * i) 3) 23 12 < 3329)

/-- Write an answer to the address of ARG2 with the memory key of ARG1 (R410, R415). -/
def State.writeAnswer (s : State) (c : Cmd) (data : List Byte) : State :=
  (s.hostWrite c.conn (c.arg 2) (bits (c.arg 1) 31 0) data .plain).getD s

/-- SESSION_OPEN (R410, R411): the offer is read, the session formed and the attested answer written. -/
def State.sessionOpen (s : State) (q : Nat) : State :=
  s.onBulk q 0x50 fun s c b =>
    if b.length < 1720 ∨ atBytes b 0 4 ≠ 1 ∨ !kemKeyGood ((b.take 1720).drop 152) then s.refuseCmd q c Dt.field
    else if !s.sec.canAttest then s.refuseCmd q c Kd.attLeaves
    else
      match s.freeHandle with
      | none => s.refuseCmd q c Kd.noHandle
      | some h =>
        let n := s.keySerial + 1
        let s := { s with
          keySerial := n
          keys := Tbl.set s.keys h { KeyEntry.reset with type := .session, valid := true, engines := 0x28, key := .random n, order := n }
          sessions := Tbl.set s.sessions h ⟨s.ltime, n, [], []⟩ }
        let mine := s.drawBytes 1664
        let part1 := leBytes (1 + h * 2 ^ 32) 8 ++ mine.1
        let col := mine.2.colophon ((b.drop 8).take 48) (leBytes (Config.sha384 (b.take 1720 ++ part1)).toNat 48)
        let cert := col.2.certificates
        (cert.2.writeAnswer c (part1 ++ col.1 ++ cert.1)).okCmd q c [BitVec.ofNat 64 h]

/-- SESSION_CLOSE (R412): sealed under the session that it closes. -/
def State.sessionClose (s : State) (q : Nat) : State :=
  s.onCmd q 0x51 fun s c =>
    let h := bits (c.arg 0) 11 0
    if c.session ≠ h ∨ (s.session h).isNone then s.finish q c.place { status := St.badSeal }
    else if s.sessionBound h 0 then s.refuseCmd q c Kd.sessionInUse
    else (s.okCmd q c).destroySession h

/-- SESSION_EXPIRY (R412): 60 s after SESSION_OPEN while no context is bound. -/
def State.sessionExpiry (s : State) (h : Nat) : State :=
  match s.session h with
  | none => s
  | some k => if s.sessionBound h 0 then s else (s.advanceTo (k.opened + 60 * 10 ^ 9)).destroySession h

/-! ### Installing and destroying keys (R395, R397, R399, R415 to R417) -/

/-- The type that a KEY_INSTALL may name. -/
def installType (t : Nat) : Option KeyType :=
  if t = 4 then some .mem else if t = 5 then some .link else if t = 7 then some .access else none

/-- The ENGINES bits that a type allows (Table 13-7). -/
def KeyType.allows : KeyType → Nat
  | .mem => 0x01
  | .link => 0x06
  | .access => 0x10
  | _ => 0

/-- A share list for a new entry: the one named, or a new empty one (R399). -/
def State.freeShare (s : State) (asked : Nat) : Option Nat :=
  if asked = 0 then (rangeFrom 1 255).find? fun i => (Tbl.find s.shares i).isNone
  else if (Tbl.find s.shares asked).isNone then some asked else none

/-- KEY_INSTALL (R416). -/
def State.keyInstall (s : State) (q : Nat) : State :=
  s.onCmd q 0x52 fun s c =>
    let a := c.arg 0
    let staged := bit a 25
    let n := (s.queue q).ctx
    let p := (s.ctx n).part
    let asked := bits a 11 0
    if staged ≠ decide (q = 0) then s.finish q c.place { status := St.wrongQueue }
    else if c.session = 0 then s.finish q c.place { status := St.badSeal }
    else if asked ≠ 0 ∧ asked < 0x040 then s.refuseCmd q c Kd.keyType
    else if asked ≠ 0 ∧ ((s.key asked).valid ∨ (s.key asked).staged) then s.refuseCmd q c Kd.handleInUse
    else
      match (if asked = 0 then s.freeHandle else some asked), installType (bits a 15 12) with
      | none, _ => s.refuseCmd q c Kd.noHandle
      | _, none => s.refuseCmd q c Kd.keyType
      | some h, some t =>
        let eng := bits a 21 16
        let limit := bits a 31 26
        if eng &&& t.allows ≠ eng ∨ (t = .link ∧ limit ≠ 0) then s.refuseCmd q c Kd.keyType
        else if !staged && bit a 24 && !s.ctxBound n p then s.refuseCmd q c Kd.keyOwner
        else
          match s.freeShare (bits (c.arg 2) 7 0) with
          | none => s.refuseCmd q c Kd.shareFull
          | some l =>
            let serial := s.keySerial + 1
            let owner := if staged then 0 else if bit a 24 then 0xFFFF else n
            let e : KeyEntry := { KeyEntry.reset with
              type := t, valid := true, expire := bit a 22, staged := staged, engines := BitVec.ofNat 6 eng, owner := owner, share := l,
              part := if owner = 0xFFFF then p else 0, limitLog := if t = .link then 32 else limit,
              stageForme := if staged then bits (c.arg 1) 31 0 else 0, stageMember := if staged then bits (c.arg 1) 47 32 else 0,
              key := .material (BitVec.ofNat 256 (leNat ((List.range 4).flatMap fun i => leBytes (c.word2 i) 8))), order := serial,
              stageSession := (Tbl.get (⟨0, 0, [], []⟩ : Session) s.sessions c.session).serial }
            let s := { s with keySerial := serial, keys := Tbl.set s.keys h e, shares := Tbl.set s.shares l ⟨h, []⟩ }
            let s := if bit a 23 ∧ t = .link then (if staged then s.modKey h fun k => { k with current := true } else s.makeCurrent h) else s
            s.okCmd q c [BitVec.ofNat 64 h]

/-- Whether context `n` owns entry `h` and its command was sealed: the refusal otherwise (R415). -/
def State.keyRefusal (s : State) (n h : Nat) : Nat :=
  if (s.key h).valid && decide ((s.key h).owner = n) && decide (n ≠ 0) && decide (0x040 ≤ h) then 0 else Kd.keyOwner

/-- KEY_DESTROY (R402). -/
def State.keyDestroy (s : State) (q : Nat) : State :=
  s.onCmd q 0x53 fun s c =>
    let h := bits (c.arg 0) 11 0
    let why := s.keyRefusal (s.queue q).ctx h
    if c.session = 0 then s.finish q c.place { status := St.badSeal }
    else if why ≠ 0 then s.refuseCmd q c why
    else (s.destroyKey h).okCmd q c

/-- The principals that a SHARE_SET names (R399, R415). -/
def sharePrincipals (c : Cmd) : List Nat :=
  (List.range (bits (c.arg 0) 18 14)).map fun i => bits (c.word2 (i / 2)) (32 * (i % 2) + 31) (32 * (i % 2))

/-- SHARE_SET with one of its operations: what becomes of the members. -/
def State.shareSet (s : State) (q op : Nat) (f : List Nat → List Nat → List Nat) : State :=
  match s.next q fun c => c.opc == 0x54 && decide (bits (c.arg 0) 13 12 = op) with
  | none => s
  | some c =>
    let s := s.start q c
    let h := bits (c.arg 0) 11 0
    let ps := sharePrincipals c
    let why := s.keyRefusal (s.queue q).ctx h
    let l := (s.key h).share
    let now := f (Tbl.get (⟨0, []⟩ : ShareList) s.shares l).members ps
    if c.session = 0 then s.finish q c.place { status := St.badSeal }
    else if ps.isEmpty ∨ 16 < ps.length ∨ (ps.any fun x => decide (2 ^ 17 ≤ x)) then s.refuseCmd q c Dt.field
    else if why ≠ 0 then s.refuseCmd q c why
    else if 64 < now.length then s.refuseCmd q c Kd.shareFull
    else ({ s with shares := Tbl.set s.shares l ⟨h, now⟩ } : State).okCmd q c

/-- Principals each once, in their order. -/
def onceEach : List Nat → List Nat
  | [] => []
  | a :: r => a :: (onceEach r).filter fun b => b ≠ a

/-- SHARE_SET replace. -/
def State.shareReplace (s : State) (q : Nat) : State := s.shareSet q 0 fun _ new => onceEach new

/-- SHARE_SET add. -/
def State.shareAdd (s : State) (q : Nat) : State := s.shareSet q 1 fun old new => onceEach (old ++ new)

/-- SHARE_SET remove. -/
def State.shareRemove (s : State) (q : Nat) : State := s.shareSet q 2 fun old new => old.filter fun m => !new.contains m

/-! ### Windows (R406, R407) -/

/-- Whether allocations cover a range without a gap: `fuel` bounds the steps. -/
def coversRange (l : List Alloc) (at_ stop : Nat) : Nat → Bool
  | 0 => decide (stop ≤ at_)
  | fuel + 1 =>
    if stop ≤ at_ then true
    else match l.find? fun a => decide (a.base ≤ at_ ∧ at_ < a.base + a.size) with
      | some a => coversRange l (a.base + a.size) stop fuel
      | none => false

/-- The refusal of a window, 0 for none (R407). -/
def State.windowRefusal (s : State) (n keyh base len : Nat) : Nat :=
  let p := (s.ctx n).part
  let q := s.part p
  let e := s.key keyh
  let residency := decide (e.owner = 0xFFFF)
  let fixed := q.allocs.filter fun a => match a.kind with
    | .save _ | .const => true
    | _ => false
  let lies (l : List Alloc) : Bool := coversRange l base (base + len) (l.length + 1)
  let placed := lies (q.allocs.filter fun a => decide (a.ctx = n)) || (residency && lies (q.allocs.filter fun a => a.kind == .shared)) ||
    !(q.allocs.any fun a => meet base len a.base a.size)
  if e.type ≠ .mem ∨ !e.valid ∨ e.staged ∨ !(decide (e.owner = n) || (residency && decide (e.part = p))) then Kd.keyOwner
  else if base % 4096 ≠ 0 ∨ len % 4096 ≠ 0 ∨ len = 0 ∨ !q.lay.inSegment base len ∨ !placed then Kd.windowRange
  else if (q.windows.any fun w => meet base len w.2.base w.2.length) ∨ (fixed.any fun a => meet base len a.base a.size) then Kd.windowRange
  else if 64 ≤ q.windows.length then Kd.windowFull
  else 0

/-- WINDOW with one of its operations, on the member that it names. -/
def State.windowCmd (s : State) (src : CmdSource) (op : Nat) (act : State → Nat → List Word64 → Did) : State :=
  s.onMember src 0x55 (fun c => decide (bits (c.arg 0) 7 6 = op)) (fun c => bits (c.arg 0) 35 20) act fun _ => []

/-- WINDOW install (R407). -/
def State.windowInstall (s : State) (src : CmdSource) : State :=
  s.windowCmd src 0 fun s n a =>
    let p := (s.ctx n).part
    let i := bits (argAt a 0) 5 0
    let keyh := bits (argAt a 0) 19 8
    let base := bits (argAt a 1) 39 0
    let len := bits (argAt a 2) 39 0
    let why := s.windowRefusal n keyh base len
    if (Tbl.find (s.part p).windows i).isSome then (Dt.field, 0, s)
    else if why ≠ 0 then (why, 0, s)
    else (0, 0, (s.keepTables p).modPart p fun q => { q with windows := Tbl.set q.windows i ⟨base, len, keyh, n⟩ })

/-- WINDOW remove (R407): only by its owner. -/
def State.windowRemove (s : State) (src : CmdSource) : State :=
  s.windowCmd src 1 fun s n a =>
    let p := (s.ctx n).part
    let i := bits (argAt a 0) 5 0
    match Tbl.find (s.part p).windows i with
    | some w => if w.owner = n then (0, 0, (s.keepTables p).modPart p fun q => { q with windows := Tbl.del q.windows i }) else (Kd.keyOwner, 0, s)
    | none => (Kd.keyOwner, 0, s)

/-! ### Attestation, life cycle, version floor (R388, R415, R425, R427) -/

/-- ATTEST (R427): the colophon of a nonce with its certificates, TRANSCRIPT zero. -/
def State.attest (s : State) (q : Nat) : State :=
  s.onBulk q 0x56 fun s c b =>
    if b.length < 48 then s.refuseCmd q c Dt.field
    else if !s.sec.canAttest then s.refuseCmd q c Kd.attLeaves
    else
      let col := s.colophon (b.take 48) []
      let cert := col.2.certificates
      (cert.2.writeAnswer c (col.1 ++ cert.1)).okCmd q c

/-- Life-cycle operations of a token (Table 13-3). -/
def knownLifeOp (op : Nat) : Bool := decide (1 ≤ op ∧ op ≤ 5)

/-- Whether a token's keys are those whose hashes CLAIM wrote (Table 13-4). -/
def State.ownersMatch (s : State) (b : List Byte) : Bool :=
  Config.sha384 ((b.drop 24).take 96) == s.sec.ownerEc && Config.sha384 ((b.drop 120).take 56) == s.sec.ownerLms

/-- Whether the LIFECYCLE row of operation `op` takes a command: its token names that operation or none that is known, or has not been
read. -/
def Cmd.isLife (c : Cmd) (op : Nat) : Bool :=
  c.opc == 0x57 && (match c.bulk with
    | some b => decide (atBytes b 5 1 = op) || !knownLifeOp (atBytes b 5 1) || decide (b.length < 272)
    | none => true)

/-- Whether a token is one for operation `op` on this module (Table 13-4); `sigs` says whether both its signatures verify. -/
def State.tokenGood (s : State) (op : Nat) (sigs : Bool) (b : List Byte) : Bool :=
  decide (272 ≤ b.length) && decide (atBytes b 0 4 = 0x4B4F544C) && decide (atBytes b 4 1 = 1) && decide (atBytes b 5 1 = op) &&
    decide (atBytes b 8 14 = s.sec.serial) && sigs

/-- A LIFECYCLE command with operation `op`: `sigs` says whether both signatures verify under the keys that Table 13-4 names. The
transition is taken by `act`, `none` where the present state has none. A token of no known operation is refused whichever of
the five commands takes it. -/
def State.lifecycle (s : State) (q op : Nat) (sigs : Bool) (act : State → List Byte → Option State) : State :=
  match s.next q fun c => c.isLife op with
  | none => s
  | some c =>
    match c.bulk with
    | none => if c.bulkAsked then s else s.askBulk q c
    | some b =>
      let s := s.start q c
      match (if s.tokenGood op sigs b then act ((s.okCmd q c).secRecord 0x07 0) b else none) with
      | some t => t
      | none => s.refuseCmd q c Kd.token

/-- The life-cycle state is written (R389). -/
def State.setLife (s : State) (lc : Nat) : State := { s with sec := s.sec.toLife lc }

/-- PROVISION: identity generation 0 is certified, and its certificate written to the flash. -/
def State.provision (s : State) (q : Nat) (sigs : Bool) : State :=
  s.lifecycle q 1 sigs fun s b =>
    if s.sec.lc = 0 then some (({ (s.setLife 1) with sec := { (s.setLife 1).sec with gen0Cert := true } } : State).certify 0 b) else none

/-- CLAIM: the hashes of the owner's keys are written, with their digests (R391). -/
def State.claim (s : State) (q : Nat) (sigs : Bool) : State :=
  s.lifecycle q 2 sigs fun s b =>
    if s.sec.lc = 1 then
      some { s with sec := (({ s.sec.toLife 2 with
        ownerEc := Config.sha384 ((b.drop 24).take 96), ownerLms := Config.sha384 ((b.drop 120).take 56) } : Security).seal 4).seal 5 }
    else none

/-- RETURN: the key register is cleared, the module reset, and the state written. -/
def State.returnDevice (s : State) (q : Nat) (sigs : Bool) : State :=
  s.lifecycle q 3 sigs fun s b =>
    if s.sec.lc = 2 ∧ s.ownersMatch b then some (s.moduleReset.setLife 3) else none

/-- SCRAP: from FIELD as RETURN, from RETURN the state alone. -/
def State.scrap (s : State) (q : Nat) (sigs : Bool) : State :=
  s.lifecycle q 4 sigs fun s b =>
    if s.sec.lc = 2 ∧ s.ownersMatch b then some (s.moduleReset.setLife 4)
    else if s.sec.lc = 3 then some (s.setLife 4) else none

/-- REPROVISION (R394): generation 1 is enabled and certified. -/
def State.reprovision (s : State) (q : Nat) (sigs : Bool) : State :=
  s.lifecycle q 5 sigs fun s b =>
    if s.sec.lc = 2 then some (({ s with sec := { s.sec with gen1 := true, gen1Cert := true } } : State).certify 1 b) else none

/-- SVN_COMMIT (R425). -/
def State.svnCommit (s : State) (q : Nat) : State :=
  s.onCmd q 0x58 fun s c =>
    let v := min s.sec.svnRun 256
    if v ≤ s.sec.svn then s.refuseCmd q c Kd.svnNone
    else ({ s with sec := { s.sec with svn := v } } : State).okCmd q c [BitVec.ofNat 64 v]

end Sys2Proof.Machine
end

