-- ==== Sys2Proof/Machine/KeyRows.lean ====
section
/-! DEFINITION. The meanings of the rows of sessions, keys, windows, attestation and the life cycle (R388 to R427). -/

namespace Sys2Proof.Machine

/-- SESSION_OPEN (R410): Reads an offer, forms a hybrid session and writes the attested answer. -/
def execSessionOpen (q : QueueId) (s : State) : Host.Outcome State Fault Refusal :=
  s.answer (s.sessionOpen q.val)

/-- SESSION_CLOSE (R412): Destroys a session with no bound context. -/
def execSessionClose (q : QueueId) (s : State) : Host.Outcome State Fault Refusal :=
  s.answer (s.sessionClose q.val)

/-- SESSION_EXPIRY (R412): A session with no bound context is destroyed 60 s after opening. -/
def execSessionExpiry (session : BitVec 16) (s : State) : Host.Outcome State Fault Refusal :=
  s.answer (s.sessionExpiry session.toNat)

/-- KEY_INSTALL (R416): Installs a key entry owned by the context, residency or staged for a move. -/
def execKeyInstall (q : QueueId) (s : State) : Host.Outcome State Fault Refusal :=
  s.answer (s.keyInstall q.val)

/-- KEY_DESTROY (R402): Destroys a key entry and invalidates engine caches. -/
def execKeyDestroy (q : QueueId) (s : State) : Host.Outcome State Fault Refusal :=
  s.answer (s.keyDestroy q.val)

/-- SHARE_SET_REPLACE (R399): Replaces a key entry's share list. -/
def execShareSetReplace (q : QueueId) (s : State) : Host.Outcome State Fault Refusal :=
  s.answer (s.shareReplace q.val)

/-- SHARE_SET_ADD (R399): Adds principals to a share list. -/
def execShareSetAdd (q : QueueId) (s : State) : Host.Outcome State Fault Refusal :=
  s.answer (s.shareAdd q.val)

/-- SHARE_SET_REMOVE (R399): Removes principals from a share list. -/
def execShareSetRemove (q : QueueId) (s : State) : Host.Outcome State Fault Refusal :=
  s.answer (s.shareRemove q.val)

/-- WINDOW_INSTALL (R407): Installs a key window after its checks. -/
def execWindowInstall (src : CmdSource) (s : State) : Host.Outcome State Fault Refusal :=
  s.answer (s.windowInstall src)

/-- WINDOW_REMOVE (R407): Removes the owner's key window. -/
def execWindowRemove (src : CmdSource) (s : State) : Host.Outcome State Fault Refusal :=
  s.answer (s.windowRemove src)

/-- ATTEST (R427): Signs a colophon over a nonce and writes it with the certificates. -/
def execAttest (q : QueueId) (s : State) : Host.Outcome State Fault Refusal :=
  s.answer (s.attest q.val)

/-- PROVISION (R388): Life-cycle token moving BLANK to PROVISIONED and certifying identity generation 0. -/
def execProvision (q : QueueId) (sigs : Bool) (s : State) : Host.Outcome State Fault Refusal :=
  s.answer (s.provision q.val sigs)

/-- CLAIM (R388): Life-cycle token moving PROVISIONED to FIELD and writing owner key hashes. -/
def execClaim (q : QueueId) (sigs : Bool) (s : State) : Host.Outcome State Fault Refusal :=
  s.answer (s.claim q.val sigs)

/-- RETURN (R388): Life-cycle token moving FIELD to RETURN, clearing keys and rebooting. -/
def execReturnDevice (q : QueueId) (sigs : Bool) (s : State) : Host.Outcome State Fault Refusal :=
  s.answer (s.returnDevice q.val sigs)

/-- SCRAP (R388): Life-cycle token moving FIELD or RETURN to SCRAP. -/
def execScrap (q : QueueId) (sigs : Bool) (s : State) : Host.Outcome State Fault Refusal :=
  s.answer (s.scrap q.val sigs)

/-- REPROVISION (R394): Life-cycle token enabling identity generation 1. -/
def execReprovision (q : QueueId) (sigs : Bool) (s : State) : Host.Outcome State Fault Refusal :=
  s.answer (s.reprovision q.val sigs)

/-- SVN_COMMIT (R425): Raises the OTP security version floor. -/
def execSvnCommit (q : QueueId) (s : State) : Host.Outcome State Fault Refusal :=
  s.answer (s.svnCommit q.val)

/-- PACKET_SEAL (R463): The egress link island seals a tenant packet under the current link key. -/
def execPacketSeal (s : State) : Host.Outcome State Fault Refusal :=
  s.answer s.packetSeal

end Sys2Proof.Machine
end

