-- ==== Sys2Proof/Machine/LinkRows.lean ====
section
/-! DEFINITION. The meanings of the rows of the Mbamar links, their packets, the routing table and the addressing walk (R453 to R475). -/

namespace Sys2Proof.Machine

/-- LINK_TRAINING (R454): A link trains through detect, equalise, align, identify, guard and credits. -/
def execLinkTraining (link : LinkId) (s : State) : Host.Outcome State Fault Refusal :=
  s.answer (s.linkTraining link.val)

/-- TRAINING_STEP_OVERRUN (R454): A training step overruns its bound and training restarts or the link stays DOWN. -/
def execTrainingStepOverrun (link : LinkId) (s : State) : Host.Outcome State Fault Refusal :=
  s.answer (s.trainOverrun link.val)

/-- TRAIN (R454): A TRAIN flit exchanges identity, address and LINK_EPOCH. -/
def execTrain (link : LinkId) (serial : BitVec 112) (plink : LinkId) (fab : BitVec 16) (fabV : Bool) (epoch : BitVec 16) (rtt : Nat)
    (s : State) : Host.Outcome State Fault Refusal :=
  s.answer (s.trainReceived link.val serial.toNat plink.val fab.toNat fabV epoch.toNat rtt)

/-- HELLO (R459): A guard HELLO with nonce and ephemeral keys is received. -/
def execHello (link : LinkId) (s : State) : Host.Outcome State Fault Refusal :=
  s.answer (s.helloReceived link.val)

/-- PROOF (R460): A guard PROOF is verified, keying the link or rejecting it. -/
def execProof (link : LinkId) (sigs nonce : Bool) (state : BitVec 4) (config : BitVec 384) (s : State) : Host.Outcome State Fault Refusal :=
  s.answer (s.proofReceived link.val sigs nonce state.toNat config)

/-- FLIT_RECEIVE (R457): A flit is accepted in order or triggers a NAK. -/
def execFlitReceive (link : LinkId) (f : Flit) (told : Told) (s : State) : Host.Outcome State Fault Refusal :=
  s.answer (s.flitReceive link.val f told)

/-- NAK (R457): A NAK flit makes the transmitter replay every flit after ACKSEQ. -/
def execNak (link : LinkId) (ackSeq : BitVec 12) (s : State) : Host.Outcome State Fault Refusal :=
  s.answer (s.nakReceived link.val ackSeq.toNat)

/-- DOWN (R458): A DOWN flit from the partner takes the link down. -/
def execLinkDown (link : LinkId) (s : State) : Host.Outcome State Fault Refusal :=
  s.answer (s.downReceived link.val)

/-- BLOCK_LOCK_LOSS (R458): No block lock for 1 µs takes the link down. -/
def execBlockLockLoss (link : LinkId) (s : State) : Host.Outcome State Fault Refusal :=
  s.answer (s.lockLoss link.val)

/-- DETOUR_RECORD_EXPIRY (R469): After 1 ms the partner drops its record of the lost link's last FSEQ. -/
def execDetourRecordExpiry (link : LinkId) (s : State) : Host.Outcome State Fault Refusal :=
  s.answer (s.detourExpiry link.val)

/-- READ (R462): A peer READ packet is served at the destination member. -/
def execRead (link : LinkId) (p : Packet) (s : State) : Host.Outcome State Fault Refusal :=
  s.answer (s.peerRow link.val PT.read p)

/-- WRITE (R462): A peer WRITE packet is applied at the destination member. -/
def execWrite (link : LinkId) (p : Packet) (s : State) : Host.Outcome State Fault Refusal :=
  s.answer (s.peerRow link.val PT.write p)

/-- MEMOP (R203): A peer MEMOP packet is applied at the destination controller. -/
def execMemop (link : LinkId) (p : Packet) (s : State) : Host.Outcome State Fault Refusal :=
  s.answer (s.peerRow link.val PT.memop p)

/-- READ_RESP (R462): A read response returns data to the issuer. -/
def execReadResp (link : LinkId) (p : Packet) (s : State) : Host.Outcome State Fault Refusal :=
  s.answer (s.packetRow link.val PT.readResp p Told.none)

/-- PACKET_ACK (R462): An ACK packet completes a peer write or operation at the issuer. -/
def execPacketAck (link : LinkId) (p : Packet) (s : State) : Host.Outcome State Fault Refusal :=
  s.answer (s.packetRow link.val PT.ack p Told.none)

/-- NACK (R466): A NACK completes the issuer's request UNREACHABLE. -/
def execNack (link : LinkId) (p : Packet) (s : State) : Host.Outcome State Fault Refusal :=
  s.answer (s.packetRow link.val PT.nack p Told.none)

/-- CTRL (R238): A CTRL packet delivers a control message to the destination hub. -/
def execCtrl (link : LinkId) (p : Packet) (s : State) : Host.Outcome State Fault Refusal :=
  s.answer (s.packetRow link.val PT.ctrl p Told.none)

/-- RECOV (R281): A RECOV packet delivers a recovery or compositor message, assembling multi-packet data. -/
def execRecov (link : LinkId) (p : Packet) (told : Told) (s : State) : Host.Outcome State Fault Refusal :=
  s.answer (s.packetRow link.val PT.recov p told)

/-- QUERY (R471): A module answers a walk QUERY with QUERY_ANS. -/
def execQuery (link : LinkId) (b : WalkBody) (s : State) : Host.Outcome State Fault Refusal :=
  s.answer (s.walkQuery link.val b)

/-- QUERY_ANS (R471): The root records a discovered module and extends routes. -/
def execQueryAns (b : WalkBody) (s : State) : Host.Outcome State Fault Refusal :=
  s.answer (s.walkQueryAns b)

/-- QUERY_TIMEOUT (R471): An unanswered query is resent or the module treated as absent. -/
def execQueryTimeout (route : List LinkId) (s : State) : Host.Outcome State Fault Refusal :=
  s.answer (s.walkQueryTimeout (route.map fun l => l.val))

/-- ASSIGN (R472): A module takes its address, writes tree routes and answers ASSIGN_ACK. -/
def execAssign (link : LinkId) (b : WalkBody) (routes : Bool) (s : State) : Host.Outcome State Fault Refusal :=
  s.answer (s.walkAssigned link.val b routes)

/-- ASSIGN_ACK (R472): The root records an assignment and writes WALK_DONE when all are in. -/
def execAssignAck (b : WalkBody) (s : State) : Host.Outcome State Fault Refusal :=
  s.answer (s.walkAssignAck b)

/-- WALK_START (R471): A write of 1 on the root starts an addressing walk. -/
def execWalkStart (m : Master) (v : Bool) (s : State) : Host.Outcome State Fault Refusal :=
  s.answer (s.walkStartWrite m v)

/-- ROUTING_ENTRY_WRITE (R468): A routing entry write takes effect in all link islands within 1 µs. -/
def execRoutingEntryWrite (m : Master) (addr mask : BitVec 16) (s : State) : Host.Outcome State Fault Refusal :=
  s.answer (s.routeRow m addr.toNat mask.toNat)

/-- RETRAIN (R454): A write of 1 takes the link down and retrains it. -/
def execRetrain (m : Master) (link : LinkId) (v : Bool) (s : State) : Host.Outcome State Fault Refusal :=
  s.answer (s.retrainWrite m link.val v)

/-- DISABLE (R458): A write takes the link down and keeps it down, or re-enables it. -/
def execDisable (m : Master) (link : LinkId) (v : Bool) (s : State) : Host.Outcome State Fault Refusal :=
  s.answer (s.disableWrite m link.val v)

end Sys2Proof.Machine
end

