-- ==== Sys2Proof/Machine/ManageRows.lean ====
section
/-! DEFINITION. The meanings of the rows of the management bus, the firmware update and the registers without a row of their own
(R40, R290, R512 to R531). -/

namespace Sys2Proof.Machine

/-- ENTDAA (R512): The module takes a dynamic I3C address. -/
def execEntdaa (da : BitVec 7) (s : State) : Host.Outcome State Fault Refusal :=
  s.answer (s.entdaa da.toNat)

/-- RSTDAA (R512): The module's dynamic address is reset until the next ENTDAA. -/
def execRstdaa (s : State) : Host.Outcome State Fault Refusal :=
  s.answer s.rstdaa

/-- SETNEWDA (R512): The module takes a new dynamic address. -/
def execSetnewda (da : BitVec 7) (s : State) : Host.Outcome State Fault Refusal :=
  s.answer (s.setnewda da.toNat)

/-- GETPID (R512): Returns the provisional ID. -/
def execGetpid (s : State) : Host.Outcome State Fault Refusal :=
  s.answer s.getPid

/-- GETBCR (R512): Returns the bus characteristics register. -/
def execGetbcr (s : State) : Host.Outcome State Fault Refusal :=
  s.answer s.getBcr

/-- GETDCR (R512): Returns the device characteristics register. -/
def execGetdcr (s : State) : Host.Outcome State Fault Refusal :=
  s.answer s.getDcr

/-- GETSTATUS (R512): Returns the target status. -/
def execGetstatus (s : State) : Host.Outcome State Fault Refusal :=
  s.answer s.getStatus

/-- ENEC (R512): Enables target events. -/
def execEnec (mask : BitVec 8) (s : State) : Host.Outcome State Fault Refusal :=
  s.answer (s.enec mask)

/-- DISEC (R512): Disables target events. -/
def execDisec (mask : BitVec 8) (s : State) : Host.Outcome State Fault Refusal :=
  s.answer (s.disec mask)

/-- SETMWL (R512): Sets the maximum write length. -/
def execSetmwl (n : BitVec 16) (s : State) : Host.Outcome State Fault Refusal :=
  s.answer (s.setMwl n.toNat)

/-- SETMRL (R512): Sets the maximum read length. -/
def execSetmrl (n : BitVec 16) (s : State) : Host.Outcome State Fault Refusal :=
  s.answer (s.setMrl n.toNat)

/-- GETMWL (R512): Returns the maximum write length. -/
def execGetmwl (s : State) : Host.Outcome State Fault Refusal :=
  s.answer s.getMwl

/-- GETMRL (R512): Returns the maximum read length. -/
def execGetmrl (s : State) : Host.Outcome State Fault Refusal :=
  s.answer s.getMrl

/-- RSTACT (R512): Accepts a reset-action setting with defining byte 0x00 or 0x01. -/
def execRstact (b : BitVec 8) (s : State) : Host.Outcome State Fault Refusal :=
  s.answer (s.rstAct b)

/-- HOT_JOIN (R512): A newly inserted module raises a Hot-Join request once the bus is idle. -/
def execHotJoin (s : State) : Host.Outcome State Fault Refusal :=
  s.answer s.hotJoin

/-- SET_ENDPOINT_ID (R513): The bus owner assigns the module's MCTP endpoint ID. -/
def execSetEndpointId (eid : BitVec 8) (s : State) : Host.Outcome State Fault Refusal :=
  s.answer (s.setEid eid.toNat)

/-- GET_SENSOR_READING (R514): Returns a PLDM sensor reading. -/
def execGetSensorReading (id : BitVec 16) (s : State) : Host.Outcome State Fault Refusal :=
  s.answer (s.getSensor id.toNat)

/-- SET_CAP_EFFECTER (R514): The numeric effecter writes CAP to PWR_CAP. -/
def execSetCapEffecter (w : BitVec 32) (s : State) : Host.Outcome State Fault Refusal :=
  s.answer (s.setCap w.toNat)

/-- SET_POWER_STATE_EFFECTER (R514): The state effecter acts as PM_START or as a stop. -/
def execSetPowerStateEffecter (v : BitVec 8) (s : State) : Host.Outcome State Fault Refusal :=
  s.answer (s.setPowerState v.toNat)

/-- PLATFORM_EVENT_MESSAGE (R514): Batched event messages are sent for records and power-state changes at most every
10 ms. -/
def execPlatformEventMessage (s : State) : Host.Outcome State Fault Refusal :=
  s.answer s.platformEvent

/-- REG_READ (R515): Returns register words over PLDM from reachable ranges. -/
def execRegRead (addr : BitVec 32) (n : BitVec 16) (s : State) : Host.Outcome State Fault Refusal :=
  s.answer (s.pldmRead addr.toNat n.toNat)

/-- REG_WRITE (R520): Writes register words over PLDM in ascending order, reporting any refusal. -/
def execRegWrite (addr : BitVec 32) (vs : List (BitVec 64)) (s : State) : Host.Outcome State Fault Refusal :=
  s.answer (s.pldmWrite addr.toNat (vs.map fun v => v.toNat))

/-- REC_READ (R515): Returns one error record over PLDM. -/
def execRecRead (i : BitVec 32) (s : State) : Host.Outcome State Fault Refusal :=
  s.answer (s.recRead i.toNat)

/-- REQUEST_UPDATE (R516): Starts a firmware update of the slot not running. -/
def execRequestUpdate (s : State) : Host.Outcome State Fault Refusal :=
  s.answer s.requestUpdate

/-- SLOT_IMAGE_STAGE (R516): A firmware stage arrives and is verified, ending the transfer on failure. -/
def execSlotImageStage (good : Bool) (svn : BitVec 16) (digest : StageFile) (s : State) : Host.Outcome State Fault Refusal :=
  s.answer (s.slotStage good svn.toNat digest)

/-- ACTIVATE_FIRMWARE (R516): Writes BOOT_PREF to select the updated slot at the next reset. -/
def execActivateFirmware (s : State) : Host.Outcome State Fault Refusal :=
  s.answer s.activate

/-- CANCEL_UPDATE (R516): Cancels an update, leaving the target slot unbootable. -/
def execCancelUpdate (s : State) : Host.Outcome State Fault Refusal :=
  s.answer s.cancelUpdate

/-- REGISTER_WRITE (R527): A write to a register without its own row is applied by update class or refused and
counted. -/
def execRegisterWrite (m : Master) (ofs : BitVec 26) (v : BitVec 64) (s : State) : Host.Outcome State Fault Refusal :=
  s.answer (s.registerWrite m ofs.toNat v.toNat)

/-- CSM_WAYS (R531): A write of cluster cache ways takes effect at once, discarding scratch above the new size and
invalidating the cache. -/
def execCsmWays (m : Master) (cluster : ClusterId) (w : BitVec 5) (s : State) : Host.Outcome State Fault Refusal :=
  s.answer (s.csmWaysWrite m cluster.val w.toNat)

/-- ADMIN_EN (R290): A write enables or disables fetching from the admin queue. -/
def execAdminEn (m : Master) (en : Bool) (s : State) : Host.Outcome State Fault Refusal :=
  s.answer (s.adminEnWrite m en)

/-- TEST_ACCESS_PORT (R40): Activity on TCK, TMS, TDI or TRST_N is acted on in BLANK and RETURN, and ignored with TDO
high-impedance in every other state. -/
def execTestAccessPort (s : State) : Host.Outcome State Fault Refusal :=
  s.answer s.testPort

end Sys2Proof.Machine
end

