-- ==== Sys2Proof/Machine/MatrixRows.lean ====
section
/-! DEFINITION. The meanings of the matrix-slot rows: each acts on the instruction at the head of the matrix queue of a core
(Table 02-6). -/

namespace Sys2Proof.Machine

/-- MMA (R98): At the head of the matrix queue, checks descriptors and accumulator then accumulates A times B into the
accumulator. -/
def execMma (core : CoreId) (s : State) : Host.Outcome State Fault Refusal :=
  s.answer (s.matrixStep core.val .mma)

/-- MMAZ (R88): At the head of the matrix queue, sets the accumulator to A times B and retags it. -/
def execMmaz (core : CoreId) (s : State) : Host.Outcome State Fault Refusal :=
  s.answer (s.matrixStep core.val .mmaz)

/-- ACCST (R102): Rounds the accumulator once to TDC's format and stores it, setting MFLAGS. -/
def execAccst (core : CoreId) (s : State) : Host.Outcome State Fault Refusal :=
  s.answer (s.matrixStep core.val .accst)

/-- ACCLD (R105): Loads the accumulator from the TDC region, converting exactly and retagging. -/
def execAccld (core : CoreId) (s : State) : Host.Outcome State Fault Refusal :=
  s.answer (s.matrixStep core.val .accld)

/-- ACCZ (R88): Zeroes an accumulator and makes it EMPTY. -/
def execAccz (core : CoreId) (s : State) : Host.Outcome State Fault Refusal :=
  s.answer (s.matrixStep core.val .accz)

end Sys2Proof.Machine
end

