-- ==== Sys2Proof/Machine/MoveRows.lean ====
section
/-! DEFINITION. The meanings of the move-slot rows: each acts on the instruction at the head of the move queue of a core
(Table 02-8). -/

namespace Sys2Proof.Machine

/-- MCPY (R554): Copies bytes within local memory in 128-byte granules. -/
def execMcpy (core : CoreId) (s : State) : Host.Outcome State Fault Refusal :=
  s.answer (s.moveStep core.val .mcpy)

/-- MGATH (R554): Gathers lines at listed offsets into a strided local destination. -/
def execMgath (core : CoreId) (s : State) : Host.Outcome State Fault Refusal :=
  s.answer (s.moveStep core.val .mgath)

/-- MTRN (R69): Writes a local tile transposed to a local destination. -/
def execMtrn (core : CoreId) (s : State) : Host.Outcome State Fault Refusal :=
  s.answer (s.moveStep core.val .mtrn)

/-- MCSR (R554): Copies from cluster shared scratch to local memory. -/
def execMcsr (core : CoreId) (s : State) : Host.Outcome State Fault Refusal :=
  s.answer (s.moveStep core.val .mcsr)

/-- MCSW (R554): Copies from local memory to cluster shared scratch. -/
def execMcsw (core : CoreId) (s : State) : Host.Outcome State Fault Refusal :=
  s.answer (s.moveStep core.val .mcsw)

/-- MPRD (R70): Reads partition memory into local memory, placing poisoned lines marked. -/
def execMprd (core : CoreId) (s : State) : Host.Outcome State Fault Refusal :=
  s.answer (s.moveStep core.val .mprd)

/-- MPWR (R70): Writes local data to partition memory, completing on acknowledgement. -/
def execMpwr (core : CoreId) (s : State) : Host.Outcome State Fault Refusal :=
  s.answer (s.moveStep core.val .mpwr)

/-- MPAMO (R202): Applies a memory-side operation at partition memory with local operands. -/
def execMpamo (core : CoreId) (s : State) : Host.Outcome State Fault Refusal :=
  s.answer (s.moveStep core.val .mpamo)

/-- MSTRM (R148): Hands a 128-byte stream descriptor to a stream engine's input queue, waiting if it is full. -/
def execMstrm (core : CoreId) (s : State) : Host.Outcome State Fault Refusal :=
  s.answer (s.moveStep core.val .mstrm)

end Sys2Proof.Machine
end

