-- ==== Sys2Proof/Machine/PowerRows.lean ====
section
/-! DEFINITION. The meanings of the rows of power and thermal control (R430 to R446). -/

namespace Sys2Proof.Machine

/-- GOVERNOR_TICK (R440): Every 100 µs a partition's governor raises or lowers its clock step and ceilings are
recomputed. -/
def execGovernorTick (p : PartId) (s : State) : Host.Outcome State Fault Refusal :=
  s.answer (s.powered fun s => s.governorTick p.val)

/-- GRANT_SLOT (R437): In each 125 ns slot the die gives new unit grants within ceilings and slope limits. -/
def execGrantSlot (die : DieId) (s : State) : Host.Outcome State Fault Refusal :=
  s.answer (s.powered fun s => s.grantSlot die.val)

/-- GRANT_RELEASE (R438): A unit idle for 1 µs releases its grant. -/
def execGrantRelease (cluster : ClusterId) (unit : Fin 20) (s : State) : Host.Outcome State Fault Refusal :=
  s.answer (s.powered fun s => s.grantRelease cluster.val unit.val)

/-- RAIL_FAULT (R430): A rail leaves regulation or exceeds its limit and the fault action follows. -/
def execRailFault (rail : Fin 38) (reading : BitVec 16) (s : State) : Host.Outcome State Fault Refusal :=
  s.answer (s.railFault rail.val reading.toNat)

/-- RAIL_BACKSTOP (R441): A die's core current reaches 1,560 A and its clusters halve their clocks for 10 µs. -/
def execRailBackstop (die : DieId) (reading : BitVec 16) (s : State) : Host.Outcome State Fault Refusal :=
  s.answer (s.powered fun s => s.railBackstop die.val reading.toNat)

/-- INPUT_BACKSTOP (R441): Input current reaches 109.5 A and cluster steps rise until it falls below 105 A. -/
def execInputBackstop (reading : BitVec 16) (s : State) : Host.Outcome State Fault Refusal :=
  s.answer (s.powered fun s => s.inputBackstop reading.toNat)

/-- DROOP (R442): Local core voltage falls 4% and the cluster clock is stretched. -/
def execDroop (cluster : ClusterId) (s : State) : Host.Outcome State Fault Refusal :=
  s.answer (s.powered fun s => s.droop cluster.val)

/-- DROOP_END (R442): The local core voltage has stayed within 2% of V_op for 64 cycles and the stretched cluster
clock returns to normal. -/
def execDroopEnd (cluster : ClusterId) (s : State) : Host.Outcome State Fault Refusal :=
  s.answer (s.powered fun s => s.droopEnd cluster.val)

/-- THERMAL_SENSOR_READ (R443): Every 10 µs sensors are read and throttle or emergency thresholds act. -/
def execThermalSensorRead (clusters fabrics hbms : Tbl Nat) (s : State) : Host.Outcome State Fault Refusal :=
  s.answer (s.powered fun s => s.sensorsRead clusters fabrics hbms)

/-- THERMAL_SHUTDOWN (R443): A sensor reaches 115 °C and hardware turns off all rails except VDD_AO. -/
def execThermalShutdown (what : Nat) (reading : BitVec 16) (s : State) : Host.Outcome State Fault Refusal :=
  s.answer (s.thermalShutdown what reading.toNat)

/-- ENERGY_FOLD (R446): Every 100 µs activity counters are folded into per-context energy. -/
def execEnergyFold (acts : List EnergyAct) (s : State) : Host.Outcome State Fault Refusal :=
  s.answer (s.powered fun s => s.energyFold acts)

/-- PWR_CAP (R432): A write sets the module cap, effective at the next governor tick. -/
def execPwrCap (m : Master) (w : BitVec 64) (s : State) : Host.Outcome State Fault Refusal :=
  s.answer (s.capWrite m w.toNat)

end Sys2Proof.Machine
end

