-- ==== Sys2Proof/Machine/RecoveryRows.lean ====
section
/-! DEFINITION. The meanings of the rows of hangs, the escalation ladder, epochs, poison and the recovery of a forme (R341 to R382). -/

namespace Sys2Proof.Machine

/-- HANG (R345): A unit meets a hang condition, a HANG record is written and the ladder starts. -/
def execHang (u : HangUnit) (named : List (BitVec 16)) (s : State) : Host.Outcome State Fault Refusal :=
  s.answer (s.hang u (named.map fun n => n.toNat))

/-- LADDER_LEVEL_OVERRUN (R347): A ladder level overruns its bound and hands the resource to the next level. -/
def execLadderLevelOverrun (r : Resource) (s : State) : Host.Outcome State Fault Refusal :=
  s.answer (s.levelOverrun r)

/-- LADDER_LEVEL_COMPLETE (R349): A ladder level's action ends within its bound (quiesce bound reached, partition
reset complete, cluster resets done), the unit returns to service and recovery of the suspects proceeds. -/
def execLadderLevelComplete (r : Resource) (bad : List ClusterId) (views : List ModuleView)
    (s : State) : Host.Outcome State Fault Refusal :=
  s.answer (s.levelComplete r (bad.map fun c => c.val) views)

/-- CULPRIT_TEST (R360): An affected suspect's job is rolled back and replayed alone to find the culprit. -/
def execCulpritTest (u : HangUnit) (passed : Bool) (s : State) : Host.Outcome State Fault Refusal :=
  s.answer (s.culpritTest u passed)

/-- ERR_CONS (R341): The host advances the consumer index, freeing ring space. -/
def execErrCons (m : Master) (v : BitVec 32) (s : State) : Host.Outcome State Fault Refusal :=
  s.answer (s.errConsWrite m v.toNat)

/-- EPOCH_CONFIG (R362): Declares epoch protection with a galley budget and log capacity. -/
def execEpochConfig (src : CmdSource) (s : State) : Host.Outcome State Fault Refusal :=
  s.answer (s.epochConfig src)

/-- EPOCH_MARK (R365): Waits for the job's commands, commits shadows, snapshots fences and state, and records the
mark. -/
def execEpochMark (src : CmdSource) (s : State) : Host.Outcome State Fault Refusal :=
  s.answer (s.epochMark src)

/-- REFILL_SET (R379): Registers a refill source for a region. -/
def execRefillSet (src : CmdSource) (s : State) : Host.Outcome State Fault Refusal :=
  s.answer (s.refillSet src)

/-- MIRROR_RESOLVE_PRIMARY (R382): Resolves a suspect region keeping the primary copy. -/
def execMirrorResolvePrimary (src : CmdSource) (s : State) : Host.Outcome State Fault Refusal :=
  s.answer (s.mirrorResolve src 0)

/-- MIRROR_RESOLVE_SECONDARY (R382): Resolves a suspect region keeping the secondary copy. -/
def execMirrorResolveSecondary (src : CmdSource) (s : State) : Host.Outcome State Fault Refusal :=
  s.answer (s.mirrorResolve src 1)

/-- MIRROR_RESOLVE_NEITHER (R382): Resolves a suspect region by poisoning every block. -/
def execMirrorResolveNeither (src : CmdSource) (s : State) : Host.Outcome State Fault Refusal :=
  s.answer (s.mirrorResolve src 2)

/-- RESERVE (R373): Replaces a forme's list of reserve resources. -/
def execReserve (q : QueueId) (s : State) : Host.Outcome State Fault Refusal :=
  s.answer (s.reserve q.val)

/-- RESET_PARTITION (R350): Admin command starting a partition reset. -/
def execResetPartition (q : QueueId) (s : State) : Host.Outcome State Fault Refusal :=
  s.answer (s.resetPartition q.val)

/-- FENCE_OFF_CLUSTER (R352): Admin command fencing off a cluster. -/
def execFenceOffCluster (q : QueueId) (views : List ModuleView) (s : State) : Host.Outcome State Fault Refusal :=
  s.answer (s.fenceOffCluster q.val views)

/-- FENCE_OFF_CHANNEL (R212): Admin command fencing off a channel. -/
def execFenceOffChannel (q : QueueId) (s : State) : Host.Outcome State Fault Refusal :=
  s.answer (s.fenceOffChannel q.val)

/-- FENCE_OFF_DIE (R353): Admin command fencing off a die. -/
def execFenceOffDie (q : QueueId) (s : State) : Host.Outcome State Fault Refusal :=
  s.answer (s.fenceOffDie q.val)

/-- PULSE_SEND (R370): Every PEER_TIMEOUT/4 a member sends PULSE to the master. -/
def execPulseSend (forme : BitVec 32) (member : BitVec 16) (s : State) : Host.Outcome State Fault Refusal :=
  s.answer (s.pulseSend forme.toNat member.toNat)

/-- PULSE (R370): The master receives a member's PULSE and answers PULSE_ANS. -/
def execPulse (m : RecMsg) (s : State) : Host.Outcome State Fault Refusal :=
  s.answer (s.pulseIn m)

/-- PULSE_ANS (R370): A member receives the master's PULSE_ANS. -/
def execPulseAns (m : RecMsg) (s : State) : Host.Outcome State Fault Refusal :=
  s.answer (s.pulseAns m)

/-- PEER_TIMEOUT (R370): A peer timeout expires, a record is written and the forme's jobs freeze with a SUSPECT. -/
def execPeerTimeout (forme : BitVec 32) (observer named : BitVec 16) (copy : DeputyCopy) (views : List ModuleView)
    (s : State) : Host.Outcome State Fault Refusal :=
  s.answer (s.peerTimeout forme.toNat observer.toNat named.toNat copy views)

/-- SUSPECT (R371): The master or deputy probes a suspected member. -/
def execSuspect (m : RecMsg) (s : State) : Host.Outcome State Fault Refusal :=
  s.answer (s.suspectIn m)

/-- PROBE (R371): A member answers a probe with PROBE_ANS. -/
def execProbe (m : RecMsg) (s : State) : Host.Outcome State Fault Refusal :=
  s.answer (s.probeIn m)

/-- PROBE_ANS (R371): A probe is answered in time and THAW is sent. -/
def execProbeAns (m : RecMsg) (s : State) : Host.Outcome State Fault Refusal :=
  s.answer (s.probeAns m)

/-- PROBE_TIMEOUT (R371): No PROBE_ANS within 2 ms declares the member failed and starts forme recovery. -/
def execProbeTimeout (forme : BitVec 32) (copy : DeputyCopy) (views : List ModuleView) (s : State) : Host.Outcome State Fault Refusal :=
  s.answer (s.probeTimeout forme.toNat copy views)

/-- THAW (R371): Frozen jobs resume unchanged. -/
def execThaw (m : RecMsg) (s : State) : Host.Outcome State Fault Refusal :=
  s.answer (s.thawIn m)

/-- ROLLBACK (R368): A member rolls the job back to its last mark and returns ROLLED_BACK. -/
def execRollback (m : RecMsg) (s : State) : Host.Outcome State Fault Refusal :=
  s.answer (s.rollbackIn m)

/-- ROLLED_BACK (R372): The master records a member's rollback and plans the recovery change. -/
def execRolledBack (m : RecMsg) (views : List ModuleView) (s : State) : Host.Outcome State Fault Refusal :=
  s.answer (s.rolledBackIn m views)

/-- RESUME (R369): Members replay the logged commands of the epoch. -/
def execResume (m : RecMsg) (s : State) : Host.Outcome State Fault Refusal :=
  s.answer (s.resumeIn m)

/-- MASTER_CLAIM (R374): The deputy takes over as master and members redirect fence names. -/
def execMasterClaim (m : RecMsg) (numbers : List (BitVec 32)) (s : State) : Host.Outcome State Fault Refusal :=
  s.answer (s.masterClaim m (numbers.map fun n => n.toNat))

/-- LOG (R366): The master receives a copy of a logged command entry. -/
def execLog (m : RecMsg) (s : State) : Host.Outcome State Fault Refusal :=
  s.answer (s.logIn m)

/-- POISON_RESTORE (R379): A poisoned block is restored from mirror, refill, rollback or freshness, or found lost, and
its record written. -/
def execPoisonRestore (p : PartId) (addr : BitVec 40) (s : State) : Host.Outcome State Fault Refusal :=
  s.answer (s.poisonRestore p.val addr.toNat)

end Sys2Proof.Machine
end

