-- ==== Sys2Proof/Machine/SyncRows.lean ====
section
/-! DEFINITION. The meanings of the rows of the sync hubs (R222 to R243). -/

namespace Sys2Proof.Machine

/-- SIGNAL (R226): The home hub applies a signal to a fence, raising it, discarding a lower value or refusing, and
releases waits. -/
def execSignal (m : CtrlMsg) (s : State) : Host.Outcome State Fault Refusal :=
  s.answer (s.ctrlArrive 0x01 m)

/-- CTRL_ADD (R227): The home hub adds to a fence, saturating if needed, and releases waits. -/
def execCtrlAdd (m : CtrlMsg) (s : State) : Host.Outcome State Fault Refusal :=
  s.answer (s.ctrlArrive 0x02 m)

/-- CTRL_READ (R231): The home hub reads a fence and returns READ_ANS. -/
def execCtrlRead (m : CtrlMsg) (s : State) : Host.Outcome State Fault Refusal :=
  s.answer (s.ctrlArrive 0x03 m)

/-- WAIT (R239): The home hub answers or registers a remote wait, answering REGISTRY_FULL when full. -/
def execWait (m : CtrlMsg) (s : State) : Host.Outcome State Fault Refusal :=
  s.answer (s.ctrlArrive 0x04 m)

/-- WAIT_CANCEL (R239): The home hub removes a registered remote wait. -/
def execWaitCancel (m : CtrlMsg) (s : State) : Host.Outcome State Fault Refusal :=
  s.answer (s.ctrlArrive 0x05 m)

/-- CTRL_RELEASE (R236): The home hub releases one import of a fence, freeing an ERROR fence at zero imports. -/
def execCtrlRelease (m : CtrlMsg) (s : State) : Host.Outcome State Fault Refusal :=
  s.answer (s.ctrlArrive 0x06 m)

/-- BAR_ARRIVE (R242): A child instance's arrival is counted at its parent barrier instance. -/
def execBarArrive (m : CtrlMsg) (s : State) : Host.Outcome State Fault Refusal :=
  s.answer (s.ctrlArrive 0x10 m)

/-- RESULT (R240): A stream engine receives the status of an acknowledged remote TFENCE signal, aborting on error. -/
def execResult (m : CtrlMsg) (s : State) : Host.Outcome State Fault Refusal :=
  s.answer (s.ctrlArrive 0x81 m)

/-- READ_ANS (R231): A remote read answer reaches the waiter's hub. -/
def execReadAns (m : CtrlMsg) (s : State) : Host.Outcome State Fault Refusal :=
  s.answer (s.ctrlArrive 0x83 m)

/-- WAIT_DONE (R239): A remote wait's outcome reaches the waiter's hub, which completes or discards it. -/
def execWaitDone (m : CtrlMsg) (s : State) : Host.Outcome State Fault Refusal :=
  s.answer (s.ctrlArrive 0x84 m)

/-- BAR_DONE (R242): A parent's phase completion reaches a child instance, which completes its phase. -/
def execBarDone (m : CtrlMsg) (s : State) : Host.Outcome State Fault Refusal :=
  s.answer (s.ctrlArrive 0x90 m)

/-- COLD_WAIT_RETEST (R222): Every 1 µs the hub re-tests a wait on a cold fence. -/
def execColdWaitRetest (cluster : ClusterId) (s : State) : Host.Outcome State Fault Refusal :=
  s.answer (s.coldRetest cluster.val)

/-- HOT_FENCE_WRITEBACK (R223): A changed hot fence is written back to the store within 50 µs or on eviction. -/
def execHotFenceWriteback (fence : BitVec 20) (s : State) : Host.Outcome State Fault Refusal :=
  s.answer (s.hotWriteback fence.toNat)

/-- REMOTE_WAIT_POLL (R239): A waiter's hub re-reads a fence every 2 µs after REGISTRY_FULL. -/
def execRemoteWaitPoll (cluster : ClusterId) (tag : BitVec 16) (s : State) : Host.Outcome State Fault Refusal :=
  s.answer (s.remotePoll cluster.val tag.toNat)

end Sys2Proof.Machine
end

