-- ==== Sys2Proof/Machine/VectorRows.lean ====
section
/-! DEFINITION. The meanings of the vector-slot rows: each acts on the instruction at the head of the vector queue of a core
(Table 02-7). -/

namespace Sys2Proof.Machine

/-- VADD (R131): Elementwise IEEE addition. -/
def execVadd (core : CoreId) (s : State) : Host.Outcome State Fault Refusal :=
  s.answer (s.vecStep core.val .vadd)

/-- VSUB (R131): Elementwise IEEE subtraction. -/
def execVsub (core : CoreId) (s : State) : Host.Outcome State Fault Refusal :=
  s.answer (s.vecStep core.val .vsub)

/-- VMUL (R131): Elementwise IEEE multiplication. -/
def execVmul (core : CoreId) (s : State) : Host.Outcome State Fault Refusal :=
  s.answer (s.vecStep core.val .vmul)

/-- VFMA (R131): Fused VA times VB plus VC with one rounding. -/
def execVfma (core : CoreId) (s : State) : Host.Outcome State Fault Refusal :=
  s.answer (s.vecStep core.val .vfma)

/-- VFMS (R131): Fused VA times VB minus VC with one rounding. -/
def execVfms (core : CoreId) (s : State) : Host.Outcome State Fault Refusal :=
  s.answer (s.vecStep core.val .vfms)

/-- VDIV (R131): Elementwise division VA by VB. -/
def execVdiv (core : CoreId) (s : State) : Host.Outcome State Fault Refusal :=
  s.answer (s.vecStep core.val .vdiv)

/-- VSQRT (R131): Elementwise square root. -/
def execVsqrt (core : CoreId) (s : State) : Host.Outcome State Fault Refusal :=
  s.answer (s.vecStep core.val .vsqrt)

/-- VRSQRT (R135): Elementwise reciprocal square root within 1 ulp. -/
def execVrsqrt (core : CoreId) (s : State) : Host.Outcome State Fault Refusal :=
  s.answer (s.vecStep core.val .vrsqrt)

/-- VRCP (R135): Elementwise reciprocal within 1 ulp. -/
def execVrcp (core : CoreId) (s : State) : Host.Outcome State Fault Refusal :=
  s.answer (s.vecStep core.val .vrcp)

/-- VMIN (R130): Elementwise minimum, NaN-propagating or minimumNumber by modifier. -/
def execVmin (core : CoreId) (s : State) : Host.Outcome State Fault Refusal :=
  s.answer (s.vecStep core.val .vmin)

/-- VMAX (R130): Elementwise maximum, NaN-propagating or maximumNumber by modifier. -/
def execVmax (core : CoreId) (s : State) : Host.Outcome State Fault Refusal :=
  s.answer (s.vecStep core.val .vmax)

/-- VABS (R131): Elementwise absolute value. -/
def execVabs (core : CoreId) (s : State) : Host.Outcome State Fault Refusal :=
  s.answer (s.vecStep core.val .vabs)

/-- VNEG (R131): Elementwise negation. -/
def execVneg (core : CoreId) (s : State) : Host.Outcome State Fault Refusal :=
  s.answer (s.vecStep core.val .vneg)

/-- VEXP (R135): Elementwise e to the x. -/
def execVexp (core : CoreId) (s : State) : Host.Outcome State Fault Refusal :=
  s.answer (s.vecStep core.val .vexp)

/-- VEXP2 (R135): Elementwise 2 to the x. -/
def execVexp2 (core : CoreId) (s : State) : Host.Outcome State Fault Refusal :=
  s.answer (s.vecStep core.val .vexp2)

/-- VLOG (R135): Elementwise natural logarithm. -/
def execVlog (core : CoreId) (s : State) : Host.Outcome State Fault Refusal :=
  s.answer (s.vecStep core.val .vlog)

/-- VLOG2 (R135): Elementwise base-2 logarithm. -/
def execVlog2 (core : CoreId) (s : State) : Host.Outcome State Fault Refusal :=
  s.answer (s.vecStep core.val .vlog2)

/-- VSIN (R135): Elementwise sine. -/
def execVsin (core : CoreId) (s : State) : Host.Outcome State Fault Refusal :=
  s.answer (s.vecStep core.val .vsin)

/-- VCOS (R135): Elementwise cosine. -/
def execVcos (core : CoreId) (s : State) : Host.Outcome State Fault Refusal :=
  s.answer (s.vecStep core.val .vcos)

/-- VTANH (R135): Elementwise hyperbolic tangent. -/
def execVtanh (core : CoreId) (s : State) : Host.Outcome State Fault Refusal :=
  s.answer (s.vecStep core.val .vtanh)

/-- VSIGM (R135): Elementwise logistic sigmoid. -/
def execVsigm (core : CoreId) (s : State) : Host.Outcome State Fault Refusal :=
  s.answer (s.vecStep core.val .vsigm)

/-- VERF (R135): Elementwise error function. -/
def execVerf (core : CoreId) (s : State) : Host.Outcome State Fault Refusal :=
  s.answer (s.vecStep core.val .verf)

/-- VGELU (R130): Elementwise GELU in the erf or tanh form chosen by the modifier. -/
def execVgelu (core : CoreId) (s : State) : Host.Outcome State Fault Refusal :=
  s.answer (s.vecStep core.val .vgelu)

/-- VIADD (R133): Elementwise wrapping integer addition. -/
def execViadd (core : CoreId) (s : State) : Host.Outcome State Fault Refusal :=
  s.answer (s.vecStep core.val .viadd)

/-- VISUB (R133): Elementwise wrapping integer subtraction. -/
def execVisub (core : CoreId) (s : State) : Host.Outcome State Fault Refusal :=
  s.answer (s.vecStep core.val .visub)

/-- VIMUL (R133): Elementwise integer multiplication keeping the low half. -/
def execVimul (core : CoreId) (s : State) : Host.Outcome State Fault Refusal :=
  s.answer (s.vecStep core.val .vimul)

/-- VAND (R133): Elementwise bitwise AND. -/
def execVand (core : CoreId) (s : State) : Host.Outcome State Fault Refusal :=
  s.answer (s.vecStep core.val .vand)

/-- VOR (R133): Elementwise bitwise OR. -/
def execVor (core : CoreId) (s : State) : Host.Outcome State Fault Refusal :=
  s.answer (s.vecStep core.val .vor)

/-- VXOR (R133): Elementwise bitwise XOR. -/
def execVxor (core : CoreId) (s : State) : Host.Outcome State Fault Refusal :=
  s.answer (s.vecStep core.val .vxor)

/-- VSHL (R130): Elementwise shift left by register or immediate count. -/
def execVshl (core : CoreId) (s : State) : Host.Outcome State Fault Refusal :=
  s.answer (s.vecStep core.val .vshl)

/-- VSHR (R133): Elementwise logical shift right. -/
def execVshr (core : CoreId) (s : State) : Host.Outcome State Fault Refusal :=
  s.answer (s.vecStep core.val .vshr)

/-- VSAR (R133): Elementwise arithmetic shift right. -/
def execVsar (core : CoreId) (s : State) : Host.Outcome State Fault Refusal :=
  s.answer (s.vecStep core.val .vsar)

/-- VIMAX (R130): Elementwise signed integer maximum or minimum by modifier. -/
def execVimax (core : CoreId) (s : State) : Host.Outcome State Fault Refusal :=
  s.answer (s.vecStep core.val .vimax)

/-- VCMP (R134): Elementwise comparison writing all ones or zero. -/
def execVcmp (core : CoreId) (s : State) : Host.Outcome State Fault Refusal :=
  s.answer (s.vecStep core.val .vcmp)

/-- VSEL (R134): Selects VA or VB per element by VC. -/
def execVsel (core : CoreId) (s : State) : Host.Outcome State Fault Refusal :=
  s.answer (s.vecStep core.val .vsel)

/-- VCLASS (R134): Writes the IEEE class bit of each element. -/
def execVclass (core : CoreId) (s : State) : Host.Outcome State Fault Refusal :=
  s.answer (s.vecStep core.val .vclass)

/-- VCVT (R136): Converts elements between formats with the rounding and saturation chosen. -/
def execVcvt (core : CoreId) (s : State) : Host.Outcome State Fault Refusal :=
  s.answer (s.vecStep core.val .vcvt)

/-- VRSUM (R141): Sums each segment by a fixed pairwise tree. -/
def execVrsum (core : CoreId) (s : State) : Host.Outcome State Fault Refusal :=
  s.answer (s.vecStep core.val .vrsum)

/-- VRMAX (R141): NaN-propagating maximum of each segment. -/
def execVrmax (core : CoreId) (s : State) : Host.Outcome State Fault Refusal :=
  s.answer (s.vecStep core.val .vrmax)

/-- VRMIN (R141): NaN-propagating minimum of each segment. -/
def execVrmin (core : CoreId) (s : State) : Host.Outcome State Fault Refusal :=
  s.answer (s.vecStep core.val .vrmin)

/-- VRAMAX (R141): Maximum magnitude of each segment. -/
def execVramax (core : CoreId) (s : State) : Host.Outcome State Fault Refusal :=
  s.answer (s.vecStep core.val .vramax)

/-- VRSUMX (R142): Enters elements into a WX128 window and sums each segment exactly. -/
def execVrsumx (core : CoreId) (s : State) : Host.Outcome State Fault Refusal :=
  s.answer (s.vecStep core.val .vrsumx)

/-- VSCAN (R141): Inclusive or exclusive running sum per segment. -/
def execVscan (core : CoreId) (s : State) : Host.Outcome State Fault Refusal :=
  s.answer (s.vecStep core.val .vscan)

/-- VPERM (R143): Gathers VA elements by indices in VB. -/
def execVperm (core : CoreId) (s : State) : Host.Outcome State Fault Refusal :=
  s.answer (s.vecStep core.val .vperm)

/-- VBCAST (R130): Broadcasts elements of VA across segments. -/
def execVbcast (core : CoreId) (s : State) : Host.Outcome State Fault Refusal :=
  s.answer (s.vecStep core.val .vbcast)

/-- VTRANS (R143): Transposes VA viewed as rows of 2^w elements. -/
def execVtrans (core : CoreId) (s : State) : Host.Outcome State Fault Refusal :=
  s.answer (s.vecStep core.val .vtrans)

/-- VSHUF (R143): Interleaves or separates elements of VA and VB by code. -/
def execVshuf (core : CoreId) (s : State) : Host.Outcome State Fault Refusal :=
  s.answer (s.vecStep core.val .vshuf)

/-- VAMAX32 (R138): Writes the largest magnitude of each 32-element block. -/
def execVamax32 (core : CoreId) (s : State) : Host.Outcome State Fault Refusal :=
  s.answer (s.vecStep core.val .vamax32)

/-- VSCALE32 (R139): Computes E8M0 block scales from amax values. -/
def execVscale32 (core : CoreId) (s : State) : Host.Outcome State Fault Refusal :=
  s.answer (s.vecStep core.val .vscale32)

/-- VQUANT (R140): Scales and converts elements to a narrow format by block scales. -/
def execVquant (core : CoreId) (s : State) : Host.Outcome State Fault Refusal :=
  s.answer (s.vecStep core.val .vquant)

/-- VLD (R144): Loads a vector register from 4,096 contiguous bytes of local memory. -/
def execVld (core : CoreId) (s : State) : Host.Outcome State Fault Refusal :=
  s.answer (s.vecStep core.val .vld)

/-- VST (R144): Stores a vector register to 4,096 contiguous bytes of local memory. -/
def execVst (core : CoreId) (s : State) : Host.Outcome State Fault Refusal :=
  s.answer (s.vecStep core.val .vst)

/-- VLDS (R144): Loads 32 strided granules into a vector register. -/
def execVlds (core : CoreId) (s : State) : Host.Outcome State Fault Refusal :=
  s.answer (s.vecStep core.val .vlds)

/-- VSTS (R144): Stores a vector register as 32 strided granules. -/
def execVsts (core : CoreId) (s : State) : Host.Outcome State Fault Refusal :=
  s.answer (s.vecStep core.val .vsts)

end Sys2Proof.Machine
end

