-- ==== Sys2Proof/Machine/Dispatch.lean ====
section
/-! DEFINITION. The dispatcher: one arm per command. -/

namespace Sys2Proof.Machine

def exec (i : Instr) (s : State) : Host.Outcome State Fault Refusal :=
  match i with
  | .bundleIssue core => Sys2Proof.Machine.execBundleIssue core s
  | .nop core h => Sys2Proof.Machine.execNop core h s
  | .add core h xd xa xb => Sys2Proof.Machine.execAdd core h xd xa xb s
  | .sub core h xd xa xb => Sys2Proof.Machine.execSub core h xd xa xb s
  | .and core h xd xa xb => Sys2Proof.Machine.execAnd core h xd xa xb s
  | .or core h xd xa xb => Sys2Proof.Machine.execOr core h xd xa xb s
  | .xor core h xd xa xb => Sys2Proof.Machine.execXor core h xd xa xb s
  | .shl core h xd xa xb => Sys2Proof.Machine.execShl core h xd xa xb s
  | .shr core h xd xa xb => Sys2Proof.Machine.execShr core h xd xa xb s
  | .sar core h xd xa xb => Sys2Proof.Machine.execSar core h xd xa xb s
  | .mul core h xd xa xb => Sys2Proof.Machine.execMul core h xd xa xb s
  | .mulh core h xd xa xb => Sys2Proof.Machine.execMulh core h xd xa xb s
  | .min core h xd xa xb => Sys2Proof.Machine.execMin core h xd xa xb s
  | .max core h xd xa xb => Sys2Proof.Machine.execMax core h xd xa xb s
  | .slt core h xd xa xb => Sys2Proof.Machine.execSlt core h xd xa xb s
  | .sltu core h xd xa xb => Sys2Proof.Machine.execSltu core h xd xa xb s
  | .addi core h xd xa imm => Sys2Proof.Machine.execAddi core h xd xa imm s
  | .andi core h xd xa imm => Sys2Proof.Machine.execAndi core h xd xa imm s
  | .ori core h xd xa imm => Sys2Proof.Machine.execOri core h xd xa imm s
  | .xori core h xd xa imm => Sys2Proof.Machine.execXori core h xd xa imm s
  | .shli core h xd xa imm => Sys2Proof.Machine.execShli core h xd xa imm s
  | .shri core h xd xa imm => Sys2Proof.Machine.execShri core h xd xa imm s
  | .ldhi core h xd xa imm => Sys2Proof.Machine.execLdhi core h xd xa imm s
  | .ld core h xd xa imm => Sys2Proof.Machine.execLd core h xd xa imm s
  | .st core h xd xa imm => Sys2Proof.Machine.execSt core h xd xa imm s
  | .tdld core h xd xa imm => Sys2Proof.Machine.execTdld core h xd xa imm s
  | .tdst core h xd xa imm => Sys2Proof.Machine.execTdst core h xd xa imm s
  | .j core h target => Sys2Proof.Machine.execJ core h target s
  | .beq core h xa xb target => Sys2Proof.Machine.execBeq core h xa xb target s
  | .bne core h xa xb target => Sys2Proof.Machine.execBne core h xa xb target s
  | .blt core h xa xb target => Sys2Proof.Machine.execBlt core h xa xb target s
  | .bge core h xa xb target => Sys2Proof.Machine.execBge core h xa xb target s
  | .bltu core h xa xb target => Sys2Proof.Machine.execBltu core h xa xb target s
  | .call core h target => Sys2Proof.Machine.execCall core h target s
  | .ret core h => Sys2Proof.Machine.execRet core h s
  | .jr core h xa => Sys2Proof.Machine.execJr core h xa s
  | .loop core h xa target => Sys2Proof.Machine.execLoop core h xa target s
  | .halt core h => Sys2Proof.Machine.execHalt core h s
  | .programEnd who => Sys2Proof.Machine.execProgramEnd who s
  | .csrr core h xd xa imm => Sys2Proof.Machine.execCsrr core h xd xa imm s
  | .csrw core h xd xa imm => Sys2Proof.Machine.execCsrw core h xd xa imm s
  | .csrs core h xd xa imm => Sys2Proof.Machine.execCsrs core h xd xa imm s
  | .csrc core h xd xa imm => Sys2Proof.Machine.execCsrc core h xd xa imm s
  | .alloc core h xd xa imm => Sys2Proof.Machine.execAlloc core h xd xa imm s
  | .free core h xd xa xb => Sys2Proof.Machine.execFree core h xd xa xb s
  | .allocatorAnswer cluster => Sys2Proof.Machine.execAllocatorAnswer cluster s
  | .fsig core h xd xa xb => Sys2Proof.Machine.execFsig core h xd xa xb s
  | .fadd core h xd xa xb => Sys2Proof.Machine.execFadd core h xd xa xb s
  | .fwait core h xd xa xb imm => Sys2Proof.Machine.execFwait core h xd xa xb imm s
  | .fread core h xd xa xb => Sys2Proof.Machine.execFread core h xd xa xb s
  | .ftok core h xd xa xb => Sys2Proof.Machine.execFtok core h xd xa xb s
  | .rfsig core h xd xa xb => Sys2Proof.Machine.execRfsig core h xd xa xb s
  | .rfadd core h xd xa xb => Sys2Proof.Machine.execRfadd core h xd xa xb s
  | .rfwait core h xd xa xb imm => Sys2Proof.Machine.execRfwait core h xd xa xb imm s
  | .rfread core h xd xa xb => Sys2Proof.Machine.execRfread core h xd xa xb s
  | .bara core h xd xa xb => Sys2Proof.Machine.execBara core h xd xa xb s
  | .barw core h xd xa xb imm => Sys2Proof.Machine.execBarw core h xd xa xb imm s
  | .bart core h xd xa xb => Sys2Proof.Machine.execBart core h xd xa xb s
  | .syncAnswer core => Sys2Proof.Machine.execSyncAnswer core s
  | .fenceWaitTimeout core => Sys2Proof.Machine.execFenceWaitTimeout core s
  | .mma core => Sys2Proof.Machine.execMma core s
  | .mmaz core => Sys2Proof.Machine.execMmaz core s
  | .accst core => Sys2Proof.Machine.execAccst core s
  | .accld core => Sys2Proof.Machine.execAccld core s
  | .accz core => Sys2Proof.Machine.execAccz core s
  | .vadd core => Sys2Proof.Machine.execVadd core s
  | .vsub core => Sys2Proof.Machine.execVsub core s
  | .vmul core => Sys2Proof.Machine.execVmul core s
  | .vfma core => Sys2Proof.Machine.execVfma core s
  | .vfms core => Sys2Proof.Machine.execVfms core s
  | .vdiv core => Sys2Proof.Machine.execVdiv core s
  | .vsqrt core => Sys2Proof.Machine.execVsqrt core s
  | .vrsqrt core => Sys2Proof.Machine.execVrsqrt core s
  | .vrcp core => Sys2Proof.Machine.execVrcp core s
  | .vmin core => Sys2Proof.Machine.execVmin core s
  | .vmax core => Sys2Proof.Machine.execVmax core s
  | .vabs core => Sys2Proof.Machine.execVabs core s
  | .vneg core => Sys2Proof.Machine.execVneg core s
  | .vexp core => Sys2Proof.Machine.execVexp core s
  | .vexp2 core => Sys2Proof.Machine.execVexp2 core s
  | .vlog core => Sys2Proof.Machine.execVlog core s
  | .vlog2 core => Sys2Proof.Machine.execVlog2 core s
  | .vsin core => Sys2Proof.Machine.execVsin core s
  | .vcos core => Sys2Proof.Machine.execVcos core s
  | .vtanh core => Sys2Proof.Machine.execVtanh core s
  | .vsigm core => Sys2Proof.Machine.execVsigm core s
  | .verf core => Sys2Proof.Machine.execVerf core s
  | .vgelu core => Sys2Proof.Machine.execVgelu core s
  | .viadd core => Sys2Proof.Machine.execViadd core s
  | .visub core => Sys2Proof.Machine.execVisub core s
  | .vimul core => Sys2Proof.Machine.execVimul core s
  | .vand core => Sys2Proof.Machine.execVand core s
  | .vor core => Sys2Proof.Machine.execVor core s
  | .vxor core => Sys2Proof.Machine.execVxor core s
  | .vshl core => Sys2Proof.Machine.execVshl core s
  | .vshr core => Sys2Proof.Machine.execVshr core s
  | .vsar core => Sys2Proof.Machine.execVsar core s
  | .vimax core => Sys2Proof.Machine.execVimax core s
  | .vcmp core => Sys2Proof.Machine.execVcmp core s
  | .vsel core => Sys2Proof.Machine.execVsel core s
  | .vclass core => Sys2Proof.Machine.execVclass core s
  | .vcvt core => Sys2Proof.Machine.execVcvt core s
  | .vrsum core => Sys2Proof.Machine.execVrsum core s
  | .vrmax core => Sys2Proof.Machine.execVrmax core s
  | .vrmin core => Sys2Proof.Machine.execVrmin core s
  | .vramax core => Sys2Proof.Machine.execVramax core s
  | .vrsumx core => Sys2Proof.Machine.execVrsumx core s
  | .vscan core => Sys2Proof.Machine.execVscan core s
  | .vperm core => Sys2Proof.Machine.execVperm core s
  | .vbcast core => Sys2Proof.Machine.execVbcast core s
  | .vtrans core => Sys2Proof.Machine.execVtrans core s
  | .vshuf core => Sys2Proof.Machine.execVshuf core s
  | .vamax32 core => Sys2Proof.Machine.execVamax32 core s
  | .vscale32 core => Sys2Proof.Machine.execVscale32 core s
  | .vquant core => Sys2Proof.Machine.execVquant core s
  | .vld core => Sys2Proof.Machine.execVld core s
  | .vst core => Sys2Proof.Machine.execVst core s
  | .vlds core => Sys2Proof.Machine.execVlds core s
  | .vsts core => Sys2Proof.Machine.execVsts core s
  | .mcpy core => Sys2Proof.Machine.execMcpy core s
  | .mgath core => Sys2Proof.Machine.execMgath core s
  | .mtrn core => Sys2Proof.Machine.execMtrn core s
  | .mcsr core => Sys2Proof.Machine.execMcsr core s
  | .mcsw core => Sys2Proof.Machine.execMcsw core s
  | .mprd core => Sys2Proof.Machine.execMprd core s
  | .mpwr core => Sys2Proof.Machine.execMpwr core s
  | .mpamo core => Sys2Proof.Machine.execMpamo core s
  | .mstrm core => Sys2Proof.Machine.execMstrm core s
  | .instructionCompletionPoint core g => Sys2Proof.Machine.execInstructionCompletionPoint core g s
  | .poisonedGranuleRead core g => Sys2Proof.Machine.execPoisonedGranuleRead core g s
  | .coreStop core => Sys2Proof.Machine.execCoreStop core s
  | .coreResume core => Sys2Proof.Machine.execCoreResume core s
  | .streamStart cluster se => Sys2Proof.Machine.execStreamStart cluster se s
  | .streamRequestIssue cluster se slot => Sys2Proof.Machine.execStreamRequestIssue cluster se slot s
  | .streamRequestComplete cluster se req => Sys2Proof.Machine.execStreamRequestComplete cluster se req s
  | .creditGrant cluster se slot => Sys2Proof.Machine.execCreditGrant cluster se slot s
  | .streamResume cluster se stream => Sys2Proof.Machine.execStreamResume cluster se stream s
  | .pageRequestTimeout entry => Sys2Proof.Machine.execPageRequestTimeout entry s
  | .rdmaOperationFailed op => Sys2Proof.Machine.execRdmaOperationFailed op s
  | .invalidationEngineReport cluster se => Sys2Proof.Machine.execInvalidationEngineReport cluster se s
  | .channelRead q => Sys2Proof.Machine.execChannelRead q s
  | .channelWrite q data => Sys2Proof.Machine.execChannelWrite q data s
  | .memorySideOperation q mop operand => Sys2Proof.Machine.execMemorySideOperation q mop operand s
  | .cas q operand => Sys2Proof.Machine.execCas q operand s
  | .blockWriteback ch block => Sys2Proof.Machine.execBlockWriteback ch block s
  | .patrolScrub ch => Sys2Proof.Machine.execPatrolScrub ch s
  | .pageRelocationDone ch page => Sys2Proof.Machine.execPageRelocationDone ch page s
  | .signal m => Sys2Proof.Machine.execSignal m s
  | .ctrlAdd m => Sys2Proof.Machine.execCtrlAdd m s
  | .ctrlRead m => Sys2Proof.Machine.execCtrlRead m s
  | .wait m => Sys2Proof.Machine.execWait m s
  | .waitCancel m => Sys2Proof.Machine.execWaitCancel m s
  | .ctrlRelease m => Sys2Proof.Machine.execCtrlRelease m s
  | .barArrive m => Sys2Proof.Machine.execBarArrive m s
  | .result m => Sys2Proof.Machine.execResult m s
  | .readAns m => Sys2Proof.Machine.execReadAns m s
  | .waitDone m => Sys2Proof.Machine.execWaitDone m s
  | .barDone m => Sys2Proof.Machine.execBarDone m s
  | .coldWaitRetest cluster => Sys2Proof.Machine.execColdWaitRetest cluster s
  | .hotFenceWriteback fence => Sys2Proof.Machine.execHotFenceWriteback fence s
  | .remoteWaitPoll cluster tag => Sys2Proof.Machine.execRemoteWaitPoll cluster tag s
  | .admitForme m carry => Sys2Proof.Machine.execAdmit m carry s
  | .admitOk m => Sys2Proof.Machine.execAdmitOk m s
  | .admitRefuse m => Sys2Proof.Machine.execAdmitRefuse m s
  | .install m => Sys2Proof.Machine.execInstall m s
  | .installed m => Sys2Proof.Machine.execInstalled m s
  | .switchEpoch m => Sys2Proof.Machine.execSwitchEpoch m s
  | .switched m => Sys2Proof.Machine.execSwitched m s
  | .epochDrained forme => Sys2Proof.Machine.execEpochDrained forme s
  | .drained m => Sys2Proof.Machine.execDrained m s
  | .drainLimitExpiry forme => Sys2Proof.Machine.execDrainLimitExpiry forme s
  | .move m carry => Sys2Proof.Machine.execMove m carry s
  | .demandPull forme p chunk => Sys2Proof.Machine.execDemandPull forme p chunk s
  | .pullComplete forme p chunk landed => Sys2Proof.Machine.execPullComplete forme p chunk landed s
  | .sweeper forme => Sys2Proof.Machine.execSweeper forme s
  | .moved m => Sys2Proof.Machine.execMoved m s
  | .quoin m fences => Sys2Proof.Machine.execQuoin m fences s
  | .quoined m => Sys2Proof.Machine.execQuoined m s
  | .release m => Sys2Proof.Machine.execRelease m s
  | .released m => Sys2Proof.Machine.execReleased m s
  | .compositionTimeout forme mod => Sys2Proof.Machine.execCompositionTimeout forme mod s
  | .memberFailed m => Sys2Proof.Machine.execMemberFailed m s
  | .abort m => Sys2Proof.Machine.execAbort m s
  | .aborted m => Sys2Proof.Machine.execAborted m s
  | .msBegin m => Sys2Proof.Machine.execMsBegin m s
  | .msReady m => Sys2Proof.Machine.execMsReady m s
  | .statePacket link p => Sys2Proof.Machine.execStatePacket link p s
  | .miniSwitchRestore forme tag notes bars => Sys2Proof.Machine.execMiniSwitchRestore forme tag notes bars s
  | .msDone m => Sys2Proof.Machine.execMsDone m s
  | .fwd m => Sys2Proof.Machine.execFwd m s
  | .ack m => Sys2Proof.Machine.execAck m s
  | .compositorMessageRepeat opc mod forme => Sys2Proof.Machine.execCompositorMessageRepeat opc mod forme s
  | .doorbell m q v => Sys2Proof.Machine.execDoorbell m q v s
  | .commandFetch q => Sys2Proof.Machine.execCommandFetch q s
  | .cmdNop q => Sys2Proof.Machine.execCmdNop q s
  | .createCtx q => Sys2Proof.Machine.execCreateCtx q s
  | .destroyCtx q => Sys2Proof.Machine.execDestroyCtx q s
  | .createQueue q => Sys2Proof.Machine.execCreateQueue q s
  | .destroyQueue q => Sys2Proof.Machine.execDestroyQueue q s
  | .compose q => Sys2Proof.Machine.execCompose q s
  | .setSched q => Sys2Proof.Machine.execSetSched q s
  | .heartbeat q => Sys2Proof.Machine.execHeartbeat q s
  | .loadImage src far => Sys2Proof.Machine.execLoadImage src far s
  | .run src far => Sys2Proof.Machine.execRun src far s
  | .cmdAlloc src => Sys2Proof.Machine.execCmdAlloc src s
  | .cmdFree src => Sys2Proof.Machine.execCmdFree src s
  | .regionInstall src => Sys2Proof.Machine.execRegionInstall src s
  | .regionChange src => Sys2Proof.Machine.execRegionChange src s
  | .regionRemove src => Sys2Proof.Machine.execRegionRemove src s
  | .fenceCreate q => Sys2Proof.Machine.execFenceCreate q s
  | .fenceRetire q => Sys2Proof.Machine.execFenceRetire q s
  | .fenceImport q => Sys2Proof.Machine.execFenceImport q s
  | .fenceRelease q => Sys2Proof.Machine.execFenceRelease q s
  | .fenceSignal q => Sys2Proof.Machine.execFenceSignal q s
  | .fenceSignalAdd q => Sys2Proof.Machine.execFenceSignalAdd q s
  | .barConfig q => Sys2Proof.Machine.execBarConfig q s
  | .barRemove q => Sys2Proof.Machine.execBarRemove q s
  | .waitvSatisfied q => Sys2Proof.Machine.execWaitvSatisfied q s
  | .quantumExpiry forme far => Sys2Proof.Machine.execQuantumExpiry forme far s
  | .gangSwitch forme member job => Sys2Proof.Machine.execGangSwitch forme member job s
  | .switchDone forme member => Sys2Proof.Machine.execSwitchDone forme member s
  | .leaseExpiry ctx => Sys2Proof.Machine.execLeaseExpiry ctx s
  | .lossReport forme job member => Sys2Proof.Machine.execLossReport forme job member s
  | .teardownDrainComplete ctx => Sys2Proof.Machine.execTeardownDrainComplete ctx s
  | .teardownDrainTimeout ctx => Sys2Proof.Machine.execTeardownDrainTimeout ctx s
  | .regulatorWindow ch mhz hot late waiting => Sys2Proof.Machine.execRegulatorWindow ch mhz hot late waiting s
  | .commit m ch v => Sys2Proof.Machine.execCommit m ch v s
  | .hang u named => Sys2Proof.Machine.execHang u named s
  | .ladderLevelOverrun r => Sys2Proof.Machine.execLadderLevelOverrun r s
  | .culpritTest u passed => Sys2Proof.Machine.execCulpritTest u passed s
  | .errCons m v => Sys2Proof.Machine.execErrCons m v s
  | .epochConfig src => Sys2Proof.Machine.execEpochConfig src s
  | .epochMark src => Sys2Proof.Machine.execEpochMark src s
  | .refillSet src => Sys2Proof.Machine.execRefillSet src s
  | .mirrorResolvePrimary src => Sys2Proof.Machine.execMirrorResolvePrimary src s
  | .mirrorResolveSecondary src => Sys2Proof.Machine.execMirrorResolveSecondary src s
  | .mirrorResolveNeither src => Sys2Proof.Machine.execMirrorResolveNeither src s
  | .reserve q => Sys2Proof.Machine.execReserve q s
  | .resetPartition q => Sys2Proof.Machine.execResetPartition q s
  | .fenceOffCluster q views => Sys2Proof.Machine.execFenceOffCluster q views s
  | .fenceOffChannel q => Sys2Proof.Machine.execFenceOffChannel q s
  | .fenceOffDie q => Sys2Proof.Machine.execFenceOffDie q s
  | .pulseSend forme member => Sys2Proof.Machine.execPulseSend forme member s
  | .pulse m => Sys2Proof.Machine.execPulse m s
  | .pulseAns m => Sys2Proof.Machine.execPulseAns m s
  | .peerTimeout forme observer named copy views => Sys2Proof.Machine.execPeerTimeout forme observer named copy views s
  | .suspect m => Sys2Proof.Machine.execSuspect m s
  | .probe m => Sys2Proof.Machine.execProbe m s
  | .probeAns m => Sys2Proof.Machine.execProbeAns m s
  | .probeTimeout forme copy views => Sys2Proof.Machine.execProbeTimeout forme copy views s
  | .thaw m => Sys2Proof.Machine.execThaw m s
  | .rollback m => Sys2Proof.Machine.execRollback m s
  | .rolledBack m views => Sys2Proof.Machine.execRolledBack m views s
  | .resume m => Sys2Proof.Machine.execResume m s
  | .masterClaim m numbers => Sys2Proof.Machine.execMasterClaim m numbers s
  | .log m => Sys2Proof.Machine.execLog m s
  | .poisonRestore p addr => Sys2Proof.Machine.execPoisonRestore p addr s
  | .sessionOpen q => Sys2Proof.Machine.execSessionOpen q s
  | .sessionClose q => Sys2Proof.Machine.execSessionClose q s
  | .sessionExpiry session => Sys2Proof.Machine.execSessionExpiry session s
  | .keyInstall q => Sys2Proof.Machine.execKeyInstall q s
  | .keyDestroy q => Sys2Proof.Machine.execKeyDestroy q s
  | .shareSetReplace q => Sys2Proof.Machine.execShareSetReplace q s
  | .shareSetAdd q => Sys2Proof.Machine.execShareSetAdd q s
  | .shareSetRemove q => Sys2Proof.Machine.execShareSetRemove q s
  | .windowInstall src => Sys2Proof.Machine.execWindowInstall src s
  | .windowRemove src => Sys2Proof.Machine.execWindowRemove src s
  | .attest q => Sys2Proof.Machine.execAttest q s
  | .provision q sigs => Sys2Proof.Machine.execProvision q sigs s
  | .claim q sigs => Sys2Proof.Machine.execClaim q sigs s
  | .returnDevice q sigs => Sys2Proof.Machine.execReturnDevice q sigs s
  | .scrap q sigs => Sys2Proof.Machine.execScrap q sigs s
  | .reprovision q sigs => Sys2Proof.Machine.execReprovision q sigs s
  | .svnCommit q => Sys2Proof.Machine.execSvnCommit q s
  | .packetSeal => Sys2Proof.Machine.execPacketSeal s
  | .governorTick p => Sys2Proof.Machine.execGovernorTick p s
  | .grantSlot die => Sys2Proof.Machine.execGrantSlot die s
  | .grantRelease cluster unit => Sys2Proof.Machine.execGrantRelease cluster unit s
  | .railFault rail reading => Sys2Proof.Machine.execRailFault rail reading s
  | .railBackstop die reading => Sys2Proof.Machine.execRailBackstop die reading s
  | .inputBackstop reading => Sys2Proof.Machine.execInputBackstop reading s
  | .droop cluster => Sys2Proof.Machine.execDroop cluster s
  | .thermalSensorRead clusters fabrics hbms => Sys2Proof.Machine.execThermalSensorRead clusters fabrics hbms s
  | .thermalShutdown what reading => Sys2Proof.Machine.execThermalShutdown what reading s
  | .energyFold acts => Sys2Proof.Machine.execEnergyFold acts s
  | .pwrCap m w => Sys2Proof.Machine.execPwrCap m w s
  | .linkTraining link => Sys2Proof.Machine.execLinkTraining link s
  | .trainingStepOverrun link => Sys2Proof.Machine.execTrainingStepOverrun link s
  | .train link serial plink fab fabV epoch rtt => Sys2Proof.Machine.execTrain link serial plink fab fabV epoch rtt s
  | .hello link => Sys2Proof.Machine.execHello link s
  | .proof link sigs nonce state config => Sys2Proof.Machine.execProof link sigs nonce state config s
  | .flitReceive link f told => Sys2Proof.Machine.execFlitReceive link f told s
  | .nak link ackSeq => Sys2Proof.Machine.execNak link ackSeq s
  | .linkDown link => Sys2Proof.Machine.execLinkDown link s
  | .blockLockLoss link => Sys2Proof.Machine.execBlockLockLoss link s
  | .detourRecordExpiry link => Sys2Proof.Machine.execDetourRecordExpiry link s
  | .read link p => Sys2Proof.Machine.execRead link p s
  | .write link p => Sys2Proof.Machine.execWrite link p s
  | .memop link p => Sys2Proof.Machine.execMemop link p s
  | .readResp link p => Sys2Proof.Machine.execReadResp link p s
  | .packetAck link p => Sys2Proof.Machine.execPacketAck link p s
  | .nack link p => Sys2Proof.Machine.execNack link p s
  | .ctrl link p => Sys2Proof.Machine.execCtrl link p s
  | .recov link p told => Sys2Proof.Machine.execRecov link p told s
  | .query link b => Sys2Proof.Machine.execQuery link b s
  | .queryAns b => Sys2Proof.Machine.execQueryAns b s
  | .queryTimeout route => Sys2Proof.Machine.execQueryTimeout route s
  | .assign link b routes => Sys2Proof.Machine.execAssign link b routes s
  | .assignAck b => Sys2Proof.Machine.execAssignAck b s
  | .walkStart m v => Sys2Proof.Machine.execWalkStart m v s
  | .routingEntryWrite m addr mask => Sys2Proof.Machine.execRoutingEntryWrite m addr mask s
  | .retrain m link v => Sys2Proof.Machine.execRetrain m link v s
  | .disable m link v => Sys2Proof.Machine.execDisable m link v s
  | .portDown port => Sys2Proof.Machine.execPortDown port s
  | .autoNegotiation port partner lane1 => Sys2Proof.Machine.execAutoNegotiation port partner lane1 s
  | .rdmaWrite conn plane rkey va data => Sys2Proof.Machine.execRdmaWrite conn plane rkey va data s
  | .rdmaRead conn plane rkey va len => Sys2Proof.Machine.execRdmaRead conn plane rkey va len s
  | .roceAcknowledge op ok => Sys2Proof.Machine.execRoceAcknowledge op ok s
  | .roceAckTimeout op => Sys2Proof.Machine.execRoceAckTimeout op s
  | .cnp conn qp => Sys2Proof.Machine.execCnp conn qp s
  | .rateIncrease conn qp => Sys2Proof.Machine.execRateIncrease conn qp s
  | .ceMarkedPacket conn qp => Sys2Proof.Machine.execCeMarkedPacket conn qp s
  | .connReq port m => Sys2Proof.Machine.execConnReq port m s
  | .cringSet conn m => Sys2Proof.Machine.execCringSet conn m s
  | .closeConn conn m => Sys2Proof.Machine.execCloseConn conn m s
  | .connectionBreakExpiry conn => Sys2Proof.Machine.execConnectionBreakExpiry conn s
  | .planeFailure conn plane => Sys2Proof.Machine.execPlaneFailure conn plane s
  | .pairSwitch conn plane m => Sys2Proof.Machine.execPairSwitch conn plane m s
  | .pairSwitchAck conn => Sys2Proof.Machine.execPairSwitchAck conn s
  | .pairSwitchRetry conn => Sys2Proof.Machine.execPairSwitchRetry conn s
  | .pairProbe conn plane m => Sys2Proof.Machine.execPairProbe conn plane m s
  | .pairProbeAns conn plane => Sys2Proof.Machine.execPairProbeAns conn plane s
  | .pairProbeSend conn plane => Sys2Proof.Machine.execPairProbeSend conn plane s
  | .translateAns conn m => Sys2Proof.Machine.execTranslateAns conn m s
  | .translateTimeout conn reqId => Sys2Proof.Machine.execTranslateTimeout conn reqId s
  | .pageAns conn m => Sys2Proof.Machine.execPageAns conn m s
  | .invalidate conn m => Sys2Proof.Machine.execInvalidate conn m s
  | .head m ring head => Sys2Proof.Machine.execHead m ring head s
  | .notify m ring head => Sys2Proof.Machine.execNotify m ring head s
  | .inputRise root => Sys2Proof.Machine.execInputRise root s
  | .undervolt => Sys2Proof.Machine.execUndervolt s
  | .overvolt => Sys2Proof.Machine.execOvervolt s
  | .inputLoss => Sys2Proof.Machine.execInputLoss s
  | .modEnSample high inW inV inA steps => Sys2Proof.Machine.execModEnSample high inW inV inA steps s
  | .pmStart m v => Sys2Proof.Machine.execPmStart m v s
  | .pmStop m v => Sys2Proof.Machine.execPmStop m v s
  | .pmAuto m v => Sys2Proof.Machine.execPmAuto m v s
  | .bootStepOverrun steps => Sys2Proof.Machine.execBootStepOverrun steps s
  | .entdaa da => Sys2Proof.Machine.execEntdaa da s
  | .rstdaa => Sys2Proof.Machine.execRstdaa s
  | .setnewda da => Sys2Proof.Machine.execSetnewda da s
  | .getpid => Sys2Proof.Machine.execGetpid s
  | .getbcr => Sys2Proof.Machine.execGetbcr s
  | .getdcr => Sys2Proof.Machine.execGetdcr s
  | .getstatus => Sys2Proof.Machine.execGetstatus s
  | .enec mask => Sys2Proof.Machine.execEnec mask s
  | .disec mask => Sys2Proof.Machine.execDisec mask s
  | .setmwl n => Sys2Proof.Machine.execSetmwl n s
  | .setmrl n => Sys2Proof.Machine.execSetmrl n s
  | .getmwl => Sys2Proof.Machine.execGetmwl s
  | .getmrl => Sys2Proof.Machine.execGetmrl s
  | .rstact b => Sys2Proof.Machine.execRstact b s
  | .hotJoin => Sys2Proof.Machine.execHotJoin s
  | .setEndpointId eid => Sys2Proof.Machine.execSetEndpointId eid s
  | .getSensorReading id => Sys2Proof.Machine.execGetSensorReading id s
  | .setCapEffecter w => Sys2Proof.Machine.execSetCapEffecter w s
  | .setPowerStateEffecter v => Sys2Proof.Machine.execSetPowerStateEffecter v s
  | .platformEventMessage => Sys2Proof.Machine.execPlatformEventMessage s
  | .regRead addr n => Sys2Proof.Machine.execRegRead addr n s
  | .regWrite addr vs => Sys2Proof.Machine.execRegWrite addr vs s
  | .recRead ix => Sys2Proof.Machine.execRecRead ix s
  | .requestUpdate => Sys2Proof.Machine.execRequestUpdate s
  | .slotImageStage good svn digest => Sys2Proof.Machine.execSlotImageStage good svn digest s
  | .activateFirmware => Sys2Proof.Machine.execActivateFirmware s
  | .cancelUpdate => Sys2Proof.Machine.execCancelUpdate s
  | .registerWrite m ofs v => Sys2Proof.Machine.execRegisterWrite m ofs v s
  | .csmWays m cluster w => Sys2Proof.Machine.execCsmWays m cluster w s
  | .adminEn m en => Sys2Proof.Machine.execAdminEn m en s
  | .ladderLevelComplete r bad views => Sys2Proof.Machine.execLadderLevelComplete r bad views s
  | .droopEnd cluster => Sys2Proof.Machine.execDroopEnd cluster s
  | .inputRestored => Sys2Proof.Machine.execInputRestored s
  | .channelInterfaceError ch => Sys2Proof.Machine.execChannelInterfaceError ch s
  | .arp port addr => Sys2Proof.Machine.execArp port addr s
  | .neighbourDiscovery port addr => Sys2Proof.Machine.execNeighbourDiscovery port addr s
  | .icmpEcho port data => Sys2Proof.Machine.execIcmpEcho port data s
  | .priorityFlowControl port prio pause => Sys2Proof.Machine.execPriorityFlowControl port prio pause s
  | .testAccessPort => Sys2Proof.Machine.execTestAccessPort s
  | .rdmaReadResponse op data => Sys2Proof.Machine.execRdmaReadResponse op data s

end Sys2Proof.Machine
end

