-- ==== Sys2Proof/WellFormed.lean ====
section
/-! DEFINITION. What a well-formed command is: the shapes that the tables fix and the types of the operands do not. -/

namespace Sys2Proof

open Sys2Proof.Machine

/-- The body that a packet's type and LEN fix (Tables 15-5 and 15-6). -/
def Packet.wf (p : Packet) : Bool :=
  let n := p.lines.length
  decide (p.len.toNat ≤ 4) &&
    (if p.kind = PT.write ∨ p.kind = PT.memop ∨ p.kind = PT.readResp ∨ p.kind = PT.state then n == p.len.toNat
     else if p.kind = PT.ctrl ∨ p.kind = PT.walk then n == 1
     else if p.kind = PT.recov then n == p.len.toNat + 1
     else n == 0)

/-- The hops and end fields of a WALK body (Table 15-9). -/
def WalkBody.wf (b : WalkBody) : Bool :=
  decide (b.nhops.toNat ≤ 16) && decide (b.hop.toNat ≤ b.nhops.toNat) && b.ends.length == 16

/-- A recovery message carries no entry, or the eight words of one (R375). -/
def RecMsg.wf (m : RecMsg) : Bool := m.entry.isEmpty || m.entry.length == 8

/-- Every member entry of a compositor message has its sixteen link shares (Table 09-4). -/
def CompMsg.wf (m : CompMsg) : Bool :=
  match m.data with
  | .plan _ es => es.all fun e => e.linkShare.length == 16
  | _ => true

/-- Whether a command is well formed. -/
def Instr.wf : Instr → Bool
  | .flitReceive _ f _ => f.packets.all Packet.wf
  | .read _ p | .write _ p | .memop _ p | .readResp _ p | .packetAck _ p | .nack _ p | .ctrl _ p | .statePacket _ p => p.wf
  | .recov _ p _ => p.wf
  | .query _ b | .assign _ b _ => b.wf
  | .queryAns b | .assignAck b => b.wf
  | .queryTimeout r => decide (r.length ≤ 16)
  | .admitForme m _ | .move m _ => m.wf
  | .pulse m | .pulseAns m | .suspect m | .probe m | .probeAns m | .thaw m | .rollback m | .resume m | .log m => m.wf
  | .rolledBack m _ => m.wf
  | .masterClaim m _ => m.wf
  | _ => true

end Sys2Proof
end

