-- ==== Sys2Proof/Safety.lean ====
section
/-! DEFINITION. What the statements say of runs: outcomes, what a command leaves alone, and the forms that the state keeps. -/

namespace Sys2Proof.Machine

/-- The command answers a next state of which `P` holds. -/
def Completes (i : Instr) (s : State) (P : State → Prop) : Prop := ∃ t, exec i s = .next t ∧ P t

/-- Entries stand in strictly rising order of number, all at or above `lo`. -/
def Tbl.risingFrom {α : Type} (lo : Nat) : Tbl α → Bool
  | [] => true
  | (k, _) :: r => decide (lo ≤ k) && Tbl.risingFrom (k + 1) r

/-- Every waiting command is well formed. -/
def State.queueWf (s : State) : Bool := s.pending.all Instr.wf

/-- What no command changes beside its own effect: the commands that wait. -/
def QueueKept (s t : State) : Prop := t.pending = s.pending

/-- Everything of a state but one core: what an instruction of a core's own slots leaves alone. -/
def OnlyCore (c : Nat) (s t : State) : Prop :=
  t = s.setCore c (t.core c)

/-- A run of `n` steps from `s` to `t`. -/
def Steps (s : State) : Nat → State → Prop
  | 0, t => t = s
  | n + 1, t => ∃ u, step s = .next u ∧ Steps u n t

/-- Every memory is as it was: local memories, scratch, HBM and the record area. -/
def MemoryKept (s t : State) : Prop :=
  (∀ c, (t.core c).lm = (s.core c).lm) ∧ (∀ g, (t.cluster g).scratch = (s.cluster g).scratch) ∧ t.channels = s.channels ∧
    t.recordArea = s.recordArea

/-- No fence in use has fallen, but one that has become FREE, and none has come into use. -/
def FencesRise (s t : State) : Prop :=
  ∀ n, (t.fence n).state = .free ∨ ((s.fence n).state ≠ .free ∧ (s.fence n).value ≤ (t.fence n).value)

/-! ### The control slot of a core -/

/-- The command that issues a control-slot instruction on a core. -/
def Instr.ofCtl (core : CoreId) (h : Hdr) : CtlOp → Instr
  | .nop => .nop core h
  | .add xd xa xb => .add core h xd xa xb
  | .sub xd xa xb => .sub core h xd xa xb
  | .and xd xa xb => .and core h xd xa xb
  | .or xd xa xb => .or core h xd xa xb
  | .xor xd xa xb => .xor core h xd xa xb
  | .shl xd xa xb => .shl core h xd xa xb
  | .shr xd xa xb => .shr core h xd xa xb
  | .sar xd xa xb => .sar core h xd xa xb
  | .mul xd xa xb => .mul core h xd xa xb
  | .mulh xd xa xb => .mulh core h xd xa xb
  | .min xd xa xb => .min core h xd xa xb
  | .max xd xa xb => .max core h xd xa xb
  | .slt xd xa xb => .slt core h xd xa xb
  | .sltu xd xa xb => .sltu core h xd xa xb
  | .addi xd xa imm => .addi core h xd xa imm
  | .andi xd xa imm => .andi core h xd xa imm
  | .ori xd xa imm => .ori core h xd xa imm
  | .xori xd xa imm => .xori core h xd xa imm
  | .shli xd xa imm => .shli core h xd xa imm
  | .shri xd xa imm => .shri core h xd xa imm
  | .ldhi xd xa imm => .ldhi core h xd xa imm
  | .ld xd xa imm => .ld core h xd xa imm
  | .st xd xa imm => .st core h xd xa imm
  | .tdld xd xa imm => .tdld core h xd xa imm
  | .tdst xd xa imm => .tdst core h xd xa imm
  | .j target => .j core h target
  | .beq xa xb target => .beq core h xa xb target
  | .bne xa xb target => .bne core h xa xb target
  | .blt xa xb target => .blt core h xa xb target
  | .bge xa xb target => .bge core h xa xb target
  | .bltu xa xb target => .bltu core h xa xb target
  | .call target => .call core h target
  | .ret => .ret core h
  | .jr xa => .jr core h xa
  | .loop xa target => .loop core h xa target
  | .halt => .halt core h
  | .csrr xd xa imm => .csrr core h xd xa imm
  | .csrw xd xa imm => .csrw core h xd xa imm
  | .csrs xd xa imm => .csrs core h xd xa imm
  | .csrc xd xa imm => .csrc core h xd xa imm
  | .alloc xd xa imm => .alloc core h xd xa imm
  | .free xd xa xb => .free core h xd xa xb
  | .fsig xd xa xb => .fsig core h xd xa xb
  | .fadd xd xa xb => .fadd core h xd xa xb
  | .fwait xd xa xb imm => .fwait core h xd xa xb imm
  | .fread xd xa xb => .fread core h xd xa xb
  | .ftok xd xa xb => .ftok core h xd xa xb
  | .rfsig xd xa xb => .rfsig core h xd xa xb
  | .rfadd xd xa xb => .rfadd core h xd xa xb
  | .rfwait xd xa xb imm => .rfwait core h xd xa xb imm
  | .rfread xd xa xb => .rfread core h xd xa xb
  | .bara xd xa xb => .bara core h xd xa xb
  | .barw xd xa xb imm => .barw core h xd xa xb imm
  | .bart xd xa xb => .bart core h xd xa xb


/-- The core is neither idle nor ended, and no fault has stopped it. -/
def CtlState.live : CtlState → Bool
  | .idle | .faulted | .ended => false
  | _ => true

/-- The control unit of core `c` issues, the token wait of header `h` is met, and the token that it posts has room (R51, R53). -/
def State.issues (s : State) (c : CoreId) (h : Hdr) : Prop :=
  (s.core c).ctl = .running ∧ (s.core c).canWait h = true ∧ ∀ t, h.post = some t → ((s.core c).consume h).token t < 63

/-- A core whose header's token has been posted. -/
def Core.posted (k : Core) (h : Hdr) : Core :=
  match h.post with
  | none => k
  | some t => k.setToken t (k.token t + 1)

/-- What a control-slot instruction leaves that ends at once: the token of its wait is consumed, `f` has been applied to the core,
issue passes the bundle, its token is posted, and nothing else has changed. -/
def State.passed (s : State) (c : CoreId) (h : Hdr) (f : Core → Core) : State :=
  s.setCore c (((f ((s.core c).consume h)).pass (s.core c).pc).posted h)

/-- The same for a transfer: issue goes on at `pc` with the loops `ls`. -/
def State.jumped (s : State) (c : CoreId) (h : Hdr) (pc : Nat) (ls : List LoopEntry) (f : Core → Core) : State :=
  s.setCore c ((f { (s.core c).consume h with pc := pc, loops := ls }).posted h)

/-! ### The engine slots of a core -/

/-- The command that executes a vector instruction at the head of its queue. -/
def Instr.ofVec (core : CoreId) : VecOp → Instr
  | .vadd => .vadd core
  | .vsub => .vsub core
  | .vmul => .vmul core
  | .vfma => .vfma core
  | .vfms => .vfms core
  | .vdiv => .vdiv core
  | .vsqrt => .vsqrt core
  | .vrsqrt => .vrsqrt core
  | .vrcp => .vrcp core
  | .vmin => .vmin core
  | .vmax => .vmax core
  | .vabs => .vabs core
  | .vneg => .vneg core
  | .vexp => .vexp core
  | .vexp2 => .vexp2 core
  | .vlog => .vlog core
  | .vlog2 => .vlog2 core
  | .vsin => .vsin core
  | .vcos => .vcos core
  | .vtanh => .vtanh core
  | .vsigm => .vsigm core
  | .verf => .verf core
  | .vgelu => .vgelu core
  | .viadd => .viadd core
  | .visub => .visub core
  | .vimul => .vimul core
  | .vand => .vand core
  | .vor => .vor core
  | .vxor => .vxor core
  | .vshl => .vshl core
  | .vshr => .vshr core
  | .vsar => .vsar core
  | .vimax => .vimax core
  | .vcmp => .vcmp core
  | .vsel => .vsel core
  | .vclass => .vclass core
  | .vcvt => .vcvt core
  | .vrsum => .vrsum core
  | .vrmax => .vrmax core
  | .vrmin => .vrmin core
  | .vramax => .vramax core
  | .vrsumx => .vrsumx core
  | .vscan => .vscan core
  | .vperm => .vperm core
  | .vbcast => .vbcast core
  | .vtrans => .vtrans core
  | .vshuf => .vshuf core
  | .vamax32 => .vamax32 core
  | .vscale32 => .vscale32 core
  | .vquant => .vquant core
  | .vld => .vld core
  | .vst => .vst core
  | .vlds => .vlds core
  | .vsts => .vsts core

/-- The command that executes a move instruction at the head of its queue. -/
def Instr.ofMove (core : CoreId) : MoveOp → Instr
  | .mcpy => .mcpy core
  | .mgath => .mgath core
  | .mtrn => .mtrn core
  | .mcsr => .mcsr core
  | .mcsw => .mcsw core
  | .mprd => .mprd core
  | .mpwr => .mpwr core
  | .mpamo => .mpamo core
  | .mstrm => .mstrm core

/-- The engines of core `k` take work, `e` is the head of its vector queue, its wait is granted (R53) and nothing executes there. -/
def Core.atVec (k : Core) (e : VecEntry) : Prop :=
  k.enginesLive = true ∧ k.vrun = none ∧ k.grants .vector e.hdr = true ∧ ∃ q, k.vq = e :: q

/-- The same for the move queue, where no line has been moved yet. -/
def Core.atMove (k : Core) (e : MoveEntry) : Prop :=
  k.enginesLive = true ∧ k.xrun = none ∧ k.xmove = none ∧ k.grants .move e.hdr = true ∧ ∃ q, k.xq = e :: q

/-! ### Fences -/

/-- Fence `n` exists, is not FREE, its hub is not behind closed clamps, and `p` may use it (R32, R225, R233). -/
def State.usable (s : State) (n : Nat) (p : Principal) : Prop :=
  n < fenceCount ∧ (s.cluster (s.fence n).home).clamped = false ∧ (s.fence n).state ≠ .free ∧ s.syncPermits (s.fence n).owner (s.fence n).keyh p = true

/-! ### Memory -/

/-- A served request for a line ends: the thresholds of its page are tested, its channel notes it, what it brought about is settled, and
its answer leaves with status `code` and data `d`. `g` is what the channel notes. -/
def State.served (s : State) (g : State → State) (r : MemReq) (b : Loc) (es : List Ev) (code : Nat) (d : BitVec 512) : State :=
  ((g (s.thresholds b.1 (b.2 / 8)).1).settle (es ++ (s.thresholds b.1 (b.2 / 8)).2)).send (.line r.part.val (r.addr.toNat / 64 * 64) code d)

/-- A change that a controller has applied waits until the source on another module acknowledges the line written through to it (R269): `g` is what
the arbiter notes of it, `w` the request, `o` its answer. -/
def State.awaitsAck (s : State) (g : State → State) (w : Waiting) (b : Loc) (es : List Ev) (o : MemOut) : State :=
  let t := (g (s.thresholds b.1 (b.2 / 8)).1).sendThrough w.req.part.val (w.req.addr.toNat / 64 * 64)
  { t.2 with waiting := t.2.waiting ++ [{ w with applied := some { o with stored := true, tag := some t.1 } }] }.settle (es ++ (s.thresholds b.1 (b.2 / 8)).2)

/-- A request turned away before it is served is answered with status `code`. -/
def State.turnedAway (s : State) (g : State → State) (r : MemReq) (es : List Ev) (code : Nat) : State :=
  ((g s).settle es).send (.line r.part.val (r.addr.toNat / 64 * 64) code 0)

/-! ### The register window -/

/-- Block `b` of the window takes writes of master `m`: the window is up, its island is not clamped, its die is in service, and no clear of its refusal counter waits. -/
def State.takesWrites (s : State) (m : Master) (b : Blk) : Prop := s.windowUp m = true ∧ s.blkClamped b = false ∧ (s.hdr b).clear = false

/-! ### Commands of queues -/

/-- `c` is the first command of queue `q` that may start among those of opcode `opc`. -/
def State.takes (s : State) (q opc : Nat) (c : Cmd) : Prop := (s.next q fun d => d.opc == opc) = some c

/-- Queue `q` has no command of opcode `opc` that may start. -/
def State.takesNone (s : State) (q opc : Nat) : Prop := (s.next q fun d => d.opc == opc) = none

/-- A command that may act on another member (R298): `i` is its row, `opc` and `sub` tell which command it is, `memberOf` the member it
names, `act` what it does for a context of that member, and `result` what it returns. On this module it acts for the job's context on the
member; a member elsewhere receives an order, whose answer ends the command, in the same row or a later one (log entry 58); a member without a
context of the job refuses it. -/
def OnMember (s : State) (i : CmdSource → Instr) (opc : Nat) (sub : Cmd → Bool) (memberOf : Cmd → Nat)
    (act : State → Nat → List Word64 → Did) (result : Nat → List Word64) : Prop :=
  let ends (u : State) (q : QueueId) (c : Cmd) (w : BitVec 64) : State :=
    if bits w.toNat 15 0 = 0 then u.okCmd q c (result (bits w.toNat 63 16)) else u.refuseCmd q c (bits w.toNat 15 0)
  (∀ (q : QueueId) (w : BitVec 64) c, s.awaiting q (fun c => c.opc == opc && sub c) = some c →
    exec (i (.queue q (some w))) s = s.answer (ends s q c w)) ∧
  (∀ (q : QueueId) (r : Option (BitVec 64)), r = none ∨ s.awaiting q (fun c => c.opc == opc && sub c) = none →
    ((s.next q fun c => c.opc == opc && sub c) = none → exec (i (.queue q r)) s = .next s) ∧
    ∀ c, (s.next q fun c => c.opc == opc && sub c) = some c →
      let u := s.start q c
      let x := s.ctx (s.queue q).ctx
      let args := c.words.drop 5 ++ c.second
      let far := (u.send (.memberOrder ⟨x.forme, x.job, memberOf c, opc, args, [], 0⟩)).ordered q c
      (s.actsOn x.forme x.job (memberOf c) = .nobody → exec (i (.queue q r)) s = s.answer (u.refuseCmd q c Dt.badMember)) ∧
      (∀ n, s.actsOn x.forme x.job (memberOf c) = .here n →
        let d := act u n args
        (d.1 = 0 → exec (i (.queue q r)) s = s.answer (d.2.2.okCmd q c (result d.2.1))) ∧
        (d.1 ≠ 0 → exec (i (.queue q r)) s = s.answer (d.2.2.refuseCmd q c d.1))) ∧
      (s.actsOn x.forme x.job (memberOf c) = .far →
        (r = none → exec (i (.queue q r)) s = s.answer far) ∧
        (∀ w, r = some w → exec (i (.queue q r)) s = s.answer (ends far q c w)))) ∧
  (∀ o : MemberOrder, o.opc = opc →
    (∀ n, s.actsOn o.forme o.job o.member = .here n →
      let d := act s n o.args
      exec (i (.order o)) s = s.answer (d.2.2.send (.orderDone o.forme o.job o.member opc d.1 d.2.1))) ∧
    ((∀ n, s.actsOn o.forme o.job o.member ≠ .here n) →
      exec (i (.order o)) s = s.answer (s.send (.orderDone o.forme o.job o.member opc Dt.badMember 0))))

/-! ### Messages between modules -/

/-- The change of a forme that is in progress, as this module knows it. -/
def State.changeOf (s : State) (id : Nat) : Option Change := (s.forme id).bind fun f => f.change

/-- A compositor message that is acted on here: it is for this module, has not come before, sets no reserved field, and names a known change
(R281, R282). -/
def State.takesComp (s : State) (opc : Nat) (m : CompMsg) : Prop :=
  m.dstMod.toNat = s.fabAddr ∧ (∀ a ∈ s.answered, a.repeats opc m = false) ∧ compReserved opc m = false ∧ s.knowsChange opc m = true

/-- No hub of this module is being moved or has moved in a change that has not been released (R265). -/
def State.hubsStill (s : State) : Bool :=
  s.formes.all fun f => match f.change with
    | some c => c.minis.all fun m => !(decide (m.srcMod = s.fabAddr) && (m.carried || m.done)) && (m.done || decide (m.dstMod ≠ s.fabAddr))
    | none => true

/-- The answer of module `m.srcMod` to request `req` has come, and is counted in the step under way. -/
def State.counted (s : State) (req : Nat) (m : CompMsg) : State := (s.gotAnswer req m).markAnswer m.formeId.toNat m.srcMod.toNat

/-- Whether every module of `ms` has answered in step `st` of the change of forme `id`. -/
def State.stepIn (s : State) (id : Nat) (st : ChangeStep) (ms : Change → List Nat) : Bool :=
  (s.changeOf id).any fun c => c.step == st && c.allIn (ms c)

/-- A recovery message that is acted on here: it is for this module and sets no reserved field (R375). -/
def State.takesRec (s : State) (opc : Nat) (m : RecMsg) : Prop :=
  m.dstMod.toNat = s.fabAddr ∧ (m.status = 0 ∨ (opc = 0x08 ∧ m.status = 1))

end Sys2Proof.Machine
end

