-- ==== Sys2Proof/Certificates/Slice0/Obligations.lean ====
section
/-! DEFINITION. The statements about the block. Each cites the rules or sections that it rests on in OBLIGATIONS.json; a clause that
rests on a choice of the model names its entry in the assumption log. -/

open Sys2Proof Sys2Proof.Machine

/-! ### The queue of commands -/

/-- A step takes the command at the front of the queue and runs it on the state that keeps the queue's rest. -/
def Obligations.StepRunsTheFrontCommand : Prop :=
  ∀ (c : Instr) (s : State), step { s with pending := c :: s.pending } = exec c s

/-- On an empty queue the block idles: the model's choice (assumption 4). -/
def Obligations.AnEmptyQueueIdles : Prop := ∀ s : State, s.pending = [] → step s = .next s

/-- Every command ends in a next state, and no command changes what waits behind it (assumption 7). -/
def Obligations.EveryCommandAnswersAndKeepsTheQueue : Prop := ∀ (i : Instr) (s : State), Completes i s (QueueKept s)

/-- Commands are taken first in, first out: where `i` waits behind the commands `a`, the step after as many steps as `a` has commands runs
`i`, with what waits behind it as it was. -/
def Obligations.CommandsRunFirstInFirstOut : Prop :=
  ∀ (a r : List Instr) (i : Instr) (s : State), s.pending = a ++ i :: r →
    ∃ t, Steps s a.length t ∧ t.pending = i :: r ∧ step t = exec i { t with pending := r }

/-- A step keeps the form of the queue: with every waiting command well formed, the next state's queue is its rest, and every command
of it is well formed. -/
def Obligations.AStepKeepsTheQueueWellFormed : Prop :=
  ∀ s t : State, s.queueWf = true → step s = .next t → t.queueWf = true ∧ t.pending = s.pending.tail

/-- The state right after reset: STANDBY with PM_AUTO set, an empty queue of commands, an empty error record ring, and the reset values that
the tables of registers give. -/
def Obligations.ResetValuesOfTheTables : Prop :=
  let s := State.reset
  s.pending = [] ∧ s.queueWf = true ∧
  -- Table 17-8
  s.pm.st.code = 1 ∧ s.pm.step = 0 ∧ s.pm.cause.code = 0 ∧ s.pm.auto = true ∧ s.pm.start = false ∧ s.pm.stop = false ∧ s.pm.slot = 0 ∧
  s.pm.fallback = false ∧ s.pm.actPending = false ∧ s.pm.bootMs = 0 ∧ s.pm.da = none ∧ s.pm.eid = 0 ∧
  -- Table 12-2
  s.errProd = 0 ∧ s.errCons = 0 ∧ s.errOvf = 0 ∧ s.coreHang = 10 ∧ s.cpHang = 10 ∧ s.quarantine = [] ∧ s.dieFenced = [] ∧ s.failed = false ∧
  -- Table 18-7
  s.adminEn = false ∧ s.adminOn = false ∧ s.adminLog = 6 ∧ s.adminBase = 0 ∧ s.staleDb = 0 ∧
  -- Table 14-5
  s.power.cap = 5000 ∧ s.power.backstop = 0 ∧ s.power.unattr = 0 ∧
  -- Table 02-13: tokens, STEP and MFLAGS of every core
  (∀ c, (s.core c).step = 0 ∧ (s.core c).mflags = 0 ∧ ∀ t, (s.core c).token t = 0) ∧
  -- Tables 18-14 and 11-5, and the regulators of Tables 11-3 and 11-4
  (∀ c, (s.channel c).scrubHours = 24 ∧ (s.channel c).corrCount = 0 ∧ (s.channel c).capNow = 2560 ∧ (s.channel c).cresult = 0 ∧
    (s.channel c).missCount = 0 ∧ (s.channel c).demoted = 0 ∧ (s.channel c).regs = []) ∧
  (∀ c, (s.cluster c).csmWays = 0 ∧ (s.cluster c).keyDeny = 0) ∧
  -- Tables 13-6 and 08-1
  (∀ h, (s.key h).type = .none ∧ (s.key h).valid = false ∧ (s.key h).engines = 0 ∧ (s.key h).owner = 0 ∧ (s.key h).uses = 0) ∧
  (∀ n, (s.fence n).state = .free) ∧
  -- Tables 15-10 and 18-15
  (∀ l, (s.link l).state = .down ∧ (s.link l).epoch = 0 ∧ (s.link l).disable = false ∧ (s.link l).replay = 0) ∧ s.fabV = false ∧ s.fabAddr = 0 ∧
  s.walk.wstatus = 0 ∧ s.walk.wcount = 0 ∧ (∀ d, s.mask d = 0) ∧
  (∀ p, (s.port p).mode = 0 ∧ (s.port p).modesEn = 0x3F ∧ (s.port p).dscp = 26 ∧ (s.port p).pcp = 3 ∧ (s.port p).pfcPrio = 3 ∧
    (s.port p).pfcEn = false ∧ (s.port p).dupOps = 0)

/-! ### Control slot -/

/-- The register instructions of Table 02-4: XD receives the value that the table gives, issue passes the bundle, the header's tokens are
consumed and posted, and nothing else of the machine changes. LDHI with IMM[35:32] not zero is core fault RESERVED_NONZERO. -/
def Obligations.RegisterInstructionsWriteXdAndPass : Prop :=
  ∀ (s : State) (c : CoreId) (h : Hdr) (xd xa xb : Fin 32) (imm : BitVec 36), s.issues c h →
    let a := (s.core c).xr xa
    let b := (s.core c).xr xb
    let n := b.toNat % 64
    let i := imm.signExtend 64
    let m := imm.toNat % 64
    (∀ p ∈ [
        (Instr.add c h xd xa xb, a + b),
        (Instr.sub c h xd xa xb, a - b),
        (Instr.and c h xd xa xb, a &&& b),
        (Instr.or c h xd xa xb, a ||| b),
        (Instr.xor c h xd xa xb, a ^^^ b),
        (Instr.shl c h xd xa xb, a <<< n),
        (Instr.shr c h xd xa xb, a >>> n),
        (Instr.sar c h xd xa xb, a.sshiftRight n),
        (Instr.mul c h xd xa xb, a * b),
        (Instr.mulh c h xd xa xb, BitVec.ofInt 64 (a.toInt * b.toInt / 2 ^ 64)),
        (Instr.min c h xd xa xb, if b.toInt < a.toInt then b else a),
        (Instr.max c h xd xa xb, if a.toInt < b.toInt then b else a),
        (Instr.slt c h xd xa xb, if a.toInt < b.toInt then 1 else 0),
        (Instr.sltu c h xd xa xb, if a.toNat < b.toNat then 1 else 0),
        (Instr.addi c h xd xa imm, a + i),
        (Instr.andi c h xd xa imm, a &&& i),
        (Instr.ori c h xd xa imm, a ||| i),
        (Instr.xori c h xd xa imm, a ^^^ i),
        (Instr.shli c h xd xa imm, a <<< m),
        (Instr.shri c h xd xa imm, a >>> m)],
      exec p.1 s = .next (s.passed c h fun k => k.setX xd p.2)) ∧
    (imm.toNat < 2 ^ 32 →
      exec (.ldhi c h xd xa imm) s = .next (s.passed c h fun k => k.setX xd ((a <<< 32) ||| (imm.truncate 32).zeroExtend 64))) ∧
    (2 ^ 32 ≤ imm.toNat → exec (.ldhi c h xd xa imm) s = s.answer (s.fault c 0x02 (s.core c).pc 0))

/-- X0 reads as zero and discards writes; any other register holds the value last written to it, and a write to one register leaves every
other register and the rest of the core. -/
def Obligations.RegisterZeroIsHardwired : Prop :=
  ∀ (k : Core) (r q : Fin 32) (v : Word64),
    k.xr 0 = 0 ∧ k.setX 0 v = k ∧ (r ≠ 0 → (k.setX r v).xr r = v) ∧ (q ≠ r → (k.setX r v).xr q = k.xr q) ∧
      k.setX r v = { k with x := (k.setX r v).x }

/-- NOP passes its bundle; the branches go to TARGET when their condition holds and TARGET lies within the code, and pass their bundle
when it does not hold; HALT stops issue. A taken branch ends the loops out of whose body it leads (R58). -/
def Obligations.BranchesFollowTheirConditions : Prop :=
  ∀ (s : State) (c : CoreId) (h : Hdr) (xa xb : Fin 32) (t : BitVec 13), s.issues c h →
    let k := s.core c
    let a := k.xr xa
    let b := k.xr xb
    exec (.nop c h) s = .next (s.passed c h id) ∧
    exec (.halt c h) s = .next (s.setCore c ({ k.consume h with ctl := .halting }.posted h)) ∧
    ∀ p ∈ [
        (Instr.j c h t, true),
        (Instr.beq c h xa xb t, a == b),
        (Instr.bne c h xa xb t, a != b),
        (Instr.blt c h xa xb t, decide (a.toInt < b.toInt)),
        (Instr.bge c h xa xb t, decide (b.toInt ≤ a.toInt)),
        (Instr.bltu c h xa xb t, decide (a.toNat < b.toNat))],
      (p.2 = false → exec p.1 s = .next (s.passed c h id)) ∧
      (p.2 = true → t.toNat < k.codeLen →
        exec p.1 s = .next (s.jumped c h t.toNat
          (k.loops.filter fun l => decide (l.first ≤ t.toNat ∧ t.toNat ≤ l.target) || !decide (l.first ≤ k.pc ∧ k.pc ≤ l.target)) id))

/-- CALL pushes the next bundle and goes to TARGET; RET takes the last entry off the return stack, goes there and ends every loop entered
since; JR goes to the bundle that XA names; LOOP opens a loop of XA passes at the next bundle, or with XA zero passes TARGET where
the bundle after it lies within the code. -/
def Obligations.CallsReturnsAndLoops : Prop :=
  ∀ (s : State) (c : CoreId) (h : Hdr) (xa : Fin 32) (t : BitVec 13), s.issues c h →
    let k := s.core c
    let held (n : Nat) := k.loops.filter fun l => decide (l.first ≤ n ∧ n ≤ l.target) || !decide (l.first ≤ k.pc ∧ k.pc ≤ l.target)
    (k.ret.length < 16 → t.toNat < k.codeLen →
      exec (.call c h t) s = .next (s.jumped c h t.toNat (held t.toNat) fun k' => { k' with ret := (k.pc + 1) :: k.ret })) ∧
    (∀ n r, k.ret = n :: r → n < k.codeLen →
      exec (.ret c h) s = .next (s.jumped c h n (k.loops.filter fun l => decide (l.retDepth < k.ret.length)) fun k' => { k' with ret := r })) ∧
    ((k.xr xa).toNat < 2 ^ 13 → (k.xr xa).toNat < k.codeLen →
      exec (.jr c h xa) s = .next (s.jumped c h (k.xr xa).toNat (held (k.xr xa).toNat) id)) ∧
    (k.loops.length < 4 → k.pc < t.toNat → k.xr xa ≠ 0 →
      exec (.loop c h xa t) s =
        .next (s.jumped c h (k.pc + 1) (⟨k.pc + 1, t.toNat, (k.xr xa).toNat, k.ret.length⟩ :: k.loops) id)) ∧
    (k.loops.length < 4 → k.pc < t.toNat → k.xr xa = 0 → (k.pass t.toNat).pc < k.codeLen →
      exec (.loop c h xa t) s = .next (s.setCore c (((k.consume h).pass t.toNat).posted h)))

/-- The loop-end test (R58): a bundle that is not the target of the innermost loop goes on to the next; at that target the loop repeats from
its first bundle while passes remain, and then ends, and the next outer loop is tested. -/
def Obligations.LoopEndTest : Prop :=
  ∀ (pc : Nat) (l : LoopEntry) (ls : List LoopEntry),
    passLoops pc [] = (pc + 1, []) ∧
    (l.target ≠ pc → passLoops pc (l :: ls) = (pc + 1, l :: ls)) ∧
    (l.target = pc → 1 < l.remaining → passLoops pc (l :: ls) = (l.first, { l with remaining := l.remaining - 1 } :: ls)) ∧
    (l.target = pc → l.remaining ≤ 1 → passLoops pc (l :: ls) = passLoops pc ls)

/-- LD, ST, TDLD and TDST with an aligned address inside local memory, no double-bit error and no poisoned granule under it: a load gives
the little-endian bytes there (R109: those that an executing ACCST leaves to be read, where it writes them; without one, the bytes of local
memory), into a tile descriptor without its reserved bits (R14), and changes no memory, and counts and flags the single-bit errors that it corrects; a store writes the
register's bytes there and changes no other byte of local memory. Nothing else of the machine changes. -/
def Obligations.LoadsAndStoresOfLocalMemory : Prop :=
  ∀ (s : State) (c : CoreId) (h : Hdr) (xd xa : Fin 32) (imm : BitVec 36), s.issues c h →
    let k := s.core c
    let a := (k.xr xa + imm.signExtend 64).toNat
    ((∀ r ∈ k.mrun, r.writes = []) → ∀ b n, k.peek b n = Mem.readBytes k.lm b n) ∧
    let flagged (k' : Core) (n : Nat) : Core := if k.lmSingle a n then k'.flag 6 else k'
    (a % 8 = 0 → a + 7 ≤ 0x5FFFFF → k.lmDouble a 8 = false → k.poisoned a 8 = false →
      exec (.ld c h xd xa imm) s =
        .next (s.passed c h fun k' => flagged ((k'.lmCorrect a 8).setX xd (BitVec.ofNat 64 (leNat (k.peek a 8)))) 8)) ∧
    (a % 32 = 0 → a + 31 ≤ 0x5FFFFF → k.lmDouble a 32 = false → k.poisoned a 32 = false →
      exec (.tdld c h xd xa imm) s =
        .next (s.passed c h fun k' =>
          flagged { k'.lmCorrect a 32 with td := Tbl.set k.td xd.val (BitVec.ofNat 256 (leNat (k.peek a 32)) &&& tdMask) } 32)) ∧
    (a % 8 = 0 → a + 7 ≤ 0x5FFFFF →
      Completes (.st c h xd xa imm) s fun t =>
        t = s.passed c h (fun k' => k'.lmWrite a (leBytes (k.xr xd).toNat 8)) ∧
        Mem.readLE (t.core c).lm a 8 = (k.xr xd).toNat ∧
        ∀ b, b < a ∨ a + 8 ≤ b → Mem.read (t.core c).lm b = Mem.read k.lm b) ∧
    (a % 32 = 0 → a + 31 ≤ 0x5FFFFF →
      Completes (.tdst c h xd xa imm) s fun t =>
        t = s.passed c h (fun k' => k'.lmWrite a (leBytes (k.tdr xd).toNat 32)) ∧
        Mem.readLE (t.core c).lm a 32 = (k.tdr xd).toNat ∧
        ∀ b, b < a ∨ a + 32 ≤ b → Mem.read (t.core c).lm b = Mem.read k.lm b)

/-- A misaligned access of LD, ST, TDLD or TDST is core fault ALIGN, and one past the end of local memory LOCAL_RANGE, and a TDLD
inside local memory is no fault whatever descriptor it loads (R57); a taken transfer to a bundle at or beyond the code length, a LOOP whose TARGET is not above its own index and one that skips to
such a bundle are IMEM_RANGE (R47, R58); CALL with sixteen return entries and RET with none are STACK, and
LOOP with four loops open is LOOP_DEPTH (R58). -/
def Obligations.AccessesAndTransfersOutOfRangeFault : Prop :=
  ∀ (s : State) (c : CoreId) (h : Hdr) (xd xa : Fin 32) (imm : BitVec 36) (t : BitVec 13), s.issues c h →
    let k := s.core c
    let a := (k.xr xa + imm.signExtend 64).toNat
    let fails (i : Instr) (code : Nat) : Prop :=
      exec i s = s.answer ((s.setCore c (k.consume h)).fault c code k.pc 0)
    (∀ p ∈ [(Instr.ld c h xd xa imm, 8), (.st c h xd xa imm, 8), (.tdld c h xd xa imm, 32), (.tdst c h xd xa imm, 32)],
      (a % p.2 ≠ 0 → fails p.1 0x06) ∧ (a % p.2 = 0 → 0x5FFFFF < a + p.2 - 1 → fails p.1 0x05)) ∧
    (a % 32 = 0 → a + 31 ≤ 0x5FFFFF → k.lmDouble a 32 = false → k.poisoned a 32 = false →
      Completes (.tdld c h xd xa imm) s fun t => (t.core c).ctl = .running) ∧
    (k.codeLen ≤ t.toNat → fails (.j c h t) 0x03) ∧
    (k.loops.length < 4 → t.toNat ≤ k.pc → fails (.loop c h xa t) 0x03) ∧
    (k.loops.length < 4 → k.pc < t.toNat → k.xr xa = 0 → k.codeLen ≤ (k.pass t.toNat).pc → fails (.loop c h xa t) 0x03) ∧
    (16 ≤ k.ret.length → fails (.call c h t) 0x0B) ∧
    (k.ret = [] → fails (.ret c h) 0x0B) ∧
    (4 ≤ k.loops.length → fails (.loop c h xa t) 0x0C)

/-- A core fault (R84) on a core that is bound to no ended or faulted program stops the core, keeps the code, the bundle and the slot,
drops the core's waits and arms, and brings about the loss of its context; on a core that is idle, faulted or ended nothing happens. -/
def Obligations.ACoreFaultStopsItsCore : Prop :=
  ∀ (s : State) (c code pc slot : Nat),
    ((s.core c).ctl.live = true →
      ((s.coreFault c code pc slot).1.core c).ctl = .faulted ∧
      ((s.coreFault c code pc slot).1.core c).fault = some ⟨code, pc, slot⟩ ∧
      ((s.coreFault c code pc slot).1.core c).x = (s.core c).x ∧
      ((s.coreFault c code pc slot).1.core c).lm = (s.core c).lm ∧
      (∀ w ∈ (s.coreFault c code pc slot).1.waits, w ∈ s.waits ∧ w.who.ofCore c = false) ∧
      (s.coreFault c code pc slot).2 = [.lose (s.core c).ctx]) ∧
    ((s.core c).ctl.live = false → s.coreFault c code pc slot = (s, []))

/-- CSRR gives the core state registers of Table 02-13 (a token as it stands after the header's wait); CSRW, CSRS and CSRC change STEP and
CLASS whole, by setting or by clearing bits, and clear the bits of MFLAGS that XA holds (for CSRS and CSRC the model's reading,
assumption 17); any other number, and a write to a read-only one, is core fault CSR_INVALID (R59). -/
def Obligations.CoreStateRegisters : Prop :=
  ∀ (s : State) (c : CoreId) (h : Hdr) (xd xa : Fin 32) (imm : BitVec 36), s.issues c h →
    let k := s.core c
    let n := imm.toNat % 2 ^ 12
    let v := k.xr xa
    let done (f : Core → Core) : State := s.passed c h f
    (∀ p ∈ [(0x000, BitVec.ofNat 64 c.val), (0x001, BitVec.ofNat 64 (k.vcore % 2 ^ 32)), (0x002, BitVec.ofNat 64 k.ctx),
        (0x003, BitVec.ofNat 64 k.part), (0x004, BitVec.ofNat 64 s.ltime), (0x010, k.step.zeroExtend 64), (0x011, k.seed),
        (0x012, k.cls.zeroExtend 64), (0x020, k.mflags.zeroExtend 64)],
      n = p.1 → exec (.csrr c h xd xa imm) s = .next (done fun k' => k'.setX xd p.2)) ∧
    (∀ t : Fin 16, n = 0x030 + t.val →
      exec (.csrr c h xd xa imm) s = .next (done fun k' => k'.setX xd (BitVec.ofNat 64 (k'.token t)))) ∧
    (n = 0x010 →
      exec (.csrw c h xd xa imm) s = .next (done fun k' => { k' with step := v.truncate 32 }) ∧
      exec (.csrs c h xd xa imm) s = .next (done fun k' => { k' with step := k.step ||| v.truncate 32 }) ∧
      exec (.csrc c h xd xa imm) s = .next (done fun k' => { k' with step := k.step &&& ~~~(v.truncate 32) })) ∧
    (n = 0x012 →
      exec (.csrw c h xd xa imm) s = .next (done fun k' => { k' with cls := v.truncate 3 }) ∧
      exec (.csrs c h xd xa imm) s = .next (done fun k' => { k' with cls := k.cls ||| v.truncate 3 }) ∧
      exec (.csrc c h xd xa imm) s = .next (done fun k' => { k' with cls := k.cls &&& ~~~(v.truncate 3) })) ∧
    (n = 0x020 → ∀ i ∈ [Instr.csrw c h xd xa imm, .csrs c h xd xa imm, .csrc c h xd xa imm],
      exec i s = .next (done fun k' => { k' with mflags := k.mflags &&& ~~~(v.truncate 7) })) ∧
    (n ∉ [0x000, 0x001, 0x002, 0x003, 0x004, 0x010, 0x011, 0x012, 0x020] → (n < 0x030 ∨ 0x03F < n) →
      exec (.csrr c h xd xa imm) s = s.answer ((s.setCore c (k.consume h)).fault c 0x0D k.pc 0)) ∧
    (n ≠ 0x010 → n ≠ 0x012 → n ≠ 0x020 → ∀ i ∈ [Instr.csrw c h xd xa imm, .csrs c h xd xa imm, .csrc c h xd xa imm],
      exec i s = s.answer ((s.setCore c (k.consume h)).fault c 0x0D k.pc 0))

/-- ALLOC and FREE queue a call at the allocator of the core's cluster, and with FSIG, FADD and FREAD, and RFREAD of a fence of this module,
leave the control unit blocked on the operation, with no register written and its bundle not passed (R44, R62, R81). -/
def Obligations.BlockingOperationsHoldTheControlUnit : Prop :=
  ∀ (s : State) (c : CoreId) (h : Hdr) (xd xa xb : Fin 32) (imm : BitVec 36), s.issues c h →
    let k := s.core c
    let held (op : CtlOp) : State := s.setCore c { k.consume h with ctl := .blocked ⟨op, h, none, none⟩ }
    let calling (a : AllocCall) (t : State) : State := t.modCluster (clusterOf c) fun g => { g with calls := g.calls ++ [a] }
    exec (.alloc c h xd xa imm) s = .next (calling ⟨c, false, k.xr xa, imm⟩ (held (.alloc xd xa imm))) ∧
    exec (.free c h xd xa xb) s = .next (calling ⟨c, true, k.xr xa, 0⟩ (held (.free xd xa xb))) ∧
    exec (.fsig c h xd xa xb) s = .next (held (.fsig xd xa xb)) ∧
    exec (.fadd c h xd xa xb) s = .next (held (.fadd xd xa xb)) ∧
    exec (.fread c h xd xa xb) s = .next (held (.fread xd xa xb)) ∧
    (bits ((k.xr xa).toNat % 2 ^ 48) 47 32 = s.fabAddr → exec (.rfread c h xd xa xb) s = .next (held (.rfread xd xa xb)))

/-- Of the instructions of the control slot only ST and TDST change memory, and these only the local memory of their own core, whose canonical
form they keep; and no instruction of the control slot lowers a fence. This holds for every state and every way in which the instruction
ends, faults and the loss of contexts among them. -/
def Obligations.ControlSlotKeepsMemoryAndFences : Prop :=
  ∀ (c : CoreId) (h : Hdr) (op : CtlOp) (s t : State), exec (Instr.ofCtl c h op) s = .next t →
    FencesRise s t ∧
    ((∀ xd xa imm, op ≠ .st xd xa imm ∧ op ≠ .tdst xd xa imm) → MemoryKept s t) ∧
    (∀ d, d ≠ c.val → (t.core d).lm = (s.core d).lm) ∧ (∀ g, (t.cluster g).scratch = (s.cluster g).scratch) ∧
    t.channels = s.channels ∧ t.recordArea = s.recordArea ∧
    ((s.core c).lm.wf = true → (t.core c).lm.wf = true)

/-! ### Fences and barriers -/

/-- R226 and R228: a signal of `v` to a LIVE fence that may be used and is not saturated raises it to a greater `v`, leaves an equal value, and
discards a lower one, counting it in DROPS and SYN_DROP; while the fence is saturated every signal and every add is refused with SATURATED
and leaves its value. -/
def Obligations.SignalsRaiseAndNeverLower : Prop :=
  ∀ (s : State) (n v : Nat) (p : Principal) (acked : Bool), s.usable n p → (s.fence n).state = .live →
    let c := (s.fence n).value
    let h := (s.fence n).home
    let r := s.fenceSignal n v p acked
    let t := r.2.1
    (c < 2 ^ 64 - 1 →
      (c < v → r.1 = 0 ∧ (t.fence n).value = v) ∧
      (v = c → r.1 = 0 ∧ (t.fence n).value = c ∧ (t.fence n).drops = (s.fence n).drops ∧ r.2.2 = []) ∧
      (v < c → r.1 = 4 ∧ (t.fence n).value = c ∧ (t.fence n).drops = min ((s.fence n).drops + 1) 0xFFFF ∧ r.2.2 = [] ∧
        (t.cluster h).hub.cnt.drop = min (((s.hubMessage h).cluster h).hub.cnt.drop + 1) (2 ^ 32 - 1))) ∧
    (2 ^ 64 - 1 ≤ c →
      r.1 = 5 ∧ (t.fence n).value = c ∧ r.2.2 = [] ∧
      (t.cluster h).hub.cnt.sat = min (((s.hubMessage h).cluster h).hub.cnt.sat + 1) (2 ^ 32 - 1) ∧
      (s.fenceAdd n v p acked).1 = 5 ∧ ((s.fenceAdd n v p acked).2.1.fence n).value = c)

/-- R227: an add of `a` to a LIVE fence of value below 2^64 − 1 gives the exact sum with status OK where the sum is at most 2^64 − 1, and
otherwise 2^64 − 1 with status SATURATED, counted in SYN_SAT; an add of zero changes nothing and is OK. -/
def Obligations.AddsGiveTheExactSumOrSaturate : Prop :=
  ∀ (s : State) (n a : Nat) (p : Principal) (acked : Bool), s.usable n p → (s.fence n).state = .live → (s.fence n).value < 2 ^ 64 - 1 →
    let c := (s.fence n).value
    let r := s.fenceAdd n a p acked
    (a = 0 → r.1 = 0 ∧ (r.2.1.fence n).value = c ∧ r.2.2 = []) ∧
    (c + a ≤ 2 ^ 64 - 1 → r.1 = 0 ∧ (r.2.1.fence n).value = c + a) ∧
    (2 ^ 64 - 1 < c + a → r.1 = 5 ∧ (r.2.1.fence n).value = 2 ^ 64 - 1 ∧
      r.2 = (((s.admitOp n p).1.synCount (s.fence n).home .sat).putValue n (2 ^ 64 - 1)).raised n)

/-- R229 and R231: a wait for `g` on a usable fence is satisfied at once where the fence is LIVE and its value is at least `g`, returns
FENCE_ERROR on a fence in ERROR whatever `g` is, and is registered behind the waits that stand otherwise; a read gives the value of a LIVE
fence or of one in ERROR. A number beyond the store and a FREE fence answer NO_SUCH, and zero to a read. -/
def Obligations.WaitsAndReadsOfFences : Prop :=
  ∀ (s : State) (n g : Nat) (p : Principal) (w : Waiter),
    (s.usable n p →
      ((s.fence n).state = .error → (s.fenceWait n g p w).1 = some 2) ∧
      ((s.fence n).state = .live → g ≤ (s.fence n).value → (s.fenceWait n g p w).1 = some 0) ∧
      ((s.fence n).state = .live → (s.fence n).value < g →
        (s.fenceWait n g p w).1 = none ∧ ∃ cold, ∃ ws, (s.fenceWait n g p w).2.waits = ws ++ [⟨n, g, w, cold⟩] ∧ ws.length = s.waits.length) ∧
      (s.fenceRead n p).2.1 = (s.fence n).value) ∧
    (2 ^ 20 ≤ n ∨ (s.fence n).state = .free →
      (s.fenceWait n g p w).1 = some 3 ∧ (s.fenceRead n p).1 = 3 ∧ (s.fenceRead n p).2.1 = 0)

/-- FWAIT, and RFWAIT of a fence of this module: the wait is put to the home hub; a wait that is decided writes its status in XD and passes
the bundle, and one that is not leaves the control unit blocked until the wait ends or its timeout falls. BARW does the same with a barrier
instance of the core's cluster; RFWAIT and RFREAD of a fence of another module block, and WAIT or READ goes out under a fresh tag. -/
def Obligations.WaitsBlockOrGiveTheirStatus : Prop :=
  ∀ (s : State) (c : CoreId) (h : Hdr) (xd xa xb : Fin 32) (imm : BitVec 31), s.issues c h →
    let k := s.core c
    let u := s.setCore c (k.consume h)
    let n := (k.xr xa).toNat % 2 ^ 32
    let g := (k.xr xb).toNat
    let name := (k.xr xa).toNat % 2 ^ 48
    let until_ : Option Nat := if imm = 0 then none else some (s.ltime + imm.toNat)
    let put (op : CtlOp) (t : Option Nat) (v : State) : State := v.modCore c fun k' => { k' with ctl := .blocked ⟨op, h, none, t⟩ }
    let local_ (op : CtlOp) (r : Option Nat × State) : State :=
      match r.1 with
      | some st => r.2.finishReg c h k.pc xd (BitVec.ofNat 64 st)
      | none => put op until_ r.2
    exec (.fwait c h xd xa xb imm) s = s.answer (local_ (.fwait xd xa xb imm) (u.fenceWait n g (.ctx k.ctx) (.core c))) ∧
    exec (.barw c h xd xa xb imm) s = s.answer (local_ (.barw xd xa xb imm) (u.barWait c ((k.xr xa).toNat % 2 ^ 8) (.core c))) ∧
    (bits name 47 32 = s.fabAddr →
      exec (.rfwait c h xd xa xb imm) s =
        s.answer (local_ (.rfwait xd xa xb imm) (u.fenceWait (bits name 31 0) g (.ctx k.ctx) (.core c)))) ∧
    (bits name 47 32 ≠ s.fabAddr →
      exec (.rfwait c h xd xa xb imm) s =
        s.answer (put (.rfwait xd xa xb imm) until_ (u.startRemote c (bits name 47 32) (bits name 31 0) g false)) ∧
      exec (.rfread c h xd xa xb) s =
        s.answer (put (.rfread xd xa xb) none (u.startRemote c (bits name 47 32) (bits name 31 0) 0 true)))

/-- RFSIG and RFADD go on at once with OK in XD, and BARA goes on at once: to another module SIGNAL or ADD goes out without ACK_REQ; a fence of
this module takes the operation, a barrier the arrival, and what follows is settled. FTOK and BART on a token without an arm pass their bundle and
arm the token; on a token with an arm they are core fault TOKEN_OVERFLOW. -/
def Obligations.OperationsThatDoNotWait : Prop :=
  ∀ (s : State) (c : CoreId) (h : Hdr) (xd xa xb : Fin 32), s.issues c h →
    let k := s.core c
    let u := s.setCore c (k.consume h)
    let name := (k.xr xa).toNat % 2 ^ 48
    let n := bits name 31 0
    let v := (k.xr xb).toNat
    let tok : Fin 16 := Fin.ofNat 16 ((k.xr xd).toNat % 16)
    let ok (t : State) : State := t.finishReg c h k.pc xd 0
    (bits name 47 32 ≠ s.fabAddr →
      exec (.rfsig c h xd xa xb) s = s.answer (ok (u.send (.ctrl 0x01 (u.remoteMsg c (bits name 47 32) n 0 v)))) ∧
      exec (.rfadd c h xd xa xb) s = s.answer (ok (u.send (.ctrl 0x02 (u.remoteMsg c (bits name 47 32) n 0 v))))) ∧
    (bits name 47 32 = s.fabAddr →
      (let r := u.fenceSignal n v (.ctx k.ctx) false
       exec (.rfsig c h xd xa xb) s = s.answer (ok (r.2.1.settle r.2.2))) ∧
      (let r := u.fenceAdd n v (.ctx k.ctx) false
       exec (.rfadd c h xd xa xb) s = s.answer (ok (r.2.1.settle r.2.2)))) ∧
    (let r := u.barArriveCore (clusterOf c) ((k.xr xa).toNat % 2 ^ 8) c (.ctx k.ctx)
     exec (.bara c h xd xa xb) s = s.answer ((r.1.finishCtl c h k.pc id).settle r.2)) ∧
    (s.isArmed c tok = false →
      (let r := (u.finishCtl c h k.pc id).armFence c k.pc tok ((k.xr xa).toNat % 2 ^ 32) v
       exec (.ftok c h xd xa xb) s = s.answer (r.1.settle r.2)) ∧
      (let r := (u.finishCtl c h k.pc id).armBar c k.pc tok ((k.xr xa).toNat % 2 ^ 8)
       exec (.bart c h xd xa xb) s = s.answer (r.1.settle r.2))) ∧
    (s.isArmed c tok = true →
      exec (.ftok c h xd xa xb) s = s.answer (u.fault c 0x09 k.pc 0) ∧ exec (.bart c h xd xa xb) s = s.answer (u.fault c 0x09 k.pc 0))


/-! ### Bundles and the engines of a core -/

/-- A core that issues takes its next bundle (R42, R43): past the code it is core fault IMEM_RANGE, on bad parity IMEM_PARITY, and a bundle that
does not decode gives its first slot's fault. Once the control slot's wait is met and every engine named has room, the control slot executes on the
core whose queues have taken the engine slots, with the operands, STEP and CLASS as they stood before it (R43). An LD or TDLD of a marked granule
holds (R377), a wait that is not met holds the bundle,
and with every engine idle or held on a wait and no arm left it is TOKEN_DEADLOCK (R54). -/
def Obligations.BundlesIssueOnceTheyMay : Prop :=
  ∀ (s0 : State) (c : CoreId),
    let s := s0.clearCorr c
    let k := s.core c
    let b := Tbl.get 0 k.imem k.pc
    let h := slotHdr (slotOf b 0)
    let w (i : Nat) := slotOf b i
    ((s0.core c).ctl ≠ .running → exec (.bundleIssue c) s0 = .next s0) ∧
    ((s0.core c).ctl = .running →
      (k.codeLen ≤ k.pc → exec (.bundleIssue c) s0 = s0.answer (s.fault c 0x03 (k.codeLen - 1) 0)) ∧
      (k.pc < k.codeLen → k.imemBad.contains k.pc = true → exec (.bundleIssue c) s0 = s0.answer (s.fault c 0x04 k.pc 0)) ∧
      (k.pc < k.codeLen → k.imemBad.contains k.pc = false →
        (∀ code slot, bundleFault b = some (code, slot) → exec (.bundleIssue c) s0 = s0.answer (s.fault c code k.pc slot)) ∧
        (bundleFault b = none → ∀ f op, ctlDecode (w 0) = some (f, op) →
          (k.canWait h = true → k.roomFor b = true → op.onPoison k = false →
            exec (.bundleIssue c) s0 = s0.answer ((s.setCore c ((k.consume h).enqueue b)).control c h op)) ∧
          (k.canWait h = true → k.roomFor b = false ∨ op.onPoison k = true → exec (.bundleIssue c) s0 = s0.answer s) ∧
          (k.canWait h = false → k.enginesHeld = true → s.anyArm c = false →
            exec (.bundleIssue c) s0 = s0.answer (s.fault c 0x0A k.pc 0)) ∧
          (k.canWait h = false → k.enginesHeld = false ∨ s.anyArm c = true → exec (.bundleIssue c) s0 = s0.answer s)))) ∧
    (∀ op, matrixOp (w 1) = some op → ∃ e, ((k.consume h).enqueue b).mq = k.mq ++ [e] ∧ e.op = op ∧ e.tda = k.tdr (regAt (w 1) 45 41) ∧
      e.tdb = k.tdr (regAt (w 1) 40 36) ∧ e.tdc = k.tdr (regAt (w 1) 35 31) ∧ e.acc.val = bits (w 1) 30 27 ∧ e.step = k.step ∧ e.pc = k.pc) ∧
    (∀ op, vecOp (w 2) = some op → ∃ e, ((k.consume h).enqueue b).vq = k.vq ++ [e] ∧ e.op = op ∧ e.xa = k.xr (regAt (w 2) 40 36) ∧
      e.xb = k.xr (regAt (w 2) 35 31) ∧ e.xc = k.xr (regAt (w 2) 30 26) ∧ e.step = k.step ∧ e.pc = k.pc) ∧
    (∀ op, moveOp (w 3) = some op → ∃ e, ((k.consume h).enqueue b).xq = k.xq ++ [e] ∧ e.op = op ∧ e.xs = k.xr (regAt (w 3) 45 41) ∧
      e.xd = k.xr (regAt (w 3) 40 36) ∧ e.xl = k.xr (regAt (w 3) 35 31) ∧ e.td = k.tdr (regAt (w 3) 30 26) ∧ e.cls = k.cls ∧ e.pc = k.pc)

/-- MMA, MMAZ, ACCST, ACCLD and ACCZ at the head of the matrix queue, in R67's order of checks: a number that the mode forbids is ACC_INVALID
(R89), descriptors that are invalid, disagree or do not match the tag are DESC_INVALID (R67, R88). With the checks met, no poisoned granule and no
double-bit error under what is read, the instruction takes effect on its core alone and waits for its completion point with its flags; MMA
into an EMPTY accumulator acts as MMAZ, and ACCZ makes every number of an exact accumulator EMPTY. MMA and MMAZ do so once the arrays of
their C tile are granted, and wait until then (R438). The next instruction is the first of the queue that does not execute yet, where those
that do let it overlap (R108). -/
def Obligations.MatrixInstructionsActOnTheirAccumulators : Prop :=
  ∀ (s : State) (c : CoreId) (e : MatrixEntry),
    let k := s.core c
    let j := k.consume e.hdr
    let n := e.acc.val
    let a := Desc.of e.tda
    let b := Desc.of e.tdb
    let d := Desc.of e.tdc
    let exact := d.mode == 1
    let old := j.accu n
    let u : State := { s with freeIx := s.freeIx + 1 }
    let done (k' : Core) (fl : BitVec 7) : State := u.setCore c { k' with mrun := k'.mrun ++ [e.begin k fl s.freeIx], held := k'.held.filter (· != .matrix) }
    let row : MatrixOp → Instr
      | .mma => .mma c | .mmaz => .mmaz c | .accst => .accst c | .accld => .accld c | .accz => .accz c
    k.enginesLive = true → k.matrixNext = some e → k.grants .matrix e.hdr = true →
      (∀ op, op ≠ e.op → exec (row op) s = .next s) ∧
      (j.accFault e.op n (match e.op with | .accz => false | _ => exact) = true → exec (row e.op) s = s.answer (u.fault c 0x08 e.pc 1)) ∧
      (e.op = .accz → j.accFault .accz n false = false →
        Completes (.accz c) s fun t => OnlyCore c u t ∧ (∀ i ∈ j.accNums n, ((t.core c).accu i).cls = .empty) ∧
          (∀ i, i ∉ j.accNums n → (t.core c).accu i = k.accu i) ∧ (t.core c).mrun = k.mrun ++ [e.begin k 0 s.freeIx] ∧ (t.core c).lm = k.lm) ∧
      (e.op = .mma ∨ e.op = .mmaz → j.accFault e.op n exact = false →
        let fresh := e.op = .mmaz ∨ old.cls = .empty
        (mmaClass a b d = none → exec (row e.op) s = s.answer (u.fault c 0x07 e.pc 1)) ∧
        (∀ cls, mmaClass a b d = some cls →
          (¬ fresh → old.tagged cls d.rows d.cols d.wexp = false → exec (row e.op) s = s.answer (u.fault c 0x07 e.pc 1)) ∧
          (fresh ∨ (old.tagged cls d.rows d.cols d.wexp = true ∧ j.accDouble n = false) →
            let x : MmaIn := ⟨a, b, a.format, b.format⟩
            let rs := a.ranges x.fa ++ b.ranges x.fb ++ a.scaleRange (a.cols / 32) a.rows ++ b.scaleRange (a.cols / 32) b.cols
            j.anyPoison rs = false → j.anyDouble rs = false →
              (s.granted c ((tileArrays d).map fun i => 4 * (c.val % 4) + i) = false → exec (row e.op) s = .next s) ∧
              (s.granted c ((tileArrays d).map fun i => 4 * (c.val % 4) + i) = true → Completes (row e.op) s fun t => OnlyCore c u t ∧
                (t.core c).accu n = (x.run k.lm cls d.wexp (if fresh then Acc.reset else old)).1 ∧
                (cls = .exact → ∀ i ∈ [1, 2, 3], ((t.core c).accu (n + i)).cls = .partOf n) ∧
                (t.core c).lm = k.lm ∧ ∃ fl, (t.core c).mrun = k.mrun ++ [e.begin k fl s.freeIx])))) ∧
      (e.op = .accst → j.accFault .accst n exact = false → ∀ cls, tdcCheck d = some cls → old.cls = .empty ∨ old.tagged cls d.rows d.cols d.wexp = true →
        j.accDouble n = false →
        let outs := (tileIdx d.rows d.cols).map fun p =>
          (p, storeElem old d.format (d.rounding k.seed e.step p.1 p.2) (Tbl.get 0 old.elems (p.1 * d.cols + p.2)) (Tbl.get 0 old.sp (p.1 * d.cols + p.2)))
        exec (.accst c) s = .next (done (d.store d.format (j.accCorrect n) (outs.map fun o => (o.1, o.2.1))) (outs.foldl (fun fl o => fl ||| o.2.2) 0))) ∧
      (e.op = .accld → j.accFault .accld n exact = false → ∀ cls, tdcCheck d = some cls →
        j.anyPoison (d.ranges d.format) = false → j.anyDouble (d.ranges d.format) = false →
        let es := (tileIdx d.rows d.cols).map fun p => loadElem cls d.format d.wexp (d.elem d.format k.lm p.1 p.2)
        Completes (.accld c) s fun t => OnlyCore c u t ∧
          (t.core c).accu n = ⟨cls, d.rows, d.cols, if cls = .exact then d.wexp else 0, elemTbl (es.map fun e => e.1), spTbl (es.map fun e => e.2)⟩ ∧
          (t.core c).lm = k.lm ∧ ∃ fl, (t.core c).mrun = k.mrun ++ [e.begin k fl s.freeIx])

/-! ### The vector unit and its arithmetic -/

/-- Every vector instruction at the head of the vector queue: one that is no load or store writes VD alone and takes its flags to its completion
point; VLD and VLDS fill VD with the bytes of 32 granules and VST and VSTS write VD to them (R144). An address or stride that is not a multiple of
128 is ALIGN, and a granule beyond local memory LOCAL_RANGE. Nothing but the core changes, and a different instruction at the head means that the
command does nothing. The instruction executes once its core's vector unit is granted, and waits until then (R438). -/
def Obligations.VectorInstructionsWriteTheirDestination : Prop :=
  ∀ (s : State) (c : CoreId) (e : VecEntry), (s.core c).atVec e →
    let k := s.core c
    let j := k.consume e.hdr
    let u : State := { s with freeIx := s.freeIx + 1 }
    let done (k' : Core) (fl : BitVec 7) : State := u.setCore c { k' with vrun := some fl, held := k'.held.filter (· != .vector) }
    let load := e.op = .vld ∨ e.op = .vlds
    let store := e.op = .vst ∨ e.op = .vsts
    let strided : Bool := e.op == .vlds || e.op == .vsts
    let at_ (i : Nat) : Nat := (e.xa + e.modf.signExtend 64 + BitVec.ofNat 64 i * (if strided then e.xb else 128)).toNat
    let on := s.granted c [16 + c.val % 4]
    (∀ op, op ≠ e.op → exec (Instr.ofVec c op) s = .next s) ∧
    (¬ load → ¬ store →
      let r := e.result j (Config.freeBool s.freeIx)
      exec (Instr.ofVec c e.op) s = .next (if on then done (j.setVreg e.vd r.1) r.2 else s)) ∧
    (load ∨ store →
      (at_ 0 % 128 ≠ 0 ∨ (strided = true ∧ e.xb.toNat % 128 ≠ 0) → exec (Instr.ofVec c e.op) s = s.answer (u.fault c 0x06 e.pc 2)) ∧
      (at_ 0 % 128 = 0 → (strided = true → e.xb.toNat % 128 = 0) → (∃ i, i < 32 ∧ 0x5FFFFF < at_ i + 127) →
        exec (Instr.ofVec c e.op) s = s.answer (u.fault c 0x05 e.pc 2)) ∧
      (at_ 0 % 128 = 0 → (strided = true → e.xb.toNat % 128 = 0) → (∀ i, i < 32 → at_ i + 127 ≤ 0x5FFFFF) →
        (on = false → store ∨ (∀ i, i < 32 → j.poisoned (at_ i) 128 = false ∧ j.lmDouble (at_ i) 128 = false) →
          exec (Instr.ofVec c e.op) s = .next s) ∧
        (load → on = true → (∀ i, i < 32 → j.poisoned (at_ i) 128 = false ∧ j.lmDouble (at_ i) 128 = false) →
          Completes (Instr.ofVec c e.op) s fun t => OnlyCore c u t ∧ (t.core c).vrun.isSome = true ∧ (t.core c).lm = k.lm ∧
            (∀ r, r ≠ e.vd → (t.core c).vreg r = k.vreg r) ∧
            (t.core c).vreg e.vd =
              BitVec.ofNat 32768 (leNat (((List.range 32).map fun i => k.peek (at_ i) 128).flatten))) ∧
        (store → on = true →
          Completes (Instr.ofVec c e.op) s fun t => OnlyCore c u t ∧ (t.core c).vrun = some 0 ∧ (t.core c).v = k.v ∧
            (t.core c).lm = (List.range 32).foldl
              (fun m i => Mem.writeBytes m (at_ i) (leBytes ((k.vreg e.vd).toNat / 2 ^ (1024 * i) % 2 ^ 1024) 128)) k.lm)))

/-- What an element-by-element instruction writes: element `i` of VD is the operation on the elements `i` of its sources, for the arithmetic and the
functions of 0x01 to 0x29, the integer group, VCMP (all ones or zero), VSEL and VCLASS, which sets one of the bits 0 to 9 (R131, R133, R134);
VBCAST takes element ⌊i/2^g⌋, VPERM the element that VB names or zero, and VTRANS transposes (R130, R143). -/
def Obligations.ElementsOfVectorResults : Prop :=
  ∀ (k : Core) (e : VecEntry) (free : Bool) (n i : Nat), elemCount e.dt.toNat = some n → i < n →
    let dt := e.dt.toNat
    let m := e.modf.toNat
    let f := dtFmt dt
    let w := f.bits
    let el (r : VReg) (j : Nat) : Nat := (r.toNat / 2 ^ (w * j)) % 2 ^ w
    let a := el (k.vreg e.va)
    let b := el (k.vreg e.vb)
    let z := el (k.vreg e.vc)
    let d := el (e.result k free).1 i
    (e.op ∈ [VecOp.vadd, .vsub, .vmul, .vfma, .vfms, .vdiv, .vsqrt, .vrsqrt, .vrcp, .vmin, .vmax, .vabs, .vneg, .vexp, .vexp2, .vlog, .vlog2, .vsin,
        .vcos, .vtanh, .vsigm, .verf, .vgelu] → d = (vecArith e.op dt m (a i) (b i) (z i)).1 % 2 ^ w) ∧
    (e.op = .viadd → d = (a i + b i) % 2 ^ w) ∧
    (e.op = .visub → (d + b i) % 2 ^ w = a i) ∧
    (e.op = .vimul → d = (a i * b i) % 2 ^ w) ∧
    (e.op = .vand → d = a i &&& b i) ∧ (e.op = .vor → d = a i ||| b i) ∧ (e.op = .vxor → d = a i ^^^ b i) ∧
    (∀ cnt, cnt = (if bit m 21 then bits m 5 0 else b i) % w →
      (e.op = .vshl → d = (a i * 2 ^ cnt) % 2 ^ w) ∧ (e.op = .vshr → d = a i / 2 ^ cnt) ∧
      (e.op = .vsar → d = ofSigned w (toSigned w (a i) / 2 ^ cnt))) ∧
    (e.op = .vimax → d = if bit m 0 then ofSigned w (min (toSigned w (a i)) (toSigned w (b i))) else ofSigned w (max (toSigned w (a i)) (toSigned w (b i)))) ∧
    (e.op = .vcmp → d = if (vecCmp f m (a i) (b i)).1 then 2 ^ w - 1 else 0) ∧
    (e.op = .vsel → d = if z i ≠ 0 then a i else b i) ∧
    (e.op = .vclass → dtFloat dt = true → ∃ j, j < 10 ∧ (vecClass f (a i)).1 = 2 ^ j ∧ d = 2 ^ j) ∧
    (e.op = .vbcast → d = a (i / 2 ^ m)) ∧
    (e.op = .vperm → w ≠ 8 → d = if (k.vreg e.vb).toNat / 2 ^ (16 * i) % 2 ^ 16 < n then a ((k.vreg e.vb).toNat / 2 ^ (16 * i) % 2 ^ 16) else 0) ∧
    (e.op = .vtrans → m ≤ elemLog dt → ∀ r col, i = col * (n / 2 ^ m) + r → r < n / 2 ^ m → d = a (r * 2 ^ m + col))

/-- One rounding (R102): a magnitude `m·2^e` rounded to units `2^q` is exact where no bit lies below the unit. Otherwise truncation drops what
lies below; round to nearest is never further than half a unit away and takes the even neighbour from the middle; and stochastic rounding gives the
upper neighbour exactly where the sixteen bits below the unit and the random value together reach 2^16. -/
def Obligations.OneRoundingOfAMagnitude : Prop :=
  ∀ (q e : Int) (m u : Nat),
    (∀ r, q ≤ e → roundAt r q m e = m * 2 ^ (e - q).toNat) ∧
    (e < q →
      let h := 2 ^ (q - e).toNat
      let d := roundAt .truncate q m e
      let n := roundAt .nearest q m e
      (d * h ≤ m ∧ m < (d + 1) * h) ∧
      (2 * (n * h) ≤ 2 * m + h ∧ 2 * m ≤ 2 * (n * h) + h) ∧
      ((2 * (n * h) = 2 * m + h ∨ 2 * m = 2 * (n * h) + h) → n % 2 = 0) ∧
      roundAt (.stochastic u) q m e = d + (if 2 ^ 16 ≤ (m - d * h) * 2 ^ 16 / h + u then 1 else 0))

/-- Exact accumulation is the same in any order and for any split (R115 to R118): what a set of values enters into a window, its clamps and its
special state do not depend on their order, and an element updated with one list of values and then with another holds, bit for bit, the
integer and the special state of one update with both. -/
def Obligations.ExactSumsDoNotDependOnOrderOrSplit : Prop :=
  ∀ (wexp : Int) (l l' : List FV),
    let gather (sp : Nat) (vs : List FV) : ExactSum := vs.foldl (ExactSum.enter wexp) ⟨0, 0, false, sp⟩
    let after (old : BitVec 128) (z : ExactSum) : BitVec 128 := BitVec.ofNat 128 (ofSigned 128 (toSigned 128 old.toNat + z.pos + z.neg))
    (∀ sp, sp ≤ 3 → l.Perm l' → gather sp l = gather sp l') ∧
    (∀ (old : BitVec 128) sp, sp ≤ 3 →
      let z1 := gather sp l
      let z2 := gather z1.sp l'
      let z := gather sp (l ++ l')
      after (after old z1) z2 = after old z ∧ z2.sp = z.sp ∧ (z1.clamped || z2.clamped) = z.clamped)

/-! ### The move unit -/

/-- A move between local memory, cluster shared scratch and a stream engine (R69, R70, R148) at the head of the move queue, none of its checks
failing and no poisoned granule or double-bit error under what it reads: the source is read whole before the first write; MCPY, MGATH and MTRN
change local memory alone, MCSR reads scratch and MCSW writes it, and MSTRM hands a 128-byte descriptor to a stream engine with a place free,
and waits for one otherwise. A check that fails is the first in the order ALIGN, LOCAL_RANGE, CSM_RANGE, PART_RANGE, and moves nothing. -/
def Obligations.MovesInsideACluster : Prop :=
  ∀ (s : State) (c : CoreId) (e : MoveEntry), (s.core c).atMove e →
    let k := s.core c
    let xs := e.xs.toNat
    let xd := e.xd.toNat
    let n := e.xl.toNat
    let d := Desc.of e.td
    let rs := moveReads k e
    let w := ((Fmt.ofCode d.fmt).map fun f => f.bits).getD 8
    let lineB := ((Fmt.ofCode d.fmt).map fun f => d.lineBytes f).getD 0
    let cl := clusterOf c
    let clean := (∀ r ∈ rs, k.poisoned r.1 r.2 = false ∧ k.lmDouble r.1 r.2 = false)
    let fails (code : Nat) : Prop := exec (Instr.ofMove c e.op) s = s.answer ((s.setCore c (k.consume e.hdr)).fault c code e.pc 3)
    (∀ op, op ≠ e.op → exec (Instr.ofMove c op) s = .next s) ∧
    (∀ code, s.moveFault c k e = some code → fails code) ∧
    (e.op = .mcpy → xs % 32 ≠ 0 ∨ xd % 32 ≠ 0 ∨ n % 32 ≠ 0 → fails 0x06) ∧
    (e.op = .mcpy → xs % 32 = 0 ∧ xd % 32 = 0 ∧ n % 32 = 0 → n ≠ 0 → 0x5FFFFF < xs + n - 1 ∨ 0x5FFFFF < xd + n - 1 → fails 0x05) ∧
    (e.op = .mcsr ∨ e.op = .mprd → xs % 64 ≠ 0 ∨ xd % 32 ≠ 0 ∨ n % 64 ≠ 0 → fails 0x06) ∧
    (e.op = .mcsw ∨ e.op = .mpwr → xd % 64 ≠ 0 ∨ xs % 32 ≠ 0 ∨ n % 64 ≠ 0 → fails 0x06) ∧
    (e.op = .mcsr → xs % 64 = 0 ∧ xd % 32 = 0 ∧ n % 64 = 0 → xd + n ≤ 0x600000 → n ≠ 0 → (16 - (s.cluster cl).csmWays) * 524288 < xs + n → fails 0x0E) ∧
    (s.moveFault c k e = none → clean →
      (e.op = .mcpy → Completes (.mcpy c) s fun t => OnlyCore c s t ∧ (t.core c).xrun.isSome = true ∧
        (t.core c).lm = Mem.writeBytes k.lm xd (k.peek xs n)) ∧
      (e.op = .mgath → Completes (.mgath c) s fun t => OnlyCore c s t ∧ (t.core c).xrun.isSome = true ∧
        (t.core c).lm = (k.writeLinesAt xd d.rstride ((gatherOffsets k e).map fun o => k.peek (d.base + o) lineB)).lm) ∧
      (e.op = .mtrn → Completes (.mtrn c) s fun t => OnlyCore c s t ∧ (t.core c).xrun.isSome = true ∧
        (t.core c).lm = (k.writeLinesAt xd d.rstride
          (transposeLines w d.lineElems ((rangeFrom 0 d.lines).map fun i => k.peek (d.base + i * d.rstride) lineB))).lm) ∧
      (e.op = .mcsr → wordsIn (s.cluster cl).csmBad2 xs n = [] → Completes (.mcsr c) s fun t => (t.core c).xrun.isSome = true ∧
        (t.core c).lm = Mem.writeBytes k.lm xd (Mem.readBytes (s.cluster cl).scratch xs n) ∧ (∀ g, (t.cluster g).scratch = (s.cluster g).scratch) ∧
        (∀ g, g ≠ c.val → t.core g = s.core g) ∧ t.channels = s.channels ∧ t.fences = s.fences) ∧
      (e.op = .mcsw → Completes (.mcsw c) s fun t => (t.core c).xrun.isSome = true ∧ (t.core c).lm = k.lm ∧
        (t.cluster cl).scratch = Mem.writeBytes (s.cluster cl).scratch xd (k.peek xs n) ∧ (∀ g, g ≠ cl → t.cluster g = s.cluster g) ∧
        (∀ g, g ≠ c.val → t.core g = s.core g) ∧ t.channels = s.channels ∧ t.fences = s.fences) ∧
      (e.op = .mstrm → (s.engine (4 * cl + e.se.val)).queue.length < 16 → Completes (.mstrm c) s fun t =>
        (t.core c).xrun.isSome = true ∧ (t.core c).lm = k.lm ∧ (∀ g, g ≠ 4 * cl + e.se.val → t.engine g = s.engine g) ∧
        ∃ q, (t.engine (4 * cl + e.se.val)).queue = (s.engine (4 * cl + e.se.val)).queue ++ [q] ∧ q.ctx = k.ctx ∧ q.cls = e.cls ∧
          q.desc = (chunks 8 16 (k.peek xs 128)).map fun b => BitVec.ofNat 64 (leNat b)) ∧
      (e.op = .mstrm → 16 ≤ (s.engine (4 * cl + e.se.val)).queue.length → exec (.mstrm c) s = .next s))

/-- MPRD, MPWR and MPAMO move line by line (R70, R377): each line read is written to local memory, zero for a line that comes back poisoned or
ended, whose granules are marked once every line is there; each line written carries 64 bytes of local memory to its place in the partition. A
request that waits leaves the rest of the move to a later command; a move whose lines are all done stands for its completion point, and the command
completes with what its lines have brought about and nothing else. -/
def Obligations.MovesToAndFromPartitionMemory : Prop :=
  ∀ (s : State) (c : CoreId) (e : MoveEntry),
    ((s.core c).atMove e → s.moveFault c (s.core c) e = none →
      let b := s.modCore c fun k => k.beginMove e
      let n := e.xl.toNat / 64
      let finish (r : Bool × State × List Ev) : State := if r.1 then (r.2.1.modCore c Core.endMove).settle r.2.2 else r.2.1.settle r.2.2
      (e.op = .mprd →
        let r := b.readMove c e n
        let m := r.2.1.markPoison c (((r.2.1.core c).xmove.map fun x => x.bad).getD [])
        exec (.mprd c) s = s.answer (finish (r.1, if r.1 then m.1 else r.2.1, if r.1 then r.2.2 ++ m.2 else r.2.2))) ∧
      ((∀ p ∈ moveReads (s.core c) e, (s.core c).poisoned p.1 p.2 = false) →
        (e.op = .mpwr → exec (.mpwr c) s = s.answer (finish (b.writeMove c e n))) ∧
        (∀ o f, e.op = .mpamo → mopDecode e.mop.toNat = some (o, f) →
          exec (.mpamo c) s = s.answer (finish ((if o.reordersFloats f then b.markNotRepro c else b).writeMove c e n)))) ∧
      ((∃ p ∈ moveReads (s.core c) e, (s.core c).poisoned p.1 p.2 = true) → e.op = .mpwr ∨ e.op = .mpamo →
        exec (Instr.ofMove c e.op) s = .next s) ∧
      -- every line served and nothing else brought about: the move stands executed, its lines where they belong, no other core touched
      (let completes (i : Instr) (u : State) : Prop := Completes i s fun t => (t.core c).xrun.isSome = true ∧ (t.core c).lm = (u.core c).lm ∧
          (t.core c).poison = (u.core c).poison ∧ (∀ g, g ≠ c.val → t.core g = u.core g) ∧ t.channels = u.channels ∧ t.clusters = u.clusters ∧ t.fences = u.fences
       (∀ u, e.op = .mprd → b.readMove c e n = (true, u, []) → (∀ r, (u.core c).xmove = some r → r.bad = []) → completes (.mprd c) u) ∧
       ((∀ p ∈ moveReads (s.core c) e, (s.core c).poisoned p.1 p.2 = false) →
         (∀ u, e.op = .mpwr → b.writeMove c e n = (true, u, []) → completes (.mpwr c) u) ∧
         (∀ o f u, e.op = .mpamo → mopDecode e.mop.toNat = some (o, f) →
           (if o.reordersFloats f then b.markNotRepro c else b).writeMove c e n = (true, u, []) → completes (.mpamo c) u)))) ∧
    (∀ n r, (s.core c).xmove = some r →
      let q := s.coreReq c (e.xs.toNat + 64 * r.lines) e.cls
      let t := (s.demote (clusterOf c) e.cls q (.core c)).cachedRead (clusterOf c) q (.core c)
      let at_ := e.xd.toNat + 64 * r.lines
      let lost := t.1.status = .poison ∨ t.1.status = .ended
      (t.1.status = .hold → s.readMove c e (n + 1) = (false, t.2.1, t.2.2)) ∧
      (t.1.status ≠ .hold →
        let u := t.2.1.modCore c fun k =>
          (k.lmWrite at_ (bytesOfLine (if lost then 0 else t.1.data))).lineDone (if lost then some (e.xs.toNat + 64 * r.lines, at_) else none) false
        s.readMove c e (n + 1) = ((u.readMove c e n).1, (u.readMove c e n).2.1, t.2.2 ++ endedEv t.1.status (u.core c).ctx ++ (u.readMove c e n).2.2)))

/-! ### Completion points, answers, stopping and resuming -/

/-- INSTRUCTION_COMPLETION_POINT (R55): the executed instruction leaves its queue (a matrix instruction at its own completion point, by its place,
multiplications in order; what other issuers wrote meanwhile under what it reads or writes is taken on one side or the other, R108, R109), its flags are set in MFLAGS and its token is posted
with all it brings about; where nothing executes nothing happens, nor while a unit that it runs on holds no grant (R435). POISONED_GRANULE_READ (R377) notes the issuer that holds, once. -/
def Obligations.InstructionsCompleteAndPost : Prop :=
  ∀ (s : State) (c : CoreId), (s.core c).enginesLive = true →
    let k := s.core c
    (∀ (i : Fin 32) e r, k.mq[i.val]? = some e → k.mrun[i.val]? = some r → s.granted c (e.units c) = true →
      (e.op.isMul = true → ∀ p ∈ k.mq.take i, p.op.isMul = false) →
        let t := k.resolve i e r
        (r.torn = [] → r.raced = [] → t = (k, r.flags)) ∧
        exec (.instructionCompletionPoint c (.matrix i)) s =
          s.answer ((s.setCore c { t.1 with mq := t.1.mq.eraseIdx i, mrun := t.1.mrun.eraseIdx i, mflags := t.1.mflags ||| t.2 }).postHdr
            c e.hdr e.pc 1)) ∧
    (∀ e q fl, k.vq = e :: q → k.vrun = some fl → s.granted c (vecUnits c) = true →
      exec (.instructionCompletionPoint c .vector) s =
        s.answer ((s.setCore c { k with vq := q, vrun := none, mflags := k.mflags ||| fl }).postHdr c e.hdr e.pc 2)) ∧
    (∀ e q fl, k.xq = e :: q → k.xrun = some fl → (∀ r, k.xmove = some r → r.impure = false) →
      exec (.instructionCompletionPoint c .move) s =
        s.answer ((s.setCore c { k with xq := q, xrun := none, xmove := none, mflags := k.mflags ||| fl }).postHdr c e.hdr e.pc 3)) ∧
    (∀ (i : Fin 32) e, k.mq[i.val]? = some e → s.granted c (e.units c) = false →
      exec (.instructionCompletionPoint c (.matrix i)) s = .next s) ∧
    (s.granted c (vecUnits c) = false → exec (.instructionCompletionPoint c .vector) s = .next s) ∧
    (∀ i : Fin 32, k.mrun.length ≤ i → exec (.instructionCompletionPoint c (.matrix i)) s = .next s) ∧
    (k.vrun = none → exec (.instructionCompletionPoint c .vector) s = .next s) ∧
    (k.xrun = none → exec (.instructionCompletionPoint c .move) s = .next s) ∧
    (∀ g, k.headHolds g = true → k.held.contains g = false →
      exec (.poisonedGranuleRead c g) s = .next (s.setCore c { k with held := k.held ++ [g] })) ∧
    (∀ g, k.headHolds g = false ∨ k.held.contains g = true → exec (.poisonedGranuleRead c g) s = .next s) ∧
    -- a token posted once more is one higher, and from 63 it is core fault TOKEN_OVERFLOW (R51, R53)
    (∀ (h : Hdr) t pc slot, h.post = some t →
      (k.token t < 63 → s.postHdr c h pc slot = s.modCore c fun k => k.setToken t (k.token t + 1)) ∧
      (63 ≤ k.token t → s.tokenPost c t pc slot = (s, [.fault c 0x09 pc slot])))

/-- A blocked control unit goes on with the answer in XD (R62, R63, R81): SYNC_ANSWER with the answer that has come, or with the status or the
value that the home hub of this module gives FSIG, FADD, FREAD or RFREAD then; FENCE_WAIT_TIMEOUT at its time with TIMEOUT, the wait given up; and
ALLOCATOR_ANSWER with the address or the status of the cluster's oldest call. -/
def Obligations.AnswersUnblockTheControlUnit : Prop :=
  ∀ (s : State) (c : CoreId) (b : Blocked), (s.core c).ctl = .blocked b →
    let k := s.core c
    (∀ v, b.answer = some v → exec (.syncAnswer c) s = s.answer (s.unblock c b.hdr b.op.dest v)) ∧
    (b.answer = none → ∀ xd xa xb,
      let n := (k.xr xa).toNat % 2 ^ 32
      let v := (k.xr xb).toNat
      let name := (k.xr xa).toNat % 2 ^ 48
      (b.op = .fsig xd xa xb → exec (.syncAnswer c) s =
        let r := s.fenceSignal n v (.ctx k.ctx) true
        s.answer ((r.2.1.unblock c b.hdr xd (BitVec.ofNat 64 r.1)).settle r.2.2)) ∧
      (b.op = .fadd xd xa xb → exec (.syncAnswer c) s =
        let r := s.fenceAdd n v (.ctx k.ctx) true
        s.answer ((r.2.1.unblock c b.hdr xd (BitVec.ofNat 64 r.1)).settle r.2.2)) ∧
      (b.op = .fread xd xa xb → exec (.syncAnswer c) s =
        let r := s.fenceRead n (.ctx k.ctx)
        s.answer (r.2.2.unblock c b.hdr xd (BitVec.ofNat 64 r.2.1))) ∧
      (b.op = .rfread xd xa xb → bits name 47 32 = s.fabAddr → exec (.syncAnswer c) s =
        let r := s.fenceRead (bits name 31 0) (.ctx k.ctx)
        s.answer (r.2.2.unblock c b.hdr xd (BitVec.ofNat 64 r.2.1))) ∧
      (∀ d, b.deadline = some d → exec (.fenceWaitTimeout c) s =
        s.answer ((((s.advanceTo d).dropWaits fun w => w == .core c).cancelRemote c).unblock c b.hdr b.op.dest 1))) ∧
    (∀ (g : ClusterId) call rest, (s.cluster g).calls = call :: rest → call.core = c → s.quiesced (.clusterCp g) = false →
      let u := s.modCluster g fun x => { x with calls := rest }
      exec (.allocatorAnswer g) s = s.answer (
        if call.isFree then
          let r := u.release k.ctx (call.arg.toNat % 2 ^ 40)
          ((r.2.1.unblock c b.hdr b.op.dest (BitVec.ofNat 64 r.1)).settle r.2.2).holdSuspect c
        else
          let r := u.allocate k.ctx g call.arg.toNat call.imm.toNat
          (r.2.2.unblock c b.hdr b.op.dest (allocResult r.1 r.2.1)).holdSuspect c)) ∧
    (∀ t : State, (t.suspectCtx (t.core c).ctx = false → t.holdSuspect c = t) ∧
      (t.suspectCtx (t.core c).ctx = true → t.holdSuspect c = t.coreStop c)) ∧
    (∀ (t : State) v, (t.core c).ctl = .blocked b → b.hdr.post = none →
      t.unblock c b.hdr b.op.dest v = t.modCore c fun k => ({ k with ctl := .running }.setX b.op.dest v).pass (t.core c).pc)

/-- What the allocator gives (R78, R79): a range that begins on the alignment asked for, lies whole in the segment asked for, overlaps no live
allocation and no page barred from allocation, and is recorded for the context. -/
def Obligations.AllocationsAreAlignedAndDisjoint : Prop :=
  ∀ (s t : State) (n cl size imm a : Nat), s.allocate n cl size imm = (0, a, t) →
    let p := (s.ctx n).part
    let q := s.part p
    let bytes := (size + 4095) / 4096 * 4096
    ∃ align, allocAlign imm = some align ∧ a % align = 0 ∧ 0 < bytes ∧
      (let g : Segment := if bit imm 0 then .near cl else .interleaved
       segStart g ≤ a ∧ a + bytes ≤ segStart g + q.lay.segPages g * 4096) ∧
      (∀ x ∈ q.allocs, a + bytes ≤ x.base ∨ x.base + x.size ≤ a) ∧
      (∀ b ∈ s.barredPages q, a + bytes ≤ b ∨ b + 4096 ≤ a) ∧
      (t.part p).allocs = q.allocs ++ [⟨a, bytes, n, .heap (bits imm 7 4)⟩]

/-- PROGRAM_END (R60): a core at HALT with its queues empty and nothing executing ends, its waits and arms going, and leaves its RUN, which goes on
while another core of it runs; a core that another module started is reported to it; a core that is not there yet is left as it is. CORE_STOP (R82) stops a core that issues, waits at HALT or is blocked on a fence, saving its arms and dropping its waits, and keeps its
registers and memory; a core with a call at the allocator takes its answer first. CORE_RESUME (R83) sets the saved arms again and issues the abandoned
operation once more; a context that is stopped for a suspect region is not resumed (R381). -/
def Obligations.CoresEndStopAndResume : Prop :=
  ∀ (s : State) (c : CoreId),
    let k := s.core c
    let x := s.ctx k.ctx
    let ended := (s.dropWaits (Waiter.ofCore c)).modCore c fun k => { k with ctl := .ended }
    let m := s.coreReport c
    let its (d : Cmd) : Bool := d.run.any fun r => decide (r.forme = x.forme ∧ r.job = x.job ∧ r.seq = k.runSeq)
    let mine := s.queues.any fun e => !s.queueAway e.1 && e.2.cmds.any its
    (k.ctl = .halting → k.mq = [] → k.vq = [] → k.xq = [] → k.mrun = [] → k.vrun = none → k.xrun = none →
      (mine = true → exec (.programEnd (.core c)) s = s.answer (ended.leaveRun (some c) m)) ∧
      (∀ q u d rest r, s.queues = [(q, u)] → s.queueAway q = false → u.cmds = d :: rest → (∀ e ∈ rest, e.place ≠ d.place) → d.run = some r → its d = true →
        let cores := r.cores.filter fun o => decide (o ≠ c.val)
        let remote := r.remote.filter fun e => decide (e.2 ≠ k.vcore)
        cores ≠ [] ∨ remote ≠ [] → exec (.programEnd (.core c)) s = .next { ended with queues :=
          [(q, { u with cmds := { d with notRepro := d.notRepro || m.mark, run := some { r with cores := cores, remote := remote } } :: rest })] }) ∧
      (mine = false → exec (.programEnd (.core c)) s = .next (ended.send (.coreDone x.forme x.job k.vcore k.runSeq m.mark m.energy)))) ∧
    (k.ctl ≠ .halting ∨ k.mq ≠ [] ∨ k.vq ≠ [] ∨ k.xq ≠ [] → exec (.programEnd (.core c)) s = .next s) ∧
    (∀ h r, (k.ctl = .running ∧ h = false ∧ r = none) ∨ (k.ctl = .halting ∧ h = true ∧ r = none) →
      Completes (.coreStop c) s fun t =>
        t = ((s.dropGrants c).dropWaits (Waiter.ofCore c)).setCore c { (s.dropGrants c).core c with ctl := .stopped h r, savedArms := s.armsOf c } ∧
        (t.core c).x = k.x ∧ (t.core c).lm = k.lm ∧ (t.core c).pc = k.pc ∧ (∀ w ∈ t.waits, w.who.ofCore c = false)) ∧
    (∀ b, k.ctl = .blocked b → (∀ xd xa imm, b.op ≠ .alloc xd xa imm) → (∀ xd xa xb, b.op ≠ .free xd xa xb) →
      let u := s.cancelRemote c
      Completes (.coreStop c) s fun t =>
        t = ((u.dropGrants c).dropWaits (Waiter.ofCore c)).setCore c
          { (u.dropGrants c).core c with ctl := .stopped false (some (b.hdr, b.op)), savedArms := s.armsOf c } ∧
        (t.core c).x = k.x ∧ (t.core c).lm = k.lm ∧ (t.core c).pc = k.pc ∧ (∀ w ∈ t.waits, w.who.ofCore c = false)) ∧
    (∀ b, k.ctl = .blocked b → (∃ xd xa imm, b.op = .alloc xd xa imm) ∨ (∃ xd xa xb, b.op = .free xd xa xb) → ∀ rest xs, (s.cluster (clusterOf c)).calls = xs :: rest → xs.core = c →
      exec (.coreStop c) s = s.answer ((s.allocatorAnswer (clusterOf c)).coreStop c)) ∧
    (s.suspectCtx k.ctx = true ∨ (s.ctx k.ctx).state = .tearing → exec (.coreResume c) s = .next s) ∧
    (∀ h, s.suspectCtx k.ctx = false → (s.ctx k.ctx).state ≠ .tearing → k.ctl = .stopped h none → k.savedArms = [] →
      exec (.coreResume c) s = .next (s.setCore c { k with ctl := if h then .halting else .running, savedArms := [] })) ∧
    (∀ h op, s.suspectCtx k.ctx = false → (s.ctx k.ctx).state ≠ .tearing → k.ctl = .stopped false (some (h, op)) → k.savedArms = [] →
      exec (.coreResume c) s = s.answer ((s.setCore c { k with ctl := .running, savedArms := [] }).control c h op))

/-! ### Streams -/

/-- STREAM_START takes the oldest descriptor of an engine's input queue into its lowest free slot, at tile 0 with nothing issued; one that
fails a check is not started, is recorded with cause 0x10 and loses its context (R149, R155, R156). CREDIT_GRANT gives one ring tile more once
the credit fence has come to its value (R160), and STREAM_RESUME puts a suspended stream that may go on into a free slot at its cursor tile (R166). -/
def Obligations.StreamsStartAndResumeInAFreeSlot : Prop :=
  ∀ (s : State) (cl : ClusterId) (se : Fin 4),
    let e := 4 * cl.val + se.val
    let g := s.engine e
    (∀ q rest slot, s.quiesced (.stream cl se) = false → g.stopped = false → g.queue = q :: rest → g.freeSlot = some slot →
      g.suspended.any Stream.resumable = false → s.suspectCtx q.ctx = false →
      let u := (s.modEngine e fun g => { g with queue := rest }).number
      let t := Stream.start q slot u.1
      (slot < 8 ∧ Tbl.find g.active slot = none ∧ ∀ i, i < slot → (Tbl.find g.active i).isSome = true) ∧
      (t.tile = 0 ∧ t.line = 0 ∧ t.reqs = [] ∧ t.signalled = 0 ∧ t.desc = q.desc ∧ t.ctx = q.ctx ∧ t.cls = q.cls) ∧
      ((s.modEngine e fun g => { g with queue := rest }).descOk (e / 4) q.ctx (SDesc.of q.desc) = true →
        exec (.streamStart cl se) s = .next (u.2.modEngine e fun g => { g with active := Tbl.set g.active slot t })) ∧
      ((s.modEngine e fun g => { g with queue := rest }).descOk (e / 4) q.ctx (SDesc.of q.desc) = false →
        exec (.streamStart cl se) s =
          s.answer (((s.modEngine e fun g => { g with queue := rest }).streamStop e { t with suspTime := s.ltime } 0x10 2).settle [.lose q.ctx]))) ∧
    (g.queue = [] ∨ g.freeSlot = none ∨ g.stopped = true ∨ g.suspended.any Stream.resumable = true → exec (.streamStart cl se) s = .next s) ∧
    (∀ (slot : Fin 8) t, Tbl.find g.active slot = some t →
      (t.cwait = .granted → exec (.creditGrant cl se slot) s =
        .next (s.modStream e t.sid fun t => { t with credit := t.credit + 1, cwait := .none })) ∧
      (t.cwait ≠ .granted → exec (.creditGrant cl se slot) s = .next s)) ∧
    (∀ sid t slot, s.quiesced (.stream cl se) = false → s.frozenEngine e = false → g.stopped = false → g.inOrder sid = true → g.suspended.find? (fun t => t.sid == sid) = some t →
      t.resumable = true → g.freeSlot = some slot →
      exec (.streamResume cl se sid) s = s.answer (((s.modEngine e fun g => { g with order := g.order.filter (· ≠ sid) }).modEngine e fun g => { g with
        suspended := g.suspended.filter fun u => u.sid ≠ sid
        active := Tbl.set g.active slot { t with slot := slot, stopping := false, ready := false, lookup := none, tile := t.cursor, line := 0, cause := 0 } }).parkAll e))

/-- STREAM_REQUEST_ISSUE (R157): an active stream that waits for no translation issues the write of the first request that may be written; else,
without credit for its next ring tile, it asks for it (R160); else it issues the next read of its tile order. A request at an end inside the module then stands
issued under a new number. STREAM_REQUEST_COMPLETE serves a
request at an end inside the module: data read stand ready for their write, and the line written is counted for its tile (R158). A line of local
memory or scratch is read as it stands (of local memory under what a matrix instruction stores, each granule is read on one side or the other, R109); a write puts the 64 bytes read at the destination and changes nothing else of that memory.
RDMA_OPERATION_FAILED ends the operation and stops the stream with HOST_FAILED (R553). -/
def Obligations.StreamRequestsMoveTheirLines : Prop :=
  ∀ (s : State) (cl : ClusterId) (se : Fin 4),
    let e := 4 * cl.val + se.val
    let g := s.engine e
    (∀ (slot : Fin 8) t, Tbl.find g.active slot = some t → s.quiesced (.stream cl se) = false → t.lookup = none → g.outstanding < 8192 →
      let d := SDesc.of t.desc
      let turned := s.modEngine e fun g => { g with turn := slot.val }
      (∀ r, t.writable d = some r → g.nextSlot = some slot.val → exec (.streamRequestIssue cl se slot) s = s.answer (turned.issueWrite e t d r)) ∧
      (t.writable d = none → t.needsCredit d = true → exec (.streamRequestIssue cl se slot) s = s.answer (s.askCredit e slot t d)) ∧
      (t.writable d = none → t.needsCredit d = false → t.stopping = false → t.tile < d.tiles → d.cwin = 0 ∨ t.tile ≤ t.credit → g.nextSlot = some slot.val →
        exec (.streamRequestIssue cl se slot) s = s.answer (turned.issueRead e t d)) ∧
      (t.writable d = none → t.needsCredit d = false → t.stopping = true ∨ d.tiles ≤ t.tile → exec (.streamRequestIssue cl se slot) s = .next s) ∧
      -- a request at an end inside the module is numbered and stands issued at that state
      (let n := turned.number
       let inside (x : LineEnd) : Prop := (∃ c a, x = .localMem c a) ∨ (∃ a, x = .scratch a)
       let req : StreamReq := ⟨n.1, t.tile, t.line, .reading, 0, 0, 0, 0, 0, turned.ctxEpoch t.ctx, n.1, false⟩
       let reads (u : State) : Prop := exec (.streamRequestIssue cl se slot) s = .next (u.modStream e t.sid fun x => x.issued d req)
       (∀ r, t.writable d = some r → g.nextSlot = some slot.val → d.mop = 0 → inside (turned.dstEnd e t d r.tile r.line) →
         exec (.streamRequestIssue cl se slot) s = .next (n.2.modStream e t.sid fun x => x.mapReq r.id fun q =>
           { q with phase := .writing, epoch := turned.ctxEpoch t.ctx, seq := n.1 })) ∧
       (t.writable d = none → t.needsCredit d = false → t.stopping = false → t.tile < d.tiles → d.cwin = 0 ∨ t.tile ≤ t.credit →
         g.nextSlot = some slot.val → d.srcKind ≠ 4 → d.dstKind ≠ 4 →
         (inside (turned.srcEnd e t d t.tile t.line) → reads n.2) ∧
         (∀ p a who own, turned.srcEnd e t d t.tile t.line = .part p a who own → turned.inSpace p a = true → reads (n.2.countDemote cl t.cls)))) ∧
      -- the turn goes to the next slot with a request, and every such slot comes to its turn (R149)
      (t.canIssue = true → (∀ (i : Fin 8), i ≠ slot → (Tbl.find g.active i).all (fun u => !u.canIssue)) → g.nextSlot = some slot.val) ∧
      (∀ (j : Fin 8), g.nextSlot = some j.val → ∀ u, Tbl.find g.active j = some u → u.canIssue = true)) ∧
    (∀ (slot : Fin 8), Tbl.find g.active slot = none → exec (.streamRequestIssue cl se slot) s = .next s) ∧
    (∀ id i t r, g.ofReq id = some (i, t) → t.reqs.find? (fun r => r.id == id) = some r →
      let d := SDesc.of t.desc
      (r.phase = .data ∨ s.behind e t d r = true → exec (.streamRequestComplete cl se id) s = .next s) ∧
      (s.behind e t d r = false →
      (r.phase = .reading → ∀ c a, s.srcEnd e t d r.tile r.line = .localMem c a →
        (s.core c).poisoned a 64 = false → (s.core c).lmDouble a 64 = false → (s.core c).lmSingle a 64 = false →
        exec (.streamRequestComplete cl se id) s =
          s.answer ((s.modCore c fun k => k).readReturned e r.id (lineOfBytes ((s.core c).peek a 64)))) ∧
      (r.phase = .reading → ∀ p a who own, s.srcEnd e t d r.tile r.line = .part p a who own →
        let q := { s.reqAt who p a (dieOf cl) with epoch := r.epoch, cls := stampOf t.cls }
        let u : ReqUnit := .stream e r.id
        exec (.streamRequestComplete cl se id) s = s.answer (readAnswered e r.id a (s.cachedRead cl q u))) ∧
      (r.phase = .reading → ∀ m mem a, s.srcEnd e t d r.tile r.line = .peer m mem a →
        (r.hit = false → exec (.streamRequestComplete cl se id) s = .next s) ∧
        (∀ l, r.hit = true → s.peerCached cl (s.ctx t.ctx).forme mem t.ctx a = some l →
          exec (.streamRequestComplete cl se id) s = s.answer ((s.modCluster cl fun k => k.cacheTouch l).readReturned e r.id l.data))) ∧
      (r.phase = .writing → ∀ c a, s.dstEnd e t d r.tile r.line = .localMem c a →
        exec (.streamRequestComplete cl se id) s = s.answer ((s.modCore c fun k => k.lmWrite a (bytesOfLine r.data)).writeReturned e r.id) ∧
        ∀ b, b < a ∨ a + 64 ≤ b → Mem.read ((s.core c).lmWrite a (bytesOfLine r.data)).lm b = Mem.read (s.core c).lm b) ∧
      (r.phase = .writing → ∀ a, s.dstEnd e t d r.tile r.line = .scratch a →
        exec (.streamRequestComplete cl se id) s = s.answer ((s.modCluster cl fun k => k.scratchWrite a (bytesOfLine r.data)).writeReturned e r.id)) ∧
      (r.phase = .writing → ∀ p a who own, s.dstEnd e t d r.tile r.line = .part p a who own →
        let q := { s.reqAt who p a (dieOf cl) with epoch := r.epoch, cls := stampOf t.cls }
        let u : ReqUnit := .stream e r.id
        exec (.streamRequestComplete cl se id) s = s.answer (
          if d.mop = 0 then writeAnswered e r.id false (s.askWrite q r.data u) t.ctx
          else writeAnswered e r.id true (s.askOp q d.mop (r.data.zeroExtend 1024) u) t.ctx)))) ∧
    (∀ id o f r, s.rdmaOut.find? (fun o => o.id == id) = some o → o.use = .stream f r →
      exec (.rdmaOperationFailed id) s = s.answer ((s.endRdma id).streamHostFailed f r)) ∧
    (∀ id, s.rdmaOut.find? (fun o => o.id == id) = none → exec (.rdmaOperationFailed id) s = .next s)

/-! ### Translation -/

/-- INVALIDATE (R176, R496, R555) gives the invalidation the next generation, takes every entry that it meets out of the four caches, and leaves every
engine to report; nothing of the address space that the range meets is found in a cache after it. INVALIDATION_ENGINE_REPORT strikes the engine off
every invalidation whose generation no outstanding HOSTV request of it is older than, and the last report acknowledges. One with a field set that must
be zero is discarded and counted, one acknowledged before is acknowledged again, and one in progress does nothing. -/
def Obligations.InvalidationsPurgeTheCachesAndAreAcknowledged : Prop :=
  ∀ (s : State) (conn : ConnId) (m : TransMsg) (cl : ClusterId) (se : Fin 4),
    let bad := m.rsv = true ∨ m.status ≠ 0 ∨ m.psize ≠ 0 ∨ m.rd = true ∨ m.wr = true ∨ m.spec = true ∨ m.access = true ∨ m.target ≠ 0 ∨ m.mkey ≠ 0 ∨
      (m.all = true ∧ (m.va ≠ 0 ∨ m.vaEnd ≠ 0))
    let known := m.reqId.toNat ∈ (s.conn conn).acked
    let going := ∃ v ∈ s.agent.invals, v.conn = conn.val ∧ v.reqId = m.reqId.toNat
    (bad → exec (.invalidate conn m) s = s.answer (s.countDiscard conn)) ∧
    (¬ bad → known → exec (.invalidate conn m) s = s.answer (s.emit (.trans conn 0x06 { TransMsg.zero with asn := m.asn, reqId := m.reqId }))) ∧
    (¬ bad → ¬ known → going → exec (.invalidate conn m) s = .next s) ∧
    (¬ bad → ¬ known → ¬ going → Completes (.invalidate conn m) s fun t =>
      t.agent.gen = s.agent.gen + 1 ∧
      t.agent.invals = s.agent.invals ++ [⟨s.agent.gen + 1, List.range 192, conn.val, m.asn.toNat, m.reqId.toNat⟩] ∧
      (∀ d, d < 4 → (t.tcache d).gen = s.agent.gen + 1 ∧
        (∀ e l x, (e, l) ∈ (t.tcache d).sets → x ∈ l → x.conn = conn.val → x.asn = m.asn.toNat → m.all = false ∧
          (m.vaEnd.toNat ≤ x.page * 2 ^ x.size.shift ∨ (x.page + 1) * 2 ^ x.size.shift ≤ m.va.toNat)) ∧
        (∀ va x, (t.tcache d).find conn.val m.asn.toNat va = some x → m.all = false ∧ (va < m.va.toNat ∨ m.vaEnd.toNat ≤ va))) ∧
      t.engines = s.engines ∧ t.fences = s.fences ∧ t.channels = s.channels) ∧
    (let e := 4 * cl.val + se.val
     Completes (.invalidationEngineReport cl se) s fun t =>
      (∀ v ∈ s.agent.invals, s.engineClear e v.gen = false → v.waiting ≠ [] → v ∈ t.agent.invals) ∧
      (∀ v ∈ t.agent.invals, v.waiting ≠ [] ∧ (s.engineClear e v.gen = true → e ∉ v.waiting)) ∧
      (∀ v ∈ s.agent.invals, s.engineClear e v.gen = true → v.waiting = [e] →
        v.reqId ∈ ((t.conn v.conn).acked) ∨ 64 ≤ ((s.agent.invals.filter fun u => u.conn == v.conn).length)) ∧
      t.caches = s.caches ∧ t.fences = s.fences ∧ t.channels = s.channels)

/-- The answers and the time limits of translation: TRANSLATE_ANS, and TRANSLATE_TIMEOUT after 10 ms as NOT_PRESENT, end the request of the die that
sent it with the entry that covers the page or none (R163, R496); PAGE_ANS fills the caches of the dies that wait and wakes the waiters in order, and a
failed one, like PAGE_REQUEST_TIMEOUT at the connection's bound, is unresolvable (R170 to R172). An answer that names no request, or whose unused
fields are not zero, is discarded and counted (R555). -/
def Obligations.TranslationAnswersAndTimeouts : Prop :=
  ∀ (s : State) (conn : ConnId) (m : TransMsg) (id : BitVec 32) (i : Fin 1024),
    let ok (bad : Nat) := transAnswerOk m bad = true
    let given (asn page : Nat) : Option TcEntry := if m.status = 0 then coveringEntry m conn asn page else none
    (s.translateOf conn m.reqId.toNat = none → exec (.translateAns conn m) s = s.answer (s.countDiscard conn)) ∧
    (∀ d r, s.translateOf conn m.reqId.toNat = some (d, r) →
      (¬ ok 1 → exec (.translateAns conn m) s = s.answer (s.countDiscard conn)) ∧
      (ok 1 → exec (.translateAns conn m) s = s.answer (s.translateDone d r (given r.asn r.page)))) ∧
    (∀ d r, s.translateOf conn id.toNat = some (d, r) →
      exec (.translateTimeout conn id) s = s.answer ((s.advanceTo (r.sentAt + 10000000)).translateDone d r none)) ∧
    (s.translateOf conn id.toNat = none → exec (.translateTimeout conn id) s = .next s) ∧
    (s.agent.table.find? (fun e => e.2.conn == conn.val && e.2.reqId == m.reqId.toNat) = none → exec (.pageAns conn m) s = s.answer (s.countDiscard conn)) ∧
    (∀ j r, s.agent.table.find? (fun e => e.2.conn == conn.val && e.2.reqId == m.reqId.toNat) = some (j, r) →
      (¬ ok 2 → exec (.pageAns conn m) s = s.answer (s.countDiscard conn)) ∧
      (ok 2 → given r.asn r.page = none → exec (.pageAns conn m) s = s.answer (s.failPageReq j r 0x12)) ∧
      (ok 2 → ∀ k, given r.asn r.page = some k →
        let dies := distinct ((r.waiters.map fun w => dieOf (w.1 / 4)) ++ r.specs.map fun x => x.1)
        exec (.pageAns conn m) s =
          s.answer ((((dies.foldl (fun s d => s.modTcache d fun c => c.answer (r.page * 4096) k) s).freePageReq j).wakeWaiters r r.waiters).wakeSpecs r))) ∧
    (∀ r, Tbl.find s.agent.table i = some r → exec (.pageRequestTimeout i) s =
      s.answer ((s.advanceTo (r.sentAt + (s.conn r.conn).prTimeout * 1000000)).failPageReq i r 0x13)) ∧
    (Tbl.find s.agent.table i = none → exec (.pageRequestTimeout i) s = .next s) ∧
    -- what is entered is found again: a filled entry serves every address of its page (R162)
    (∀ (c : TransCache) (x : TcEntry) va, x.page = va / 2 ^ x.size.shift → ((c.fill x).find x.conn x.asn va).isSome = true) ∧
    -- and an answer replaces whatever served the address before, of any size (R163)
    (∀ (c : TransCache) (x : TcEntry) va, x.page = va / 2 ^ x.size.shift → (c.answer va x).find x.conn x.asn va = some x)

/-! ### Messages between hubs -/

/-- A control message that another module sends (R238): one for a third module goes on unchanged; a request whose STATUS is not zero is discarded and
counted in SYN_BADMSG. SIGNAL and ADD act on the fence as the principal that the message stands for, and answer RESULT where ACK_REQ is set (R240); READ
answers READ_ANS with the status and value (R231); WAIT answers WAIT_DONE, or is registered, or with 8192 remote waits held answers REGISTRY_FULL (R239);
WAIT_CANCEL removes the wait of its tag and no other; RELEASE gives up one import (R236); BAR_ARRIVE is counted at its instance (R242). A message for a hub
whose cluster is being moved here is held until it resumes, and one for a hub that has moved to another module goes on to it (R265). -/
def Obligations.RequestsToAHomeHub : Prop :=
  ∀ (s : State) (m : CtrlMsg),
    let n := m.number.toNat
    let who := s.ctrlWho m (s.fence n).owner
    let here := m.dstMod.toNat = s.fabAddr
    let requests : List (Instr × Nat) := [(.signal m, 0x01), (.ctrlAdd m, 0x02), (.ctrlRead m, 0x03), (.wait m, 0x04), (.waitCancel m, 0x05),
      (.ctrlRelease m, 0x06), (.barArrive m, 0x10)]
    let answers : List (Instr × Nat) := [(.result m, 0x81), (.readAns m, 0x83), (.waitDone m, 0x84), (.barDone m, 0x90)]
    (¬ here → (∀ p ∈ requests, exec p.1 s = s.answer (s.emit (.ctrl p.2 m))) ∧
      ∀ p ∈ answers, exec p.1 s = s.answer (s.emit (.ctrl p.2 m))) ∧
    (∀ p ∈ requests ++ answers, ∀ c, s.ctrlHub p.2 m = some c →
      (∀ id tag, s.pausing c = some (id, tag) → exec p.1 s = s.answer (s.modMini id tag fun k => { k with held := k.held ++ [(p.2, m)] })) ∧
      (∀ id k x, 6 < p.2 → s.pausing c = none → (s.movedHubs.find? fun e => e.2.srcClu == c) = some (id, k) → k.dstMod ≠ s.fabAddr → s.changeOf id = some x →
        exec p.1 s = s.answer (s.sendComp 0x34 (s.compMsg k.dstMod id x.cseq 0 (w4 := k.dstClu + 2 ^ 16)
          (data := .fwdCtrl (BitVec.ofNat 8 p.2) (ctrlAt p.2 m k.dstClu)))))) ∧
    (here → s.hubsStill = true → m.status ≠ 0 →
      (∀ p ∈ requests, p.2 ≠ 0x10 → exec p.1 s = s.answer (s.synCount (s.hubOf n) .badmsg)) ∧
      exec (.barArrive m) s = s.answer (s.synCount s.lowestCluster .badmsg)) ∧
    (here → s.hubsStill = true → m.status = 0 →
      (let r := s.fenceSignal n m.value.toNat who m.ackReq
       exec (.signal m) s = s.answer ((if m.ackReq then r.2.1.ctrlAnswer 0x81 m r.1 0 else r.2.1).settle r.2.2)) ∧
      (let r := s.fenceAdd n m.value.toNat who m.ackReq
       exec (.ctrlAdd m) s = s.answer ((if m.ackReq then r.2.1.ctrlAnswer 0x81 m r.1 0 else r.2.1).settle r.2.2)) ∧
      (let r := s.fenceRead n who
       exec (.ctrlRead m) s = s.answer (r.2.2.ctrlAnswer 0x83 m r.1 r.2.1)) ∧
      (let r := s.fenceWait n m.value.toNat who (.remote m.srcMod.toNat m.srcClu.toNat m.tag.toNat m.auth.toNat)
       (∀ st, r.1 = some st → exec (.wait m) s = s.answer (r.2.ctrlAnswer 0x84 m st 0)) ∧
       (r.1 = none → s.remoteWaits (s.hubOf n) < 8192 → exec (.wait m) s = s.answer r.2) ∧
       (r.1 = none → 8192 ≤ s.remoteWaits (s.hubOf n) →
        exec (.wait m) s = s.answer (({ r.2 with waits := s.waits }).ctrlAnswer 0x84 m 0x80 0))) ∧
      (Completes (.waitCancel m) s fun t =>
        (∀ w, w ∈ t.waits ↔ w ∈ s.waits ∧ ∀ a, w.who ≠ .remote m.srcMod.toNat m.srcClu.toNat m.tag.toNat a) ∧ t.fences = s.fences ∧ t.cores = s.cores) ∧
      (s.usable n who → (s.fence n).state = .live → Completes (.ctrlRelease m) s fun t =>
        (t.fence n).imports = (s.fence n).imports - 1 ∧ (t.fence n).value = (s.fence n).value ∧ (t.fence n).state = .live) ∧
      (s.usable n who → (s.fence n).state = .error → (s.fence n).imports = 1 → Completes (.ctrlRelease m) s fun t => (t.fence n).state = .free) ∧
      (m.number.toNat / 2 ^ 14 = 0 → bits m.number.toNat 13 8 < 48 →
        let h := bits m.number.toNat 13 8
        let i := bits m.number.toNat 7 0
        let r := s.barArriveChild h i (m.srcMod.toNat * 2 ^ 14 + m.srcClu.toNat * 2 ^ 8 + m.tag.toNat % 2 ^ 8) (s.ctrlWho m (s.bar h i).owner)
        exec (.barArrive m) s = s.answer (r.1.settle r.2)))

/-- The answers that come back to a hub (R231, R239, R240, R242): READ_ANS gives the value to the core that reads, and satisfies a polling wait whose target
it has reached; WAIT_DONE decides the wait of its tag with its status, or with REGISTRY_FULL lets it poll; RESULT aborts the stream whose TFENCE signal failed;
an answer whose tag names nothing any more is discarded; BAR_DONE reaches the child instance. COLD_WAIT_RETEST releases the cold waits of a hub that are satisfied,
HOT_FENCE_WRITEBACK writes a changed hot fence back without changing its value (R222, R223), and REMOTE_WAIT_POLL sends READ again under the same tag. -/
def Obligations.AnswersAndEventsAtAHub : Prop :=
  ∀ (s : State) (m : CtrlMsg) (cl : ClusterId) (tag : BitVec 16) (f : BitVec 20),
    let h := m.srcClu.toNat
    let u := s.hubMessage h
    let st := m.status.toNat
    (m.dstMod.toNat = s.fabAddr → s.hubsStill = true →
      (∀ r, u.remoteOf h m.tag.toNat (fun r => r.isRead || r.polling) = some r → r.polling = false → ∀ c, r.core = some c →
        exec (.readAns m) s = s.answer ((u.dropRemote h r).giveAnswer c m.value)) ∧
      (∀ r, u.remoteOf h m.tag.toNat (fun r => r.isRead || r.polling) = some r → r.polling = true →
        (st = 0 → r.target ≤ m.value.toNat → exec (.readAns m) s = s.answer (u.decideRemote h r 0)) ∧
        (st = 0 → m.value.toNat < r.target → exec (.readAns m) s = s.answer u) ∧
        (st ≠ 0 → exec (.readAns m) s = s.answer (u.decideRemote h r st))) ∧
      (u.remoteOf h m.tag.toNat (fun r => r.isRead || r.polling) = none → exec (.readAns m) s = s.answer u) ∧
      (∀ r, u.remoteOf h m.tag.toNat (fun r => !r.isRead && !r.isSignal) = some r →
        (st ≠ 0x80 → exec (.waitDone m) s = s.answer (u.decideRemote h r st)) ∧
        (st = 0x80 → exec (.waitDone m) s = s.answer ((u.modHub h fun k => { k with
          remote := k.remote.map fun q => if q = r then { q with polling := true } else q }).synCount h .poll))) ∧
      (u.remoteOf h m.tag.toNat (fun r => !r.isRead && !r.isSignal) = none → exec (.waitDone m) s = s.answer u) ∧
      (∀ r e sid, u.remoteOf h m.tag.toNat (fun r => r.isSignal) = some r → r.stream = some (e, sid) →
        let v := u.dropRemote h r
        (st ∈ [2, 3, 5] → exec (.result m) s = s.answer (v.abortSid e sid 0x15)) ∧
        (st ∉ [2, 3, 5] → exec (.result m) s = s.answer (v.modEngine e fun g => { g with ending := g.ending.filter fun t => v.lingers e t }))) ∧
      (u.remoteOf h m.tag.toNat (fun r => r.isSignal) = none → exec (.result m) s = s.answer u) ∧
      (m.number.toNat / 2 ^ 14 = 0 → bits m.number.toNat 13 8 < 48 →
        let r := s.barDoneAt (bits m.number.toNat 13 8) (bits m.number.toNat 7 0) st
        exec (.barDone m) s = s.answer (r.1.settle r.2))) ∧
    (Completes (.coldWaitRetest cl) s fun t => FencesRise s t ∧ MemoryKept s t) ∧
    ((∀ w ∈ s.waits, w.cold = true → (s.fence w.fence).home = cl.val → (s.fence w.fence).state = .live → (s.fence w.fence).value < w.target) →
      exec (.coldWaitRetest cl) s = .next s) ∧
    (((s.cluster (s.fence f.toNat).home).hub.hot.any fun e => e.1 == f.toNat && e.2) = true → Completes (.hotFenceWriteback f) s fun t =>
      (t.fence f.toNat).stored = (s.fence f.toNat).value ∧ (t.fence f.toNat).value = (s.fence f.toNat).value ∧
      (∀ n, n ≠ f.toNat → t.fence n = s.fence n) ∧ ((t.cluster (s.fence f.toNat).home).hub.hot.any fun e => e.1 == f.toNat && e.2) = false) ∧
    (((s.cluster (s.fence f.toNat).home).hub.hot.any fun e => e.1 == f.toNat && e.2) = false → exec (.hotFenceWriteback f) s = .next s) ∧
    (∀ r c, s.remoteOf cl tag.toNat (fun r => r.polling) = some r → r.core = some c → exec (.remoteWaitPoll cl tag) s =
      s.answer (s.send (.ctrl 0x03 ⟨0, false, BitVec.ofNat 16 s.fabAddr, BitVec.ofNat 16 r.mod, BitVec.ofNat 6 cl.val,
        BitVec.ofNat 32 r.number, tag, BitVec.ofNat 16 (s.core c).ctx, 0, 0⟩))) ∧
    (s.remoteOf cl tag.toNat (fun r => r.polling) = none → exec (.remoteWaitPoll cl tag) s = .next s)

/-! ### The channels of memory -/

/-- CHANNEL_READ (R187, R194, R207, R255, R409) of a line with one copy: a line of a fresh page reads as zero to any requester; a permitted
requester gets the line of an intact block, and a poison report where the block does not verify, which poisons it; one without permission gets the
stored bytes, is counted and recorded, and an issuer with a context is lost; a deadened key gives stored bytes with its own status. A request of an
epoch that is not live, and one outside the partition address space, are answered so; one that waits is answered later. The status codes are the
model's record of an answer (log entry 8). -/
def Obligations.ReadsOfALineOfMemory : Prop :=
  ∀ (s : State) (r : MemReq),
    let p := r.part.val
    let a := r.addr.toNat / 64 * 64
    let line := (a / 64) % 8
    let w := s.arrival r none .row
    let g := s.taken w
    let waits := s.answer ((s.wait w).settle [])
    s.waiting = [] →
    (s.resolve p r.epoch.toNat a = .refuse → exec (.channelRead r) s = s.answer ((s.denyEpoch r).turnedAway g r [] 5)) ∧
    (s.resolve p r.epoch.toNat a = .wait → exec (.channelRead r) s = waits) ∧
    (∀ l th, s.resolve p r.epoch.toNat a = .layout l th →
      (l.place a = none → exec (.channelRead r) s = s.answer (s.turnedAway g r [] 6)) ∧
      ((l.place a).isSome = true → s.copies p l a = [] → exec (.channelRead r) s = s.answer (s.turnedAway g r [] 7)) ∧
      ∀ b, (l.place a).isSome = true → s.copies p l a = [b] →
        (s.busyAt b = true ∨ (s.part p).suspectAt a = true → exec (.channelRead r) s = waits) ∧
        (s.busyAt b = false → (s.part p).suspectAt a = false →
          (s.freshAt b = true → exec (.channelRead r) s = s.answer ((s.charge b.1 p 520).turnedAway g r [] 0)) ∧
          (s.freshAt b = false →
            let u := (s.charge b.1 p (readCharge (s.blockAt b).buffered)).load b
            let sel := u.selectKey p a
            let k := u.blockAt b
            let permits := u.memPermits sel.handle sel.kctx r.who
            let v := if k.uncorr then u.poison b else u
            (sel.dead = true →
              exec (.channelRead r) s = s.answer ((v.denyKey b r sel false).1.served g r b (v.denyKey b r sel false).2 3 ((v.blockAt b).shown line))) ∧
            (sel.dead = false → permits = false →
              exec (.channelRead r) s = s.answer ((v.denyKey b r sel true).1.served g r b (v.denyKey b r sel true).2 2 ((v.blockAt b).shown line))) ∧
            (sel.dead = false → permits = true →
              (k.intact (u.sealFor p a) = true → exec (.channelRead r) s = s.answer (u.served g r b [] 0 (Tbl.get 0 k.lines line))) ∧
              (k.intact (u.sealFor p a) = false → k.poison = true → exec (.channelRead r) s = s.answer (u.served g r b [] 1 0)) ∧
              (k.intact (u.sealFor p a) = false → k.poison = false → exec (.channelRead r) s = s.answer ((u.poison b).served g r b [] 1 0))))))

/-- CHANNEL_WRITE, MEMORY_SIDE_OPERATION and CAS (R187, R194, R201 to R204, R207, R363, R364, R378, R409) of a line with one copy: region tests refuse
with MEM_REFUSED and nothing stored; where permitted, the fresh page is filled, the chunk shadowed and the block loaded, and an intact block takes the new
line, the operation applied to the old one; CAS answers the old line. A write without permission makes the block foreign, an operation without permission
stores nothing, and one on a poisoned block is kept at the controller. Where the partition is moving from another module, what has been applied is
written through to it, and answered once it acknowledges (R269). -/
def Obligations.WritesAndOperationsOnALineOfMemory : Prop :=
  ∀ (s : State) (r : MemReq) (l : Layout) (th : Option Layout) (b : Loc),
    let p := r.part.val
    let a := r.addr.toNat / 64 * 64
    let line := (a / 64) % 8
    s.resolve p r.epoch.toNat a = .layout l th → (l.place a).isSome = true → s.copies p l a = [b] → s.busyAt b = false →
    (s.part p).suspectAt a = false → s.waiting = [] →
    let g (c : Change512) : State → State := s.taken (s.arrival r (some c) .row)
    let u := (s.beforeChange p a l).loadFor p b true
    let sel := s.selectKey p a
    let permits := s.memPermits sel.handle sel.kctx r.who
    let epoch := ((s.part p).regionOf a).any fun g => g.epoch
    let put (v : BitVec 512) : State :=
      (u.modBlock b fun k => { k with lines := Tbl.set k.lines line v }).spread p a l th b (fun k => k.put (u.sealFor p a) line v) []
    let old := Tbl.get 0 (u.blockAt b).lines line
    let acked (t : State) : State := match r.who with
      | .ctx n => t.opAcked n epoch
      | _ => t
    let far := s.farSource p
    let waits (t : State) (c : Change512) (es : List Ev) (o : MemOut) : State := t.awaitsAck (g c) (s.arrival r (some c) .row) b es o
    (∀ v, (s.part p).refuses a (.write v) = true →
      exec (.channelWrite r v) s = s.answer ((s.denyRegion r 0).1.turnedAway (g (.write v)) r (s.denyRegion r 0).2 4)) ∧
    (∀ v, (s.part p).refuses a (.write v) = false →
      (sel.dead = true → exec (.channelWrite r v) s = s.answer ((s.denyKey b r sel true).1.turnedAway (g (.write v)) r (s.denyKey b r sel true).2 3)) ∧
      (sel.dead = false → permits = true → (u.blockAt b).intact (u.sealFor p a) = true →
        (far = false → exec (.channelWrite r v) s = s.answer ((put v).served (g (.write v)) r b [] 0 0)) ∧
        (far = true → exec (.channelWrite r v) s = s.answer (waits (put v) (.write v) [] { status := .ok, data := old, epochBit := epoch }))) ∧
      (sel.dead = false → permits = false →
        let f := ((if (u.blockAt b).uncorr then u.poison b else u).modBlock b fun k => k.forge line v).spread p a l th b (fun k => k.forge line v) []
        let d := f.denyKey b r sel true
        (far = false → exec (.channelWrite r v) s = s.answer (d.1.served (g (.write v)) r b d.2 2 0)) ∧
        (far = true → exec (.channelWrite r v) s = s.answer (waits d.1 (.write v) d.2 { status := .nokey, epochBit := epoch })))) ∧
    (∀ (mop : BitVec 8) opd o t, mopDecode mop.toNat = some (o, t) → o ≠ .cas →
      let c : Change512 := .op mop.toNat o t (opd.zeroExtend 1024)
      ((s.part p).refuses a c = true →
        exec (.memorySideOperation r mop opd) s = s.answer ((s.denyRegion r mop.toNat).1.turnedAway (g c) r (s.denyRegion r mop.toNat).2 4)) ∧
      ((s.part p).refuses a c = false → sel.dead = true →
        exec (.memorySideOperation r mop opd) s = s.answer ((s.denyKey b r sel true).1.turnedAway (g c) r (s.denyKey b r sel true).2 3)) ∧
      ((s.part p).refuses a c = false → sel.dead = false → permits = false →
        exec (.memorySideOperation r mop opd) s = s.answer ((s.denyKey b r sel true).1.turnedAway (g c) r (s.denyKey b r sel true).2 2)) ∧
      ((s.part p).refuses a c = false → sel.dead = false → permits = true →
        ((u.blockAt b).intact (u.sealFor p a) = true →
          (far = false → exec (.memorySideOperation r mop opd) s = s.answer (acked ((put (memLine o t old opd)).served (g c) r b [] 0 0))) ∧
          (far = true → exec (.memorySideOperation r mop opd) s =
            s.answer (waits (put (memLine o t old opd)) c [] { status := .ok, data := old, epochBit := epoch }))) ∧
        ((u.blockAt b).intact (u.sealFor p a) = false → (u.blockAt b).poison = true →
          let v := u.keepOp b r mop.toNat (opd.zeroExtend 1024)
          exec (.memorySideOperation r mop opd) s = s.answer (acked (v.1.served (g c) r b v.2 1 0))))) ∧
    (∀ opd, (s.part p).refuses a (.op 0x78 .cas .b64 opd) = false → sel.dead = false → permits = true →
      (u.blockAt b).intact (u.sealFor p a) = true →
      (far = false → exec (.cas r opd) s = s.answer (acked ((put (casLine old opd)).served (g (.op 0x78 .cas .b64 opd)) r b [] 0 old))) ∧
      (far = true → exec (.cas r opd) s =
        s.answer (waits (put (casLine old opd)) (.op 0x78 .cas .b64 opd) [] { status := .ok, data := old, epochBit := epoch }))) ∧
    -- the source's acknowledgement
    (∀ (t : State) (w : Waiting) (o : MemOut) (tag : Nat), t.waiting = [w] → w.unit = .row → w.applied = some o → o.tag = some tag → t.lateAcks = [] →
      t.throughDone tag = { t with waiting := [] }.answerRow w o)

/-- What an operation does to each element of a line (R201, R202): integer ADD wraps, MIN and MAX compare signed, AND, OR and XOR are bitwise, an
element stored equal to its compare value is replaced by CAS and no other is; and for the integer and bitwise types the result of several operations
of one MOP does not depend on their order. -/
def Obligations.MemorySideOperationsElementByElement : Prop :=
  (∀ (o : MemOp) (t : MemTy) (old opd : BitVec 512) (i : Nat), t.fmt = none → i < 512 / t.width →
    ((memLine o t old opd).toNat / 2 ^ (t.width * i)) % 2 ^ t.width =
      memElem o t ((old.toNat / 2 ^ (t.width * i)) % 2 ^ t.width) ((opd.toNat / 2 ^ (t.width * i)) % 2 ^ t.width)) ∧
  (∀ (t : MemTy) (x y : Nat), t.fmt = none → x < 2 ^ t.width → y < 2 ^ t.width →
    memElem .add t x y = (x + y) % 2 ^ t.width ∧
    toSigned t.width (memElem .max t x y) = max (toSigned t.width x) (toSigned t.width y) ∧
    toSigned t.width (memElem .min t x y) = min (toSigned t.width x) (toSigned t.width y) ∧
    memElem .and t x y = x &&& y ∧ memElem .or t x y = x ||| y ∧ memElem .xor t x y = x ^^^ y) ∧
  (∀ (old : BitVec 512) (opd : BitVec 1024) (i : Nat), i < 8 →
    (casLine old opd).extractLsb' (64 * i) 64 =
      if old.extractLsb' (64 * i) 64 = opd.extractLsb' (64 * i) 64 then opd.extractLsb' (512 + 64 * i) 64 else old.extractLsb' (64 * i) 64) ∧
  (∀ (o : MemOp) (t : MemTy) (old x y : BitVec 512), t.fmt = none → o ≠ .cas →
    memLine o t (memLine o t old x) y = memLine o t (memLine o t old y) x)

/-- What a controller does on its own and at a COMMIT (R187, R208 to R210, R326, R333, R334, R337): an evicted block leaves the buffer, a foreign one
with its old tag; the scrub goes to the next block or tag line of the channel; a page's copy stands at its new page; an interface error is retrained once and then
fences the channel off; a window computes CAP_NOW, takes a waiting commit and gives every sharer its effective guarantee and account. Of the requests
that wait, the one of highest priority under Table 11-2 is served first, and among equals the oldest: a request that arrives waits for another unit's that
goes before it, and a row's that goes before it is served then (R328; that a row's request is served at the next arrival is log entry 123). -/
def Obligations.WhatAChannelControllerDoesOnItsOwn : Prop :=
  ∀ (s : State) (ch : ChannelId), s.running = true →
    let k := s.channel ch
    (∀ blk : BitVec 22, (s.blockAt (ch, blk.toNat)).buffered = true → Completes (.blockWriteback ch blk) s fun t =>
      (t.blockAt (ch, blk.toNat)).buffered = false ∧ (t.blockAt (ch, blk.toNat)).lines = (s.blockAt (ch, blk.toNat)).lines ∧
      ((t.blockAt (ch, blk.toNat)).tagBad = true ↔ (s.blockAt (ch, blk.toNat)).tagBad = true ∨ (s.blockAt (ch, blk.toNat)).foreign = true) ∧
      (∀ o : Loc, o ≠ (ch.val, blk.toNat) → t.blockAt o = s.blockAt o) ∧ t.cores = s.cores ∧ t.clusters = s.clusters) ∧
    (∀ blk : BitVec 22, (s.blockAt (ch, blk.toNat)).buffered = false → exec (.blockWriteback ch blk) s = .next s) ∧
    (k.fenced = false → k.held = false → k.scrubPos < channelPages * 9 →
      let n := k.scrubPos
      let u := s.modChannel ch fun k => { k with scrubPos := (n + 1) % (channelPages * 9) }
      (n < channelPages * 8 →
        let r := u.scrubBlock (ch, n) ((s.servedBy ch (n / 8)).map fun e => (e.1, e.2 + (n % 8) * 512))
        exec (.patrolScrub ch) s = s.answer (r.1.settle r.2) ∧
        ((s.blockAt (ch, n)).uncorr = true → s.servedBy ch (n / 8) = none →
          let v := ((u.countErrors (ch, n) (s.blockAt (ch, n)).corr true).modBlock (ch, n) Block.correct).poison (ch, n)
          let w := v.thresholds ch (n / 8)
          exec (.patrolScrub ch) s = s.answer (w.1.settle w.2))) ∧
      (channelPages * 8 ≤ n →
        let w := (u.checkTags ch (n - channelPages * 8)).thresholds ch (n - channelPages * 8)
        exec (.patrolScrub ch) s = s.answer (w.1.settle w.2))) ∧
    (∀ (pg : BitVec 19) t, (k.copying.find? fun e => e.1 == pg.toNat) = some (pg.toNat, t) → t ≠ pg.toNat → Completes (.pageRelocationDone ch pg) s fun u =>
      (∀ i < 8, (u.blockAt (ch, t * 8 + i)).lines = (s.blockAt (ch, pg.toNat * 8 + i)).lines ∧
        (u.blockAt (ch, t * 8 + i)).sealedBy = (s.blockAt (ch, pg.toNat * 8 + i)).sealedBy ∧
        (u.blockAt (ch, t * 8 + i)).poison = (s.blockAt (ch, pg.toNat * 8 + i)).poison) ∧
      (u.channel ch).fresh t = k.fresh pg.toNat ∧ (∀ e ∈ (u.channel ch).copying, e.1 ≠ pg.toNat) ∧
      (∃ e ∈ (u.channel ch).reloc, e.2 = t) ∧ ∀ c, c ≠ ch.val → u.channel c = s.channel c) ∧
    (k.fenced = false → k.ifErrors = 0 → exec (.channelInterfaceError ch) s = .next (s.modChannel ch fun k => { k with ifErrors := 1 })) ∧
    (k.fenced = false → k.ifErrors ≠ 0 →
      exec (.channelInterfaceError ch) s = s.answer ((s.fenceChannel ch 5).1.settle (s.fenceChannel ch 5).2)) ∧
    (k.fenced = false → k.commit = false → s.sharers ch = [] → s.waiting = [] → ∀ mhz hot, Completes (.regulatorWindow ch mhz hot [] []) s fun t =>
      let w := max (k.window + 1) (s.ltime / 2000)
      (t.channel ch).capNow = capNow ((s.advanceTo (w * 2000)).meanMhz (ch / 8) w mhz) hot ∧ (t.channel ch).window = max (k.window + 1) (s.ltime / 2000) ∧ (t.channel ch).commit = false) ∧
    (∀ mhz, capNow mhz false = 2560 * mhz / 700 ∧ capNow mhz true = 2560 * mhz * 95 / 70000) ∧
    (∀ g c r n, (c ≤ r → effective g c r n = 0) ∧ (r < c → n ≤ c - r → effective g c r n = g) ∧
      (r < c → c - r < n → effective g c r n = g * (c - r) / n) ∧ effective g c r n ≤ g) ∧
    (k.commit = true → s.changing ch = true → (s.takeCommit ch).channel ch = { k with commit := false, cresult := 3 }) ∧
    (k.commit = true → s.changing ch = false → s.admissible ch = true →
      ((s.takeCommit ch).channel ch).cresult = 1 ∧ ∀ p, Tbl.find k.regs p ≠ none →
        (s.takeCommit ch).slot ch p = { s.slot ch p with guar := (s.slot ch p).shGuar, windows := (s.slot ch p).shWindows, targets := (s.slot ch p).shTargets }) ∧
    (k.commit = true → s.changing ch = false → s.admissible ch = false → (s.takeCommit ch).channel ch = { k with commit := false, cresult := 2 }) ∧
    (∀ w : Waiting,
      let age := s.ltime - w.arrived
      let target := 20 * (s.slot ch w.req.part).targets.getD w.req.cls.toNat 0
      let rise := if target = 0 then 0 else min 3 (4 * age / target)
      (w.req.cls = 7 → k.recovUsed < 64 * s.recov ch → s.priority ch w = 8) ∧
      (w.req.cls = 7 → 64 * s.recov ch ≤ k.recovUsed → s.priority ch w = rise) ∧
      (w.req.cls ≠ 7 → 0 < (s.slot ch w.req.part).account → s.priority ch w = 4 + rise) ∧
      (w.req.cls ≠ 7 → (s.slot ch w.req.part).account ≤ 0 → s.priority ch w = rise) ∧
      (∀ x : Waiting,
        (s.priority ch w < s.priority ch x → s.before ch x w = true) ∧
        (s.priority ch x = s.priority ch w → x.arrived < w.arrived → s.before ch x w = true) ∧
        ¬ (s.before ch x w = true ∧ s.before ch w x = true))) ∧
    (∀ (r : MemReq) (x : Waiting),
      let w := s.arrival r none .row
      s.waiting = [x] → x.same r none .row = false → x ∈ s.ahead w →
      (x.unit ≠ .row → s.ask r none .row = ({ status := .hold }, s.wait w, []) ∧ exec (.channelRead r) s = s.answer ((s.wait w).settle [])) ∧
      (x.unit = .row →
        let o := s.turn x
        let u := o.2.1.answerRow x o.1
        u.ahead w = [] →
          let v := u.turn w
          exec (.channelRead r) s = s.answer ((v.2.1.settle (o.2.2 ++ v.2.2)).answerRow w v.1)))

/-! ### The register window and management -/

/-- What writes to registers with rows of their own do (R213, R337, R341, R454, R468, R471, R494, R503, R504, R514, R518 to R522, R527 to R531), and what
REGISTER_WRITE does where no word is written: an access off an 8-byte boundary and one to an address that holds nothing change nothing; a write to a clamped
block is counted as refused in the header of the module block and changes nothing else; a value out of its range, or a static field of a running block, is
refused in the header of the block. -/
def Obligations.RegisterWritesTakeEffectOrAreRefused : Prop :=
  ∀ (s : State) (m : Master),
    -- REGISTER_WRITE
    (∀ ofs v, ofs.toNat % 8 ≠ 0 → exec (.registerWrite m ofs v) s = .next s) ∧
    (∀ ofs v, s.windowUp m = false → exec (.registerWrite m ofs v) s = .next s) ∧
    (∀ ofs v b o, s.windowUp m = true → ofs.toNat % 8 = 0 → blkOf ofs.toNat = some (b, o) → s.blkClamped b = true →
      exec (.registerWrite m ofs v) s = s.answer (s.refuse 0 ofs.toNat Why.clamped m)) ∧
    (∀ ofs v b o, ofs.toNat % 8 = 0 → blkOf ofs.toNat = some (b, o) → s.takesWrites m b → o < 0x1000 → o ≠ 8 → exec (.registerWrite m ofs v) s = .next s) ∧
    (∀ ofs v b, ofs.toNat % 8 = 0 → blkOf ofs.toNat = some (b, 8) → s.takesWrites m b → v.toNat % 2 ^ 32 = 0 →
      exec (.registerWrite m ofs v) s = .next { s with hdrs := Tbl.mod BlockHeader.reset s.hdrs b.base fun h => { h with clear := true } }) ∧
    -- registers of the module block
    (s.takesWrites m .module →
      (∀ w : BitVec 64, 2000 ≤ w.toNat % 2 ^ 13 → w.toNat % 2 ^ 13 ≤ 5000 →
        exec (.pwrCap m w) s = .next { s with power := { s.power with capNext := some (w.toNat % 2 ^ 13) } }) ∧
      (∀ w : BitVec 64, w.toNat % 2 ^ 13 < 2000 ∨ 5000 < w.toNat % 2 ^ 13 → exec (.pwrCap m w) s = s.answer (s.refuse 0 0x4000 Why.range m)) ∧
      (∀ v : BitVec 32, (v.toNat + 2 ^ 32 - s.errCons) % 2 ^ 32 ≤ s.errUsed → exec (.errCons m v) s = .next { s with errCons := v.toNat }) ∧
      (∀ v : BitVec 32, s.errUsed < (v.toNat + 2 ^ 32 - s.errCons) % 2 ^ 32 → exec (.errCons m v) s = .next s) ∧
      (∀ en, 6 ≤ s.adminLog → s.adminLog ≤ 15 → s.adminBase + 64 * 2 ^ s.adminLog ≤ adminRegion →
        exec (.adminEn m en) s = .next { s with adminEn := en }) ∧
      (∀ v, exec (.pmStart m v) s = .next { s with pm := { s.pm with start := s.pm.start || v } }) ∧
      exec (.pmStop m true) s = .next { s with pm := { s.pm with start := false, stop := true } } ∧ exec (.pmStop m false) s = .next s ∧
      (∀ v, exec (.pmAuto m v) s = .next { s with pm := { s.pm with auto := v } })) ∧
    -- registers of a cluster block
    (∀ c : ClusterId, s.takesWrites m (.cluster c) →
      (∀ w : BitVec 5, w.toNat ≤ 16 → s.runs (.cluster c) = false ∨ w.toNat = (s.cluster c).csmWays →
        exec (.csmWays m c w) s = s.answer (s.setWays c w.toNat) ∧ ((s.setWays c w.toNat).cluster c).csmWays = w.toNat ∧
        (w.toNat ≠ (s.cluster c).csmWays → ((s.setWays c w.toNat).cluster c).cache = [] ∧
          ∀ a, a < (16 - w.toNat) * 524288 → Mem.read ((s.setWays c w.toNat).cluster c).scratch a = Mem.read (s.cluster c).scratch a)) ∧
      (∀ w : BitVec 5, w.toNat ≠ (s.cluster c).csmWays → s.runs (.cluster c) = true →
        exec (.csmWays m c w) s = s.answer (s.refuse (Blk.cluster c).base 0x8000 Why.running m)) ∧
      (∀ ch : ChannelId, ch.val / 8 = c.val →
        exec (.commit m ch true) s = .next (s.modChannel ch fun k => { k with commit := true }) ∧ exec (.commit m ch false) s = .next s)) ∧
    -- registers of a link block
    (∀ l : LinkId, s.takesWrites m (.link l) →
      (∀ v, exec (.retrain m l v) s =
        let u := s.disableLink l (s.link l).disable
        s.answer (if v && !(s.link l).disable then u.retrain l true else u)) ∧
      (∀ v, exec (.disable m l v) s = s.answer (s.disableLink l v)) ∧
      (l.val = 0 → exec (.walkStart m true) s = s.answer (s.walkStart true m) ∧ exec (.walkStart m false) s = .next s) ∧
      (∀ a mask : BitVec 16, a.toNat / 4096 = l.val → Completes (.routingEntryWrite m a mask) s fun t =>
        t.mask a.toNat = mask.toNat ∧ (∀ d, d ≠ a.toNat → (∀ x, s.mask x < 2 ^ 16) → t.mask d = s.mask d) ∧ t = { s with routing := t.routing })) ∧
    -- heads of completion rings, and doorbells
    (∀ (r : Fin 4096) (h : BitVec 17), s.windowUp m = true → (s.cring r).defined = true →
      let k := s.cring r
      ((h.toNat + 2 ^ 17 - k.head) % 2 ^ 17 ≤ (k.tail + 2 ^ 17 - k.head) % 2 ^ 17 →
        exec (.head m r h) s = s.answer ((s.modCring r fun k => { k with head := h.toNat, notify := false }).flushRing r) ∧
        exec (.notify m r h) s = s.answer ((s.modCring r fun k => { k with head := h.toNat, notify := true }).flushRing r)) ∧
      ((k.tail + 2 ^ 17 - k.head) % 2 ^ 17 < (h.toNat + 2 ^ 17 - k.head) % 2 ^ 17 → Completes (.head m r h) s fun t =>
        (t.cring r).head = k.head ∧ (∀ q, t.queue q = s.queue q) ∧ t.cores = s.cores)) ∧
    (∀ (r : Fin 4096) (h : BitVec 17), (s.cring r).defined = false → exec (.head m r h) s = .next s ∧ exec (.notify m r h) s = .next s) ∧
    (∀ (q : QueueId) v, s.windowUp m = true → exec (.doorbell m q v) s = s.answer (s.doorbell q v.toNat (match m with
      | .host c => c
      | _ => (s.queue q).conn))) ∧
    -- a write of ADMIN_EN takes effect at the next doorbell of queue 0
    (∀ v conn, (s.ring 0 v conn).adminOn = s.adminEn ∧ (s.adminEn = false → (s.ring 0 v conn).queue 0 = s.queue 0))

/-- The management bus (R512, R514 to R516, R40). With the module off no command is answered. An address comes from ENTDAA and a directed command finds only a
target that has one; the identity is that of Table 17-5; RSTACT takes 0x00 and 0x01 alone; a sensor reads as unavailable in STANDBY and FAILED, but for the
input voltage; PWR_CAP receives the cap; register accesses of the bus move one to sixteen words inside what it reaches; an update is taken stage by stage, and
BOOT_PREF is written only after four good stages. What GETSTATUS carries is a free value (the specification states none). -/
def Obligations.ManagementBusCommands : Prop :=
  ∀ (s : State) (eid b mask v : BitVec 8) (a7 : BitVec 7) (n id : BitVec 16) (w i : BitVec 32),
    let put (pm : Pm) : State := { s with pm := pm }
    (s.pm.st = .off → ∀ c ∈ [Instr.entdaa a7, .rstdaa, .setnewda a7, .getpid, .getbcr, .getdcr, .getstatus, .enec mask, .disec mask, .setmwl n, .setmrl n,
      .getmwl, .getmrl, .rstact b, .hotJoin, .setEndpointId eid, .getSensorReading id, .setCapEffecter w, .setPowerStateEffecter v,
      .platformEventMessage, .regRead i n, .recRead i, .requestUpdate], exec c s = .next s) ∧
    (s.pm.st ≠ .off →
      -- addresses and identity
      (s.pm.da = none → exec (.entdaa a7) s = .next ((put { s.pm with da := some a7.toNat, hotJoin := false }).i3cAns true) ∧
        ∀ c ∈ [Instr.setnewda a7, .getpid, .getbcr, .getdcr, .getstatus, .getmwl, .getmrl, .setEndpointId eid], exec c s = .next s) ∧
      exec .rstdaa s = .next ((put { s.pm with da := none }).i3cAns true) ∧
      (s.pm.da.isSome = true →
        exec (.entdaa a7) s = .next s ∧ exec (.setnewda a7) s = .next ((put { s.pm with da := some a7.toNat }).i3cAns true) ∧
        exec .getpid s = .next (s.i3cAns true (beBytes s.pid 6)) ∧ exec .getbcr s = .next (s.i3cAns true [0x0E]) ∧
        exec .getdcr s = .next (s.i3cAns true [0x00]) ∧
        (Completes .getstatus s fun t => ∃ x y, t = { s with sent := s.sent ++ [.i3c true [x, y]], freeIx := s.freeIx + 1 }) ∧
        exec .getmwl s = .next (s.i3cAns true (beBytes s.pm.mwl 2)) ∧ exec .getmrl s = .next (s.i3cAns true (beBytes s.pm.mrl 2)) ∧
        exec (.setEndpointId eid) s = .next ((put { s.pm with eid := eid.toNat }).pldmAns .success)) ∧
      (s.pid / 2 ^ 32 % 2 = 1 ∧ s.pid % 2 ^ 32 = (Config.sha384 (leBytes s.sec.serial 14)).toNat % 2 ^ 32) ∧
      -- events, lengths, reset action, Hot-Join
      (∀ j, j < 8 → (Completes (.enec mask) s fun t => t.pm.events.testBit j = (s.pm.events.testBit j || mask.getLsbD j)) ∧
        (Completes (.disec mask) s fun t => t.pm.events.testBit j = (s.pm.events.testBit j && !mask.getLsbD j))) ∧
      exec (.setmwl n) s = .next ((put { s.pm with mwl := min n.toNat 256 }).i3cAns true) ∧
      exec (.setmrl n) s = .next ((put { s.pm with mrl := min n.toNat 256 }).i3cAns true) ∧
      (b.toNat ≤ 1 → exec (.rstact b) s = .next ((put { s.pm with rstact := b.toNat }).i3cAns true)) ∧
      (1 < b.toNat → exec (.rstact b) s = .next (s.i3cAns false)) ∧
      (s.pm.hotJoin = true → s.pm.da = none → s.pm.events.testBit 3 = true →
        exec .hotJoin s = .next ((put { s.pm with hotJoin := false }).emit .hotJoin)) ∧
      (s.pm.hotJoin = false ∨ s.pm.da.isSome = true → exec .hotJoin s = .next s) ∧
      -- sensors, effecters, events
      (id.toNat = 0 ∨ 20 < id.toNat → exec (.getSensorReading id) s = .next (s.pldmAns .error)) ∧
      (1 ≤ id.toNat → id.toNat ≤ 20 → s.pm.st = .standby ∨ s.pm.st = .failed → id.toNat ≠ 2 →
        exec (.getSensorReading id) s = .next (s.pldmAns (.reading id.toNat none))) ∧
      (1 ≤ id.toNat → id.toNat ≤ 20 → (s.pm.st ≠ .standby ∧ s.pm.st ≠ .failed) ∨ id.toNat = 2 →
        exec (.getSensorReading id) s = .next (s.pldmAns (.reading id.toNat (s.sensorValue id.toNat)))) ∧
      (s.takesWrites .management .module → 2000 ≤ w.toNat → w.toNat ≤ 5000 → exec (.setCapEffecter w) s =
        .next (({ s with power := { s.power with capNext := some w.toNat } } : State).pldmAns .success)) ∧
      (s.takesWrites .management .module → w.toNat < 2000 ∨ 5000 < w.toNat → exec (.setCapEffecter w) s =
        s.answer ((s.refuse 0 0x4000 Why.range .management).pldmAns .error)) ∧
      (v.toNat = 1 → exec (.setPowerStateEffecter v) s = .next ((put { s.pm with start := true }).pldmAns .success)) ∧
      (v.toNat = 2 → exec (.setPowerStateEffecter v) s = s.answer ((s.stopModule .stop).pldmAns .success)) ∧
      (s.errProd = s.pm.evProd → s.errProd < 2 ^ 32 → s.pm.evStates = [] → exec .platformEventMessage s = .next s) ∧
      (s.errProd < 2 ^ 32 → s.pm.evProd < 2 ^ 32 → s.errProd ≠ s.pm.evProd ∨ s.pm.evStates ≠ [] → Completes .platformEventMessage s fun t =>
        t.pm.evProd = s.errProd ∧ t.pm.evStates = [] ∧ t.pm.evAt = some t.ltime ∧ (∀ at_, s.pm.evAt = some at_ → at_ + 10000000 ≤ t.ltime) ∧
        ∃ recs, t.sent = s.sent ++ [.pldmEvent recs s.pm.evStates]) ∧
      -- register accesses and records
      (i.toNat % 8 = 0 → 1 ≤ n.toNat → n.toNat ≤ 16 → (∀ j, j < n.toNat → s.busReaches (i.toNat + 8 * j) = true) → exec (.regRead i n) s =
        .next (s.pldmAns (.words ((List.range n.toNat).map fun j => BitVec.ofNat 64 (s.regRead (i.toNat + 8 * j)))))) ∧
      (i.toNat % 8 ≠ 0 ∨ n.toNat = 0 ∨ 16 < n.toNat ∨ (∃ j, j < n.toNat ∧ s.busReaches (i.toNat + 8 * j) = false) →
        exec (.regRead i n) s = .next (s.pldmAns .invalidData)) ∧
      (∀ x : BitVec 64, i.toNat % 8 = 0 → s.busReaches i.toNat = true →
        let r := s.regWriteR .management i.toNat x.toNat
        exec (.regWrite i [x]) s = s.answer (r.1.pldmAns (if r.2 then .error else .success))) ∧
      (∀ vs : List (BitVec 64), vs = [] ∨ 16 < vs.length ∨ i.toNat % 8 ≠ 0 → exec (.regWrite i vs) s = .next (s.pldmAns .invalidData)) ∧
      exec (.recRead i) s = .next (s.pldmAns (.words (Tbl.get (List.replicate 8 0) s.errRing (i.toNat % 4096)))) ∧
      -- firmware update
      (s.pm.st = .ready → s.pm.update = none → s.pm.noFlash = false → exec .requestUpdate s =
        .next ((put { s.pm.setSlot (1 - s.pm.slot) [] with update := some ⟨1 - s.pm.slot, 0, false⟩ }).pldmAns .success)) ∧
      (s.pm.update.isSome = true → exec .requestUpdate s = .next (s.pldmAns .alreadyUpdating))) ∧
    (∀ u svn (dg : StageFile), s.pm.update = some u → u.ended = false → u.stages < 4 →
      (s.sec.svn ≤ svn.toNat → exec (.slotImageStage true svn dg) s = .next ((put { s.pm.setSlot u.slot
        ((if u.slot = 0 then s.pm.slotA else s.pm.slotB) ++ [⟨true, svn.toNat, dg.digest, dg.signed, dg.body⟩]) with update := some { u with stages := u.stages + 1 } }).pldmAns .success)) ∧
      (∀ good, good = false ∨ svn.toNat < s.sec.svn → exec (.slotImageStage good svn dg) s =
        .next ((put { s.pm with update := some { u with ended := true } }).pldmAns .verifyFailed))) ∧
    (∀ u, s.pm.update = some u → u.ended = false → 4 ≤ u.stages →
      exec .activateFirmware s = .next ((put { s.pm with pref := u.slot, actPending := true, update := none }).pldmAns .success)) ∧
    (∀ u, s.pm.update = some u → u.ended = true ∨ u.stages < 4 → exec .activateFirmware s = .next (s.pldmAns .error)) ∧
    (∀ u, s.pm.update = some u → Completes .cancelUpdate s fun t =>
      t.pm.update = none ∧ t.pm.pref = s.pm.pref ∧ t.pm.slot = s.pm.slot ∧ (if u.slot = 0 then t.pm.slotA else t.pm.slotB) = []) ∧
    (s.pm.update = none → exec .activateFirmware s = .next (s.pldmAns .error) ∧ exec .cancelUpdate s = .next (s.pldmAns .error)) ∧
    exec .testAccessPort s = .next (s.emit (.tdo (decide (s.sec.lc = 0 ∨ s.sec.lc = 3))))

/-! ### Boot, stops and power -/

/-- Input power, the samples of MOD_EN_N, the bounds of the boot, rails and the thermal shutdown (R355, R430, R443, R500 to R505, Tables 14-1, 17-2 and 17-3).
A module out of power comes to STANDBY with local time 0; an input fault or a stop takes it to STANDBY with its cause and what a module reset loses; below
30 V it is OFF; from STANDBY a sample of MOD_EN_N low begins the boot where PM_AUTO or PM_START allows it, after a THERMAL stop only 60 s later and by
PM_START or an edge. -/
def Obligations.InputPowerAndStops : Prop :=
  ∀ (s : State) (high : Bool) (w v a : Nat) (steps : List BootStep) (reading : BitVec 16),
    let lost (t : State) : Prop := t.cores = [] ∧ t.ctxs = [] ∧ t.queues = [] ∧ t.fences = [] ∧ t.formes = [] ∧ t.parts = []
    let tick := (s.ltime / 1000000 + 1) * 1000000
    (∀ root, s.pm.st = .off → Completes (.inputRise root) s fun t =>
      t.ltime = 0 ∧ t.isRoot = root ∧ t.pm.st = .standby ∧ t.pm.slotA = s.pm.slotA ∧ t.pm.slotB = s.pm.slotB ∧ t.pm.pref = s.pm.pref ∧ t.pm.identity = s.pm.identity ∧ t.sec = s.sec) ∧
    (∀ root, s.pm.st ≠ .off → exec (.inputRise root) s = .next s) ∧
    (s.pm.st = .off → ∀ c ∈ [Instr.undervolt, .overvolt, .inputLoss, .modEnSample high w v a steps], exec c s = .next s) ∧
    (∀ p ∈ [(Instr.undervolt, PmCause.undervolt), (.overvolt, .overvolt)], s.pm.st ≠ .off → Completes p.1 s fun t =>
      t.pm.inputBad = true ∧ t.running = false ∧ t.errRing = s.errRing ∧ t.errProd = s.errProd ∧ (s.running = true → t.pm.st = .standby ∧ t.pm.cause = p.2 ∧ lost t)) ∧
    (s.pm.st ≠ .off → Completes .inputLoss s fun t => t.pm.st = .off ∧ t.errProd = 0 ∧ t.pm.pref = s.pm.pref ∧ lost t) ∧
    exec .inputRestored s = .next { s with pm := { s.pm with inputBad := false } } ∧
    -- samples of MOD_EN_N
    (s.running = true → s.pm.stop = true ∨ (high = true ∧ s.pm.modEn = false) → Completes (.modEnSample high w v a steps) s fun t =>
      t.pm.st = .standby ∧ t.pm.cause = (if s.pm.stop then .stop else .modEn) ∧ t.ltime = max s.ltime tick ∧ lost t ∧ t.pm.start = false ∧ t.pm.stop = false) ∧
    (s.pm.st = .standby → high = false → s.pm.stop = false → s.pm.inputBad = false →
      (s.advanceTo tick).mayLeave s.pm.start (s.pm.edge || (s.pm.thermalAt.isSome && s.pm.modEn)) = true → Completes (.modEnSample high w v a []) s fun t =>
      t.pm.st = .booting ∧ t.pm.step = 3 ∧ t.pm.bootAt = t.ltime ∧ t.pm.thermalAt = none) ∧
    (s.pm.st = .standby → high = true ∨ s.pm.stop = true ∨ s.pm.inputBad = true →
      Completes (.modEnSample high w v a steps) s fun t => t.pm.st = .standby ∧ t.power.inW = w ∧ t.power.inV = v ∧ t.power.inA = a) ∧
    (s.pm.st = .ready → s.pm.stop = false → high = false ∨ s.pm.modEn = true → Completes (.modEnSample high w v a steps) s fun t =>
      t.pm.st = .ready ∧ t.cores = s.cores ∧ t.ctxs = s.ctxs ∧ t.channels = s.channels ∧ t.pm.modEn = high) ∧
    (∀ start edge, (∀ x, s.pm.thermalAt = some x → (s.mayLeave start edge = true ↔ (start = true ∨ edge = true) ∧ x + 60000000000 ≤ s.ltime)) ∧
      (s.pm.thermalAt = none → s.pm.cause ∈ [.none, .modEn, .stop, .undervolt, .overvolt, .thermal] → (s.mayLeave start edge = true ↔ s.pm.auto = true ∨ start = true)) ∧
      (s.pm.thermalAt = none → s.pm.cause = .scrap → s.mayLeave start edge = false)) ∧
    -- a step that overruns
    (s.pm.st = .booting → s.pm.step ≠ 4 → s.pm.step ≠ 7 → Completes (.bootStepOverrun steps) s fun t => t.pm.st = .failed ∧ t.pm.cause = .notReady ∧ lost t) ∧
    (s.pm.st = .booting → s.pm.step = 4 → Completes (.bootStepOverrun steps) s fun t => t.pm.st = .standby ∧ t.pm.cause = .bootVerify ∧ t.pm.bothFailed = true) ∧
    (s.pm.st = .booting → s.pm.step = 7 → Completes (.bootStepOverrun []) s fun t => t.pm.st = .booting ∧ t.pm.step = 8 ∧ t.quarantine = s.quarantine) ∧
    (s.pm.st ≠ .booting → exec (.bootStepOverrun steps) s = .next s) ∧
    -- rails and the comparators
    (∀ rail : Fin 38, s.pm.st = .off ∨ (rail ≠ 37 ∧ s.running = false) → exec (.railFault rail reading) s = .next s) ∧
    (∀ rail : Fin 38, s.pm.st ≠ .off → rail = 37 ∨ s.running = true →
      let u := s.powerRecord PowerEvent.railFault (if rail.val = 0 ∨ rail.val = 4 ∨ rail.val = 37 then 4 else 3) rail reading.toNat
      let off : State := { u with power := { u.power with railsOff := insertSorted rail.val u.power.railsOff } }
      (rail.val < 8 → exec (.railFault rail reading) s = s.answer (u.dieRail (rail.val % 4))) ∧
      (24 ≤ rail.val → rail.val < 32 → exec (.railFault rail reading) s =
        s.answer ((rangeFrom (4 * (rail.val % 4)) 4).foldl (fun s l => s.linkDown l) off)) ∧
      (32 ≤ rail.val → rail.val < 36 → exec (.railFault rail reading) s =
        s.answer ((rangeFrom (4 * (rail.val % 2)) 4).foldl (fun s p => s.portDown p) off)) ∧
      (rail.val = 36 → Completes (.railFault rail reading) s fun t => t.pm.noFlash = true ∧ t.pm.st = s.pm.st ∧ t.cores = s.cores) ∧
      (rail.val = 37 → Completes (.railFault rail reading) s fun t => t.pm.st = .failed ∧ t.pm.cause = .level5 ∧ lost t)) ∧
    (∀ what, s.running = true → 115 ≤ reading.toNat → Completes (.thermalShutdown what reading) s fun t =>
      t.pm.st = .standby ∧ t.pm.cause = .thermal ∧ t.pm.thermalAt = some s.ltime ∧ lost t) ∧
    (∀ what, s.running = false ∨ reading.toNat < 115 → exec (.thermalShutdown what reading) s = .next s)

/-- Grants of current (R436 to R438): a slot of 125 ns gives a die at most four new grants and a cluster at most one; every grant given is of a unit that
asks, and keeps the estimate at or below the ceiling; no grant is taken away, and no cluster of another die is touched. A unit that has work keeps its
grant, one without work gives it up. -/
def Obligations.GrantsKeepTheCeilingAndTheSlope : Prop :=
  ∀ (s : State), s.running = true →
    (∀ d : DieId, Completes (.grantSlot d) s fun t =>
      (∀ c, (t.cpower c).grants = (s.cpower c).grants ∨ c / 12 = d.val ∧ ∃ u, (t.cpower c).grants = (s.cpower c).grants ++ [u] ∧
        u ∈ s.clusterUnits c ∧ u ∉ (s.cpower c).grants ∧ s.grantsFit c (s.stepOf c) (u :: (s.cpower c).grants) = true) ∧
      ((rangeFrom (12 * d.val) 12).filter fun c => (t.cpower c).grants != (s.cpower c).grants).length ≤ 4 ∧
      t.cores = s.cores ∧ t.parts = s.parts ∧ s.ltime ≤ t.ltime) ∧
    (∀ (c : ClusterId) (u : Fin 20),
      ((s.clusterUnits c).contains u.val = true → exec (.grantRelease c u) s = .next s) ∧
      ((s.clusterUnits c).contains u.val = false → Completes (.grantRelease c u) s fun t =>
        (∀ x, x ∈ (t.cpower c).grants ↔ x ∈ (s.cpower c).grants ∧ x ≠ u.val) ∧ ∀ e, e ≠ c.val → t.cpower e = s.cpower e)) ∧
    (∀ c step grants p, s.partOfCluster c = some p → (s.grantsFit c step grants = true ↔
      20 * s.staticMw c + s.vopMv (dieOf c) * (20 - step) * (grants.foldl (fun a u => a + unitAmps u) 0) ≤ 5 * s.vopMv (dieOf c) * s.ceiling p (dieOf c))) ∧
    (∀ u, u < 16 → unitAmps u = 6) ∧ (∀ u, 16 ≤ u → unitAmps u = 3) ∧ ∀ p d, s.ceiling p d ≤ 480

/-- The governor, the backstops, droop, temperature and energy (R435, R440 to R443, R446, R447, Tables 14-3, 14-5 and 14-6). A tick takes the cap written,
moves the step of the partition by one at most, and withdraws grants, the last first, until what is left fits. -/
def Obligations.GovernorBackstopsAndEnergy : Prop :=
  ∀ (s : State), s.running = true →
    (∀ p : PartId, (s.part p).inUse = true → (∀ c, (s.cpower c).grants.length ≤ 20) → Completes (.governorTick p) s fun t =>
      t.power.cap = s.power.capNext.getD s.power.cap ∧ t.power.capNext = none ∧
      (∀ c, (t.cpower c).grants <+: (s.cpower c).grants) ∧ (∀ c, c ∉ (s.part p).lay.clusters → t.cpower c = s.cpower c) ∧
      (∀ c ∈ (s.part p).lay.clusters, (t.cpower c).grants = [] ∨ t.grantsFit c (t.stepOf c) (t.cpower c).grants = true) ∧
      (s.tickEffects.power.backSteps = 0 → 80 < Tbl.get 0 s.power.waitSlots p → (t.part p).clockStep = min 19 ((s.part p).clockStep + 1)) ∧
      (s.tickEffects.power.backSteps = 0 → Tbl.get 0 s.power.waitSlots p ≤ 80 →
        (t.part p).clockStep = (s.part p).clockStep ∨ (t.part p).clockStep + 1 = (s.part p).clockStep)) ∧
    (∀ p : PartId, (s.part p).inUse = false → exec (.governorTick p) s = s.answer s.tickEffects) ∧
    -- backstops
    (∀ (d : DieId) (r : BitVec 16), r.toNat < 6240 → exec (.railBackstop d r) s = .next s) ∧
    (∀ (d : DieId) (r : BitVec 16), 6240 ≤ r.toNat → Completes (.railBackstop d r) s fun t =>
      t.power.backstop = min (s.power.backstop + 1) (2 ^ 32 - 1) ∧ Tbl.get 0 t.power.halved d = s.ltime + 10000 ∧ t.cores = s.cores) ∧
    (∀ r : BitVec 16, 10950 ≤ r.toNat → Completes (.inputBackstop r) s fun t =>
      t.power.inA = r.toNat ∧ t.power.backSteps = min 19 (s.power.backSteps + 1) ∧ t.power.backResume = none ∧
      t.power.backstop = min (s.power.backstop + 1) (2 ^ 32 - 1)) ∧
    (∀ r : BitVec 16, r.toNat < 10500 → s.power.backSteps ≠ 0 → s.power.backResume = none →
      exec (.inputBackstop r) s = .next { s with power := { s.power with inA := r.toNat, backResume := some (s.ltime + 1000000) } }) ∧
    (∀ r : BitVec 16, r.toNat < 10950 → s.power.backSteps = 0 → exec (.inputBackstop r) s = .next { s with power := { s.power with inA := r.toNat } }) ∧
    -- droop
    (∀ c : ClusterId, (s.cpower c).stretched = false → Completes (.droop c) s fun t =>
      (t.cpower c).stretched = true ∧ (t.cpower c).droop = min ((s.cpower c).droop + 1) (2 ^ 32 - 1) ∧ (t.cpower c).nT = (s.cpower c).nT ∧
      (t.cpower c).grants = (s.cpower c).grants) ∧
    (∀ c : ClusterId, (s.cpower c).stretched = true → exec (.droop c) s = .next s) ∧
    (∀ c : ClusterId, (s.cpower c).stretched = true → exec (.droopEnd c) s = .next (s.modCpower c fun k => { k with stretched := false })) ∧
    (∀ c : ClusterId, (s.cpower c).stretched = false → exec (.droopEnd c) s = .next s) ∧
    -- temperature
    (∀ c, c < 48 → ∀ T, T < 115 → Completes (.thermalSensorRead [(c, T)] [] []) s fun t =>
      let k := s.cpower c
      let stack := Tbl.get 0 s.power.stackTemp (c / 4)
      (t.cpower c).temp = T ∧
      (95 ≤ T ∨ 95 ≤ stack → k.nT = 0 ∨ k.nTAt + 100000 ≤ s.ltime → (t.cpower c).nT = min 19 (k.nT + 1)) ∧
      (95 ≤ T ∨ 95 ≤ stack → k.nT ≠ 0 → s.ltime < k.nTAt + 100000 → (t.cpower c).nT = k.nT) ∧
      (T < 92 → stack < 92 → k.nT ≠ 0 → k.nTAt + 1000000 ≤ s.ltime → (t.cpower c).nT = k.nT - 1) ∧
      (∀ d, d < 4 → (d ∈ t.power.emergency ↔ if d ∈ s.power.emergency then 100 ≤ t.dieTemp d else 105 ≤ t.dieTemp d)) ∧
      ∀ e, e ≠ c → t.cpower e = s.cpower e) ∧
    (∀ c T, 115 ≤ T → Completes (.thermalSensorRead [(c, T)] [] []) s fun t =>
      t.pm.st = .standby ∧ t.pm.cause = .thermal ∧ t.ctxs = [] ∧ t.pm.thermalAt = some s.ltime) ∧
    (∀ c, dieOf c ∈ s.power.emergency → s.stepOf c = 19) ∧
    -- energy
    (∀ (acts : List EnergyAct) (n : BitVec 16), n ≠ 0 → (s.ctx n.toNat).state ≠ .free → (∀ a ∈ acts, a.ctx = n) →
      (∀ f, s.forme (s.ctx n.toNat).forme = some f → f.switching = none) → Completes (.energyFold acts) s fun t =>
      (t.ctx n.toNat).energy = (s.ctx n.toNat).energy + (acts.map fun a => s.actEnergy a).foldl (· + ·) 0 ∧ t.power.unattr = s.power.unattr ∧
      ∀ m, m ≠ n.toNat → t.ctx m = s.ctx m) ∧
    (∀ (a : EnergyAct) (f : Forme) (to_ from_ m : Nat), (s.ctx a.ctx.toNat).state ≠ .free → a.ctx ≠ 0 → s.forme (s.ctx a.ctx.toNat).forme = some f →
      f.switching.map (fun w => w.1) = some to_ → f.running = some from_ → to_ ≠ from_ → (s.ctx a.ctx.toNat).job = from_ → m ≠ a.ctx.toNat → m ≠ 0 →
      ((s.jobCtxs (s.ctx a.ctx.toNat).forme to_).find? fun e => e.2.part == (s.ctx a.ctx.toNat).part) = some (m, s.ctx m) → Completes (.energyFold [a]) s fun t =>
      (t.ctx a.ctx.toNat).energy = (s.ctx a.ctx.toNat).energy + s.actEnergy a / 2 ∧
      (t.ctx m).energy = (s.ctx m).energy + (s.actEnergy a - s.actEnergy a / 2) ∧ t.power.unattr = s.power.unattr) ∧
    (∀ a : EnergyAct, a.ctx = 0 → (∀ f, s.forme (s.ctx 0).forme = some f → f.switching = none) →
      exec (.energyFold [a]) s = .next { s with power := { s.power with unattr := s.power.unattr + s.actEnergy a } })

/-! ### Keys, sessions and the life cycle -/

/-- Sessions and the key register (R395, R397, R399, R402, R410, R412, R415 to R417): the commands of Table 13-11 with the refusals of Table 13-12. A
command that must be sealed and was not completes with BAD_SEAL; a handle in use, a type the command may not make, a share list that is not free and a
key of another owner are refused and change no key; a destroyed key is gone, and so is its share list. -/
def Obligations.SessionAndKeyCommands : Prop :=
  ∀ (s : State) (q : QueueId) (c : Cmd),
    let u := s.start q c
    let a := c.arg 0
    let n := (s.queue q).ctx
    let bad (t : State) : State := t.finish q c.place { status := St.badSeal }
    (∀ p ∈ [(Instr.sessionOpen q, 0x50), (.sessionClose q, 0x51), (.keyInstall q, 0x52), (.keyDestroy q, 0x53)],
      s.takesNone q p.2 → exec p.1 s = .next s) ∧
    -- SESSION_OPEN
    (s.takes q 0x50 c → c.bulk = none → c.bulkAsked = false → exec (.sessionOpen q) s = s.answer (s.askBulk q c)) ∧
    (∀ b, s.takes q 0x50 c → c.bulk = some b →
      let good := 1720 ≤ b.length ∧ atBytes b 0 4 = 1 ∧ kemKeyGood ((b.take 1720).drop 152) = true
      (¬ good → exec (.sessionOpen q) s = s.answer (u.refuseCmd q c Dt.field)) ∧
      (good → s.sec.canAttest = false → exec (.sessionOpen q) s = s.answer (u.refuseCmd q c Kd.attLeaves)) ∧
      (good → s.sec.canAttest = true → ∀ h, s.freeHandle = some h →
        (0x040 ≤ h ∧ h < 0x1000 ∧ (s.key h).valid = false ∧ (s.key h).staged = false) ∧
        ∃ (v : State) (r : List Byte), exec (.sessionOpen q) s = s.answer ((v.writeAnswer c r).okCmd q c [BitVec.ofNat 64 h]) ∧
          (v.key h).type = .session ∧ (v.key h).valid = true ∧ (v.key h).engines = 0x28 ∧ (∀ g, g ≠ h → v.key g = s.key g) ∧
          (v.session h).map (fun x => x.opened) = some s.ltime ∧ v.sec.colophons = s.sec.colophons + 1 ∧ r.length = 9768)) ∧
    -- SESSION_CLOSE, SESSION_EXPIRY
    (s.takes q 0x51 c → c.session ≠ bits a 11 0 ∨ s.session (bits a 11 0) = none → exec (.sessionClose q) s = s.answer (bad u)) ∧
    (s.takes q 0x51 c → c.session = bits a 11 0 → (s.session (bits a 11 0)).isSome = true →
      (s.sessionBound (bits a 11 0) 0 = true → exec (.sessionClose q) s = s.answer (u.refuseCmd q c Kd.sessionInUse)) ∧
      (s.sessionBound (bits a 11 0) 0 = false → exec (.sessionClose q) s = s.answer ((u.okCmd q c).destroySession (bits a 11 0)))) ∧
    (∀ h : BitVec 16, (s.session h.toNat = none ∨ s.sessionBound h.toNat 0 = true → exec (.sessionExpiry h) s = .next s) ∧
      (∀ x, s.session h.toNat = some x → s.sessionBound h.toNat 0 = false →
        Completes (.sessionExpiry h) s fun t => t.session h.toNat = none ∧ t.ltime = max s.ltime (x.opened + 60000000000))) ∧
    -- KEY_INSTALL
    (s.takes q 0x52 c →
      let asked := bits a 11 0
      let staged := bit a 25
      (staged ≠ decide (q.val = 0) → exec (.keyInstall q) s = s.answer (u.finish q c.place { status := St.wrongQueue })) ∧
      (staged = decide (q.val = 0) → c.session = 0 → exec (.keyInstall q) s = s.answer (bad u)) ∧
      (staged = decide (q.val = 0) → c.session ≠ 0 →
        (asked ≠ 0 → asked < 0x040 → exec (.keyInstall q) s = s.answer (u.refuseCmd q c Kd.keyType)) ∧
        (0x040 ≤ asked → (s.key asked).valid = true ∨ (s.key asked).staged = true → exec (.keyInstall q) s = s.answer (u.refuseCmd q c Kd.handleInUse)) ∧
        (asked = 0 → s.freeHandle = none → exec (.keyInstall q) s = s.answer (u.refuseCmd q c Kd.noHandle)) ∧
        (∀ h, (asked = 0 ∧ s.freeHandle = some h) ∨ (asked = h ∧ 0x040 ≤ h ∧ (s.key h).valid = false ∧ (s.key h).staged = false) →
          (installType (bits a 15 12) = none → exec (.keyInstall q) s = s.answer (u.refuseCmd q c Kd.keyType)) ∧
          (∀ t, installType (bits a 15 12) = some t → bits a 21 16 &&& t.allows ≠ bits a 21 16 ∨ (t = .link ∧ bits a 31 26 ≠ 0) →
            exec (.keyInstall q) s = s.answer (u.refuseCmd q c Kd.keyType)) ∧
          (∀ t l, installType (bits a 15 12) = some t → bits a 21 16 &&& t.allows = bits a 21 16 → ¬ (t = .link ∧ bits a 31 26 ≠ 0) →
            staged = true ∨ bit a 24 = false ∨ s.ctxBound n (s.ctx n).part = true → s.freeShare (bits (c.arg 2) 7 0) = some l →
            ∃ v : State, exec (.keyInstall q) s = s.answer (v.okCmd q c [BitVec.ofNat 64 h]) ∧
              (v.key h).type = t ∧ (v.key h).valid = true ∧ (v.key h).staged = staged ∧ (v.key h).share = l ∧
              (v.key h).engines = BitVec.ofNat 6 (bits a 21 16) ∧ (v.key h).owner = (if staged then 0 else if bit a 24 then 0xFFFF else n) ∧
              (t = .link → (v.key h).limitLog = 32 ∧ (bit a 23 = true → (v.key h).current = true)) ∧
              (∀ g, g ≠ h → { v.key g with current := false } = { s.key g with current := false }))))) ∧
    -- KEY_DESTROY
    (s.takes q 0x53 c →
      let h := bits a 11 0
      (c.session = 0 → exec (.keyDestroy q) s = s.answer (bad u)) ∧
      (c.session ≠ 0 → s.keyRefusal n h ≠ 0 → exec (.keyDestroy q) s = s.answer (u.refuseCmd q c Kd.keyOwner)) ∧
      (c.session ≠ 0 → s.keyRefusal n h = 0 → exec (.keyDestroy q) s = s.answer ((u.destroyKey h).okCmd q c))) ∧
    (∀ h, ((s.destroyKey h).key h).valid = false ∧ (∀ g, g ≠ h → (s.destroyKey h).key g = s.key g) ∧
      ∀ l x, (l, x) ∈ (s.destroyKey h).shares ↔ (l, x) ∈ s.shares ∧ x.handle ≠ h)

/-- Share lists, windows, attestation, the life cycle, the version floor and sealing (R388, R389, R399, R406, R407, R419, R425, R427, R463). Each life-cycle
operation acts only in the states from which Table 13-4 has its transition, and by a good token of its own; SVN_COMMIT only raises the floor. -/
def Obligations.ShareWindowAndLifeCycleCommands : Prop :=
  ∀ (s : State) (q : QueueId) (c : Cmd),
    let u := s.start q c
    let a := c.arg 0
    let n := (s.queue q).ctx
    let done (t : State) : State := t.okCmd q c
    let refused (d : Nat) : State := u.refuseCmd q c d
    -- SHARE_SET
    (∀ p ∈ [(Instr.shareSetReplace q, 0, fun (_ new : List Nat) => onceEach new), (.shareSetAdd q, 1, fun old new => onceEach (old ++ new)),
        (.shareSetRemove q, 2, fun old new => old.filter fun m => !new.contains m)],
      let ps := sharePrincipals c
      let l := (s.key (bits a 11 0)).share
      let now := p.2.2 (Tbl.get (⟨0, []⟩ : ShareList) s.shares l).members ps
      (s.next q (fun d => d.opc == 0x54 && decide (bits (d.arg 0) 13 12 = p.2.1)) = none → exec p.1 s = .next s) ∧
      (s.next q (fun d => d.opc == 0x54 && decide (bits (d.arg 0) 13 12 = p.2.1)) = some c →
        (c.session = 0 → exec p.1 s = s.answer (u.finish q c.place { status := St.badSeal })) ∧
        (c.session ≠ 0 → ps ≠ [] → ps.length ≤ 16 → (∀ x ∈ ps, x < 2 ^ 17) →
          (s.keyRefusal n (bits a 11 0) ≠ 0 → exec p.1 s = s.answer (refused Kd.keyOwner)) ∧
          (s.keyRefusal n (bits a 11 0) = 0 → 64 < now.length → exec p.1 s = s.answer (refused Kd.shareFull)) ∧
          (s.keyRefusal n (bits a 11 0) = 0 → now.length ≤ 64 →
            exec p.1 s = s.answer (done { u with shares := Tbl.set u.shares l ⟨bits a 11 0, now⟩ })))) ∧
      ∀ l, (onceEach l).Nodup ∧ ∀ x, x ∈ onceEach l ↔ x ∈ l) ∧
    -- WINDOW, on this module
    (∀ m, s.actsOn (s.ctx n).forme (s.ctx n).job (bits a 35 20) = .here m →
      let args := c.words.drop 5 ++ c.second
      let p := (s.ctx m).part
      let i := bits (argAt args 0) 5 0
      let why := s.windowRefusal m (bits (argAt args 0) 19 8) (bits (argAt args 1) 39 0) (bits (argAt args 2) 39 0)
      (s.next q (fun d => d.opc == 0x55 && decide (bits (d.arg 0) 7 6 = 0)) = some c →
        (Tbl.find (s.part p).windows i ≠ none → exec (.windowInstall (.queue q none)) s = s.answer (refused Dt.field)) ∧
        (Tbl.find (s.part p).windows i = none → why ≠ 0 → exec (.windowInstall (.queue q none)) s = s.answer (refused why)) ∧
        (Tbl.find (s.part p).windows i = none → why = 0 → exec (.windowInstall (.queue q none)) s = s.answer (done ((u.keepTables p).modPart p fun k => { k with
          windows := Tbl.set k.windows i ⟨bits (argAt args 1) 39 0, bits (argAt args 2) 39 0, bits (argAt args 0) 19 8, m⟩ })))) ∧
      (s.next q (fun d => d.opc == 0x55 && decide (bits (d.arg 0) 7 6 = 1)) = some c →
        (∀ w, Tbl.find (s.part p).windows i = some w → w.owner = m → exec (.windowRemove (.queue q none)) s =
          s.answer (done ((u.keepTables p).modPart p fun k => { k with windows := Tbl.del k.windows i }))) ∧
        ((∀ w, Tbl.find (s.part p).windows i = some w → w.owner ≠ m) → exec (.windowRemove (.queue q none)) s = s.answer (refused Kd.keyOwner)))) ∧
    (∀ m keyh base len, s.windowRefusal m keyh base len = 0 → (∀ w ∈ (s.part (s.ctx m).part).windows, base + len ≤ w.2.base ∨ w.2.base + w.2.length ≤ base) ∧
      base % 4096 = 0 ∧ len % 4096 = 0 ∧ 0 < len ∧ (s.key keyh).type = .mem ∧ (s.key keyh).valid = true) ∧
    -- ATTEST
    (∀ b, s.takes q 0x56 c → c.bulk = some b → 48 ≤ b.length → s.sec.canAttest = true →
      ∃ (v : State) (r : List Byte), exec (.attest q) s = s.answer (done (v.writeAnswer c r)) ∧ v.sec.colophons = s.sec.colophons + 1 ∧ r.length = 8096 ∧ v.keys = s.keys) ∧
    (∀ b, s.takes q 0x56 c → c.bulk = some b → 48 ≤ b.length → s.sec.canAttest = false → exec (.attest q) s = s.answer (refused Kd.attLeaves)) ∧
    -- LIFECYCLE
    (∀ b, c.bulk = some b →
      let r := (u.okCmd q c).secRecord 0x07 0
      (∀ sigs, s.next q (fun d => d.isLife 1) = some c →
        (u.tokenGood 1 sigs b = false ∨ r.sec.lc ≠ 0 → exec (.provision q sigs) s = s.answer (refused Kd.token)) ∧
        (u.tokenGood 1 sigs b = true → r.sec.lc = 0 → exec (.provision q sigs) s =
          s.answer (({ r with sec := { r.sec.toLife 1 with gen0Cert := true } } : State).certify 0 b))) ∧
      (∀ sigs, s.next q (fun d => d.isLife 2) = some c →
        (u.tokenGood 2 sigs b = false ∨ r.sec.lc ≠ 1 → exec (.claim q sigs) s = s.answer (refused Kd.token)) ∧
        (u.tokenGood 2 sigs b = true → r.sec.lc = 1 → exec (.claim q sigs) s = s.answer { r with sec := (({ r.sec.toLife 2 with
          ownerEc := Config.sha384 ((b.drop 24).take 96), ownerLms := Config.sha384 ((b.drop 120).take 56) } : Security).seal 4).seal 5 })) ∧
      (∀ sigs, s.next q (fun d => d.isLife 3) = some c →
        (u.tokenGood 3 sigs b = false ∨ r.sec.lc ≠ 2 ∨ r.ownersMatch b = false → exec (.returnDevice q sigs) s = s.answer (refused Kd.token)) ∧
        (u.tokenGood 3 sigs b = true → r.sec.lc = 2 → r.ownersMatch b = true → exec (.returnDevice q sigs) s = s.answer (r.moduleReset.setLife 3))) ∧
      (∀ sigs, s.next q (fun d => d.isLife 4) = some c →
        (u.tokenGood 4 sigs b = true → r.sec.lc = 2 → r.ownersMatch b = true → exec (.scrap q sigs) s = s.answer (r.moduleReset.setLife 4)) ∧
        (u.tokenGood 4 sigs b = true → r.sec.lc = 3 → exec (.scrap q sigs) s = s.answer (r.setLife 4)) ∧
        (u.tokenGood 4 sigs b = false ∨ (r.sec.lc ≠ 2 ∧ r.sec.lc ≠ 3) → exec (.scrap q sigs) s = s.answer (refused Kd.token))) ∧
      (∀ sigs, s.next q (fun d => d.isLife 5) = some c →
        (u.tokenGood 5 sigs b = false ∨ r.sec.lc ≠ 2 → exec (.reprovision q sigs) s = s.answer (refused Kd.token)) ∧
        (u.tokenGood 5 sigs b = true → r.sec.lc = 2 → exec (.reprovision q sigs) s =
          s.answer (({ r with sec := { r.sec with gen1 := true, gen1Cert := true } } : State).certify 1 b)))) ∧
    (∀ sigs b, u.tokenGood 1 sigs b = true → sigs = true ∧ atBytes b 8 14 = u.sec.serial) ∧
    -- SVN_COMMIT
    (s.takes q 0x58 c →
      (min s.sec.svnRun 256 ≤ s.sec.svn → exec (.svnCommit q) s = s.answer (refused Kd.svnNone)) ∧
      (s.sec.svn < min s.sec.svnRun 256 → exec (.svnCommit q) s =
        s.answer (({ u with sec := { u.sec with svn := min s.sec.svnRun 256 } } : State).okCmd q c [BitVec.ofNat 64 (min s.sec.svnRun 256)]))) ∧
    -- PACKET_SEAL
    (s.egress = [] → exec .packetSeal s = .next s) ∧
    (∀ m msg rest h, s.egress = (m, msg) :: rest → s.linkKey m msg.lane = some h →
      let v : State := { s with egress := rest }
      ((s.key h).uses < 2 ^ (s.key h).limitLog → exec .packetSeal s = s.answer (v.leaveSealed m h msg)) ∧
      (2 ^ (s.key h).limitLog ≤ (s.key h).uses → v.otherLinkKey m h = none → exec .packetSeal s = s.answer (v.endUnsealable m msg)) ∧
      (∀ g, 2 ^ (s.key h).limitLog ≤ (s.key h).uses → v.otherLinkKey m h = some g →
        exec .packetSeal s = s.answer ((v.moveCurrent h g).leaveSealed m g msg)))

/-! ### Queues, contexts and teardown -/

/-- Fetching and starting (R292 to R297, R413): the entries of a command leave the ring together and HEAD passes them modulo 2^16; the fetch renews the
lease; a command that may not run ends at once with its status, another waits for its fence and its turn. A queue without entries, in ERROR, not enabled or with 256
completions waiting fetches nothing, and a processor serves its queues in turn. NOP and HEARTBEAT complete; the fetch of a HEARTBEAT of the admin queue renews the contexts it names and counts the numbers that hold no
lease. That 256 completions hold the fetch is R494. -/
def Obligations.CommandsAreFetchedAndStartInTheirTurn : Prop :=
  ∀ (s : State) (q : QueueId),
    let k := s.queue q
    let avail := (k.tail + 65536 - k.head) % 65536
    -- COMMAND_FETCH: the turn of a processor goes to its next queue with entries (R293)
    (s.fetchQuiesced q = true ∨ s.nextQueue (s.serverOf q) ≠ some q.val → exec (.commandFetch q) s = .next s) ∧
    ((q.val = 0 ∧ s.adminOn = false) ∨ (q.val ≠ 0 ∧ (k.inUse = false ∨ k.closing = true)) ∨ k.error = true ∨ k.markHold = true ∨ k.tail = k.head ∨ 256 ≤ (s.cring k.cring).waiting.length →
      s.nextQueue (s.serverOf q) ≠ some q.val) ∧
    (∀ g i, s.nextQueue g = some i → s.serverOf i = g ∧ s.fetchable i = true) ∧
    (s.fetchable q = true → (∀ i, i ≠ q.val → s.serverOf i = s.serverOf q → s.fetchable i = false) → s.nextQueue (s.serverOf q) = some q.val) ∧
    let turned : State := { s with fetchTurn := Tbl.set s.fetchTurn (s.serverOf q) q.val }
    (∀ (e : List Word64) (v : State) (evs : List Ev), s.fetchQuiesced q = false → s.nextQueue (s.serverOf q) = some q.val → turned.ringEntry q k.head = some (e, v, evs) →
      let body := cmdEntries (bits (e.getD 0 0).toNat 7 0)
      let isSealed := bit (e.getD 0 0).toNat 9
      let need := body + b2n isSealed
      (avail < need → exec (.commandFetch q) s = .next turned) ∧
      (∀ (es : List (List Word64)) (w : State) (evs : List Ev), need ≤ avail → turned.ringEntries q k.head need = some (es, w, evs) →
        let first := es.getD 0 []
        let second := if body = 2 then es.getD 1 [] else []
        ∀ (h : Nat) (words two : List Word64) (opened : Bool) (y : State),
          (isSealed = false ∧ opened = false ∧ (h, words, two, y) = (0, first, second, w.settle evs)) ∨
          (isSealed = true ∧ opened = true ∧ (w.settle evs).openFrame q first second (es.getD body []) = some (h, words, two, y)) ∨
          (isSealed = true ∧ opened = false ∧ (w.settle evs).openFrame q first second (es.getD body []) = none ∧
            (h, words, two, y) = (0, first, second, w.settle evs)) →
          let c : Cmd := {
            place := k.nextPlace, words := words, second := two, session := h, state := .waiting, waitMet := !bit (e.getD 0 0).toNat 10,
            fetched := y.ltime, started := 0, bulk := none, bulkAsked := false, asked := false, notRepro := false, fallback := false, run := none, energy0 := [], energyFar := [],
            silent := false, conn := k.rungBy need }
          let a := y.modQueue q fun k' => { k'.pass need with nextPlace := k.nextPlace + 1, cmds := k'.cmds ++ [c] }
          let b := if q.val ≠ 0 ∧ a.holdsLease k.ctx = true then a.renew k.ctx else a
          (∀ st, b.fetchStatus q c opened = some st → exec (.commandFetch q) s = s.answer (b.finish q c.place { status := st })) ∧
          let l := if q.val = 0 ∧ c.opc = 0x07 then (b.logFetch q c).renewAll c.named else b.logFetch q c
          (b.fetchStatus q c opened = none → c.waitMet = true → exec (.commandFetch q) s = s.answer l) ∧
          (b.fetchStatus q c opened = none → c.waitMet = false → exec (.commandFetch q) s = s.answer (l.registerWait q c)))) ∧
    -- what may not run
    (∀ (b : State) (c : Cmd) (o : Bool), b.fetchStatus q c o = none →
      knownOpc c.opc = true ∧ (bit (c.word 0) 9 = true → o = true) ∧
        (q.val = 0 → contextOnly c.opc = false) ∧ (q.val ≠ 0 → adminOnly c.opc = false ∧
          (b.ctx (b.queue q).ctx).state ≠ .tearing ∧ ((b.ctx (b.queue q).ctx).state = .lost → c.opc = 0x02))) ∧
    -- which command starts
    (∀ (p : Cmd → Bool) (c : Cmd), s.next q p = some c → p c = true ∧ c.state = .waiting ∧ c.waitMet = true ∧ c ∈ k.cmds ∧
      ∃ l d r, k.cmds = l ++ d :: r ∧ d.place = c.place ∧ (bit (c.word 0) 8 = false → l = []) ∧
        ∀ x, l.getLast? = some x → x.state ≠ .waiting) ∧
    -- WAITV_SATISFIED
    ((k.cmds.find? fun c => c.state == .waiting && !c.waitMet) = none → exec (.waitvSatisfied q) s = .next s) ∧
    (∀ c, (k.cmds.find? fun c => c.state == .waiting && !c.waitMet) = some c → bits (c.word 1 % 2 ^ 48) 47 32 = s.fabAddr →
      let r := s.fenceRead (bits (c.word 1 % 2 ^ 48) 31 0) (.ctx k.ctx)
      let v := r.2.2.dropWaits fun w => w == .command q c.place
      (r.1 = Sync.ok → r.2.1 < c.word 2 → exec (.waitvSatisfied q) s = s.answer r.2.2) ∧
      (r.1 = Sync.ok → c.word 2 ≤ r.2.1 → exec (.waitvSatisfied q) s = s.answer (v.modCmd q c.place fun d => { d with waitMet := true })) ∧
      (r.1 = Sync.fenceError → exec (.waitvSatisfied q) s = s.answer (v.finish q c.place { status := St.fenceError })) ∧
      (r.1 = Sync.noSuch → exec (.waitvSatisfied q) s = s.answer (v.finish q c.place { status := St.refused, detail := Sync.noSuch }))) ∧
    -- NOP, HEARTBEAT
    (s.takesNone q 0x00 → exec (.cmdNop q) s = .next s) ∧ (s.takesNone q 0x07 → exec (.heartbeat q) s = .next s) ∧
    (∀ c, s.takes q 0x00 c → exec (.cmdNop q) s = s.answer ((s.start q c).okCmd q c)) ∧
    (∀ c, s.takes q 0x07 c → exec (.heartbeat q) s = s.answer ((s.start q c).okCmd q c)) ∧
    -- what a HEARTBEAT of the admin queue renews at its fetch
    (∀ names : List Nat, let v := s.renewAll names
      (∀ n, v.ctx n = if n ∈ names ∧ s.holdsLease n = true then { s.ctx n with leaseStart := s.ltime } else s.ctx n) ∧
      v.hbIgnored = s.hbIgnored + (names.filter fun n => !s.holdsLease n).length)

/-- Contexts and queues come and go (R285, R287, R289, R291, R296, R315, R316, R318, R319): a new context is LIVE under a number that was FREE, its heaps empty and its
save areas allocated; a new queue takes the lowest free number and the next generation. A teardown stops what the context runs, ends its commands, and with
its last step leaves the number FREE, with no region, window or queue of the context left but the one that goes with its teardown completion. That the commands which a destroyed queue had fetched
run on is log entry 61. -/
def Obligations.ContextsAndQueuesComeAndGo : Prop :=
  ∀ (s : State) (q : QueueId) (c : Cmd) (far : List (Nat × Bool)),
    let u := s.start q c
    let refused (d : Nat) : State := u.refuseCmd q c d
    (∀ p ∈ [(Instr.createCtx ⟨q, far⟩, 0x01), (.destroyCtx q, 0x02), (.createQueue q, 0x03), (.destroyQueue q, 0x04)], s.takesNone q p.2 → exec p.1 s = .next s) ∧
    -- CREATE_CTX
    (s.takes q 0x01 c →
      let r := ctxParams c
      let home : Option Nat := (s.forme r.forme).bind fun f => (Tbl.find f.members r.member).bind fun m => if m.fab = s.fabAddr then some m.part else none
      let p := home.getD 0
      let n := s.freeCtxFrom 65536 s.lastCtx
      (r.session ≠ 0 → c.session ≠ r.session → exec (.createCtx ⟨q, far⟩) s = s.answer (u.finish q c.place { status := St.badSeal })) ∧
      (r.session = 0 ∨ c.session = r.session →
        (∀ d, s.createWhy r home far = some d → exec (.createCtx ⟨q, far⟩) s = s.answer (refused d)) ∧
        (s.createWhy r home far = none → u.grantSaves n p (if r.dedicated then [] else (s.part p).lay.clusters) = none →
          exec (.createCtx ⟨q, far⟩) s = s.answer (refused Dt.saveSpace)) ∧
        (∀ w, s.createWhy r home far = none → u.grantSaves n p (if r.dedicated then [] else (s.part p).lay.clusters) = some w →
          ∃ v : State, exec (.createCtx ⟨q, far⟩) s = s.answer (v.okCmd q c [BitVec.ofNat 64 n]) ∧ v.parts = w.parts ∧ v.lastCtx = n ∧
            (∀ m, m ≠ n → v.ctx m = s.ctx m) ∧ v.ctx n = { Context.reset with
              state := .live, forme := r.forme, member := r.member, part := p, conn := r.conn, job := r.job, asn := r.asn, seed := r.seed,
              leaseMs := r.lease, leaseStart := s.ltime, session := r.session, dedicated := r.dedicated, share := r.share, quotas := r.quotas,
              keySerial := s.keySerial + 1 } ∧
            (∀ f, v.forme r.forme = some f → r.job ∈ f.rotation) ∧ (v.job r.forme r.job).isSome = true))) ∧
    ((∃ m, m ≠ 0 ∧ m < 65536 ∧ (s.ctx m).state = .free) → s.lastCtx < 65536 →
      let n := s.freeCtxFrom 65536 s.lastCtx
      n ≠ 0 ∧ n < 65536 ∧ (s.ctx n).state = .free) ∧
    -- CREATE_QUEUE
    (s.takes q 0x03 c →
      let n := bits (c.arg 0) 15 0
      let log := bits (c.arg 0) 19 16
      let base := bits (c.arg 1) 39 0
      let cr := bits (c.arg 2) 15 0
      let lies := base % 4096 = 0 ∧ s.ringLies n base (64 * 2 ^ log) = true ∧ (s.cring cr).defined = true ∧ (s.cring cr).conn = (s.ctx n).conn
      let held := u.queuesOf n
      let most := min (u.queueLimit n) (u.queuesFree n)
      let free := (rangeFrom 1 8191).find? fun i => !(u.queue i).inUse
      (∀ st, s.ctxStatus n = some st → exec (.createQueue q) s = s.answer (u.finish q c.place { status := st })) ∧
      (s.ctxStatus n = none → log < 6 → exec (.createQueue q) s = s.answer (refused Dt.field)) ∧
      (s.ctxStatus n = none → 6 ≤ log → ¬ lies → exec (.createQueue q) s = s.answer (refused Dt.ring)) ∧
      (s.ctxStatus n = none → 6 ≤ log → lies → most ≤ held ∨ free = none → exec (.createQueue q) s = s.answer (refused Dt.queueLimit)) ∧
      (∀ i, s.ctxStatus n = none → 6 ≤ log → lies → held < most → free = some i →
        let gen := ((u.queue i).gen + 1) % 65536
        exec (.createQueue q) s = s.answer (({ u with queues := Tbl.set u.queues i { Queue.reset with
          inUse := true, ctx := n, ringLog := log, ringBase := base, cring := cr, gen := gen } } : State).okCmd q c [BitVec.ofNat 64 (i + gen * 65536)]))) ∧
    -- DESTROY_QUEUE
    (s.takes q 0x04 c →
      let i := bits (c.arg 0) 12 0
      (i = 0 ∨ (u.queue i).inUse = false ∨ (u.queue i).closing = true → exec (.destroyQueue q) s = s.answer (refused Dt.field)) ∧
      (i ≠ 0 → (u.queue i).inUse = true → (u.queue i).closing = false →
        ((u.queue i).cmds = [] → exec (.destroyQueue q) s = s.answer ((u.freeQueue i).okCmd q c)) ∧
        ((u.queue i).cmds ≠ [] → exec (.destroyQueue q) s = s.answer ((u.modQueue i fun k => { k with closing := true }).okCmd q c)))) ∧
    -- a destroyed queue goes with the last command that it had fetched
    (∀ (k : Queue) (place : Nat), k.closing = true → (∀ d ∈ k.cmds, d.place = place) → k.leave place = { Queue.reset with gen := k.gen }) ∧
    (∀ (k : Queue) (place : Nat), k.closing = false ∨ (∃ d ∈ k.cmds, d.place ≠ place) →
      k.leave place = { k with cmds := k.cmds.filter fun d => d.place ≠ place }) ∧
    (∀ i, ((s.freeQueue i).queue i).inUse = false ∧ ((s.freeQueue i).queue i).cmds = [] ∧ ((s.freeQueue i).queue i).gen = (s.queue i).gen ∧
      ∀ j, j ≠ i → (s.freeQueue i).queue j = s.queue j) ∧
    -- DESTROY_CTX
    (s.takes q 0x02 c →
      let a := bits (c.arg 0) 15 0
      let own := (s.queue q).ctx
      let n := if q.val ≠ 0 ∧ a = 0 then own else a
      (q.val ≠ 0 → n ≠ own → exec (.destroyCtx q) s = s.answer (refused Dt.field)) ∧
      (q.val = 0 ∨ n = own → n = 0 ∨ (s.ctx n).state = .free → exec (.destroyCtx q) s = s.answer (u.finish q c.place { status := St.noCtx })) ∧
      (q.val = 0 ∨ n = own → n ≠ 0 → (s.ctx n).state = .tearing → exec (.destroyCtx q) s = s.answer (u.finish q c.place { status := St.teardown })) ∧
      (q.val = 0 ∨ n = own → n ≠ 0 → (s.ctx n).state = .live ∨ (s.ctx n).state = .lost →
        exec (.destroyCtx q) s = s.answer (u.beginTeardown n (.command q c.place)))) ∧
    -- a teardown begins
    (∀ n why, (s.ctx n).state = .live ∨ (s.ctx n).state = .lost →
      let keep : Option (Nat × Nat) := match why with
        | .command q place => some (q, place)
        | _ => none
      let a := (s.coresOf n).foldl (fun s c => s.stopCore c) s
      let b := (a.coresOf n).foldl (fun s c => s.modCore c fun k => { k with savedArms := [] }) a
      let v := (b.modCtx n fun x => { x with state := .tearing, teardown := some why, tearAt := s.ltime, drainForced := false }).stopStreams n
      let e := v.endCmds { status := St.teardown } ((s.cmdsOf n).filter fun e => some e ≠ keep)
      s.beginTeardown n why = ((e.1.settle e.2).loseOthers n).reschedule (s.ctx n).forme []) ∧
    -- a lost context releases its imports (R236)
    (∀ n f, n ≠ 0 → (s.ctx n).state = .live → f < 2 ^ 32 → s.fabAddr < 2 ^ 16 → (s.ctx n).imports = [f + s.fabAddr * 2 ^ 32] → (s.fence f).state = .live →
      ((s.loseCtx n).1.fence f).imports = (s.fence f).imports - 1 ∧ ((s.loseCtx n).1.fence f).state = .live) ∧
    -- LEASE_EXPIRY, LOSS_REPORT
    (∀ n : BitVec 16, (s.holdsLease n.toNat = false ∨ s.ctxAway n.toNat = true → exec (.leaseExpiry n) s = .next s) ∧
      (s.holdsLease n.toNat = true → s.ctxAway n.toNat = false → exec (.leaseExpiry n) s =
        s.answer ((s.advanceTo ((s.ctx n.toNat).leaseStart + (s.ctx n.toNat).leaseMs * 1000000)).beginTeardown n.toNat .lease))) ∧
    (∀ (forme job : BitVec 32) (member : BitVec 16),
      let own := ((s.jobCtxs forme.toNat job.toNat).filter fun e => e.2.member ≠ member.toNat && e.2.state == .live).map fun e => e.1
      let v := own.foldl (fun s n => s.settle [.lose n]) s
      ((∀ f, v.forme forme.toNat = some f → v.isMaster f = false) → exec (.lossReport forme job member) s = s.answer v) ∧
      (∀ f, v.forme forme.toNat = some f → v.isMaster f = true → exec (.lossReport forme job member) s =
        s.answer ((f.modules.filter fun m => m ≠ v.fabAddr).foldl (fun s _ => s.send (.loss forme.toNat job.toNat member.toNat)) v))) ∧
    -- TEARDOWN_DRAIN_COMPLETE, TEARDOWN_DRAIN_TIMEOUT
    (∀ n : BitVec 16,
      ((s.ctx n.toNat).state ≠ .tearing → exec (.teardownDrainComplete n) s = .next s ∧ exec (.teardownDrainTimeout n) s = .next s) ∧
      ((s.ctx n.toNat).state = .tearing → s.outstandingOf n.toNat = true → exec (.teardownDrainComplete n) s = .next s) ∧
      ((s.ctx n.toNat).state = .tearing → s.outstandingOf n.toNat = false →
        exec (.teardownDrainTimeout n) s = .next s ∧ exec (.teardownDrainComplete n) s = s.answer (s.finishTeardown n.toNat)) ∧
      ((s.ctx n.toNat).state = .tearing → s.outstandingOf n.toNat = true →
        ∃ v : State, exec (.teardownDrainTimeout n) s = s.answer ((v.modCtx n.toNat fun x => { x with drainForced := true }).finishTeardown n.toNat) ∧
          v.outstandingOf n.toNat = false ∧ v.ctxs = s.ctxs ∧ v.parts = s.parts ∧ v.queues = s.queues)) ∧
    -- what a finished teardown leaves
    (∀ n, ((s.freeCtx n).ctx n).state = .free) ∧
    (∀ n i, i ≠ 0 → ((s.freeCtxParts n).queue i).inUse = true → ((s.freeCtxParts n).queue i).ctx = n →
      ((s.freeCtxParts n).queue i).closing = true ∧ (s.ctx n).lastCmd i = true) ∧
    (∀ n, (∀ g ∈ ((s.freeCtxParts n).part (s.ctx n).part).regions, g.owner ≠ n) ∧
      ∀ w ∈ ((s.freeCtxParts n).part (s.ctx n).part).windows, w.2.owner ≠ n)

/-! ### Commands of contexts: memory, regions, fences, barriers, schedule -/

/-- Commands that may act on another member (R79 to R81, R198, R199, R298, R407): ALLOC, FREE, REGION and WINDOW. Regions that a command installs lie in one
segment, meet no other range and are read-only where they may be cached or shared; only their owner changes or removes them, and at most 256 stand in a
partition. A request that waits keeps the tables in force when it came (keepTables, R198). The forms of an order and of an answer from elsewhere are log entry 58. -/
def Obligations.CommandsThatActOnAnotherMember : Prop :=
  ∀ s : State,
    OnMember s .cmdAlloc 0x12 (fun _ => true) (fun c => bits (c.arg 1) 31 16)
      (fun s n a => s.allocate n (bits (argAt a 1) 37 32) (bits (argAt a 0) 39 0) (bits (argAt a 1) 13 0)) (fun v => [BitVec.ofNat 64 v]) ∧
    OnMember s .cmdFree 0x13 (fun _ => true) (fun c => bits (c.arg 1) 31 16)
      (fun s n a => ((s.release n (bits (argAt a 0) 39 0)).1, 0,
        (s.release n (bits (argAt a 0) 39 0)).2.1.settle (s.release n (bits (argAt a 0) 39 0)).2.2)) (fun _ => []) ∧
    -- REGION
    (∃ install change remove : State → Nat → List Word64 → Did,
      OnMember s .regionInstall 0x14 (fun c => decide (bits (c.arg 0) 1 0 = 0)) (fun c => bits (c.arg 0) 31 16) install (fun _ => []) ∧
      OnMember s .regionChange 0x14 (fun c => decide (bits (c.arg 0) 1 0 = 1)) (fun c => bits (c.arg 0) 31 16) change (fun _ => []) ∧
      OnMember s .regionRemove 0x14 (fun c => decide (bits (c.arg 0) 1 0 = 2)) (fun c => bits (c.arg 0) 31 16) remove (fun _ => []) ∧
      ∀ (s : State) (n : Nat) (a : List Word64),
        let p := (s.ctx n).part
        let q := s.part p
        let r := regionOf a n
        let found := q.regions.find? fun g => decide (g.base = bits (argAt a 3) 39 0)
        let with_ (rs : List Region) : State := (s.keepTables p).modPart p fun q => { q with regions := rs }
        (q.regionFits r (regionClear a) q.regions = false → install s n a = (Dt.regionCheck, 0, s)) ∧
        (q.regionFits r (regionClear a) q.regions = true → 256 ≤ q.regions.length → install s n a = (Dt.regionFull, 0, s)) ∧
        (q.regionFits r (regionClear a) q.regions = true → q.regions.length < 256 → install s n a = (0, 0, with_ (q.regions ++ [r]))) ∧
        (found = none → change s n a = (Dt.regionCheck, 0, s) ∧ remove s n a = (Dt.regionCheck, 0, s)) ∧
        (∀ g, found = some g → g.owner ≠ n → change s n a = (Dt.notOwner, 0, s) ∧ remove s n a = (Dt.notOwner, 0, s)) ∧
        (∀ g, found = some g → g.owner = n →
          let new : Region := { r with refill := g.refill, suspect := g.suspect, degraded := g.degraded }
          let fits := q.regionFits new (regionClear a) (q.regions.filter fun x => x ≠ g)
          remove s n a = (0, 0, (with_ (q.regions.filter fun x => x ≠ g)).uncache p g.base g.length) ∧
          (fits = false → change s n a = (Dt.regionCheck, 0, s)) ∧
          (fits = true → change s n a = (0, 0, (with_ (q.regions.map fun x => if x = g then new else x)).uncache p g.base g.length)))) ∧
    (∀ (q : Partition) (r : Region) (clear : Bool) (others : List Region), q.regionFits r clear others = true →
      clear = true ∧ r.base % 4096 = 0 ∧ r.length % 4096 = 0 ∧ r.length ≠ 0 ∧ (r.cache = true ∨ r.shared = true → r.ro = true) ∧
      (∃ g, q.lay.segment r.base = some g ∧ r.base + r.length ≤ segStart g + q.lay.segPages g * 4096) ∧
      (∀ o ∈ others, ∀ x ∈ o.ranges, ∀ y ∈ r.ranges, y.1 + y.2 ≤ x.1 ∨ x.1 + x.2 ≤ y.1) ∧
      (r.mirror = false → r.mbase = 0) ∧
      (r.mirror = true → r.mbase % 4096 = 0 ∧ q.lay.segment r.mbase = q.lay.segment r.base ∧ (r.base + r.length ≤ r.mbase ∨ r.mbase + r.length ≤ r.base) ∧
        ∀ i, i < r.length / 4096 → ∃ x y, q.lay.place (r.base + i * 4096) = some x ∧ q.lay.place (r.mbase + i * 4096) = some y ∧ x.1 / 32 ≠ y.1 / 32)) ∧
    -- WINDOW
    ∃ install remove : State → Nat → List Word64 → Did,
      OnMember s .windowInstall 0x55 (fun c => decide (bits (c.arg 0) 7 6 = 0)) (fun c => bits (c.arg 0) 35 20) install (fun _ => []) ∧
      OnMember s .windowRemove 0x55 (fun c => decide (bits (c.arg 0) 7 6 = 1)) (fun c => bits (c.arg 0) 35 20) remove (fun _ => []) ∧
      ∀ (s : State) (n : Nat) (a : List Word64),
        let p := (s.ctx n).part
        let i := bits (argAt a 0) 5 0
        let keyh := bits (argAt a 0) 19 8
        let base := bits (argAt a 1) 39 0
        let len := bits (argAt a 2) 39 0
        (Tbl.find (s.part p).windows i = none → s.windowRefusal n keyh base len = 0 →
          install s n a = (0, 0, (s.keepTables p).modPart p fun q => { q with windows := Tbl.set q.windows i ⟨base, len, keyh, n⟩ })) ∧
        (Tbl.find (s.part p).windows i = none → s.windowRefusal n keyh base len ≠ 0 → install s n a = (s.windowRefusal n keyh base len, 0, s)) ∧
        (∀ w, Tbl.find (s.part p).windows i = some w → install s n a = (Dt.field, 0, s) ∧
          (w.owner = n → remove s n a = (0, 0, (s.keepTables p).modPart p fun q => { q with windows := Tbl.del q.windows i })) ∧
          (w.owner ≠ n → remove s n a = (Kd.keyOwner, 0, s)))

/-- Fence, barrier, schedule and composition commands (R232, R233, R235, R236, R241, R243, R257 to R259, R298, R299, R309). FENCE_CREATE makes a free entry LIVE with
the command's value, home and key; FENCE_RETIRE frees it, ends its waits with NO_SUCH and faults its arms; an import counts on the fence; a signal or an add acts as a core's does; BAR_CONFIG gives an
instance a new configuration. The import of a fence elsewhere is log entry 62, fence quotas and statuses log entry 57. -/
def Obligations.FenceBarrierAndScheduleCommands : Prop :=
  ∀ (s : State) (q : QueueId) (c : Cmd),
    let u := s.start q c
    let n := (s.queue q).ctx
    let refused (d : Nat) : State := u.refuseCmd q c d
    (∀ p ∈ [(Instr.fenceCreate q, 0x18), (.fenceRetire q, 0x19), (.fenceImport (.queue q none), 0x1A), (.fenceRelease q, 0x1B), (.barConfig q, 0x1D), (.barRemove q, 0x1E),
      (.setSched q, 0x06), (.compose q, 0x05)], s.takesNone q p.2 → exec p.1 s = .next s) ∧
    -- FENCE_CREATE
    (s.takes q 0x18 c →
      let num := bits (c.arg 0) 31 0
      let home := bits (c.arg 0) 37 32
      let keyh := bits (c.arg 0) 49 38
      let good := s.handleUsable keyh = true ∧ home ∈ (s.part (s.ctx n).part).lay.clusters
      let made : Fence := ⟨c.arg 1, .live, home, keyh, n, 0, 0, c.arg 1⟩
      ((s.ctx n).member ≠ 0 → exec (.fenceCreate q) s = s.answer (refused Dt.notMaster)) ∧
      ((s.ctx n).member = 0 → ¬ good → exec (.fenceCreate q) s = s.answer (refused Dt.field)) ∧
      ((s.ctx n).member = 0 → good →
        (fenceCount ≤ num → exec (.fenceCreate q) s = s.answer (refused Sync.noSuch)) ∧
        (num < fenceCount → (s.fence num).state ≠ .free → exec (.fenceCreate q) s = s.answer (refused Dt.inUse)) ∧
        (num < fenceCount → (s.fence num).state = .free → (s.ctx n).fenceQuota ≤ (s.ownedFences n).length →
          exec (.fenceCreate q) s = s.answer (refused Sync.quota)) ∧
        (num < fenceCount → (s.fence num).state = .free → (s.ownedFences n).length < (s.ctx n).fenceQuota →
          exec (.fenceCreate q) s = s.answer (({ u with fences := Tbl.set u.fences num made } : State).okCmd q c)))) ∧
    -- FENCE_RETIRE
    (s.takes q 0x19 c →
      let num := bits (c.arg 0) 31 0
      let f := s.fence num
      let ws := (u.waits.filter fun w => w.fence == num).map fun w => w.who
      let t := ({ u with waits := u.waits.filter fun w => w.fence != num } : State).tellAll num Sync.noSuch ws
      ((s.ctx n).member ≠ 0 → exec (.fenceRetire q) s = s.answer (refused Dt.notMaster)) ∧
      ((s.ctx n).member = 0 → fenceCount ≤ num ∨ f.state = .free → exec (.fenceRetire q) s = s.answer (refused Sync.noSuch)) ∧
      ((s.ctx n).member = 0 → num < fenceCount → f.state ≠ .free → f.owner ≠ n →
        exec (.fenceRetire q) s = s.answer ((u.synCount f.home .deny).refuseCmd q c Sync.noSuch)) ∧
      ((s.ctx n).member = 0 → num < fenceCount → f.state ≠ .free → f.owner = n → f.imports ≠ 0 → exec (.fenceRetire q) s = s.answer (refused Dt.importsLeft)) ∧
      ((s.ctx n).member = 0 → num < fenceCount → f.state ≠ .free → f.owner = n → f.imports = 0 →
        exec (.fenceRetire q) s = s.answer (((t.1.settle t.2).freeFence num).okCmd q c))) ∧
    (∀ num, ((s.freeFence num).fence num).state = .free ∧ ∀ m, m ≠ num → (s.freeFence num).fence m = s.fence m) ∧
    -- FENCE_IMPORT, FENCE_RELEASE
    (s.takes q 0x1A c →
      let name := c.arg 0 % 2 ^ 48
      let num := bits name 31 0
      let ends (t : State) (d : Nat) : State :=
        if d = 0 then (t.modCtx n fun x => { x with imports := x.imports ++ [name] }).okCmd q c else t.refuseCmd q c d
      let sent := (u.send (.memberOrder ⟨(s.ctx n).forme, (s.ctx n).job, (s.ctx n).member, 0x1A, [BitVec.ofNat 64 name], [], 0⟩)).ordered q c
      (bits name 47 32 ≠ s.fabAddr → exec (.fenceImport (.queue q none)) s = s.answer sent ∧
        (∀ r, s.awaiting q (fun c => c.opc == 0x1A) = none → exec (.fenceImport (.queue q (some r))) s = s.answer (ends sent (bits r.toNat 15 0)))) ∧
      (bits name 47 32 = s.fabAddr → exec (.fenceImport (.queue q none)) s =
        s.answer (ends (u.takeImport num (.ctx n)).2 (u.takeImport num (.ctx n)).1))) ∧
    (∀ (r : BitVec 64) d, s.awaiting q (fun c => c.opc == 0x1A) = some d →
      (bits r.toNat 15 0 = 0 → exec (.fenceImport (.queue q (some r))) s =
        s.answer ((s.modCtx n fun x => { x with imports := x.imports ++ [d.arg 0 % 2 ^ 48] }).okCmd q d)) ∧
      (bits r.toNat 15 0 ≠ 0 → exec (.fenceImport (.queue q (some r))) s = s.answer (s.refuseCmd q d (bits r.toNat 15 0)))) ∧
    (∀ o : MemberOrder, o.opc = 0x1A →
      let num := bits (argAt o.args 0) 31 0
      let t := s.takeImport num (s.importer o (s.fence num).owner)
      exec (.fenceImport (.order o)) s = s.answer (t.2.send (.orderDone o.forme o.job o.member 0x1A t.1 0))) ∧
    (∀ (num : Nat) (who : Principal),
      let r := s.admitOp num who
      (r.2 = false → s.takeImport num who = (Sync.noSuch, r.1)) ∧
      (r.2 = true → (r.1.fence num).state = .error → s.takeImport num who = (Sync.fenceError, r.1)) ∧
      (r.2 = true → (r.1.fence num).state ≠ .error → 4095 ≤ (r.1.fence num).imports → s.takeImport num who = (Sync.quota, r.1)) ∧
      (r.2 = true → (r.1.fence num).state ≠ .error → (r.1.fence num).imports < 4095 →
        s.takeImport num who = (0, r.1.modFence num fun f => { f with imports := f.imports + 1 }))) ∧
    (s.takes q 0x1B c →
      let name := c.arg 0 % 2 ^ 48
      (name ∉ (s.ctx n).imports → exec (.fenceRelease q) s = s.answer (refused Sync.noSuch)) ∧
      (name ∈ (s.ctx n).imports → exec (.fenceRelease q) s =
        s.answer (((u.modCtx n fun x => { x with imports := x.imports.erase name }).releaseName n name).okCmd q c))) ∧
    (∀ num, (s.fence num).state = .live → ((s.releaseImport num).fence num).imports = (s.fence num).imports - 1) ∧
    (∀ num, (s.fence num).state = .error → (s.fence num).imports = 1 → ((s.releaseImport num).fence num).state = .free) ∧
    -- FENCE_SIGNAL, FENCE_SIGNAL_ADD
    (∀ add : Bool,
      let row := if add then Instr.fenceSignalAdd q else .fenceSignal q
      let name := c.arg 0 % 2 ^ 48
      let num := bits name 31 0
      ((s.next q fun c => c.opc == 0x1C && bit (c.arg 2) 0 == add) = none → exec row s = .next s) ∧
      ((s.next q fun c => c.opc == 0x1C && bit (c.arg 2) 0 == add) = some c →
        let r := if add then u.fenceAdd num (c.arg 1) (.ctx n) true else u.fenceSignal num (c.arg 1) (.ctx n) true
        let v := r.2.1.settle r.2.2
        (bits name 47 32 ≠ s.fabAddr → exec row s = s.answer ((u.send (.ctrl (if add then 0x02 else 0x01) ⟨0, false, BitVec.ofNat 16 s.fabAddr,
          BitVec.ofNat 16 (bits name 47 32), 0, BitVec.ofNat 32 num, 0, BitVec.ofNat 16 n, BitVec.ofNat 64 (c.arg 1), 0⟩)).okCmd q c [0])) ∧
        (bits name 47 32 = s.fabAddr → r.1 = Sync.ok ∨ r.1 = Sync.discarded → exec row s = s.answer (v.okCmd q c [BitVec.ofNat 64 r.1])) ∧
        (bits name 47 32 = s.fabAddr → r.1 ≠ Sync.ok → r.1 ≠ Sync.discarded → exec row s = s.answer (v.refuseCmd q c r.1)))) ∧
    -- BAR_CONFIG, BAR_REMOVE
    (s.takes q 0x1D c →
      let i := bits (c.arg 0) 7 0
      let h := bits (c.arg 0) 13 8
      let expect := bits (c.arg 0) 26 14
      let keyh := bits (c.arg 0) 38 27
      let b := s.bar h i
      let good := h ∈ (s.part (s.ctx n).part).lay.clusters ∧ 0 < expect ∧ expect ≤ 4096 ∧ s.handleUsable keyh = true
      (¬ good → exec (.barConfig q) s = s.answer (refused Dt.field)) ∧
      (good → b.conf = true → b.owner ≠ n → exec (.barConfig q) s = s.answer (refused Sync.noSuch)) ∧
      (good → b.conf = true → b.owner = n → b.arrived ≠ 0 ∨ b.children ≠ [] → exec (.barConfig q) s = s.answer (refused Dt.inUse)) ∧
      let mine := (u.cluster h).hub.bars.filter fun b => b.2.conf && b.2.owner == n
      (good → b.conf = false → u.barsFree (s.ctx n).part h n ≤ mine.length → exec (.barConfig q) s = s.answer (refused Sync.quota)) ∧
      (good → (b.conf = false ∧ mine.length < u.barsFree (s.ctx n).part h n) ∨ (b.conf = true ∧ b.owner = n ∧ b.arrived = 0 ∧ b.children = []) →
        ∃ v : State, exec (.barConfig q) s = s.answer (v.okCmd q c) ∧ v.bar h i = { Barrier.reset with
            conf := true, expect := expect, keyh := keyh, owner := n, phase := b.phase,
            parent := if bit (c.arg 1) 30 then some (bits (c.arg 1) 29 0) else none } ∧
          ∀ g j, ¬ (g = h ∧ j = i) → v.bar g j = s.bar g j)) ∧
    (s.takes q 0x1E c →
      let i := bits (c.arg 0) 7 0
      let h := bits (c.arg 0) 13 8
      let r := u.barUnconfigure h i
      ((s.bar h i).conf = false ∨ (s.bar h i).owner ≠ n → exec (.barRemove q) s = s.answer (refused Sync.noSuch)) ∧
      ((s.bar h i).conf = true → (s.bar h i).owner = n → exec (.barRemove q) s = s.answer ((r.1.settle r.2).okCmd q c))) ∧
    -- SET_SCHED
    (s.takes q 0x06 c →
      let id := bits (c.arg 0) 31 0
      let ms := bits (c.arg 1) 15 0
      (s.forme id = none → exec (.setSched q) s = s.answer (refused Dt.badMember)) ∧
      (∀ f, s.forme id = some f → s.isMaster f = false → exec (.setSched q) s = s.answer (refused Dt.notMaster)) ∧
      (∀ f, s.forme id = some f → s.isMaster f = true → 1000 < ms → exec (.setSched q) s = s.answer (refused Dt.field)) ∧
      (∀ f, s.forme id = some f → s.isMaster f = true → ms ≤ 1000 → exec (.setSched q) s =
        s.answer ((u.modForme id fun f => { f with newQuantum := some (if ms = 0 then 10 else ms) }).okCmd q c))) ∧
    -- COMPOSE
    (s.takes q 0x05 c → c.bulk = none → c.bulkAsked = false → exec (.compose q) s = s.answer (s.askBulk q c)) ∧
    (∀ b, s.takes q 0x05 c → c.bulk = some b →
      let h := planHeader b
      let fits := decide (64 + 128 * h.nent ≤ b.length)
      let es := if fits then planEntries b h.nent else []
      let why := s.planReason h es fits
      (why.1 ≠ 0 → exec (.compose q) s = s.answer (u.refusePlan q c h why.1 why.2)) ∧
      (why.1 = 0 → h.kind = 0 → exec (.compose q) s =
        s.answer (({ u with formes := u.formes ++ [Forme.blank h.formeId] } : State).startChange h.formeId h es false (some c.place))) ∧
      (why.1 = 0 → h.kind ≠ 0 → exec (.compose q) s = s.answer (u.startChange h.formeId h es false (some c.place))))

/-! ### Images, runs and time slicing -/

/-- Loading and running programs and switching between jobs (R60, R77, R252, R300, R306, R307, R309 to R311, R313, R314): an image that fails a check of the proof load
changes nothing and names the first failure; a RUN starts every virtual core of its range at the entry bundle with X1 to X3 set, and ends when none is left; the
scheduler gives the forme to the next ready job, and a core that is switched out and in again goes on with the state it had. What other modules answer is
log entry 64. -/
def Obligations.ImagesRunsAndTheGangSwitch : Prop :=
  ∀ (s : State) (q : QueueId) (c : Cmd),
    let u := s.start q c
    let n := (s.queue q).ctx
    let x := s.ctx n
    let fail (g : LoadFail) : State := u.finish q c.place
      { status := St.refused, detail := g.code, result := [BitVec.ofNat 64 g.member, BitVec.ofNat 64 g.need, BitVec.ofNat 64 g.have_] }
    -- LOAD_IMAGE
    (∀ reply far, s.takesNone q 0x10 → reply = none ∨ s.awaiting q (fun c => c.opc == 0x10) = none → exec (.loadImage (.queue q reply) far) s = .next s) ∧
    (∀ reply far, s.takes q 0x10 c → reply = none ∨ s.awaiting q (fun c => c.opc == 0x10) = none → c.bulk = none → c.bulkAsked = false → exec (.loadImage (.queue q reply) far) s = s.answer (s.askBulk q c)) ∧
    (∀ (r : BitVec 64) far d, s.awaiting q (fun c => c.opc == 0x10) = some d → exec (.loadImage (.queue q (some r)) far) s = s.answer (s.okCmd q d)) ∧
    (∀ reply far b, s.takes q 0x10 c → c.bulk = some b → reply = none ∨ s.awaiting q (fun c => c.opc == 0x10) = none →
      let row := Instr.loadImage (.queue q reply) far
      (x.member ≠ 0 → exec row s = s.answer (u.finish q c.place { status := St.wrongQueue })) ∧
      (x.member = 0 → formatGood b = false → exec row s = s.answer (fail ⟨1, 0, 0, 0⟩)) ∧
      (x.member = 0 → formatGood b = true → u.openImage x.session b = none → exec row s = s.answer (fail ⟨2, 0, 0, 0⟩)) ∧
      (∀ im f, x.member = 0 → formatGood b = true → u.openImage x.session b = some im → s.forme x.forme = some f →
        let digest := Config.sha384 im
        (∀ g, u.proofLoad f n im digest far = some g → exec row s = s.answer (fail g)) ∧
        (u.proofLoad f n im digest far = none →
          let v := u.modCtx n fun x => { x with fenceQuota := (imageResources im).fences }
          let w := f.members.foldl (fun s e => if e.2.fab = s.fabAddr then s.loadMember x.forme x.job e.1 e.2.part im digest
            else s.send (.memberOrder ⟨x.forme, x.job, e.1, 0x10, [], im, 0⟩)) v
          let z := w.modJob x.forme x.job fun j => { j with digest := some digest }
          (reply ≠ none ∨ (∀ e ∈ f.members, e.2.fab = z.fabAddr) → exec row s = s.answer (z.okCmd q c)) ∧
          (reply = none → (∃ e ∈ f.members, e.2.fab ≠ z.fabAddr) → exec row s = s.answer (z.ordered q c))))) ∧
    (∀ (o : MemberOrder) far, o.opc = 0x10 →
      (∀ f r, s.forme o.forme = some f → Tbl.find f.members o.member = some r → exec (.loadImage (.order o) far) s =
        s.answer ((s.loadMember o.forme o.job o.member r.part o.bulk (Config.sha384 o.bulk)).send (.orderDone o.forme o.job o.member 0x10 0 0))) ∧
      (∀ f, s.forme o.forme = some f → Tbl.find f.members o.member = none → exec (.loadImage (.order o) far) s =
        s.answer (s.send (.orderDone o.forme o.job o.member 0x10 Dt.badMember 0)))) ∧
    (∀ (k : Core) (a : Nat) (bs : List Word256) (i : Nat),
      Tbl.get 0 (k.putCode a bs).imem i = (if a ≤ i ∧ i < a + bs.length then bs.getD (i - a) 0 else Tbl.get 0 k.imem i) ∧
        (k.putCode a bs).codeLen = max k.codeLen (a + bs.length)) ∧
    (∀ (k p v : Nat) (b : List Byte), (s.core k).enginesLive = true →
      let t := s.codeTo k p v b
      t.cores = s.cores ∧ (t.hdr (.cluster (clusterOf k))).lastWhy = Why.imem ∧
        ((s.hdr (.cluster (clusterOf k))).clear = false → (s.hdr (.cluster (clusterOf k))).refused < 2 ^ 32 - 1 →
          (t.hdr (.cluster (clusterOf k))).refused = (s.hdr (.cluster (clusterOf k))).refused + 1)) ∧
    -- RUN
    (∀ reply far, s.takesNone q 0x11 → exec (.run (.queue q reply) far) s = .next s) ∧
    (∀ reply far f j, s.takes q 0x11 c → s.forme x.forme = some f → s.job x.forme x.job = some j →
      let row := Instr.run (.queue q reply) far
      let r := runArgs (c.words.drop 5)
      let away := far.map fun e => (e.1.toNat, e.2.1.toNat, e.2.2.toNat)
      let ranges := s.coresHere f x.job ++ away.map fun e => e.2
      let covered := coveredBy ranges ranges.length r.first r.count
      let cores := s.runCores f x.job r
      let remote := farCores away r
      let waits := (cores.any fun k => (s.core k).busy) || (s.queues.any fun e => e.2.cmds.any fun d => match d.run with
        | some u => decide (u.forme = f.id ∧ u.job = x.job) && u.remote.any fun v => remote.contains v
        | none => false)
      (j.digest = none → exec row s = s.answer (u.refuseCmd q c Dt.noImage)) ∧
      (j.digest ≠ none → covered = false → exec row s = s.answer (u.refuseCmd q c Dt.badMember)) ∧
      (j.digest ≠ none → covered = true → r.deadline ≠ 0 → s.isMaster f = false → exec row s = s.answer (u.refuseCmd q c Dt.notMaster)) ∧
      (j.digest ≠ none → covered = true → r.deadline = 0 ∨ s.isMaster f = true →
        (f.frozen = true ∨ f.switching ≠ none → exec row s = .next s) ∧
        (f.frozen = false → f.switching = none → f.running ≠ some x.job → exec row s = s.answer (s.reschedule f.id [])) ∧
        (f.frozen = false → f.switching = none → f.running = some x.job → waits = true → exec row s = .next s) ∧
        (f.frozen = false → f.switching = none → f.running = some x.job → waits = false →
          let seq := j.runSeq + 1
          let im := (s.part x.part).residency
          let watch := decide (r.deadline ≠ 0) && r.fallbackOk && im.any fun m => m.hasFb && decide (m.layers ≠ 0)
          let info : RunInfo := ⟨f.id, x.job, seq, cores, remote, r.deadline, watch, (im.map fun m => (s.fence m.progressFence).value).getD 0⟩
          let a := (u.modCmd q c.place fun d => { d with run := some info, energy0 := u.energies (distinct (n :: u.runCtxs f x.job r)) }).modJob f.id x.job fun j => { j with runSeq := seq }
          let b := (s.membersHere f).foldl (fun s e => s.startMember f.id x.job e.1 e.2.part r seq) a
          let v := (distinct (remote.map fun e => e.1)).foldl (fun s m => s.send (.memberOrder ⟨f.id, x.job, m, 0x11, c.words.drop 5, [], seq⟩)) b
          ∃ d, ((v.queue q).cmds.find? fun d => d.place == c.place) = some d ∧ d.run = some info ∧ exec row s = s.answer (v.endRun q d)))) ∧
    (∀ (t : State) (q : Nat) (c : Cmd) (r : RunInfo), c.run = some r →
      (r.cores ≠ [] ∨ r.remote ≠ [] → t.endRun q c = t) ∧
      (r.cores = [] → r.remote = [] → t.endRun q c = (t.finish q c.place {
        status := St.ok, result := [BitVec.ofNat 64 r.seq] }).reschedule r.forme [])) ∧
    (∀ (t : State), c.late t = decide (c.opc = 0x11 ∧ bits (c.arg 1) 63 32 ≠ 0 ∧ bits (c.arg 1) 63 32 * 1000 < t.ltime - c.fetched)) ∧
    (∀ (o : MemberOrder) far p f, o.opc = 0x11 → s.partHere o.forme o.member = some p → s.forme o.forme = some f →
      let r := runArgs o.args
      let busy := (s.runOn p r).any fun e => (s.core e.2).busy
      (f.running ≠ some o.job ∨ busy = true → exec (.run (.order o) far) s = .next s) ∧
      (f.running = some o.job → busy = false → exec (.run (.order o) far) s = s.answer (s.startMember o.forme o.job o.member p r o.seq))) ∧
    -- a core of a RUN
    (∀ (k : Core) (y : Context) (m : Nat) (first : Bool) (cls : BitVec 3) (r : RunArgs) (seq v : Nat),
      let t := k.startRun y m first cls r seq v
      t.ctl = .running ∧ t.pc = r.entry ∧ (∀ i, Tbl.get 0 t.x i = if i = 1 then r.arg else if i = 2 then BitVec.ofNat 64 y.constBase
          else if i = 3 then BitVec.ofNat 64 seq else 0) ∧
        t.ret = [] ∧ t.loops = [] ∧ t.tokens = [] ∧ t.td = [] ∧ t.mq = [] ∧ t.vq = [] ∧ t.xq = [] ∧ t.ctx = m ∧ t.seed = y.seed ∧ t.imem = k.imem ∧
        (first = true → t.lm = [] ∧ t.cls = cls) ∧ (first = false → t.lm = k.lm ∧ t.cls = k.cls)) ∧
    -- QUANTUM_EXPIRY
    (∀ (id : BitVec 32) (far : List (BitVec 32)),
      let away := far.map fun j => j.toNat
      (s.forme id.toNat = none → exec (.quantumExpiry id far) s = .next s) ∧
      (∀ f, s.forme id.toNat = some f →
        (f.running = none → exec (.quantumExpiry id far) s = s.answer (s.reschedule id.toNat away)) ∧
        (∀ j, f.running = some j →
          (s.isMaster f = false ∨ f.switching ≠ none ∨ f.frozen = true → exec (.quantumExpiry id far) s = .next s) ∧
          (s.isMaster f = true → f.switching = none → f.frozen = false →
            (s.jobReady id.toNat j away = false → exec (.quantumExpiry id far) s = s.answer (s.reschedule id.toNat away)) ∧
            (s.jobReady id.toNat j away = true → s.nextReady f (some j) away = none → exec (.quantumExpiry id far) s = .next s) ∧
            (∀ k, s.jobReady id.toNat j away = true → s.nextReady f (some j) away = some k → exec (.quantumExpiry id far) s =
              s.answer ((s.advanceTo (f.quantumStart + f.quantum * s.jobShare id.toNat j * 1000000)).beginSwitch f k)))))) ∧
    (∀ (f : Forme) (j : Option Nat) (away : List Nat) (k : Nat), s.nextReady f j away = some k →
      k ∈ f.rotation ∧ some k ≠ j ∧ s.jobReady f.id k away = true ∧ s.jobHeld f.id k = false) ∧
    -- GANG_SWITCH, SWITCH_DONE
    (∀ (id : BitVec 32) (member : BitVec 16) (job : BitVec 32),
      (s.partHere id.toNat member.toNat = none → exec (.gangSwitch id member job) s = .next s) ∧
      (∀ p, s.partHere id.toNat member.toNat = some p → s.miniBusy p = true →
        exec (.gangSwitch id member job) s = s.answer (s.modChange id.toNat fun c => { c with deferrals := c.deferrals + 1, deferred := c.deferred ++ [(member.toNat, job.toNat)] })) ∧
      (∀ p, s.partHere id.toNat member.toNat = some p → s.miniBusy p = false →
        let l := (s.part p).lay
        let v := s.modForme id.toNat fun f => { f with switching := some (f.switching.getD (job.toNat, [])) }
        exec (.gangSwitch id member job) s = s.answer (l.engines.foldl (fun s e => s.suspendEngine e 3) (l.clusters.foldl (fun s c => s.stopCluster c) v)))) ∧
    (∀ (id : BitVec 32) (member : BitVec 16),
      let onward (t : State) : State := if (t.forme id.toNat).any (fun f => f.switching.isSome) then t else t.goOnMinis
      (s.forme id.toNat = none → exec (.switchDone id member) s = .next s) ∧
      (∀ f, s.forme id.toNat = some f →
        (f.switching = none → exec (.switchDone id member) s = .next s) ∧
        (∀ job ms p, f.switching = some (job, ms) → s.partOfMember f member.toNat = some p →
          (s.atRest p = false → exec (.switchDone id member) s = .next s) ∧
          (s.atRest p = true → exec (.switchDone id member) s = s.answer
            (onward (((s.swapMember id.toNat member.toNat job p).send (.gangSwitched id.toNat member.toNat)).memberSwitched id.toNat member.toNat)))) ∧
        (∀ e, f.switching = some e → s.partOfMember f member.toNat = none →
          (s.isMaster f = false → exec (.switchDone id member) s = .next s) ∧
          (s.isMaster f = true → exec (.switchDone id member) s = s.answer (onward (s.memberSwitched id.toNat member.toNat)))))) ∧
    (∀ (p idx cl k m : Nat), k < 4 → m ≠ 0 → (s.ctx m).state = .live → (s.core (4 * cl + k)).ctx = m →
      ((s.saveCluster p idx cl).restoreCluster m p idx cl).core (4 * cl + k) =
        { s.core (4 * cl + k) with part := p, vcore := (s.part p).lay.vcoreBase + 4 * idx + k, seed := (s.ctx m).seed })

/-! ### Changes of a forme -/

/-- The steps of a change (R255, R256, R260 to R263, R265, R266, R269 to R273, R275, R276, R278, R282 to R284). A message for another module goes on; one that came before is
answered again and not acted on; one of no known change, or with a reserved field set, is counted. Each step waits for every module that takes part and then asks for the next: Admission,
Install, Switch, Drain, Move, Quoin, Release. A refused admission changes nothing at its module. What a MOVE carries is log entry 72. -/
def Obligations.StepsOfAChange : Prop :=
  ∀ (s : State) (m : CompMsg),
    let id := m.formeId.toNat
    let src := m.srcMod.toNat
    let w4 := m.w4.toNat
    -- taking a message
    (∀ carry, ∀ p ∈ [(Instr.admitForme m carry, 0x20), (.admitOk m, 0x21), (.admitRefuse m, 0x22), (.install m, 0x23), (.installed m, 0x24), (.switchEpoch m, 0x25),
        (.switched m, 0x26), (.drained m, 0x27), (.move m carry, 0x28), (.moved m, 0x29), (.quoined m, 0x2B), (.release m, 0x2C), (.released m, 0x2D), (.memberFailed m, 0x2E), (.abort m, 0x2F),
        (.aborted m, 0x30), (.msBegin m, 0x31), (.msReady m, 0x32), (.msDone m, 0x33), (.fwd m, 0x34), (.ack m, 0x3F)],
      (m.dstMod.toNat ≠ s.fabAddr → exec p.1 s = s.answer (s.emit (.comp p.2 m))) ∧
      (∀ a, m.dstMod.toNat = s.fabAddr → (s.answered.find? fun a => a.repeats p.2 m) = some a → exec p.1 s = s.answer (s.emit (.comp a.ansOpc a.ans))) ∧
      (m.dstMod.toNat = s.fabAddr → (∀ a ∈ s.answered, a.repeats p.2 m = false) → compReserved p.2 m = true ∨ s.knowsChange p.2 m = false →
        exec p.1 s = s.answer (s.synCount s.lowestCluster .badmsg))) ∧
    -- Admission
    (∀ carry h es, s.takesComp 0x20 m → m.data = .plan h es →
      let f := (s.forme id).getD { Forme.blank id with epoch := h.expectEpoch }
      let leads := f.change.any fun c => c.master == s.fabAddr && c.cseq == m.cseq.toNat
      let r := s.admitLosing f h (if leads then f.change.any fun c => c.recovery else s.repairs f es carry) es carry s.ctxs.length
      (∀ why member, r = .error (why, member) → exec (.admitForme m carry) s = s.answer (s.answerComp 0x20 m 0x22 0 why member)) ∧
      (∀ t, r = .ok t →
        let u : State := if (t.forme id).isSome then t else { t with formes := t.formes ++ [f] }
        let joined (f : Forme) : Change := match f.change with
          | some c => if leads then c else Change.joined u m h es f
          | none => Change.joined u m h es f
        exec (.admitForme m carry) s = s.answer ((u.modForme id fun f =>
          { f with change := some { joined f with admitted := true, own := es }, cseq := m.cseq.toNat }).answerComp 0x20 m 0x21 0 0 0))) ∧
    (s.takesComp 0x21 m → exec (.admitOk m) s = s.answer ((s.counted 0x20 m).admissionEnd id)) ∧
    (s.takesComp 0x22 m → exec (.admitRefuse m) s =
      s.answer (((s.counted 0x20 m).modChange id fun c => { c with refusals := c.refusals ++ [(bits w4 15 0, m.status.toNat)] }).admissionEnd id)) ∧
    (∀ (t : State) c, t.changeOf id = some c →
      (t.stepIn id .admission (fun c => c.parts) = false → t.admissionEnd id = t) ∧
      (t.stepIn id .admission (fun c => c.parts) = true → c.refusals = [] → t.admissionEnd id = t.toInstall id) ∧
      (t.stepIn id .admission (fun c => c.parts) = true → c.refusals ≠ [] →
        ∃ r ∈ c.refusals, t.admissionEnd id = t.abortChange id 1 r.2 (some r.1) ∧ ∀ x ∈ c.refusals, r.1 ≤ x.1)) ∧
    -- Install, Switch
    (∀ es, s.takesComp 0x23 m → m.data = .install es →
      exec (.install m) s = s.answer ((s.modForme id fun f =>
        let c := match f.change with
          | some c => if c.cseq = m.cseq.toNat then c else Change.joined s m (PlanHeader.unknown id) [] f
          | none => Change.joined s m (PlanHeader.unknown id) [] f
        { f with
          change := some c, cseq := m.cseq.toNat, instCseq := m.cseq.toNat, membersNew := some (m.epoch.toNat, applyMap f.members es)
          draining := none, membersOld := if c.switched then f.membersOld else [] }).answerComp 0x23 m 0x24 m.epoch.toNat 0 0)) ∧
    (s.takesComp 0x24 m →
      let v := s.counted 0x23 m
      exec (.installed m) s = s.answer (if v.stepIn id .install (fun c => c.mods) then v.enterStep id .switch 0x25 m.epoch.toNat true else v)) ∧
    (∀ f c epoch members, s.takesComp 0x25 m → s.forme id = some f → f.change = some c → f.membersNew = some (epoch, members) →
      ∃ v : State, exec (.switchEpoch m) s = s.answer (v.answerComp 0x25 m 0x26 epoch 0 0) ∧
        ∀ g, v.forme id = some g → g.epoch = epoch ∧ g.draining = some f.epoch ∧ g.members = members ∧ g.membersNew = none ∧
          g.membersOld = (if c.switched then f.membersOld else f.members)) ∧
    (
      let v := s.counted 0x25 m
      let w := if v.stepIn id .switch (fun c => c.mods) then (v.modChange id fun c => { c with step := .drain, stepStart := v.ltime }).drainEnd id else v
      s.takesComp 0x26 m →
        ((∀ f, w.forme id = some f → f.recStep ≠ .planned) → exec (.switched m) s = s.answer w) ∧
        (∀ f, w.forme id = some f → f.recStep = .planned → (f.change.any fun c => c.recovery && (c.step != .admission && c.step != .install && c.step != .switch &&
          c.step != .aborting)) = true → exec (.switched m) s = s.answer (w.resumeForme id))) ∧
    -- Drain
    (∀ (id : BitVec 32) f c e, s.forme id.toNat = some f → f.change = some c → f.draining = some e →
      (c.drainReported = true ∨ s.epochBusy id.toNat e = true → exec (.epochDrained id) s = .next s) ∧
      (c.drainReported = false → s.epochBusy id.toNat e = false → exec (.epochDrained id) s =
        s.answer ((s.modChange id.toNat fun c => { c with drainReported := true }).sendComp 0x27 (s.compMsg c.master id.toNat c.cseq e))) ∧
      (c.drainReported = true ∨ s.epochBusy id.toNat e = false → exec (.drainLimitExpiry id) s = .next s) ∧
      (c.drainReported = false → s.epochBusy id.toNat e = true →
        let a := s.advanceTo (c.switchedAt + (if c.hdr.drainLimit = 0 then 10 else c.hdr.drainLimit) * 1000000)
        let mine (t : Stream) : Bool := (a.ctx t.ctx).forme == id.toNat && t.reqs.any fun r => r.epoch.toNat == e
        let held := (a.engines.filter fun (g : Nat × StreamEngine) => (g.2.active.any fun x => mine x.2) || g.2.ending.any mine || g.2.suspended.any mine).map fun g => g.1
        let other := a.peerOut.filter fun o => o.forme == id.toNat && o.epoch == e && (match o.use with
          | .stream _ _ => false
          | _ => true)
        exec (.drainLimitExpiry id) s = s.answer (held.foldl (fun s k =>
          s.startLadder ⟨.unit (.stream (Fin.ofNat 48 (k / 4)) (Fin.ofNat 4 (k % 4))), none, 1, s.ltime,
            s.unitPart (.stream (Fin.ofNat 48 (k / 4)) (Fin.ofNat 4 (k % 4))), [], [], false, false, false⟩ 1) (other.foldl (fun s o => s.endOut o) a)))) ∧
    (s.takesComp 0x27 m → exec (.drained m) s =
      s.answer (((s.ackComp 0x27 m).modChange id fun c => { c with drained := insertSorted src c.drained }).drainEnd id)) ∧
    -- Move
    (∀ carry, s.takesComp 0x28 m → ∀ c, (s.ackComp 0x28 m).changeOf id = some c →
      let a := ((s.ackComp 0x28 m).modForme id fun f => { f with draining := none }).modChange id fun c => { c with moving := true }
      let old := ((a.forme id).map fun f => f.membersOld).getD []
      let taken := c.own.foldl (fun s e => if e.action = actMove then s.carryEntry id old c.restored carry e else s) a
      let v := ((if c.restored then taken.planReturns id else taken.planMinis id c.own).beginMini id).tryMoved id
      (∀ d, v.changeOf id = some d → d.recovery = false) → exec (.move m carry) s = s.answer v) ∧
    (∀ (id : BitVec 32) (p : PartId) (k : BitVec 24) landed c, s.changeOf id.toNat = some c →
      (exec (.demandPull id p k) s = s.answer (if s.pullable c p.val k.toNat then s.startPull id.toNat p.val k.toNat else s)) ∧
      (c.chunk p.val k.toNat ≠ some .pulling → exec (.pullComplete id p k landed) s = .next s) ∧
      (c.chunk p.val k.toNat = some .pulling →
        let a : State := { s with peerOut := s.peerOut.filter fun o => match o.use with
          | .pull x y _ => !(x == p.val && y == k.toNat)
          | _ => true }
        let held (v : State) : State := ((v.setChunk id.toNat p.val k.toNat .held).modChange id.toNat fun c => { c with chunksMoved := c.chunksMoved + 1 }).tryMoved id.toNat
        (s.freedInPull c p.val k.toNat = true → exec (.pullComplete id p k landed) s =
          s.answer (((a.freshGalley p.val k.toNat).setChunk id.toNat p.val k.toNat .skipped).tryMoved id.toNat)) ∧
        (∀ o, s.freedInPull c p.val k.toNat = false → (s.part p.val).layOld = some o → exec (.pullComplete id p k landed) s =
          s.answer (held ((List.range 16).foldl (fun (s : State) i => s.landLocal p.val (k.toNat * 65536 + 4096 * i) o) a))) ∧
        (s.freedInPull c p.val k.toNat = false → (s.part p.val).layOld = none → exec (.pullComplete id p k landed) s =
          s.answer (held ((List.range 16).foldl (fun (s : State) i => s.landFar p.val k.toNat i landed) a)))) ∧
      (
        let next := (s.targetsOf c).findSome? fun p => ((s.part p).liveChunks.find? fun k => s.pullable c p k).map fun k => (p, k)
        (next = none → exec (.sweeper id) s = s.answer (s.tryMoved id.toNat)) ∧
        (∀ p k, next = some (p, k) → exec (.sweeper id) s = s.answer (s.startPull id.toNat p k)))) ∧
    (s.takesComp 0x29 m → ∀ f c rs chunks lost, m.data = .moved rs chunks lost →
      let a := (s.ackComp 0x29 m).markAnswer id src
      let v := a.modChange id fun c => { c with
        renumber := c.renumber ++ rs.filter fun r => !c.renumber.contains r
        chunksMoved := if src ≠ a.fabAddr then c.chunksMoved + chunks else c.chunksMoved
        lostCtx := if src ≠ a.fabAddr then c.lostCtx + lost else c.lostCtx }
      v.forme id = some f → f.change = some c →
        (v.stepIn id .move (fun c => c.parts) = false → exec (.moved m) s = s.answer v) ∧
        (v.stepIn id .move (fun c => c.parts) = true → c.undo = true → exec (.moved m) s = s.answer (v.enterStep id .release 0x2C f.epoch false)) ∧
        (v.stepIn id .move (fun c => c.parts) = true → c.undo = false → exec (.moved m) s =
          s.answer ((v.modChange id fun c => { c with decided := true }).enterStep id .quoin 0x2A f.epoch false))) ∧
    -- mini-switches
    (s.takesComp 0x31 m →
      let p := ((m.member.map fun x => x.toNat).bind fun x => s.partHere id x).getD 0
      let new : MiniSwitch := ⟨bits w4 27 12, p, src, bits w4 5 0, s.fabAddr, bits w4 11 6, m.w5.toNat, m.w6.toNat, true, true, false, [], false, []⟩
      (src = s.fabAddr → exec (.msBegin m) s = s.answer (s.answerComp 0x31 m 0x32 0 0 w4)) ∧
      (src ≠ s.fabAddr → exec (.msBegin m) s =
        s.answer ((s.modChange id fun c => { c with minis := c.minis ++ [new] }).answerComp 0x31 m 0x32 0 0 w4))) ∧
    (s.takesComp 0x32 m →
      let tag := bits w4 27 12
      let found := s.mini id tag fun k => k.srcMod == s.fabAddr && !k.carried
      (found = none → exec (.msReady m) s = .next s) ∧
      (∀ k, found = some k →
        let v := (rangeFrom (4 * k.srcClu) 4).foldl (fun s e => s.suspendEngine e 4) ((s.modMini id tag fun k => { k with ready := true }).stopCluster k.srcClu)
        let w := (v.gotAnswer 0x31 m).modMini id tag fun k => { k with carried := true }
        (v.clusterAtRest k.srcClu = false → exec (.msReady m) s = s.answer v) ∧
        (v.clusterAtRest k.srcClu = true → k.dstMod = w.fabAddr → exec (.msReady m) s = s.answer w) ∧
        (v.clusterAtRest k.srcClu = true → k.dstMod ≠ w.fabAddr → exec (.msReady m) s = s.answer (w.sendImage id k)))) ∧
    (∀ (id : BitVec 32) (tag : BitVec 16) notes bars c, s.changeOf id.toNat = some c →
      let found := s.mini id.toNat tag.toNat fun k => k.dstMod == s.fabAddr && !k.done && (if k.srcMod = s.fabAddr then k.carried else k.whole)
      (found = none → exec (.miniSwitchRestore id tag notes bars) s = .next s) ∧
      (∀ k, found = some k →
        let v := if k.srcMod = s.fabAddr then s.moveCluster k.part k.srcClu k.dstClu else s.restoreImage id.toNat k notes bars
        let w := k.held.foldl (fun s e => s.ctrlArrive e.1 e.2) (v.modMini id.toNat tag.toNat fun k => { k with done := true, carried := true, image := [], held := [] })
        exec (.miniSwitchRestore id tag notes bars) s = s.answer ((((distinct [k.srcMod, c.master]).foldl (fun s d =>
          s.sendComp 0x33 (s.compMsg d id.toNat c.cseq 0 (w4 := k.word))) w).undefer id.toNat).tryMoved id.toNat))) ∧
    (s.takesComp 0x33 m →
      let a := s.ackComp 0x33 m
      let tag := bits w4 27 12
      let found := a.mini id tag fun k => k.srcMod == a.fabAddr && k.carried
      (found = none → exec (.msDone m) s = s.answer a) ∧
      (∀ k, found = some k → exec (.msDone m) s = s.answer (((((if k.dstMod = a.fabAddr ∨ k.done then a else a.leaveCluster k.srcClu).modMini id tag
        fun k => { k with done := true }).undefer id).beginMini id).tryMoved id))) ∧
    -- Quoin, Release
    (s.takesComp 0x2A m → ∀ (fences : List (BitVec 32 × BitVec 64)) c, s.changeOf id = some c →
      let v := (c.own.foldl (fun s e => s.quoinEntry e)
        (s.modChange id fun c => { c with quoined := true })).answerComp 0x2A m 0x2B m.epoch.toNat 0 0
      (∀ f, v.forme id = some f → f.redirect = none) → exec (.quoin m fences) s = s.answer v) ∧
    (s.takesComp 0x2B m →
      let v := s.counted 0x2A m
      exec (.quoined m) s = s.answer (if v.stepIn id .quoin (fun c => c.parts) then v.enterStep id .release 0x2C m.epoch.toNat false else v)) ∧
    (s.takesComp 0x2C m → ∀ f c, s.forme id = some f → f.change = some c →
      let v := c.own.foldl (fun s e => s.releaseEntry f c e) (s.rewriteParents (f.hubMoves c (decide (c.master = s.fabAddr))))
      let leads := decide (c.master = v.fabAddr)
      let w := (v.modForme id fun f => { f with
        draining := none, membersOld := [], change := if leads then f.change.map fun c => { c with own := [], minis := [] } else none }).answerComp 0x2C m 0x2D 0 0 0
      exec (.release m) s = s.answer (if leads then w else w.dropForme id)) ∧
    (s.takesComp 0x2D m →
      let v := s.counted 0x2C m
      exec (.released m) s = s.answer (if v.stepIn id .release (fun c => c.parts) then v.finishChange id else v)) ∧
    -- failures and aborts
    (∀ (id : BitVec 32) (mod : BitVec 16) f c, s.forme id.toNat = some f → f.change = some c →
      let due := match c.step with
        | .install | .switch | .aborting => c.mods
        | .drain => c.mods.filter fun m => !c.drained.contains m
        | _ => c.parts
      (c.master = s.fabAddr ∧ mod.toNat ∈ c.alive due ∧ mod.toNat ∉ c.answered → exec (.compositionTimeout id mod) s =
        s.answer ((s.advanceTo (c.stepStart + s.boundOf f c mod.toNat + f.peerTimeout * 1000000)).failModule id.toNat mod.toNat)) ∧
      (¬ (c.master = s.fabAddr ∧ mod.toNat ∈ c.alive due ∧ mod.toNat ∉ c.answered) → exec (.compositionTimeout id mod) s = .next s)) ∧
    (s.takesComp 0x2E m →
      let failed := bits w4 15 0
      let a := (s.ackComp 0x2E m).modForme id fun f => { f with failedMembers := insertSorted failed f.failedMembers }
      let v := (a.peerOut.filter fun o => o.forme == id && o.member == failed).foldl (fun s o => s.endPeer o) a
      let gone (t : State) : State := t.endRefills (s.refillsAsked id failed)
      (v.changeOf id = none → exec (.memberFailed m) s = s.answer (gone v)) ∧
      (∀ c, v.changeOf id = some c →
        let old (u : State) (e : PlanEntry) : Option Nat := (Tbl.find (((v.forme id).map fun f => f.membersOld).getD []) e.member).bind fun r =>
          if r.fab = u.fabAddr then some r.part else none
        let hit := c.own.filter fun e => e.action == actMove && e.member == failed
        let u := if c.restored then v else (hit.filter fun e => e.fab == v.fabAddr).foldl (fun s e => s.sourceLost id e.part c) v
        (c.quoined = true → exec (.memberFailed m) s = s.answer (gone v)) ∧
        (c.quoined = false → exec (.memberFailed m) s = s.answer
          (gone (((hit.filter fun e => e.fab != u.fabAddr).filterMap (old v)).foldl (fun s p => s.targetLost c p) u))))) ∧
    (s.takesComp 0x2F m → ∀ c, s.changeOf id = some c →
      let a := s.answerComp 0x2F m 0x30 0 0 0
      let leads := decide (c.master = s.fabAddr)
      (bit w4 0 = true → exec (.abort m) s = s.answer (a.modChange id fun c => { c with undo := true })) ∧
      (bit w4 0 = false →
        let v := (c.own.foldl (fun s e => if e.fab = s.fabAddr ∧ e.action ≠ actRemove then
            if (s.part e.part).inUse then s.modPart e.part fun q => { q with layNew := none } else { s with parts := Tbl.del s.parts e.part }
          else s) a)
        let v := ((c.own.filterMap fun e => (v.forme id).bind fun f => v.partOfMember f e.member).foldl (fun s p => s.dropLate p) v).modForme id fun f => { f with membersNew := none, change := if leads then f.change.map fun c => { c with own := [] } else none }
        exec (.abort m) s = s.answer (if leads then v else v.dropForme id))) ∧
    (s.takesComp 0x30 m →
      let v := s.counted 0x2F m
      (v.stepIn id .aborting (fun c => c.mods) = false → exec (.aborted m) s = s.answer v) ∧
      (∀ c, v.changeOf id = some c → v.stepIn id .aborting (fun c => c.mods) = true →
        exec (.aborted m) s = s.answer (if c.undo then v.drainEnd id else v.finishChange id))) ∧
    -- forwarding, acknowledgements, repeats
    (s.takesComp 0x34 m →
      let a := s.ackComp 0x34 m
      (∀ v, m.data = .fwdDoorbell v →
        let q := renumbered (((a.changeOf id).map fun c => c.renumber).getD []) true (bits w4 15 0)
        exec (.fwd m) s = s.answer (a.ring q (bits v.toNat 15 0 + (a.queue q).gen * 65536) (a.queue q).conn)) ∧
      (∀ opc c, m.data = .fwdCtrl opc c → exec (.fwd m) s = s.answer (a.ctrlArrive opc.toNat { c with dstMod := BitVec.ofNat 16 a.fabAddr }))) ∧
    (s.takesComp 0x3F m → exec (.ack m) s = s.answer (s.gotAnswer (bits w4 7 0) m)) ∧
    (∀ (opc : BitVec 8) (dst : BitVec 16) (id : BitVec 32),
      let found := s.unanswered.find? fun u => u.opc == opc.toNat && u.msg.dstMod.toNat == dst.toNat && u.msg.formeId.toNat == id.toNat
      (found = none → exec (.compositorMessageRepeat opc dst id) s = .next s) ∧
      (∀ u, found = some u →
        let a := s.advanceTo (u.sentAt + 1000000)
        exec (.compositorMessageRepeat opc dst id) s = s.answer { a.send (.comp opc.toNat u.msg) with
          unanswered := a.unanswered.map fun (x : Unanswered) => if x = u then { x with sentAt := a.ltime } else x }))

/-! ### Hidden recovery -/

/-- Hangs, the ladder, epoch protection, failed members and poisoned blocks (R212, R345, R347 to R353, R356, R358 to R362, R365, R368 to R376, R379 to R382): a hang starts the ladder at the
level of its kind, an overrun hands the resource to the next level, a level that ends judges the suspects; a mark ends an epoch and empties its log; a member that does not answer is probed and then declared failed; a poisoned block is
restored from the first source that exists. What other modules hold is log entry 86, suspects of shared units log entry 80. -/
def Obligations.HiddenRecovery : Prop :=
  ∀ (s : State) (q : QueueId) (c : Cmd) (m : RecMsg),
    let u := s.start q c
    let x := s.ctx (s.queue q).ctx
    let refused (d : Nat) : State := u.refuseCmd q c d
    let job := m.jobId.toNat
    let src := m.srcMod.toNat
    -- HANG
    (∀ (h : HangUnit) (named : List (BitVec 16)),
      let part := s.unitPart h
      let test := (s.culprits.find? fun k => k.unit == h).bind fun k => k.testing
      let busy : Option Nat := match part with
        | some p => if (s.part p).recovering ≠ 0 ∧ test.isNone then some p else none
        | none => none
      let ctx := match h with
        | .issuer c _ => (s.core c.val).ctx
        | _ => 0
      let cl : Option Nat := match h with
        | .issuer _ _ | .stream _ _ | .hub _ | .clusterCp _ => (unitClusters h).head?
        | _ => none
      let ch : Option Nat := match h with
        | .channel c => some c.val
        | _ => none
      let s' := s.advanceTo (s.ltime + s.hangLimit h)
      let a := s'.record { s'.recOfCtx ctx { cause := 0x20, severity := 1, nested := busy.isSome, island := unitIsland h, cluster := cl, channel := ch, d5 := hangRow h } with part := part }
      let v := match h with
        | .bridge i j => a.record { cause := 0x23, severity := 3, island := unitIsland h, d5 := (2 ^ i.val) ||| (2 ^ j.val) }
        | _ => a
      let sus := match test with
        | some n => [n]
        | none => v.suspectsOf h (named.map fun n => n.toNat)
      (s.canHang h = false → exec (.hang h named) s = .next s) ∧
      (∀ p, s.canHang h = true → busy = some p → exec (.hang h named) s = s.answer (v.markEscalate p)) ∧
      (s.canHang h = true → busy = none → exec (.hang h named) s =
        s.answer (v.startLadder ⟨.unit h, some h, startLevel h, v.ltime, part, sus, [], false, test.isSome, false⟩ (startLevel h)))) ∧
    -- the ladder
    (∀ (r : Resource) (bad : List ClusterId) (views : List ModuleView),
      (s.ladderOf r = none → exec (.ladderLevelOverrun r) s = .next s ∧ exec (.ladderLevelComplete r bad views) s = .next s) ∧
      (∀ l, s.ladderOf r = some l →
        exec (.ladderLevelOverrun r) s = s.answer ((s.advanceTo (l.start + levelBound l.level)).beginLevel l (l.level + 1) true) ∧
        (let a := if l.level = 1 then s.advanceTo (l.start + 100000) else s
          let v := match l.level, r, l.part with
            | 1, .unit h, _ => a.endQuiesce l h
            | 2, _, some p =>
              if l.escalate then a
              else match l.unit with
                | some (.channel ch) => ((a.releaseHeld p).fenceChannel ch.val 0).1.settle ((a.releaseHeld p).fenceChannel ch.val 0).2
                | _ => a.releaseHeld p
            | 3, _, some p => if l.escalate then a else a.endFenceOff l p (bad.map fun c => c.val)
            | _, _, _ => a
          (v.ladderOf r = none → exec (.ladderLevelComplete r bad views) s = s.answer v) ∧
          (∀ k, v.ladderOf r = some k → exec (.ladderLevelComplete r bad views) s =
            s.answer (if k.escalate then v.beginLevel k (k.level + 1) false else v.endLadder r views))))) ∧
    (∀ (h : HangUnit),
      ((s.culprits.find? fun k => k.unit == h) = none → exec (.culpritTest h false) s = .next s ∧ exec (.culpritTest h true) s = .next s) ∧
      (∀ k, (s.culprits.find? fun k => k.unit == h) = some k →
        (k.testing = none → exec (.culpritTest h false) s = s.answer (s.nextTest h) ∧ exec (.culpritTest h true) s = .next s) ∧
        (k.testing ≠ none → exec (.culpritTest h false) s = .next s ∧ exec (.culpritTest h true) s =
          s.answer (({ s with culprits := s.culprits.map fun (k : Culprit) => if k.unit = h then { k with testing := none } else k } : State).nextTest h)))) ∧
    -- EPOCH_CONFIG, EPOCH_MARK
    (∀ reply, s.takes q 0x40 c →
      let row := Instr.epochConfig (.queue q reply)
      let args := c.words.drop 5
      let d := u.configHere x.forme x.job args
      let v := (s.farModules x.forme).foldl (fun s m => s.send (.memberOrder ⟨x.forme, x.job, m, c.opc, args, [], 0⟩)) d.2
      (x.member ≠ 0 → exec row s = s.answer (u.finish q c.place { status := St.wrongQueue })) ∧
      (x.member = 0 → d.1 ≠ 0 → exec row s = s.answer (refused d.1)) ∧
      (x.member = 0 → d.1 = 0 → s.farModules x.forme = [] → exec row s = s.answer (v.okCmd q c)) ∧
      (x.member = 0 → d.1 = 0 → s.farModules x.forme ≠ [] → reply = none → exec row s = s.answer v) ∧
      (∀ w, x.member = 0 → d.1 = 0 → s.farModules x.forme ≠ [] → reply = some w →
        exec row s = s.answer (if bits w.toNat 15 0 = 0 then v.okCmd q c else refused (bits w.toNat 15 0)))) ∧
    (∀ o : MemberOrder, o.opc = 0x40 →
      let d := s.configHere o.forme o.job o.args
      exec (.epochConfig (.order o)) s = s.answer (d.2.send (.orderDone o.forme o.job o.member 0x40 d.1 0))) ∧
    (∀ reply, ((s.queue q).cmds.find? fun c => c.opc == 0x41 && c.state == .running) = none → s.takes q 0x41 c → x.member = 0 →
      let row := Instr.epochMark (.queue q reply)
      let a := u.holdQueues x.forme x.job true
      let far := a.farModules x.forme
      let v := far.foldl (fun s m => s.send (.memberOrder ⟨x.forme, x.job, m, 0x41, [], [], 0⟩)) a
      (a.markWaits x.forme x.job q c.place = true → exec row s = s.answer a) ∧
      (a.markWaits x.forme x.job q c.place = false → far ≠ [] → reply = none → exec row s = s.answer v) ∧
      (a.markWaits x.forme x.job q c.place = false → far = [] ∨ reply ≠ none → exec row s =
        s.answer (((v.commitEpoch x.forme x.job).tellDeputy x.forme x.job (v.epochLogs x.forme x.job)).okCmd q c [BitVec.ofNat 64 ((((v.commitEpoch x.forme x.job).job x.forme x.job).map fun j => j.mark).getD 0)]))) ∧
    (∀ o : MemberOrder, o.opc = 0x41 →
      let a := s.holdQueues o.forme o.job true
      exec (.epochMark (.order o)) s = s.answer (if a.markWaits o.forme o.job 0 0 then a
        else (a.commitEpoch o.forme o.job).send (.orderDone o.forme o.job o.member 0x41 0 0))) ∧
    (∀ forme id j, s.job forme id = some j → ∃ k, (s.commitEpoch forme id).job forme id = some k ∧ k.mark = (j.mark + 1) % 2 ^ 32 ∧ k.log = [] ∧ k.impure = false ∧
      k.unprotected = false ∧ k.markSeq = j.runSeq ∧ k.markRan = j.ran ∧ k.pendCfg = none ∧ k.budget = (j.pendCfg.map fun c => c.1).getD j.budget) ∧
    -- REFILL_SET, MIRROR_RESOLVE
    (∃ refill resolve0 resolve1 resolve2 : State → Nat → List Word64 → Did,
      OnMember s .refillSet 0x42 (fun _ => true) (fun c => bits (c.arg 0) 55 40) refill (fun _ => []) ∧
      (∀ p ∈ [(Instr.mirrorResolvePrimary, 0, resolve0), (.mirrorResolveSecondary, 1, resolve1), (.mirrorResolveNeither, 2, resolve2)],
        OnMember s p.1 0x43 (fun c => decide (bits (c.arg 1) 1 0 = p.2.1)) (fun c => bits (c.arg 0) 55 40) p.2.2 (fun _ => [])) ∧
      ∀ (s : State) (n : Nat) (a : List Word64),
        let base := bits (argAt a 0) 39 0
        let p := (s.ctx n).part
        (∀ d, s.namedRegion n base = .error d → refill s n a = (d, 0, s) ∧ resolve0 s n a = (d, 0, s) ∧ resolve1 s n a = (d, 0, s) ∧ resolve2 s n a = (d, 0, s)) ∧
        (∀ g, s.namedRegion n base = .ok g →
          refill s n a = (0, 0, s.setRegion p g { g with refill := (match bits (argAt a 1) 1 0 with
            | 1 => some (true, bits (argAt a 2) 55 40, bits (argAt a 2) 39 0)
            | 2 => some (false, 0, bits (argAt a 2) 56 0)
            | _ => none) }) ∧
          (g.mirror = false → resolve0 s n a = (Dt.regionCheck, 0, s) ∧ resolve1 s n a = (Dt.regionCheck, 0, s) ∧ resolve2 s n a = (Dt.regionCheck, 0, s)) ∧
          (g.mirror = true →
            resolve0 s n a = (0, 0, ((s.mirrorBlocks p g).foldl (fun s e => s.rewrite e.1 e.2) s).unsuspect p g) ∧
            resolve1 s n a = (0, 0, ((s.mirrorBlocks p g).foldl (fun s e => s.rewrite e.2 e.1) s).unsuspect p g) ∧
            resolve2 s n a = (0, 0, ((s.mirrorBlocks p g).foldl (fun s e => [e.1, e.2].foldl (fun s b => (s.modChannel b.1 fun k =>
              if k.fresh (b.2 / 8) then { k with used := insertSorted (b.2 / 8) k.used } else k).poison b) s) s).unsuspect p g)))) ∧
    -- RESERVE, RESET_PARTITION, FENCE_OFF
    (∀ p ∈ [(Instr.reserve q, 0x44), (.resetPartition q, 0x45)], s.takesNone q p.2 → exec p.1 s = .next s) ∧
    (∀ b, s.takes q 0x44 c → c.bulk = some b →
      let id := atBytes b 0 4
      let n := (b.length - 8) / 8
      let good := 8 ≤ b.length ∧ b.length % 8 = 0 ∧ n ≤ 4096
      (s.forme id = none → exec (.reserve q) s = s.answer (refused Dt.badMember)) ∧
      (∀ f, s.forme id = some f →
        (s.isMaster f = false → exec (.reserve q) s = s.answer (refused Dt.notMaster)) ∧
        (s.isMaster f = true → ¬ good → exec (.reserve q) s = s.answer (refused Dt.field)) ∧
        (s.isMaster f = true → good → exec (.reserve q) s = s.answer ((u.modForme id fun f => { f with
          reserves := (List.range n).map fun i => (⟨bits (atBytes b (8 + 8 * i) 8) 15 0, BitVec.ofNat 48 (bits (atBytes b (8 + 8 * i) 8) 63 16)⟩ : Reserve) }).okCmd q c)))) ∧
    (s.takes q 0x45 c →
      let p := bits (c.arg 0) 5 0
      let v := u.okCmd q c
      (48 ≤ p ∨ (s.part p).inUse = false → exec (.resetPartition q) s = s.answer (refused Dt.field)) ∧
      (p < 48 → (s.part p).inUse = true → exec (.resetPartition q) s =
        s.answer (v.startLadder ⟨.part (Fin.ofNat 48 p), none, 2, v.ltime, some p, [], [], false, false, false⟩ 2))) ∧
    (∀ views, ∀ r ∈ [(Instr.fenceOffCluster q views, 0, 48, fun (t : State) n => t.fenceCluster n views),
        (.fenceOffChannel q, 1, 384, fun t n => (t.fenceChannel n 0).1.settle (t.fenceChannel n 0).2),
        (.fenceOffDie q, 2, 4, fun t n => if t.dieFenced.contains n then t
          else t.startLadder ⟨.die (Fin.ofNat 4 n), none, 4, t.ltime, none, [], [], false, false, false⟩ 4)],
      let n := bits (c.arg 0) 10 2
      ((s.next q fun c => c.opc == 0x46 && bits (c.arg 0) 1 0 == r.2.1) = none → exec r.1 s = .next s) ∧
      ((s.next q fun c => c.opc == 0x46 && bits (c.arg 0) 1 0 == r.2.1) = some c →
        (r.2.2.1 ≤ n → exec r.1 s = s.answer (refused Dt.field)) ∧ (n < r.2.2.1 → exec r.1 s = s.answer (r.2.2.2 (u.okCmd q c) n)))) ∧
    -- messages of recovery
    (∀ (views : List ModuleView) (numbers : List (BitVec 32)), ∀ p ∈ [(Instr.pulse m, 0x01), (.pulseAns m, 0x02), (.suspect m, 0x03), (.probe m, 0x04), (.probeAns m, 0x05), (.thaw m, 0x06),
        (.rollback m, 0x07), (.rolledBack m views, 0x08), (.resume m, 0x09), (.masterClaim m numbers, 0x0A), (.log m, 0x0B)],
      (m.dstMod.toNat ≠ s.fabAddr → exec p.1 s = s.answer (s.emit (.recov p.2 m))) ∧
      (m.dstMod.toNat = s.fabAddr → ¬ s.takesRec p.2 m → exec p.1 s = s.answer (s.synCount s.lowestCluster .badmsg)) ∧
      (s.takesRec p.2 m → s.forme m.formeId.toNat = none → exec p.1 s = .next s)) ∧
    (∀ (id : BitVec 32) (member : BitVec 16) f p, s.forme id.toNat = some f → s.partHere id.toNat member.toNat = some p →
      (2 ≤ (s.part p).recovering → exec (.pulseSend id member) s = .next s) ∧
      (∀ k, (s.part p).recovering < 2 → f.masterMod = some k → exec (.pulseSend id member) s =
        s.answer (s.emit (.recov 0x01 (s.recMsg k id.toNat (member := member.toNat) (rseq := f.rseq)))))) ∧
    (∀ f, s.forme m.formeId.toNat = some f →
      (s.takesRec 0x01 m → s.isMaster f = false → exec (.pulse m) s = .next s) ∧
      (s.takesRec 0x01 m → s.isMaster f = true → exec (.pulse m) s = s.answer ((s.modForme f.id fun f => { f with lastPulse := Tbl.set f.lastPulse m.member.toNat s.ltime }).emit
        (.recov 0x02 { s.recMsg src f.id (member := m.member.toNat) with rseq := m.rseq }))) ∧
      (s.takesRec 0x02 m → exec (.pulseAns m) s = s.answer (s.modForme f.id fun f => { f with lastPulseAns := Tbl.set f.lastPulseAns m.member.toNat s.ltime })) ∧
      (∀ r, s.takesRec 0x03 m → Tbl.find f.members m.member.toNat = some r →
        let a := s.modForme f.id fun f => { f with askers := insertSorted src f.askers }
        (f.probe ≠ none → exec (.suspect m) s = s.answer a) ∧
        (f.probe = none → exec (.suspect m) s = s.answer ((a.modForme f.id fun f => { f with probe := some (m.member.toNat, s.ltime) }).emit
          (.recov 0x04 (s.recMsg r.fab f.id (member := m.member.toNat) (rseq := f.rseq)))))) ∧
      (s.takesRec 0x04 m →
        (s.partHere f.id m.member.toNat = none → exec (.probe m) s = .next s) ∧
        (∀ p, s.partHere f.id m.member.toNat = some p → exec (.probe m) s =
          s.answer (s.emit (.recov 0x05 { s.recMsg src f.id (member := m.member.toNat) with rseq := m.rseq })))) ∧
      (∀ t, s.takesRec 0x05 m → f.probe = some (m.member.toNat, t) → t + 2000000 < s.ltime → exec (.probeAns m) s = .next s) ∧
      (∀ t, s.takesRec 0x05 m → f.probe = some (m.member.toNat, t) → s.ltime ≤ t + 2000000 → exec (.probeAns m) s =
        s.answer (f.askers.foldl (fun s a => s.emit (.recov 0x06 (s.recMsg a f.id (member := m.member.toNat) (rseq := f.rseq))))
          (s.modForme f.id fun f => { f with probe := none, askers := [] }))) ∧
      (s.takesRec 0x06 m → exec (.thaw m) s = s.answer (s.thaw f.id)) ∧
      (s.takesRec 0x07 m →
        let r := (s.unmark f.id job m.epochNo.toNat).rollbackHere f.id job
        exec (.rollback m) s = s.answer (r.2.emit (.recov 0x08 { r.2.recMsg src f.id (job := job) (status := b2n r.1) with epochNo := m.epochNo, rseq := m.rseq }))) ∧
      (∀ views, s.takesRec 0x08 m →
        ((job, src) ∉ f.rollbackWait → exec (.rolledBack m views) s = .next s) ∧
        ((job, src) ∈ f.rollbackWait →
          let a := s.modForme f.id fun f => { f with
            rollbackWait := f.rollbackWait.filter fun e => e ≠ (job, src)
            rolledJobs := if f.rolledJobs.contains job ∨ f.lostJobs.contains job then f.rolledJobs else f.rolledJobs ++ [job] }
          exec (.rolledBack m views) s = s.answer ((if m.status = 1 then a.loseJob f job else a).recoveryGoesOn f.id views))) ∧
      (s.takesRec 0x09 m → exec (.resume m) s = s.answer (((s.replayHere f.id job).thaw f.id).recovered f.id)) ∧
      (∀ numbers k r rest, s.takesRec 0x0A m → f.members = (k, r) :: rest → exec (.masterClaim m numbers) s =
        s.answer ((s.modForme f.id fun g => { g with redirect := some (r.fab, src), change := g.change.map fun c =>
          if c.master = r.fab then { c with master := src, drainReported := c.drainReported && f.draining.isNone } else c }).dropImports
            f.id r.fab (numbers.map fun n => n.toNat))) ∧
      (s.takesRec 0x0B m →
        let k := m.queue.toNat
        (s.isMaster f = true → exec (.log m) s = s.answer (s.modForme f.id fun f => { f with logCopies := f.logCopies ++ [(m.member.toNat, job, k, m.entry)] })) ∧
        (s.isMaster f = false → exec (.log m) s = s.answer ((s.modJob f.id job fun j => { j with log := j.log ++ [⟨k, (s.queue k).nextPlace, m.entry, false, false⟩] }).modQueue k
          fun p => { p with nextPlace := (s.queue k).nextPlace + 1 })))) ∧
    (∀ forme id j, s.job forme id = some j → j.active = false ∨ j.impure = true ∨ j.unprotected = true → (s.rollbackHere forme id).1 = true) ∧
    -- PEER_TIMEOUT, PROBE_TIMEOUT
    (∀ (id : BitVec 32) (observer named : BitVec 16) copy views f p r, s.forme id.toNat = some f → s.partHere id.toNat observer.toNat = some p →
      Tbl.find f.members named.toNat = some r → named ≠ observer → named.toNat ∉ f.failedMembers →
      let first := ((f.members.head?).map fun e => e.1).getD 0
      let leads := s.isMaster f && decide (observer.toNat = first)
      let row := Instr.peerTimeout id observer named copy views
      let noted (t : Nat) : State := (s.advanceTo (t + f.peerTimeout * 1000000)).record { cause := 0x30, severity := 1, part := some p, member := some observer.toNat, d5 := named.toNat }
      -- the last PULSE, the last PULSE_ANS, and when each outstanding request to the member was sent: a timeout runs from any, the first ends first
      let since := (if leads then [Tbl.get 0 f.lastPulse named.toNat] else if named.toNat = first then [Tbl.get 0 f.lastPulseAns observer.toNat] else []) ++
        s.sentTo f named.toNat
      (∀ t ∈ since, (∀ u ∈ since, t ≤ u) → leads = true →
        exec row s = s.answer ((noted t).declareFailed id.toNat named.toNat copy views)) ∧
      (∀ t ∈ since, (∀ u ∈ since, t ≤ u) → ∀ k, leads = false → (if some r.fab = f.masterMod then f.deputyMod else f.masterMod) = some k →
        let v := (noted t).freeze id.toNat
        exec row s = s.answer (v.emit (.recov 0x03 (v.recMsg k id.toNat (member := named.toNat) (rseq := f.rseq))))) ∧
      (since = [] → exec row s = .next s)) ∧
    (∀ (id : BitVec 32) copy views f, s.forme id.toNat = some f →
      (f.probe = none → exec (.probeTimeout id copy views) s = .next s) ∧
      (∀ k t, f.probe = some (k, t) → exec (.probeTimeout id copy views) s = s.answer ((s.advanceTo (t + 2000000)).declareFailed id.toNat k copy views))) ∧
    -- POISON_RESTORE
    (∀ (p : PartId) (addr : BitVec 40),
      let a := addr.toNat / 512 * 512
      (s.locIn (s.part p).lay a = none → exec (.poisonRestore p addr) s = .next s) ∧
      (∀ b, s.locIn (s.part p).lay a = some b →
        ((s.blockAt b).poison = false ∨ (s.blockAt b).told = true ∨ (s.part p).inUse = false → exec (.poisonRestore p addr) s = .next s) ∧
        ((s.blockAt b).poison = true → (s.blockAt b).told = false → (s.part p).inUse = true →
          let good (o : Loc) : Bool := !(s.channel o.1).fenced && (s.blockAt o).intact (s.sealFor p a)
          (∀ r prim o, s.otherCopy p a = some (r, prim, o) → good o = true → exec (.poisonRestore p addr) s = s.answer ((s.repair p prim o b).poisonOver p a b 1 false)) ∧
          (s.otherCopy p a = none ∨ (∃ r prim o, s.otherCopy p a = some (r, prim, o) ∧ good o = false) →
            exec (.poisonRestore p addr) s = s.answer (s.restoreSecond p a b))))) ∧
    (∀ p a b,
      ((∀ r, (s.part p).regionOf a = some r → r.refill = none) → s.restoreSecond p a b = s.restoreRest p a b) ∧
      (∀ h, ((s.part p).shadows.find? fun h => decide (h.chunk = a / 65536)) = some h → s.restoreRest p a b =
        ((((s.modBlock b fun k => { k with told := true }).dropHeld b p a).poisonRecord p a b 3 false false).modJob (s.part p).forme h.job
          fun x => { x with affected := true }).rollbackJob (s.part p).forme h.job) ∧
      (((s.part p).shadows.find? fun h => decide (h.chunk = a / 65536)) = none → (s.part p).allocOf a = none →
        s.restoreRest p a b = (s.modChannel b.1 fun k => k.setFresh (b.2 / 8) true).poisonOver p a b 0 true) ∧
      (((s.part p).shadows.find? fun h => decide (h.chunk = a / 65536)) = none → (s.part p).allocOf a ≠ none → s.restoreRest p a b = s.poisonLost p a b))

/-! ### Links -/

/-- Links, packets and the addressing walk (R203, R238, R281, R284, R454 to R473): a link comes up through the steps of training and the guard, goes down and sends what was not acknowledged as
detours; a flit is taken in order or refused by one NAK; a packet goes on by the hash of its routing entry or is delivered, a sealed one once its tag verifies, and a request is answered from the lines it names; a module answers the
walk and takes its address. How received packets are described is log entry 41, the clearing of masks and REJECTED links log entry 44, the outcome of signatures log entry 49. -/
def Obligations.LinksPacketsAndTheWalk : Prop :=
  ∀ (s : State) (link : LinkId) (p : Packet),
    let l := link.val
    let k := s.link l
    -- training
    (exec (.linkTraining link) s = match k.state with
      | .down =>
        if k.disable = true ∨ k.waits = true ∨ ¬ (s.pm.st = .ready ∨ (s.pm.st = .booting ∧ (s.pm.byReset = true ∨ 6 < s.pm.step))) ∨ s.dieFenced.contains (l / 4) = true ∨
          s.power.railsOff.any (fun r => decide (r < 32 ∧ r % 4 = l / 4)) = true then .next s
        else s.answer ((match k.downAt with
          | some t => s.advanceTo (t + 1000000)
          | none => s).modLink l fun k => { k with
            state := .training 1, hello := false, stepAt := match k.downAt with
              | some t => max s.ltime (t + 1000000)
              | none => s.ltime })
      | .training n =>
        if n < 3 then s.answer (s.modLink l fun k => { k with state := .training (n + 1), stepAt := s.ltime })
        else if n = 3 then s.answer ((s.modLink l fun k => { k with state := .training 4, stepAt := s.ltime }).emit (.train l s.fabAddr s.fabV k.epoch))
        else .next s
      | .guarding true => s.answer ((s.modLink l fun k => { k with
          state := .up, credits := (List.range 16).map fun i => (i, reservedSlots i), nextPos := 0, acked := 0, retry := [], replays := 0, rxPos := 0, nakSent := false,
          granted := [], rxCredits := (List.range 16).map fun i => (i, reservedSlots i) }).linkRecord l 0x02 0)
      | _ => .next s) ∧
    (∀ bound, bound = (match k.state with
        | .training 1 => 100000
        | .training 2 => 5000000
        | .training 3 => 1000000
        | .training _ => 100000
        | .guarding false => 20000000
        | _ => 10000) →
      let s' := s.advanceTo (k.stepAt + bound)
      ∀ failed, failed = (k.failed.filter fun t => decide (s'.ltime < t + 1000000000)) ++ [s'.ltime] → exec (.trainingStepOverrun link) s = match k.state with
      | .training _ | .guarding _ =>
        if 3 ≤ failed.length then s.answer ((s'.modLink l fun k => { k with state := .down, downAt := some s'.ltime, waits := true, failed := [], hello := false }).linkRecord l 0x03 3)
        else s.answer (s'.modLink l fun k => { k with state := .training 1, hello := false, stepAt := s'.ltime, failed := failed })
      | _ => .next s) ∧
    (∀ serial plink fab fabV epoch rtt,
      (k.state = .training 4 → exec (.train link serial plink fab fabV epoch rtt) s = s.answer ((s.modLink l fun k => { k with
        partnerSerial := serial.toNat, partnerLink := plink.val, partnerMod := if fabV then fab.toNat else 0, partnerV := fabV,
        epoch := (max k.epoch epoch.toNat + 1) % 2 ^ 16, rtt := min rtt 1023, state := .guarding false, hello := false, stepAt := s.ltime }).emit (.guard l false))) ∧
      (k.state ≠ .training 4 → exec (.train link serial plink fab fabV epoch rtt) s = .next s)) ∧
    (k.state = .guarding false → k.hello = false → exec (.hello link) s = s.answer ((s.modLink l fun k => { k with hello := true }).emit (.guard l true))) ∧
    (k.state ≠ .guarding false ∨ k.hello = true → exec (.hello link) s = .next s) ∧
    (∀ (sigs nonce : Bool) (st : BitVec 4) (config : BitVec 384),
      (k.state ≠ .guarding false ∨ k.hello = false → exec (.proof link sigs nonce st config) s = .next s) ∧
      (k.state = .guarding false → k.hello = true →
        let good := sigs = true ∧ nonce = true ∧ st.toNat = s.sec.lc ∧ config = s.sec.config ∧ (s.sec.lc = 1 ∨ s.sec.lc = 2)
        (good → exec (.proof link sigs nonce st config) s = s.answer (s.modLink l fun k => { k with state := .guarding true, stepAt := s.ltime })) ∧
        (¬ good → exec (.proof link sigs nonce st config) s = s.answer ((s.modLink l fun k => { k with state := .rejected }).linkRecord l 0x04 3)))) ∧
    -- going down
    (∀ row ∈ [Instr.linkDown link, .blockLockLoss link],
      (k.state = .down → exec row s = .next s) ∧
      (k.state ≠ .down →
        let a := (s.emit (.flit l .down ((k.rxPos + 4095) % 4096))).linkRecord l 0x01 3
        let lost := (k.retry.filterMap fun e => match e.2 with
          | .packet p => some (some (e.1 % 4096), p)
          | .nak _ => none) ++ k.waiting.map fun p => (none, p)
        let b := a.modLink l fun k => { k with
          state := .down, downAt := some s.ltime, waits := k.waits || decide (k.state = .rejected), hello := false, nextPos := 0, acked := 0, retry := [], replays := 0, rxPos := 0,
          nakSent := false, uncorrAt := [], credits := [], waiting := [], granted := [], rxCredits := [], buffered := [], arb := LinkArb.reset,
          record := if k.state = .up then some ⟨k.epoch, if k.rxPos = 0 then none else some ((k.rxPos + 4095) % 4096), s.ltime⟩ else k.record }
        let b := k.waiting.foldl (fun s p => s.freeBuffered p) b
        let c := { b with routing := b.routing.map fun (e : Nat × Nat) => (e.1, if k.partnerV && e.1 == k.partnerMod && e.2.testBit l then e.2 - 2 ^ l else e.2) }
        exec row s = s.answer (lost.foldl (fun s e => match s.detourBy l e.2 e.1 with
          | (t, true) => t
          | (_, false) => match (s.clearLink l).launch e.2 with
            | .gone t => t
            | .unreachable t => t.drop l e.2 5) c))) ∧
    (k.record = none → exec (.detourRecordExpiry link) s = .next s) ∧
    (∀ r, k.record = some r → exec (.detourRecordExpiry link) s = s.answer ((s.advanceTo (r.at_ + 1000000)).modLink l fun k => { k with record := none })) ∧
    -- flits
    (∀ a : BitVec 12,
      (k.state ≠ .up → exec (.nak link a) s = .next s) ∧
      (k.state = .up →
        let b := s.modLink l fun k => { k.ackTo a.toNat with replay := min (k.replay + 1) 0xFFFF, replays := (k.ackTo a.toNat).replays + 1 }
        (8 ≤ (b.link l).replays → exec (.nak link a) s = s.answer (b.linkDown l)) ∧
        ((b.link l).replays < 8 → exec (.nak link a) s = s.answer (b.resendAll l (b.link l).retry)))) ∧
    (∀ (f : Flit) (told : Told),
      (k.state ≠ .up → exec (.flitReceive link f told) s = .next s) ∧
      (k.state = .up →
        let a := s.modLink l Link.takeClears
        let b := a.modLink l fun k => { k with fecUncorr := min (k.fecUncorr + 1) (2 ^ 32 - 1), uncorrAt := (k.uncorrAt.filter fun t => decide (s.ltime < t + 1000000)) ++ [s.ltime] }
        let c := a.modLink l fun k => { k with fecCorr := min (k.fecCorr + f.corrected.toNat) (2 ^ 32 - 1) }
        let refused (t : State) : State :=
          if (t.link l).nakSent then t
          else (t.modLink l fun k => { k with nakSent := true, retry := k.retry ++ [(k.nextPos, .nak ((k.rxPos + 4095) % 4096))], nextPos := k.nextPos + 1 }).emit
            (.flit l .nak (((t.link l).rxPos + 4095) % 4096))
        let d := c.modLink l fun k => { k.ackTo f.ackSeq.toNat with rxPos := (k.ackTo f.ackSeq.toNat).rxPos + 1, nakSent := false, credits := Tbl.mod 0 (k.ackTo f.ackSeq.toNat).credits f.crSub.toNat fun c => c + f.crSlots.toNat }
        (f.decoded = false → 1000 < (b.link l).uncorrAt.length → exec (.flitReceive link f told) s = s.answer (b.linkDown l)) ∧
        (f.decoded = false → (b.link l).uncorrAt.length ≤ 1000 → exec (.flitReceive link f told) s = s.answer (refused b)) ∧
        (f.decoded = true → f.check = false → exec (.flitReceive link f told) s = s.answer (refused (c.modLink l fun k => { k with guardFail := min (k.guardFail + 1) 0xFFFF }))) ∧
        (f.decoded = true → f.check = true → f.fseq.toNat ≠ (c.link l).rxPos % 4096 → exec (.flitReceive link f told) s = s.answer (refused c)) ∧
        (f.decoded = true → f.check = true → f.fseq.toNat = (c.link l).rxPos % 4096 → exec (.flitReceive link f told) s = s.answer (match f.kind with
          | .idle => d.retryWaiting l
          | .nak => (d.retryWaiting l).nakReceived l f.ackSeq.toNat
          | .down => d.linkDown l
          | .data => f.packets.foldl (fun s p => (s.packetIn l p told).settleSlots l p s) (d.retryWaiting l))))) ∧
    -- routing
    (∀ o, linksOf (s.mask p.target) ≠ [] → (linksOf (s.mask p.target)).getD (p.hash % (linksOf (s.mask p.target)).length) 0 = o →
      ((s.link o).state = .up → s.launch p = .gone (
        if (s.link o).takes p ∧ ∀ q ∈ (s.link o).waiting, q.sub ≠ p.sub then
          (s.modLink o fun k => { k with credits := Tbl.mod 0 k.credits p.sub fun c => c - p.slots, nextPos := k.nextPos + p.flits, retry := k.retry ++ [(k.nextPos + p.flits - 1, .packet p)], arb := k.arb.meter s.ltime p }).emit (.packet o p)
        else s.modLink o fun k => { k with waiting := k.waiting ++ [p] })) ∧
      ((s.link o).state ≠ .up → (s.detourBy o p none).2 = true → s.launch p = .gone (s.detourBy o p none).1)) ∧
    (linksOf (s.mask p.target) = [] → s.launch p = .unreachable s) ∧
    -- packets that are not for this module, or not well formed
    (∀ told, ∀ r ∈ [(Instr.readResp link p, 0x04), (.packetAck link p, 0x05), (.nack link p, 0x06), (.ctrl link p, 0x10), (.recov link p told, 0x11), (.statePacket link p, 0x12),
        (.read link p, 0x01), (.write link p, 0x02), (.memop link p, 0x03)],
      (p.kind ≠ r.2 → exec r.1 s = .next s) ∧
      (p.kind = r.2 → (∀ e ∈ s.inbox, ¬ (e.1 = l ∧ e.2.2.2 = p)) →
        (p.rsv = true → exec r.1 s = s.answer (s.modLink l fun k => { k with hopsDrop := min (k.hopsDrop + 1) 0xFFFF })) ∧
        (p.rsv = false → p.detour = none → p.dstMod.toNat ≠ s.fabAddr →
          let q := { p with hops := p.hops - 1 }
          let stays := ∀ o, s.firstLink q = some o → o / 4 = l / 4
          (p.hops.toNat ≤ 1 → exec r.1 s = s.answer (s.drop l p 7)) ∧
          (1 < p.hops.toNat → ¬ stays → s.pm.st ≠ .ready → exec r.1 s = s.answer (s.drop l p 5)) ∧
          (1 < p.hops.toNat → stays ∨ s.pm.st = .ready → exec r.1 s = s.answer (match s.launch q with
            | .gone s => s
            | .unreachable s => s.drop l p 5))) ∧
        (p.rsv = false → p.detour = none → p.dstMod.toNat = s.fabAddr → s.pm.st ≠ .ready → exec r.1 s = s.answer (s.drop l p 5)) ∧
        (∀ d, p.rsv = false → p.detour = some d → d.viaMod.toNat = s.fabAddr →
          ((∃ v, (s.link d.viaLink.toNat).record = some v ∧ v.had d = true) →
            exec r.1 s = s.answer (s.modLink d.viaLink.toNat fun k => { k with detourDup := min (k.detourDup + 1) 0xFFFF })) ∧
          ((∀ v, (s.link d.viaLink.toNat).record = some v → v.had d = false) →
            exec r.1 s = s.answer (s.routePacket d.viaLink.toNat { p with detour := none } (match r.1 with
              | .recov _ _ told => told
              | _ => Told.none)))))) ∧
    (∀ e, (s.inbox.find? fun e => e.1 == l && e.2.2.2 == p) = some e →
      let earlier := ∃ b ∈ s.inbox.takeWhile fun e => !(e.1 == l && e.2.2.2 == p), samePlace b.2.2.2 p = true
      ∀ r ∈ [(Instr.read link p, 0x01), (.write link p, 0x02), (.memop link p, 0x03)], p.kind = r.2 →
        (earlier → exec r.1 s = .next s) ∧
        (¬ earlier → exec r.1 s = s.answer (match s.tryPeer l e.2.1 e.2.2.1 p with
          | (true, s) => { s with inbox := s.inbox.erase e }
          | (false, s) => s))) ∧
    -- opening
    (p.sealedBy = none → s.openPacket l p = (some (0, none), s)) ∧
    (p.sealedBy ≠ none →
      let h := p.keyh.toNat
      (s.opens p = true → s.openPacket l p = (some ((s.key h).owner, some h), s.modKey h fun k => k.acceptCtr p.srcMod.toNat p.seng.toNat p.ctr.toNat)) ∧
      (s.opens p = false →
        let a := s.modLink l fun k => { k with authFail := min (k.authFail + 1) 0xFFFF }
        s.openPacket l p = (none, if (∀ t, k.authRecAt = some t → t + 1000000 ≤ s.ltime) then (a.linkRecord l 0x05 0).modLink l fun k => { k with authRecAt := some s.ltime } else a)) ∧
      (s.opens p = true ↔ (s.key h).valid = true ∧ (s.key h).type = .link ∧ (s.key h).engines.toNat.testBit ((if p.kind = 0x10 ∨ p.kind = 0x12 ∨ p.cls = 7 then 9 else 8) - 7) = true ∧
        p.sealedBy = some (s.key h).key ∧ (s.key h).takesCtr p.srcMod.toNat p.seng.toNat p.ctr.toNat = true)) ∧
    -- packets for this module
    (p.rsv = false → p.detour = none → p.dstMod.toNat = s.fabAddr → s.pm.st = .ready →
      (∀ told, p.kind = 0x11 → exec (.recov link p told) s = s.answer (s.recovPacket p told)) ∧
      (∀ v, s.openPacket l p = (none, v) → (p.kind = 0x04 → exec (.readResp link p) s = s.answer v) ∧ (p.kind = 0x05 → exec (.packetAck link p) s = s.answer v) ∧
        (p.kind = 0x06 → exec (.nack link p) s = s.answer v) ∧ (p.kind = 0x10 → exec (.ctrl link p) s = s.answer v) ∧ (p.kind = 0x12 → exec (.statePacket link p) s = s.answer v)) ∧
      (∀ (n : Nat) (h : Option Nat) (v : State), s.openPacket l p = (some (n, h), v) →
        -- requests
        (∀ r ∈ [(Instr.read link p, 0x01), (.write link p, 0x02), (.memop link p, 0x03)], p.kind = r.2 → (∀ e ∈ s.inbox, ¬ (e.1 = l ∧ e.2.2.2 = p)) →
          let who : Principal := if n = 0 then .forme p.formeId.toNat else .ctx n
          let waits := s.answer { v with inbox := v.inbox ++ [(l, who, h, p)] }
          let at_ (i : Nat) : Nat := p.addr.toNat / 64 * 64 + 64 * i
          let reply (v : State) (st : Nat) (lines : List (BitVec 512)) (e : Bool) : State :=
            v.sendAnswer h { v.response p (if p.kind = 0x01 then 0x04 else 0x05) st lines with epochBit := e && p.kind == 0x03 }
          ((∃ e ∈ v.inbox, samePlace e.2.2.2 p = true) → exec r.1 s = waits) ∧
          ((∀ e ∈ v.inbox, samePlace e.2.2.2 p = false) →
            (v.partHere p.formeId.toNat p.member.toNat = none → exec r.1 s =
              s.answer (reply (v.record { cause := 0x04, severity := 0, addr := at_ 0, d5 := p.epoch.toNat }) 6 [] false)) ∧
            (∀ part, v.partHere p.formeId.toNat p.member.toNat = some part →
              let req (s : State) (i : Nat) : MemReq := { s.reqAt who part (at_ i) (l / 4) with epoch := p.epoch, cls := p.cls }
              let served : Served :=
                if p.kind = 0x01 then
                  if p.cls = 7 then v.serveLines (fun s i => s.pullRead (req s i) h.isSome) (List.range p.len.toNat)
                  else v.serveLines (fun s i => s.askRead (req s i) .none) (List.range p.len.toNat)
                else if p.kind = 0x02 then
                  if p.cls = 7 then v.serveLines (fun s i => s.throughLine (req s i) (p.lines.getD i 0)) (List.range p.lines.length)
                  else v.serveLines (fun s i => s.askWrite (req s i) (p.lines.getD i 0) .none) (List.range p.lines.length)
                else match mopDecode p.mop.toNat with
                  | some (o, _) =>
                    if o = .cas then ⟨.refused, [], true, [], v, []⟩
                    else v.serveLines (fun s i => s.askOp (req s i) p.mop.toNat ((p.lines.getD i 0).zeroExtend 1024) .none) (List.range p.lines.length)
                  | none => ⟨.refused, [], true, [], v, []⟩
              (served.status = .hold → exec r.1 s = waits) ∧
              let lines := if p.kind = 0x01 ∧ (served.status = .ok ∨ served.status = .nokey ∨ served.status = .deadkey) then served.lines else []
              (served.status ≠ .hold → served.tags = [] →
                exec r.1 s = s.answer (reply (served.s.settle served.evs) served.status.packetStatus lines served.epochBit)) ∧
              (served.status ≠ .hold → served.tags ≠ [] →
                let t := served.s.settle served.evs
                exec r.1 s = s.answer { t with lateAcks := t.lateAcks ++ [⟨served.tags, none, h, some
                  { t.response p (if p.kind = 0x01 then 0x04 else 0x05) served.status.packetStatus lines with epochBit := served.epochBit && p.kind == 0x03 }⟩] })))) ∧
        -- answers
        (∀ r ∈ [(Instr.readResp link p, 0x04), (.packetAck link p, 0x05)], p.kind = r.2 → v.answeredBy p = none → exec r.1 s = s.answer v) ∧
        (∀ o, v.answeredBy p = some o →
          let gone := { v with peerOut := v.peerOut.filter fun x => x ≠ o }
          (∀ r ∈ [(Instr.readResp link p, 0x04), (.packetAck link p, 0x05)], p.kind = r.2 → p.status = 5 ∨ p.status = 7 → exec r.1 s = s.answer (v.endOut o)) ∧
          (p.status ≠ 5 → p.status ≠ 7 →
            (p.kind = 0x04 → ∀ e r, o.use = .stream e r →
              (p.status = 2 → exec (.readResp link p) s = s.answer (gone.streamPoison e r p.addr.toNat)) ∧
              (p.status ≠ 2 → p.status ≠ 0 ∨ (gone.engine e).ofReq r = none → exec (.readResp link p) s = s.answer (gone.readReturned e r (p.lines.getD 0 0))) ∧
              (p.status = 0 → ∀ i t, (gone.engine e).ofReq r = some (i, t) → exec (.readResp link p) s =
                s.answer ((gone.peerFill (e / 4) o.forme o.member t.ctx p.addr.toNat (p.lines.getD 0 0)).readReturned e r (p.lines.getD 0 0)))) ∧
            (p.kind = 0x04 → ∀ part c i, o.use = .refill part c i → exec (.readResp link p) s = s.answer (if p.status = 0 then gone.refillLanded part c i p.lines else gone.refillFailed part c)) ∧
            (p.kind = 0x05 → ∀ e r, o.use = .stream e r → (∀ i t, (gone.engine e).ofReq r = some (i, t) → (SDesc.of t.desc).mop = 0 ∨ p.status ≠ 0) → exec (.packetAck link p) s = s.answer (gone.writeReturned e r)) ∧
            (p.kind = 0x05 → ∀ e r i t, o.use = .stream e r → (gone.engine e).ofReq r = some (i, t) → (SDesc.of t.desc).mop ≠ 0 → p.status = 0 →
              exec (.packetAck link p) s = s.answer ((gone.opAcked t.ctx p.epochBit).writeReturned e r)) ∧
            (p.kind = 0x05 → ∀ part a, o.use = .through part a → exec (.packetAck link p) s = s.answer (gone.throughDone o.tag))) ∧
          (p.kind = 0x06 →
            let w := v.endDetours o.mod
            (∀ part c i, o.use = .refill part c i → exec (.nack link p) s = s.answer ((w.dropPeer o).refillFailed part c)) ∧
            ((∀ part c i, o.use ≠ .refill part c i) → exec (.nack link p) s = s.answer (w.endPeer o)))) ∧
        (p.kind = 0x06 → (∀ o ∈ v.peerOut, ¬ (o.clu = p.srcClu.toNat ∧ o.tag = p.tag.toNat)) → exec (.nack link p) s = s.answer (if p.cls = 7 then v
          else v.modHub p.srcClu.toNat fun k => { k with cnt := { k.cnt with unreach := min (k.cnt.unreach + 1) 255 } })) ∧
        -- CTRL, STATE
        (p.kind = 0x10 → exec (.ctrl link p) s = s.answer (match ctrlOfLine (p.lines.getD 0 0) n with
          | none => v.synCount v.lowestCluster .badmsg
          | some (opc, m) => v.ctrlArrive opc m)) ∧
        (p.kind = 0x12 → (v.stateIn p = none → exec (.statePacket link p) s = s.answer v) ∧
          (∀ w, v.stateIn p = some w → exec (.statePacket link p) s = s.answer (w.sendAnswer h (w.response p 0x05 0 [])))))) ∧
    -- the walk at a module
    (∀ (b : WalkBody) (routes : Bool),
      let here := { b with ret := setHop b.ret b.hop.toNat l, hop := b.hop + 1 }
      let send (s : State) (o wop : Nat) (b : WalkBody) (routes : Bool) : State :=
        if (s.link o).state = .up then s.emit (.walk o wop b routes) else s.modLink o fun k => { k with unreach := min (k.unreach + 1) 0xFFFF }
      let back (s : State) (wop : Nat) (b : WalkBody) : State := send s (hopLink b.ret (b.nhops.toNat - 1)) wop { b with hop := BitVec.ofNat 5 (b.nhops.toNat - 1) } false
      (b.hop.toNat + 1 < b.nhops.toNat →
        exec (.query link b) s = s.answer (send s (hopLink b.route (b.hop.toNat + 1)) 1 here false) ∧
        exec (.assign link b routes) s = s.answer (send s (hopLink b.route (b.hop.toNat + 1)) 3 here routes)) ∧
      (b.nhops.toNat ≤ b.hop.toNat + 1 →
        (let own := s.walk.wstatus = 1 ∧ b.walkId.toNat = s.walk.walkId
          let a := if s.isRoot = true ∧ ¬ own then
              ({ s with walk := { s.walk with wstatus := 3, queries := [], assigns := [] } } : State).linkRecord 0 0x07 3 else s
          exec (.query link b) s = s.answer (back a 2 { here with
            addr := BitVec.ofNat 16 a.fabAddr, addrV := a.fabV, root := a.isRoot, up := BitVec.ofNat 16 a.upMask, serial := BitVec.ofNat 112 a.sec.serial })) ∧
        exec (.assign link b routes) s = s.answer (back { s with
            fabAddr := b.addr.toNat, fabV := true,
            routing := if routes then treeRoutes b.addr.toNat ((linksOf b.child.toNat).map fun i => (i, (b.ends.getD i 0).toNat)) (some b.parentLink.toNat) else s.routing }
          4 { here with addrV := true, root := s.isRoot }))) ∧
    -- the walk at the root
    (∀ b : WalkBody, b.hop.toNat ≠ 0 → ∀ r ∈ [(Instr.queryAns b, 2), (.assignAck b, 4)],
      exec r.1 s = s.answer (s.sendWalk (hopLink b.ret (b.hop.toNat - 1)) r.2 { b with hop := b.hop - 1 } false)) ∧
    (∀ b : WalkBody, b.hop.toNat = 0 →
      let route := hopsOf b.route b.nhops.toNat
      let w := s.walk
      let qs := w.queries.filter fun q => q.route ≠ route
      let next (w : Walk) : State := ({ s with walk := w } : State).walkGoOn
      (w.wstatus ≠ 1 ∨ b.walkId.toNat ≠ w.walkId → exec (.queryAns b) s = .next s ∧ exec (.assignAck b) s = .next s) ∧
      (w.wstatus = 1 → b.walkId.toNat = w.walkId →
        exec (.assignAck b) s = s.answer ({ s with walk := { w with assigns := w.assigns.filter fun i => match w.nodes[i]? with
          | some n => n.route != route
          | none => true } } : State).walkDone ∧
        ((∀ q ∈ w.queries, q.route = route → q.tries = 0) → exec (.queryAns b) s = .next s) ∧
        (∀ q, (w.queries.find? fun q => q.route == route && decide (q.tries ≠ 0)) = some q →
          let known := ∃ n ∈ w.nodes, n.serial = b.serial.toNat
          let ret := hopsOf b.ret b.nhops.toNat
          let n : WalkNode := ⟨b.serial.toNat, route, ret, q.parent, route.getLastD 0, b.up.toNat, if b.addrV then some b.addr.toNat else none, false⟩
          let more : List WalkQuery := ((linksOf b.up.toNat).filter fun l => some l ≠ ret.getLast?).map fun l => ⟨route ++ [l], w.nodes.length, 0, 0⟩
          (known → exec (.queryAns b) s = s.answer (next { w with queries := qs })) ∧
          (¬ known → b.root = true → exec (.queryAns b) s = s.answer (({ s with walk := { w with wstatus := 3, queries := [], assigns := [] } } : State).linkRecord 0 0x07 3)) ∧
          (¬ known → b.root = false → 65536 ≤ w.nodes.length → exec (.queryAns b) s = s.answer (next { w with queries := qs, beyond := w.beyond + 1 })) ∧
          (¬ known → b.root = false → w.nodes.length < 65536 → 16 ≤ route.length →
            exec (.queryAns b) s = s.answer (next { w with nodes := w.nodes ++ [n], queries := qs, beyond := w.beyond + more.length })) ∧
          (¬ known → b.root = false → w.nodes.length < 65536 → route.length < 16 →
            exec (.queryAns b) s = s.answer (next { w with nodes := w.nodes ++ [n], queries := qs ++ more }))))) ∧
    (∀ route : List LinkId,
      let r := route.map fun l => l.val
      ((∀ q ∈ s.walk.queries, q.route = r → q.tries = 0) → exec (.queryTimeout route) s = .next s) ∧
      (∀ q, (s.walk.queries.find? fun q => q.route == r && decide (q.tries ≠ 0)) = some q →
        let a := s.advanceTo (q.sentAt + 1000000)
        let b := a.sendWalk (r.headD 0) 1 (a.queryBody r) false
        (q.tries < 3 → exec (.queryTimeout route) s = s.answer { b with walk := { b.walk with
          queries := b.walk.queries.map fun p => if p.route = r then { p with tries := p.tries + 1, sentAt := b.ltime } else p } }) ∧
        (3 ≤ q.tries → exec (.queryTimeout route) s = s.answer ({ a with walk := { a.walk with queries := a.walk.queries.filter fun p => p.route ≠ r } } : State).walkGoOn)))

/-! ### The Ethernet host attachment -/

/-- Ports, host connections, their planes, and RDMA in both directions (R294, R476 to R491): a port takes the highest common mode; a connection opens, is restored, switches planes, breaks and closes; a host's operation is taken in
PSEQ order and reaches its space, or is answered by a NAK; an operation of the module ends with its data or acknowledgement, is sent again after 32 µs, and paces its queue pair. Auto-negotiation and the link-local address are log
entry 102; what a line in partition memory holds is stated by ReadsOfALineOfMemory and WritesAndOperationsOnALineOfMemory. -/
def Obligations.EthernetHostAttachment : Prop :=
  ∀ (s : State) (port : PortId) (conn : ConnId) (plane : Fin 2) (m : SvcMsg),
    let p := port.val
    let k := s.port p
    let n := conn.val
    let c := s.conn n
    let pl := plane.val
    let blank : SvcMsg := ⟨0, 0, 0, 0, 0, 0, 0, 0, 0, 0⟩
    let svc (s : State) (n pl sop : Nat) (m : SvcMsg) : State := s.emit (.service n pl sop m)
    let ans (s : State) (n pl sop status : Nat) (b : SvcMsg) : State := svc s n pl sop { b with status := BitVec.ofNat 8 status, conn := BitVec.ofNat 16 n, reqId := m.reqId }
    let plain := m.status = 0 ∧ m.w1 = 0 ∧ m.w2 = 0 ∧ m.w3 = 0 ∧ m.w4 = 0 ∧ m.w5 = 0 ∧ m.w6 = 0 ∧ m.w7 = 0
    -- ports
    (∀ (partner : BitVec 6) (lane1 : Bool),
      let runs := (s.pm.st = .ready ∨ (s.pm.st = .booting ∧ 6 < s.pm.step)) ∧ s.dieFenced.contains (2 * (p / 4)) = false ∧ s.power.railsOff.any (fun r => decide (32 ≤ r ∧ r % 2 = p / 4)) = false
      let common := (rangeFrom 1 6).filter fun m => bit k.modesEn (m - 1) && bit partner.toNat (m - 1)
      let best := (common.filter fun m => lane1 || decide (3 ≤ m)).headD 0
      (¬ runs → exec (.autoNegotiation port partner lane1) s = .next s) ∧
      (runs → exec (.autoNegotiation port partner lane1) s = s.answer ((if best = 0 then s.portDown p else s).modPort p fun k => { k with
        up := decide (best ≠ 0), mode := best, lane1Fail := !lane1 && common.any fun m => decide (m < 3) }))) ∧
    (k.up = false → exec (.portDown port) s = .next s) ∧
    (k.up = true → exec (.portDown port) s = s.answer (
      ((s.conns.filter fun e => e.2.st == .up && decide (e.2.portOn (p / 4) = p)).map fun e => e.1).foldl (fun s n => s.planeFails n (p / 4))
        (s.modPort p fun k => { k with up := false, mode := 0 }))) ∧
    (∀ a : BitVec 32, exec (.arp port a) s = if k.up = true ∧ k.ipv4V = true ∧ a.toNat = k.ipv4 then s.answer (s.emit (.arpReply p a.toNat)) else .next s) ∧
    (∀ a : BitVec 128, exec (.neighbourDiscovery port a) s =
      if k.up = true ∧ ((k.ipv6V = true ∧ a.toNat = k.ipv6) ∨
          a.toNat = 0xFE80 * 2 ^ 112 + ((bits k.mac 47 24) ^^^ 0x020000) * 2 ^ 40 + 0xFFFE * 2 ^ 24 + bits k.mac 23 0)
        then s.answer (s.emit (.ndReply p a.toNat)) else .next s) ∧
    (∀ data, exec (.icmpEcho port data) s = if k.up = true then s.answer (s.emit (.echoReply p data)) else .next s) ∧
    (∀ prio pause, exec (.priorityFlowControl port prio pause) s =
      if k.up = true ∧ k.pfcEn = true ∧ prio.val = k.pfcPrio then s.answer (s.modPort p fun k => { k with paused := pause }) else .next s) ∧
    -- CONN_REQ, CRING_SET, CLOSE
    (let row := Instr.connReq port m
      let at_ := p / 4
      let other := bits m.w5.toNat 50 48 + (if p < 4 then 4 else 0)
      let t := bits m.w7.toNat 31 0
      let good := m.status = 0 ∧ bits m.w5.toNat 63 55 = 0 ∧ bits m.w5.toNat 50 48 < 4 ∧ bits m.w5.toNat 53 51 < 7 ∧ bits m.w6.toNat 63 48 = 0 ∧ bits m.w7.toNat 63 48 = 0 ∧ (t = 0 ∨ (10 ≤ t ∧ t ≤ 60000))
      let old := s.conn m.conn.toNat
      let restored := old.st = .broken ∧ s.ltime ≤ old.brokenAt + 60000000000 ∧ old.keytag = bits m.w7.toNat 47 32 ∧ m.conn.toNat < 256
      let free := (List.range 256).find? fun i => decide ((s.conn i).st = .free)
      let tag := (Config.freeBits 16 (s.freeIx + 4)).toNat
      let told (v : State) (n : Nat) : State := ans v n at_ 0x02 0 { blank with
        w5 := BitVec.ofNat 64 ((v.conn n).modQpn.getD 0 0 + (v.conn n).modQpn.getD 1 0 * 2 ^ 24),
        w6 := BitVec.ofNat 64 ((v.conn n).modQpn.getD 2 0 + (v.conn n).modQpn.getD 3 0 * 2 ^ 24), w7 := BitVec.ofNat 64 ((v.conn n).keytag * 2 ^ 32) }
      (s.pm.st ≠ .ready ∨ k.up = false → exec row s = .next s) ∧
      (s.pm.st = .ready → k.up = true →
        (¬ good → exec row s = s.answer (ans s m.conn.toNat at_ 0x02 2 blank)) ∧
        (good → bit m.w5.toNat 54 = true →
          (¬ restored → exec row s = s.answer (ans s m.conn.toNat at_ 0x02 4 blank)) ∧
          (restored → (s.port other).up = false → exec row s = s.answer (ans s m.conn.toNat at_ 0x02 3 blank)) ∧
          (restored → (s.port other).up = true → exec row s =
            s.answer ((told (({ s with freeIx := s.freeIx + 4 } : State).modConn m.conn.toNat fun c => ({ s with freeIx := s.freeIx + 4 } : State).connFrom c p m s.freeIx) m.conn.toNat).flushConn
              m.conn.toNat))) ∧
        (good → bit m.w5.toNat 54 = false →
          (free = none → exec row s = s.answer (ans s m.conn.toNat at_ 0x02 1 blank)) ∧
          (∀ i, free = some i →
            ((s.port other).up = false → exec row s = s.answer (ans s m.conn.toNat at_ 0x02 3 blank)) ∧
            ((s.port other).up = true → exec row s = s.answer (told (({ s with freeIx := s.freeIx + 5 } : State).modConn i fun _ =>
              { (({ s with freeIx := s.freeIx + 5 } : State).connFrom Conn.reset p m s.freeIx) with keytag := if tag = 0 then 1 else tag }) i)))))) ∧
    (∀ (d : Conn) (ix : Nat),
      let v := s.connFrom d p m ix
      let o := bits m.w5.toNat 50 48
      v.st = .up ∧ v.active = p / 4 ∧ (p < 4 → v.portA = p ∧ v.portB = 4 + o) ∧ (4 ≤ p → v.portA = o ∧ v.portB = p) ∧ v.cls = bits m.w5.toNat 53 51 ∧ v.failA = false ∧ v.failB = false ∧ v.switching = none ∧
        v.prTimeout = (if bits m.w7.toNat 31 0 = 0 then 1000 else bits m.w7.toNat 31 0) ∧ v.keytag = d.keytag ∧ v.lastPseq = d.lastPseq ∧
        v.hostQpn = [bits m.w5.toNat 23 0, bits m.w5.toNat 47 24, bits m.w6.toNat 23 0, bits m.w6.toNat 47 24] ∧
        v.gidA = m.w1.toNat + m.w2.toNat * 2 ^ 64 ∧ v.gidB = m.w3.toNat + m.w4.toNat * 2 ^ 64 ∧
        v.rates.map (fun r => r.rate) = [modeRate (s.port v.portA).mode, modeRate (s.port v.portB).mode, modeRate (s.port v.portA).mode, modeRate (s.port v.portB).mode]) ∧
    (let row := Instr.cringSet conn m
      let log := bits m.w2.toNat 36 32
      let r := bits m.w2.toNat 48 37
      let field := m.status ≠ 0 ∨ bits m.w2.toNat 63 49 ≠ 0 ∨ m.w3 ≠ 0 ∨ m.w4 ≠ 0 ∨ m.w5 ≠ 0 ∨ m.w6 ≠ 0 ∨ m.w7 ≠ 0 ∨ (log ≠ 0 ∧ (log < 6 ∨ 16 < log))
      let inUse := (s.cring r).defined = true ∧ ((s.cring r).conn ≠ n ∨ s.ringNamed r = true)
      (c.st ≠ .up → exec row s = .next s) ∧
      (c.st = .up → field → exec row s = s.answer (ans s n c.active 0x04 2 blank)) ∧
      (c.st = .up → ¬ field → inUse → exec row s = s.answer (ans s n c.active 0x04 5 blank)) ∧
      (c.st = .up → ¬ field → ¬ inUse → exec row s = s.answer ((ans (s.modCring r fun k => if log = 0 then CRing.reset else { CRing.reset with
        defined := true, conn := n, addr := m.w1.toNat, rkey := bits m.w2.toNat 31 0, log := log, phase := true, waiting := k.waiting }) n c.active 0x04 0 blank).flushRing r))) ∧
    (c.st ≠ .up → exec (.closeConn conn m) s = .next s) ∧
    (c.st = .up → ¬ plain → exec (.closeConn conn m) s = s.answer (ans s n c.active 0x06 2 blank)) ∧
    (c.st = .up → plain → exec (.closeConn conn m) s = s.answer ((ans s n c.active 0x06 0 blank).closeConn n)) ∧
    (c.st = .broken → exec (.connectionBreakExpiry conn) s = s.answer ((s.advanceTo (c.brokenAt + 60000000000)).closeConn n)) ∧
    (c.st ≠ .broken → exec (.connectionBreakExpiry conn) s = .next s) ∧
    -- planes
    (c.st ≠ .up → exec (.planeFailure conn plane) s = .next s) ∧
    (c.st = .up → (s.port (c.portOn pl)).up = false → exec (.planeFailure conn plane) s = s.answer (s.planeFails n pl)) ∧
    (c.st = .up → (s.port (c.portOn pl)).up = true →
      (∀ t, c.probe pl = some t → exec (.planeFailure conn plane) s = s.answer ((s.advanceTo (t + 150000)).planeFails n pl)) ∧
      (c.probe pl = none →
        (∀ o, (s.rdmaOut.find? fun o => o.conn == n && !o.held) = some o → c.active = pl → exec (.planeFailure conn plane) s = s.answer ((s.advanceTo (max o.sentAt c.ackAt + 150000)).planeFails n pl)) ∧
        ((s.rdmaOut.find? fun o => o.conn == n && !o.held) = none ∨ c.active ≠ pl → exec (.planeFailure conn plane) s = .next s))) ∧
    (
      let a := s.modConn n fun c => c.mark pl true
      (c.st ≠ .up ∨ c.failed pl = true → s.planeFails n pl = s) ∧
      (c.st = .up → c.failed pl = false → c.failed (1 - pl) = true → s.planeFails n pl = s.breakConn n) ∧
      (c.st = .up → c.failed pl = false → c.failed (1 - pl) = false → c.active ≠ pl → s.planeFails n pl = a) ∧
      (c.st = .up → c.failed pl = false → c.failed (1 - pl) = false → c.active = pl →
        let b := a.modConn n fun c => { c with switching := some ⟨2, s.ltime⟩ }
        s.planeFails n pl = svc b n (1 - pl) 0x07 { blank with conn := BitVec.ofNat 16 n, w1 := (b.conn n).lastWord })) ∧
    (c.st ≠ .up ∨ c.failed pl = true → exec (.pairSwitch conn plane m) s = .next s) ∧
    (c.st = .up → c.failed pl = false →
      let a := ans s n pl 0x08 0 { blank with w1 := match c.lastPseq with
        | some q => BitVec.ofNat 64 (q % 2 ^ 16 + 2 ^ 16)
        | none => 0 }
      (¬ plain → exec (.pairSwitch conn plane m) s = s.answer (ans s n pl 0x08 2 blank)) ∧
      (plain → c.active = pl → exec (.pairSwitch conn plane m) s = s.answer (a.modConn n fun c => c.mark (1 - pl) true)) ∧
      (plain → c.active ≠ pl → exec (.pairSwitch conn plane m) s = s.answer (a.switchTo n pl))) ∧
    (c.st ≠ .up ∨ c.switching = none → exec (.pairSwitchAck conn) s = .next s ∧ exec (.pairSwitchRetry conn) s = .next s) ∧
    (∀ w, c.st = .up → c.switching = some w →
      let a := s.advanceTo (w.sentAt + 300000)
      let b := a.modConn n fun c => { c with switching := some ⟨w.left - 1, a.ltime⟩ }
      exec (.pairSwitchAck conn) s = s.answer (s.switchTo n (1 - c.active)) ∧
      (w.left = 0 → exec (.pairSwitchRetry conn) s = s.answer (a.breakConn n)) ∧
      (w.left ≠ 0 → exec (.pairSwitchRetry conn) s = s.answer (svc b n (1 - c.active) 0x07 { blank with conn := BitVec.ofNat 16 n, w1 := (b.conn n).lastWord }))) ∧
    (s.switchTo n pl =
      let a := s.modConn n fun c => { (c.mark (1 - pl) true) with active := pl, switching := none }
      let b := { a with nets := Tbl.mod NetBlock.reset a.nets pl fun k => { k with planeSwitches := min (k.planeSwitches + 1) (2 ^ 32 - 1) } }
      let d := (b.rdmaOut.filter fun o => o.conn == n && !o.held).foldl (fun s o => s.sendRdma o) b
      { d with rdmaOut := d.rdmaOut.map fun o => if o.conn = n ∧ !o.held then { o with tries := 0, sentAt := b.ltime } else o }) ∧
    (s.breakConn n = (s.modConn n fun c => { c with st := .broken, failA := true, failB := true, switching := none, brokenAt := s.ltime }).rdmaLostAll n) ∧
    (
      let here := c.st = .up ∧ (s.port (c.portOn pl)).up = true
      (¬ here → exec (.pairProbe conn plane m) s = .next s) ∧
      (here → ¬ plain → exec (.pairProbe conn plane m) s = s.answer (ans s n pl 0x0A 2 blank)) ∧
      (here → plain → exec (.pairProbe conn plane m) s = s.answer ((ans s n pl 0x0A 0 blank).modConn n fun c =>
        if c.failed pl = true ∧ c.active ≠ pl then c.mark pl false else c)) ∧
      (¬ here ∨ (c.probe pl ≠ none ∧ c.failed pl = false) → exec (.pairProbeSend conn plane) s = .next s) ∧
      (here → c.probe pl = none ∨ c.failed pl = true → exec (.pairProbeSend conn plane) s =
        s.answer (svc (s.modConn n fun c => c.setProbe pl (some s.ltime)) n pl 0x09 { blank with conn := BitVec.ofNat 16 n }))) ∧
    (c.st ≠ .up ∨ c.probe pl = none → exec (.pairProbeAns conn plane) s = .next s) ∧
    (c.st = .up → c.probe pl ≠ none → exec (.pairProbeAns conn plane) s = s.answer (s.modConn n fun c =>
      if (c.setProbe pl none).failed pl = true ∧ (c.setProbe pl none).active ≠ pl then (c.setProbe pl none).mark pl false else c.setProbe pl none)) ∧
    -- a host's operations
    (∀ (rkey : BitVec 32) (va : BitVec 64) (data : List Byte) (len : BitVec 32),
      let space := rkey.toNat / 2 ^ 30
      let pseq := va.toNat / 2 ^ 48
      let a := va.toNat % 2 ^ 48
      let base := bits a 39 0
      let part := bits a 45 40
      let inside (len : Nat) : Prop := rkey.toNat % 2 ^ 30 = c.keytag ∧ ((space = 0 ∧ a + len ≤ 2 ^ 26) ∨
        (space = 1 ∧ a < 2 ^ 46 ∧ part < 48 ∧ (s.part part).inUse = true ∧ ((s.part part).lay.place base).isSome = true ∧ ((s.part part).lay.place (base + (len - 1))).isSome = true) ∨
        (space = 2 ∧ a + len ≤ 64 * 2 ^ s.adminLog))
      let runs := s.planeQuiesced n pl = false ∧ s.pm.st = .ready ∧ c.st = .up ∧ c.failed pl = false
      let dup := ∃ last, c.lastPseq = some last ∧ (last + 2 ^ 16 - pseq) % 2 ^ 16 ≤ 1023
      let new := c.lastPseq = none ∨ ∃ last, c.lastPseq = some last ∧ ¬ (last + 2 ^ 16 - pseq) % 2 ^ 16 ≤ 1023 ∧ pseq = (last + 1) % 2 ^ 16
      let counted (s : State) : State := s.modPort ((s.conn n).portOn pl) fun k => { k with dupOps := min (k.dupOps + 1) (2 ^ 32 - 1) }
      let ran (s : State) : State := s.modConn n fun c => { c with lastPseq := some pseq, held := none }
      -- one that comes after the next operation, which waits, waits behind it
      let behind := ∃ w, c.held = some w ∧ 1 ≤ (pseq + 2 ^ 16 - w) % 2 ^ 16 ∧ (pseq + 2 ^ 16 - w) % 2 ^ 16 ≤ 1023
      let waits (s : State) : State := s.modConn n fun c => { c with held := some pseq }
      let bells (len : Nat) : Prop := a < 0x610000 ∧ 0x600000 < a + len ∧ ∃ k ∈ s.lateAcks, ∃ h, k.conn = some h ∧ h.1 = n
      let acked (s : State) : State := s.emit (.rdmaAck n pl pseq)
      let refused (remote : Bool) := s.answer (s.emit (.rdmaNak n pl pseq remote))
      let form (len : Nat) : Prop := a % 8 = 0 ∧ len % 8 = 0 ∧ len ≤ 4096
      let w := Instr.rdmaWrite conn plane rkey va data
      let r := Instr.rdmaRead conn plane rkey va len
      (¬ runs → exec w s = .next s ∧ exec r s = .next s) ∧
      (runs → ¬ inside data.length → exec w s = refused true) ∧
      (runs → inside data.length → ¬ dup → ¬ new → behind → exec w s = .next s) ∧
      (runs → inside data.length → ¬ dup → ¬ new → ¬ behind → exec w s = refused false) ∧
      (runs → inside data.length → dup → exec w s = s.answer (acked (counted s))) ∧
      (runs → inside data.length → new →
        (space = 0 → bells data.length → exec w s = s.answer (waits s)) ∧
        (space = 0 → ¬ bells data.length → form data.length → exec w s = s.answer (acked (ran (s.writeWords (.host n) a (wordsOfBytes data)).1))) ∧
        (space = 0 → ¬ bells data.length → ¬ form data.length → exec w s = refused false) ∧
        (space = 1 →
          let u := s.hostStore (s.hostReq n pl pseq part) base data (lineNumbers base data.length)
          let v := (u.s.freeHost n pseq).settle u.evs
          let done := if u.refused then v.modPort (c.portOn pl) fun k => { k with memRefused := min (k.memRefused + 1) (2 ^ 32 - 1) } else v
          (u.held = true → exec w s = s.answer (waits (s.holdHost n pl pseq part (base / 64)))) ∧
          (u.held = false → u.tags = [] → exec w s = s.answer (acked (ran done))) ∧
          (u.held = false → u.tags ≠ [] → exec w s = s.answer { ran done with lateAcks := done.lateAcks ++ [⟨u.tags, some (n, pl, pseq), none, none⟩] })) ∧
        (space = 2 → exec w s = s.answer (acked (ran { s with recordArea := s.recordArea.writeBytes (s.adminBase + a) data })))) ∧
      (runs → ¬ inside len.toNat → exec r s = refused true) ∧
      (runs → inside len.toNat → ¬ dup → ¬ new → behind → exec r s = .next s) ∧
      (runs → inside len.toNat → ¬ dup → ¬ new → ¬ behind → exec r s = refused false) ∧
      (runs → inside len.toNat → space = 0 → ¬ form len.toNat → exec r s = refused false) ∧
      (runs → inside len.toNat → dup ∨ new → space = 0 → form len.toNat → exec r s = s.answer (
        (if (c.placeOf pseq) = .duplicate then counted s else ran s).emit (.rdmaResponse n pl pseq ((List.range (len.toNat / 8)).flatMap fun i => leBytes (s.regRead (a + 8 * i)) 8)))) ∧
      (runs → inside len.toNat → dup ∨ new → space = 1 →
        let ls := lineNumbers base len.toNat
        let u := s.askReads (s.hostReq n pl pseq part) ls
        let v := (u.2.1.freeHost n pseq).settle u.2.2
        ((∃ o ∈ u.1, o.status = .hold) → exec r s = s.answer (
          (fun (t : State) => if dup then t else waits t) (s.holdHost n pl pseq part (base / 64)))) ∧
        ((∀ o ∈ u.1, o.status ≠ .hold) → exec r s = s.answer (
          (if (c.placeOf pseq) = .duplicate then counted v else ran v).emit (.rdmaResponse n pl pseq (((u.1.flatMap fun o => bytesOfLine o.data).drop (base % 64)).take len.toNat))))) ∧
      (runs → inside len.toNat → dup ∨ new → space = 2 → exec r s = s.answer (
        (if (c.placeOf pseq) = .duplicate then counted s else ran s).emit (.rdmaResponse n pl pseq (s.recordArea.readBytes (s.adminBase + a) len.toNat)))) ∧
      (c.placeOf pseq = .duplicate ↔ dup)) ∧
    -- the module's operations
    (∀ (op : Nat) (ok : Bool),
      let found := s.rdmaOut.find? fun o => o.id == op && !o.held
      (found = none → exec (.roceAcknowledge op ok) s = .next s ∧ exec (.roceAckTimeout op) s = .next s) ∧
      (∀ o, found = some o →
        exec (.roceAcknowledge op false) s = s.answer (s.rdmaGone op) ∧
        (o.isRead = true → exec (.roceAcknowledge op true) s = .next s) ∧
        (o.isRead = false →
          let a := s.modConn o.conn fun c => { c with ackAt := s.ltime }
          (∀ e r, o.use = .stream e r → exec (.roceAcknowledge op true) s = s.answer ((a.endRdma op).writeReturned e r)) ∧
          ((∀ e r, o.use ≠ .stream e r) → exec (.roceAcknowledge op true) s = s.answer (a.endRdma op))) ∧
        (3 ≤ o.tries ∨ (s.conn o.conn).st ≠ .up → exec (.roceAckTimeout op) s = .next s) ∧
        (o.tries < 3 → (s.conn o.conn).st = .up →
          let a := s.advanceTo (o.sentAt + 32000 * (o.tries + 1))
          exec (.roceAckTimeout op) s = s.answer { (a.emit (match o.use with
              | .group r i es => .completion r i es
              | .notice r => .notify r
              | _ => if o.isRead then .rdmaRead o.conn o.id o.addr o.rkey o.len else .rdmaWrite o.conn o.id o.addr o.rkey o.data)) with
            rdmaOut := a.rdmaOut.map fun x => if x.id = op then { x with tries := o.tries + 1 } else x }))) ∧
    (∀ (op : Nat) (data : List Byte),
      let found := s.rdmaOut.find? fun o => o.id == op && o.isRead && !o.held
      (found = none → exec (.rdmaReadResponse op data) s = .next s) ∧
      (∀ o, found = some o →
        let got := o.got ++ data
        let s := s.modConn o.conn fun c => { c with ackAt := s.ltime }
        let a := s.endRdma op
        (got.length < o.len → exec (.rdmaReadResponse op data) s = s.answer { s with rdmaOut := s.rdmaOut.map fun x => if x.id = op then { x with got := got } else x }) ∧
        (o.len ≤ got.length →
          (∀ e r, o.use = .stream e r → exec (.rdmaReadResponse op data) s = s.answer (a.readReturned e r (BitVec.ofNat 512 (leNat (got.take o.len))))) ∧
          (∀ q i, o.use = .bulk q i → exec (.rdmaReadResponse op data) s = s.answer (a.modCmd q i fun c => { c with bulk := some (got.take o.len) })) ∧
          (∀ q i j, o.use = .refill q i j → exec (.rdmaReadResponse op data) s = s.answer (a.refillLanded q i j (linesOf (got.take o.len))))))) ∧
    (∀ op o, (s.rdmaOut.find? fun o => o.id == op) = some o →
      (∀ e r, o.use = .stream e r → s.rdmaGone op = s.rdmaFailed op) ∧
      (∀ q i, o.use = .bulk q i → s.rdmaGone op = (s.endRdma op).finish q i { status := St.refused, detail := Dt.bulkRead }) ∧
      (∀ q i j, o.use = .refill q i j → s.rdmaGone op = (s.endRdma op).refillFailed q i)) ∧
    (∀ qp : BitVec 24,
      let q := qp.toNat
      let set (s : State) (f : QpRate → QpRate) : State := s.modConn n fun c => { c with rates := c.rates.zipIdx.map fun e => if e.2 = q then f e.1 else e.1 }
      (exec (.cnp conn qp) s = s.answer (set s fun r =>
        if (∃ t, r.lastDec = some t ∧ s.ltime < t + 25000) then r else { r with prev := r.rate, rate := max 1000 (3 * r.rate / 4), lastDec := some s.ltime })) ∧
      (c.rates.length ≤ q → exec (.rateIncrease conn qp) s = .next s ∧ exec (.ceMarkedPacket conn qp) s = .next s) ∧
      (∀ r, c.rates[q]? = some r →
        let a := s.advanceTo (max (r.lastDec.getD 0) r.lastStep + 50000)
        exec (.rateIncrease conn qp) s = s.answer (set a fun r => { r with
          rate := min (modeRate (a.port ((a.conn n).portOn (q % 2))).mode) (r.rate + 4000 + (r.prev - r.rate) / 2), lastStep := a.ltime }) ∧
        ((∃ t, r.lastCnp = some t ∧ s.ltime < t + 25000) → exec (.ceMarkedPacket conn qp) s = .next s) ∧
        ((∀ t, r.lastCnp = some t → t + 25000 ≤ s.ltime) → exec (.ceMarkedPacket conn qp) s = s.answer ((set s fun r => { r with lastCnp := some s.ltime }).emit (.cnp n q)))))
end

