-- ==== Sys2Proof/Laws/Tables.lean ====
section
/-! SUPPORT. Laws of sparse tables and byte memories: a read after a write, and the canonical form that every write keeps. -/

namespace Sys2Proof.Machine

/-! ### Tables -/

theorem Tbl.get_set_same {α : Type} (d : α) (t : Tbl α) (k : Nat) (v : α) : Tbl.get d (Tbl.set t k v) k = v := by
  induction t with
  | nil => simp [Tbl.set, Tbl.get]
  | cons e r ih =>
    obtain ⟨j, w⟩ := e
    by_cases h1 : k < j
    · simp [Tbl.set, Tbl.get, h1]
    · by_cases h2 : j = k
      · simp [Tbl.set, Tbl.get, h2]
      · simp [Tbl.set, Tbl.get, h1, h2, ih]

theorem Tbl.get_set_other {α : Type} (d : α) (t : Tbl α) (k i : Nat) (v : α) (h : i ≠ k) :
    Tbl.get d (Tbl.set t k v) i = Tbl.get d t i := by
  induction t with
  | nil => simp [Tbl.set, Tbl.get, Ne.symm h]
  | cons e r ih =>
    obtain ⟨j, w⟩ := e
    by_cases h1 : k < j
    · simp [Tbl.set, Tbl.get, h1, Ne.symm h]
    · by_cases h2 : j = k
      · subst h2
        simp [Tbl.set, Tbl.get, Ne.symm h]
      · by_cases h3 : j = i
        · subst h3
          simp [Tbl.set, Tbl.get, h1, h2]
        · simp [Tbl.set, Tbl.get, h1, h2, h3, ih]

/-- What a table reads after one entry has been written. -/
@[simp] theorem Tbl.get_set {α : Type} (d : α) (t : Tbl α) (k i : Nat) (v : α) :
    Tbl.get d (Tbl.set t k v) i = if i = k then v else Tbl.get d t i := by
  by_cases h : i = k
  · simp [h, Tbl.get_set_same]
  · simp [h, Tbl.get_set_other]

/-- Of two writes of one entry the second stands. -/
@[simp] theorem Tbl.set_set {α : Type} (t : Tbl α) (k : Nat) (v w : α) : Tbl.set (Tbl.set t k v) k w = Tbl.set t k w := by
  induction t with
  | nil => simp [Tbl.set]
  | cons p r ih =>
    obtain ⟨j, u⟩ := p
    simp only [Tbl.set]
    split
    · simp [Tbl.set]
    · split
      · simp [Tbl.set]
      · rename_i h1 h2
        simp [Tbl.set, h1, h2, ih]

/-- What a table reads after one entry has been changed. -/
@[simp] theorem Tbl.get_mod {α : Type} (d : α) (t : Tbl α) (k i : Nat) (f : α → α) :
    Tbl.get d (Tbl.mod d t k f) i = if i = k then f (Tbl.get d t k) else Tbl.get d t i := by
  simp [Tbl.mod]

/-- What a table reads after one entry has gone. -/
@[simp] theorem Tbl.get_del {α : Type} (d : α) (t : Tbl α) (k i : Nat) :
    Tbl.get d (Tbl.del t k) i = if i = k then d else Tbl.get d t i := by
  simp only [Tbl.del, ne_eq, decide_not]
  induction t with
  | nil => simp [Tbl.get]
  | cons e r ih =>
    obtain ⟨j, w⟩ := e
    by_cases h : j = k
    · subst h
      by_cases g : i = j
      · simp [g] at ih ⊢; exact ih
      · simp [ih, g, Tbl.get, Ne.symm g]
    · by_cases g : j = i
      · subst g; simp [Tbl.get, h]
      · simp [Tbl.get, h, g, ih]

@[simp] theorem Tbl.get_nil {α : Type} (d : α) (i : Nat) : Tbl.get d ([] : Tbl α) i = d := rfl

/-! ### Byte memories -/

/-- Whether a byte of address `a` is listed. -/
def Mem.lists (m : Mem) (a : Nat) : Bool := m.any fun e => e.1 == a

theorem Mem.read_erase (m : Mem) (a i : Nat) :
    Mem.read (Mem.erase a m) i = if i = a then Mem.unlisted else Mem.read m i := by
  induction m with
  | nil => simp [Mem.erase, Mem.read]
  | cons e r ih =>
    obtain ⟨j, v⟩ := e
    by_cases h : j = a
    · by_cases hi : i = a
      · subst hi
        subst h
        simpa [Mem.erase] using ih
      · simp [Mem.erase, Mem.read, h, hi, ih, Ne.symm hi]
    · by_cases hi : j = i
      · subst hi
        simp [Mem.erase, Mem.read, h]
      · simp [Mem.erase, Mem.read, h, hi, ih]

theorem Mem.lists_erase (m : Mem) (a : Nat) : Mem.lists (Mem.erase a m) a = false := by
  induction m with
  | nil => rfl
  | cons e r ih =>
    obtain ⟨j, v⟩ := e
    by_cases h : j = a
    · simpa [Mem.erase, h] using ih
    · simp [Mem.lists] at ih
      simp [Mem.lists, Mem.erase, h]
      exact ih

theorem Mem.read_insert (m : Mem) (a i : Nat) (b : Byte) (h : Mem.lists m a = false) :
    Mem.read (Mem.insert a b m) i = if i = a then b else Mem.read m i := by
  induction m with
  | nil =>
    by_cases hi : a = i
    · simp [Mem.insert, Mem.read, hi]
    · simp [Mem.insert, Mem.read, hi, Ne.symm hi]
  | cons e r ih =>
    obtain ⟨j, v⟩ := e
    simp only [Mem.lists, List.any_cons, Bool.or_eq_false_iff, beq_eq_false_iff_ne, ne_eq] at h
    obtain ⟨hj, hr⟩ := h
    have key := ih hr
    by_cases hl : a < j
    · by_cases hi : a = i
      · subst hi
        simp [Mem.insert, Mem.read, hl]
      · simp [Mem.insert, Mem.read, hl, hi, Ne.symm hi]
    · by_cases hi : j = i
      · subst hi
        simp [Mem.insert, Mem.read, hl, hj]
      · simp [Mem.insert, Mem.read, hl, hi, key]

/-- What a memory reads after one byte has been written. -/
@[simp] theorem Mem.read_write (m : Mem) (a i : Nat) (b : Byte) :
    Mem.read (Mem.write m a b) i = if i = a then b else Mem.read m i := by
  unfold Mem.write
  split
  · rename_i h
    simp [Mem.read_erase, h]
  · rw [Mem.read_insert _ _ _ _ (Mem.lists_erase m a), Mem.read_erase]
    by_cases hi : i = a <;> simp [hi]

theorem Mem.risingFrom_mono (m : Mem) (lo hi : Nat) (h : lo ≤ hi) (w : Mem.risingFrom hi m = true) :
    Mem.risingFrom lo m = true := by
  cases m with
  | nil => rfl
  | cons e r =>
    obtain ⟨j, v⟩ := e
    simp only [Mem.risingFrom, Bool.and_eq_true, decide_eq_true_eq] at w ⊢
    exact ⟨⟨Nat.le_trans h w.1.1, w.1.2⟩, w.2⟩

theorem Mem.risingFrom_erase (m : Mem) (a lo : Nat) (w : Mem.risingFrom lo m = true) :
    Mem.risingFrom lo (Mem.erase a m) = true := by
  induction m generalizing lo with
  | nil => rfl
  | cons e r ih =>
    obtain ⟨j, v⟩ := e
    simp only [Mem.risingFrom, Bool.and_eq_true, decide_eq_true_eq] at w
    by_cases h : j = a
    · simp only [Mem.erase, h, if_true]
      exact Mem.risingFrom_mono _ lo (j + 1) (by have := w.1.1; omega) (ih (j + 1) w.2)
    · simp only [Mem.erase, h, if_false, Mem.risingFrom, Bool.and_eq_true, decide_eq_true_eq]
      exact ⟨w.1, ih _ w.2⟩

theorem Mem.risingFrom_insert (m : Mem) (a lo : Nat) (b : Byte) (hb : b ≠ Mem.unlisted) (ha : lo ≤ a)
    (hl : Mem.lists m a = false) (w : Mem.risingFrom lo m = true) : Mem.risingFrom lo (Mem.insert a b m) = true := by
  induction m generalizing lo with
  | nil => simp [Mem.insert, Mem.risingFrom, ha, hb]
  | cons e r ih =>
    obtain ⟨j, v⟩ := e
    simp only [Mem.risingFrom, Bool.and_eq_true, decide_eq_true_eq] at w
    simp only [Mem.lists, List.any_cons, Bool.or_eq_false_iff] at hl
    by_cases h : a < j
    · simp only [Mem.insert, h, if_true, Mem.risingFrom, Bool.and_eq_true, decide_eq_true_eq, bne_iff_ne, ne_eq]
      exact ⟨⟨ha, hb⟩, ⟨⟨by omega, by simpa using w.1.2⟩, w.2⟩⟩
    · simp only [Mem.insert, h, if_false, Mem.risingFrom, Bool.and_eq_true, decide_eq_true_eq]
      have h2 : j ≠ a := by simpa using hl.1
      exact ⟨w.1, ih (j + 1) (by omega) hl.2 w.2⟩

/-- A write keeps the canonical form of a memory. -/
theorem Mem.wf_write (m : Mem) (a : Nat) (b : Byte) (w : m.wf = true) : (Mem.write m a b).wf = true := by
  unfold Mem.write
  split
  · exact Mem.risingFrom_erase m a 0 w
  · rename_i h
    exact Mem.risingFrom_insert _ a 0 b h (by omega) (Mem.lists_erase m a) (Mem.risingFrom_erase m a 0 w)

/-- Writing bytes keeps the canonical form. -/
theorem Mem.wf_writeBytes (m : Mem) (a : Nat) (l : List Byte) (w : m.wf = true) : (Mem.writeBytes m a l).wf = true := by
  induction l generalizing m a with
  | nil => exact w
  | cons b r ih => exact ih _ _ (Mem.wf_write m a b w)

/-- Storing a number keeps the canonical form. -/
theorem Mem.wf_writeLE (m : Mem) (a n v : Nat) (w : m.wf = true) : (Mem.writeLE m a n v).wf = true :=
  Mem.wf_writeBytes m a _ w

theorem Mem.wf_filter (m : Mem) (p : Host.Cell → Bool) (w : m.wf = true) : Mem.wf (m.filter p) = true := by
  have key : ∀ lo, Mem.risingFrom lo m = true → Mem.risingFrom lo (m.filter p) = true := by
    induction m with
    | nil => intro lo _; rfl
    | cons e r ih =>
      obtain ⟨j, v⟩ := e
      intro lo w
      simp only [Mem.risingFrom, Bool.and_eq_true, decide_eq_true_eq] at w
      have ih := ih (Mem.risingFrom_mono _ _ _ (Nat.zero_le _) w.2)
      by_cases h : p (j, v)
      · simp only [List.filter_cons, h, if_true, Mem.risingFrom, Bool.and_eq_true, decide_eq_true_eq]
        exact ⟨w.1, ih _ w.2⟩
      · simp only [List.filter_cons, h]
        exact Mem.risingFrom_mono _ _ _ (by have := w.1.1; omega) (ih _ w.2)
  exact key 0 w

/-- Bytes outside a range read as before it was written. -/
theorem Mem.read_writeBytes_outside (m : Mem) (a : Nat) (l : List Byte) (i : Nat) (h : i < a ∨ a + l.length ≤ i) :
    Mem.read (Mem.writeBytes m a l) i = Mem.read m i := by
  induction l generalizing m a with
  | nil => rfl
  | cons b r ih =>
    simp only [List.length_cons] at h
    rw [Mem.writeBytes, ih _ _ (by omega), Mem.read_write]
    simp [show i ≠ a by omega]

/-- Bytes of a range read as they were written. -/
theorem Mem.read_writeBytes_inside (m : Mem) (a : Nat) (l : List Byte) (i : Nat) (h : i < l.length) :
    Mem.read (Mem.writeBytes m a l) (a + i) = l.getD i 0 := by
  induction l generalizing m a i with
  | nil => simp at h
  | cons b r ih =>
    cases i with
    | zero =>
      rw [Mem.writeBytes, Nat.add_zero, Mem.read_writeBytes_outside _ _ _ _ (by omega), Mem.read_write]
      simp
    | succ k =>
      simp only [List.length_cons] at h
      rw [Mem.writeBytes, show a + (k + 1) = (a + 1) + k by omega, ih _ _ _ (by omega)]
      simp

/-- A range reads as it was written. -/
theorem Mem.readBytes_writeBytes (m : Mem) (a : Nat) (l : List Byte) :
    Mem.readBytes (Mem.writeBytes m a l) a l.length = l := by
  have key : ∀ (n : Nat) (m' : Mem) (a' : Nat) (l' : List Byte), l'.length = n →
      (∀ i, i < n → Mem.read m' (a' + i) = l'.getD i 0) → Mem.readBytes m' a' n = l' := by
    intro n
    induction n with
    | zero => intro m' a' l' hl _; simp [Mem.readBytes, List.length_eq_zero_iff.mp hl]
    | succ k ih =>
      intro m' a' l' hl h
      cases l' with
      | nil => simp at hl
      | cons b r =>
        simp only [List.length_cons] at hl
        simp only [Mem.readBytes]
        have h0 := h 0 (by omega)
        simp only [Nat.add_zero, List.getD_cons_zero] at h0
        rw [h0, ih m' (a' + 1) r (by omega) (by
          intro i hi
          have := h (i + 1) (by omega)
          simpa [Nat.add_assoc, Nat.add_comm 1 i] using this)]
  exact key l.length _ a l rfl (fun i hi => Mem.read_writeBytes_inside m a l i hi)

/-- The bytes of a number spell it again. -/
theorem leNat_leBytes (n v : Nat) : leNat (leBytes v n) = v % 256 ^ n := by
  induction n generalizing v with
  | zero => simp [leBytes, leNat, Nat.mod_one]
  | succ k ih =>
    have h : (BitVec.ofNat 8 (v % 256)).toNat = v % 256 := by simp
    simp only [leBytes, leNat, h, ih]
    rw [Nat.pow_succ, Nat.mul_comm (256 ^ k) 256, Nat.mod_mul]

theorem leBytes_length (v n : Nat) : (leBytes v n).length = n := by
  induction n generalizing v with
  | zero => rfl
  | succ k ih => simp [leBytes, ih]

/-- A number stored reads back, cut to its bytes. -/
theorem Mem.readLE_writeLE (m : Mem) (a n v : Nat) : Mem.readLE (Mem.writeLE m a n v) a n = v % 256 ^ n := by
  unfold Mem.readLE Mem.writeLE
  have h := Mem.readBytes_writeBytes m a (leBytes v n)
  rw [leBytes_length] at h
  rw [h, leNat_leBytes]

end Sys2Proof.Machine
end

