-- ==== Sys2Proof/Laws/State.lean ====
section
/-! SUPPORT. One lemma per field and per update of the state: what an update leaves as it was. -/

namespace Sys2Proof.Machine

/-! ### setCore -/

@[simp] theorem State.setCore_pending (s : State) (c : Nat) (k : Core) : (s.setCore c k).pending = s.pending := rfl
@[simp] theorem State.setCore_ltime (s : State) (c : Nat) (k : Core) : (s.setCore c k).ltime = s.ltime := rfl
@[simp] theorem State.setCore_freeIx (s : State) (c : Nat) (k : Core) : (s.setCore c k).freeIx = s.freeIx := rfl
@[simp] theorem State.setCore_serial (s : State) (c : Nat) (k : Core) : (s.setCore c k).serial = s.serial := rfl
@[simp] theorem State.setCore_sent (s : State) (c : Nat) (k : Core) : (s.setCore c k).sent = s.sent := rfl
@[simp] theorem State.setCore_clusters (s : State) (c : Nat) (k : Core) : (s.setCore c k).clusters = s.clusters := rfl
@[simp] theorem State.setCore_engines (s : State) (c : Nat) (k : Core) : (s.setCore c k).engines = s.engines := rfl
@[simp] theorem State.setCore_channels (s : State) (c : Nat) (k : Core) : (s.setCore c k).channels = s.channels := rfl
@[simp] theorem State.setCore_dieOut (s : State) (c : Nat) (k : Core) : (s.setCore c k).dieOut = s.dieOut := rfl
@[simp] theorem State.setCore_parts (s : State) (c : Nat) (k : Core) : (s.setCore c k).parts = s.parts := rfl
@[simp] theorem State.setCore_formes (s : State) (c : Nat) (k : Core) : (s.setCore c k).formes = s.formes := rfl
@[simp] theorem State.setCore_fences (s : State) (c : Nat) (k : Core) : (s.setCore c k).fences = s.fences := rfl
@[simp] theorem State.setCore_waits (s : State) (c : Nat) (k : Core) : (s.setCore c k).waits = s.waits := rfl
@[simp] theorem State.setCore_barWaits (s : State) (c : Nat) (k : Core) : (s.setCore c k).barWaits = s.barWaits := rfl
@[simp] theorem State.setCore_ctxs (s : State) (c : Nat) (k : Core) : (s.setCore c k).ctxs = s.ctxs := rfl
@[simp] theorem State.setCore_lastCtx (s : State) (c : Nat) (k : Core) : (s.setCore c k).lastCtx = s.lastCtx := rfl
@[simp] theorem State.setCore_queues (s : State) (c : Nat) (k : Core) : (s.setCore c k).queues = s.queues := rfl
@[simp] theorem State.setCore_crings (s : State) (c : Nat) (k : Core) : (s.setCore c k).crings = s.crings := rfl
@[simp] theorem State.setCore_jobs (s : State) (c : Nat) (k : Core) : (s.setCore c k).jobs = s.jobs := rfl
@[simp] theorem State.setCore_recordArea (s : State) (c : Nat) (k : Core) : (s.setCore c k).recordArea = s.recordArea := rfl
@[simp] theorem State.setCore_adminEn (s : State) (c : Nat) (k : Core) : (s.setCore c k).adminEn = s.adminEn := rfl
@[simp] theorem State.setCore_adminOn (s : State) (c : Nat) (k : Core) : (s.setCore c k).adminOn = s.adminOn := rfl
@[simp] theorem State.setCore_adminLog (s : State) (c : Nat) (k : Core) : (s.setCore c k).adminLog = s.adminLog := rfl
@[simp] theorem State.setCore_adminBase (s : State) (c : Nat) (k : Core) : (s.setCore c k).adminBase = s.adminBase := rfl
@[simp] theorem State.setCore_staleDb (s : State) (c : Nat) (k : Core) : (s.setCore c k).staleDb = s.staleDb := rfl
@[simp] theorem State.setCore_staleClear (s : State) (c : Nat) (k : Core) : (s.setCore c k).staleClear = s.staleClear := rfl
@[simp] theorem State.setCore_hbIgnored (s : State) (c : Nat) (k : Core) : (s.setCore c k).hbIgnored = s.hbIgnored := rfl
@[simp] theorem State.setCore_fetchTurn (s : State) (c : Nat) (k : Core) : (s.setCore c k).fetchTurn = s.fetchTurn := rfl
@[simp] theorem State.setCore_lateAcks (s : State) (c : Nat) (k : Core) : (s.setCore c k).lateAcks = s.lateAcks := rfl
@[simp] theorem State.setCore_areaChans (s : State) (c : Nat) (k : Core) : (s.setCore c k).areaChans = s.areaChans := rfl
@[simp] theorem State.setCore_waiting (s : State) (c : Nat) (k : Core) : (s.setCore c k).waiting = s.waiting := rfl
@[simp] theorem State.setCore_partMsgs (s : State) (c : Nat) (k : Core) : (s.setCore c k).partMsgs = s.partMsgs := rfl
@[simp] theorem State.setCore_answered (s : State) (c : Nat) (k : Core) : (s.setCore c k).answered = s.answered := rfl
@[simp] theorem State.setCore_unanswered (s : State) (c : Nat) (k : Core) : (s.setCore c k).unanswered = s.unanswered := rfl
@[simp] theorem State.setCore_keys (s : State) (c : Nat) (k : Core) : (s.setCore c k).keys = s.keys := rfl
@[simp] theorem State.setCore_shares (s : State) (c : Nat) (k : Core) : (s.setCore c k).shares = s.shares := rfl
@[simp] theorem State.setCore_sessions (s : State) (c : Nat) (k : Core) : (s.setCore c k).sessions = s.sessions := rfl
@[simp] theorem State.setCore_keySerial (s : State) (c : Nat) (k : Core) : (s.setCore c k).keySerial = s.keySerial := rfl
@[simp] theorem State.setCore_caches (s : State) (c : Nat) (k : Core) : (s.setCore c k).caches = s.caches := rfl
@[simp] theorem State.setCore_agent (s : State) (c : Nat) (k : Core) : (s.setCore c k).agent = s.agent := rfl
@[simp] theorem State.setCore_errRing (s : State) (c : Nat) (k : Core) : (s.setCore c k).errRing = s.errRing := rfl
@[simp] theorem State.setCore_errProd (s : State) (c : Nat) (k : Core) : (s.setCore c k).errProd = s.errProd := rfl
@[simp] theorem State.setCore_errCons (s : State) (c : Nat) (k : Core) : (s.setCore c k).errCons = s.errCons := rfl
@[simp] theorem State.setCore_errOvf (s : State) (c : Nat) (k : Core) : (s.setCore c k).errOvf = s.errOvf := rfl
@[simp] theorem State.setCore_coreHang (s : State) (c : Nat) (k : Core) : (s.setCore c k).coreHang = s.coreHang := rfl
@[simp] theorem State.setCore_cpHang (s : State) (c : Nat) (k : Core) : (s.setCore c k).cpHang = s.cpHang := rfl
@[simp] theorem State.setCore_quarantine (s : State) (c : Nat) (k : Core) : (s.setCore c k).quarantine = s.quarantine := rfl
@[simp] theorem State.setCore_dieFenced (s : State) (c : Nat) (k : Core) : (s.setCore c k).dieFenced = s.dieFenced := rfl
@[simp] theorem State.setCore_failed (s : State) (c : Nat) (k : Core) : (s.setCore c k).failed = s.failed := rfl
@[simp] theorem State.setCore_ladders (s : State) (c : Nat) (k : Core) : (s.setCore c k).ladders = s.ladders := rfl
@[simp] theorem State.setCore_culprits (s : State) (c : Nat) (k : Core) : (s.setCore c k).culprits = s.culprits := rfl
@[simp] theorem State.setCore_fabAddr (s : State) (c : Nat) (k : Core) : (s.setCore c k).fabAddr = s.fabAddr := rfl
@[simp] theorem State.setCore_egress (s : State) (c : Nat) (k : Core) : (s.setCore c k).egress = s.egress := rfl
@[simp] theorem State.setCore_inbox (s : State) (c : Nat) (k : Core) : (s.setCore c k).inbox = s.inbox := rfl
@[simp] theorem State.setCore_peerOut (s : State) (c : Nat) (k : Core) : (s.setCore c k).peerOut = s.peerOut := rfl
@[simp] theorem State.setCore_rdmaOut (s : State) (c : Nat) (k : Core) : (s.setCore c k).rdmaOut = s.rdmaOut := rfl
@[simp] theorem State.setCore_conns (s : State) (c : Nat) (k : Core) : (s.setCore c k).conns = s.conns := rfl
@[simp] theorem State.setCore_ports (s : State) (c : Nat) (k : Core) : (s.setCore c k).ports = s.ports := rfl
@[simp] theorem State.setCore_nets (s : State) (c : Nat) (k : Core) : (s.setCore c k).nets = s.nets := rfl
@[simp] theorem State.setCore_fabV (s : State) (c : Nat) (k : Core) : (s.setCore c k).fabV = s.fabV := rfl
@[simp] theorem State.setCore_isRoot (s : State) (c : Nat) (k : Core) : (s.setCore c k).isRoot = s.isRoot := rfl
@[simp] theorem State.setCore_links (s : State) (c : Nat) (k : Core) : (s.setCore c k).links = s.links := rfl
@[simp] theorem State.setCore_routing (s : State) (c : Nat) (k : Core) : (s.setCore c k).routing = s.routing := rfl
@[simp] theorem State.setCore_walk (s : State) (c : Nat) (k : Core) : (s.setCore c k).walk = s.walk := rfl
@[simp] theorem State.setCore_sec (s : State) (c : Nat) (k : Core) : (s.setCore c k).sec = s.sec := rfl
@[simp] theorem State.setCore_areaTop (s : State) (c : Nat) (k : Core) : (s.setCore c k).areaTop = s.areaTop := rfl
@[simp] theorem State.setCore_hdrs (s : State) (c : Nat) (k : Core) : (s.setCore c k).hdrs = s.hdrs := rfl
@[simp] theorem State.setCore_cpw (s : State) (c : Nat) (k : Core) : (s.setCore c k).cpw = s.cpw := rfl
@[simp] theorem State.setCore_power (s : State) (c : Nat) (k : Core) : (s.setCore c k).power = s.power := rfl
@[simp] theorem State.setCore_pm (s : State) (c : Nat) (k : Core) : (s.setCore c k).pm = s.pm := rfl

/-! ### modCore -/

@[simp] theorem State.modCore_pending (s : State) (c : Nat) (f : Core → Core) : (s.modCore c f).pending = s.pending := rfl
@[simp] theorem State.modCore_ltime (s : State) (c : Nat) (f : Core → Core) : (s.modCore c f).ltime = s.ltime := rfl
@[simp] theorem State.modCore_freeIx (s : State) (c : Nat) (f : Core → Core) : (s.modCore c f).freeIx = s.freeIx := rfl
@[simp] theorem State.modCore_serial (s : State) (c : Nat) (f : Core → Core) : (s.modCore c f).serial = s.serial := rfl
@[simp] theorem State.modCore_sent (s : State) (c : Nat) (f : Core → Core) : (s.modCore c f).sent = s.sent := rfl
@[simp] theorem State.modCore_clusters (s : State) (c : Nat) (f : Core → Core) : (s.modCore c f).clusters = s.clusters := rfl
@[simp] theorem State.modCore_engines (s : State) (c : Nat) (f : Core → Core) : (s.modCore c f).engines = s.engines := rfl
@[simp] theorem State.modCore_channels (s : State) (c : Nat) (f : Core → Core) : (s.modCore c f).channels = s.channels := rfl
@[simp] theorem State.modCore_dieOut (s : State) (c : Nat) (f : Core → Core) : (s.modCore c f).dieOut = s.dieOut := rfl
@[simp] theorem State.modCore_parts (s : State) (c : Nat) (f : Core → Core) : (s.modCore c f).parts = s.parts := rfl
@[simp] theorem State.modCore_formes (s : State) (c : Nat) (f : Core → Core) : (s.modCore c f).formes = s.formes := rfl
@[simp] theorem State.modCore_fences (s : State) (c : Nat) (f : Core → Core) : (s.modCore c f).fences = s.fences := rfl
@[simp] theorem State.modCore_waits (s : State) (c : Nat) (f : Core → Core) : (s.modCore c f).waits = s.waits := rfl
@[simp] theorem State.modCore_barWaits (s : State) (c : Nat) (f : Core → Core) : (s.modCore c f).barWaits = s.barWaits := rfl
@[simp] theorem State.modCore_ctxs (s : State) (c : Nat) (f : Core → Core) : (s.modCore c f).ctxs = s.ctxs := rfl
@[simp] theorem State.modCore_lastCtx (s : State) (c : Nat) (f : Core → Core) : (s.modCore c f).lastCtx = s.lastCtx := rfl
@[simp] theorem State.modCore_queues (s : State) (c : Nat) (f : Core → Core) : (s.modCore c f).queues = s.queues := rfl
@[simp] theorem State.modCore_crings (s : State) (c : Nat) (f : Core → Core) : (s.modCore c f).crings = s.crings := rfl
@[simp] theorem State.modCore_jobs (s : State) (c : Nat) (f : Core → Core) : (s.modCore c f).jobs = s.jobs := rfl
@[simp] theorem State.modCore_recordArea (s : State) (c : Nat) (f : Core → Core) : (s.modCore c f).recordArea = s.recordArea := rfl
@[simp] theorem State.modCore_adminEn (s : State) (c : Nat) (f : Core → Core) : (s.modCore c f).adminEn = s.adminEn := rfl
@[simp] theorem State.modCore_adminOn (s : State) (c : Nat) (f : Core → Core) : (s.modCore c f).adminOn = s.adminOn := rfl
@[simp] theorem State.modCore_adminLog (s : State) (c : Nat) (f : Core → Core) : (s.modCore c f).adminLog = s.adminLog := rfl
@[simp] theorem State.modCore_adminBase (s : State) (c : Nat) (f : Core → Core) : (s.modCore c f).adminBase = s.adminBase := rfl
@[simp] theorem State.modCore_staleDb (s : State) (c : Nat) (f : Core → Core) : (s.modCore c f).staleDb = s.staleDb := rfl
@[simp] theorem State.modCore_staleClear (s : State) (c : Nat) (f : Core → Core) : (s.modCore c f).staleClear = s.staleClear := rfl
@[simp] theorem State.modCore_hbIgnored (s : State) (c : Nat) (f : Core → Core) : (s.modCore c f).hbIgnored = s.hbIgnored := rfl
@[simp] theorem State.modCore_fetchTurn (s : State) (c : Nat) (f : Core → Core) : (s.modCore c f).fetchTurn = s.fetchTurn := rfl
@[simp] theorem State.modCore_lateAcks (s : State) (c : Nat) (f : Core → Core) : (s.modCore c f).lateAcks = s.lateAcks := rfl
@[simp] theorem State.modCore_areaChans (s : State) (c : Nat) (f : Core → Core) : (s.modCore c f).areaChans = s.areaChans := rfl
@[simp] theorem State.modCore_waiting (s : State) (c : Nat) (f : Core → Core) : (s.modCore c f).waiting = s.waiting := rfl
@[simp] theorem State.modCore_partMsgs (s : State) (c : Nat) (f : Core → Core) : (s.modCore c f).partMsgs = s.partMsgs := rfl
@[simp] theorem State.modCore_answered (s : State) (c : Nat) (f : Core → Core) : (s.modCore c f).answered = s.answered := rfl
@[simp] theorem State.modCore_unanswered (s : State) (c : Nat) (f : Core → Core) : (s.modCore c f).unanswered = s.unanswered := rfl
@[simp] theorem State.modCore_keys (s : State) (c : Nat) (f : Core → Core) : (s.modCore c f).keys = s.keys := rfl
@[simp] theorem State.modCore_shares (s : State) (c : Nat) (f : Core → Core) : (s.modCore c f).shares = s.shares := rfl
@[simp] theorem State.modCore_sessions (s : State) (c : Nat) (f : Core → Core) : (s.modCore c f).sessions = s.sessions := rfl
@[simp] theorem State.modCore_keySerial (s : State) (c : Nat) (f : Core → Core) : (s.modCore c f).keySerial = s.keySerial := rfl
@[simp] theorem State.modCore_caches (s : State) (c : Nat) (f : Core → Core) : (s.modCore c f).caches = s.caches := rfl
@[simp] theorem State.modCore_agent (s : State) (c : Nat) (f : Core → Core) : (s.modCore c f).agent = s.agent := rfl
@[simp] theorem State.modCore_errRing (s : State) (c : Nat) (f : Core → Core) : (s.modCore c f).errRing = s.errRing := rfl
@[simp] theorem State.modCore_errProd (s : State) (c : Nat) (f : Core → Core) : (s.modCore c f).errProd = s.errProd := rfl
@[simp] theorem State.modCore_errCons (s : State) (c : Nat) (f : Core → Core) : (s.modCore c f).errCons = s.errCons := rfl
@[simp] theorem State.modCore_errOvf (s : State) (c : Nat) (f : Core → Core) : (s.modCore c f).errOvf = s.errOvf := rfl
@[simp] theorem State.modCore_coreHang (s : State) (c : Nat) (f : Core → Core) : (s.modCore c f).coreHang = s.coreHang := rfl
@[simp] theorem State.modCore_cpHang (s : State) (c : Nat) (f : Core → Core) : (s.modCore c f).cpHang = s.cpHang := rfl
@[simp] theorem State.modCore_quarantine (s : State) (c : Nat) (f : Core → Core) : (s.modCore c f).quarantine = s.quarantine := rfl
@[simp] theorem State.modCore_dieFenced (s : State) (c : Nat) (f : Core → Core) : (s.modCore c f).dieFenced = s.dieFenced := rfl
@[simp] theorem State.modCore_failed (s : State) (c : Nat) (f : Core → Core) : (s.modCore c f).failed = s.failed := rfl
@[simp] theorem State.modCore_ladders (s : State) (c : Nat) (f : Core → Core) : (s.modCore c f).ladders = s.ladders := rfl
@[simp] theorem State.modCore_culprits (s : State) (c : Nat) (f : Core → Core) : (s.modCore c f).culprits = s.culprits := rfl
@[simp] theorem State.modCore_fabAddr (s : State) (c : Nat) (f : Core → Core) : (s.modCore c f).fabAddr = s.fabAddr := rfl
@[simp] theorem State.modCore_egress (s : State) (c : Nat) (f : Core → Core) : (s.modCore c f).egress = s.egress := rfl
@[simp] theorem State.modCore_inbox (s : State) (c : Nat) (f : Core → Core) : (s.modCore c f).inbox = s.inbox := rfl
@[simp] theorem State.modCore_peerOut (s : State) (c : Nat) (f : Core → Core) : (s.modCore c f).peerOut = s.peerOut := rfl
@[simp] theorem State.modCore_rdmaOut (s : State) (c : Nat) (f : Core → Core) : (s.modCore c f).rdmaOut = s.rdmaOut := rfl
@[simp] theorem State.modCore_conns (s : State) (c : Nat) (f : Core → Core) : (s.modCore c f).conns = s.conns := rfl
@[simp] theorem State.modCore_ports (s : State) (c : Nat) (f : Core → Core) : (s.modCore c f).ports = s.ports := rfl
@[simp] theorem State.modCore_nets (s : State) (c : Nat) (f : Core → Core) : (s.modCore c f).nets = s.nets := rfl
@[simp] theorem State.modCore_fabV (s : State) (c : Nat) (f : Core → Core) : (s.modCore c f).fabV = s.fabV := rfl
@[simp] theorem State.modCore_isRoot (s : State) (c : Nat) (f : Core → Core) : (s.modCore c f).isRoot = s.isRoot := rfl
@[simp] theorem State.modCore_links (s : State) (c : Nat) (f : Core → Core) : (s.modCore c f).links = s.links := rfl
@[simp] theorem State.modCore_routing (s : State) (c : Nat) (f : Core → Core) : (s.modCore c f).routing = s.routing := rfl
@[simp] theorem State.modCore_walk (s : State) (c : Nat) (f : Core → Core) : (s.modCore c f).walk = s.walk := rfl
@[simp] theorem State.modCore_sec (s : State) (c : Nat) (f : Core → Core) : (s.modCore c f).sec = s.sec := rfl
@[simp] theorem State.modCore_areaTop (s : State) (c : Nat) (f : Core → Core) : (s.modCore c f).areaTop = s.areaTop := rfl
@[simp] theorem State.modCore_hdrs (s : State) (c : Nat) (f : Core → Core) : (s.modCore c f).hdrs = s.hdrs := rfl
@[simp] theorem State.modCore_cpw (s : State) (c : Nat) (f : Core → Core) : (s.modCore c f).cpw = s.cpw := rfl
@[simp] theorem State.modCore_power (s : State) (c : Nat) (f : Core → Core) : (s.modCore c f).power = s.power := rfl
@[simp] theorem State.modCore_pm (s : State) (c : Nat) (f : Core → Core) : (s.modCore c f).pm = s.pm := rfl

/-! ### setCluster -/

@[simp] theorem State.setCluster_pending (s : State) (c : Nat) (k : Cluster) : (s.setCluster c k).pending = s.pending := rfl
@[simp] theorem State.setCluster_ltime (s : State) (c : Nat) (k : Cluster) : (s.setCluster c k).ltime = s.ltime := rfl
@[simp] theorem State.setCluster_freeIx (s : State) (c : Nat) (k : Cluster) : (s.setCluster c k).freeIx = s.freeIx := rfl
@[simp] theorem State.setCluster_serial (s : State) (c : Nat) (k : Cluster) : (s.setCluster c k).serial = s.serial := rfl
@[simp] theorem State.setCluster_sent (s : State) (c : Nat) (k : Cluster) : (s.setCluster c k).sent = s.sent := rfl
@[simp] theorem State.setCluster_cores (s : State) (c : Nat) (k : Cluster) : (s.setCluster c k).cores = s.cores := rfl
@[simp] theorem State.setCluster_engines (s : State) (c : Nat) (k : Cluster) : (s.setCluster c k).engines = s.engines := rfl
@[simp] theorem State.setCluster_channels (s : State) (c : Nat) (k : Cluster) : (s.setCluster c k).channels = s.channels := rfl
@[simp] theorem State.setCluster_dieOut (s : State) (c : Nat) (k : Cluster) : (s.setCluster c k).dieOut = s.dieOut := rfl
@[simp] theorem State.setCluster_parts (s : State) (c : Nat) (k : Cluster) : (s.setCluster c k).parts = s.parts := rfl
@[simp] theorem State.setCluster_formes (s : State) (c : Nat) (k : Cluster) : (s.setCluster c k).formes = s.formes := rfl
@[simp] theorem State.setCluster_fences (s : State) (c : Nat) (k : Cluster) : (s.setCluster c k).fences = s.fences := rfl
@[simp] theorem State.setCluster_waits (s : State) (c : Nat) (k : Cluster) : (s.setCluster c k).waits = s.waits := rfl
@[simp] theorem State.setCluster_barWaits (s : State) (c : Nat) (k : Cluster) : (s.setCluster c k).barWaits = s.barWaits := rfl
@[simp] theorem State.setCluster_ctxs (s : State) (c : Nat) (k : Cluster) : (s.setCluster c k).ctxs = s.ctxs := rfl
@[simp] theorem State.setCluster_lastCtx (s : State) (c : Nat) (k : Cluster) : (s.setCluster c k).lastCtx = s.lastCtx := rfl
@[simp] theorem State.setCluster_queues (s : State) (c : Nat) (k : Cluster) : (s.setCluster c k).queues = s.queues := rfl
@[simp] theorem State.setCluster_crings (s : State) (c : Nat) (k : Cluster) : (s.setCluster c k).crings = s.crings := rfl
@[simp] theorem State.setCluster_jobs (s : State) (c : Nat) (k : Cluster) : (s.setCluster c k).jobs = s.jobs := rfl
@[simp] theorem State.setCluster_recordArea (s : State) (c : Nat) (k : Cluster) : (s.setCluster c k).recordArea = s.recordArea := rfl
@[simp] theorem State.setCluster_adminEn (s : State) (c : Nat) (k : Cluster) : (s.setCluster c k).adminEn = s.adminEn := rfl
@[simp] theorem State.setCluster_adminOn (s : State) (c : Nat) (k : Cluster) : (s.setCluster c k).adminOn = s.adminOn := rfl
@[simp] theorem State.setCluster_adminLog (s : State) (c : Nat) (k : Cluster) : (s.setCluster c k).adminLog = s.adminLog := rfl
@[simp] theorem State.setCluster_adminBase (s : State) (c : Nat) (k : Cluster) : (s.setCluster c k).adminBase = s.adminBase := rfl
@[simp] theorem State.setCluster_staleDb (s : State) (c : Nat) (k : Cluster) : (s.setCluster c k).staleDb = s.staleDb := rfl
@[simp] theorem State.setCluster_staleClear (s : State) (c : Nat) (k : Cluster) : (s.setCluster c k).staleClear = s.staleClear := rfl
@[simp] theorem State.setCluster_hbIgnored (s : State) (c : Nat) (k : Cluster) : (s.setCluster c k).hbIgnored = s.hbIgnored := rfl
@[simp] theorem State.setCluster_fetchTurn (s : State) (c : Nat) (k : Cluster) : (s.setCluster c k).fetchTurn = s.fetchTurn := rfl
@[simp] theorem State.setCluster_lateAcks (s : State) (c : Nat) (k : Cluster) : (s.setCluster c k).lateAcks = s.lateAcks := rfl
@[simp] theorem State.setCluster_areaChans (s : State) (c : Nat) (k : Cluster) : (s.setCluster c k).areaChans = s.areaChans := rfl
@[simp] theorem State.setCluster_waiting (s : State) (c : Nat) (k : Cluster) : (s.setCluster c k).waiting = s.waiting := rfl
@[simp] theorem State.setCluster_partMsgs (s : State) (c : Nat) (k : Cluster) : (s.setCluster c k).partMsgs = s.partMsgs := rfl
@[simp] theorem State.setCluster_answered (s : State) (c : Nat) (k : Cluster) : (s.setCluster c k).answered = s.answered := rfl
@[simp] theorem State.setCluster_unanswered (s : State) (c : Nat) (k : Cluster) : (s.setCluster c k).unanswered = s.unanswered := rfl
@[simp] theorem State.setCluster_keys (s : State) (c : Nat) (k : Cluster) : (s.setCluster c k).keys = s.keys := rfl
@[simp] theorem State.setCluster_shares (s : State) (c : Nat) (k : Cluster) : (s.setCluster c k).shares = s.shares := rfl
@[simp] theorem State.setCluster_sessions (s : State) (c : Nat) (k : Cluster) : (s.setCluster c k).sessions = s.sessions := rfl
@[simp] theorem State.setCluster_keySerial (s : State) (c : Nat) (k : Cluster) : (s.setCluster c k).keySerial = s.keySerial := rfl
@[simp] theorem State.setCluster_caches (s : State) (c : Nat) (k : Cluster) : (s.setCluster c k).caches = s.caches := rfl
@[simp] theorem State.setCluster_agent (s : State) (c : Nat) (k : Cluster) : (s.setCluster c k).agent = s.agent := rfl
@[simp] theorem State.setCluster_errRing (s : State) (c : Nat) (k : Cluster) : (s.setCluster c k).errRing = s.errRing := rfl
@[simp] theorem State.setCluster_errProd (s : State) (c : Nat) (k : Cluster) : (s.setCluster c k).errProd = s.errProd := rfl
@[simp] theorem State.setCluster_errCons (s : State) (c : Nat) (k : Cluster) : (s.setCluster c k).errCons = s.errCons := rfl
@[simp] theorem State.setCluster_errOvf (s : State) (c : Nat) (k : Cluster) : (s.setCluster c k).errOvf = s.errOvf := rfl
@[simp] theorem State.setCluster_coreHang (s : State) (c : Nat) (k : Cluster) : (s.setCluster c k).coreHang = s.coreHang := rfl
@[simp] theorem State.setCluster_cpHang (s : State) (c : Nat) (k : Cluster) : (s.setCluster c k).cpHang = s.cpHang := rfl
@[simp] theorem State.setCluster_quarantine (s : State) (c : Nat) (k : Cluster) : (s.setCluster c k).quarantine = s.quarantine := rfl
@[simp] theorem State.setCluster_dieFenced (s : State) (c : Nat) (k : Cluster) : (s.setCluster c k).dieFenced = s.dieFenced := rfl
@[simp] theorem State.setCluster_failed (s : State) (c : Nat) (k : Cluster) : (s.setCluster c k).failed = s.failed := rfl
@[simp] theorem State.setCluster_ladders (s : State) (c : Nat) (k : Cluster) : (s.setCluster c k).ladders = s.ladders := rfl
@[simp] theorem State.setCluster_culprits (s : State) (c : Nat) (k : Cluster) : (s.setCluster c k).culprits = s.culprits := rfl
@[simp] theorem State.setCluster_fabAddr (s : State) (c : Nat) (k : Cluster) : (s.setCluster c k).fabAddr = s.fabAddr := rfl
@[simp] theorem State.setCluster_egress (s : State) (c : Nat) (k : Cluster) : (s.setCluster c k).egress = s.egress := rfl
@[simp] theorem State.setCluster_inbox (s : State) (c : Nat) (k : Cluster) : (s.setCluster c k).inbox = s.inbox := rfl
@[simp] theorem State.setCluster_peerOut (s : State) (c : Nat) (k : Cluster) : (s.setCluster c k).peerOut = s.peerOut := rfl
@[simp] theorem State.setCluster_rdmaOut (s : State) (c : Nat) (k : Cluster) : (s.setCluster c k).rdmaOut = s.rdmaOut := rfl
@[simp] theorem State.setCluster_conns (s : State) (c : Nat) (k : Cluster) : (s.setCluster c k).conns = s.conns := rfl
@[simp] theorem State.setCluster_ports (s : State) (c : Nat) (k : Cluster) : (s.setCluster c k).ports = s.ports := rfl
@[simp] theorem State.setCluster_nets (s : State) (c : Nat) (k : Cluster) : (s.setCluster c k).nets = s.nets := rfl
@[simp] theorem State.setCluster_fabV (s : State) (c : Nat) (k : Cluster) : (s.setCluster c k).fabV = s.fabV := rfl
@[simp] theorem State.setCluster_isRoot (s : State) (c : Nat) (k : Cluster) : (s.setCluster c k).isRoot = s.isRoot := rfl
@[simp] theorem State.setCluster_links (s : State) (c : Nat) (k : Cluster) : (s.setCluster c k).links = s.links := rfl
@[simp] theorem State.setCluster_routing (s : State) (c : Nat) (k : Cluster) : (s.setCluster c k).routing = s.routing := rfl
@[simp] theorem State.setCluster_walk (s : State) (c : Nat) (k : Cluster) : (s.setCluster c k).walk = s.walk := rfl
@[simp] theorem State.setCluster_sec (s : State) (c : Nat) (k : Cluster) : (s.setCluster c k).sec = s.sec := rfl
@[simp] theorem State.setCluster_areaTop (s : State) (c : Nat) (k : Cluster) : (s.setCluster c k).areaTop = s.areaTop := rfl
@[simp] theorem State.setCluster_hdrs (s : State) (c : Nat) (k : Cluster) : (s.setCluster c k).hdrs = s.hdrs := rfl
@[simp] theorem State.setCluster_cpw (s : State) (c : Nat) (k : Cluster) : (s.setCluster c k).cpw = s.cpw := rfl
@[simp] theorem State.setCluster_power (s : State) (c : Nat) (k : Cluster) : (s.setCluster c k).power = s.power := rfl
@[simp] theorem State.setCluster_pm (s : State) (c : Nat) (k : Cluster) : (s.setCluster c k).pm = s.pm := rfl

/-! ### modCluster -/

@[simp] theorem State.modCluster_pending (s : State) (c : Nat) (f : Cluster → Cluster) : (s.modCluster c f).pending = s.pending := rfl
@[simp] theorem State.modCluster_ltime (s : State) (c : Nat) (f : Cluster → Cluster) : (s.modCluster c f).ltime = s.ltime := rfl
@[simp] theorem State.modCluster_freeIx (s : State) (c : Nat) (f : Cluster → Cluster) : (s.modCluster c f).freeIx = s.freeIx := rfl
@[simp] theorem State.modCluster_serial (s : State) (c : Nat) (f : Cluster → Cluster) : (s.modCluster c f).serial = s.serial := rfl
@[simp] theorem State.modCluster_sent (s : State) (c : Nat) (f : Cluster → Cluster) : (s.modCluster c f).sent = s.sent := rfl
@[simp] theorem State.modCluster_cores (s : State) (c : Nat) (f : Cluster → Cluster) : (s.modCluster c f).cores = s.cores := rfl
@[simp] theorem State.modCluster_engines (s : State) (c : Nat) (f : Cluster → Cluster) : (s.modCluster c f).engines = s.engines := rfl
@[simp] theorem State.modCluster_channels (s : State) (c : Nat) (f : Cluster → Cluster) : (s.modCluster c f).channels = s.channels := rfl
@[simp] theorem State.modCluster_dieOut (s : State) (c : Nat) (f : Cluster → Cluster) : (s.modCluster c f).dieOut = s.dieOut := rfl
@[simp] theorem State.modCluster_parts (s : State) (c : Nat) (f : Cluster → Cluster) : (s.modCluster c f).parts = s.parts := rfl
@[simp] theorem State.modCluster_formes (s : State) (c : Nat) (f : Cluster → Cluster) : (s.modCluster c f).formes = s.formes := rfl
@[simp] theorem State.modCluster_fences (s : State) (c : Nat) (f : Cluster → Cluster) : (s.modCluster c f).fences = s.fences := rfl
@[simp] theorem State.modCluster_waits (s : State) (c : Nat) (f : Cluster → Cluster) : (s.modCluster c f).waits = s.waits := rfl
@[simp] theorem State.modCluster_barWaits (s : State) (c : Nat) (f : Cluster → Cluster) : (s.modCluster c f).barWaits = s.barWaits := rfl
@[simp] theorem State.modCluster_ctxs (s : State) (c : Nat) (f : Cluster → Cluster) : (s.modCluster c f).ctxs = s.ctxs := rfl
@[simp] theorem State.modCluster_lastCtx (s : State) (c : Nat) (f : Cluster → Cluster) : (s.modCluster c f).lastCtx = s.lastCtx := rfl
@[simp] theorem State.modCluster_queues (s : State) (c : Nat) (f : Cluster → Cluster) : (s.modCluster c f).queues = s.queues := rfl
@[simp] theorem State.modCluster_crings (s : State) (c : Nat) (f : Cluster → Cluster) : (s.modCluster c f).crings = s.crings := rfl
@[simp] theorem State.modCluster_jobs (s : State) (c : Nat) (f : Cluster → Cluster) : (s.modCluster c f).jobs = s.jobs := rfl
@[simp] theorem State.modCluster_recordArea (s : State) (c : Nat) (f : Cluster → Cluster) : (s.modCluster c f).recordArea = s.recordArea := rfl
@[simp] theorem State.modCluster_adminEn (s : State) (c : Nat) (f : Cluster → Cluster) : (s.modCluster c f).adminEn = s.adminEn := rfl
@[simp] theorem State.modCluster_adminOn (s : State) (c : Nat) (f : Cluster → Cluster) : (s.modCluster c f).adminOn = s.adminOn := rfl
@[simp] theorem State.modCluster_adminLog (s : State) (c : Nat) (f : Cluster → Cluster) : (s.modCluster c f).adminLog = s.adminLog := rfl
@[simp] theorem State.modCluster_adminBase (s : State) (c : Nat) (f : Cluster → Cluster) : (s.modCluster c f).adminBase = s.adminBase := rfl
@[simp] theorem State.modCluster_staleDb (s : State) (c : Nat) (f : Cluster → Cluster) : (s.modCluster c f).staleDb = s.staleDb := rfl
@[simp] theorem State.modCluster_staleClear (s : State) (c : Nat) (f : Cluster → Cluster) : (s.modCluster c f).staleClear = s.staleClear := rfl
@[simp] theorem State.modCluster_hbIgnored (s : State) (c : Nat) (f : Cluster → Cluster) : (s.modCluster c f).hbIgnored = s.hbIgnored := rfl
@[simp] theorem State.modCluster_fetchTurn (s : State) (c : Nat) (f : Cluster → Cluster) : (s.modCluster c f).fetchTurn = s.fetchTurn := rfl
@[simp] theorem State.modCluster_lateAcks (s : State) (c : Nat) (f : Cluster → Cluster) : (s.modCluster c f).lateAcks = s.lateAcks := rfl
@[simp] theorem State.modCluster_areaChans (s : State) (c : Nat) (f : Cluster → Cluster) : (s.modCluster c f).areaChans = s.areaChans := rfl
@[simp] theorem State.modCluster_waiting (s : State) (c : Nat) (f : Cluster → Cluster) : (s.modCluster c f).waiting = s.waiting := rfl
@[simp] theorem State.modCluster_partMsgs (s : State) (c : Nat) (f : Cluster → Cluster) : (s.modCluster c f).partMsgs = s.partMsgs := rfl
@[simp] theorem State.modCluster_answered (s : State) (c : Nat) (f : Cluster → Cluster) : (s.modCluster c f).answered = s.answered := rfl
@[simp] theorem State.modCluster_unanswered (s : State) (c : Nat) (f : Cluster → Cluster) : (s.modCluster c f).unanswered = s.unanswered := rfl
@[simp] theorem State.modCluster_keys (s : State) (c : Nat) (f : Cluster → Cluster) : (s.modCluster c f).keys = s.keys := rfl
@[simp] theorem State.modCluster_shares (s : State) (c : Nat) (f : Cluster → Cluster) : (s.modCluster c f).shares = s.shares := rfl
@[simp] theorem State.modCluster_sessions (s : State) (c : Nat) (f : Cluster → Cluster) : (s.modCluster c f).sessions = s.sessions := rfl
@[simp] theorem State.modCluster_keySerial (s : State) (c : Nat) (f : Cluster → Cluster) : (s.modCluster c f).keySerial = s.keySerial := rfl
@[simp] theorem State.modCluster_caches (s : State) (c : Nat) (f : Cluster → Cluster) : (s.modCluster c f).caches = s.caches := rfl
@[simp] theorem State.modCluster_agent (s : State) (c : Nat) (f : Cluster → Cluster) : (s.modCluster c f).agent = s.agent := rfl
@[simp] theorem State.modCluster_errRing (s : State) (c : Nat) (f : Cluster → Cluster) : (s.modCluster c f).errRing = s.errRing := rfl
@[simp] theorem State.modCluster_errProd (s : State) (c : Nat) (f : Cluster → Cluster) : (s.modCluster c f).errProd = s.errProd := rfl
@[simp] theorem State.modCluster_errCons (s : State) (c : Nat) (f : Cluster → Cluster) : (s.modCluster c f).errCons = s.errCons := rfl
@[simp] theorem State.modCluster_errOvf (s : State) (c : Nat) (f : Cluster → Cluster) : (s.modCluster c f).errOvf = s.errOvf := rfl
@[simp] theorem State.modCluster_coreHang (s : State) (c : Nat) (f : Cluster → Cluster) : (s.modCluster c f).coreHang = s.coreHang := rfl
@[simp] theorem State.modCluster_cpHang (s : State) (c : Nat) (f : Cluster → Cluster) : (s.modCluster c f).cpHang = s.cpHang := rfl
@[simp] theorem State.modCluster_quarantine (s : State) (c : Nat) (f : Cluster → Cluster) : (s.modCluster c f).quarantine = s.quarantine := rfl
@[simp] theorem State.modCluster_dieFenced (s : State) (c : Nat) (f : Cluster → Cluster) : (s.modCluster c f).dieFenced = s.dieFenced := rfl
@[simp] theorem State.modCluster_failed (s : State) (c : Nat) (f : Cluster → Cluster) : (s.modCluster c f).failed = s.failed := rfl
@[simp] theorem State.modCluster_ladders (s : State) (c : Nat) (f : Cluster → Cluster) : (s.modCluster c f).ladders = s.ladders := rfl
@[simp] theorem State.modCluster_culprits (s : State) (c : Nat) (f : Cluster → Cluster) : (s.modCluster c f).culprits = s.culprits := rfl
@[simp] theorem State.modCluster_fabAddr (s : State) (c : Nat) (f : Cluster → Cluster) : (s.modCluster c f).fabAddr = s.fabAddr := rfl
@[simp] theorem State.modCluster_egress (s : State) (c : Nat) (f : Cluster → Cluster) : (s.modCluster c f).egress = s.egress := rfl
@[simp] theorem State.modCluster_inbox (s : State) (c : Nat) (f : Cluster → Cluster) : (s.modCluster c f).inbox = s.inbox := rfl
@[simp] theorem State.modCluster_peerOut (s : State) (c : Nat) (f : Cluster → Cluster) : (s.modCluster c f).peerOut = s.peerOut := rfl
@[simp] theorem State.modCluster_rdmaOut (s : State) (c : Nat) (f : Cluster → Cluster) : (s.modCluster c f).rdmaOut = s.rdmaOut := rfl
@[simp] theorem State.modCluster_conns (s : State) (c : Nat) (f : Cluster → Cluster) : (s.modCluster c f).conns = s.conns := rfl
@[simp] theorem State.modCluster_ports (s : State) (c : Nat) (f : Cluster → Cluster) : (s.modCluster c f).ports = s.ports := rfl
@[simp] theorem State.modCluster_nets (s : State) (c : Nat) (f : Cluster → Cluster) : (s.modCluster c f).nets = s.nets := rfl
@[simp] theorem State.modCluster_fabV (s : State) (c : Nat) (f : Cluster → Cluster) : (s.modCluster c f).fabV = s.fabV := rfl
@[simp] theorem State.modCluster_isRoot (s : State) (c : Nat) (f : Cluster → Cluster) : (s.modCluster c f).isRoot = s.isRoot := rfl
@[simp] theorem State.modCluster_links (s : State) (c : Nat) (f : Cluster → Cluster) : (s.modCluster c f).links = s.links := rfl
@[simp] theorem State.modCluster_routing (s : State) (c : Nat) (f : Cluster → Cluster) : (s.modCluster c f).routing = s.routing := rfl
@[simp] theorem State.modCluster_walk (s : State) (c : Nat) (f : Cluster → Cluster) : (s.modCluster c f).walk = s.walk := rfl
@[simp] theorem State.modCluster_sec (s : State) (c : Nat) (f : Cluster → Cluster) : (s.modCluster c f).sec = s.sec := rfl
@[simp] theorem State.modCluster_areaTop (s : State) (c : Nat) (f : Cluster → Cluster) : (s.modCluster c f).areaTop = s.areaTop := rfl
@[simp] theorem State.modCluster_hdrs (s : State) (c : Nat) (f : Cluster → Cluster) : (s.modCluster c f).hdrs = s.hdrs := rfl
@[simp] theorem State.modCluster_cpw (s : State) (c : Nat) (f : Cluster → Cluster) : (s.modCluster c f).cpw = s.cpw := rfl
@[simp] theorem State.modCluster_power (s : State) (c : Nat) (f : Cluster → Cluster) : (s.modCluster c f).power = s.power := rfl
@[simp] theorem State.modCluster_pm (s : State) (c : Nat) (f : Cluster → Cluster) : (s.modCluster c f).pm = s.pm := rfl

/-! ### modHub -/

@[simp] theorem State.modHub_pending (s : State) (c : Nat) (f : Hub → Hub) : (s.modHub c f).pending = s.pending := rfl
@[simp] theorem State.modHub_ltime (s : State) (c : Nat) (f : Hub → Hub) : (s.modHub c f).ltime = s.ltime := rfl
@[simp] theorem State.modHub_freeIx (s : State) (c : Nat) (f : Hub → Hub) : (s.modHub c f).freeIx = s.freeIx := rfl
@[simp] theorem State.modHub_serial (s : State) (c : Nat) (f : Hub → Hub) : (s.modHub c f).serial = s.serial := rfl
@[simp] theorem State.modHub_sent (s : State) (c : Nat) (f : Hub → Hub) : (s.modHub c f).sent = s.sent := rfl
@[simp] theorem State.modHub_cores (s : State) (c : Nat) (f : Hub → Hub) : (s.modHub c f).cores = s.cores := rfl
@[simp] theorem State.modHub_engines (s : State) (c : Nat) (f : Hub → Hub) : (s.modHub c f).engines = s.engines := rfl
@[simp] theorem State.modHub_channels (s : State) (c : Nat) (f : Hub → Hub) : (s.modHub c f).channels = s.channels := rfl
@[simp] theorem State.modHub_dieOut (s : State) (c : Nat) (f : Hub → Hub) : (s.modHub c f).dieOut = s.dieOut := rfl
@[simp] theorem State.modHub_parts (s : State) (c : Nat) (f : Hub → Hub) : (s.modHub c f).parts = s.parts := rfl
@[simp] theorem State.modHub_formes (s : State) (c : Nat) (f : Hub → Hub) : (s.modHub c f).formes = s.formes := rfl
@[simp] theorem State.modHub_fences (s : State) (c : Nat) (f : Hub → Hub) : (s.modHub c f).fences = s.fences := rfl
@[simp] theorem State.modHub_waits (s : State) (c : Nat) (f : Hub → Hub) : (s.modHub c f).waits = s.waits := rfl
@[simp] theorem State.modHub_barWaits (s : State) (c : Nat) (f : Hub → Hub) : (s.modHub c f).barWaits = s.barWaits := rfl
@[simp] theorem State.modHub_ctxs (s : State) (c : Nat) (f : Hub → Hub) : (s.modHub c f).ctxs = s.ctxs := rfl
@[simp] theorem State.modHub_lastCtx (s : State) (c : Nat) (f : Hub → Hub) : (s.modHub c f).lastCtx = s.lastCtx := rfl
@[simp] theorem State.modHub_queues (s : State) (c : Nat) (f : Hub → Hub) : (s.modHub c f).queues = s.queues := rfl
@[simp] theorem State.modHub_crings (s : State) (c : Nat) (f : Hub → Hub) : (s.modHub c f).crings = s.crings := rfl
@[simp] theorem State.modHub_jobs (s : State) (c : Nat) (f : Hub → Hub) : (s.modHub c f).jobs = s.jobs := rfl
@[simp] theorem State.modHub_recordArea (s : State) (c : Nat) (f : Hub → Hub) : (s.modHub c f).recordArea = s.recordArea := rfl
@[simp] theorem State.modHub_adminEn (s : State) (c : Nat) (f : Hub → Hub) : (s.modHub c f).adminEn = s.adminEn := rfl
@[simp] theorem State.modHub_adminOn (s : State) (c : Nat) (f : Hub → Hub) : (s.modHub c f).adminOn = s.adminOn := rfl
@[simp] theorem State.modHub_adminLog (s : State) (c : Nat) (f : Hub → Hub) : (s.modHub c f).adminLog = s.adminLog := rfl
@[simp] theorem State.modHub_adminBase (s : State) (c : Nat) (f : Hub → Hub) : (s.modHub c f).adminBase = s.adminBase := rfl
@[simp] theorem State.modHub_staleDb (s : State) (c : Nat) (f : Hub → Hub) : (s.modHub c f).staleDb = s.staleDb := rfl
@[simp] theorem State.modHub_staleClear (s : State) (c : Nat) (f : Hub → Hub) : (s.modHub c f).staleClear = s.staleClear := rfl
@[simp] theorem State.modHub_hbIgnored (s : State) (c : Nat) (f : Hub → Hub) : (s.modHub c f).hbIgnored = s.hbIgnored := rfl
@[simp] theorem State.modHub_fetchTurn (s : State) (c : Nat) (f : Hub → Hub) : (s.modHub c f).fetchTurn = s.fetchTurn := rfl
@[simp] theorem State.modHub_lateAcks (s : State) (c : Nat) (f : Hub → Hub) : (s.modHub c f).lateAcks = s.lateAcks := rfl
@[simp] theorem State.modHub_areaChans (s : State) (c : Nat) (f : Hub → Hub) : (s.modHub c f).areaChans = s.areaChans := rfl
@[simp] theorem State.modHub_waiting (s : State) (c : Nat) (f : Hub → Hub) : (s.modHub c f).waiting = s.waiting := rfl
@[simp] theorem State.modHub_partMsgs (s : State) (c : Nat) (f : Hub → Hub) : (s.modHub c f).partMsgs = s.partMsgs := rfl
@[simp] theorem State.modHub_answered (s : State) (c : Nat) (f : Hub → Hub) : (s.modHub c f).answered = s.answered := rfl
@[simp] theorem State.modHub_unanswered (s : State) (c : Nat) (f : Hub → Hub) : (s.modHub c f).unanswered = s.unanswered := rfl
@[simp] theorem State.modHub_keys (s : State) (c : Nat) (f : Hub → Hub) : (s.modHub c f).keys = s.keys := rfl
@[simp] theorem State.modHub_shares (s : State) (c : Nat) (f : Hub → Hub) : (s.modHub c f).shares = s.shares := rfl
@[simp] theorem State.modHub_sessions (s : State) (c : Nat) (f : Hub → Hub) : (s.modHub c f).sessions = s.sessions := rfl
@[simp] theorem State.modHub_keySerial (s : State) (c : Nat) (f : Hub → Hub) : (s.modHub c f).keySerial = s.keySerial := rfl
@[simp] theorem State.modHub_caches (s : State) (c : Nat) (f : Hub → Hub) : (s.modHub c f).caches = s.caches := rfl
@[simp] theorem State.modHub_agent (s : State) (c : Nat) (f : Hub → Hub) : (s.modHub c f).agent = s.agent := rfl
@[simp] theorem State.modHub_errRing (s : State) (c : Nat) (f : Hub → Hub) : (s.modHub c f).errRing = s.errRing := rfl
@[simp] theorem State.modHub_errProd (s : State) (c : Nat) (f : Hub → Hub) : (s.modHub c f).errProd = s.errProd := rfl
@[simp] theorem State.modHub_errCons (s : State) (c : Nat) (f : Hub → Hub) : (s.modHub c f).errCons = s.errCons := rfl
@[simp] theorem State.modHub_errOvf (s : State) (c : Nat) (f : Hub → Hub) : (s.modHub c f).errOvf = s.errOvf := rfl
@[simp] theorem State.modHub_coreHang (s : State) (c : Nat) (f : Hub → Hub) : (s.modHub c f).coreHang = s.coreHang := rfl
@[simp] theorem State.modHub_cpHang (s : State) (c : Nat) (f : Hub → Hub) : (s.modHub c f).cpHang = s.cpHang := rfl
@[simp] theorem State.modHub_quarantine (s : State) (c : Nat) (f : Hub → Hub) : (s.modHub c f).quarantine = s.quarantine := rfl
@[simp] theorem State.modHub_dieFenced (s : State) (c : Nat) (f : Hub → Hub) : (s.modHub c f).dieFenced = s.dieFenced := rfl
@[simp] theorem State.modHub_failed (s : State) (c : Nat) (f : Hub → Hub) : (s.modHub c f).failed = s.failed := rfl
@[simp] theorem State.modHub_ladders (s : State) (c : Nat) (f : Hub → Hub) : (s.modHub c f).ladders = s.ladders := rfl
@[simp] theorem State.modHub_culprits (s : State) (c : Nat) (f : Hub → Hub) : (s.modHub c f).culprits = s.culprits := rfl
@[simp] theorem State.modHub_fabAddr (s : State) (c : Nat) (f : Hub → Hub) : (s.modHub c f).fabAddr = s.fabAddr := rfl
@[simp] theorem State.modHub_egress (s : State) (c : Nat) (f : Hub → Hub) : (s.modHub c f).egress = s.egress := rfl
@[simp] theorem State.modHub_inbox (s : State) (c : Nat) (f : Hub → Hub) : (s.modHub c f).inbox = s.inbox := rfl
@[simp] theorem State.modHub_peerOut (s : State) (c : Nat) (f : Hub → Hub) : (s.modHub c f).peerOut = s.peerOut := rfl
@[simp] theorem State.modHub_rdmaOut (s : State) (c : Nat) (f : Hub → Hub) : (s.modHub c f).rdmaOut = s.rdmaOut := rfl
@[simp] theorem State.modHub_conns (s : State) (c : Nat) (f : Hub → Hub) : (s.modHub c f).conns = s.conns := rfl
@[simp] theorem State.modHub_ports (s : State) (c : Nat) (f : Hub → Hub) : (s.modHub c f).ports = s.ports := rfl
@[simp] theorem State.modHub_nets (s : State) (c : Nat) (f : Hub → Hub) : (s.modHub c f).nets = s.nets := rfl
@[simp] theorem State.modHub_fabV (s : State) (c : Nat) (f : Hub → Hub) : (s.modHub c f).fabV = s.fabV := rfl
@[simp] theorem State.modHub_isRoot (s : State) (c : Nat) (f : Hub → Hub) : (s.modHub c f).isRoot = s.isRoot := rfl
@[simp] theorem State.modHub_links (s : State) (c : Nat) (f : Hub → Hub) : (s.modHub c f).links = s.links := rfl
@[simp] theorem State.modHub_routing (s : State) (c : Nat) (f : Hub → Hub) : (s.modHub c f).routing = s.routing := rfl
@[simp] theorem State.modHub_walk (s : State) (c : Nat) (f : Hub → Hub) : (s.modHub c f).walk = s.walk := rfl
@[simp] theorem State.modHub_sec (s : State) (c : Nat) (f : Hub → Hub) : (s.modHub c f).sec = s.sec := rfl
@[simp] theorem State.modHub_areaTop (s : State) (c : Nat) (f : Hub → Hub) : (s.modHub c f).areaTop = s.areaTop := rfl
@[simp] theorem State.modHub_hdrs (s : State) (c : Nat) (f : Hub → Hub) : (s.modHub c f).hdrs = s.hdrs := rfl
@[simp] theorem State.modHub_cpw (s : State) (c : Nat) (f : Hub → Hub) : (s.modHub c f).cpw = s.cpw := rfl
@[simp] theorem State.modHub_power (s : State) (c : Nat) (f : Hub → Hub) : (s.modHub c f).power = s.power := rfl
@[simp] theorem State.modHub_pm (s : State) (c : Nat) (f : Hub → Hub) : (s.modHub c f).pm = s.pm := rfl

/-! ### modEngine -/

@[simp] theorem State.modEngine_pending (s : State) (e : Nat) (f : StreamEngine → StreamEngine) : (s.modEngine e f).pending = s.pending := rfl
@[simp] theorem State.modEngine_ltime (s : State) (e : Nat) (f : StreamEngine → StreamEngine) : (s.modEngine e f).ltime = s.ltime := rfl
@[simp] theorem State.modEngine_freeIx (s : State) (e : Nat) (f : StreamEngine → StreamEngine) : (s.modEngine e f).freeIx = s.freeIx := rfl
@[simp] theorem State.modEngine_serial (s : State) (e : Nat) (f : StreamEngine → StreamEngine) : (s.modEngine e f).serial = s.serial := rfl
@[simp] theorem State.modEngine_sent (s : State) (e : Nat) (f : StreamEngine → StreamEngine) : (s.modEngine e f).sent = s.sent := rfl
@[simp] theorem State.modEngine_cores (s : State) (e : Nat) (f : StreamEngine → StreamEngine) : (s.modEngine e f).cores = s.cores := rfl
@[simp] theorem State.modEngine_clusters (s : State) (e : Nat) (f : StreamEngine → StreamEngine) : (s.modEngine e f).clusters = s.clusters := rfl
@[simp] theorem State.modEngine_channels (s : State) (e : Nat) (f : StreamEngine → StreamEngine) : (s.modEngine e f).channels = s.channels := rfl
@[simp] theorem State.modEngine_dieOut (s : State) (e : Nat) (f : StreamEngine → StreamEngine) : (s.modEngine e f).dieOut = s.dieOut := rfl
@[simp] theorem State.modEngine_parts (s : State) (e : Nat) (f : StreamEngine → StreamEngine) : (s.modEngine e f).parts = s.parts := rfl
@[simp] theorem State.modEngine_formes (s : State) (e : Nat) (f : StreamEngine → StreamEngine) : (s.modEngine e f).formes = s.formes := rfl
@[simp] theorem State.modEngine_fences (s : State) (e : Nat) (f : StreamEngine → StreamEngine) : (s.modEngine e f).fences = s.fences := rfl
@[simp] theorem State.modEngine_waits (s : State) (e : Nat) (f : StreamEngine → StreamEngine) : (s.modEngine e f).waits = s.waits := rfl
@[simp] theorem State.modEngine_barWaits (s : State) (e : Nat) (f : StreamEngine → StreamEngine) : (s.modEngine e f).barWaits = s.barWaits := rfl
@[simp] theorem State.modEngine_ctxs (s : State) (e : Nat) (f : StreamEngine → StreamEngine) : (s.modEngine e f).ctxs = s.ctxs := rfl
@[simp] theorem State.modEngine_lastCtx (s : State) (e : Nat) (f : StreamEngine → StreamEngine) : (s.modEngine e f).lastCtx = s.lastCtx := rfl
@[simp] theorem State.modEngine_queues (s : State) (e : Nat) (f : StreamEngine → StreamEngine) : (s.modEngine e f).queues = s.queues := rfl
@[simp] theorem State.modEngine_crings (s : State) (e : Nat) (f : StreamEngine → StreamEngine) : (s.modEngine e f).crings = s.crings := rfl
@[simp] theorem State.modEngine_jobs (s : State) (e : Nat) (f : StreamEngine → StreamEngine) : (s.modEngine e f).jobs = s.jobs := rfl
@[simp] theorem State.modEngine_recordArea (s : State) (e : Nat) (f : StreamEngine → StreamEngine) : (s.modEngine e f).recordArea = s.recordArea := rfl
@[simp] theorem State.modEngine_adminEn (s : State) (e : Nat) (f : StreamEngine → StreamEngine) : (s.modEngine e f).adminEn = s.adminEn := rfl
@[simp] theorem State.modEngine_adminOn (s : State) (e : Nat) (f : StreamEngine → StreamEngine) : (s.modEngine e f).adminOn = s.adminOn := rfl
@[simp] theorem State.modEngine_adminLog (s : State) (e : Nat) (f : StreamEngine → StreamEngine) : (s.modEngine e f).adminLog = s.adminLog := rfl
@[simp] theorem State.modEngine_adminBase (s : State) (e : Nat) (f : StreamEngine → StreamEngine) : (s.modEngine e f).adminBase = s.adminBase := rfl
@[simp] theorem State.modEngine_staleDb (s : State) (e : Nat) (f : StreamEngine → StreamEngine) : (s.modEngine e f).staleDb = s.staleDb := rfl
@[simp] theorem State.modEngine_staleClear (s : State) (e : Nat) (f : StreamEngine → StreamEngine) : (s.modEngine e f).staleClear = s.staleClear := rfl
@[simp] theorem State.modEngine_hbIgnored (s : State) (e : Nat) (f : StreamEngine → StreamEngine) : (s.modEngine e f).hbIgnored = s.hbIgnored := rfl
@[simp] theorem State.modEngine_fetchTurn (s : State) (e : Nat) (f : StreamEngine → StreamEngine) : (s.modEngine e f).fetchTurn = s.fetchTurn := rfl
@[simp] theorem State.modEngine_lateAcks (s : State) (e : Nat) (f : StreamEngine → StreamEngine) : (s.modEngine e f).lateAcks = s.lateAcks := rfl
@[simp] theorem State.modEngine_areaChans (s : State) (e : Nat) (f : StreamEngine → StreamEngine) : (s.modEngine e f).areaChans = s.areaChans := rfl
@[simp] theorem State.modEngine_waiting (s : State) (e : Nat) (f : StreamEngine → StreamEngine) : (s.modEngine e f).waiting = s.waiting := rfl
@[simp] theorem State.modEngine_partMsgs (s : State) (e : Nat) (f : StreamEngine → StreamEngine) : (s.modEngine e f).partMsgs = s.partMsgs := rfl
@[simp] theorem State.modEngine_answered (s : State) (e : Nat) (f : StreamEngine → StreamEngine) : (s.modEngine e f).answered = s.answered := rfl
@[simp] theorem State.modEngine_unanswered (s : State) (e : Nat) (f : StreamEngine → StreamEngine) : (s.modEngine e f).unanswered = s.unanswered := rfl
@[simp] theorem State.modEngine_keys (s : State) (e : Nat) (f : StreamEngine → StreamEngine) : (s.modEngine e f).keys = s.keys := rfl
@[simp] theorem State.modEngine_shares (s : State) (e : Nat) (f : StreamEngine → StreamEngine) : (s.modEngine e f).shares = s.shares := rfl
@[simp] theorem State.modEngine_sessions (s : State) (e : Nat) (f : StreamEngine → StreamEngine) : (s.modEngine e f).sessions = s.sessions := rfl
@[simp] theorem State.modEngine_keySerial (s : State) (e : Nat) (f : StreamEngine → StreamEngine) : (s.modEngine e f).keySerial = s.keySerial := rfl
@[simp] theorem State.modEngine_caches (s : State) (e : Nat) (f : StreamEngine → StreamEngine) : (s.modEngine e f).caches = s.caches := rfl
@[simp] theorem State.modEngine_agent (s : State) (e : Nat) (f : StreamEngine → StreamEngine) : (s.modEngine e f).agent = s.agent := rfl
@[simp] theorem State.modEngine_errRing (s : State) (e : Nat) (f : StreamEngine → StreamEngine) : (s.modEngine e f).errRing = s.errRing := rfl
@[simp] theorem State.modEngine_errProd (s : State) (e : Nat) (f : StreamEngine → StreamEngine) : (s.modEngine e f).errProd = s.errProd := rfl
@[simp] theorem State.modEngine_errCons (s : State) (e : Nat) (f : StreamEngine → StreamEngine) : (s.modEngine e f).errCons = s.errCons := rfl
@[simp] theorem State.modEngine_errOvf (s : State) (e : Nat) (f : StreamEngine → StreamEngine) : (s.modEngine e f).errOvf = s.errOvf := rfl
@[simp] theorem State.modEngine_coreHang (s : State) (e : Nat) (f : StreamEngine → StreamEngine) : (s.modEngine e f).coreHang = s.coreHang := rfl
@[simp] theorem State.modEngine_cpHang (s : State) (e : Nat) (f : StreamEngine → StreamEngine) : (s.modEngine e f).cpHang = s.cpHang := rfl
@[simp] theorem State.modEngine_quarantine (s : State) (e : Nat) (f : StreamEngine → StreamEngine) : (s.modEngine e f).quarantine = s.quarantine := rfl
@[simp] theorem State.modEngine_dieFenced (s : State) (e : Nat) (f : StreamEngine → StreamEngine) : (s.modEngine e f).dieFenced = s.dieFenced := rfl
@[simp] theorem State.modEngine_failed (s : State) (e : Nat) (f : StreamEngine → StreamEngine) : (s.modEngine e f).failed = s.failed := rfl
@[simp] theorem State.modEngine_ladders (s : State) (e : Nat) (f : StreamEngine → StreamEngine) : (s.modEngine e f).ladders = s.ladders := rfl
@[simp] theorem State.modEngine_culprits (s : State) (e : Nat) (f : StreamEngine → StreamEngine) : (s.modEngine e f).culprits = s.culprits := rfl
@[simp] theorem State.modEngine_fabAddr (s : State) (e : Nat) (f : StreamEngine → StreamEngine) : (s.modEngine e f).fabAddr = s.fabAddr := rfl
@[simp] theorem State.modEngine_egress (s : State) (e : Nat) (f : StreamEngine → StreamEngine) : (s.modEngine e f).egress = s.egress := rfl
@[simp] theorem State.modEngine_inbox (s : State) (e : Nat) (f : StreamEngine → StreamEngine) : (s.modEngine e f).inbox = s.inbox := rfl
@[simp] theorem State.modEngine_peerOut (s : State) (e : Nat) (f : StreamEngine → StreamEngine) : (s.modEngine e f).peerOut = s.peerOut := rfl
@[simp] theorem State.modEngine_rdmaOut (s : State) (e : Nat) (f : StreamEngine → StreamEngine) : (s.modEngine e f).rdmaOut = s.rdmaOut := rfl
@[simp] theorem State.modEngine_conns (s : State) (e : Nat) (f : StreamEngine → StreamEngine) : (s.modEngine e f).conns = s.conns := rfl
@[simp] theorem State.modEngine_ports (s : State) (e : Nat) (f : StreamEngine → StreamEngine) : (s.modEngine e f).ports = s.ports := rfl
@[simp] theorem State.modEngine_nets (s : State) (e : Nat) (f : StreamEngine → StreamEngine) : (s.modEngine e f).nets = s.nets := rfl
@[simp] theorem State.modEngine_fabV (s : State) (e : Nat) (f : StreamEngine → StreamEngine) : (s.modEngine e f).fabV = s.fabV := rfl
@[simp] theorem State.modEngine_isRoot (s : State) (e : Nat) (f : StreamEngine → StreamEngine) : (s.modEngine e f).isRoot = s.isRoot := rfl
@[simp] theorem State.modEngine_links (s : State) (e : Nat) (f : StreamEngine → StreamEngine) : (s.modEngine e f).links = s.links := rfl
@[simp] theorem State.modEngine_routing (s : State) (e : Nat) (f : StreamEngine → StreamEngine) : (s.modEngine e f).routing = s.routing := rfl
@[simp] theorem State.modEngine_walk (s : State) (e : Nat) (f : StreamEngine → StreamEngine) : (s.modEngine e f).walk = s.walk := rfl
@[simp] theorem State.modEngine_sec (s : State) (e : Nat) (f : StreamEngine → StreamEngine) : (s.modEngine e f).sec = s.sec := rfl
@[simp] theorem State.modEngine_areaTop (s : State) (e : Nat) (f : StreamEngine → StreamEngine) : (s.modEngine e f).areaTop = s.areaTop := rfl
@[simp] theorem State.modEngine_hdrs (s : State) (e : Nat) (f : StreamEngine → StreamEngine) : (s.modEngine e f).hdrs = s.hdrs := rfl
@[simp] theorem State.modEngine_cpw (s : State) (e : Nat) (f : StreamEngine → StreamEngine) : (s.modEngine e f).cpw = s.cpw := rfl
@[simp] theorem State.modEngine_power (s : State) (e : Nat) (f : StreamEngine → StreamEngine) : (s.modEngine e f).power = s.power := rfl
@[simp] theorem State.modEngine_pm (s : State) (e : Nat) (f : StreamEngine → StreamEngine) : (s.modEngine e f).pm = s.pm := rfl

/-! ### modChannel -/

@[simp] theorem State.modChannel_pending (s : State) (c : Nat) (f : Channel → Channel) : (s.modChannel c f).pending = s.pending := rfl
@[simp] theorem State.modChannel_ltime (s : State) (c : Nat) (f : Channel → Channel) : (s.modChannel c f).ltime = s.ltime := rfl
@[simp] theorem State.modChannel_freeIx (s : State) (c : Nat) (f : Channel → Channel) : (s.modChannel c f).freeIx = s.freeIx := rfl
@[simp] theorem State.modChannel_serial (s : State) (c : Nat) (f : Channel → Channel) : (s.modChannel c f).serial = s.serial := rfl
@[simp] theorem State.modChannel_sent (s : State) (c : Nat) (f : Channel → Channel) : (s.modChannel c f).sent = s.sent := rfl
@[simp] theorem State.modChannel_cores (s : State) (c : Nat) (f : Channel → Channel) : (s.modChannel c f).cores = s.cores := rfl
@[simp] theorem State.modChannel_clusters (s : State) (c : Nat) (f : Channel → Channel) : (s.modChannel c f).clusters = s.clusters := rfl
@[simp] theorem State.modChannel_engines (s : State) (c : Nat) (f : Channel → Channel) : (s.modChannel c f).engines = s.engines := rfl
@[simp] theorem State.modChannel_dieOut (s : State) (c : Nat) (f : Channel → Channel) : (s.modChannel c f).dieOut = s.dieOut := rfl
@[simp] theorem State.modChannel_parts (s : State) (c : Nat) (f : Channel → Channel) : (s.modChannel c f).parts = s.parts := rfl
@[simp] theorem State.modChannel_formes (s : State) (c : Nat) (f : Channel → Channel) : (s.modChannel c f).formes = s.formes := rfl
@[simp] theorem State.modChannel_fences (s : State) (c : Nat) (f : Channel → Channel) : (s.modChannel c f).fences = s.fences := rfl
@[simp] theorem State.modChannel_waits (s : State) (c : Nat) (f : Channel → Channel) : (s.modChannel c f).waits = s.waits := rfl
@[simp] theorem State.modChannel_barWaits (s : State) (c : Nat) (f : Channel → Channel) : (s.modChannel c f).barWaits = s.barWaits := rfl
@[simp] theorem State.modChannel_ctxs (s : State) (c : Nat) (f : Channel → Channel) : (s.modChannel c f).ctxs = s.ctxs := rfl
@[simp] theorem State.modChannel_lastCtx (s : State) (c : Nat) (f : Channel → Channel) : (s.modChannel c f).lastCtx = s.lastCtx := rfl
@[simp] theorem State.modChannel_queues (s : State) (c : Nat) (f : Channel → Channel) : (s.modChannel c f).queues = s.queues := rfl
@[simp] theorem State.modChannel_crings (s : State) (c : Nat) (f : Channel → Channel) : (s.modChannel c f).crings = s.crings := rfl
@[simp] theorem State.modChannel_jobs (s : State) (c : Nat) (f : Channel → Channel) : (s.modChannel c f).jobs = s.jobs := rfl
@[simp] theorem State.modChannel_recordArea (s : State) (c : Nat) (f : Channel → Channel) : (s.modChannel c f).recordArea = s.recordArea := rfl
@[simp] theorem State.modChannel_adminEn (s : State) (c : Nat) (f : Channel → Channel) : (s.modChannel c f).adminEn = s.adminEn := rfl
@[simp] theorem State.modChannel_adminOn (s : State) (c : Nat) (f : Channel → Channel) : (s.modChannel c f).adminOn = s.adminOn := rfl
@[simp] theorem State.modChannel_adminLog (s : State) (c : Nat) (f : Channel → Channel) : (s.modChannel c f).adminLog = s.adminLog := rfl
@[simp] theorem State.modChannel_adminBase (s : State) (c : Nat) (f : Channel → Channel) : (s.modChannel c f).adminBase = s.adminBase := rfl
@[simp] theorem State.modChannel_staleDb (s : State) (c : Nat) (f : Channel → Channel) : (s.modChannel c f).staleDb = s.staleDb := rfl
@[simp] theorem State.modChannel_staleClear (s : State) (c : Nat) (f : Channel → Channel) : (s.modChannel c f).staleClear = s.staleClear := rfl
@[simp] theorem State.modChannel_hbIgnored (s : State) (c : Nat) (f : Channel → Channel) : (s.modChannel c f).hbIgnored = s.hbIgnored := rfl
@[simp] theorem State.modChannel_fetchTurn (s : State) (c : Nat) (f : Channel → Channel) : (s.modChannel c f).fetchTurn = s.fetchTurn := rfl
@[simp] theorem State.modChannel_lateAcks (s : State) (c : Nat) (f : Channel → Channel) : (s.modChannel c f).lateAcks = s.lateAcks := rfl
@[simp] theorem State.modChannel_areaChans (s : State) (c : Nat) (f : Channel → Channel) : (s.modChannel c f).areaChans = s.areaChans := rfl
@[simp] theorem State.modChannel_waiting (s : State) (c : Nat) (f : Channel → Channel) : (s.modChannel c f).waiting = s.waiting := rfl
@[simp] theorem State.modChannel_partMsgs (s : State) (c : Nat) (f : Channel → Channel) : (s.modChannel c f).partMsgs = s.partMsgs := rfl
@[simp] theorem State.modChannel_answered (s : State) (c : Nat) (f : Channel → Channel) : (s.modChannel c f).answered = s.answered := rfl
@[simp] theorem State.modChannel_unanswered (s : State) (c : Nat) (f : Channel → Channel) : (s.modChannel c f).unanswered = s.unanswered := rfl
@[simp] theorem State.modChannel_keys (s : State) (c : Nat) (f : Channel → Channel) : (s.modChannel c f).keys = s.keys := rfl
@[simp] theorem State.modChannel_shares (s : State) (c : Nat) (f : Channel → Channel) : (s.modChannel c f).shares = s.shares := rfl
@[simp] theorem State.modChannel_sessions (s : State) (c : Nat) (f : Channel → Channel) : (s.modChannel c f).sessions = s.sessions := rfl
@[simp] theorem State.modChannel_keySerial (s : State) (c : Nat) (f : Channel → Channel) : (s.modChannel c f).keySerial = s.keySerial := rfl
@[simp] theorem State.modChannel_caches (s : State) (c : Nat) (f : Channel → Channel) : (s.modChannel c f).caches = s.caches := rfl
@[simp] theorem State.modChannel_agent (s : State) (c : Nat) (f : Channel → Channel) : (s.modChannel c f).agent = s.agent := rfl
@[simp] theorem State.modChannel_errRing (s : State) (c : Nat) (f : Channel → Channel) : (s.modChannel c f).errRing = s.errRing := rfl
@[simp] theorem State.modChannel_errProd (s : State) (c : Nat) (f : Channel → Channel) : (s.modChannel c f).errProd = s.errProd := rfl
@[simp] theorem State.modChannel_errCons (s : State) (c : Nat) (f : Channel → Channel) : (s.modChannel c f).errCons = s.errCons := rfl
@[simp] theorem State.modChannel_errOvf (s : State) (c : Nat) (f : Channel → Channel) : (s.modChannel c f).errOvf = s.errOvf := rfl
@[simp] theorem State.modChannel_coreHang (s : State) (c : Nat) (f : Channel → Channel) : (s.modChannel c f).coreHang = s.coreHang := rfl
@[simp] theorem State.modChannel_cpHang (s : State) (c : Nat) (f : Channel → Channel) : (s.modChannel c f).cpHang = s.cpHang := rfl
@[simp] theorem State.modChannel_quarantine (s : State) (c : Nat) (f : Channel → Channel) : (s.modChannel c f).quarantine = s.quarantine := rfl
@[simp] theorem State.modChannel_dieFenced (s : State) (c : Nat) (f : Channel → Channel) : (s.modChannel c f).dieFenced = s.dieFenced := rfl
@[simp] theorem State.modChannel_failed (s : State) (c : Nat) (f : Channel → Channel) : (s.modChannel c f).failed = s.failed := rfl
@[simp] theorem State.modChannel_ladders (s : State) (c : Nat) (f : Channel → Channel) : (s.modChannel c f).ladders = s.ladders := rfl
@[simp] theorem State.modChannel_culprits (s : State) (c : Nat) (f : Channel → Channel) : (s.modChannel c f).culprits = s.culprits := rfl
@[simp] theorem State.modChannel_fabAddr (s : State) (c : Nat) (f : Channel → Channel) : (s.modChannel c f).fabAddr = s.fabAddr := rfl
@[simp] theorem State.modChannel_egress (s : State) (c : Nat) (f : Channel → Channel) : (s.modChannel c f).egress = s.egress := rfl
@[simp] theorem State.modChannel_inbox (s : State) (c : Nat) (f : Channel → Channel) : (s.modChannel c f).inbox = s.inbox := rfl
@[simp] theorem State.modChannel_peerOut (s : State) (c : Nat) (f : Channel → Channel) : (s.modChannel c f).peerOut = s.peerOut := rfl
@[simp] theorem State.modChannel_rdmaOut (s : State) (c : Nat) (f : Channel → Channel) : (s.modChannel c f).rdmaOut = s.rdmaOut := rfl
@[simp] theorem State.modChannel_conns (s : State) (c : Nat) (f : Channel → Channel) : (s.modChannel c f).conns = s.conns := rfl
@[simp] theorem State.modChannel_ports (s : State) (c : Nat) (f : Channel → Channel) : (s.modChannel c f).ports = s.ports := rfl
@[simp] theorem State.modChannel_nets (s : State) (c : Nat) (f : Channel → Channel) : (s.modChannel c f).nets = s.nets := rfl
@[simp] theorem State.modChannel_fabV (s : State) (c : Nat) (f : Channel → Channel) : (s.modChannel c f).fabV = s.fabV := rfl
@[simp] theorem State.modChannel_isRoot (s : State) (c : Nat) (f : Channel → Channel) : (s.modChannel c f).isRoot = s.isRoot := rfl
@[simp] theorem State.modChannel_links (s : State) (c : Nat) (f : Channel → Channel) : (s.modChannel c f).links = s.links := rfl
@[simp] theorem State.modChannel_routing (s : State) (c : Nat) (f : Channel → Channel) : (s.modChannel c f).routing = s.routing := rfl
@[simp] theorem State.modChannel_walk (s : State) (c : Nat) (f : Channel → Channel) : (s.modChannel c f).walk = s.walk := rfl
@[simp] theorem State.modChannel_sec (s : State) (c : Nat) (f : Channel → Channel) : (s.modChannel c f).sec = s.sec := rfl
@[simp] theorem State.modChannel_areaTop (s : State) (c : Nat) (f : Channel → Channel) : (s.modChannel c f).areaTop = s.areaTop := rfl
@[simp] theorem State.modChannel_hdrs (s : State) (c : Nat) (f : Channel → Channel) : (s.modChannel c f).hdrs = s.hdrs := rfl
@[simp] theorem State.modChannel_cpw (s : State) (c : Nat) (f : Channel → Channel) : (s.modChannel c f).cpw = s.cpw := rfl
@[simp] theorem State.modChannel_power (s : State) (c : Nat) (f : Channel → Channel) : (s.modChannel c f).power = s.power := rfl
@[simp] theorem State.modChannel_pm (s : State) (c : Nat) (f : Channel → Channel) : (s.modChannel c f).pm = s.pm := rfl

/-! ### modPart -/

@[simp] theorem State.modPart_pending (s : State) (p : Nat) (f : Partition → Partition) : (s.modPart p f).pending = s.pending := rfl
@[simp] theorem State.modPart_ltime (s : State) (p : Nat) (f : Partition → Partition) : (s.modPart p f).ltime = s.ltime := rfl
@[simp] theorem State.modPart_freeIx (s : State) (p : Nat) (f : Partition → Partition) : (s.modPart p f).freeIx = s.freeIx := rfl
@[simp] theorem State.modPart_serial (s : State) (p : Nat) (f : Partition → Partition) : (s.modPart p f).serial = s.serial := rfl
@[simp] theorem State.modPart_sent (s : State) (p : Nat) (f : Partition → Partition) : (s.modPart p f).sent = s.sent := rfl
@[simp] theorem State.modPart_cores (s : State) (p : Nat) (f : Partition → Partition) : (s.modPart p f).cores = s.cores := rfl
@[simp] theorem State.modPart_clusters (s : State) (p : Nat) (f : Partition → Partition) : (s.modPart p f).clusters = s.clusters := rfl
@[simp] theorem State.modPart_engines (s : State) (p : Nat) (f : Partition → Partition) : (s.modPart p f).engines = s.engines := rfl
@[simp] theorem State.modPart_channels (s : State) (p : Nat) (f : Partition → Partition) : (s.modPart p f).channels = s.channels := rfl
@[simp] theorem State.modPart_dieOut (s : State) (p : Nat) (f : Partition → Partition) : (s.modPart p f).dieOut = s.dieOut := rfl
@[simp] theorem State.modPart_formes (s : State) (p : Nat) (f : Partition → Partition) : (s.modPart p f).formes = s.formes := rfl
@[simp] theorem State.modPart_fences (s : State) (p : Nat) (f : Partition → Partition) : (s.modPart p f).fences = s.fences := rfl
@[simp] theorem State.modPart_waits (s : State) (p : Nat) (f : Partition → Partition) : (s.modPart p f).waits = s.waits := rfl
@[simp] theorem State.modPart_barWaits (s : State) (p : Nat) (f : Partition → Partition) : (s.modPart p f).barWaits = s.barWaits := rfl
@[simp] theorem State.modPart_ctxs (s : State) (p : Nat) (f : Partition → Partition) : (s.modPart p f).ctxs = s.ctxs := rfl
@[simp] theorem State.modPart_lastCtx (s : State) (p : Nat) (f : Partition → Partition) : (s.modPart p f).lastCtx = s.lastCtx := rfl
@[simp] theorem State.modPart_queues (s : State) (p : Nat) (f : Partition → Partition) : (s.modPart p f).queues = s.queues := rfl
@[simp] theorem State.modPart_crings (s : State) (p : Nat) (f : Partition → Partition) : (s.modPart p f).crings = s.crings := rfl
@[simp] theorem State.modPart_jobs (s : State) (p : Nat) (f : Partition → Partition) : (s.modPart p f).jobs = s.jobs := rfl
@[simp] theorem State.modPart_recordArea (s : State) (p : Nat) (f : Partition → Partition) : (s.modPart p f).recordArea = s.recordArea := rfl
@[simp] theorem State.modPart_adminEn (s : State) (p : Nat) (f : Partition → Partition) : (s.modPart p f).adminEn = s.adminEn := rfl
@[simp] theorem State.modPart_adminOn (s : State) (p : Nat) (f : Partition → Partition) : (s.modPart p f).adminOn = s.adminOn := rfl
@[simp] theorem State.modPart_adminLog (s : State) (p : Nat) (f : Partition → Partition) : (s.modPart p f).adminLog = s.adminLog := rfl
@[simp] theorem State.modPart_adminBase (s : State) (p : Nat) (f : Partition → Partition) : (s.modPart p f).adminBase = s.adminBase := rfl
@[simp] theorem State.modPart_staleDb (s : State) (p : Nat) (f : Partition → Partition) : (s.modPart p f).staleDb = s.staleDb := rfl
@[simp] theorem State.modPart_staleClear (s : State) (p : Nat) (f : Partition → Partition) : (s.modPart p f).staleClear = s.staleClear := rfl
@[simp] theorem State.modPart_hbIgnored (s : State) (p : Nat) (f : Partition → Partition) : (s.modPart p f).hbIgnored = s.hbIgnored := rfl
@[simp] theorem State.modPart_fetchTurn (s : State) (p : Nat) (f : Partition → Partition) : (s.modPart p f).fetchTurn = s.fetchTurn := rfl
@[simp] theorem State.modPart_lateAcks (s : State) (p : Nat) (f : Partition → Partition) : (s.modPart p f).lateAcks = s.lateAcks := rfl
@[simp] theorem State.modPart_areaChans (s : State) (p : Nat) (f : Partition → Partition) : (s.modPart p f).areaChans = s.areaChans := rfl
@[simp] theorem State.modPart_waiting (s : State) (p : Nat) (f : Partition → Partition) : (s.modPart p f).waiting = s.waiting := rfl
@[simp] theorem State.modPart_partMsgs (s : State) (p : Nat) (f : Partition → Partition) : (s.modPart p f).partMsgs = s.partMsgs := rfl
@[simp] theorem State.modPart_answered (s : State) (p : Nat) (f : Partition → Partition) : (s.modPart p f).answered = s.answered := rfl
@[simp] theorem State.modPart_unanswered (s : State) (p : Nat) (f : Partition → Partition) : (s.modPart p f).unanswered = s.unanswered := rfl
@[simp] theorem State.modPart_keys (s : State) (p : Nat) (f : Partition → Partition) : (s.modPart p f).keys = s.keys := rfl
@[simp] theorem State.modPart_shares (s : State) (p : Nat) (f : Partition → Partition) : (s.modPart p f).shares = s.shares := rfl
@[simp] theorem State.modPart_sessions (s : State) (p : Nat) (f : Partition → Partition) : (s.modPart p f).sessions = s.sessions := rfl
@[simp] theorem State.modPart_keySerial (s : State) (p : Nat) (f : Partition → Partition) : (s.modPart p f).keySerial = s.keySerial := rfl
@[simp] theorem State.modPart_caches (s : State) (p : Nat) (f : Partition → Partition) : (s.modPart p f).caches = s.caches := rfl
@[simp] theorem State.modPart_agent (s : State) (p : Nat) (f : Partition → Partition) : (s.modPart p f).agent = s.agent := rfl
@[simp] theorem State.modPart_errRing (s : State) (p : Nat) (f : Partition → Partition) : (s.modPart p f).errRing = s.errRing := rfl
@[simp] theorem State.modPart_errProd (s : State) (p : Nat) (f : Partition → Partition) : (s.modPart p f).errProd = s.errProd := rfl
@[simp] theorem State.modPart_errCons (s : State) (p : Nat) (f : Partition → Partition) : (s.modPart p f).errCons = s.errCons := rfl
@[simp] theorem State.modPart_errOvf (s : State) (p : Nat) (f : Partition → Partition) : (s.modPart p f).errOvf = s.errOvf := rfl
@[simp] theorem State.modPart_coreHang (s : State) (p : Nat) (f : Partition → Partition) : (s.modPart p f).coreHang = s.coreHang := rfl
@[simp] theorem State.modPart_cpHang (s : State) (p : Nat) (f : Partition → Partition) : (s.modPart p f).cpHang = s.cpHang := rfl
@[simp] theorem State.modPart_quarantine (s : State) (p : Nat) (f : Partition → Partition) : (s.modPart p f).quarantine = s.quarantine := rfl
@[simp] theorem State.modPart_dieFenced (s : State) (p : Nat) (f : Partition → Partition) : (s.modPart p f).dieFenced = s.dieFenced := rfl
@[simp] theorem State.modPart_failed (s : State) (p : Nat) (f : Partition → Partition) : (s.modPart p f).failed = s.failed := rfl
@[simp] theorem State.modPart_ladders (s : State) (p : Nat) (f : Partition → Partition) : (s.modPart p f).ladders = s.ladders := rfl
@[simp] theorem State.modPart_culprits (s : State) (p : Nat) (f : Partition → Partition) : (s.modPart p f).culprits = s.culprits := rfl
@[simp] theorem State.modPart_fabAddr (s : State) (p : Nat) (f : Partition → Partition) : (s.modPart p f).fabAddr = s.fabAddr := rfl
@[simp] theorem State.modPart_egress (s : State) (p : Nat) (f : Partition → Partition) : (s.modPart p f).egress = s.egress := rfl
@[simp] theorem State.modPart_inbox (s : State) (p : Nat) (f : Partition → Partition) : (s.modPart p f).inbox = s.inbox := rfl
@[simp] theorem State.modPart_peerOut (s : State) (p : Nat) (f : Partition → Partition) : (s.modPart p f).peerOut = s.peerOut := rfl
@[simp] theorem State.modPart_rdmaOut (s : State) (p : Nat) (f : Partition → Partition) : (s.modPart p f).rdmaOut = s.rdmaOut := rfl
@[simp] theorem State.modPart_conns (s : State) (p : Nat) (f : Partition → Partition) : (s.modPart p f).conns = s.conns := rfl
@[simp] theorem State.modPart_ports (s : State) (p : Nat) (f : Partition → Partition) : (s.modPart p f).ports = s.ports := rfl
@[simp] theorem State.modPart_nets (s : State) (p : Nat) (f : Partition → Partition) : (s.modPart p f).nets = s.nets := rfl
@[simp] theorem State.modPart_fabV (s : State) (p : Nat) (f : Partition → Partition) : (s.modPart p f).fabV = s.fabV := rfl
@[simp] theorem State.modPart_isRoot (s : State) (p : Nat) (f : Partition → Partition) : (s.modPart p f).isRoot = s.isRoot := rfl
@[simp] theorem State.modPart_links (s : State) (p : Nat) (f : Partition → Partition) : (s.modPart p f).links = s.links := rfl
@[simp] theorem State.modPart_routing (s : State) (p : Nat) (f : Partition → Partition) : (s.modPart p f).routing = s.routing := rfl
@[simp] theorem State.modPart_walk (s : State) (p : Nat) (f : Partition → Partition) : (s.modPart p f).walk = s.walk := rfl
@[simp] theorem State.modPart_sec (s : State) (p : Nat) (f : Partition → Partition) : (s.modPart p f).sec = s.sec := rfl
@[simp] theorem State.modPart_areaTop (s : State) (p : Nat) (f : Partition → Partition) : (s.modPart p f).areaTop = s.areaTop := rfl
@[simp] theorem State.modPart_hdrs (s : State) (p : Nat) (f : Partition → Partition) : (s.modPart p f).hdrs = s.hdrs := rfl
@[simp] theorem State.modPart_cpw (s : State) (p : Nat) (f : Partition → Partition) : (s.modPart p f).cpw = s.cpw := rfl
@[simp] theorem State.modPart_power (s : State) (p : Nat) (f : Partition → Partition) : (s.modPart p f).power = s.power := rfl
@[simp] theorem State.modPart_pm (s : State) (p : Nat) (f : Partition → Partition) : (s.modPart p f).pm = s.pm := rfl

/-! ### modFence -/

@[simp] theorem State.modFence_pending (s : State) (n : Nat) (f : Fence → Fence) : (s.modFence n f).pending = s.pending := rfl
@[simp] theorem State.modFence_ltime (s : State) (n : Nat) (f : Fence → Fence) : (s.modFence n f).ltime = s.ltime := rfl
@[simp] theorem State.modFence_freeIx (s : State) (n : Nat) (f : Fence → Fence) : (s.modFence n f).freeIx = s.freeIx := rfl
@[simp] theorem State.modFence_serial (s : State) (n : Nat) (f : Fence → Fence) : (s.modFence n f).serial = s.serial := rfl
@[simp] theorem State.modFence_sent (s : State) (n : Nat) (f : Fence → Fence) : (s.modFence n f).sent = s.sent := rfl
@[simp] theorem State.modFence_cores (s : State) (n : Nat) (f : Fence → Fence) : (s.modFence n f).cores = s.cores := rfl
@[simp] theorem State.modFence_clusters (s : State) (n : Nat) (f : Fence → Fence) : (s.modFence n f).clusters = s.clusters := rfl
@[simp] theorem State.modFence_engines (s : State) (n : Nat) (f : Fence → Fence) : (s.modFence n f).engines = s.engines := rfl
@[simp] theorem State.modFence_channels (s : State) (n : Nat) (f : Fence → Fence) : (s.modFence n f).channels = s.channels := rfl
@[simp] theorem State.modFence_dieOut (s : State) (n : Nat) (f : Fence → Fence) : (s.modFence n f).dieOut = s.dieOut := rfl
@[simp] theorem State.modFence_parts (s : State) (n : Nat) (f : Fence → Fence) : (s.modFence n f).parts = s.parts := rfl
@[simp] theorem State.modFence_formes (s : State) (n : Nat) (f : Fence → Fence) : (s.modFence n f).formes = s.formes := rfl
@[simp] theorem State.modFence_waits (s : State) (n : Nat) (f : Fence → Fence) : (s.modFence n f).waits = s.waits := rfl
@[simp] theorem State.modFence_barWaits (s : State) (n : Nat) (f : Fence → Fence) : (s.modFence n f).barWaits = s.barWaits := rfl
@[simp] theorem State.modFence_ctxs (s : State) (n : Nat) (f : Fence → Fence) : (s.modFence n f).ctxs = s.ctxs := rfl
@[simp] theorem State.modFence_lastCtx (s : State) (n : Nat) (f : Fence → Fence) : (s.modFence n f).lastCtx = s.lastCtx := rfl
@[simp] theorem State.modFence_queues (s : State) (n : Nat) (f : Fence → Fence) : (s.modFence n f).queues = s.queues := rfl
@[simp] theorem State.modFence_crings (s : State) (n : Nat) (f : Fence → Fence) : (s.modFence n f).crings = s.crings := rfl
@[simp] theorem State.modFence_jobs (s : State) (n : Nat) (f : Fence → Fence) : (s.modFence n f).jobs = s.jobs := rfl
@[simp] theorem State.modFence_recordArea (s : State) (n : Nat) (f : Fence → Fence) : (s.modFence n f).recordArea = s.recordArea := rfl
@[simp] theorem State.modFence_adminEn (s : State) (n : Nat) (f : Fence → Fence) : (s.modFence n f).adminEn = s.adminEn := rfl
@[simp] theorem State.modFence_adminOn (s : State) (n : Nat) (f : Fence → Fence) : (s.modFence n f).adminOn = s.adminOn := rfl
@[simp] theorem State.modFence_adminLog (s : State) (n : Nat) (f : Fence → Fence) : (s.modFence n f).adminLog = s.adminLog := rfl
@[simp] theorem State.modFence_adminBase (s : State) (n : Nat) (f : Fence → Fence) : (s.modFence n f).adminBase = s.adminBase := rfl
@[simp] theorem State.modFence_staleDb (s : State) (n : Nat) (f : Fence → Fence) : (s.modFence n f).staleDb = s.staleDb := rfl
@[simp] theorem State.modFence_staleClear (s : State) (n : Nat) (f : Fence → Fence) : (s.modFence n f).staleClear = s.staleClear := rfl
@[simp] theorem State.modFence_hbIgnored (s : State) (n : Nat) (f : Fence → Fence) : (s.modFence n f).hbIgnored = s.hbIgnored := rfl
@[simp] theorem State.modFence_fetchTurn (s : State) (n : Nat) (f : Fence → Fence) : (s.modFence n f).fetchTurn = s.fetchTurn := rfl
@[simp] theorem State.modFence_lateAcks (s : State) (n : Nat) (f : Fence → Fence) : (s.modFence n f).lateAcks = s.lateAcks := rfl
@[simp] theorem State.modFence_areaChans (s : State) (n : Nat) (f : Fence → Fence) : (s.modFence n f).areaChans = s.areaChans := rfl
@[simp] theorem State.modFence_waiting (s : State) (n : Nat) (f : Fence → Fence) : (s.modFence n f).waiting = s.waiting := rfl
@[simp] theorem State.modFence_partMsgs (s : State) (n : Nat) (f : Fence → Fence) : (s.modFence n f).partMsgs = s.partMsgs := rfl
@[simp] theorem State.modFence_answered (s : State) (n : Nat) (f : Fence → Fence) : (s.modFence n f).answered = s.answered := rfl
@[simp] theorem State.modFence_unanswered (s : State) (n : Nat) (f : Fence → Fence) : (s.modFence n f).unanswered = s.unanswered := rfl
@[simp] theorem State.modFence_keys (s : State) (n : Nat) (f : Fence → Fence) : (s.modFence n f).keys = s.keys := rfl
@[simp] theorem State.modFence_shares (s : State) (n : Nat) (f : Fence → Fence) : (s.modFence n f).shares = s.shares := rfl
@[simp] theorem State.modFence_sessions (s : State) (n : Nat) (f : Fence → Fence) : (s.modFence n f).sessions = s.sessions := rfl
@[simp] theorem State.modFence_keySerial (s : State) (n : Nat) (f : Fence → Fence) : (s.modFence n f).keySerial = s.keySerial := rfl
@[simp] theorem State.modFence_caches (s : State) (n : Nat) (f : Fence → Fence) : (s.modFence n f).caches = s.caches := rfl
@[simp] theorem State.modFence_agent (s : State) (n : Nat) (f : Fence → Fence) : (s.modFence n f).agent = s.agent := rfl
@[simp] theorem State.modFence_errRing (s : State) (n : Nat) (f : Fence → Fence) : (s.modFence n f).errRing = s.errRing := rfl
@[simp] theorem State.modFence_errProd (s : State) (n : Nat) (f : Fence → Fence) : (s.modFence n f).errProd = s.errProd := rfl
@[simp] theorem State.modFence_errCons (s : State) (n : Nat) (f : Fence → Fence) : (s.modFence n f).errCons = s.errCons := rfl
@[simp] theorem State.modFence_errOvf (s : State) (n : Nat) (f : Fence → Fence) : (s.modFence n f).errOvf = s.errOvf := rfl
@[simp] theorem State.modFence_coreHang (s : State) (n : Nat) (f : Fence → Fence) : (s.modFence n f).coreHang = s.coreHang := rfl
@[simp] theorem State.modFence_cpHang (s : State) (n : Nat) (f : Fence → Fence) : (s.modFence n f).cpHang = s.cpHang := rfl
@[simp] theorem State.modFence_quarantine (s : State) (n : Nat) (f : Fence → Fence) : (s.modFence n f).quarantine = s.quarantine := rfl
@[simp] theorem State.modFence_dieFenced (s : State) (n : Nat) (f : Fence → Fence) : (s.modFence n f).dieFenced = s.dieFenced := rfl
@[simp] theorem State.modFence_failed (s : State) (n : Nat) (f : Fence → Fence) : (s.modFence n f).failed = s.failed := rfl
@[simp] theorem State.modFence_ladders (s : State) (n : Nat) (f : Fence → Fence) : (s.modFence n f).ladders = s.ladders := rfl
@[simp] theorem State.modFence_culprits (s : State) (n : Nat) (f : Fence → Fence) : (s.modFence n f).culprits = s.culprits := rfl
@[simp] theorem State.modFence_fabAddr (s : State) (n : Nat) (f : Fence → Fence) : (s.modFence n f).fabAddr = s.fabAddr := rfl
@[simp] theorem State.modFence_egress (s : State) (n : Nat) (f : Fence → Fence) : (s.modFence n f).egress = s.egress := rfl
@[simp] theorem State.modFence_inbox (s : State) (n : Nat) (f : Fence → Fence) : (s.modFence n f).inbox = s.inbox := rfl
@[simp] theorem State.modFence_peerOut (s : State) (n : Nat) (f : Fence → Fence) : (s.modFence n f).peerOut = s.peerOut := rfl
@[simp] theorem State.modFence_rdmaOut (s : State) (n : Nat) (f : Fence → Fence) : (s.modFence n f).rdmaOut = s.rdmaOut := rfl
@[simp] theorem State.modFence_conns (s : State) (n : Nat) (f : Fence → Fence) : (s.modFence n f).conns = s.conns := rfl
@[simp] theorem State.modFence_ports (s : State) (n : Nat) (f : Fence → Fence) : (s.modFence n f).ports = s.ports := rfl
@[simp] theorem State.modFence_nets (s : State) (n : Nat) (f : Fence → Fence) : (s.modFence n f).nets = s.nets := rfl
@[simp] theorem State.modFence_fabV (s : State) (n : Nat) (f : Fence → Fence) : (s.modFence n f).fabV = s.fabV := rfl
@[simp] theorem State.modFence_isRoot (s : State) (n : Nat) (f : Fence → Fence) : (s.modFence n f).isRoot = s.isRoot := rfl
@[simp] theorem State.modFence_links (s : State) (n : Nat) (f : Fence → Fence) : (s.modFence n f).links = s.links := rfl
@[simp] theorem State.modFence_routing (s : State) (n : Nat) (f : Fence → Fence) : (s.modFence n f).routing = s.routing := rfl
@[simp] theorem State.modFence_walk (s : State) (n : Nat) (f : Fence → Fence) : (s.modFence n f).walk = s.walk := rfl
@[simp] theorem State.modFence_sec (s : State) (n : Nat) (f : Fence → Fence) : (s.modFence n f).sec = s.sec := rfl
@[simp] theorem State.modFence_areaTop (s : State) (n : Nat) (f : Fence → Fence) : (s.modFence n f).areaTop = s.areaTop := rfl
@[simp] theorem State.modFence_hdrs (s : State) (n : Nat) (f : Fence → Fence) : (s.modFence n f).hdrs = s.hdrs := rfl
@[simp] theorem State.modFence_cpw (s : State) (n : Nat) (f : Fence → Fence) : (s.modFence n f).cpw = s.cpw := rfl
@[simp] theorem State.modFence_power (s : State) (n : Nat) (f : Fence → Fence) : (s.modFence n f).power = s.power := rfl
@[simp] theorem State.modFence_pm (s : State) (n : Nat) (f : Fence → Fence) : (s.modFence n f).pm = s.pm := rfl

/-! ### modCtx -/

@[simp] theorem State.modCtx_pending (s : State) (n : Nat) (f : Context → Context) : (s.modCtx n f).pending = s.pending := rfl
@[simp] theorem State.modCtx_ltime (s : State) (n : Nat) (f : Context → Context) : (s.modCtx n f).ltime = s.ltime := rfl
@[simp] theorem State.modCtx_freeIx (s : State) (n : Nat) (f : Context → Context) : (s.modCtx n f).freeIx = s.freeIx := rfl
@[simp] theorem State.modCtx_serial (s : State) (n : Nat) (f : Context → Context) : (s.modCtx n f).serial = s.serial := rfl
@[simp] theorem State.modCtx_sent (s : State) (n : Nat) (f : Context → Context) : (s.modCtx n f).sent = s.sent := rfl
@[simp] theorem State.modCtx_cores (s : State) (n : Nat) (f : Context → Context) : (s.modCtx n f).cores = s.cores := rfl
@[simp] theorem State.modCtx_clusters (s : State) (n : Nat) (f : Context → Context) : (s.modCtx n f).clusters = s.clusters := rfl
@[simp] theorem State.modCtx_engines (s : State) (n : Nat) (f : Context → Context) : (s.modCtx n f).engines = s.engines := rfl
@[simp] theorem State.modCtx_channels (s : State) (n : Nat) (f : Context → Context) : (s.modCtx n f).channels = s.channels := rfl
@[simp] theorem State.modCtx_dieOut (s : State) (n : Nat) (f : Context → Context) : (s.modCtx n f).dieOut = s.dieOut := rfl
@[simp] theorem State.modCtx_parts (s : State) (n : Nat) (f : Context → Context) : (s.modCtx n f).parts = s.parts := rfl
@[simp] theorem State.modCtx_formes (s : State) (n : Nat) (f : Context → Context) : (s.modCtx n f).formes = s.formes := rfl
@[simp] theorem State.modCtx_fences (s : State) (n : Nat) (f : Context → Context) : (s.modCtx n f).fences = s.fences := rfl
@[simp] theorem State.modCtx_waits (s : State) (n : Nat) (f : Context → Context) : (s.modCtx n f).waits = s.waits := rfl
@[simp] theorem State.modCtx_barWaits (s : State) (n : Nat) (f : Context → Context) : (s.modCtx n f).barWaits = s.barWaits := rfl
@[simp] theorem State.modCtx_lastCtx (s : State) (n : Nat) (f : Context → Context) : (s.modCtx n f).lastCtx = s.lastCtx := rfl
@[simp] theorem State.modCtx_queues (s : State) (n : Nat) (f : Context → Context) : (s.modCtx n f).queues = s.queues := rfl
@[simp] theorem State.modCtx_crings (s : State) (n : Nat) (f : Context → Context) : (s.modCtx n f).crings = s.crings := rfl
@[simp] theorem State.modCtx_jobs (s : State) (n : Nat) (f : Context → Context) : (s.modCtx n f).jobs = s.jobs := rfl
@[simp] theorem State.modCtx_recordArea (s : State) (n : Nat) (f : Context → Context) : (s.modCtx n f).recordArea = s.recordArea := rfl
@[simp] theorem State.modCtx_adminEn (s : State) (n : Nat) (f : Context → Context) : (s.modCtx n f).adminEn = s.adminEn := rfl
@[simp] theorem State.modCtx_adminOn (s : State) (n : Nat) (f : Context → Context) : (s.modCtx n f).adminOn = s.adminOn := rfl
@[simp] theorem State.modCtx_adminLog (s : State) (n : Nat) (f : Context → Context) : (s.modCtx n f).adminLog = s.adminLog := rfl
@[simp] theorem State.modCtx_adminBase (s : State) (n : Nat) (f : Context → Context) : (s.modCtx n f).adminBase = s.adminBase := rfl
@[simp] theorem State.modCtx_staleDb (s : State) (n : Nat) (f : Context → Context) : (s.modCtx n f).staleDb = s.staleDb := rfl
@[simp] theorem State.modCtx_staleClear (s : State) (n : Nat) (f : Context → Context) : (s.modCtx n f).staleClear = s.staleClear := rfl
@[simp] theorem State.modCtx_hbIgnored (s : State) (n : Nat) (f : Context → Context) : (s.modCtx n f).hbIgnored = s.hbIgnored := rfl
@[simp] theorem State.modCtx_fetchTurn (s : State) (n : Nat) (f : Context → Context) : (s.modCtx n f).fetchTurn = s.fetchTurn := rfl
@[simp] theorem State.modCtx_lateAcks (s : State) (n : Nat) (f : Context → Context) : (s.modCtx n f).lateAcks = s.lateAcks := rfl
@[simp] theorem State.modCtx_areaChans (s : State) (n : Nat) (f : Context → Context) : (s.modCtx n f).areaChans = s.areaChans := rfl
@[simp] theorem State.modCtx_waiting (s : State) (n : Nat) (f : Context → Context) : (s.modCtx n f).waiting = s.waiting := rfl
@[simp] theorem State.modCtx_partMsgs (s : State) (n : Nat) (f : Context → Context) : (s.modCtx n f).partMsgs = s.partMsgs := rfl
@[simp] theorem State.modCtx_answered (s : State) (n : Nat) (f : Context → Context) : (s.modCtx n f).answered = s.answered := rfl
@[simp] theorem State.modCtx_unanswered (s : State) (n : Nat) (f : Context → Context) : (s.modCtx n f).unanswered = s.unanswered := rfl
@[simp] theorem State.modCtx_keys (s : State) (n : Nat) (f : Context → Context) : (s.modCtx n f).keys = s.keys := rfl
@[simp] theorem State.modCtx_shares (s : State) (n : Nat) (f : Context → Context) : (s.modCtx n f).shares = s.shares := rfl
@[simp] theorem State.modCtx_sessions (s : State) (n : Nat) (f : Context → Context) : (s.modCtx n f).sessions = s.sessions := rfl
@[simp] theorem State.modCtx_keySerial (s : State) (n : Nat) (f : Context → Context) : (s.modCtx n f).keySerial = s.keySerial := rfl
@[simp] theorem State.modCtx_caches (s : State) (n : Nat) (f : Context → Context) : (s.modCtx n f).caches = s.caches := rfl
@[simp] theorem State.modCtx_agent (s : State) (n : Nat) (f : Context → Context) : (s.modCtx n f).agent = s.agent := rfl
@[simp] theorem State.modCtx_errRing (s : State) (n : Nat) (f : Context → Context) : (s.modCtx n f).errRing = s.errRing := rfl
@[simp] theorem State.modCtx_errProd (s : State) (n : Nat) (f : Context → Context) : (s.modCtx n f).errProd = s.errProd := rfl
@[simp] theorem State.modCtx_errCons (s : State) (n : Nat) (f : Context → Context) : (s.modCtx n f).errCons = s.errCons := rfl
@[simp] theorem State.modCtx_errOvf (s : State) (n : Nat) (f : Context → Context) : (s.modCtx n f).errOvf = s.errOvf := rfl
@[simp] theorem State.modCtx_coreHang (s : State) (n : Nat) (f : Context → Context) : (s.modCtx n f).coreHang = s.coreHang := rfl
@[simp] theorem State.modCtx_cpHang (s : State) (n : Nat) (f : Context → Context) : (s.modCtx n f).cpHang = s.cpHang := rfl
@[simp] theorem State.modCtx_quarantine (s : State) (n : Nat) (f : Context → Context) : (s.modCtx n f).quarantine = s.quarantine := rfl
@[simp] theorem State.modCtx_dieFenced (s : State) (n : Nat) (f : Context → Context) : (s.modCtx n f).dieFenced = s.dieFenced := rfl
@[simp] theorem State.modCtx_failed (s : State) (n : Nat) (f : Context → Context) : (s.modCtx n f).failed = s.failed := rfl
@[simp] theorem State.modCtx_ladders (s : State) (n : Nat) (f : Context → Context) : (s.modCtx n f).ladders = s.ladders := rfl
@[simp] theorem State.modCtx_culprits (s : State) (n : Nat) (f : Context → Context) : (s.modCtx n f).culprits = s.culprits := rfl
@[simp] theorem State.modCtx_fabAddr (s : State) (n : Nat) (f : Context → Context) : (s.modCtx n f).fabAddr = s.fabAddr := rfl
@[simp] theorem State.modCtx_egress (s : State) (n : Nat) (f : Context → Context) : (s.modCtx n f).egress = s.egress := rfl
@[simp] theorem State.modCtx_inbox (s : State) (n : Nat) (f : Context → Context) : (s.modCtx n f).inbox = s.inbox := rfl
@[simp] theorem State.modCtx_peerOut (s : State) (n : Nat) (f : Context → Context) : (s.modCtx n f).peerOut = s.peerOut := rfl
@[simp] theorem State.modCtx_rdmaOut (s : State) (n : Nat) (f : Context → Context) : (s.modCtx n f).rdmaOut = s.rdmaOut := rfl
@[simp] theorem State.modCtx_conns (s : State) (n : Nat) (f : Context → Context) : (s.modCtx n f).conns = s.conns := rfl
@[simp] theorem State.modCtx_ports (s : State) (n : Nat) (f : Context → Context) : (s.modCtx n f).ports = s.ports := rfl
@[simp] theorem State.modCtx_nets (s : State) (n : Nat) (f : Context → Context) : (s.modCtx n f).nets = s.nets := rfl
@[simp] theorem State.modCtx_fabV (s : State) (n : Nat) (f : Context → Context) : (s.modCtx n f).fabV = s.fabV := rfl
@[simp] theorem State.modCtx_isRoot (s : State) (n : Nat) (f : Context → Context) : (s.modCtx n f).isRoot = s.isRoot := rfl
@[simp] theorem State.modCtx_links (s : State) (n : Nat) (f : Context → Context) : (s.modCtx n f).links = s.links := rfl
@[simp] theorem State.modCtx_routing (s : State) (n : Nat) (f : Context → Context) : (s.modCtx n f).routing = s.routing := rfl
@[simp] theorem State.modCtx_walk (s : State) (n : Nat) (f : Context → Context) : (s.modCtx n f).walk = s.walk := rfl
@[simp] theorem State.modCtx_sec (s : State) (n : Nat) (f : Context → Context) : (s.modCtx n f).sec = s.sec := rfl
@[simp] theorem State.modCtx_areaTop (s : State) (n : Nat) (f : Context → Context) : (s.modCtx n f).areaTop = s.areaTop := rfl
@[simp] theorem State.modCtx_hdrs (s : State) (n : Nat) (f : Context → Context) : (s.modCtx n f).hdrs = s.hdrs := rfl
@[simp] theorem State.modCtx_cpw (s : State) (n : Nat) (f : Context → Context) : (s.modCtx n f).cpw = s.cpw := rfl
@[simp] theorem State.modCtx_power (s : State) (n : Nat) (f : Context → Context) : (s.modCtx n f).power = s.power := rfl
@[simp] theorem State.modCtx_pm (s : State) (n : Nat) (f : Context → Context) : (s.modCtx n f).pm = s.pm := rfl

/-! ### modQueue -/

@[simp] theorem State.modQueue_pending (s : State) (q : Nat) (f : Queue → Queue) : (s.modQueue q f).pending = s.pending := rfl
@[simp] theorem State.modQueue_ltime (s : State) (q : Nat) (f : Queue → Queue) : (s.modQueue q f).ltime = s.ltime := rfl
@[simp] theorem State.modQueue_freeIx (s : State) (q : Nat) (f : Queue → Queue) : (s.modQueue q f).freeIx = s.freeIx := rfl
@[simp] theorem State.modQueue_serial (s : State) (q : Nat) (f : Queue → Queue) : (s.modQueue q f).serial = s.serial := rfl
@[simp] theorem State.modQueue_sent (s : State) (q : Nat) (f : Queue → Queue) : (s.modQueue q f).sent = s.sent := rfl
@[simp] theorem State.modQueue_cores (s : State) (q : Nat) (f : Queue → Queue) : (s.modQueue q f).cores = s.cores := rfl
@[simp] theorem State.modQueue_clusters (s : State) (q : Nat) (f : Queue → Queue) : (s.modQueue q f).clusters = s.clusters := rfl
@[simp] theorem State.modQueue_engines (s : State) (q : Nat) (f : Queue → Queue) : (s.modQueue q f).engines = s.engines := rfl
@[simp] theorem State.modQueue_channels (s : State) (q : Nat) (f : Queue → Queue) : (s.modQueue q f).channels = s.channels := rfl
@[simp] theorem State.modQueue_dieOut (s : State) (q : Nat) (f : Queue → Queue) : (s.modQueue q f).dieOut = s.dieOut := rfl
@[simp] theorem State.modQueue_parts (s : State) (q : Nat) (f : Queue → Queue) : (s.modQueue q f).parts = s.parts := rfl
@[simp] theorem State.modQueue_formes (s : State) (q : Nat) (f : Queue → Queue) : (s.modQueue q f).formes = s.formes := rfl
@[simp] theorem State.modQueue_fences (s : State) (q : Nat) (f : Queue → Queue) : (s.modQueue q f).fences = s.fences := rfl
@[simp] theorem State.modQueue_waits (s : State) (q : Nat) (f : Queue → Queue) : (s.modQueue q f).waits = s.waits := rfl
@[simp] theorem State.modQueue_barWaits (s : State) (q : Nat) (f : Queue → Queue) : (s.modQueue q f).barWaits = s.barWaits := rfl
@[simp] theorem State.modQueue_ctxs (s : State) (q : Nat) (f : Queue → Queue) : (s.modQueue q f).ctxs = s.ctxs := rfl
@[simp] theorem State.modQueue_lastCtx (s : State) (q : Nat) (f : Queue → Queue) : (s.modQueue q f).lastCtx = s.lastCtx := rfl
@[simp] theorem State.modQueue_crings (s : State) (q : Nat) (f : Queue → Queue) : (s.modQueue q f).crings = s.crings := rfl
@[simp] theorem State.modQueue_jobs (s : State) (q : Nat) (f : Queue → Queue) : (s.modQueue q f).jobs = s.jobs := rfl
@[simp] theorem State.modQueue_recordArea (s : State) (q : Nat) (f : Queue → Queue) : (s.modQueue q f).recordArea = s.recordArea := rfl
@[simp] theorem State.modQueue_adminEn (s : State) (q : Nat) (f : Queue → Queue) : (s.modQueue q f).adminEn = s.adminEn := rfl
@[simp] theorem State.modQueue_adminOn (s : State) (q : Nat) (f : Queue → Queue) : (s.modQueue q f).adminOn = s.adminOn := rfl
@[simp] theorem State.modQueue_adminLog (s : State) (q : Nat) (f : Queue → Queue) : (s.modQueue q f).adminLog = s.adminLog := rfl
@[simp] theorem State.modQueue_adminBase (s : State) (q : Nat) (f : Queue → Queue) : (s.modQueue q f).adminBase = s.adminBase := rfl
@[simp] theorem State.modQueue_staleDb (s : State) (q : Nat) (f : Queue → Queue) : (s.modQueue q f).staleDb = s.staleDb := rfl
@[simp] theorem State.modQueue_staleClear (s : State) (q : Nat) (f : Queue → Queue) : (s.modQueue q f).staleClear = s.staleClear := rfl
@[simp] theorem State.modQueue_hbIgnored (s : State) (q : Nat) (f : Queue → Queue) : (s.modQueue q f).hbIgnored = s.hbIgnored := rfl
@[simp] theorem State.modQueue_fetchTurn (s : State) (q : Nat) (f : Queue → Queue) : (s.modQueue q f).fetchTurn = s.fetchTurn := rfl
@[simp] theorem State.modQueue_lateAcks (s : State) (q : Nat) (f : Queue → Queue) : (s.modQueue q f).lateAcks = s.lateAcks := rfl
@[simp] theorem State.modQueue_areaChans (s : State) (q : Nat) (f : Queue → Queue) : (s.modQueue q f).areaChans = s.areaChans := rfl
@[simp] theorem State.modQueue_waiting (s : State) (q : Nat) (f : Queue → Queue) : (s.modQueue q f).waiting = s.waiting := rfl
@[simp] theorem State.modQueue_partMsgs (s : State) (q : Nat) (f : Queue → Queue) : (s.modQueue q f).partMsgs = s.partMsgs := rfl
@[simp] theorem State.modQueue_answered (s : State) (q : Nat) (f : Queue → Queue) : (s.modQueue q f).answered = s.answered := rfl
@[simp] theorem State.modQueue_unanswered (s : State) (q : Nat) (f : Queue → Queue) : (s.modQueue q f).unanswered = s.unanswered := rfl
@[simp] theorem State.modQueue_keys (s : State) (q : Nat) (f : Queue → Queue) : (s.modQueue q f).keys = s.keys := rfl
@[simp] theorem State.modQueue_shares (s : State) (q : Nat) (f : Queue → Queue) : (s.modQueue q f).shares = s.shares := rfl
@[simp] theorem State.modQueue_sessions (s : State) (q : Nat) (f : Queue → Queue) : (s.modQueue q f).sessions = s.sessions := rfl
@[simp] theorem State.modQueue_keySerial (s : State) (q : Nat) (f : Queue → Queue) : (s.modQueue q f).keySerial = s.keySerial := rfl
@[simp] theorem State.modQueue_caches (s : State) (q : Nat) (f : Queue → Queue) : (s.modQueue q f).caches = s.caches := rfl
@[simp] theorem State.modQueue_agent (s : State) (q : Nat) (f : Queue → Queue) : (s.modQueue q f).agent = s.agent := rfl
@[simp] theorem State.modQueue_errRing (s : State) (q : Nat) (f : Queue → Queue) : (s.modQueue q f).errRing = s.errRing := rfl
@[simp] theorem State.modQueue_errProd (s : State) (q : Nat) (f : Queue → Queue) : (s.modQueue q f).errProd = s.errProd := rfl
@[simp] theorem State.modQueue_errCons (s : State) (q : Nat) (f : Queue → Queue) : (s.modQueue q f).errCons = s.errCons := rfl
@[simp] theorem State.modQueue_errOvf (s : State) (q : Nat) (f : Queue → Queue) : (s.modQueue q f).errOvf = s.errOvf := rfl
@[simp] theorem State.modQueue_coreHang (s : State) (q : Nat) (f : Queue → Queue) : (s.modQueue q f).coreHang = s.coreHang := rfl
@[simp] theorem State.modQueue_cpHang (s : State) (q : Nat) (f : Queue → Queue) : (s.modQueue q f).cpHang = s.cpHang := rfl
@[simp] theorem State.modQueue_quarantine (s : State) (q : Nat) (f : Queue → Queue) : (s.modQueue q f).quarantine = s.quarantine := rfl
@[simp] theorem State.modQueue_dieFenced (s : State) (q : Nat) (f : Queue → Queue) : (s.modQueue q f).dieFenced = s.dieFenced := rfl
@[simp] theorem State.modQueue_failed (s : State) (q : Nat) (f : Queue → Queue) : (s.modQueue q f).failed = s.failed := rfl
@[simp] theorem State.modQueue_ladders (s : State) (q : Nat) (f : Queue → Queue) : (s.modQueue q f).ladders = s.ladders := rfl
@[simp] theorem State.modQueue_culprits (s : State) (q : Nat) (f : Queue → Queue) : (s.modQueue q f).culprits = s.culprits := rfl
@[simp] theorem State.modQueue_fabAddr (s : State) (q : Nat) (f : Queue → Queue) : (s.modQueue q f).fabAddr = s.fabAddr := rfl
@[simp] theorem State.modQueue_egress (s : State) (q : Nat) (f : Queue → Queue) : (s.modQueue q f).egress = s.egress := rfl
@[simp] theorem State.modQueue_inbox (s : State) (q : Nat) (f : Queue → Queue) : (s.modQueue q f).inbox = s.inbox := rfl
@[simp] theorem State.modQueue_peerOut (s : State) (q : Nat) (f : Queue → Queue) : (s.modQueue q f).peerOut = s.peerOut := rfl
@[simp] theorem State.modQueue_rdmaOut (s : State) (q : Nat) (f : Queue → Queue) : (s.modQueue q f).rdmaOut = s.rdmaOut := rfl
@[simp] theorem State.modQueue_conns (s : State) (q : Nat) (f : Queue → Queue) : (s.modQueue q f).conns = s.conns := rfl
@[simp] theorem State.modQueue_ports (s : State) (q : Nat) (f : Queue → Queue) : (s.modQueue q f).ports = s.ports := rfl
@[simp] theorem State.modQueue_nets (s : State) (q : Nat) (f : Queue → Queue) : (s.modQueue q f).nets = s.nets := rfl
@[simp] theorem State.modQueue_fabV (s : State) (q : Nat) (f : Queue → Queue) : (s.modQueue q f).fabV = s.fabV := rfl
@[simp] theorem State.modQueue_isRoot (s : State) (q : Nat) (f : Queue → Queue) : (s.modQueue q f).isRoot = s.isRoot := rfl
@[simp] theorem State.modQueue_links (s : State) (q : Nat) (f : Queue → Queue) : (s.modQueue q f).links = s.links := rfl
@[simp] theorem State.modQueue_routing (s : State) (q : Nat) (f : Queue → Queue) : (s.modQueue q f).routing = s.routing := rfl
@[simp] theorem State.modQueue_walk (s : State) (q : Nat) (f : Queue → Queue) : (s.modQueue q f).walk = s.walk := rfl
@[simp] theorem State.modQueue_sec (s : State) (q : Nat) (f : Queue → Queue) : (s.modQueue q f).sec = s.sec := rfl
@[simp] theorem State.modQueue_areaTop (s : State) (q : Nat) (f : Queue → Queue) : (s.modQueue q f).areaTop = s.areaTop := rfl
@[simp] theorem State.modQueue_hdrs (s : State) (q : Nat) (f : Queue → Queue) : (s.modQueue q f).hdrs = s.hdrs := rfl
@[simp] theorem State.modQueue_cpw (s : State) (q : Nat) (f : Queue → Queue) : (s.modQueue q f).cpw = s.cpw := rfl
@[simp] theorem State.modQueue_power (s : State) (q : Nat) (f : Queue → Queue) : (s.modQueue q f).power = s.power := rfl
@[simp] theorem State.modQueue_pm (s : State) (q : Nat) (f : Queue → Queue) : (s.modQueue q f).pm = s.pm := rfl

/-! ### modCring -/

@[simp] theorem State.modCring_pending (s : State) (r : Nat) (f : CRing → CRing) : (s.modCring r f).pending = s.pending := rfl
@[simp] theorem State.modCring_ltime (s : State) (r : Nat) (f : CRing → CRing) : (s.modCring r f).ltime = s.ltime := rfl
@[simp] theorem State.modCring_freeIx (s : State) (r : Nat) (f : CRing → CRing) : (s.modCring r f).freeIx = s.freeIx := rfl
@[simp] theorem State.modCring_serial (s : State) (r : Nat) (f : CRing → CRing) : (s.modCring r f).serial = s.serial := rfl
@[simp] theorem State.modCring_sent (s : State) (r : Nat) (f : CRing → CRing) : (s.modCring r f).sent = s.sent := rfl
@[simp] theorem State.modCring_cores (s : State) (r : Nat) (f : CRing → CRing) : (s.modCring r f).cores = s.cores := rfl
@[simp] theorem State.modCring_clusters (s : State) (r : Nat) (f : CRing → CRing) : (s.modCring r f).clusters = s.clusters := rfl
@[simp] theorem State.modCring_engines (s : State) (r : Nat) (f : CRing → CRing) : (s.modCring r f).engines = s.engines := rfl
@[simp] theorem State.modCring_channels (s : State) (r : Nat) (f : CRing → CRing) : (s.modCring r f).channels = s.channels := rfl
@[simp] theorem State.modCring_dieOut (s : State) (r : Nat) (f : CRing → CRing) : (s.modCring r f).dieOut = s.dieOut := rfl
@[simp] theorem State.modCring_parts (s : State) (r : Nat) (f : CRing → CRing) : (s.modCring r f).parts = s.parts := rfl
@[simp] theorem State.modCring_formes (s : State) (r : Nat) (f : CRing → CRing) : (s.modCring r f).formes = s.formes := rfl
@[simp] theorem State.modCring_fences (s : State) (r : Nat) (f : CRing → CRing) : (s.modCring r f).fences = s.fences := rfl
@[simp] theorem State.modCring_waits (s : State) (r : Nat) (f : CRing → CRing) : (s.modCring r f).waits = s.waits := rfl
@[simp] theorem State.modCring_barWaits (s : State) (r : Nat) (f : CRing → CRing) : (s.modCring r f).barWaits = s.barWaits := rfl
@[simp] theorem State.modCring_ctxs (s : State) (r : Nat) (f : CRing → CRing) : (s.modCring r f).ctxs = s.ctxs := rfl
@[simp] theorem State.modCring_lastCtx (s : State) (r : Nat) (f : CRing → CRing) : (s.modCring r f).lastCtx = s.lastCtx := rfl
@[simp] theorem State.modCring_queues (s : State) (r : Nat) (f : CRing → CRing) : (s.modCring r f).queues = s.queues := rfl
@[simp] theorem State.modCring_jobs (s : State) (r : Nat) (f : CRing → CRing) : (s.modCring r f).jobs = s.jobs := rfl
@[simp] theorem State.modCring_recordArea (s : State) (r : Nat) (f : CRing → CRing) : (s.modCring r f).recordArea = s.recordArea := rfl
@[simp] theorem State.modCring_adminEn (s : State) (r : Nat) (f : CRing → CRing) : (s.modCring r f).adminEn = s.adminEn := rfl
@[simp] theorem State.modCring_adminOn (s : State) (r : Nat) (f : CRing → CRing) : (s.modCring r f).adminOn = s.adminOn := rfl
@[simp] theorem State.modCring_adminLog (s : State) (r : Nat) (f : CRing → CRing) : (s.modCring r f).adminLog = s.adminLog := rfl
@[simp] theorem State.modCring_adminBase (s : State) (r : Nat) (f : CRing → CRing) : (s.modCring r f).adminBase = s.adminBase := rfl
@[simp] theorem State.modCring_staleDb (s : State) (r : Nat) (f : CRing → CRing) : (s.modCring r f).staleDb = s.staleDb := rfl
@[simp] theorem State.modCring_staleClear (s : State) (r : Nat) (f : CRing → CRing) : (s.modCring r f).staleClear = s.staleClear := rfl
@[simp] theorem State.modCring_hbIgnored (s : State) (r : Nat) (f : CRing → CRing) : (s.modCring r f).hbIgnored = s.hbIgnored := rfl
@[simp] theorem State.modCring_fetchTurn (s : State) (r : Nat) (f : CRing → CRing) : (s.modCring r f).fetchTurn = s.fetchTurn := rfl
@[simp] theorem State.modCring_lateAcks (s : State) (r : Nat) (f : CRing → CRing) : (s.modCring r f).lateAcks = s.lateAcks := rfl
@[simp] theorem State.modCring_areaChans (s : State) (r : Nat) (f : CRing → CRing) : (s.modCring r f).areaChans = s.areaChans := rfl
@[simp] theorem State.modCring_waiting (s : State) (r : Nat) (f : CRing → CRing) : (s.modCring r f).waiting = s.waiting := rfl
@[simp] theorem State.modCring_partMsgs (s : State) (r : Nat) (f : CRing → CRing) : (s.modCring r f).partMsgs = s.partMsgs := rfl
@[simp] theorem State.modCring_answered (s : State) (r : Nat) (f : CRing → CRing) : (s.modCring r f).answered = s.answered := rfl
@[simp] theorem State.modCring_unanswered (s : State) (r : Nat) (f : CRing → CRing) : (s.modCring r f).unanswered = s.unanswered := rfl
@[simp] theorem State.modCring_keys (s : State) (r : Nat) (f : CRing → CRing) : (s.modCring r f).keys = s.keys := rfl
@[simp] theorem State.modCring_shares (s : State) (r : Nat) (f : CRing → CRing) : (s.modCring r f).shares = s.shares := rfl
@[simp] theorem State.modCring_sessions (s : State) (r : Nat) (f : CRing → CRing) : (s.modCring r f).sessions = s.sessions := rfl
@[simp] theorem State.modCring_keySerial (s : State) (r : Nat) (f : CRing → CRing) : (s.modCring r f).keySerial = s.keySerial := rfl
@[simp] theorem State.modCring_caches (s : State) (r : Nat) (f : CRing → CRing) : (s.modCring r f).caches = s.caches := rfl
@[simp] theorem State.modCring_agent (s : State) (r : Nat) (f : CRing → CRing) : (s.modCring r f).agent = s.agent := rfl
@[simp] theorem State.modCring_errRing (s : State) (r : Nat) (f : CRing → CRing) : (s.modCring r f).errRing = s.errRing := rfl
@[simp] theorem State.modCring_errProd (s : State) (r : Nat) (f : CRing → CRing) : (s.modCring r f).errProd = s.errProd := rfl
@[simp] theorem State.modCring_errCons (s : State) (r : Nat) (f : CRing → CRing) : (s.modCring r f).errCons = s.errCons := rfl
@[simp] theorem State.modCring_errOvf (s : State) (r : Nat) (f : CRing → CRing) : (s.modCring r f).errOvf = s.errOvf := rfl
@[simp] theorem State.modCring_coreHang (s : State) (r : Nat) (f : CRing → CRing) : (s.modCring r f).coreHang = s.coreHang := rfl
@[simp] theorem State.modCring_cpHang (s : State) (r : Nat) (f : CRing → CRing) : (s.modCring r f).cpHang = s.cpHang := rfl
@[simp] theorem State.modCring_quarantine (s : State) (r : Nat) (f : CRing → CRing) : (s.modCring r f).quarantine = s.quarantine := rfl
@[simp] theorem State.modCring_dieFenced (s : State) (r : Nat) (f : CRing → CRing) : (s.modCring r f).dieFenced = s.dieFenced := rfl
@[simp] theorem State.modCring_failed (s : State) (r : Nat) (f : CRing → CRing) : (s.modCring r f).failed = s.failed := rfl
@[simp] theorem State.modCring_ladders (s : State) (r : Nat) (f : CRing → CRing) : (s.modCring r f).ladders = s.ladders := rfl
@[simp] theorem State.modCring_culprits (s : State) (r : Nat) (f : CRing → CRing) : (s.modCring r f).culprits = s.culprits := rfl
@[simp] theorem State.modCring_fabAddr (s : State) (r : Nat) (f : CRing → CRing) : (s.modCring r f).fabAddr = s.fabAddr := rfl
@[simp] theorem State.modCring_egress (s : State) (r : Nat) (f : CRing → CRing) : (s.modCring r f).egress = s.egress := rfl
@[simp] theorem State.modCring_inbox (s : State) (r : Nat) (f : CRing → CRing) : (s.modCring r f).inbox = s.inbox := rfl
@[simp] theorem State.modCring_peerOut (s : State) (r : Nat) (f : CRing → CRing) : (s.modCring r f).peerOut = s.peerOut := rfl
@[simp] theorem State.modCring_rdmaOut (s : State) (r : Nat) (f : CRing → CRing) : (s.modCring r f).rdmaOut = s.rdmaOut := rfl
@[simp] theorem State.modCring_conns (s : State) (r : Nat) (f : CRing → CRing) : (s.modCring r f).conns = s.conns := rfl
@[simp] theorem State.modCring_ports (s : State) (r : Nat) (f : CRing → CRing) : (s.modCring r f).ports = s.ports := rfl
@[simp] theorem State.modCring_nets (s : State) (r : Nat) (f : CRing → CRing) : (s.modCring r f).nets = s.nets := rfl
@[simp] theorem State.modCring_fabV (s : State) (r : Nat) (f : CRing → CRing) : (s.modCring r f).fabV = s.fabV := rfl
@[simp] theorem State.modCring_isRoot (s : State) (r : Nat) (f : CRing → CRing) : (s.modCring r f).isRoot = s.isRoot := rfl
@[simp] theorem State.modCring_links (s : State) (r : Nat) (f : CRing → CRing) : (s.modCring r f).links = s.links := rfl
@[simp] theorem State.modCring_routing (s : State) (r : Nat) (f : CRing → CRing) : (s.modCring r f).routing = s.routing := rfl
@[simp] theorem State.modCring_walk (s : State) (r : Nat) (f : CRing → CRing) : (s.modCring r f).walk = s.walk := rfl
@[simp] theorem State.modCring_sec (s : State) (r : Nat) (f : CRing → CRing) : (s.modCring r f).sec = s.sec := rfl
@[simp] theorem State.modCring_areaTop (s : State) (r : Nat) (f : CRing → CRing) : (s.modCring r f).areaTop = s.areaTop := rfl
@[simp] theorem State.modCring_hdrs (s : State) (r : Nat) (f : CRing → CRing) : (s.modCring r f).hdrs = s.hdrs := rfl
@[simp] theorem State.modCring_cpw (s : State) (r : Nat) (f : CRing → CRing) : (s.modCring r f).cpw = s.cpw := rfl
@[simp] theorem State.modCring_power (s : State) (r : Nat) (f : CRing → CRing) : (s.modCring r f).power = s.power := rfl
@[simp] theorem State.modCring_pm (s : State) (r : Nat) (f : CRing → CRing) : (s.modCring r f).pm = s.pm := rfl

/-! ### modKey -/

@[simp] theorem State.modKey_pending (s : State) (h : Nat) (f : KeyEntry → KeyEntry) : (s.modKey h f).pending = s.pending := rfl
@[simp] theorem State.modKey_ltime (s : State) (h : Nat) (f : KeyEntry → KeyEntry) : (s.modKey h f).ltime = s.ltime := rfl
@[simp] theorem State.modKey_freeIx (s : State) (h : Nat) (f : KeyEntry → KeyEntry) : (s.modKey h f).freeIx = s.freeIx := rfl
@[simp] theorem State.modKey_serial (s : State) (h : Nat) (f : KeyEntry → KeyEntry) : (s.modKey h f).serial = s.serial := rfl
@[simp] theorem State.modKey_sent (s : State) (h : Nat) (f : KeyEntry → KeyEntry) : (s.modKey h f).sent = s.sent := rfl
@[simp] theorem State.modKey_cores (s : State) (h : Nat) (f : KeyEntry → KeyEntry) : (s.modKey h f).cores = s.cores := rfl
@[simp] theorem State.modKey_clusters (s : State) (h : Nat) (f : KeyEntry → KeyEntry) : (s.modKey h f).clusters = s.clusters := rfl
@[simp] theorem State.modKey_engines (s : State) (h : Nat) (f : KeyEntry → KeyEntry) : (s.modKey h f).engines = s.engines := rfl
@[simp] theorem State.modKey_channels (s : State) (h : Nat) (f : KeyEntry → KeyEntry) : (s.modKey h f).channels = s.channels := rfl
@[simp] theorem State.modKey_dieOut (s : State) (h : Nat) (f : KeyEntry → KeyEntry) : (s.modKey h f).dieOut = s.dieOut := rfl
@[simp] theorem State.modKey_parts (s : State) (h : Nat) (f : KeyEntry → KeyEntry) : (s.modKey h f).parts = s.parts := rfl
@[simp] theorem State.modKey_formes (s : State) (h : Nat) (f : KeyEntry → KeyEntry) : (s.modKey h f).formes = s.formes := rfl
@[simp] theorem State.modKey_fences (s : State) (h : Nat) (f : KeyEntry → KeyEntry) : (s.modKey h f).fences = s.fences := rfl
@[simp] theorem State.modKey_waits (s : State) (h : Nat) (f : KeyEntry → KeyEntry) : (s.modKey h f).waits = s.waits := rfl
@[simp] theorem State.modKey_barWaits (s : State) (h : Nat) (f : KeyEntry → KeyEntry) : (s.modKey h f).barWaits = s.barWaits := rfl
@[simp] theorem State.modKey_ctxs (s : State) (h : Nat) (f : KeyEntry → KeyEntry) : (s.modKey h f).ctxs = s.ctxs := rfl
@[simp] theorem State.modKey_lastCtx (s : State) (h : Nat) (f : KeyEntry → KeyEntry) : (s.modKey h f).lastCtx = s.lastCtx := rfl
@[simp] theorem State.modKey_queues (s : State) (h : Nat) (f : KeyEntry → KeyEntry) : (s.modKey h f).queues = s.queues := rfl
@[simp] theorem State.modKey_crings (s : State) (h : Nat) (f : KeyEntry → KeyEntry) : (s.modKey h f).crings = s.crings := rfl
@[simp] theorem State.modKey_jobs (s : State) (h : Nat) (f : KeyEntry → KeyEntry) : (s.modKey h f).jobs = s.jobs := rfl
@[simp] theorem State.modKey_recordArea (s : State) (h : Nat) (f : KeyEntry → KeyEntry) : (s.modKey h f).recordArea = s.recordArea := rfl
@[simp] theorem State.modKey_adminEn (s : State) (h : Nat) (f : KeyEntry → KeyEntry) : (s.modKey h f).adminEn = s.adminEn := rfl
@[simp] theorem State.modKey_adminOn (s : State) (h : Nat) (f : KeyEntry → KeyEntry) : (s.modKey h f).adminOn = s.adminOn := rfl
@[simp] theorem State.modKey_adminLog (s : State) (h : Nat) (f : KeyEntry → KeyEntry) : (s.modKey h f).adminLog = s.adminLog := rfl
@[simp] theorem State.modKey_adminBase (s : State) (h : Nat) (f : KeyEntry → KeyEntry) : (s.modKey h f).adminBase = s.adminBase := rfl
@[simp] theorem State.modKey_staleDb (s : State) (h : Nat) (f : KeyEntry → KeyEntry) : (s.modKey h f).staleDb = s.staleDb := rfl
@[simp] theorem State.modKey_staleClear (s : State) (h : Nat) (f : KeyEntry → KeyEntry) : (s.modKey h f).staleClear = s.staleClear := rfl
@[simp] theorem State.modKey_hbIgnored (s : State) (h : Nat) (f : KeyEntry → KeyEntry) : (s.modKey h f).hbIgnored = s.hbIgnored := rfl
@[simp] theorem State.modKey_fetchTurn (s : State) (h : Nat) (f : KeyEntry → KeyEntry) : (s.modKey h f).fetchTurn = s.fetchTurn := rfl
@[simp] theorem State.modKey_lateAcks (s : State) (h : Nat) (f : KeyEntry → KeyEntry) : (s.modKey h f).lateAcks = s.lateAcks := rfl
@[simp] theorem State.modKey_areaChans (s : State) (h : Nat) (f : KeyEntry → KeyEntry) : (s.modKey h f).areaChans = s.areaChans := rfl
@[simp] theorem State.modKey_waiting (s : State) (h : Nat) (f : KeyEntry → KeyEntry) : (s.modKey h f).waiting = s.waiting := rfl
@[simp] theorem State.modKey_partMsgs (s : State) (h : Nat) (f : KeyEntry → KeyEntry) : (s.modKey h f).partMsgs = s.partMsgs := rfl
@[simp] theorem State.modKey_answered (s : State) (h : Nat) (f : KeyEntry → KeyEntry) : (s.modKey h f).answered = s.answered := rfl
@[simp] theorem State.modKey_unanswered (s : State) (h : Nat) (f : KeyEntry → KeyEntry) : (s.modKey h f).unanswered = s.unanswered := rfl
@[simp] theorem State.modKey_shares (s : State) (h : Nat) (f : KeyEntry → KeyEntry) : (s.modKey h f).shares = s.shares := rfl
@[simp] theorem State.modKey_sessions (s : State) (h : Nat) (f : KeyEntry → KeyEntry) : (s.modKey h f).sessions = s.sessions := rfl
@[simp] theorem State.modKey_keySerial (s : State) (h : Nat) (f : KeyEntry → KeyEntry) : (s.modKey h f).keySerial = s.keySerial := rfl
@[simp] theorem State.modKey_caches (s : State) (h : Nat) (f : KeyEntry → KeyEntry) : (s.modKey h f).caches = s.caches := rfl
@[simp] theorem State.modKey_agent (s : State) (h : Nat) (f : KeyEntry → KeyEntry) : (s.modKey h f).agent = s.agent := rfl
@[simp] theorem State.modKey_errRing (s : State) (h : Nat) (f : KeyEntry → KeyEntry) : (s.modKey h f).errRing = s.errRing := rfl
@[simp] theorem State.modKey_errProd (s : State) (h : Nat) (f : KeyEntry → KeyEntry) : (s.modKey h f).errProd = s.errProd := rfl
@[simp] theorem State.modKey_errCons (s : State) (h : Nat) (f : KeyEntry → KeyEntry) : (s.modKey h f).errCons = s.errCons := rfl
@[simp] theorem State.modKey_errOvf (s : State) (h : Nat) (f : KeyEntry → KeyEntry) : (s.modKey h f).errOvf = s.errOvf := rfl
@[simp] theorem State.modKey_coreHang (s : State) (h : Nat) (f : KeyEntry → KeyEntry) : (s.modKey h f).coreHang = s.coreHang := rfl
@[simp] theorem State.modKey_cpHang (s : State) (h : Nat) (f : KeyEntry → KeyEntry) : (s.modKey h f).cpHang = s.cpHang := rfl
@[simp] theorem State.modKey_quarantine (s : State) (h : Nat) (f : KeyEntry → KeyEntry) : (s.modKey h f).quarantine = s.quarantine := rfl
@[simp] theorem State.modKey_dieFenced (s : State) (h : Nat) (f : KeyEntry → KeyEntry) : (s.modKey h f).dieFenced = s.dieFenced := rfl
@[simp] theorem State.modKey_failed (s : State) (h : Nat) (f : KeyEntry → KeyEntry) : (s.modKey h f).failed = s.failed := rfl
@[simp] theorem State.modKey_ladders (s : State) (h : Nat) (f : KeyEntry → KeyEntry) : (s.modKey h f).ladders = s.ladders := rfl
@[simp] theorem State.modKey_culprits (s : State) (h : Nat) (f : KeyEntry → KeyEntry) : (s.modKey h f).culprits = s.culprits := rfl
@[simp] theorem State.modKey_fabAddr (s : State) (h : Nat) (f : KeyEntry → KeyEntry) : (s.modKey h f).fabAddr = s.fabAddr := rfl
@[simp] theorem State.modKey_egress (s : State) (h : Nat) (f : KeyEntry → KeyEntry) : (s.modKey h f).egress = s.egress := rfl
@[simp] theorem State.modKey_inbox (s : State) (h : Nat) (f : KeyEntry → KeyEntry) : (s.modKey h f).inbox = s.inbox := rfl
@[simp] theorem State.modKey_peerOut (s : State) (h : Nat) (f : KeyEntry → KeyEntry) : (s.modKey h f).peerOut = s.peerOut := rfl
@[simp] theorem State.modKey_rdmaOut (s : State) (h : Nat) (f : KeyEntry → KeyEntry) : (s.modKey h f).rdmaOut = s.rdmaOut := rfl
@[simp] theorem State.modKey_conns (s : State) (h : Nat) (f : KeyEntry → KeyEntry) : (s.modKey h f).conns = s.conns := rfl
@[simp] theorem State.modKey_ports (s : State) (h : Nat) (f : KeyEntry → KeyEntry) : (s.modKey h f).ports = s.ports := rfl
@[simp] theorem State.modKey_nets (s : State) (h : Nat) (f : KeyEntry → KeyEntry) : (s.modKey h f).nets = s.nets := rfl
@[simp] theorem State.modKey_fabV (s : State) (h : Nat) (f : KeyEntry → KeyEntry) : (s.modKey h f).fabV = s.fabV := rfl
@[simp] theorem State.modKey_isRoot (s : State) (h : Nat) (f : KeyEntry → KeyEntry) : (s.modKey h f).isRoot = s.isRoot := rfl
@[simp] theorem State.modKey_links (s : State) (h : Nat) (f : KeyEntry → KeyEntry) : (s.modKey h f).links = s.links := rfl
@[simp] theorem State.modKey_routing (s : State) (h : Nat) (f : KeyEntry → KeyEntry) : (s.modKey h f).routing = s.routing := rfl
@[simp] theorem State.modKey_walk (s : State) (h : Nat) (f : KeyEntry → KeyEntry) : (s.modKey h f).walk = s.walk := rfl
@[simp] theorem State.modKey_sec (s : State) (h : Nat) (f : KeyEntry → KeyEntry) : (s.modKey h f).sec = s.sec := rfl
@[simp] theorem State.modKey_areaTop (s : State) (h : Nat) (f : KeyEntry → KeyEntry) : (s.modKey h f).areaTop = s.areaTop := rfl
@[simp] theorem State.modKey_hdrs (s : State) (h : Nat) (f : KeyEntry → KeyEntry) : (s.modKey h f).hdrs = s.hdrs := rfl
@[simp] theorem State.modKey_cpw (s : State) (h : Nat) (f : KeyEntry → KeyEntry) : (s.modKey h f).cpw = s.cpw := rfl
@[simp] theorem State.modKey_power (s : State) (h : Nat) (f : KeyEntry → KeyEntry) : (s.modKey h f).power = s.power := rfl
@[simp] theorem State.modKey_pm (s : State) (h : Nat) (f : KeyEntry → KeyEntry) : (s.modKey h f).pm = s.pm := rfl

/-! ### modForme -/

@[simp] theorem State.modForme_pending (s : State) (i : Nat) (f : Forme → Forme) : (s.modForme i f).pending = s.pending := rfl
@[simp] theorem State.modForme_ltime (s : State) (i : Nat) (f : Forme → Forme) : (s.modForme i f).ltime = s.ltime := rfl
@[simp] theorem State.modForme_freeIx (s : State) (i : Nat) (f : Forme → Forme) : (s.modForme i f).freeIx = s.freeIx := rfl
@[simp] theorem State.modForme_serial (s : State) (i : Nat) (f : Forme → Forme) : (s.modForme i f).serial = s.serial := rfl
@[simp] theorem State.modForme_sent (s : State) (i : Nat) (f : Forme → Forme) : (s.modForme i f).sent = s.sent := rfl
@[simp] theorem State.modForme_cores (s : State) (i : Nat) (f : Forme → Forme) : (s.modForme i f).cores = s.cores := rfl
@[simp] theorem State.modForme_clusters (s : State) (i : Nat) (f : Forme → Forme) : (s.modForme i f).clusters = s.clusters := rfl
@[simp] theorem State.modForme_engines (s : State) (i : Nat) (f : Forme → Forme) : (s.modForme i f).engines = s.engines := rfl
@[simp] theorem State.modForme_channels (s : State) (i : Nat) (f : Forme → Forme) : (s.modForme i f).channels = s.channels := rfl
@[simp] theorem State.modForme_dieOut (s : State) (i : Nat) (f : Forme → Forme) : (s.modForme i f).dieOut = s.dieOut := rfl
@[simp] theorem State.modForme_parts (s : State) (i : Nat) (f : Forme → Forme) : (s.modForme i f).parts = s.parts := rfl
@[simp] theorem State.modForme_fences (s : State) (i : Nat) (f : Forme → Forme) : (s.modForme i f).fences = s.fences := rfl
@[simp] theorem State.modForme_waits (s : State) (i : Nat) (f : Forme → Forme) : (s.modForme i f).waits = s.waits := rfl
@[simp] theorem State.modForme_barWaits (s : State) (i : Nat) (f : Forme → Forme) : (s.modForme i f).barWaits = s.barWaits := rfl
@[simp] theorem State.modForme_ctxs (s : State) (i : Nat) (f : Forme → Forme) : (s.modForme i f).ctxs = s.ctxs := rfl
@[simp] theorem State.modForme_lastCtx (s : State) (i : Nat) (f : Forme → Forme) : (s.modForme i f).lastCtx = s.lastCtx := rfl
@[simp] theorem State.modForme_queues (s : State) (i : Nat) (f : Forme → Forme) : (s.modForme i f).queues = s.queues := rfl
@[simp] theorem State.modForme_crings (s : State) (i : Nat) (f : Forme → Forme) : (s.modForme i f).crings = s.crings := rfl
@[simp] theorem State.modForme_jobs (s : State) (i : Nat) (f : Forme → Forme) : (s.modForme i f).jobs = s.jobs := rfl
@[simp] theorem State.modForme_recordArea (s : State) (i : Nat) (f : Forme → Forme) : (s.modForme i f).recordArea = s.recordArea := rfl
@[simp] theorem State.modForme_adminEn (s : State) (i : Nat) (f : Forme → Forme) : (s.modForme i f).adminEn = s.adminEn := rfl
@[simp] theorem State.modForme_adminOn (s : State) (i : Nat) (f : Forme → Forme) : (s.modForme i f).adminOn = s.adminOn := rfl
@[simp] theorem State.modForme_adminLog (s : State) (i : Nat) (f : Forme → Forme) : (s.modForme i f).adminLog = s.adminLog := rfl
@[simp] theorem State.modForme_adminBase (s : State) (i : Nat) (f : Forme → Forme) : (s.modForme i f).adminBase = s.adminBase := rfl
@[simp] theorem State.modForme_staleDb (s : State) (i : Nat) (f : Forme → Forme) : (s.modForme i f).staleDb = s.staleDb := rfl
@[simp] theorem State.modForme_staleClear (s : State) (i : Nat) (f : Forme → Forme) : (s.modForme i f).staleClear = s.staleClear := rfl
@[simp] theorem State.modForme_hbIgnored (s : State) (i : Nat) (f : Forme → Forme) : (s.modForme i f).hbIgnored = s.hbIgnored := rfl
@[simp] theorem State.modForme_fetchTurn (s : State) (i : Nat) (f : Forme → Forme) : (s.modForme i f).fetchTurn = s.fetchTurn := rfl
@[simp] theorem State.modForme_lateAcks (s : State) (i : Nat) (f : Forme → Forme) : (s.modForme i f).lateAcks = s.lateAcks := rfl
@[simp] theorem State.modForme_areaChans (s : State) (i : Nat) (f : Forme → Forme) : (s.modForme i f).areaChans = s.areaChans := rfl
@[simp] theorem State.modForme_waiting (s : State) (i : Nat) (f : Forme → Forme) : (s.modForme i f).waiting = s.waiting := rfl
@[simp] theorem State.modForme_partMsgs (s : State) (i : Nat) (f : Forme → Forme) : (s.modForme i f).partMsgs = s.partMsgs := rfl
@[simp] theorem State.modForme_answered (s : State) (i : Nat) (f : Forme → Forme) : (s.modForme i f).answered = s.answered := rfl
@[simp] theorem State.modForme_unanswered (s : State) (i : Nat) (f : Forme → Forme) : (s.modForme i f).unanswered = s.unanswered := rfl
@[simp] theorem State.modForme_keys (s : State) (i : Nat) (f : Forme → Forme) : (s.modForme i f).keys = s.keys := rfl
@[simp] theorem State.modForme_shares (s : State) (i : Nat) (f : Forme → Forme) : (s.modForme i f).shares = s.shares := rfl
@[simp] theorem State.modForme_sessions (s : State) (i : Nat) (f : Forme → Forme) : (s.modForme i f).sessions = s.sessions := rfl
@[simp] theorem State.modForme_keySerial (s : State) (i : Nat) (f : Forme → Forme) : (s.modForme i f).keySerial = s.keySerial := rfl
@[simp] theorem State.modForme_caches (s : State) (i : Nat) (f : Forme → Forme) : (s.modForme i f).caches = s.caches := rfl
@[simp] theorem State.modForme_agent (s : State) (i : Nat) (f : Forme → Forme) : (s.modForme i f).agent = s.agent := rfl
@[simp] theorem State.modForme_errRing (s : State) (i : Nat) (f : Forme → Forme) : (s.modForme i f).errRing = s.errRing := rfl
@[simp] theorem State.modForme_errProd (s : State) (i : Nat) (f : Forme → Forme) : (s.modForme i f).errProd = s.errProd := rfl
@[simp] theorem State.modForme_errCons (s : State) (i : Nat) (f : Forme → Forme) : (s.modForme i f).errCons = s.errCons := rfl
@[simp] theorem State.modForme_errOvf (s : State) (i : Nat) (f : Forme → Forme) : (s.modForme i f).errOvf = s.errOvf := rfl
@[simp] theorem State.modForme_coreHang (s : State) (i : Nat) (f : Forme → Forme) : (s.modForme i f).coreHang = s.coreHang := rfl
@[simp] theorem State.modForme_cpHang (s : State) (i : Nat) (f : Forme → Forme) : (s.modForme i f).cpHang = s.cpHang := rfl
@[simp] theorem State.modForme_quarantine (s : State) (i : Nat) (f : Forme → Forme) : (s.modForme i f).quarantine = s.quarantine := rfl
@[simp] theorem State.modForme_dieFenced (s : State) (i : Nat) (f : Forme → Forme) : (s.modForme i f).dieFenced = s.dieFenced := rfl
@[simp] theorem State.modForme_failed (s : State) (i : Nat) (f : Forme → Forme) : (s.modForme i f).failed = s.failed := rfl
@[simp] theorem State.modForme_ladders (s : State) (i : Nat) (f : Forme → Forme) : (s.modForme i f).ladders = s.ladders := rfl
@[simp] theorem State.modForme_culprits (s : State) (i : Nat) (f : Forme → Forme) : (s.modForme i f).culprits = s.culprits := rfl
@[simp] theorem State.modForme_fabAddr (s : State) (i : Nat) (f : Forme → Forme) : (s.modForme i f).fabAddr = s.fabAddr := rfl
@[simp] theorem State.modForme_egress (s : State) (i : Nat) (f : Forme → Forme) : (s.modForme i f).egress = s.egress := rfl
@[simp] theorem State.modForme_inbox (s : State) (i : Nat) (f : Forme → Forme) : (s.modForme i f).inbox = s.inbox := rfl
@[simp] theorem State.modForme_peerOut (s : State) (i : Nat) (f : Forme → Forme) : (s.modForme i f).peerOut = s.peerOut := rfl
@[simp] theorem State.modForme_rdmaOut (s : State) (i : Nat) (f : Forme → Forme) : (s.modForme i f).rdmaOut = s.rdmaOut := rfl
@[simp] theorem State.modForme_conns (s : State) (i : Nat) (f : Forme → Forme) : (s.modForme i f).conns = s.conns := rfl
@[simp] theorem State.modForme_ports (s : State) (i : Nat) (f : Forme → Forme) : (s.modForme i f).ports = s.ports := rfl
@[simp] theorem State.modForme_nets (s : State) (i : Nat) (f : Forme → Forme) : (s.modForme i f).nets = s.nets := rfl
@[simp] theorem State.modForme_fabV (s : State) (i : Nat) (f : Forme → Forme) : (s.modForme i f).fabV = s.fabV := rfl
@[simp] theorem State.modForme_isRoot (s : State) (i : Nat) (f : Forme → Forme) : (s.modForme i f).isRoot = s.isRoot := rfl
@[simp] theorem State.modForme_links (s : State) (i : Nat) (f : Forme → Forme) : (s.modForme i f).links = s.links := rfl
@[simp] theorem State.modForme_routing (s : State) (i : Nat) (f : Forme → Forme) : (s.modForme i f).routing = s.routing := rfl
@[simp] theorem State.modForme_walk (s : State) (i : Nat) (f : Forme → Forme) : (s.modForme i f).walk = s.walk := rfl
@[simp] theorem State.modForme_sec (s : State) (i : Nat) (f : Forme → Forme) : (s.modForme i f).sec = s.sec := rfl
@[simp] theorem State.modForme_areaTop (s : State) (i : Nat) (f : Forme → Forme) : (s.modForme i f).areaTop = s.areaTop := rfl
@[simp] theorem State.modForme_hdrs (s : State) (i : Nat) (f : Forme → Forme) : (s.modForme i f).hdrs = s.hdrs := rfl
@[simp] theorem State.modForme_cpw (s : State) (i : Nat) (f : Forme → Forme) : (s.modForme i f).cpw = s.cpw := rfl
@[simp] theorem State.modForme_power (s : State) (i : Nat) (f : Forme → Forme) : (s.modForme i f).power = s.power := rfl
@[simp] theorem State.modForme_pm (s : State) (i : Nat) (f : Forme → Forme) : (s.modForme i f).pm = s.pm := rfl

/-! ### modJob -/

@[simp] theorem State.modJob_pending (s : State) (i j : Nat) (f : Job → Job) : (s.modJob i j f).pending = s.pending := rfl
@[simp] theorem State.modJob_ltime (s : State) (i j : Nat) (f : Job → Job) : (s.modJob i j f).ltime = s.ltime := rfl
@[simp] theorem State.modJob_freeIx (s : State) (i j : Nat) (f : Job → Job) : (s.modJob i j f).freeIx = s.freeIx := rfl
@[simp] theorem State.modJob_serial (s : State) (i j : Nat) (f : Job → Job) : (s.modJob i j f).serial = s.serial := rfl
@[simp] theorem State.modJob_sent (s : State) (i j : Nat) (f : Job → Job) : (s.modJob i j f).sent = s.sent := rfl
@[simp] theorem State.modJob_cores (s : State) (i j : Nat) (f : Job → Job) : (s.modJob i j f).cores = s.cores := rfl
@[simp] theorem State.modJob_clusters (s : State) (i j : Nat) (f : Job → Job) : (s.modJob i j f).clusters = s.clusters := rfl
@[simp] theorem State.modJob_engines (s : State) (i j : Nat) (f : Job → Job) : (s.modJob i j f).engines = s.engines := rfl
@[simp] theorem State.modJob_channels (s : State) (i j : Nat) (f : Job → Job) : (s.modJob i j f).channels = s.channels := rfl
@[simp] theorem State.modJob_dieOut (s : State) (i j : Nat) (f : Job → Job) : (s.modJob i j f).dieOut = s.dieOut := rfl
@[simp] theorem State.modJob_parts (s : State) (i j : Nat) (f : Job → Job) : (s.modJob i j f).parts = s.parts := rfl
@[simp] theorem State.modJob_formes (s : State) (i j : Nat) (f : Job → Job) : (s.modJob i j f).formes = s.formes := rfl
@[simp] theorem State.modJob_fences (s : State) (i j : Nat) (f : Job → Job) : (s.modJob i j f).fences = s.fences := rfl
@[simp] theorem State.modJob_waits (s : State) (i j : Nat) (f : Job → Job) : (s.modJob i j f).waits = s.waits := rfl
@[simp] theorem State.modJob_barWaits (s : State) (i j : Nat) (f : Job → Job) : (s.modJob i j f).barWaits = s.barWaits := rfl
@[simp] theorem State.modJob_ctxs (s : State) (i j : Nat) (f : Job → Job) : (s.modJob i j f).ctxs = s.ctxs := rfl
@[simp] theorem State.modJob_lastCtx (s : State) (i j : Nat) (f : Job → Job) : (s.modJob i j f).lastCtx = s.lastCtx := rfl
@[simp] theorem State.modJob_queues (s : State) (i j : Nat) (f : Job → Job) : (s.modJob i j f).queues = s.queues := rfl
@[simp] theorem State.modJob_crings (s : State) (i j : Nat) (f : Job → Job) : (s.modJob i j f).crings = s.crings := rfl
@[simp] theorem State.modJob_recordArea (s : State) (i j : Nat) (f : Job → Job) : (s.modJob i j f).recordArea = s.recordArea := rfl
@[simp] theorem State.modJob_adminEn (s : State) (i j : Nat) (f : Job → Job) : (s.modJob i j f).adminEn = s.adminEn := rfl
@[simp] theorem State.modJob_adminOn (s : State) (i j : Nat) (f : Job → Job) : (s.modJob i j f).adminOn = s.adminOn := rfl
@[simp] theorem State.modJob_adminLog (s : State) (i j : Nat) (f : Job → Job) : (s.modJob i j f).adminLog = s.adminLog := rfl
@[simp] theorem State.modJob_adminBase (s : State) (i j : Nat) (f : Job → Job) : (s.modJob i j f).adminBase = s.adminBase := rfl
@[simp] theorem State.modJob_staleDb (s : State) (i j : Nat) (f : Job → Job) : (s.modJob i j f).staleDb = s.staleDb := rfl
@[simp] theorem State.modJob_staleClear (s : State) (i j : Nat) (f : Job → Job) : (s.modJob i j f).staleClear = s.staleClear := rfl
@[simp] theorem State.modJob_hbIgnored (s : State) (i j : Nat) (f : Job → Job) : (s.modJob i j f).hbIgnored = s.hbIgnored := rfl
@[simp] theorem State.modJob_fetchTurn (s : State) (i j : Nat) (f : Job → Job) : (s.modJob i j f).fetchTurn = s.fetchTurn := rfl
@[simp] theorem State.modJob_lateAcks (s : State) (i j : Nat) (f : Job → Job) : (s.modJob i j f).lateAcks = s.lateAcks := rfl
@[simp] theorem State.modJob_areaChans (s : State) (i j : Nat) (f : Job → Job) : (s.modJob i j f).areaChans = s.areaChans := rfl
@[simp] theorem State.modJob_waiting (s : State) (i j : Nat) (f : Job → Job) : (s.modJob i j f).waiting = s.waiting := rfl
@[simp] theorem State.modJob_partMsgs (s : State) (i j : Nat) (f : Job → Job) : (s.modJob i j f).partMsgs = s.partMsgs := rfl
@[simp] theorem State.modJob_answered (s : State) (i j : Nat) (f : Job → Job) : (s.modJob i j f).answered = s.answered := rfl
@[simp] theorem State.modJob_unanswered (s : State) (i j : Nat) (f : Job → Job) : (s.modJob i j f).unanswered = s.unanswered := rfl
@[simp] theorem State.modJob_keys (s : State) (i j : Nat) (f : Job → Job) : (s.modJob i j f).keys = s.keys := rfl
@[simp] theorem State.modJob_shares (s : State) (i j : Nat) (f : Job → Job) : (s.modJob i j f).shares = s.shares := rfl
@[simp] theorem State.modJob_sessions (s : State) (i j : Nat) (f : Job → Job) : (s.modJob i j f).sessions = s.sessions := rfl
@[simp] theorem State.modJob_keySerial (s : State) (i j : Nat) (f : Job → Job) : (s.modJob i j f).keySerial = s.keySerial := rfl
@[simp] theorem State.modJob_caches (s : State) (i j : Nat) (f : Job → Job) : (s.modJob i j f).caches = s.caches := rfl
@[simp] theorem State.modJob_agent (s : State) (i j : Nat) (f : Job → Job) : (s.modJob i j f).agent = s.agent := rfl
@[simp] theorem State.modJob_errRing (s : State) (i j : Nat) (f : Job → Job) : (s.modJob i j f).errRing = s.errRing := rfl
@[simp] theorem State.modJob_errProd (s : State) (i j : Nat) (f : Job → Job) : (s.modJob i j f).errProd = s.errProd := rfl
@[simp] theorem State.modJob_errCons (s : State) (i j : Nat) (f : Job → Job) : (s.modJob i j f).errCons = s.errCons := rfl
@[simp] theorem State.modJob_errOvf (s : State) (i j : Nat) (f : Job → Job) : (s.modJob i j f).errOvf = s.errOvf := rfl
@[simp] theorem State.modJob_coreHang (s : State) (i j : Nat) (f : Job → Job) : (s.modJob i j f).coreHang = s.coreHang := rfl
@[simp] theorem State.modJob_cpHang (s : State) (i j : Nat) (f : Job → Job) : (s.modJob i j f).cpHang = s.cpHang := rfl
@[simp] theorem State.modJob_quarantine (s : State) (i j : Nat) (f : Job → Job) : (s.modJob i j f).quarantine = s.quarantine := rfl
@[simp] theorem State.modJob_dieFenced (s : State) (i j : Nat) (f : Job → Job) : (s.modJob i j f).dieFenced = s.dieFenced := rfl
@[simp] theorem State.modJob_failed (s : State) (i j : Nat) (f : Job → Job) : (s.modJob i j f).failed = s.failed := rfl
@[simp] theorem State.modJob_ladders (s : State) (i j : Nat) (f : Job → Job) : (s.modJob i j f).ladders = s.ladders := rfl
@[simp] theorem State.modJob_culprits (s : State) (i j : Nat) (f : Job → Job) : (s.modJob i j f).culprits = s.culprits := rfl
@[simp] theorem State.modJob_fabAddr (s : State) (i j : Nat) (f : Job → Job) : (s.modJob i j f).fabAddr = s.fabAddr := rfl
@[simp] theorem State.modJob_egress (s : State) (i j : Nat) (f : Job → Job) : (s.modJob i j f).egress = s.egress := rfl
@[simp] theorem State.modJob_inbox (s : State) (i j : Nat) (f : Job → Job) : (s.modJob i j f).inbox = s.inbox := rfl
@[simp] theorem State.modJob_peerOut (s : State) (i j : Nat) (f : Job → Job) : (s.modJob i j f).peerOut = s.peerOut := rfl
@[simp] theorem State.modJob_rdmaOut (s : State) (i j : Nat) (f : Job → Job) : (s.modJob i j f).rdmaOut = s.rdmaOut := rfl
@[simp] theorem State.modJob_conns (s : State) (i j : Nat) (f : Job → Job) : (s.modJob i j f).conns = s.conns := rfl
@[simp] theorem State.modJob_ports (s : State) (i j : Nat) (f : Job → Job) : (s.modJob i j f).ports = s.ports := rfl
@[simp] theorem State.modJob_nets (s : State) (i j : Nat) (f : Job → Job) : (s.modJob i j f).nets = s.nets := rfl
@[simp] theorem State.modJob_fabV (s : State) (i j : Nat) (f : Job → Job) : (s.modJob i j f).fabV = s.fabV := rfl
@[simp] theorem State.modJob_isRoot (s : State) (i j : Nat) (f : Job → Job) : (s.modJob i j f).isRoot = s.isRoot := rfl
@[simp] theorem State.modJob_links (s : State) (i j : Nat) (f : Job → Job) : (s.modJob i j f).links = s.links := rfl
@[simp] theorem State.modJob_routing (s : State) (i j : Nat) (f : Job → Job) : (s.modJob i j f).routing = s.routing := rfl
@[simp] theorem State.modJob_walk (s : State) (i j : Nat) (f : Job → Job) : (s.modJob i j f).walk = s.walk := rfl
@[simp] theorem State.modJob_sec (s : State) (i j : Nat) (f : Job → Job) : (s.modJob i j f).sec = s.sec := rfl
@[simp] theorem State.modJob_areaTop (s : State) (i j : Nat) (f : Job → Job) : (s.modJob i j f).areaTop = s.areaTop := rfl
@[simp] theorem State.modJob_hdrs (s : State) (i j : Nat) (f : Job → Job) : (s.modJob i j f).hdrs = s.hdrs := rfl
@[simp] theorem State.modJob_cpw (s : State) (i j : Nat) (f : Job → Job) : (s.modJob i j f).cpw = s.cpw := rfl
@[simp] theorem State.modJob_power (s : State) (i j : Nat) (f : Job → Job) : (s.modJob i j f).power = s.power := rfl
@[simp] theorem State.modJob_pm (s : State) (i j : Nat) (f : Job → Job) : (s.modJob i j f).pm = s.pm := rfl

/-! ### emit -/

@[simp] theorem State.emit_pending (s : State) (m : Sent) : (s.emit m).pending = s.pending := rfl
@[simp] theorem State.emit_ltime (s : State) (m : Sent) : (s.emit m).ltime = s.ltime := rfl
@[simp] theorem State.emit_freeIx (s : State) (m : Sent) : (s.emit m).freeIx = s.freeIx := rfl
@[simp] theorem State.emit_serial (s : State) (m : Sent) : (s.emit m).serial = s.serial := rfl
@[simp] theorem State.emit_cores (s : State) (m : Sent) : (s.emit m).cores = s.cores := rfl
@[simp] theorem State.emit_clusters (s : State) (m : Sent) : (s.emit m).clusters = s.clusters := rfl
@[simp] theorem State.emit_engines (s : State) (m : Sent) : (s.emit m).engines = s.engines := rfl
@[simp] theorem State.emit_channels (s : State) (m : Sent) : (s.emit m).channels = s.channels := rfl
@[simp] theorem State.emit_dieOut (s : State) (m : Sent) : (s.emit m).dieOut = s.dieOut := rfl
@[simp] theorem State.emit_parts (s : State) (m : Sent) : (s.emit m).parts = s.parts := rfl
@[simp] theorem State.emit_formes (s : State) (m : Sent) : (s.emit m).formes = s.formes := rfl
@[simp] theorem State.emit_fences (s : State) (m : Sent) : (s.emit m).fences = s.fences := rfl
@[simp] theorem State.emit_waits (s : State) (m : Sent) : (s.emit m).waits = s.waits := rfl
@[simp] theorem State.emit_barWaits (s : State) (m : Sent) : (s.emit m).barWaits = s.barWaits := rfl
@[simp] theorem State.emit_ctxs (s : State) (m : Sent) : (s.emit m).ctxs = s.ctxs := rfl
@[simp] theorem State.emit_lastCtx (s : State) (m : Sent) : (s.emit m).lastCtx = s.lastCtx := rfl
@[simp] theorem State.emit_queues (s : State) (m : Sent) : (s.emit m).queues = s.queues := rfl
@[simp] theorem State.emit_crings (s : State) (m : Sent) : (s.emit m).crings = s.crings := rfl
@[simp] theorem State.emit_jobs (s : State) (m : Sent) : (s.emit m).jobs = s.jobs := rfl
@[simp] theorem State.emit_recordArea (s : State) (m : Sent) : (s.emit m).recordArea = s.recordArea := rfl
@[simp] theorem State.emit_adminEn (s : State) (m : Sent) : (s.emit m).adminEn = s.adminEn := rfl
@[simp] theorem State.emit_adminOn (s : State) (m : Sent) : (s.emit m).adminOn = s.adminOn := rfl
@[simp] theorem State.emit_adminLog (s : State) (m : Sent) : (s.emit m).adminLog = s.adminLog := rfl
@[simp] theorem State.emit_adminBase (s : State) (m : Sent) : (s.emit m).adminBase = s.adminBase := rfl
@[simp] theorem State.emit_staleDb (s : State) (m : Sent) : (s.emit m).staleDb = s.staleDb := rfl
@[simp] theorem State.emit_staleClear (s : State) (m : Sent) : (s.emit m).staleClear = s.staleClear := rfl
@[simp] theorem State.emit_hbIgnored (s : State) (m : Sent) : (s.emit m).hbIgnored = s.hbIgnored := rfl
@[simp] theorem State.emit_fetchTurn (s : State) (m : Sent) : (s.emit m).fetchTurn = s.fetchTurn := rfl
@[simp] theorem State.emit_lateAcks (s : State) (m : Sent) : (s.emit m).lateAcks = s.lateAcks := rfl
@[simp] theorem State.emit_areaChans (s : State) (m : Sent) : (s.emit m).areaChans = s.areaChans := rfl
@[simp] theorem State.emit_waiting (s : State) (m : Sent) : (s.emit m).waiting = s.waiting := rfl
@[simp] theorem State.emit_partMsgs (s : State) (m : Sent) : (s.emit m).partMsgs = s.partMsgs := rfl
@[simp] theorem State.emit_answered (s : State) (m : Sent) : (s.emit m).answered = s.answered := rfl
@[simp] theorem State.emit_unanswered (s : State) (m : Sent) : (s.emit m).unanswered = s.unanswered := rfl
@[simp] theorem State.emit_keys (s : State) (m : Sent) : (s.emit m).keys = s.keys := rfl
@[simp] theorem State.emit_shares (s : State) (m : Sent) : (s.emit m).shares = s.shares := rfl
@[simp] theorem State.emit_sessions (s : State) (m : Sent) : (s.emit m).sessions = s.sessions := rfl
@[simp] theorem State.emit_keySerial (s : State) (m : Sent) : (s.emit m).keySerial = s.keySerial := rfl
@[simp] theorem State.emit_caches (s : State) (m : Sent) : (s.emit m).caches = s.caches := rfl
@[simp] theorem State.emit_agent (s : State) (m : Sent) : (s.emit m).agent = s.agent := rfl
@[simp] theorem State.emit_errRing (s : State) (m : Sent) : (s.emit m).errRing = s.errRing := rfl
@[simp] theorem State.emit_errProd (s : State) (m : Sent) : (s.emit m).errProd = s.errProd := rfl
@[simp] theorem State.emit_errCons (s : State) (m : Sent) : (s.emit m).errCons = s.errCons := rfl
@[simp] theorem State.emit_errOvf (s : State) (m : Sent) : (s.emit m).errOvf = s.errOvf := rfl
@[simp] theorem State.emit_coreHang (s : State) (m : Sent) : (s.emit m).coreHang = s.coreHang := rfl
@[simp] theorem State.emit_cpHang (s : State) (m : Sent) : (s.emit m).cpHang = s.cpHang := rfl
@[simp] theorem State.emit_quarantine (s : State) (m : Sent) : (s.emit m).quarantine = s.quarantine := rfl
@[simp] theorem State.emit_dieFenced (s : State) (m : Sent) : (s.emit m).dieFenced = s.dieFenced := rfl
@[simp] theorem State.emit_failed (s : State) (m : Sent) : (s.emit m).failed = s.failed := rfl
@[simp] theorem State.emit_ladders (s : State) (m : Sent) : (s.emit m).ladders = s.ladders := rfl
@[simp] theorem State.emit_culprits (s : State) (m : Sent) : (s.emit m).culprits = s.culprits := rfl
@[simp] theorem State.emit_fabAddr (s : State) (m : Sent) : (s.emit m).fabAddr = s.fabAddr := rfl
@[simp] theorem State.emit_egress (s : State) (m : Sent) : (s.emit m).egress = s.egress := rfl
@[simp] theorem State.emit_inbox (s : State) (m : Sent) : (s.emit m).inbox = s.inbox := rfl
@[simp] theorem State.emit_peerOut (s : State) (m : Sent) : (s.emit m).peerOut = s.peerOut := rfl
@[simp] theorem State.emit_rdmaOut (s : State) (m : Sent) : (s.emit m).rdmaOut = s.rdmaOut := rfl
@[simp] theorem State.emit_conns (s : State) (m : Sent) : (s.emit m).conns = s.conns := rfl
@[simp] theorem State.emit_ports (s : State) (m : Sent) : (s.emit m).ports = s.ports := rfl
@[simp] theorem State.emit_nets (s : State) (m : Sent) : (s.emit m).nets = s.nets := rfl
@[simp] theorem State.emit_fabV (s : State) (m : Sent) : (s.emit m).fabV = s.fabV := rfl
@[simp] theorem State.emit_isRoot (s : State) (m : Sent) : (s.emit m).isRoot = s.isRoot := rfl
@[simp] theorem State.emit_links (s : State) (m : Sent) : (s.emit m).links = s.links := rfl
@[simp] theorem State.emit_routing (s : State) (m : Sent) : (s.emit m).routing = s.routing := rfl
@[simp] theorem State.emit_walk (s : State) (m : Sent) : (s.emit m).walk = s.walk := rfl
@[simp] theorem State.emit_sec (s : State) (m : Sent) : (s.emit m).sec = s.sec := rfl
@[simp] theorem State.emit_areaTop (s : State) (m : Sent) : (s.emit m).areaTop = s.areaTop := rfl
@[simp] theorem State.emit_hdrs (s : State) (m : Sent) : (s.emit m).hdrs = s.hdrs := rfl
@[simp] theorem State.emit_cpw (s : State) (m : Sent) : (s.emit m).cpw = s.cpw := rfl
@[simp] theorem State.emit_power (s : State) (m : Sent) : (s.emit m).power = s.power := rfl
@[simp] theorem State.emit_pm (s : State) (m : Sent) : (s.emit m).pm = s.pm := rfl

/-! ### advanceTo -/

@[simp] theorem State.advanceTo_pending (s : State) (n : Nat) : (s.advanceTo n).pending = s.pending := rfl
@[simp] theorem State.advanceTo_freeIx (s : State) (n : Nat) : (s.advanceTo n).freeIx = s.freeIx := rfl
@[simp] theorem State.advanceTo_serial (s : State) (n : Nat) : (s.advanceTo n).serial = s.serial := rfl
@[simp] theorem State.advanceTo_sent (s : State) (n : Nat) : (s.advanceTo n).sent = s.sent := rfl
@[simp] theorem State.advanceTo_cores (s : State) (n : Nat) : (s.advanceTo n).cores = s.cores := rfl
@[simp] theorem State.advanceTo_clusters (s : State) (n : Nat) : (s.advanceTo n).clusters = s.clusters := rfl
@[simp] theorem State.advanceTo_engines (s : State) (n : Nat) : (s.advanceTo n).engines = s.engines := rfl
@[simp] theorem State.advanceTo_channels (s : State) (n : Nat) : (s.advanceTo n).channels = s.channels := rfl
@[simp] theorem State.advanceTo_dieOut (s : State) (n : Nat) : (s.advanceTo n).dieOut = s.dieOut := rfl
@[simp] theorem State.advanceTo_parts (s : State) (n : Nat) : (s.advanceTo n).parts = s.parts := rfl
@[simp] theorem State.advanceTo_formes (s : State) (n : Nat) : (s.advanceTo n).formes = s.formes := rfl
@[simp] theorem State.advanceTo_fences (s : State) (n : Nat) : (s.advanceTo n).fences = s.fences := rfl
@[simp] theorem State.advanceTo_waits (s : State) (n : Nat) : (s.advanceTo n).waits = s.waits := rfl
@[simp] theorem State.advanceTo_barWaits (s : State) (n : Nat) : (s.advanceTo n).barWaits = s.barWaits := rfl
@[simp] theorem State.advanceTo_ctxs (s : State) (n : Nat) : (s.advanceTo n).ctxs = s.ctxs := rfl
@[simp] theorem State.advanceTo_lastCtx (s : State) (n : Nat) : (s.advanceTo n).lastCtx = s.lastCtx := rfl
@[simp] theorem State.advanceTo_queues (s : State) (n : Nat) : (s.advanceTo n).queues = s.queues := rfl
@[simp] theorem State.advanceTo_crings (s : State) (n : Nat) : (s.advanceTo n).crings = s.crings := rfl
@[simp] theorem State.advanceTo_jobs (s : State) (n : Nat) : (s.advanceTo n).jobs = s.jobs := rfl
@[simp] theorem State.advanceTo_recordArea (s : State) (n : Nat) : (s.advanceTo n).recordArea = s.recordArea := rfl
@[simp] theorem State.advanceTo_adminEn (s : State) (n : Nat) : (s.advanceTo n).adminEn = s.adminEn := rfl
@[simp] theorem State.advanceTo_adminOn (s : State) (n : Nat) : (s.advanceTo n).adminOn = s.adminOn := rfl
@[simp] theorem State.advanceTo_adminLog (s : State) (n : Nat) : (s.advanceTo n).adminLog = s.adminLog := rfl
@[simp] theorem State.advanceTo_adminBase (s : State) (n : Nat) : (s.advanceTo n).adminBase = s.adminBase := rfl
@[simp] theorem State.advanceTo_staleDb (s : State) (n : Nat) : (s.advanceTo n).staleDb = s.staleDb := rfl
@[simp] theorem State.advanceTo_staleClear (s : State) (n : Nat) : (s.advanceTo n).staleClear = s.staleClear := rfl
@[simp] theorem State.advanceTo_hbIgnored (s : State) (n : Nat) : (s.advanceTo n).hbIgnored = s.hbIgnored := rfl
@[simp] theorem State.advanceTo_fetchTurn (s : State) (n : Nat) : (s.advanceTo n).fetchTurn = s.fetchTurn := rfl
@[simp] theorem State.advanceTo_lateAcks (s : State) (n : Nat) : (s.advanceTo n).lateAcks = s.lateAcks := rfl
@[simp] theorem State.advanceTo_areaChans (s : State) (n : Nat) : (s.advanceTo n).areaChans = s.areaChans := rfl
@[simp] theorem State.advanceTo_waiting (s : State) (n : Nat) : (s.advanceTo n).waiting = s.waiting := rfl
@[simp] theorem State.advanceTo_partMsgs (s : State) (n : Nat) : (s.advanceTo n).partMsgs = s.partMsgs := rfl
@[simp] theorem State.advanceTo_answered (s : State) (n : Nat) : (s.advanceTo n).answered = s.answered := rfl
@[simp] theorem State.advanceTo_unanswered (s : State) (n : Nat) : (s.advanceTo n).unanswered = s.unanswered := rfl
@[simp] theorem State.advanceTo_keys (s : State) (n : Nat) : (s.advanceTo n).keys = s.keys := rfl
@[simp] theorem State.advanceTo_shares (s : State) (n : Nat) : (s.advanceTo n).shares = s.shares := rfl
@[simp] theorem State.advanceTo_sessions (s : State) (n : Nat) : (s.advanceTo n).sessions = s.sessions := rfl
@[simp] theorem State.advanceTo_keySerial (s : State) (n : Nat) : (s.advanceTo n).keySerial = s.keySerial := rfl
@[simp] theorem State.advanceTo_caches (s : State) (n : Nat) : (s.advanceTo n).caches = s.caches := rfl
@[simp] theorem State.advanceTo_agent (s : State) (n : Nat) : (s.advanceTo n).agent = s.agent := rfl
@[simp] theorem State.advanceTo_errRing (s : State) (n : Nat) : (s.advanceTo n).errRing = s.errRing := rfl
@[simp] theorem State.advanceTo_errProd (s : State) (n : Nat) : (s.advanceTo n).errProd = s.errProd := rfl
@[simp] theorem State.advanceTo_errCons (s : State) (n : Nat) : (s.advanceTo n).errCons = s.errCons := rfl
@[simp] theorem State.advanceTo_errOvf (s : State) (n : Nat) : (s.advanceTo n).errOvf = s.errOvf := rfl
@[simp] theorem State.advanceTo_coreHang (s : State) (n : Nat) : (s.advanceTo n).coreHang = s.coreHang := rfl
@[simp] theorem State.advanceTo_cpHang (s : State) (n : Nat) : (s.advanceTo n).cpHang = s.cpHang := rfl
@[simp] theorem State.advanceTo_quarantine (s : State) (n : Nat) : (s.advanceTo n).quarantine = s.quarantine := rfl
@[simp] theorem State.advanceTo_dieFenced (s : State) (n : Nat) : (s.advanceTo n).dieFenced = s.dieFenced := rfl
@[simp] theorem State.advanceTo_failed (s : State) (n : Nat) : (s.advanceTo n).failed = s.failed := rfl
@[simp] theorem State.advanceTo_ladders (s : State) (n : Nat) : (s.advanceTo n).ladders = s.ladders := rfl
@[simp] theorem State.advanceTo_culprits (s : State) (n : Nat) : (s.advanceTo n).culprits = s.culprits := rfl
@[simp] theorem State.advanceTo_fabAddr (s : State) (n : Nat) : (s.advanceTo n).fabAddr = s.fabAddr := rfl
@[simp] theorem State.advanceTo_egress (s : State) (n : Nat) : (s.advanceTo n).egress = s.egress := rfl
@[simp] theorem State.advanceTo_inbox (s : State) (n : Nat) : (s.advanceTo n).inbox = s.inbox := rfl
@[simp] theorem State.advanceTo_peerOut (s : State) (n : Nat) : (s.advanceTo n).peerOut = s.peerOut := rfl
@[simp] theorem State.advanceTo_rdmaOut (s : State) (n : Nat) : (s.advanceTo n).rdmaOut = s.rdmaOut := rfl
@[simp] theorem State.advanceTo_conns (s : State) (n : Nat) : (s.advanceTo n).conns = s.conns := rfl
@[simp] theorem State.advanceTo_ports (s : State) (n : Nat) : (s.advanceTo n).ports = s.ports := rfl
@[simp] theorem State.advanceTo_nets (s : State) (n : Nat) : (s.advanceTo n).nets = s.nets := rfl
@[simp] theorem State.advanceTo_fabV (s : State) (n : Nat) : (s.advanceTo n).fabV = s.fabV := rfl
@[simp] theorem State.advanceTo_isRoot (s : State) (n : Nat) : (s.advanceTo n).isRoot = s.isRoot := rfl
@[simp] theorem State.advanceTo_links (s : State) (n : Nat) : (s.advanceTo n).links = s.links := rfl
@[simp] theorem State.advanceTo_routing (s : State) (n : Nat) : (s.advanceTo n).routing = s.routing := rfl
@[simp] theorem State.advanceTo_walk (s : State) (n : Nat) : (s.advanceTo n).walk = s.walk := rfl
@[simp] theorem State.advanceTo_sec (s : State) (n : Nat) : (s.advanceTo n).sec = s.sec := rfl
@[simp] theorem State.advanceTo_areaTop (s : State) (n : Nat) : (s.advanceTo n).areaTop = s.areaTop := rfl
@[simp] theorem State.advanceTo_hdrs (s : State) (n : Nat) : (s.advanceTo n).hdrs = s.hdrs := rfl
@[simp] theorem State.advanceTo_cpw (s : State) (n : Nat) : (s.advanceTo n).cpw = s.cpw := rfl
@[simp] theorem State.advanceTo_power (s : State) (n : Nat) : (s.advanceTo n).power = s.power := rfl
@[simp] theorem State.advanceTo_pm (s : State) (n : Nat) : (s.advanceTo n).pm = s.pm := rfl

/-! ### modLink -/

@[simp] theorem State.modLink_pending (s : State) (l : Nat) (f : Link → Link) : (s.modLink l f).pending = s.pending := rfl
@[simp] theorem State.modLink_ltime (s : State) (l : Nat) (f : Link → Link) : (s.modLink l f).ltime = s.ltime := rfl
@[simp] theorem State.modLink_freeIx (s : State) (l : Nat) (f : Link → Link) : (s.modLink l f).freeIx = s.freeIx := rfl
@[simp] theorem State.modLink_serial (s : State) (l : Nat) (f : Link → Link) : (s.modLink l f).serial = s.serial := rfl
@[simp] theorem State.modLink_sent (s : State) (l : Nat) (f : Link → Link) : (s.modLink l f).sent = s.sent := rfl
@[simp] theorem State.modLink_cores (s : State) (l : Nat) (f : Link → Link) : (s.modLink l f).cores = s.cores := rfl
@[simp] theorem State.modLink_clusters (s : State) (l : Nat) (f : Link → Link) : (s.modLink l f).clusters = s.clusters := rfl
@[simp] theorem State.modLink_engines (s : State) (l : Nat) (f : Link → Link) : (s.modLink l f).engines = s.engines := rfl
@[simp] theorem State.modLink_channels (s : State) (l : Nat) (f : Link → Link) : (s.modLink l f).channels = s.channels := rfl
@[simp] theorem State.modLink_dieOut (s : State) (l : Nat) (f : Link → Link) : (s.modLink l f).dieOut = s.dieOut := rfl
@[simp] theorem State.modLink_parts (s : State) (l : Nat) (f : Link → Link) : (s.modLink l f).parts = s.parts := rfl
@[simp] theorem State.modLink_formes (s : State) (l : Nat) (f : Link → Link) : (s.modLink l f).formes = s.formes := rfl
@[simp] theorem State.modLink_fences (s : State) (l : Nat) (f : Link → Link) : (s.modLink l f).fences = s.fences := rfl
@[simp] theorem State.modLink_waits (s : State) (l : Nat) (f : Link → Link) : (s.modLink l f).waits = s.waits := rfl
@[simp] theorem State.modLink_barWaits (s : State) (l : Nat) (f : Link → Link) : (s.modLink l f).barWaits = s.barWaits := rfl
@[simp] theorem State.modLink_ctxs (s : State) (l : Nat) (f : Link → Link) : (s.modLink l f).ctxs = s.ctxs := rfl
@[simp] theorem State.modLink_lastCtx (s : State) (l : Nat) (f : Link → Link) : (s.modLink l f).lastCtx = s.lastCtx := rfl
@[simp] theorem State.modLink_queues (s : State) (l : Nat) (f : Link → Link) : (s.modLink l f).queues = s.queues := rfl
@[simp] theorem State.modLink_crings (s : State) (l : Nat) (f : Link → Link) : (s.modLink l f).crings = s.crings := rfl
@[simp] theorem State.modLink_jobs (s : State) (l : Nat) (f : Link → Link) : (s.modLink l f).jobs = s.jobs := rfl
@[simp] theorem State.modLink_recordArea (s : State) (l : Nat) (f : Link → Link) : (s.modLink l f).recordArea = s.recordArea := rfl
@[simp] theorem State.modLink_adminEn (s : State) (l : Nat) (f : Link → Link) : (s.modLink l f).adminEn = s.adminEn := rfl
@[simp] theorem State.modLink_adminOn (s : State) (l : Nat) (f : Link → Link) : (s.modLink l f).adminOn = s.adminOn := rfl
@[simp] theorem State.modLink_adminLog (s : State) (l : Nat) (f : Link → Link) : (s.modLink l f).adminLog = s.adminLog := rfl
@[simp] theorem State.modLink_adminBase (s : State) (l : Nat) (f : Link → Link) : (s.modLink l f).adminBase = s.adminBase := rfl
@[simp] theorem State.modLink_staleDb (s : State) (l : Nat) (f : Link → Link) : (s.modLink l f).staleDb = s.staleDb := rfl
@[simp] theorem State.modLink_staleClear (s : State) (l : Nat) (f : Link → Link) : (s.modLink l f).staleClear = s.staleClear := rfl
@[simp] theorem State.modLink_hbIgnored (s : State) (l : Nat) (f : Link → Link) : (s.modLink l f).hbIgnored = s.hbIgnored := rfl
@[simp] theorem State.modLink_fetchTurn (s : State) (l : Nat) (f : Link → Link) : (s.modLink l f).fetchTurn = s.fetchTurn := rfl
@[simp] theorem State.modLink_lateAcks (s : State) (l : Nat) (f : Link → Link) : (s.modLink l f).lateAcks = s.lateAcks := rfl
@[simp] theorem State.modLink_areaChans (s : State) (l : Nat) (f : Link → Link) : (s.modLink l f).areaChans = s.areaChans := rfl
@[simp] theorem State.modLink_waiting (s : State) (l : Nat) (f : Link → Link) : (s.modLink l f).waiting = s.waiting := rfl
@[simp] theorem State.modLink_partMsgs (s : State) (l : Nat) (f : Link → Link) : (s.modLink l f).partMsgs = s.partMsgs := rfl
@[simp] theorem State.modLink_answered (s : State) (l : Nat) (f : Link → Link) : (s.modLink l f).answered = s.answered := rfl
@[simp] theorem State.modLink_unanswered (s : State) (l : Nat) (f : Link → Link) : (s.modLink l f).unanswered = s.unanswered := rfl
@[simp] theorem State.modLink_keys (s : State) (l : Nat) (f : Link → Link) : (s.modLink l f).keys = s.keys := rfl
@[simp] theorem State.modLink_shares (s : State) (l : Nat) (f : Link → Link) : (s.modLink l f).shares = s.shares := rfl
@[simp] theorem State.modLink_sessions (s : State) (l : Nat) (f : Link → Link) : (s.modLink l f).sessions = s.sessions := rfl
@[simp] theorem State.modLink_keySerial (s : State) (l : Nat) (f : Link → Link) : (s.modLink l f).keySerial = s.keySerial := rfl
@[simp] theorem State.modLink_caches (s : State) (l : Nat) (f : Link → Link) : (s.modLink l f).caches = s.caches := rfl
@[simp] theorem State.modLink_agent (s : State) (l : Nat) (f : Link → Link) : (s.modLink l f).agent = s.agent := rfl
@[simp] theorem State.modLink_errRing (s : State) (l : Nat) (f : Link → Link) : (s.modLink l f).errRing = s.errRing := rfl
@[simp] theorem State.modLink_errProd (s : State) (l : Nat) (f : Link → Link) : (s.modLink l f).errProd = s.errProd := rfl
@[simp] theorem State.modLink_errCons (s : State) (l : Nat) (f : Link → Link) : (s.modLink l f).errCons = s.errCons := rfl
@[simp] theorem State.modLink_errOvf (s : State) (l : Nat) (f : Link → Link) : (s.modLink l f).errOvf = s.errOvf := rfl
@[simp] theorem State.modLink_coreHang (s : State) (l : Nat) (f : Link → Link) : (s.modLink l f).coreHang = s.coreHang := rfl
@[simp] theorem State.modLink_cpHang (s : State) (l : Nat) (f : Link → Link) : (s.modLink l f).cpHang = s.cpHang := rfl
@[simp] theorem State.modLink_quarantine (s : State) (l : Nat) (f : Link → Link) : (s.modLink l f).quarantine = s.quarantine := rfl
@[simp] theorem State.modLink_dieFenced (s : State) (l : Nat) (f : Link → Link) : (s.modLink l f).dieFenced = s.dieFenced := rfl
@[simp] theorem State.modLink_failed (s : State) (l : Nat) (f : Link → Link) : (s.modLink l f).failed = s.failed := rfl
@[simp] theorem State.modLink_ladders (s : State) (l : Nat) (f : Link → Link) : (s.modLink l f).ladders = s.ladders := rfl
@[simp] theorem State.modLink_culprits (s : State) (l : Nat) (f : Link → Link) : (s.modLink l f).culprits = s.culprits := rfl
@[simp] theorem State.modLink_fabAddr (s : State) (l : Nat) (f : Link → Link) : (s.modLink l f).fabAddr = s.fabAddr := rfl
@[simp] theorem State.modLink_egress (s : State) (l : Nat) (f : Link → Link) : (s.modLink l f).egress = s.egress := rfl
@[simp] theorem State.modLink_inbox (s : State) (l : Nat) (f : Link → Link) : (s.modLink l f).inbox = s.inbox := rfl
@[simp] theorem State.modLink_peerOut (s : State) (l : Nat) (f : Link → Link) : (s.modLink l f).peerOut = s.peerOut := rfl
@[simp] theorem State.modLink_rdmaOut (s : State) (l : Nat) (f : Link → Link) : (s.modLink l f).rdmaOut = s.rdmaOut := rfl
@[simp] theorem State.modLink_conns (s : State) (l : Nat) (f : Link → Link) : (s.modLink l f).conns = s.conns := rfl
@[simp] theorem State.modLink_ports (s : State) (l : Nat) (f : Link → Link) : (s.modLink l f).ports = s.ports := rfl
@[simp] theorem State.modLink_nets (s : State) (l : Nat) (f : Link → Link) : (s.modLink l f).nets = s.nets := rfl
@[simp] theorem State.modLink_fabV (s : State) (l : Nat) (f : Link → Link) : (s.modLink l f).fabV = s.fabV := rfl
@[simp] theorem State.modLink_isRoot (s : State) (l : Nat) (f : Link → Link) : (s.modLink l f).isRoot = s.isRoot := rfl
@[simp] theorem State.modLink_routing (s : State) (l : Nat) (f : Link → Link) : (s.modLink l f).routing = s.routing := rfl
@[simp] theorem State.modLink_walk (s : State) (l : Nat) (f : Link → Link) : (s.modLink l f).walk = s.walk := rfl
@[simp] theorem State.modLink_sec (s : State) (l : Nat) (f : Link → Link) : (s.modLink l f).sec = s.sec := rfl
@[simp] theorem State.modLink_areaTop (s : State) (l : Nat) (f : Link → Link) : (s.modLink l f).areaTop = s.areaTop := rfl
@[simp] theorem State.modLink_hdrs (s : State) (l : Nat) (f : Link → Link) : (s.modLink l f).hdrs = s.hdrs := rfl
@[simp] theorem State.modLink_cpw (s : State) (l : Nat) (f : Link → Link) : (s.modLink l f).cpw = s.cpw := rfl
@[simp] theorem State.modLink_power (s : State) (l : Nat) (f : Link → Link) : (s.modLink l f).power = s.power := rfl
@[simp] theorem State.modLink_pm (s : State) (l : Nat) (f : Link → Link) : (s.modLink l f).pm = s.pm := rfl

/-! ### modConn -/

@[simp] theorem State.modConn_pending (s : State) (n : Nat) (f : Conn → Conn) : (s.modConn n f).pending = s.pending := rfl
@[simp] theorem State.modConn_ltime (s : State) (n : Nat) (f : Conn → Conn) : (s.modConn n f).ltime = s.ltime := rfl
@[simp] theorem State.modConn_freeIx (s : State) (n : Nat) (f : Conn → Conn) : (s.modConn n f).freeIx = s.freeIx := rfl
@[simp] theorem State.modConn_serial (s : State) (n : Nat) (f : Conn → Conn) : (s.modConn n f).serial = s.serial := rfl
@[simp] theorem State.modConn_sent (s : State) (n : Nat) (f : Conn → Conn) : (s.modConn n f).sent = s.sent := rfl
@[simp] theorem State.modConn_cores (s : State) (n : Nat) (f : Conn → Conn) : (s.modConn n f).cores = s.cores := rfl
@[simp] theorem State.modConn_clusters (s : State) (n : Nat) (f : Conn → Conn) : (s.modConn n f).clusters = s.clusters := rfl
@[simp] theorem State.modConn_engines (s : State) (n : Nat) (f : Conn → Conn) : (s.modConn n f).engines = s.engines := rfl
@[simp] theorem State.modConn_channels (s : State) (n : Nat) (f : Conn → Conn) : (s.modConn n f).channels = s.channels := rfl
@[simp] theorem State.modConn_dieOut (s : State) (n : Nat) (f : Conn → Conn) : (s.modConn n f).dieOut = s.dieOut := rfl
@[simp] theorem State.modConn_parts (s : State) (n : Nat) (f : Conn → Conn) : (s.modConn n f).parts = s.parts := rfl
@[simp] theorem State.modConn_formes (s : State) (n : Nat) (f : Conn → Conn) : (s.modConn n f).formes = s.formes := rfl
@[simp] theorem State.modConn_fences (s : State) (n : Nat) (f : Conn → Conn) : (s.modConn n f).fences = s.fences := rfl
@[simp] theorem State.modConn_waits (s : State) (n : Nat) (f : Conn → Conn) : (s.modConn n f).waits = s.waits := rfl
@[simp] theorem State.modConn_barWaits (s : State) (n : Nat) (f : Conn → Conn) : (s.modConn n f).barWaits = s.barWaits := rfl
@[simp] theorem State.modConn_ctxs (s : State) (n : Nat) (f : Conn → Conn) : (s.modConn n f).ctxs = s.ctxs := rfl
@[simp] theorem State.modConn_lastCtx (s : State) (n : Nat) (f : Conn → Conn) : (s.modConn n f).lastCtx = s.lastCtx := rfl
@[simp] theorem State.modConn_queues (s : State) (n : Nat) (f : Conn → Conn) : (s.modConn n f).queues = s.queues := rfl
@[simp] theorem State.modConn_crings (s : State) (n : Nat) (f : Conn → Conn) : (s.modConn n f).crings = s.crings := rfl
@[simp] theorem State.modConn_jobs (s : State) (n : Nat) (f : Conn → Conn) : (s.modConn n f).jobs = s.jobs := rfl
@[simp] theorem State.modConn_recordArea (s : State) (n : Nat) (f : Conn → Conn) : (s.modConn n f).recordArea = s.recordArea := rfl
@[simp] theorem State.modConn_adminEn (s : State) (n : Nat) (f : Conn → Conn) : (s.modConn n f).adminEn = s.adminEn := rfl
@[simp] theorem State.modConn_adminOn (s : State) (n : Nat) (f : Conn → Conn) : (s.modConn n f).adminOn = s.adminOn := rfl
@[simp] theorem State.modConn_adminLog (s : State) (n : Nat) (f : Conn → Conn) : (s.modConn n f).adminLog = s.adminLog := rfl
@[simp] theorem State.modConn_adminBase (s : State) (n : Nat) (f : Conn → Conn) : (s.modConn n f).adminBase = s.adminBase := rfl
@[simp] theorem State.modConn_staleDb (s : State) (n : Nat) (f : Conn → Conn) : (s.modConn n f).staleDb = s.staleDb := rfl
@[simp] theorem State.modConn_staleClear (s : State) (n : Nat) (f : Conn → Conn) : (s.modConn n f).staleClear = s.staleClear := rfl
@[simp] theorem State.modConn_hbIgnored (s : State) (n : Nat) (f : Conn → Conn) : (s.modConn n f).hbIgnored = s.hbIgnored := rfl
@[simp] theorem State.modConn_fetchTurn (s : State) (n : Nat) (f : Conn → Conn) : (s.modConn n f).fetchTurn = s.fetchTurn := rfl
@[simp] theorem State.modConn_lateAcks (s : State) (n : Nat) (f : Conn → Conn) : (s.modConn n f).lateAcks = s.lateAcks := rfl
@[simp] theorem State.modConn_areaChans (s : State) (n : Nat) (f : Conn → Conn) : (s.modConn n f).areaChans = s.areaChans := rfl
@[simp] theorem State.modConn_waiting (s : State) (n : Nat) (f : Conn → Conn) : (s.modConn n f).waiting = s.waiting := rfl
@[simp] theorem State.modConn_partMsgs (s : State) (n : Nat) (f : Conn → Conn) : (s.modConn n f).partMsgs = s.partMsgs := rfl
@[simp] theorem State.modConn_answered (s : State) (n : Nat) (f : Conn → Conn) : (s.modConn n f).answered = s.answered := rfl
@[simp] theorem State.modConn_unanswered (s : State) (n : Nat) (f : Conn → Conn) : (s.modConn n f).unanswered = s.unanswered := rfl
@[simp] theorem State.modConn_keys (s : State) (n : Nat) (f : Conn → Conn) : (s.modConn n f).keys = s.keys := rfl
@[simp] theorem State.modConn_shares (s : State) (n : Nat) (f : Conn → Conn) : (s.modConn n f).shares = s.shares := rfl
@[simp] theorem State.modConn_sessions (s : State) (n : Nat) (f : Conn → Conn) : (s.modConn n f).sessions = s.sessions := rfl
@[simp] theorem State.modConn_keySerial (s : State) (n : Nat) (f : Conn → Conn) : (s.modConn n f).keySerial = s.keySerial := rfl
@[simp] theorem State.modConn_caches (s : State) (n : Nat) (f : Conn → Conn) : (s.modConn n f).caches = s.caches := rfl
@[simp] theorem State.modConn_agent (s : State) (n : Nat) (f : Conn → Conn) : (s.modConn n f).agent = s.agent := rfl
@[simp] theorem State.modConn_errRing (s : State) (n : Nat) (f : Conn → Conn) : (s.modConn n f).errRing = s.errRing := rfl
@[simp] theorem State.modConn_errProd (s : State) (n : Nat) (f : Conn → Conn) : (s.modConn n f).errProd = s.errProd := rfl
@[simp] theorem State.modConn_errCons (s : State) (n : Nat) (f : Conn → Conn) : (s.modConn n f).errCons = s.errCons := rfl
@[simp] theorem State.modConn_errOvf (s : State) (n : Nat) (f : Conn → Conn) : (s.modConn n f).errOvf = s.errOvf := rfl
@[simp] theorem State.modConn_coreHang (s : State) (n : Nat) (f : Conn → Conn) : (s.modConn n f).coreHang = s.coreHang := rfl
@[simp] theorem State.modConn_cpHang (s : State) (n : Nat) (f : Conn → Conn) : (s.modConn n f).cpHang = s.cpHang := rfl
@[simp] theorem State.modConn_quarantine (s : State) (n : Nat) (f : Conn → Conn) : (s.modConn n f).quarantine = s.quarantine := rfl
@[simp] theorem State.modConn_dieFenced (s : State) (n : Nat) (f : Conn → Conn) : (s.modConn n f).dieFenced = s.dieFenced := rfl
@[simp] theorem State.modConn_failed (s : State) (n : Nat) (f : Conn → Conn) : (s.modConn n f).failed = s.failed := rfl
@[simp] theorem State.modConn_ladders (s : State) (n : Nat) (f : Conn → Conn) : (s.modConn n f).ladders = s.ladders := rfl
@[simp] theorem State.modConn_culprits (s : State) (n : Nat) (f : Conn → Conn) : (s.modConn n f).culprits = s.culprits := rfl
@[simp] theorem State.modConn_fabAddr (s : State) (n : Nat) (f : Conn → Conn) : (s.modConn n f).fabAddr = s.fabAddr := rfl
@[simp] theorem State.modConn_egress (s : State) (n : Nat) (f : Conn → Conn) : (s.modConn n f).egress = s.egress := rfl
@[simp] theorem State.modConn_inbox (s : State) (n : Nat) (f : Conn → Conn) : (s.modConn n f).inbox = s.inbox := rfl
@[simp] theorem State.modConn_peerOut (s : State) (n : Nat) (f : Conn → Conn) : (s.modConn n f).peerOut = s.peerOut := rfl
@[simp] theorem State.modConn_rdmaOut (s : State) (n : Nat) (f : Conn → Conn) : (s.modConn n f).rdmaOut = s.rdmaOut := rfl
@[simp] theorem State.modConn_ports (s : State) (n : Nat) (f : Conn → Conn) : (s.modConn n f).ports = s.ports := rfl
@[simp] theorem State.modConn_nets (s : State) (n : Nat) (f : Conn → Conn) : (s.modConn n f).nets = s.nets := rfl
@[simp] theorem State.modConn_fabV (s : State) (n : Nat) (f : Conn → Conn) : (s.modConn n f).fabV = s.fabV := rfl
@[simp] theorem State.modConn_isRoot (s : State) (n : Nat) (f : Conn → Conn) : (s.modConn n f).isRoot = s.isRoot := rfl
@[simp] theorem State.modConn_links (s : State) (n : Nat) (f : Conn → Conn) : (s.modConn n f).links = s.links := rfl
@[simp] theorem State.modConn_routing (s : State) (n : Nat) (f : Conn → Conn) : (s.modConn n f).routing = s.routing := rfl
@[simp] theorem State.modConn_walk (s : State) (n : Nat) (f : Conn → Conn) : (s.modConn n f).walk = s.walk := rfl
@[simp] theorem State.modConn_sec (s : State) (n : Nat) (f : Conn → Conn) : (s.modConn n f).sec = s.sec := rfl
@[simp] theorem State.modConn_areaTop (s : State) (n : Nat) (f : Conn → Conn) : (s.modConn n f).areaTop = s.areaTop := rfl
@[simp] theorem State.modConn_hdrs (s : State) (n : Nat) (f : Conn → Conn) : (s.modConn n f).hdrs = s.hdrs := rfl
@[simp] theorem State.modConn_cpw (s : State) (n : Nat) (f : Conn → Conn) : (s.modConn n f).cpw = s.cpw := rfl
@[simp] theorem State.modConn_power (s : State) (n : Nat) (f : Conn → Conn) : (s.modConn n f).power = s.power := rfl
@[simp] theorem State.modConn_pm (s : State) (n : Nat) (f : Conn → Conn) : (s.modConn n f).pm = s.pm := rfl

/-! ### modPort -/

@[simp] theorem State.modPort_pending (s : State) (p : Nat) (f : Port → Port) : (s.modPort p f).pending = s.pending := rfl
@[simp] theorem State.modPort_ltime (s : State) (p : Nat) (f : Port → Port) : (s.modPort p f).ltime = s.ltime := rfl
@[simp] theorem State.modPort_freeIx (s : State) (p : Nat) (f : Port → Port) : (s.modPort p f).freeIx = s.freeIx := rfl
@[simp] theorem State.modPort_serial (s : State) (p : Nat) (f : Port → Port) : (s.modPort p f).serial = s.serial := rfl
@[simp] theorem State.modPort_sent (s : State) (p : Nat) (f : Port → Port) : (s.modPort p f).sent = s.sent := rfl
@[simp] theorem State.modPort_cores (s : State) (p : Nat) (f : Port → Port) : (s.modPort p f).cores = s.cores := rfl
@[simp] theorem State.modPort_clusters (s : State) (p : Nat) (f : Port → Port) : (s.modPort p f).clusters = s.clusters := rfl
@[simp] theorem State.modPort_engines (s : State) (p : Nat) (f : Port → Port) : (s.modPort p f).engines = s.engines := rfl
@[simp] theorem State.modPort_channels (s : State) (p : Nat) (f : Port → Port) : (s.modPort p f).channels = s.channels := rfl
@[simp] theorem State.modPort_dieOut (s : State) (p : Nat) (f : Port → Port) : (s.modPort p f).dieOut = s.dieOut := rfl
@[simp] theorem State.modPort_parts (s : State) (p : Nat) (f : Port → Port) : (s.modPort p f).parts = s.parts := rfl
@[simp] theorem State.modPort_formes (s : State) (p : Nat) (f : Port → Port) : (s.modPort p f).formes = s.formes := rfl
@[simp] theorem State.modPort_fences (s : State) (p : Nat) (f : Port → Port) : (s.modPort p f).fences = s.fences := rfl
@[simp] theorem State.modPort_waits (s : State) (p : Nat) (f : Port → Port) : (s.modPort p f).waits = s.waits := rfl
@[simp] theorem State.modPort_barWaits (s : State) (p : Nat) (f : Port → Port) : (s.modPort p f).barWaits = s.barWaits := rfl
@[simp] theorem State.modPort_ctxs (s : State) (p : Nat) (f : Port → Port) : (s.modPort p f).ctxs = s.ctxs := rfl
@[simp] theorem State.modPort_lastCtx (s : State) (p : Nat) (f : Port → Port) : (s.modPort p f).lastCtx = s.lastCtx := rfl
@[simp] theorem State.modPort_queues (s : State) (p : Nat) (f : Port → Port) : (s.modPort p f).queues = s.queues := rfl
@[simp] theorem State.modPort_crings (s : State) (p : Nat) (f : Port → Port) : (s.modPort p f).crings = s.crings := rfl
@[simp] theorem State.modPort_jobs (s : State) (p : Nat) (f : Port → Port) : (s.modPort p f).jobs = s.jobs := rfl
@[simp] theorem State.modPort_recordArea (s : State) (p : Nat) (f : Port → Port) : (s.modPort p f).recordArea = s.recordArea := rfl
@[simp] theorem State.modPort_adminEn (s : State) (p : Nat) (f : Port → Port) : (s.modPort p f).adminEn = s.adminEn := rfl
@[simp] theorem State.modPort_adminOn (s : State) (p : Nat) (f : Port → Port) : (s.modPort p f).adminOn = s.adminOn := rfl
@[simp] theorem State.modPort_adminLog (s : State) (p : Nat) (f : Port → Port) : (s.modPort p f).adminLog = s.adminLog := rfl
@[simp] theorem State.modPort_adminBase (s : State) (p : Nat) (f : Port → Port) : (s.modPort p f).adminBase = s.adminBase := rfl
@[simp] theorem State.modPort_staleDb (s : State) (p : Nat) (f : Port → Port) : (s.modPort p f).staleDb = s.staleDb := rfl
@[simp] theorem State.modPort_staleClear (s : State) (p : Nat) (f : Port → Port) : (s.modPort p f).staleClear = s.staleClear := rfl
@[simp] theorem State.modPort_hbIgnored (s : State) (p : Nat) (f : Port → Port) : (s.modPort p f).hbIgnored = s.hbIgnored := rfl
@[simp] theorem State.modPort_fetchTurn (s : State) (p : Nat) (f : Port → Port) : (s.modPort p f).fetchTurn = s.fetchTurn := rfl
@[simp] theorem State.modPort_lateAcks (s : State) (p : Nat) (f : Port → Port) : (s.modPort p f).lateAcks = s.lateAcks := rfl
@[simp] theorem State.modPort_areaChans (s : State) (p : Nat) (f : Port → Port) : (s.modPort p f).areaChans = s.areaChans := rfl
@[simp] theorem State.modPort_waiting (s : State) (p : Nat) (f : Port → Port) : (s.modPort p f).waiting = s.waiting := rfl
@[simp] theorem State.modPort_partMsgs (s : State) (p : Nat) (f : Port → Port) : (s.modPort p f).partMsgs = s.partMsgs := rfl
@[simp] theorem State.modPort_answered (s : State) (p : Nat) (f : Port → Port) : (s.modPort p f).answered = s.answered := rfl
@[simp] theorem State.modPort_unanswered (s : State) (p : Nat) (f : Port → Port) : (s.modPort p f).unanswered = s.unanswered := rfl
@[simp] theorem State.modPort_keys (s : State) (p : Nat) (f : Port → Port) : (s.modPort p f).keys = s.keys := rfl
@[simp] theorem State.modPort_shares (s : State) (p : Nat) (f : Port → Port) : (s.modPort p f).shares = s.shares := rfl
@[simp] theorem State.modPort_sessions (s : State) (p : Nat) (f : Port → Port) : (s.modPort p f).sessions = s.sessions := rfl
@[simp] theorem State.modPort_keySerial (s : State) (p : Nat) (f : Port → Port) : (s.modPort p f).keySerial = s.keySerial := rfl
@[simp] theorem State.modPort_caches (s : State) (p : Nat) (f : Port → Port) : (s.modPort p f).caches = s.caches := rfl
@[simp] theorem State.modPort_agent (s : State) (p : Nat) (f : Port → Port) : (s.modPort p f).agent = s.agent := rfl
@[simp] theorem State.modPort_errRing (s : State) (p : Nat) (f : Port → Port) : (s.modPort p f).errRing = s.errRing := rfl
@[simp] theorem State.modPort_errProd (s : State) (p : Nat) (f : Port → Port) : (s.modPort p f).errProd = s.errProd := rfl
@[simp] theorem State.modPort_errCons (s : State) (p : Nat) (f : Port → Port) : (s.modPort p f).errCons = s.errCons := rfl
@[simp] theorem State.modPort_errOvf (s : State) (p : Nat) (f : Port → Port) : (s.modPort p f).errOvf = s.errOvf := rfl
@[simp] theorem State.modPort_coreHang (s : State) (p : Nat) (f : Port → Port) : (s.modPort p f).coreHang = s.coreHang := rfl
@[simp] theorem State.modPort_cpHang (s : State) (p : Nat) (f : Port → Port) : (s.modPort p f).cpHang = s.cpHang := rfl
@[simp] theorem State.modPort_quarantine (s : State) (p : Nat) (f : Port → Port) : (s.modPort p f).quarantine = s.quarantine := rfl
@[simp] theorem State.modPort_dieFenced (s : State) (p : Nat) (f : Port → Port) : (s.modPort p f).dieFenced = s.dieFenced := rfl
@[simp] theorem State.modPort_failed (s : State) (p : Nat) (f : Port → Port) : (s.modPort p f).failed = s.failed := rfl
@[simp] theorem State.modPort_ladders (s : State) (p : Nat) (f : Port → Port) : (s.modPort p f).ladders = s.ladders := rfl
@[simp] theorem State.modPort_culprits (s : State) (p : Nat) (f : Port → Port) : (s.modPort p f).culprits = s.culprits := rfl
@[simp] theorem State.modPort_fabAddr (s : State) (p : Nat) (f : Port → Port) : (s.modPort p f).fabAddr = s.fabAddr := rfl
@[simp] theorem State.modPort_egress (s : State) (p : Nat) (f : Port → Port) : (s.modPort p f).egress = s.egress := rfl
@[simp] theorem State.modPort_inbox (s : State) (p : Nat) (f : Port → Port) : (s.modPort p f).inbox = s.inbox := rfl
@[simp] theorem State.modPort_peerOut (s : State) (p : Nat) (f : Port → Port) : (s.modPort p f).peerOut = s.peerOut := rfl
@[simp] theorem State.modPort_rdmaOut (s : State) (p : Nat) (f : Port → Port) : (s.modPort p f).rdmaOut = s.rdmaOut := rfl
@[simp] theorem State.modPort_conns (s : State) (p : Nat) (f : Port → Port) : (s.modPort p f).conns = s.conns := rfl
@[simp] theorem State.modPort_nets (s : State) (p : Nat) (f : Port → Port) : (s.modPort p f).nets = s.nets := rfl
@[simp] theorem State.modPort_fabV (s : State) (p : Nat) (f : Port → Port) : (s.modPort p f).fabV = s.fabV := rfl
@[simp] theorem State.modPort_isRoot (s : State) (p : Nat) (f : Port → Port) : (s.modPort p f).isRoot = s.isRoot := rfl
@[simp] theorem State.modPort_links (s : State) (p : Nat) (f : Port → Port) : (s.modPort p f).links = s.links := rfl
@[simp] theorem State.modPort_routing (s : State) (p : Nat) (f : Port → Port) : (s.modPort p f).routing = s.routing := rfl
@[simp] theorem State.modPort_walk (s : State) (p : Nat) (f : Port → Port) : (s.modPort p f).walk = s.walk := rfl
@[simp] theorem State.modPort_sec (s : State) (p : Nat) (f : Port → Port) : (s.modPort p f).sec = s.sec := rfl
@[simp] theorem State.modPort_areaTop (s : State) (p : Nat) (f : Port → Port) : (s.modPort p f).areaTop = s.areaTop := rfl
@[simp] theorem State.modPort_hdrs (s : State) (p : Nat) (f : Port → Port) : (s.modPort p f).hdrs = s.hdrs := rfl
@[simp] theorem State.modPort_cpw (s : State) (p : Nat) (f : Port → Port) : (s.modPort p f).cpw = s.cpw := rfl
@[simp] theorem State.modPort_power (s : State) (p : Nat) (f : Port → Port) : (s.modPort p f).power = s.power := rfl
@[simp] theorem State.modPort_pm (s : State) (p : Nat) (f : Port → Port) : (s.modPort p f).pm = s.pm := rfl

/-! ### modCpower -/

@[simp] theorem State.modCpower_pending (s : State) (c : Nat) (f : ClusterPower → ClusterPower) : (s.modCpower c f).pending = s.pending := rfl
@[simp] theorem State.modCpower_ltime (s : State) (c : Nat) (f : ClusterPower → ClusterPower) : (s.modCpower c f).ltime = s.ltime := rfl
@[simp] theorem State.modCpower_freeIx (s : State) (c : Nat) (f : ClusterPower → ClusterPower) : (s.modCpower c f).freeIx = s.freeIx := rfl
@[simp] theorem State.modCpower_serial (s : State) (c : Nat) (f : ClusterPower → ClusterPower) : (s.modCpower c f).serial = s.serial := rfl
@[simp] theorem State.modCpower_sent (s : State) (c : Nat) (f : ClusterPower → ClusterPower) : (s.modCpower c f).sent = s.sent := rfl
@[simp] theorem State.modCpower_cores (s : State) (c : Nat) (f : ClusterPower → ClusterPower) : (s.modCpower c f).cores = s.cores := rfl
@[simp] theorem State.modCpower_clusters (s : State) (c : Nat) (f : ClusterPower → ClusterPower) : (s.modCpower c f).clusters = s.clusters := rfl
@[simp] theorem State.modCpower_engines (s : State) (c : Nat) (f : ClusterPower → ClusterPower) : (s.modCpower c f).engines = s.engines := rfl
@[simp] theorem State.modCpower_channels (s : State) (c : Nat) (f : ClusterPower → ClusterPower) : (s.modCpower c f).channels = s.channels := rfl
@[simp] theorem State.modCpower_dieOut (s : State) (c : Nat) (f : ClusterPower → ClusterPower) : (s.modCpower c f).dieOut = s.dieOut := rfl
@[simp] theorem State.modCpower_parts (s : State) (c : Nat) (f : ClusterPower → ClusterPower) : (s.modCpower c f).parts = s.parts := rfl
@[simp] theorem State.modCpower_formes (s : State) (c : Nat) (f : ClusterPower → ClusterPower) : (s.modCpower c f).formes = s.formes := rfl
@[simp] theorem State.modCpower_fences (s : State) (c : Nat) (f : ClusterPower → ClusterPower) : (s.modCpower c f).fences = s.fences := rfl
@[simp] theorem State.modCpower_waits (s : State) (c : Nat) (f : ClusterPower → ClusterPower) : (s.modCpower c f).waits = s.waits := rfl
@[simp] theorem State.modCpower_barWaits (s : State) (c : Nat) (f : ClusterPower → ClusterPower) : (s.modCpower c f).barWaits = s.barWaits := rfl
@[simp] theorem State.modCpower_ctxs (s : State) (c : Nat) (f : ClusterPower → ClusterPower) : (s.modCpower c f).ctxs = s.ctxs := rfl
@[simp] theorem State.modCpower_lastCtx (s : State) (c : Nat) (f : ClusterPower → ClusterPower) : (s.modCpower c f).lastCtx = s.lastCtx := rfl
@[simp] theorem State.modCpower_queues (s : State) (c : Nat) (f : ClusterPower → ClusterPower) : (s.modCpower c f).queues = s.queues := rfl
@[simp] theorem State.modCpower_crings (s : State) (c : Nat) (f : ClusterPower → ClusterPower) : (s.modCpower c f).crings = s.crings := rfl
@[simp] theorem State.modCpower_jobs (s : State) (c : Nat) (f : ClusterPower → ClusterPower) : (s.modCpower c f).jobs = s.jobs := rfl
@[simp] theorem State.modCpower_recordArea (s : State) (c : Nat) (f : ClusterPower → ClusterPower) : (s.modCpower c f).recordArea = s.recordArea := rfl
@[simp] theorem State.modCpower_adminEn (s : State) (c : Nat) (f : ClusterPower → ClusterPower) : (s.modCpower c f).adminEn = s.adminEn := rfl
@[simp] theorem State.modCpower_adminOn (s : State) (c : Nat) (f : ClusterPower → ClusterPower) : (s.modCpower c f).adminOn = s.adminOn := rfl
@[simp] theorem State.modCpower_adminLog (s : State) (c : Nat) (f : ClusterPower → ClusterPower) : (s.modCpower c f).adminLog = s.adminLog := rfl
@[simp] theorem State.modCpower_adminBase (s : State) (c : Nat) (f : ClusterPower → ClusterPower) : (s.modCpower c f).adminBase = s.adminBase := rfl
@[simp] theorem State.modCpower_staleDb (s : State) (c : Nat) (f : ClusterPower → ClusterPower) : (s.modCpower c f).staleDb = s.staleDb := rfl
@[simp] theorem State.modCpower_staleClear (s : State) (c : Nat) (f : ClusterPower → ClusterPower) : (s.modCpower c f).staleClear = s.staleClear := rfl
@[simp] theorem State.modCpower_hbIgnored (s : State) (c : Nat) (f : ClusterPower → ClusterPower) : (s.modCpower c f).hbIgnored = s.hbIgnored := rfl
@[simp] theorem State.modCpower_fetchTurn (s : State) (c : Nat) (f : ClusterPower → ClusterPower) : (s.modCpower c f).fetchTurn = s.fetchTurn := rfl
@[simp] theorem State.modCpower_lateAcks (s : State) (c : Nat) (f : ClusterPower → ClusterPower) : (s.modCpower c f).lateAcks = s.lateAcks := rfl
@[simp] theorem State.modCpower_areaChans (s : State) (c : Nat) (f : ClusterPower → ClusterPower) : (s.modCpower c f).areaChans = s.areaChans := rfl
@[simp] theorem State.modCpower_waiting (s : State) (c : Nat) (f : ClusterPower → ClusterPower) : (s.modCpower c f).waiting = s.waiting := rfl
@[simp] theorem State.modCpower_partMsgs (s : State) (c : Nat) (f : ClusterPower → ClusterPower) : (s.modCpower c f).partMsgs = s.partMsgs := rfl
@[simp] theorem State.modCpower_answered (s : State) (c : Nat) (f : ClusterPower → ClusterPower) : (s.modCpower c f).answered = s.answered := rfl
@[simp] theorem State.modCpower_unanswered (s : State) (c : Nat) (f : ClusterPower → ClusterPower) : (s.modCpower c f).unanswered = s.unanswered := rfl
@[simp] theorem State.modCpower_keys (s : State) (c : Nat) (f : ClusterPower → ClusterPower) : (s.modCpower c f).keys = s.keys := rfl
@[simp] theorem State.modCpower_shares (s : State) (c : Nat) (f : ClusterPower → ClusterPower) : (s.modCpower c f).shares = s.shares := rfl
@[simp] theorem State.modCpower_sessions (s : State) (c : Nat) (f : ClusterPower → ClusterPower) : (s.modCpower c f).sessions = s.sessions := rfl
@[simp] theorem State.modCpower_keySerial (s : State) (c : Nat) (f : ClusterPower → ClusterPower) : (s.modCpower c f).keySerial = s.keySerial := rfl
@[simp] theorem State.modCpower_caches (s : State) (c : Nat) (f : ClusterPower → ClusterPower) : (s.modCpower c f).caches = s.caches := rfl
@[simp] theorem State.modCpower_agent (s : State) (c : Nat) (f : ClusterPower → ClusterPower) : (s.modCpower c f).agent = s.agent := rfl
@[simp] theorem State.modCpower_errRing (s : State) (c : Nat) (f : ClusterPower → ClusterPower) : (s.modCpower c f).errRing = s.errRing := rfl
@[simp] theorem State.modCpower_errProd (s : State) (c : Nat) (f : ClusterPower → ClusterPower) : (s.modCpower c f).errProd = s.errProd := rfl
@[simp] theorem State.modCpower_errCons (s : State) (c : Nat) (f : ClusterPower → ClusterPower) : (s.modCpower c f).errCons = s.errCons := rfl
@[simp] theorem State.modCpower_errOvf (s : State) (c : Nat) (f : ClusterPower → ClusterPower) : (s.modCpower c f).errOvf = s.errOvf := rfl
@[simp] theorem State.modCpower_coreHang (s : State) (c : Nat) (f : ClusterPower → ClusterPower) : (s.modCpower c f).coreHang = s.coreHang := rfl
@[simp] theorem State.modCpower_cpHang (s : State) (c : Nat) (f : ClusterPower → ClusterPower) : (s.modCpower c f).cpHang = s.cpHang := rfl
@[simp] theorem State.modCpower_quarantine (s : State) (c : Nat) (f : ClusterPower → ClusterPower) : (s.modCpower c f).quarantine = s.quarantine := rfl
@[simp] theorem State.modCpower_dieFenced (s : State) (c : Nat) (f : ClusterPower → ClusterPower) : (s.modCpower c f).dieFenced = s.dieFenced := rfl
@[simp] theorem State.modCpower_failed (s : State) (c : Nat) (f : ClusterPower → ClusterPower) : (s.modCpower c f).failed = s.failed := rfl
@[simp] theorem State.modCpower_ladders (s : State) (c : Nat) (f : ClusterPower → ClusterPower) : (s.modCpower c f).ladders = s.ladders := rfl
@[simp] theorem State.modCpower_culprits (s : State) (c : Nat) (f : ClusterPower → ClusterPower) : (s.modCpower c f).culprits = s.culprits := rfl
@[simp] theorem State.modCpower_fabAddr (s : State) (c : Nat) (f : ClusterPower → ClusterPower) : (s.modCpower c f).fabAddr = s.fabAddr := rfl
@[simp] theorem State.modCpower_egress (s : State) (c : Nat) (f : ClusterPower → ClusterPower) : (s.modCpower c f).egress = s.egress := rfl
@[simp] theorem State.modCpower_inbox (s : State) (c : Nat) (f : ClusterPower → ClusterPower) : (s.modCpower c f).inbox = s.inbox := rfl
@[simp] theorem State.modCpower_peerOut (s : State) (c : Nat) (f : ClusterPower → ClusterPower) : (s.modCpower c f).peerOut = s.peerOut := rfl
@[simp] theorem State.modCpower_rdmaOut (s : State) (c : Nat) (f : ClusterPower → ClusterPower) : (s.modCpower c f).rdmaOut = s.rdmaOut := rfl
@[simp] theorem State.modCpower_conns (s : State) (c : Nat) (f : ClusterPower → ClusterPower) : (s.modCpower c f).conns = s.conns := rfl
@[simp] theorem State.modCpower_ports (s : State) (c : Nat) (f : ClusterPower → ClusterPower) : (s.modCpower c f).ports = s.ports := rfl
@[simp] theorem State.modCpower_nets (s : State) (c : Nat) (f : ClusterPower → ClusterPower) : (s.modCpower c f).nets = s.nets := rfl
@[simp] theorem State.modCpower_fabV (s : State) (c : Nat) (f : ClusterPower → ClusterPower) : (s.modCpower c f).fabV = s.fabV := rfl
@[simp] theorem State.modCpower_isRoot (s : State) (c : Nat) (f : ClusterPower → ClusterPower) : (s.modCpower c f).isRoot = s.isRoot := rfl
@[simp] theorem State.modCpower_links (s : State) (c : Nat) (f : ClusterPower → ClusterPower) : (s.modCpower c f).links = s.links := rfl
@[simp] theorem State.modCpower_routing (s : State) (c : Nat) (f : ClusterPower → ClusterPower) : (s.modCpower c f).routing = s.routing := rfl
@[simp] theorem State.modCpower_walk (s : State) (c : Nat) (f : ClusterPower → ClusterPower) : (s.modCpower c f).walk = s.walk := rfl
@[simp] theorem State.modCpower_sec (s : State) (c : Nat) (f : ClusterPower → ClusterPower) : (s.modCpower c f).sec = s.sec := rfl
@[simp] theorem State.modCpower_areaTop (s : State) (c : Nat) (f : ClusterPower → ClusterPower) : (s.modCpower c f).areaTop = s.areaTop := rfl
@[simp] theorem State.modCpower_hdrs (s : State) (c : Nat) (f : ClusterPower → ClusterPower) : (s.modCpower c f).hdrs = s.hdrs := rfl
@[simp] theorem State.modCpower_power (s : State) (c : Nat) (f : ClusterPower → ClusterPower) : (s.modCpower c f).power = s.power := rfl
@[simp] theorem State.modCpower_pm (s : State) (c : Nat) (f : ClusterPower → ClusterPower) : (s.modCpower c f).pm = s.pm := rfl

/-! ### modTcache -/

@[simp] theorem State.modTcache_pending (s : State) (d : Nat) (f : TransCache → TransCache) : (s.modTcache d f).pending = s.pending := rfl
@[simp] theorem State.modTcache_ltime (s : State) (d : Nat) (f : TransCache → TransCache) : (s.modTcache d f).ltime = s.ltime := rfl
@[simp] theorem State.modTcache_freeIx (s : State) (d : Nat) (f : TransCache → TransCache) : (s.modTcache d f).freeIx = s.freeIx := rfl
@[simp] theorem State.modTcache_serial (s : State) (d : Nat) (f : TransCache → TransCache) : (s.modTcache d f).serial = s.serial := rfl
@[simp] theorem State.modTcache_sent (s : State) (d : Nat) (f : TransCache → TransCache) : (s.modTcache d f).sent = s.sent := rfl
@[simp] theorem State.modTcache_cores (s : State) (d : Nat) (f : TransCache → TransCache) : (s.modTcache d f).cores = s.cores := rfl
@[simp] theorem State.modTcache_clusters (s : State) (d : Nat) (f : TransCache → TransCache) : (s.modTcache d f).clusters = s.clusters := rfl
@[simp] theorem State.modTcache_engines (s : State) (d : Nat) (f : TransCache → TransCache) : (s.modTcache d f).engines = s.engines := rfl
@[simp] theorem State.modTcache_channels (s : State) (d : Nat) (f : TransCache → TransCache) : (s.modTcache d f).channels = s.channels := rfl
@[simp] theorem State.modTcache_dieOut (s : State) (d : Nat) (f : TransCache → TransCache) : (s.modTcache d f).dieOut = s.dieOut := rfl
@[simp] theorem State.modTcache_parts (s : State) (d : Nat) (f : TransCache → TransCache) : (s.modTcache d f).parts = s.parts := rfl
@[simp] theorem State.modTcache_formes (s : State) (d : Nat) (f : TransCache → TransCache) : (s.modTcache d f).formes = s.formes := rfl
@[simp] theorem State.modTcache_fences (s : State) (d : Nat) (f : TransCache → TransCache) : (s.modTcache d f).fences = s.fences := rfl
@[simp] theorem State.modTcache_waits (s : State) (d : Nat) (f : TransCache → TransCache) : (s.modTcache d f).waits = s.waits := rfl
@[simp] theorem State.modTcache_barWaits (s : State) (d : Nat) (f : TransCache → TransCache) : (s.modTcache d f).barWaits = s.barWaits := rfl
@[simp] theorem State.modTcache_ctxs (s : State) (d : Nat) (f : TransCache → TransCache) : (s.modTcache d f).ctxs = s.ctxs := rfl
@[simp] theorem State.modTcache_lastCtx (s : State) (d : Nat) (f : TransCache → TransCache) : (s.modTcache d f).lastCtx = s.lastCtx := rfl
@[simp] theorem State.modTcache_queues (s : State) (d : Nat) (f : TransCache → TransCache) : (s.modTcache d f).queues = s.queues := rfl
@[simp] theorem State.modTcache_crings (s : State) (d : Nat) (f : TransCache → TransCache) : (s.modTcache d f).crings = s.crings := rfl
@[simp] theorem State.modTcache_jobs (s : State) (d : Nat) (f : TransCache → TransCache) : (s.modTcache d f).jobs = s.jobs := rfl
@[simp] theorem State.modTcache_recordArea (s : State) (d : Nat) (f : TransCache → TransCache) : (s.modTcache d f).recordArea = s.recordArea := rfl
@[simp] theorem State.modTcache_adminEn (s : State) (d : Nat) (f : TransCache → TransCache) : (s.modTcache d f).adminEn = s.adminEn := rfl
@[simp] theorem State.modTcache_adminOn (s : State) (d : Nat) (f : TransCache → TransCache) : (s.modTcache d f).adminOn = s.adminOn := rfl
@[simp] theorem State.modTcache_adminLog (s : State) (d : Nat) (f : TransCache → TransCache) : (s.modTcache d f).adminLog = s.adminLog := rfl
@[simp] theorem State.modTcache_adminBase (s : State) (d : Nat) (f : TransCache → TransCache) : (s.modTcache d f).adminBase = s.adminBase := rfl
@[simp] theorem State.modTcache_staleDb (s : State) (d : Nat) (f : TransCache → TransCache) : (s.modTcache d f).staleDb = s.staleDb := rfl
@[simp] theorem State.modTcache_staleClear (s : State) (d : Nat) (f : TransCache → TransCache) : (s.modTcache d f).staleClear = s.staleClear := rfl
@[simp] theorem State.modTcache_hbIgnored (s : State) (d : Nat) (f : TransCache → TransCache) : (s.modTcache d f).hbIgnored = s.hbIgnored := rfl
@[simp] theorem State.modTcache_fetchTurn (s : State) (d : Nat) (f : TransCache → TransCache) : (s.modTcache d f).fetchTurn = s.fetchTurn := rfl
@[simp] theorem State.modTcache_lateAcks (s : State) (d : Nat) (f : TransCache → TransCache) : (s.modTcache d f).lateAcks = s.lateAcks := rfl
@[simp] theorem State.modTcache_areaChans (s : State) (d : Nat) (f : TransCache → TransCache) : (s.modTcache d f).areaChans = s.areaChans := rfl
@[simp] theorem State.modTcache_waiting (s : State) (d : Nat) (f : TransCache → TransCache) : (s.modTcache d f).waiting = s.waiting := rfl
@[simp] theorem State.modTcache_partMsgs (s : State) (d : Nat) (f : TransCache → TransCache) : (s.modTcache d f).partMsgs = s.partMsgs := rfl
@[simp] theorem State.modTcache_answered (s : State) (d : Nat) (f : TransCache → TransCache) : (s.modTcache d f).answered = s.answered := rfl
@[simp] theorem State.modTcache_unanswered (s : State) (d : Nat) (f : TransCache → TransCache) : (s.modTcache d f).unanswered = s.unanswered := rfl
@[simp] theorem State.modTcache_keys (s : State) (d : Nat) (f : TransCache → TransCache) : (s.modTcache d f).keys = s.keys := rfl
@[simp] theorem State.modTcache_shares (s : State) (d : Nat) (f : TransCache → TransCache) : (s.modTcache d f).shares = s.shares := rfl
@[simp] theorem State.modTcache_sessions (s : State) (d : Nat) (f : TransCache → TransCache) : (s.modTcache d f).sessions = s.sessions := rfl
@[simp] theorem State.modTcache_keySerial (s : State) (d : Nat) (f : TransCache → TransCache) : (s.modTcache d f).keySerial = s.keySerial := rfl
@[simp] theorem State.modTcache_agent (s : State) (d : Nat) (f : TransCache → TransCache) : (s.modTcache d f).agent = s.agent := rfl
@[simp] theorem State.modTcache_errRing (s : State) (d : Nat) (f : TransCache → TransCache) : (s.modTcache d f).errRing = s.errRing := rfl
@[simp] theorem State.modTcache_errProd (s : State) (d : Nat) (f : TransCache → TransCache) : (s.modTcache d f).errProd = s.errProd := rfl
@[simp] theorem State.modTcache_errCons (s : State) (d : Nat) (f : TransCache → TransCache) : (s.modTcache d f).errCons = s.errCons := rfl
@[simp] theorem State.modTcache_errOvf (s : State) (d : Nat) (f : TransCache → TransCache) : (s.modTcache d f).errOvf = s.errOvf := rfl
@[simp] theorem State.modTcache_coreHang (s : State) (d : Nat) (f : TransCache → TransCache) : (s.modTcache d f).coreHang = s.coreHang := rfl
@[simp] theorem State.modTcache_cpHang (s : State) (d : Nat) (f : TransCache → TransCache) : (s.modTcache d f).cpHang = s.cpHang := rfl
@[simp] theorem State.modTcache_quarantine (s : State) (d : Nat) (f : TransCache → TransCache) : (s.modTcache d f).quarantine = s.quarantine := rfl
@[simp] theorem State.modTcache_dieFenced (s : State) (d : Nat) (f : TransCache → TransCache) : (s.modTcache d f).dieFenced = s.dieFenced := rfl
@[simp] theorem State.modTcache_failed (s : State) (d : Nat) (f : TransCache → TransCache) : (s.modTcache d f).failed = s.failed := rfl
@[simp] theorem State.modTcache_ladders (s : State) (d : Nat) (f : TransCache → TransCache) : (s.modTcache d f).ladders = s.ladders := rfl
@[simp] theorem State.modTcache_culprits (s : State) (d : Nat) (f : TransCache → TransCache) : (s.modTcache d f).culprits = s.culprits := rfl
@[simp] theorem State.modTcache_fabAddr (s : State) (d : Nat) (f : TransCache → TransCache) : (s.modTcache d f).fabAddr = s.fabAddr := rfl
@[simp] theorem State.modTcache_egress (s : State) (d : Nat) (f : TransCache → TransCache) : (s.modTcache d f).egress = s.egress := rfl
@[simp] theorem State.modTcache_inbox (s : State) (d : Nat) (f : TransCache → TransCache) : (s.modTcache d f).inbox = s.inbox := rfl
@[simp] theorem State.modTcache_peerOut (s : State) (d : Nat) (f : TransCache → TransCache) : (s.modTcache d f).peerOut = s.peerOut := rfl
@[simp] theorem State.modTcache_rdmaOut (s : State) (d : Nat) (f : TransCache → TransCache) : (s.modTcache d f).rdmaOut = s.rdmaOut := rfl
@[simp] theorem State.modTcache_conns (s : State) (d : Nat) (f : TransCache → TransCache) : (s.modTcache d f).conns = s.conns := rfl
@[simp] theorem State.modTcache_ports (s : State) (d : Nat) (f : TransCache → TransCache) : (s.modTcache d f).ports = s.ports := rfl
@[simp] theorem State.modTcache_nets (s : State) (d : Nat) (f : TransCache → TransCache) : (s.modTcache d f).nets = s.nets := rfl
@[simp] theorem State.modTcache_fabV (s : State) (d : Nat) (f : TransCache → TransCache) : (s.modTcache d f).fabV = s.fabV := rfl
@[simp] theorem State.modTcache_isRoot (s : State) (d : Nat) (f : TransCache → TransCache) : (s.modTcache d f).isRoot = s.isRoot := rfl
@[simp] theorem State.modTcache_links (s : State) (d : Nat) (f : TransCache → TransCache) : (s.modTcache d f).links = s.links := rfl
@[simp] theorem State.modTcache_routing (s : State) (d : Nat) (f : TransCache → TransCache) : (s.modTcache d f).routing = s.routing := rfl
@[simp] theorem State.modTcache_walk (s : State) (d : Nat) (f : TransCache → TransCache) : (s.modTcache d f).walk = s.walk := rfl
@[simp] theorem State.modTcache_sec (s : State) (d : Nat) (f : TransCache → TransCache) : (s.modTcache d f).sec = s.sec := rfl
@[simp] theorem State.modTcache_areaTop (s : State) (d : Nat) (f : TransCache → TransCache) : (s.modTcache d f).areaTop = s.areaTop := rfl
@[simp] theorem State.modTcache_hdrs (s : State) (d : Nat) (f : TransCache → TransCache) : (s.modTcache d f).hdrs = s.hdrs := rfl
@[simp] theorem State.modTcache_cpw (s : State) (d : Nat) (f : TransCache → TransCache) : (s.modTcache d f).cpw = s.cpw := rfl
@[simp] theorem State.modTcache_power (s : State) (d : Nat) (f : TransCache → TransCache) : (s.modTcache d f).power = s.power := rfl
@[simp] theorem State.modTcache_pm (s : State) (d : Nat) (f : TransCache → TransCache) : (s.modTcache d f).pm = s.pm := rfl

/-! ### refuse -/

@[simp] theorem State.refuse_pending (s : State) (b o w : Nat) (m : Master) : (s.refuse b o w m).pending = s.pending := rfl
@[simp] theorem State.refuse_ltime (s : State) (b o w : Nat) (m : Master) : (s.refuse b o w m).ltime = s.ltime := rfl
@[simp] theorem State.refuse_freeIx (s : State) (b o w : Nat) (m : Master) : (s.refuse b o w m).freeIx = s.freeIx := rfl
@[simp] theorem State.refuse_serial (s : State) (b o w : Nat) (m : Master) : (s.refuse b o w m).serial = s.serial := rfl
@[simp] theorem State.refuse_sent (s : State) (b o w : Nat) (m : Master) : (s.refuse b o w m).sent = s.sent := rfl
@[simp] theorem State.refuse_cores (s : State) (b o w : Nat) (m : Master) : (s.refuse b o w m).cores = s.cores := rfl
@[simp] theorem State.refuse_clusters (s : State) (b o w : Nat) (m : Master) : (s.refuse b o w m).clusters = s.clusters := rfl
@[simp] theorem State.refuse_engines (s : State) (b o w : Nat) (m : Master) : (s.refuse b o w m).engines = s.engines := rfl
@[simp] theorem State.refuse_channels (s : State) (b o w : Nat) (m : Master) : (s.refuse b o w m).channels = s.channels := rfl
@[simp] theorem State.refuse_dieOut (s : State) (b o w : Nat) (m : Master) : (s.refuse b o w m).dieOut = s.dieOut := rfl
@[simp] theorem State.refuse_parts (s : State) (b o w : Nat) (m : Master) : (s.refuse b o w m).parts = s.parts := rfl
@[simp] theorem State.refuse_formes (s : State) (b o w : Nat) (m : Master) : (s.refuse b o w m).formes = s.formes := rfl
@[simp] theorem State.refuse_fences (s : State) (b o w : Nat) (m : Master) : (s.refuse b o w m).fences = s.fences := rfl
@[simp] theorem State.refuse_waits (s : State) (b o w : Nat) (m : Master) : (s.refuse b o w m).waits = s.waits := rfl
@[simp] theorem State.refuse_barWaits (s : State) (b o w : Nat) (m : Master) : (s.refuse b o w m).barWaits = s.barWaits := rfl
@[simp] theorem State.refuse_ctxs (s : State) (b o w : Nat) (m : Master) : (s.refuse b o w m).ctxs = s.ctxs := rfl
@[simp] theorem State.refuse_lastCtx (s : State) (b o w : Nat) (m : Master) : (s.refuse b o w m).lastCtx = s.lastCtx := rfl
@[simp] theorem State.refuse_queues (s : State) (b o w : Nat) (m : Master) : (s.refuse b o w m).queues = s.queues := rfl
@[simp] theorem State.refuse_crings (s : State) (b o w : Nat) (m : Master) : (s.refuse b o w m).crings = s.crings := rfl
@[simp] theorem State.refuse_jobs (s : State) (b o w : Nat) (m : Master) : (s.refuse b o w m).jobs = s.jobs := rfl
@[simp] theorem State.refuse_recordArea (s : State) (b o w : Nat) (m : Master) : (s.refuse b o w m).recordArea = s.recordArea := rfl
@[simp] theorem State.refuse_adminEn (s : State) (b o w : Nat) (m : Master) : (s.refuse b o w m).adminEn = s.adminEn := rfl
@[simp] theorem State.refuse_adminOn (s : State) (b o w : Nat) (m : Master) : (s.refuse b o w m).adminOn = s.adminOn := rfl
@[simp] theorem State.refuse_adminLog (s : State) (b o w : Nat) (m : Master) : (s.refuse b o w m).adminLog = s.adminLog := rfl
@[simp] theorem State.refuse_adminBase (s : State) (b o w : Nat) (m : Master) : (s.refuse b o w m).adminBase = s.adminBase := rfl
@[simp] theorem State.refuse_staleDb (s : State) (b o w : Nat) (m : Master) : (s.refuse b o w m).staleDb = s.staleDb := rfl
@[simp] theorem State.refuse_staleClear (s : State) (b o w : Nat) (m : Master) : (s.refuse b o w m).staleClear = s.staleClear := rfl
@[simp] theorem State.refuse_hbIgnored (s : State) (b o w : Nat) (m : Master) : (s.refuse b o w m).hbIgnored = s.hbIgnored := rfl
@[simp] theorem State.refuse_fetchTurn (s : State) (b o w : Nat) (m : Master) : (s.refuse b o w m).fetchTurn = s.fetchTurn := rfl
@[simp] theorem State.refuse_lateAcks (s : State) (b o w : Nat) (m : Master) : (s.refuse b o w m).lateAcks = s.lateAcks := rfl
@[simp] theorem State.refuse_areaChans (s : State) (b o w : Nat) (m : Master) : (s.refuse b o w m).areaChans = s.areaChans := rfl
@[simp] theorem State.refuse_waiting (s : State) (b o w : Nat) (m : Master) : (s.refuse b o w m).waiting = s.waiting := rfl
@[simp] theorem State.refuse_partMsgs (s : State) (b o w : Nat) (m : Master) : (s.refuse b o w m).partMsgs = s.partMsgs := rfl
@[simp] theorem State.refuse_answered (s : State) (b o w : Nat) (m : Master) : (s.refuse b o w m).answered = s.answered := rfl
@[simp] theorem State.refuse_unanswered (s : State) (b o w : Nat) (m : Master) : (s.refuse b o w m).unanswered = s.unanswered := rfl
@[simp] theorem State.refuse_keys (s : State) (b o w : Nat) (m : Master) : (s.refuse b o w m).keys = s.keys := rfl
@[simp] theorem State.refuse_shares (s : State) (b o w : Nat) (m : Master) : (s.refuse b o w m).shares = s.shares := rfl
@[simp] theorem State.refuse_sessions (s : State) (b o w : Nat) (m : Master) : (s.refuse b o w m).sessions = s.sessions := rfl
@[simp] theorem State.refuse_keySerial (s : State) (b o w : Nat) (m : Master) : (s.refuse b o w m).keySerial = s.keySerial := rfl
@[simp] theorem State.refuse_caches (s : State) (b o w : Nat) (m : Master) : (s.refuse b o w m).caches = s.caches := rfl
@[simp] theorem State.refuse_agent (s : State) (b o w : Nat) (m : Master) : (s.refuse b o w m).agent = s.agent := rfl
@[simp] theorem State.refuse_errRing (s : State) (b o w : Nat) (m : Master) : (s.refuse b o w m).errRing = s.errRing := rfl
@[simp] theorem State.refuse_errProd (s : State) (b o w : Nat) (m : Master) : (s.refuse b o w m).errProd = s.errProd := rfl
@[simp] theorem State.refuse_errCons (s : State) (b o w : Nat) (m : Master) : (s.refuse b o w m).errCons = s.errCons := rfl
@[simp] theorem State.refuse_errOvf (s : State) (b o w : Nat) (m : Master) : (s.refuse b o w m).errOvf = s.errOvf := rfl
@[simp] theorem State.refuse_coreHang (s : State) (b o w : Nat) (m : Master) : (s.refuse b o w m).coreHang = s.coreHang := rfl
@[simp] theorem State.refuse_cpHang (s : State) (b o w : Nat) (m : Master) : (s.refuse b o w m).cpHang = s.cpHang := rfl
@[simp] theorem State.refuse_quarantine (s : State) (b o w : Nat) (m : Master) : (s.refuse b o w m).quarantine = s.quarantine := rfl
@[simp] theorem State.refuse_dieFenced (s : State) (b o w : Nat) (m : Master) : (s.refuse b o w m).dieFenced = s.dieFenced := rfl
@[simp] theorem State.refuse_failed (s : State) (b o w : Nat) (m : Master) : (s.refuse b o w m).failed = s.failed := rfl
@[simp] theorem State.refuse_ladders (s : State) (b o w : Nat) (m : Master) : (s.refuse b o w m).ladders = s.ladders := rfl
@[simp] theorem State.refuse_culprits (s : State) (b o w : Nat) (m : Master) : (s.refuse b o w m).culprits = s.culprits := rfl
@[simp] theorem State.refuse_fabAddr (s : State) (b o w : Nat) (m : Master) : (s.refuse b o w m).fabAddr = s.fabAddr := rfl
@[simp] theorem State.refuse_egress (s : State) (b o w : Nat) (m : Master) : (s.refuse b o w m).egress = s.egress := rfl
@[simp] theorem State.refuse_inbox (s : State) (b o w : Nat) (m : Master) : (s.refuse b o w m).inbox = s.inbox := rfl
@[simp] theorem State.refuse_peerOut (s : State) (b o w : Nat) (m : Master) : (s.refuse b o w m).peerOut = s.peerOut := rfl
@[simp] theorem State.refuse_rdmaOut (s : State) (b o w : Nat) (m : Master) : (s.refuse b o w m).rdmaOut = s.rdmaOut := rfl
@[simp] theorem State.refuse_conns (s : State) (b o w : Nat) (m : Master) : (s.refuse b o w m).conns = s.conns := rfl
@[simp] theorem State.refuse_ports (s : State) (b o w : Nat) (m : Master) : (s.refuse b o w m).ports = s.ports := rfl
@[simp] theorem State.refuse_nets (s : State) (b o w : Nat) (m : Master) : (s.refuse b o w m).nets = s.nets := rfl
@[simp] theorem State.refuse_fabV (s : State) (b o w : Nat) (m : Master) : (s.refuse b o w m).fabV = s.fabV := rfl
@[simp] theorem State.refuse_isRoot (s : State) (b o w : Nat) (m : Master) : (s.refuse b o w m).isRoot = s.isRoot := rfl
@[simp] theorem State.refuse_links (s : State) (b o w : Nat) (m : Master) : (s.refuse b o w m).links = s.links := rfl
@[simp] theorem State.refuse_routing (s : State) (b o w : Nat) (m : Master) : (s.refuse b o w m).routing = s.routing := rfl
@[simp] theorem State.refuse_walk (s : State) (b o w : Nat) (m : Master) : (s.refuse b o w m).walk = s.walk := rfl
@[simp] theorem State.refuse_sec (s : State) (b o w : Nat) (m : Master) : (s.refuse b o w m).sec = s.sec := rfl
@[simp] theorem State.refuse_areaTop (s : State) (b o w : Nat) (m : Master) : (s.refuse b o w m).areaTop = s.areaTop := rfl
@[simp] theorem State.refuse_cpw (s : State) (b o w : Nat) (m : Master) : (s.refuse b o w m).cpw = s.cpw := rfl
@[simp] theorem State.refuse_power (s : State) (b o w : Nat) (m : Master) : (s.refuse b o w m).power = s.power := rfl
@[simp] theorem State.refuse_pm (s : State) (b o w : Nat) (m : Master) : (s.refuse b o w m).pm = s.pm := rfl

/-! ### keepQueue -/

@[simp] theorem State.keepQueue_pending (s t : State) : (s.keepQueue t).pending = s.pending := rfl
@[simp] theorem State.keepQueue_ltime (s t : State) : (s.keepQueue t).ltime = t.ltime := rfl
@[simp] theorem State.keepQueue_freeIx (s t : State) : (s.keepQueue t).freeIx = t.freeIx := rfl
@[simp] theorem State.keepQueue_serial (s t : State) : (s.keepQueue t).serial = t.serial := rfl
@[simp] theorem State.keepQueue_sent (s t : State) : (s.keepQueue t).sent = t.sent := rfl
@[simp] theorem State.keepQueue_cores (s t : State) : (s.keepQueue t).cores = t.cores := rfl
@[simp] theorem State.keepQueue_clusters (s t : State) : (s.keepQueue t).clusters = t.clusters := rfl
@[simp] theorem State.keepQueue_engines (s t : State) : (s.keepQueue t).engines = t.engines := rfl
@[simp] theorem State.keepQueue_channels (s t : State) : (s.keepQueue t).channels = t.channels := rfl
@[simp] theorem State.keepQueue_dieOut (s t : State) : (s.keepQueue t).dieOut = t.dieOut := rfl
@[simp] theorem State.keepQueue_parts (s t : State) : (s.keepQueue t).parts = t.parts := rfl
@[simp] theorem State.keepQueue_formes (s t : State) : (s.keepQueue t).formes = t.formes := rfl
@[simp] theorem State.keepQueue_fences (s t : State) : (s.keepQueue t).fences = t.fences := rfl
@[simp] theorem State.keepQueue_waits (s t : State) : (s.keepQueue t).waits = t.waits := rfl
@[simp] theorem State.keepQueue_barWaits (s t : State) : (s.keepQueue t).barWaits = t.barWaits := rfl
@[simp] theorem State.keepQueue_ctxs (s t : State) : (s.keepQueue t).ctxs = t.ctxs := rfl
@[simp] theorem State.keepQueue_lastCtx (s t : State) : (s.keepQueue t).lastCtx = t.lastCtx := rfl
@[simp] theorem State.keepQueue_queues (s t : State) : (s.keepQueue t).queues = t.queues := rfl
@[simp] theorem State.keepQueue_crings (s t : State) : (s.keepQueue t).crings = t.crings := rfl
@[simp] theorem State.keepQueue_jobs (s t : State) : (s.keepQueue t).jobs = t.jobs := rfl
@[simp] theorem State.keepQueue_recordArea (s t : State) : (s.keepQueue t).recordArea = t.recordArea := rfl
@[simp] theorem State.keepQueue_adminEn (s t : State) : (s.keepQueue t).adminEn = t.adminEn := rfl
@[simp] theorem State.keepQueue_adminOn (s t : State) : (s.keepQueue t).adminOn = t.adminOn := rfl
@[simp] theorem State.keepQueue_adminLog (s t : State) : (s.keepQueue t).adminLog = t.adminLog := rfl
@[simp] theorem State.keepQueue_adminBase (s t : State) : (s.keepQueue t).adminBase = t.adminBase := rfl
@[simp] theorem State.keepQueue_staleDb (s t : State) : (s.keepQueue t).staleDb = t.staleDb := rfl
@[simp] theorem State.keepQueue_staleClear (s t : State) : (s.keepQueue t).staleClear = t.staleClear := rfl
@[simp] theorem State.keepQueue_hbIgnored (s t : State) : (s.keepQueue t).hbIgnored = t.hbIgnored := rfl
@[simp] theorem State.keepQueue_fetchTurn (s t : State) : (s.keepQueue t).fetchTurn = t.fetchTurn := rfl
@[simp] theorem State.keepQueue_lateAcks (s t : State) : (s.keepQueue t).lateAcks = t.lateAcks := rfl
@[simp] theorem State.keepQueue_areaChans (s t : State) : (s.keepQueue t).areaChans = t.areaChans := rfl
@[simp] theorem State.keepQueue_waiting (s t : State) : (s.keepQueue t).waiting = t.waiting := rfl
@[simp] theorem State.keepQueue_partMsgs (s t : State) : (s.keepQueue t).partMsgs = t.partMsgs := rfl
@[simp] theorem State.keepQueue_answered (s t : State) : (s.keepQueue t).answered = t.answered := rfl
@[simp] theorem State.keepQueue_unanswered (s t : State) : (s.keepQueue t).unanswered = t.unanswered := rfl
@[simp] theorem State.keepQueue_keys (s t : State) : (s.keepQueue t).keys = t.keys := rfl
@[simp] theorem State.keepQueue_shares (s t : State) : (s.keepQueue t).shares = t.shares := rfl
@[simp] theorem State.keepQueue_sessions (s t : State) : (s.keepQueue t).sessions = t.sessions := rfl
@[simp] theorem State.keepQueue_keySerial (s t : State) : (s.keepQueue t).keySerial = t.keySerial := rfl
@[simp] theorem State.keepQueue_caches (s t : State) : (s.keepQueue t).caches = t.caches := rfl
@[simp] theorem State.keepQueue_agent (s t : State) : (s.keepQueue t).agent = t.agent := rfl
@[simp] theorem State.keepQueue_errRing (s t : State) : (s.keepQueue t).errRing = t.errRing := rfl
@[simp] theorem State.keepQueue_errProd (s t : State) : (s.keepQueue t).errProd = t.errProd := rfl
@[simp] theorem State.keepQueue_errCons (s t : State) : (s.keepQueue t).errCons = t.errCons := rfl
@[simp] theorem State.keepQueue_errOvf (s t : State) : (s.keepQueue t).errOvf = t.errOvf := rfl
@[simp] theorem State.keepQueue_coreHang (s t : State) : (s.keepQueue t).coreHang = t.coreHang := rfl
@[simp] theorem State.keepQueue_cpHang (s t : State) : (s.keepQueue t).cpHang = t.cpHang := rfl
@[simp] theorem State.keepQueue_quarantine (s t : State) : (s.keepQueue t).quarantine = t.quarantine := rfl
@[simp] theorem State.keepQueue_dieFenced (s t : State) : (s.keepQueue t).dieFenced = t.dieFenced := rfl
@[simp] theorem State.keepQueue_failed (s t : State) : (s.keepQueue t).failed = t.failed := rfl
@[simp] theorem State.keepQueue_ladders (s t : State) : (s.keepQueue t).ladders = t.ladders := rfl
@[simp] theorem State.keepQueue_culprits (s t : State) : (s.keepQueue t).culprits = t.culprits := rfl
@[simp] theorem State.keepQueue_fabAddr (s t : State) : (s.keepQueue t).fabAddr = t.fabAddr := rfl
@[simp] theorem State.keepQueue_egress (s t : State) : (s.keepQueue t).egress = t.egress := rfl
@[simp] theorem State.keepQueue_inbox (s t : State) : (s.keepQueue t).inbox = t.inbox := rfl
@[simp] theorem State.keepQueue_peerOut (s t : State) : (s.keepQueue t).peerOut = t.peerOut := rfl
@[simp] theorem State.keepQueue_rdmaOut (s t : State) : (s.keepQueue t).rdmaOut = t.rdmaOut := rfl
@[simp] theorem State.keepQueue_conns (s t : State) : (s.keepQueue t).conns = t.conns := rfl
@[simp] theorem State.keepQueue_ports (s t : State) : (s.keepQueue t).ports = t.ports := rfl
@[simp] theorem State.keepQueue_nets (s t : State) : (s.keepQueue t).nets = t.nets := rfl
@[simp] theorem State.keepQueue_fabV (s t : State) : (s.keepQueue t).fabV = t.fabV := rfl
@[simp] theorem State.keepQueue_isRoot (s t : State) : (s.keepQueue t).isRoot = t.isRoot := rfl
@[simp] theorem State.keepQueue_links (s t : State) : (s.keepQueue t).links = t.links := rfl
@[simp] theorem State.keepQueue_routing (s t : State) : (s.keepQueue t).routing = t.routing := rfl
@[simp] theorem State.keepQueue_walk (s t : State) : (s.keepQueue t).walk = t.walk := rfl
@[simp] theorem State.keepQueue_sec (s t : State) : (s.keepQueue t).sec = t.sec := rfl
@[simp] theorem State.keepQueue_areaTop (s t : State) : (s.keepQueue t).areaTop = t.areaTop := rfl
@[simp] theorem State.keepQueue_hdrs (s t : State) : (s.keepQueue t).hdrs = t.hdrs := rfl
@[simp] theorem State.keepQueue_cpw (s t : State) : (s.keepQueue t).cpw = t.cpw := rfl
@[simp] theorem State.keepQueue_power (s t : State) : (s.keepQueue t).power = t.power := rfl
@[simp] theorem State.keepQueue_pm (s t : State) : (s.keepQueue t).pm = t.pm := rfl
@[simp] theorem State.keepQueue_get_core (s t : State) (i : Nat) : (s.keepQueue t).core i = t.core i := rfl
@[simp] theorem State.keepQueue_get_cluster (s t : State) (i : Nat) : (s.keepQueue t).cluster i = t.cluster i := rfl
@[simp] theorem State.keepQueue_get_engine (s t : State) (i : Nat) : (s.keepQueue t).engine i = t.engine i := rfl
@[simp] theorem State.keepQueue_get_channel (s t : State) (i : Nat) : (s.keepQueue t).channel i = t.channel i := rfl
@[simp] theorem State.keepQueue_get_part (s t : State) (i : Nat) : (s.keepQueue t).part i = t.part i := rfl
@[simp] theorem State.keepQueue_get_fence (s t : State) (i : Nat) : (s.keepQueue t).fence i = t.fence i := rfl
@[simp] theorem State.keepQueue_get_ctx (s t : State) (i : Nat) : (s.keepQueue t).ctx i = t.ctx i := rfl
@[simp] theorem State.keepQueue_get_queue (s t : State) (i : Nat) : (s.keepQueue t).queue i = t.queue i := rfl
@[simp] theorem State.keepQueue_get_cring (s t : State) (i : Nat) : (s.keepQueue t).cring i = t.cring i := rfl
@[simp] theorem State.keepQueue_get_key (s t : State) (i : Nat) : (s.keepQueue t).key i = t.key i := rfl
@[simp] theorem State.keepQueue_get_link (s t : State) (i : Nat) : (s.keepQueue t).link i = t.link i := rfl
@[simp] theorem State.keepQueue_get_conn (s t : State) (i : Nat) : (s.keepQueue t).conn i = t.conn i := rfl
@[simp] theorem State.keepQueue_get_port (s t : State) (i : Nat) : (s.keepQueue t).port i = t.port i := rfl
@[simp] theorem State.keepQueue_get_cpower (s t : State) (i : Nat) : (s.keepQueue t).cpower i = t.cpower i := rfl
@[simp] theorem State.keepQueue_get_forme (s t : State) (i : Nat) : (s.keepQueue t).forme i = t.forme i := rfl
@[simp] theorem State.keepQueue_self (s : State) : s.keepQueue s = s := rfl

/-! ### What an update makes of the part that it changes -/

/-- What modCore makes of each `core`. -/
@[simp] theorem State.core_modCore (s : State) (c i : Nat) (f : Core → Core) :
    (s.modCore c f).core i = if i = c then f (s.core c) else s.core i := by
  simp [State.core, State.modCore, State.setCore]

/-- What modCluster makes of each `cluster`. -/
@[simp] theorem State.cluster_modCluster (s : State) (c i : Nat) (f : Cluster → Cluster) :
    (s.modCluster c f).cluster i = if i = c then f (s.cluster c) else s.cluster i := by
  simp [State.cluster, State.modCluster, State.setCluster]

/-- What modEngine makes of each `engine`. -/
@[simp] theorem State.engine_modEngine (s : State) (e i : Nat) (f : StreamEngine → StreamEngine) :
    (s.modEngine e f).engine i = if i = e then f (s.engine e) else s.engine i := by
  simp [State.engine, State.modEngine]

/-- What modChannel makes of each `channel`. -/
@[simp] theorem State.channel_modChannel (s : State) (c i : Nat) (f : Channel → Channel) :
    (s.modChannel c f).channel i = if i = c then f (s.channel c) else s.channel i := by
  simp [State.channel, State.modChannel]

/-- What modPart makes of each `part`. -/
@[simp] theorem State.part_modPart (s : State) (p i : Nat) (f : Partition → Partition) :
    (s.modPart p f).part i = if i = p then f (s.part p) else s.part i := by
  simp [State.part, State.modPart]

/-- What modFence makes of each `fence`. -/
@[simp] theorem State.fence_modFence (s : State) (n i : Nat) (f : Fence → Fence) :
    (s.modFence n f).fence i = if i = n then f (s.fence n) else s.fence i := by
  simp [State.fence, State.modFence]

/-- What modCtx makes of each `ctx`. -/
@[simp] theorem State.ctx_modCtx (s : State) (n i : Nat) (f : Context → Context) :
    (s.modCtx n f).ctx i = if i = n then f (s.ctx n) else s.ctx i := by
  simp [State.ctx, State.modCtx]

/-- What modQueue makes of each `queue`. -/
@[simp] theorem State.queue_modQueue (s : State) (q i : Nat) (f : Queue → Queue) :
    (s.modQueue q f).queue i = if i = q then f (s.queue q) else s.queue i := by
  simp [State.queue, State.modQueue]

/-- What modCring makes of each `cring`. -/
@[simp] theorem State.cring_modCring (s : State) (r i : Nat) (f : CRing → CRing) :
    (s.modCring r f).cring i = if i = r then f (s.cring r) else s.cring i := by
  simp [State.cring, State.modCring]

/-- What modKey makes of each `key`. -/
@[simp] theorem State.key_modKey (s : State) (h i : Nat) (f : KeyEntry → KeyEntry) :
    (s.modKey h f).key i = if i = h then f (s.key h) else s.key i := by
  simp [State.key, State.modKey]

/-- What modLink makes of each `link`. -/
@[simp] theorem State.link_modLink (s : State) (l i : Nat) (f : Link → Link) :
    (s.modLink l f).link i = if i = l then f (s.link l) else s.link i := by
  simp [State.link, State.modLink]

/-- What modConn makes of each `conn`. -/
@[simp] theorem State.conn_modConn (s : State) (n i : Nat) (f : Conn → Conn) :
    (s.modConn n f).conn i = if i = n then f (s.conn n) else s.conn i := by
  simp [State.conn, State.modConn]

/-- What modPort makes of each `port`. -/
@[simp] theorem State.port_modPort (s : State) (p i : Nat) (f : Port → Port) :
    (s.modPort p f).port i = if i = p then f (s.port p) else s.port i := by
  simp [State.port, State.modPort]

/-- What modCpower makes of each `cpower`. -/
@[simp] theorem State.cpower_modCpower (s : State) (c i : Nat) (f : ClusterPower → ClusterPower) :
    (s.modCpower c f).cpower i = if i = c then f (s.cpower c) else s.cpower i := by
  simp [State.cpower, State.modCpower]

@[simp] theorem State.core_setCore (s : State) (c i : Nat) (k : Core) :
    (s.setCore c k).core i = if i = c then k else s.core i := by
  simp [State.core, State.setCore]

@[simp] theorem State.emit_sent (s : State) (m : Sent) : (s.emit m).sent = s.sent ++ [m] := rfl

@[simp] theorem State.advanceTo_ltime (s : State) (n : Nat) : (s.advanceTo n).ltime = max s.ltime n := rfl

end Sys2Proof.Machine
end

