-- ==== Sys2Proof/Laws/Control.lean ====
section
/-! SUPPORT. What the shared operations of the control slot can do: one lemma for each. -/

namespace Sys2Proof.Machine

/-- Of two writes of one core the second stands. -/
@[simp] theorem State.setCore_setCore (s : State) (c : Nat) (k l : Core) : (s.setCore c k).setCore c l = s.setCore c l := by
  simp [State.setCore]

/-- Any other core than the one written. -/
theorem State.core_setCore_ne (s : State) (c d : Nat) (k : Core) (h : d ≠ c) : (s.setCore c k).core d = s.core d := by
  simp [State.setCore, State.core, h]

/-- Two changes of one core are one change. -/
theorem State.modCore_modCore (s : State) (c : Nat) (f g : Core → Core) :
    (s.modCore c f).modCore c g = s.modCore c fun k => g (f k) := by
  simp [State.modCore]

/-- Nothing to settle. -/
theorem State.settle_nil (s : State) : s.settle [] = s := by
  unfold State.settle
  cases State.settleBound s [].length <;> rfl

/-- A settlement of one event that brings nothing else about. -/
theorem State.settle_one (s t : State) (e : Ev) (h : s.settleOne e = (t, [])) : s.settle [e] = t := by
  have hb : ∃ n, State.settleBound s [e].length = n + 2 := ⟨_, rfl⟩
  obtain ⟨n, hn⟩ := hb
  simp only [State.settle, hn, State.settleFuel, h, List.append_nil]

/-- The post of a token with room adds one to it and does nothing else. -/
theorem State.settle_post (s : State) (c : Nat) (t : Fin 16) (pc slot : Nat) (h : (s.core c).ctl.live = true)
    (r : (s.core c).token t < 63) :
    s.settle [.post c t pc slot] = s.modCore c fun k => k.setToken t (k.token t + 1) := by
  apply State.settle_one
  simp only [State.settleOne, State.tokenPost]
  have hr : ¬ 63 ≤ (s.core c).token t := by omega
  cases hk : (s.core c).ctl <;> simp_all [CtlState.live, State.modCore]

/-- A header's post on a core just written. -/
theorem State.postHdr_setCore (s : State) (c : Nat) (k : Core) (h : Hdr) (pc slot : Nat) (hl : k.ctl.live = true)
    (r : ∀ t, h.post = some t → k.token t < 63) :
    (s.setCore c k).postHdr c h pc slot = s.setCore c (k.posted h) := by
  unfold State.postHdr Core.posted
  cases e : h.post with
  | none => rfl
  | some t =>
    simp only
    rw [State.settle_post _ _ _ _ _ (by simpa using hl) (by simpa using r t e)]
    simp [State.modCore]

/-- Passing a bundle changes the program counter and the loops. -/
@[simp] theorem Core.pass_ctl (k : Core) (pc : Nat) : (k.pass pc).ctl = k.ctl := rfl
@[simp] theorem Core.pass_token (k : Core) (pc : Nat) (t : Fin 16) : (k.pass pc).token t = k.token t := rfl
@[simp] theorem Core.consume_ctl (k : Core) (h : Hdr) : (k.consume h).ctl = k.ctl := by
  unfold Core.consume; split <;> rfl
@[simp] theorem Core.consume_pc (k : Core) (h : Hdr) : (k.consume h).pc = k.pc := by
  unfold Core.consume; split <;> rfl
@[simp] theorem Core.consume_xr (k : Core) (h : Hdr) (r : Fin 32) : (k.consume h).xr r = k.xr r := by
  unfold Core.consume; split <;> rfl
@[simp] theorem Core.setX_ctl (k : Core) (r : Fin 32) (v : Word64) : (k.setX r v).ctl = k.ctl := by
  unfold Core.setX; split <;> rfl
@[simp] theorem Core.setX_token (k : Core) (r : Fin 32) (v : Word64) (t : Fin 16) : (k.setX r v).token t = k.token t := by
  unfold Core.setX; split <;> rfl

/-- A control-slot instruction that ends at once. -/
theorem State.finishCtl_setCore (s : State) (c : Nat) (k : Core) (h : Hdr) (pc : Nat) (f : Core → Core)
    (hl : (f k).ctl.live = true) (r : ∀ t, h.post = some t → (f k).token t < 63) :
    (s.setCore c k).finishCtl c h pc f = s.setCore c (((f k).pass pc).posted h) := by
  have := State.postHdr_setCore s c ((f k).pass pc) h pc 0 (by simpa using hl) (by simpa using r)
  simpa [State.finishCtl, State.modCore] using this

/-- A control-slot instruction that issues is executed on the core whose token wait has been consumed. -/
theorem State.issueControl_issues (s : State) (c : CoreId) (h : Hdr) (op : CtlOp) (i : s.issues c h)
    (w : op.clean = true) (p : op.onPoison (s.core c) = false) :
    s.issueControl c h op = (s.setCore c ((s.core c).consume h)).control c h op := by
  simp [State.issueControl, i.1, i.2.1, w, p, State.modCore]

/-- Reserved bits of LDHI that are not zero are a decoding fault, whatever the token wait (R50). -/
theorem State.issueControl_unclean (s : State) (c : Nat) (h : Hdr) (op : CtlOp) (i : (s.core c).ctl = .running)
    (w : op.clean = false) : s.issueControl c h op = s.fault c FaultCode.reservedNonzero (s.core c).pc 0 := by
  simp [State.issueControl, i, w]

/-- A register instruction writes its value. -/
theorem State.control_result (s : State) (c : Nat) (h : Hdr) (op : CtlOp) (xd : Fin 32) (v : Word64)
    (e : op.result (s.core c) = some (xd, v)) : s.control c h op = s.finishReg c h (s.core c).pc xd v := by
  simp only [State.control, e]

/-- A branch goes to its target or passes its bundle. -/
theorem State.control_branch (s : State) (c : Nat) (h : Hdr) (op : CtlOp) (b : Bool) (t : Nat) (e : op.result (s.core c) = none)
    (e2 : op.branch (s.core c) = some (b, t)) :
    s.control c h op = if b then s.finishTransfer c h (s.core c).pc t id else s.finishCtl c h (s.core c).pc id := by
  simp only [State.control, e, e2]

/-- Any other instruction of the control slot. -/
theorem State.control_other (s : State) (c : Nat) (h : Hdr) (op : CtlOp) (e : op.result (s.core c) = none)
    (e2 : op.branch (s.core c) = none) : s.control c h op = s.controlOther c h op := by
  simp only [State.control, e, e2]

/-! What `controlOther` does with each instruction: true by definition. -/

theorem State.controlOther_ld (s : State) (c : Nat) (h : Hdr) (xd xa : Fin 32) (imm : BitVec 36) :
    s.controlOther c h (.ld xd xa imm) =
      let k := s.core c
      s.ctlLoad c h (memAddr k xa imm) 8 fun v k => k.setX xd (BitVec.ofNat 64 v) := rfl

theorem State.controlOther_st (s : State) (c : Nat) (h : Hdr) (xd xa : Fin 32) (imm : BitVec 36) :
    s.controlOther c h (.st xd xa imm) =
      let k := s.core c
      s.ctlStore c h (memAddr k xa imm) 8 (k.xr xd).toNat := rfl

theorem State.controlOther_tdld (s : State) (c : Nat) (h : Hdr) (xd xa : Fin 32) (imm : BitVec 36) :
    s.controlOther c h (.tdld xd xa imm) =
      let k := s.core c
      s.ctlLoad c h (memAddr k xa imm) 32 fun v k =>
      { k with td := Tbl.set k.td xd.val (BitVec.ofNat 256 v &&& tdMask) } := rfl

theorem State.controlOther_tdst (s : State) (c : Nat) (h : Hdr) (xd xa : Fin 32) (imm : BitVec 36) :
    s.controlOther c h (.tdst xd xa imm) =
      let k := s.core c
      s.ctlStore c h (memAddr k xa imm) 32 (k.tdr xd).toNat := rfl

theorem State.controlOther_call (s : State) (c : Nat) (h : Hdr) (target : BitVec 13) :
    s.controlOther c h (.call target) =
      s.ctlCall c h target.toNat := rfl

theorem State.controlOther_ret (s : State) (c : Nat) (h : Hdr) :
    s.controlOther c h .ret =
      s.ctlRet c h := rfl

theorem State.controlOther_jr (s : State) (c : Nat) (h : Hdr) (xa : Fin 32) :
    s.controlOther c h (.jr xa) =
      s.ctlJr c h xa := rfl

theorem State.controlOther_loop (s : State) (c : Nat) (h : Hdr) (xa : Fin 32) (target : BitVec 13) :
    s.controlOther c h (.loop xa target) =
      s.ctlLoop c h xa target.toNat := rfl

theorem State.controlOther_halt (s : State) (c : Nat) (h : Hdr) :
    s.controlOther c h .halt =
      let pc := (s.core c).pc
      (s.modCore c fun k => { k with ctl := .halting }).postHdr c h pc 0 := rfl

theorem State.controlOther_csrr (s : State) (c : Nat) (h : Hdr) (xd xa : Fin 32) (imm : BitVec 36) :
    s.controlOther c h (.csrr xd xa imm) =
      let pc := (s.core c).pc
      match s.csr c (imm.toNat % 2 ^ 12) with
    | none => s.fault c FaultCode.csrInvalid pc 0
    | some v => s.finishReg c h pc xd v := rfl

theorem State.controlOther_csrw (s : State) (c : Nat) (h : Hdr) (xd xa : Fin 32) (imm : BitVec 36) :
    s.controlOther c h (.csrw xd xa imm) =
      s.ctlCsrw c h xa imm .write := rfl

theorem State.controlOther_csrs (s : State) (c : Nat) (h : Hdr) (xd xa : Fin 32) (imm : BitVec 36) :
    s.controlOther c h (.csrs xd xa imm) =
      s.ctlCsrw c h xa imm .set := rfl

theorem State.controlOther_csrc (s : State) (c : Nat) (h : Hdr) (xd xa : Fin 32) (imm : BitVec 36) :
    s.controlOther c h (.csrc xd xa imm) =
      s.ctlCsrw c h xa imm .clear := rfl

theorem State.controlOther_alloc (s : State) (c : Nat) (h : Hdr) (xd xa : Fin 32) (imm : BitVec 36) :
    s.controlOther c h (.alloc xd xa imm) =
      let k := s.core c
      (s.modCluster (clusterOf c) fun g =>
      { g with calls := g.calls ++ [⟨Fin.ofNat 192 c, false, k.xr xa, imm⟩] }).block c h (.alloc xd xa imm) none := rfl

theorem State.controlOther_free (s : State) (c : Nat) (h : Hdr) (xd xa xb : Fin 32) :
    s.controlOther c h (.free xd xa xb) =
      let k := s.core c
      (s.modCluster (clusterOf c) fun g =>
      { g with calls := g.calls ++ [⟨Fin.ofNat 192 c, true, k.xr xa, 0⟩] }).block c h (.free xd xa xb) none := rfl

theorem State.controlOther_fsig (s : State) (c : Nat) (h : Hdr) (xd xa xb : Fin 32) :
    s.controlOther c h (.fsig xd xa xb) =
      s.block c h (.fsig xd xa xb) none := rfl

theorem State.controlOther_fadd (s : State) (c : Nat) (h : Hdr) (xd xa xb : Fin 32) :
    s.controlOther c h (.fadd xd xa xb) =
      s.block c h (.fadd xd xa xb) none := rfl

theorem State.controlOther_fread (s : State) (c : Nat) (h : Hdr) (xd xa xb : Fin 32) :
    s.controlOther c h (.fread xd xa xb) =
      s.block c h (.fread xd xa xb) none := rfl

theorem State.controlOther_fwait (s : State) (c : Nat) (h : Hdr) (xd xa xb : Fin 32) (imm : BitVec 31) :
    s.controlOther c h (.fwait xd xa xb imm) =
      let k := s.core c
      s.ctlWait c h (.fwait xd xa xb imm) xd ((k.xr xa).toNat % 2 ^ 32) (k.xr xb).toNat imm := rfl

theorem State.controlOther_ftok (s : State) (c : Nat) (h : Hdr) (xd xa xb : Fin 32) :
    s.controlOther c h (.ftok xd xa xb) =
      let k := s.core c
      let pc := (s.core c).pc
      let t : Fin 16 := Fin.ofNat 16 ((k.xr xd).toNat % 16)
    if s.isArmed c t then s.fault c FaultCode.tokenOverflow pc 0
    else
      let s := s.finishCtl c h pc id
      let r := s.armFence c pc t ((k.xr xa).toNat % 2 ^ 32) (k.xr xb).toNat
      r.1.settle r.2 := rfl

theorem State.controlOther_rfsig (s : State) (c : Nat) (h : Hdr) (xd xa xb : Fin 32) :
    s.controlOther c h (.rfsig xd xa xb) =
      s.ctlRemote c h xd xa xb false := rfl

theorem State.controlOther_rfadd (s : State) (c : Nat) (h : Hdr) (xd xa xb : Fin 32) :
    s.controlOther c h (.rfadd xd xa xb) =
      s.ctlRemote c h xd xa xb true := rfl

theorem State.controlOther_rfwait (s : State) (c : Nat) (h : Hdr) (xd xa xb : Fin 32) (imm : BitVec 31) :
    s.controlOther c h (.rfwait xd xa xb imm) =
      let k := s.core c
      let name := (k.xr xa).toNat % 2 ^ 48
    if bits name 47 32 = s.fabAddr then s.ctlWait c h (.rfwait xd xa xb imm) xd (bits name 31 0) (k.xr xb).toNat imm
    else
      (s.startRemote c (bits name 47 32) (bits name 31 0) (k.xr xb).toNat false).block c h (.rfwait xd xa xb imm) (s.deadline imm) := rfl

theorem State.controlOther_rfread (s : State) (c : Nat) (h : Hdr) (xd xa xb : Fin 32) :
    s.controlOther c h (.rfread xd xa xb) =
      let k := s.core c
      let name := (k.xr xa).toNat % 2 ^ 48
    if bits name 47 32 = s.fabAddr then s.block c h (.rfread xd xa xb) none
    else (s.startRemote c (bits name 47 32) (bits name 31 0) 0 true).block c h (.rfread xd xa xb) none := rfl

theorem State.controlOther_bara (s : State) (c : Nat) (h : Hdr) (xd xa xb : Fin 32) :
    s.controlOther c h (.bara xd xa xb) =
      let k := s.core c
      let pc := (s.core c).pc
      let r := s.barArriveCore (clusterOf c) ((k.xr xa).toNat % 2 ^ 8) c (.ctx k.ctx)
    (r.1.finishCtl c h pc id).settle r.2 := rfl

theorem State.controlOther_barw (s : State) (c : Nat) (h : Hdr) (xd xa xb : Fin 32) (imm : BitVec 31) :
    s.controlOther c h (.barw xd xa xb imm) =
      let k := s.core c
      let pc := (s.core c).pc
      match s.barWait c ((k.xr xa).toNat % 2 ^ 8) (.core c) with
    | (some st, s) => s.finishReg c h pc xd (BitVec.ofNat 64 st)
    | (none, s) => s.block c h (.barw xd xa xb imm) (s.deadline imm) := rfl

theorem State.controlOther_bart (s : State) (c : Nat) (h : Hdr) (xd xa xb : Fin 32) :
    s.controlOther c h (.bart xd xa xb) =
      let k := s.core c
      let pc := (s.core c).pc
      let t : Fin 16 := Fin.ofNat 16 ((k.xr xd).toNat % 16)
    if s.isArmed c t then s.fault c FaultCode.tokenOverflow pc 0
    else
      let s := s.finishCtl c h pc id
      let r := s.armBar c pc t ((k.xr xa).toNat % 2 ^ 8)
      r.1.settle r.2 := rfl

theorem State.controlOther_nop (s : State) (c : Nat) (h : Hdr) :
    s.controlOther c h .nop =
      let pc := (s.core c).pc
      s.finishCtl c h pc id := rfl

/-- Keeping the queue of a state whose queue has not changed. -/
theorem State.answer_same (s t : State) (h : t.pending = s.pending) : s.answer t = .next t := by
  simp [State.answer, State.keepQueue, ← h]

end Sys2Proof.Machine
end

