-- ==== Sys2Proof/Laws/Memory.lean ====
section
/-! SUPPORT. What a request for one line of memory does, case by case, where the line has one copy. -/

namespace Sys2Proof.Machine

/-- Where nothing waits, a unit's request has its turn at once. -/
theorem State.ask_alone (s : State) (r : MemReq) (c : Option Change512) (u : ReqUnit) (h : s.waiting = []) :
    s.ask r c u = s.turn (s.arrival r c u) := by
  have h1 : s.asked r c u = s.arrival r c u := by simp only [State.asked, h, List.find?_nil]
  have h2 : (s.ahead (s.arrival r c u)).isEmpty = true := by
    unfold State.ahead; split <;> simp only [h, List.filter_nil, List.isEmpty_nil]
  have h3 : (s.arrival r c u).applied = none := rfl
  simp only [State.ask, h1, h3, h, List.length_nil, State.serveAhead, h2, if_true, List.nil_append]

/-- The turn of a request that is written through to no other module. -/
theorem State.turn_near (s : State) (w : Waiting) (h : s.goesThrough w.req (s.serve w).1 = false) :
    s.turn w = if (s.serve w).1.status = .hold then ((s.serve w).1, (s.serve w).2.1.wait w, (s.serve w).2.2)
      else ((s.serve w).1, s.taken w (s.serve w).2.1, (s.serve w).2.2) := by
  simp only [State.turn, State.through, h, Bool.false_and, if_false, Bool.false_eq_true]

/-- The turn of a request that waits for the acknowledgement of its source on another module. -/
theorem State.turn_far (s : State) (w : Waiting) (h : s.farSource w.req.part.val = true) (hu : w.unit ≠ .none) (hs : (s.serve w).1.stored = true)
    (hh : (s.serve w).1.status ≠ .hold) :
    s.turn w =
      let t := (s.taken w (s.serve w).2.1).sendThrough w.req.part.val (w.req.addr.toNat / 64 * 64)
      ({ status := .hold }, { t.2 with waiting := t.2.waiting ++ [{ w with applied := some { (s.serve w).1 with tag := some t.1 } }] }, (s.serve w).2.2) := by
  have hb : (w.unit != ReqUnit.none) = true := by simpa using hu
  simp only [State.turn, State.goesThrough, State.through, h, hs, hb, hh, Bool.and_self, if_true, if_false]

/-- The request of a row where nothing waits and nothing is written through to another module. -/
theorem State.rowRequest_alone (s : State) (r : MemReq) (c : Option Change512) (h : s.waiting = [])
    (hf : s.goesThrough r (match c with
      | none => s.readLine r
      | some c => s.changeLine r c).1 = false) :
    s.rowRequest r c =
      let w := s.arrival r c .row
      let o := match c with
        | none => s.readLine r
        | some c => s.changeLine r c
      if o.1.status = .hold then (o.2.1.wait w).settle o.2.2 else ((s.taken w o.2.1).settle o.2.2).answerRow w o.1 := by
  have h1 : s.asked r c .row = s.arrival r c .row := by simp only [State.asked, h, List.find?_nil]
  have h3 : s.serve (s.arrival r c .row) = match c with
      | none => s.readLine r
      | some c => s.changeLine r c := by
    cases c <;> rfl
  have hf' : s.goesThrough (s.arrival r c .row).req (s.serve (s.arrival r c .row)).1 = false := by cases c <;> exact hf
  simp only [State.rowRequest, State.ask_alone s r c .row h, h1, State.turn_near s _ hf', h3]
  split <;> split <;> first | rfl | (rename_i hc; simp only [hc, State.answerRow, if_true])

/-- The thresholds of one block's page. -/
theorem State.thresholdsOf_one (s : State) (b : Loc) :
    s.thresholdsOf [b] = ((s.thresholds b.1 (b.2 / 8)).1, (s.thresholds b.1 (b.2 / 8)).2) := by
  simp only [State.thresholdsOf, List.append_nil]

section Read
variable (s : State) (r : MemReq)

theorem State.readLine_refuse (h : s.resolve r.part.val r.epoch.toNat (r.addr.toNat / 64 * 64) = .refuse) :
    s.readLine r = ({ status := .mapEpoch }, s.denyEpoch r, []) := by
  unfold State.readLine; simp only [h]

theorem State.readLine_wait (h : s.resolve r.part.val r.epoch.toNat (r.addr.toNat / 64 * 64) = .wait) :
    s.readLine r = ({ status := .hold }, s, []) := by
  unfold State.readLine; simp only [h]

variable {l : Layout} {th : Option Layout} (h : s.resolve r.part.val r.epoch.toNat (r.addr.toNat / 64 * 64) = .layout l th)
include h

theorem State.readLine_range (h1 : (l.place (r.addr.toNat / 64 * 64)).isNone = true) : s.readLine r = ({ status := .range }, s, []) := by
  unfold State.readLine; simp only [h, h1, if_true]

variable (h1 : (l.place (r.addr.toNat / 64 * 64)).isNone = false)
include h1

theorem State.readLine_gone (h2 : s.copies r.part.val l (r.addr.toNat / 64 * 64) = []) : s.readLine r = ({ status := .ended }, s, []) := by
  unfold State.readLine; simp only [h, h1, h2, readOrder, if_false, Bool.false_eq_true]

variable {b : Loc} (h2 : s.copies r.part.val l (r.addr.toNat / 64 * 64) = [b])
include h2

theorem State.readLine_busy (h3 : (s.busyAt b || (s.part r.part.val).suspectAt (r.addr.toNat / 64 * 64)) = true) :
    s.readLine r = ({ status := .hold }, s, []) := by
  unfold State.readLine
  simp only [h, h1, h2, readOrder, List.any_cons, List.any_nil, Bool.or_false, if_false, Bool.false_eq_true, h3, if_true]

variable (h3 : (s.busyAt b || (s.part r.part.val).suspectAt (r.addr.toNat / 64 * 64)) = false)
include h3

theorem State.readLine_fresh (h4 : s.freshAt b = true) :
    s.readLine r = ({ status := .ok }, s.charge b.1 r.part.val (readCharge false), []) := by
  unfold State.readLine
  simp only [h, h1, h2, readOrder, List.any_cons, List.any_nil, Bool.or_false, if_false, Bool.false_eq_true, h3, h4, if_true]

variable (h4 : s.freshAt b = false) {u : State} (hu : s.loadFor r.part.val b false = u)
include h4 hu

theorem State.readLine_dead {d : State × List Ev} (h5 : (u.selectKey r.part.val (r.addr.toNat / 64 * 64)).dead = true)
    (hd : (u.codeFails r.part.val (r.addr.toNat / 64 * 64) [b]).denyKey b r (u.selectKey r.part.val (r.addr.toNat / 64 * 64)) false = d) :
    s.readLine r =
      ({ status := .deadkey, data := ((u.codeFails r.part.val (r.addr.toNat / 64 * 64) [b]).blockAt b).shown ((r.addr.toNat / 64 * 64 / 64) % 8) },
        (d.1.thresholds b.1 (b.2 / 8)).1, d.2 ++ (d.1.thresholds b.1 (b.2 / 8)).2) := by
  unfold State.readLine
  simp only [h, h1, h2, readOrder, List.any_cons, List.any_nil, Bool.or_false, if_false, Bool.false_eq_true, h3, h4, hu, h5, hd,
    if_true, State.thresholdsOf_one]

variable (h5 : (u.selectKey r.part.val (r.addr.toNat / 64 * 64)).dead = false)
include h5

theorem State.readLine_denied {d : State × List Ev} (hd : (u.codeFails r.part.val (r.addr.toNat / 64 * 64) [b]).denyKey b r (u.selectKey r.part.val (r.addr.toNat / 64 * 64)) true = d)
    (h6 : u.memPermits (u.selectKey r.part.val (r.addr.toNat / 64 * 64)).handle (u.selectKey r.part.val (r.addr.toNat / 64 * 64)).kctx r.who = false) :
    s.readLine r =
      ({ status := .nokey, data := ((u.codeFails r.part.val (r.addr.toNat / 64 * 64) [b]).blockAt b).shown ((r.addr.toNat / 64 * 64 / 64) % 8) },
        (d.1.thresholds b.1 (b.2 / 8)).1, d.2 ++ (d.1.thresholds b.1 (b.2 / 8)).2) := by
  unfold State.readLine
  simp only [h, h1, h2, readOrder, List.any_cons, List.any_nil, Bool.or_false, if_false, Bool.false_eq_true, h3, h4, hu, h5, h6, hd,
    if_true, State.thresholdsOf_one, Bool.not_false]

theorem State.readLine_served
    (h6 : u.memPermits (u.selectKey r.part.val (r.addr.toNat / 64 * 64)).handle (u.selectKey r.part.val (r.addr.toNat / 64 * 64)).kctx r.who = true) :
    s.readLine r =
      let t := u.readCopies r.part.val (r.addr.toNat / 64 * 64) (u.sealFor r.part.val (r.addr.toNat / 64 * 64)) [b]
      ({ status := t.1, data := t.2.1 }, (t.2.2.thresholds b.1 (b.2 / 8)).1, [] ++ (t.2.2.thresholds b.1 (b.2 / 8)).2) := by
  unfold State.readLine
  simp only [h, h1, h2, readOrder, List.any_cons, List.any_nil, Bool.or_false, if_false, Bool.false_eq_true, h3, h4, hu, h5, h6,
    State.thresholdsOf_one, Bool.not_true, List.nil_append]

end Read

/-- What a permitted reader finds in the only copy of a block. -/
theorem State.readCopies_one (s : State) (p a : Nat) (x : Seal) (b : Loc) :
    s.readCopies p a x [b] =
      if (s.blockAt b).intact x then (.ok, Tbl.get 0 (s.blockAt b).lines ((a / 64) % 8), s)
      else if (s.blockAt b).poison then (.poison, 0, s)
      else (.poison, 0, s.poison b) := rfl

section Write
variable (s : State) (r : MemReq) (c : Change512) {l : Layout} {th : Option Layout} {b : Loc}
  (h : s.resolve r.part.val r.epoch.toNat (r.addr.toNat / 64 * 64) = .layout l th)
  (h1 : (l.place (r.addr.toNat / 64 * 64)).isNone = false) (h2 : s.copies r.part.val l (r.addr.toNat / 64 * 64) = [b])
  (h3 : (s.busyAt b || (s.part r.part.val).suspectAt (r.addr.toNat / 64 * 64)) = false)
include h h1 h2 h3

theorem State.changeLine_refused (h4 : (s.part r.part.val).refuses (r.addr.toNat / 64 * 64) c = true) :
    s.changeLine r c = ({ status := .refused }, (s.denyRegion r c.mop).1, (s.denyRegion r c.mop).2) := by
  unfold State.changeLine
  simp only [h, h1, h2, List.any_cons, List.any_nil, Bool.or_false, if_false, Bool.false_eq_true, h3, h4, if_true]

variable (h4 : (s.part r.part.val).refuses (r.addr.toNat / 64 * 64) c = false) {sel : KeySel}
  (hs : s.selectKey r.part.val (r.addr.toNat / 64 * 64) = sel)
include h4 hs

theorem State.changeLine_dead (h5 : sel.dead = true) :
    s.changeLine r c = ({ status := .deadkey }, (s.denyKey b r sel true).1, (s.denyKey b r sel true).2) := by
  unfold State.changeLine
  simp only [h, h1, h2, List.any_cons, List.any_nil, Bool.or_false, if_false, Bool.false_eq_true, h3, h4, hs, h5, if_true]

variable (h5 : sel.dead = false)
include h5

theorem State.changeLine_noOp (h6 : s.memPermits sel.handle sel.kctx r.who = false) (h7 : (c.mop != 0) = true) :
    s.changeLine r c = ({ status := .nokey }, (s.denyKey b r sel true).1, (s.denyKey b r sel true).2) := by
  unfold State.changeLine
  simp only [h, h1, h2, List.any_cons, List.any_nil, Bool.or_false, if_false, Bool.false_eq_true, h3, h4, hs, h5, h6, h7, Bool.not_false,
    Bool.and_true, if_true]

variable {u : State} (hu : (s.beforeChange r.part.val (r.addr.toNat / 64 * 64) l).loadFor r.part.val b true = u)
  {bit : Bool} (hb : ((s.part r.part.val).regionOf (r.addr.toNat / 64 * 64)).any (fun g => g.epoch) = bit)
include hu hb

theorem State.changeLine_forged (v : BitVec 512) (hc : c = .write v) {d : State × List Ev}
    (hd : (((u.codeFails r.part.val (r.addr.toNat / 64 * 64) [b]).modBlock b fun k => k.forge ((r.addr.toNat / 64 * 64 / 64) % 8) v).spread
      r.part.val (r.addr.toNat / 64 * 64) l th b (fun k => k.forge ((r.addr.toNat / 64 * 64 / 64) % 8) v) []).denyKey b r sel true = d) (h6 : s.memPermits sel.handle sel.kctx r.who = false) :
    s.changeLine r c =
      ({ status := .nokey, epochBit := bit, stored := true }, (d.1.thresholds b.1 (b.2 / 8)).1, d.2 ++ (d.1.thresholds b.1 (b.2 / 8)).2) := by
  subst hc
  unfold State.changeLine
  simp only [h, h1, h2, List.any_cons, List.any_nil, Bool.or_false, if_false, Bool.false_eq_true, h3, h4, hs, h5, h6, Change512.mop,
    bne_self_eq_false, Bool.and_false, State.thresholdsOf_one, hu, hb, hd]

theorem State.changeLine_permitted (h6 : s.memPermits sel.handle sel.kctx r.who = true) :
    s.changeLine r c =
      let o := u.applyChange r (r.addr.toNat / 64 * 64) l th c b [] bit
      (o.1, (o.2.1.thresholds b.1 (b.2 / 8)).1, o.2.2 ++ (o.2.1.thresholds b.1 (b.2 / 8)).2) := by
  unfold State.changeLine
  simp only [h, h1, h2, List.any_cons, List.any_nil, Bool.or_false, if_false, Bool.false_eq_true, h3, h4, hs, h5, h6, Bool.not_true,
    Bool.false_and, State.thresholdsOf_one, if_true, hu, hb]

end Write

/-- A permitted change of the only copy of an intact block. -/
theorem State.applyChange_intact (u : State) (r : MemReq) (a : Nat) (l : Layout) (th : Option Layout) (c : Change512) (b : Loc) (bit : Bool)
    (h : (u.blockAt b).intact (u.sealFor r.part.val a) = true) :
    u.applyChange r a l th c b [] bit =
      let old := Tbl.get 0 (u.blockAt b).lines ((a / 64) % 8)
      let v := match c with
        | .write v => v
        | .op _ o t opd => applyMemOp o t old opd
      ({ status := .ok, data := old, epochBit := bit, stored := true },
        (u.modBlock b fun k => { k with lines := Tbl.set k.lines ((a / 64) % 8) v }).spread r.part.val a l th b
          (fun k => k.put (u.sealFor r.part.val a) ((a / 64) % 8) v) [], []) := by
  unfold State.applyChange
  simp only [h, if_true]
  all_goals (cases c <;> rfl)

/-- An operation on the only copy of a poisoned block is kept at the controller. -/
theorem State.applyChange_kept (u : State) (r : MemReq) (a : Nat) (l : Layout) (th : Option Layout) (m : Nat) (o : MemOp) (t : MemTy)
    (opd : BitVec 1024) (b : Loc) (bit : Bool) (h : (u.blockAt b).intact (u.sealFor r.part.val a) = false) (hp : (u.blockAt b).poison = true) :
    u.applyChange r a l th (.op m o t opd) b [] bit =
      ({ status := .poison, epochBit := bit }, (u.keepOp b r m opd).1, (u.keepOp b r m opd).2) := by
  unfold State.applyChange
  simp only [h, hp, if_false, if_true, Bool.false_eq_true]

/-- A decoded MOP is not that of a plain write. -/
theorem mopDecode_ne_zero (m : Nat) (o : MemOp) (t : MemTy) (h : mopDecode m = some (o, t)) : (m != 0) = true := by
  cases m with
  | zero => simp [mopDecode] at h
  | succ n => rfl

end Sys2Proof.Machine
end

