-- ==== Sys2Proof/Laws/Ops.lean ====
section
/-! SUPPORT. What the operations of Machine/Ops.lean can change: one lemma for each. -/

namespace Sys2Proof.Machine

/-- Writing records moves on the ring and its producer count, and nothing else. -/
theorem State.putRecords_eq (l : List (List Word64)) (s : State) :
    ∃ r p, s.putRecords l = { s with errRing := r, errProd := p } := by
  induction l generalizing s with
  | nil => exact ⟨s.errRing, s.errProd, rfl⟩
  | cons w ws ih =>
    obtain ⟨r, p, h⟩ := ih { s with errRing := Tbl.set s.errRing (s.errProd % 4096) w, errProd := (s.errProd + 1) % 2 ^ 32 }
    exact ⟨r, p, h⟩

/-- An error marks a recovery to be escalated, and nothing else. -/
theorem State.markEscalate_eq (s : State) (p : Nat) : ∃ l, s.markEscalate p = { s with ladders := l } := by
  unfold State.markEscalate
  split <;> exact ⟨_, rfl⟩

/-- A group of records is written whole, or counted as lost. -/
theorem State.put_or_count_eq (s : State) (n : Nat) (l : List (List Word64)) :
    ∃ r p o, (if s.errUsed + 1 + n ≤ 4096 then s.putRecords l else { s with errOvf := min (s.errOvf + 1) (2 ^ 32 - 1) }) =
      { s with errRing := r, errProd := p, errOvf := o } := by
  split
  · obtain ⟨r, p, h⟩ := State.putRecords_eq l s
    exact ⟨r, p, s.errOvf, h⟩
  · exact ⟨s.errRing, s.errProd, _, rfl⟩

/-- An error record changes the ring, its counts and the ladders, and nothing else. -/
theorem State.record_eq (s : State) (x : Rec) :
    ∃ r p o l, s.record x = { s with errRing := r, errProd := p, errOvf := o, ladders := l } := by
  unfold State.record
  cases h : x.nests s with
  | none =>
    obtain ⟨r, p, o, e⟩ := State.put_or_count_eq s x.cont.length (x.words s s.errProd :: x.cont)
    exact ⟨r, p, o, s.ladders, e⟩
  | some q =>
    obtain ⟨l, hl⟩ := s.markEscalate_eq q
    obtain ⟨r, p, o, e⟩ := State.put_or_count_eq (s.markEscalate q) x.cont.length
      (({ x with nested := true } : Rec).words (s.markEscalate q) (s.markEscalate q).errProd :: x.cont)
    refine ⟨r, p, o, l, e.trans ?_⟩
    rw [hl]

end Sys2Proof.Machine
end

