-- ==== Sys2Proof/Laws/Settle.lean ====
section
/-! SUPPORT. What settling, completing, signalling and losing a context leave alone: no memory changes and no fence falls. -/

namespace Sys2Proof.Machine

/-- What completing, telling and losing respect: no memory changes, and no fence but for what the store holds of it. -/
structure Calm (s t : State) : Prop where
  mem : MemoryKept s t
  fence : ∀ n, { t.fence n with stored := 0 } = { s.fence n with stored := 0 }

/-- What a settlement respects: no memory changes and no fence falls. -/
structure Gentle (s t : State) : Prop where
  mem : MemoryKept s t
  rise : FencesRise s t

theorem Calm.refl (s : State) : Calm s s := ⟨⟨fun _ => rfl, fun _ => rfl, rfl, rfl⟩, fun _ => rfl⟩

theorem MemoryKept.trans {s t u : State} (a : MemoryKept s t) (b : MemoryKept t u) : MemoryKept s u :=
  ⟨fun c => (b.1 c).trans (a.1 c), fun g => (b.2.1 g).trans (a.2.1 g), b.2.2.1.trans a.2.2.1, b.2.2.2.trans a.2.2.2⟩

theorem Calm.trans {s t u : State} (a : Calm s t) (b : Calm t u) : Calm s u :=
  ⟨a.mem.trans b.mem, fun n => (b.fence n).trans (a.fence n)⟩

theorem Calm.value {s t : State} (a : Calm s t) (n : Nat) : (t.fence n).value = (s.fence n).value := by
  have h := congrArg Fence.value (a.fence n)
  exact h

theorem Calm.state {s t : State} (a : Calm s t) (n : Nat) : (t.fence n).state = (s.fence n).state := by
  have h := congrArg Fence.state (a.fence n)
  exact h

/-- Fences that keep their state and keep or raise their value. -/
theorem FencesRise.of_state {s t : State} (h : ∀ n, (t.fence n).state = (s.fence n).state)
    (v : ∀ n, (s.fence n).value ≤ (t.fence n).value) : FencesRise s t := fun n => by
  by_cases e : (s.fence n).state = .free
  · exact .inl ((h n).trans e)
  · exact .inr ⟨e, v n⟩

theorem FencesRise.trans {s t u : State} (a : FencesRise s t) (b : FencesRise t u) : FencesRise s u := fun n => by
  obtain h | ⟨h, v⟩ := b n
  · exact .inl h
  · obtain g | ⟨g, w⟩ := a n
    · exact absurd g h
    · exact .inr ⟨g, Nat.le_trans w v⟩

theorem Calm.gentle {s t : State} (a : Calm s t) : Gentle s t :=
  ⟨a.mem, FencesRise.of_state a.state fun n => Nat.le_of_eq (a.value n).symm⟩

theorem Gentle.refl (s : State) : Gentle s s := (Calm.refl s).gentle

theorem Gentle.trans {s t u : State} (a : Gentle s t) (b : Gentle t u) : Gentle s u :=
  ⟨a.mem.trans b.mem, a.rise.trans b.rise⟩

/-- A change that leaves cores, clusters, channels, the record area and the fences. -/
theorem Calm.of_eq {s t : State} (h1 : t.cores = s.cores) (h2 : t.clusters = s.clusters) (h3 : t.channels = s.channels)
    (h4 : t.recordArea = s.recordArea) (h5 : t.fences = s.fences) : Calm s t :=
  ⟨⟨fun c => by simp [State.core, h1], fun g => by simp [State.cluster, h2], h3, h4⟩, fun n => by simp [State.fence, h5]⟩

/-- A fold of calm steps is calm. -/
theorem Calm.foldl {α : Type} (f : State → α → State) (h : ∀ s a, Calm s (f s a)) (l : List α) (s : State) :
    Calm s (l.foldl f s) := by
  induction l generalizing s with
  | nil => exact Calm.refl s
  | cons a l ih => exact (h s a).trans (ih (f s a))

/-- A change of one core that leaves its local memory. -/
theorem Calm.modCore (s : State) (c : Nat) (f : Core → Core) (h : (f (s.core c)).lm = (s.core c).lm) : Calm s (s.modCore c f) := by
  refine ⟨⟨fun d => ?_, fun _ => rfl, rfl, rfl⟩, fun _ => rfl⟩
  by_cases e : d = c
  · subst e; simp [State.modCore, h]
  · simp [State.modCore, e]

/-- A change of a hub. -/
theorem Calm.modHub (s : State) (c : Nat) (f : Hub → Hub) : Calm s (s.modHub c f) := by
  refine ⟨⟨fun _ => rfl, fun g => ?_, rfl, rfl⟩, fun _ => rfl⟩
  by_cases e : g = c
  · subst e; simp [State.modHub, State.modCluster, State.setCluster, State.cluster]
  · simp [State.modHub, State.modCluster, State.setCluster, State.cluster, e]

/-- A change of what the store holds of a fence. -/
theorem Calm.modFence (s : State) (n : Nat) (f : Fence → Fence) (h : { f (s.fence n) with stored := 0 } = { s.fence n with stored := 0 }) :
    Calm s (s.modFence n f) := by
  refine ⟨⟨fun _ => rfl, fun _ => rfl, rfl, rfl⟩, fun m => ?_⟩
  by_cases e : m = n
  · subst e; simpa [State.modFence, State.fence] using h
  · simp [State.modFence, State.fence, e]

/-- A change of a fence that does not lower it and brings none into use. -/
theorem Gentle.modFence (s : State) (n : Nat) (f : Fence → Fence) (g : (s.fence n).state = .free → (f (s.fence n)).state = .free)
    (h : (s.fence n).value ≤ (f (s.fence n)).value) : Gentle s (s.modFence n f) := by
  refine ⟨⟨fun _ => rfl, fun _ => rfl, rfl, rfl⟩, fun m => ?_⟩
  by_cases e : m = n
  · subst e
    have k : (s.modFence m f).fence m = f (s.fence m) := by simp [State.modFence, State.fence]
    rw [k]
    by_cases e : (s.fence m).state = .free
    · exact .inl (g e)
    · exact .inr ⟨e, h⟩
  · have k : (s.modFence n f).fence m = s.fence m := by simp [State.modFence, State.fence, e]
    rw [k]
    by_cases e : (s.fence m).state = .free
    · exact .inl e
    · exact .inr ⟨e, Nat.le_refl _⟩

/-- A fold of gentle steps is gentle. -/
theorem Gentle.foldl {α : Type} (f : State → α → State) (h : ∀ s a, Gentle s (f s a)) (l : List α) (s : State) :
    Gentle s (l.foldl f s) := by
  induction l generalizing s with
  | nil => exact (Calm.refl s).gentle
  | cons a l ih => exact (h s a).trans (ih (f s a))

theorem Calm.hubMessage (s : State) (h : Nat) : Calm s (s.hubMessage h) := Calm.modHub s h _
theorem Calm.synCount (s : State) (h : Nat) (c : SynCnt) : Calm s (s.synCount h c) := Calm.modHub s h _
theorem Calm.emit (s : State) (m : Sent) : Calm s (s.emit m) := Calm.of_eq rfl rfl rfl rfl rfl

theorem Calm.sendFor (s : State) (n : Nat) (m : Sent) : Calm s (s.sendFor n m) := by
  unfold State.sendFor
  split
  · dsimp only
    split
    · exact Calm.emit _ _
    · split
      · exact Calm.modHub _ _ _
      · split
        · exact Calm.of_eq rfl rfl rfl rfl rfl
        · exact Calm.emit _ _
  · exact Calm.emit _ _

theorem Calm.send (s : State) (m : Sent) : Calm s (s.send m) := by
  unfold State.send
  split
  · exact Calm.sendFor _ _ _
  · exact Calm.emit _ _

theorem Calm.record (s : State) (r : Rec) : Calm s (s.record r) := by
  obtain ⟨_, _, _, _, h⟩ := s.record_eq r
  rw [h]
  exact Calm.of_eq rfl rfl rfl rfl rfl

theorem Calm.dropWaits (s : State) (w : Waiter → Bool) : Calm s (s.dropWaits w) := Calm.of_eq rfl rfl rfl rfl rfl
theorem Calm.modEngine (s : State) (e : Nat) (f : StreamEngine → StreamEngine) : Calm s (s.modEngine e f) :=
  Calm.of_eq rfl rfl rfl rfl rfl
theorem Calm.modQueue (s : State) (q : Nat) (f : Queue → Queue) : Calm s (s.modQueue q f) := Calm.of_eq rfl rfl rfl rfl rfl
theorem Calm.modCring (s : State) (q : Nat) (f : CRing → CRing) : Calm s (s.modCring q f) := Calm.of_eq rfl rfl rfl rfl rfl
theorem Calm.modCtx (s : State) (q : Nat) (f : Context → Context) : Calm s (s.modCtx q f) := Calm.of_eq rfl rfl rfl rfl rfl
theorem Calm.modJob (s : State) (a b : Nat) (f : Job → Job) : Calm s (s.modJob a b f) := Calm.of_eq rfl rfl rfl rfl rfl
theorem Calm.modForme (s : State) (a : Nat) (f : Forme → Forme) : Calm s (s.modForme a f) := Calm.of_eq rfl rfl rfl rfl rfl
theorem Calm.dropGrants (s : State) (c : Nat) : Calm s (s.dropGrants c) := Calm.of_eq rfl rfl rfl rfl rfl

/-! ### Completions -/

theorem Calm.sendRdma (s : State) (o : RdmaOut) : Calm s (s.sendRdma o) := Calm.emit _ _

theorem Calm.startRdma (s : State) (o : RdmaOut) : Calm s (s.startRdma o) := by
  unfold State.startRdma
  dsimp only
  split
  · exact Calm.of_eq rfl rfl rfl rfl rfl
  · refine Calm.trans ?_ (Calm.sendRdma _ _)
    exact Calm.of_eq rfl rfl rfl rfl rfl

theorem Calm.writeEntries (s : State) (r i : Nat) (es : List (List Word64)) : Calm s (s.writeEntries r i es) := by
  unfold State.writeEntries
  dsimp only
  split
  · refine Calm.trans ?_ (Calm.startRdma _ _)
    exact Calm.of_eq rfl rfl rfl rfl rfl
  · exact Calm.emit _ _

theorem Calm.notifyHost (s : State) (r : Nat) : Calm s (s.notifyHost r) := by
  unfold State.notifyHost
  split
  · refine Calm.trans ?_ (Calm.startRdma _ _)
    exact Calm.of_eq rfl rfl rfl rfl rfl
  · exact Calm.emit _ _

theorem Calm.writeGroup (s : State) (r : Nat) (g : CGroup) : Calm s (s.writeGroup r g) := by
  unfold State.writeGroup
  dsimp only
  have told (s : State) (b : Bool) : Calm s (if b then s.notifyHost r else s) := by
    split
    · exact Calm.notifyHost _ _
    · exact Calm.refl _
  refine Calm.trans ?_ (told _ _)
  refine Calm.trans ?_ (Calm.modCring _ _ _)
  have sess (s : State) (b : Bool) (a : Tbl Session) (k : Tbl KeyEntry) :
      Calm s (if b then { s with sessions := a, keys := k } else s) := by
    split
    · exact Calm.of_eq rfl rfl rfl rfl rfl
    · exact Calm.refl _
  refine Calm.trans ?_ (sess _ _ _ _)
  refine Calm.trans ?_ (Calm.writeEntries _ _ _ _)
  have fill (s : State) (p : Prop) [Decidable p] (i : Nat) (es : List (List Word64)) :
      Calm s (if p then s else s.writeEntries r i es) := by
    split
    · exact Calm.refl _
    · exact Calm.writeEntries _ _ _ _
  exact fill _ _ _ _

theorem Calm.flushGroups (l : List CGroup) (s : State) (r : Nat) : Calm s (s.flushGroups r l) := by
  induction l generalizing s with
  | nil => exact Calm.modCring _ _ _
  | cons g gs ih =>
    simp only [State.flushGroups]
    split
    · exact (Calm.writeGroup s r g).trans (ih _)
    · exact Calm.modCring _ _ _

theorem Calm.pushGroup (s : State) (r : Nat) (g : CGroup) : Calm s (s.pushGroup r g) := by
  unfold State.pushGroup
  split
  · exact Calm.of_eq rfl rfl rfl rfl rfl
  · exact (Calm.modCring _ _ _).trans (Calm.flushGroups _ _ _)

theorem Calm.closeCmd (s : State) (q : Nat) (c : Cmd) (a : Answer) : Calm s (s.closeCmd q c a) := by
  unfold State.closeCmd
  dsimp only
  split <;> split
  · exact Calm.modQueue _ _ _
  · exact (Calm.modQueue _ _ _).trans (Calm.pushGroup _ _ _)
  · exact (Calm.modQueue _ _ _).trans (Calm.modJob _ _ _ _)
  · exact ((Calm.modQueue _ _ _).trans (Calm.pushGroup _ _ _)).trans (Calm.modJob _ _ _ _)

theorem Calm.complete (s : State) (q place : Nat) (a : Answer) : Calm s (s.complete q place a).1 := by
  unfold State.complete
  split
  · exact Calm.refl _
  · dsimp only
    split
    · split
      · exact Calm.closeCmd _ _ _ _
      · dsimp only
        exact (Calm.closeCmd _ _ _ _).trans (Calm.send _ _)
    · exact Calm.closeCmd _ _ _ _

/-! ### Hubs, waiters and streams -/

theorem Calm.writeBack (s : State) (n : Nat) : Calm s (s.writeBack n) := Calm.modFence _ _ _ rfl

theorem Calm.touch (s : State) (h n : Nat) : Calm s (s.touch h n).1 := by
  unfold State.touch
  dsimp only
  split
  · dsimp only
    exact Calm.modHub _ _ _
  · split
    · dsimp only
      exact Calm.modHub _ _ _
    · split
      · dsimp only
        exact (Calm.writeBack _ _).trans (Calm.modHub _ _ _)
      · exact Calm.refl _

theorem Gentle.putValue (s : State) (n v : Nat) (h : (s.fence n).value ≤ v) : Gentle s (s.putValue n v) := by
  unfold State.putValue
  dsimp only
  split
  · exact (Gentle.modFence _ _ _ id h).trans (Calm.modHub _ _ _).gentle
  · exact Gentle.modFence _ _ _ id h

theorem Calm.giveAnswer (s : State) (c : Nat) (v : Word64) : Calm s (s.giveAnswer c v) := by
  apply Calm.modCore
  split
  · split <;> rfl
  · rfl

theorem Calm.streamStop (s : State) (e : Nat) (t : Stream) (a b : Nat) : Calm s (s.streamStop e t a b) := Calm.record _ _

theorem Calm.dropCredit (s : State) (e slot : Nat) : Calm s (s.dropCredit e slot) := by
  unfold State.dropCredit
  dsimp only
  split
  · exact Calm.of_eq rfl rfl rfl rfl rfl
  · refine Calm.trans (Calm.trans ?_ (Calm.modHub _ _ _)) (Calm.send _ _)
    exact Calm.of_eq rfl rfl rfl rfl rfl

theorem Calm.abortStream (s : State) (e slot cause : Nat) : Calm s (s.abortStream e slot cause) := by
  unfold State.abortStream
  split
  · exact Calm.refl _
  · exact ((Calm.streamStop _ _ _ _ _).trans (Calm.modEngine _ _ _)).trans ((Calm.dropCredit _ _ _).trans (Calm.modEngine _ _ _))

theorem Calm.parkStream (s : State) (e slot : Nat) : Calm s (s.parkStream e slot) := by
  unfold State.parkStream
  split
  · exact Calm.refl _
  · split
    · exact (Calm.dropCredit _ _ _).trans (Calm.modEngine _ _ _)
    · exact Calm.refl _

theorem Calm.parkAll (s : State) (e : Nat) : Calm s (s.parkAll e) := by
  unfold State.parkAll
  split
  · exact Calm.refl _
  · exact Calm.foldl _ (fun s i => Calm.parkStream s e i) _ _

theorem Calm.tellWaiter (s : State) (n st : Nat) (w : Waiter) : Calm s (s.tellWaiter n st w).1 := by
  cases w with
  | core c => exact Calm.giveAnswer _ _ _
  | arm c t pc =>
    simp only [State.tellWaiter]
    split <;> exact Calm.refl _
  | remote a b c d => exact Calm.sendFor _ _ _
  | stream e slot =>
    simp only [State.tellWaiter]
    split
    · dsimp only
      exact Calm.modEngine _ _ _
    · exact Calm.abortStream _ _ _ _
  | command q p =>
    simp only [State.tellWaiter]
    split
    · dsimp only
      exact Calm.modQueue _ _ _
    · split <;> exact Calm.complete _ _ _ _

theorem Calm.tellAll (ws : List Waiter) (s : State) (n st : Nat) : Calm s (s.tellAll n st ws).1 := by
  induction ws generalizing s with
  | nil => exact Calm.refl _
  | cons w ws ih => exact (Calm.tellWaiter s n st w).trans (ih _)

theorem Calm.releaseWaits (s : State) (n : Nat) : Calm s (s.releaseWaits n).1 := by
  unfold State.releaseWaits
  dsimp only
  refine Calm.trans ?_ (Calm.tellAll _ _ _ _)
  exact Calm.of_eq rfl rfl rfl rfl rfl

/-- A fold that gathers events is calm where each step is. -/
theorem Calm.foldl_ev {α β : Type} (f : State × β → α → State × β) (h : ∀ p a, Calm p.1 (f p a).1) (l : List α) (p : State × β) :
    Calm p.1 (l.foldl f p).1 := by
  induction l generalizing p with
  | nil => exact Calm.refl _
  | cons a l ih => exact (h p a).trans (ih (f p a))

theorem Calm.projectRuns (s : State) (n : Nat) : Calm s (s.projectRuns n).1 := by
  unfold State.projectRuns
  refine Calm.foldl_ev _ (fun p a => ?_) _ (s, [])
  refine Calm.foldl_ev _ (fun p a => ?_) _ p
  split
  · exact Calm.refl _
  · dsimp only
    split
    · exact Calm.refl _
    · split
      · split
        · dsimp only
          exact Calm.modQueue _ _ _
        · exact Calm.refl _
      · exact Calm.refl _

theorem Calm.raised (s : State) (n : Nat) : Calm s (s.raised n).1 :=
  (Calm.releaseWaits s n).trans (Calm.projectRuns _ n)

theorem Calm.warm (s : State) (n : Nat) : Calm s (s.warm n) := by
  unfold State.warm
  split
  · exact Calm.of_eq rfl rfl rfl rfl rfl
  · exact Calm.refl _

theorem Calm.heat (s : State) (h n : Nat) : Calm s (s.heat h n) := by
  unfold State.heat
  split
  · exact Calm.touch _ _ _
  · exact (Calm.touch _ _ _).trans (Calm.warm _ _)

theorem Calm.admitOp (s : State) (n : Nat) (p : Principal) : Calm s (s.admitOp n p).1 := by
  unfold State.admitOp
  split
  · exact Calm.refl _
  · dsimp only
    split
    · exact Calm.hubMessage _ _
    · split
      · exact Calm.refl _
      · split
        · exact (Calm.hubMessage _ _).trans (Calm.heat _ _ _)
        · exact ((Calm.hubMessage _ _).trans (Calm.heat _ _ _)).trans (Calm.synCount _ _ _)

theorem Gentle.fenceSignal (s : State) (n v : Nat) (p : Principal) (k : Bool) : Gentle s (s.fenceSignal n v p k).2.1 := by
  unfold State.fenceSignal
  have g := (Calm.admitOp s n p).gentle
  split
  · rename_i e; rw [e] at g; exact g
  · rename_i s' e
    rw [e] at g
    dsimp only
    split
    · split
      · exact g
      · exact g.trans (Calm.synCount _ _ _).gentle
    · split
      · exact g.trans (Calm.synCount _ _ _).gentle
      · split
        · exact g.trans ((Gentle.modFence _ _ _ id (Nat.le_refl _)).trans (Calm.synCount _ _ _).gentle)
        · split
          · exact g
          · exact g.trans ((Gentle.putValue _ _ _ (by simp only at *; omega)).trans (Calm.raised _ _).gentle)

theorem Gentle.fenceAdd (s : State) (n v : Nat) (p : Principal) (k : Bool) : Gentle s (s.fenceAdd n v p k).2.1 := by
  unfold State.fenceAdd
  have g := (Calm.admitOp s n p).gentle
  split
  · rename_i e; rw [e] at g; exact g
  · rename_i s' e
    rw [e] at g
    dsimp only
    split
    · split
      · exact g
      · exact g.trans (Calm.synCount _ _ _).gentle
    · split
      · exact g.trans (Calm.synCount _ _ _).gentle
      · split
        · exact g
        · split
          · refine g.trans ((Calm.synCount _ _ _).gentle.trans ((Gentle.putValue _ _ _ ?_).trans (Calm.raised _ _).gentle))
            show (s'.fence n).value ≤ fenceMax
            omega
          · refine g.trans ((Gentle.putValue _ _ _ ?_).trans (Calm.raised _ _).gentle)
            exact Nat.le_add_right _ _

theorem Calm.fenceRead (s : State) (n : Nat) (p : Principal) : Calm s (s.fenceRead n p).2.2 := by
  unfold State.fenceRead
  have g := Calm.admitOp s n p
  split <;> (rename_i e; rw [e] at g; exact g)

theorem Calm.fenceWait (s : State) (n v : Nat) (p : Principal) (w : Waiter) : Calm s (s.fenceWait n v p w).2 := by
  unfold State.fenceWait
  have g := Calm.admitOp s n p
  split
  · rename_i e; rw [e] at g; exact g
  · rename_i s' e
    rw [e] at g
    dsimp only
    split
    · exact g
    · split
      · exact g
      · split
        · exact g.trans ((Calm.synCount _ _ _).trans (Calm.of_eq rfl rfl rfl rfl rfl))
        · exact g.trans (Calm.of_eq rfl rfl rfl rfl rfl)

theorem Gentle.enterError (s : State) (n : Nat) : Gentle s (s.enterError n).1 := by
  unfold State.enterError
  split
  · rename_i live
    dsimp only
    refine Gentle.trans (Gentle.trans (Gentle.modFence s n (fun f => { f with state := .error }) (fun e => ?_) (Nat.le_refl _)) ?_)
      (Calm.tellAll _ _ _ _).gentle
    · rw [live] at e; cases e
    · refine Calm.gentle ?_
      exact Calm.of_eq rfl rfl rfl rfl rfl
  · exact Gentle.refl _

/-! ### Barriers -/

theorem Calm.modBar (s : State) (h i : Nat) (f : Barrier → Barrier) : Calm s (s.modBar h i f) := Calm.modHub _ _ _

theorem Calm.tellChild (s : State) (a b c d : Nat) : Calm s (s.tellChild a b c d).1 := by
  unfold State.tellChild
  split
  · exact Calm.refl _
  · exact Calm.sendFor _ _ _

theorem Calm.tellChildren (l : List Nat) (s : State) (a b c : Nat) : Calm s (s.tellChildren a b c l).1 := by
  induction l generalizing s with
  | nil => exact Calm.refl _
  | cons x l ih => exact (Calm.tellChild s a b c x).trans (ih _)

theorem Calm.releaseBar (s : State) (h i a b : Nat) : Calm s (s.releaseBar h i a b).1 :=
  (Calm.tellAll _ s 0 b).trans (Calm.of_eq rfl rfl rfl rfl rfl)

theorem Calm.barComplete (s : State) (h i : Nat) : Calm s (s.barComplete h i).1 :=
  ((Calm.modBar _ _ _ _).trans (Calm.releaseBar _ _ _ _ _)).trans (Calm.tellChildren _ _ _ _ _)

theorem Calm.barTest (s : State) (h i : Nat) : Calm s (s.barTest h i).1 := by
  unfold State.barTest
  dsimp only
  split
  · split
    · exact Calm.barComplete _ _ _
    · split
      · dsimp only
        exact Calm.modBar _ _ _ _
      · dsimp only
        exact (Calm.modBar _ _ _ _).trans (Calm.send _ _)
  · exact Calm.refl _

theorem Calm.barArriveCore (s : State) (h i c : Nat) (p : Principal) : Calm s (s.barArriveCore h i c p).1 := by
  unfold State.barArriveCore
  dsimp only
  split
  · exact Calm.refl _
  · split
    · exact ((Calm.hubMessage _ _).trans (Calm.modBar _ _ _ _)).trans (Calm.barTest _ _ _)
    · exact (Calm.hubMessage _ _).trans (Calm.synCount _ _ _)

theorem Calm.barArriveChild (s : State) (h i c : Nat) (p : Principal) : Calm s (s.barArriveChild h i c p).1 := by
  unfold State.barArriveChild
  dsimp only
  split
  · exact Calm.refl _
  split
  · split
    · split
      · exact (Calm.hubMessage _ _).trans (Calm.synCount _ _ _)
      · exact ((Calm.hubMessage _ _).trans (Calm.modBar _ _ _ _)).trans (Calm.barTest _ _ _)
    · split
      · exact (Calm.hubMessage _ _).trans (Calm.synCount _ _ _)
      · exact ((Calm.hubMessage _ _).trans (Calm.modBar _ _ _ _)).trans (Calm.barTest _ _ _)
  · exact (Calm.hubMessage _ _).trans (Calm.synCount _ _ _)

theorem Calm.barDoneAt (s : State) (h i a : Nat) : Calm s (s.barDoneAt h i a).1 := by
  unfold State.barDoneAt
  dsimp only
  split
  · exact Calm.hubMessage _ _
  · split
    · split
      · exact ((Calm.hubMessage _ _).trans (Calm.barComplete _ _ _)).trans (Calm.barTest _ _ _)
      · exact Calm.hubMessage _ _
    · exact (((Calm.hubMessage _ _).trans (Calm.modBar _ _ _ _)).trans (Calm.releaseBar _ _ _ _ _)).trans
        (Calm.tellChildren _ _ _ _ _)

theorem Calm.barWait (s : State) (c i : Nat) (w : Waiter) : Calm s (s.barWait c i w).2 := by
  unfold State.barWait
  dsimp only
  split
  · split
    · exact (Calm.hubMessage _ _).trans (Calm.of_eq rfl rfl rfl rfl rfl)
    · exact Calm.hubMessage _ _
  · exact (Calm.hubMessage _ _).trans (Calm.synCount _ _ _)

/-! ### Lost contexts, core faults and settlements -/

theorem Calm.stopCores (s : State) (n : Nat) : Calm s (s.stopCores n) := by
  unfold State.stopCores
  refine Calm.foldl _ (fun s c => ?_) _ _
  refine ((Calm.dropGrants s c).trans (Calm.modCore _ _ _ ?_)).trans (Calm.dropWaits _ _)
  unfold Core.halt
  split <;> rfl

theorem Calm.stopStreams (s : State) (n : Nat) : Calm s (s.stopStreams n) := by
  unfold State.stopStreams
  dsimp only
  refine Calm.trans (Calm.foldl (fun (s : State) (p : Nat × Nat) => s.dropCredit p.1 p.2) (fun s p => Calm.dropCredit s p.1 p.2) (s.slotsOf n) s) ?_
  refine Calm.trans (Calm.of_eq (t := State.takeStreams _ n) rfl rfl rfl rfl rfl) ?_
  exact Calm.trans (Calm.foldl (fun s e => s.parkAll e) (fun s e => Calm.parkAll s e) _ _) (Calm.of_eq rfl rfl rfl rfl rfl)

theorem Calm.endCmds (l : List (Nat × Nat)) (s : State) (a : Answer) : Calm s (s.endCmds a l).1 := by
  induction l generalizing s with
  | nil => exact Calm.refl _
  | cons x l ih => exact (Calm.complete s x.1 x.2 a).trans (ih _)

theorem Gentle.freeFence (s : State) (n : Nat) : Gentle s (s.freeFence n) := by
  unfold State.freeFence
  dsimp only
  refine Gentle.trans (t := { s with fences := Tbl.del s.fences n }) ⟨⟨fun _ => rfl, fun _ => rfl, rfl, rfl⟩, fun m => ?_⟩
    (Calm.modHub _ _ _).gentle
  by_cases e : m = n
  · subst e; exact .inl (by simp [State.fence, Fence.reset])
  · have k : ({ s with fences := Tbl.del s.fences n } : State).fence m = s.fence m := by simp [State.fence, e]
    rw [k]
    by_cases e : (s.fence m).state = .free
    · exact .inl e
    · exact .inr ⟨e, Nat.le_refl _⟩

theorem Gentle.releaseImport (s : State) (n : Nat) : Gentle s (s.releaseImport n) := by
  unfold State.releaseImport
  dsimp only
  split
  · exact (Calm.refl _).gentle
  · split
    · exact Gentle.freeFence _ _
    · exact Gentle.modFence _ _ _ id (Nat.le_refl _)

theorem Gentle.releaseName (s : State) (n name : Nat) : Gentle s (s.releaseName n name) := by
  unfold State.releaseName
  split
  · exact Gentle.releaseImport _ _
  · exact (Calm.send _ _).gentle

/-- Choosing the next job of a forme sends messages and notes the switch. -/
theorem Calm.reschedule (s : State) (id : Nat) (far : List Nat) : Calm s (s.reschedule id far) := by
  unfold State.reschedule
  split
  · exact Calm.refl _
  · dsimp only
    split
    · exact Calm.refl _
    · split
      · unfold State.beginSwitch
        exact (Calm.modForme _ _ _).trans (Calm.foldl _ (fun s _ => Calm.send s _) _ _)
      · exact Calm.refl _

theorem Gentle.loseCtx (s : State) (n : Nat) : Gentle s (s.loseCtx n).1 := by
  unfold State.loseCtx
  dsimp only
  split
  · dsimp only
    exact (Gentle.foldl _ (fun s x => Gentle.releaseName s n x) _ _).trans
      (((((Calm.modCtx _ _ _).trans (Calm.stopCores _ _)).trans (Calm.stopStreams _ _)).trans (Calm.endCmds _ _ _)).trans
        ((Calm.send _ _).trans (Calm.reschedule _ _ _))).gentle
  · exact Gentle.refl _

theorem Calm.coreFault (s : State) (c a b d : Nat) : Calm s (s.coreFault c a b d).1 := by
  have g : Calm s ((((s.dropGrants c).modCore c fun k => { k with ctl := .faulted, fault := some ⟨a, b, d⟩ }).dropWaits
      (Waiter.ofCore c)).record (State.recOfCtx (((s.dropGrants c).modCore c fun k => { k with ctl := .faulted, fault := some ⟨a, b, d⟩ }).dropWaits
      (Waiter.ofCore c)) (s.core c).ctx { cause := 0x01, severity := 2, island := clusterOf c, cluster := some (clusterOf c),
                                          d5 := a + (b % 2 ^ 13) * 2 ^ 8 + d * 2 ^ 21 + (c % 4) * 2 ^ 23 })) :=
    (((Calm.dropGrants s c).trans (Calm.modCore _ c (fun k => { k with ctl := .faulted, fault := some ⟨a, b, d⟩ }) rfl)).trans (Calm.dropWaits _ _)).trans (Calm.record _ _)
  unfold State.coreFault
  dsimp only
  split
  · exact Calm.refl _
  · exact Calm.refl _
  · exact Calm.refl _
  · exact g

theorem Calm.tokenPost (s : State) (c : Nat) (t : Fin 16) (b d : Nat) : Calm s (s.tokenPost c t b d).1 := by
  unfold State.tokenPost
  dsimp only
  split
  · exact Calm.refl _
  · exact Calm.refl _
  · exact Calm.refl _
  · split
    · exact Calm.refl _
    · exact Calm.modCore s c (fun k => k.setToken t (k.token t + 1)) rfl

theorem Calm.rollbackJob (s : State) (id job : Nat) : Calm s (s.rollbackJob id job) := by
  unfold State.rollbackJob
  split
  · exact Calm.refl _
  · split
    · exact Calm.emit _ _
    · split
      · exact Calm.refl _
      · exact (Calm.modForme _ _ _).trans (Calm.foldl _ (fun s m => Calm.emit s _) _ _)

theorem Calm.affectCtx (s : State) (n : Nat) : Calm s (s.affectCtx n).1 := by
  unfold State.affectCtx
  dsimp only
  split
  · split
    · split
      · exact Calm.refl _
      · exact (Calm.modJob _ _ _ _).trans (Calm.rollbackJob _ _ _)
    · exact Calm.refl _
  · exact Calm.refl _

theorem Gentle.settleOne (s : State) (e : Ev) : Gentle s (s.settleOne e).1 := by
  cases e with
  | post c t a b => exact (Calm.tokenPost _ _ _ _ _).gentle
  | fault c a b d => exact (Calm.coreFault _ _ _ _ _).gentle
  | lose n => exact Gentle.loseCtx _ _
  | affect n => exact (Calm.affectCtx _ _).gentle
  | fenceErr n => exact Gentle.enterError _ _
  | signal n v p => exact Gentle.fenceSignal _ _ _ _ _
  | barArrive a b => exact (Calm.barArriveChild _ _ _ _ _).gentle
  | barDone a b => exact (Calm.barDoneAt _ _ _ _).gentle

theorem Gentle.settleFuel (k : Nat) (s : State) (es : List Ev) : Gentle s (s.settleFuel k es) := by
  induction k generalizing s es with
  | zero => exact Gentle.refl _
  | succ k ih =>
    cases es with
    | nil => exact Gentle.refl _
    | cons e es => exact (Gentle.settleOne s e).trans (ih _ _)

/-- A settlement changes no memory and lowers no fence. -/
theorem Gentle.settle (s : State) (es : List Ev) : Gentle s (s.settle es) := Gentle.settleFuel _ _ _

theorem Gentle.postHdr (s : State) (c : Nat) (h : Hdr) (a b : Nat) : Gentle s (s.postHdr c h a b) := by
  unfold State.postHdr
  split
  · exact Gentle.refl _
  · exact Gentle.settle _ _

theorem Gentle.fault (s : State) (c a b d : Nat) : Gentle s (s.fault c a b d) := Gentle.settle _ _

end Sys2Proof.Machine
end

