-- ==== Sys2Proof/Tests/Slice0.lean ====
section
/-! SUPPORT. Tests: the form of commands that are refused, a state and operands that meet the hypotheses of each statement, and what rows
of each family do on a small state, with the expected values taken from the specification's tables and rules. -/

namespace Sys2Proof.Tests

open Sys2Proof Sys2Proof.Machine

set_option Elab.async false

/-! ### Small states -/

/-- The next state of an outcome has a property. -/
def onNext (o : Host.Outcome State Fault Refusal) (p : State → Bool) : Bool :=
  match o with
  | .next t => p t
  | _ => false

/-- A READY module. -/
def ready : State := { State.reset with pm := { State.reset.pm with st := .ready } }

/-- A header that neither waits nor posts. -/
def plain : Hdr := ⟨none, none⟩

/-- A READY module whose core 0 issues bundle 3 of 8, with X1 = 7, X2 = 5 and X3 = −1. -/
def running : State :=
  { ready with
    cores := [(0, { Core.reset with ctl := .running, codeLen := 8, pc := 3, x := [(1, 7), (2, 5), (3, 0xFFFFFFFFFFFFFFFF)] })]
    cpw := [(0, { ClusterPower.reset with grants := List.range 20 })] }

/-- What an instruction of core 0 leaves in X4. -/
def x4 (i : Instr) : Option Word64 :=
  match exec i running with
  | .next t => some ((t.core 0).xr 4)
  | _ => none

/-! ### Well-formed commands: an ill-formed term for each check -/

/-- A packet with every field zero. -/
def blank (t : BitVec 8) (len : BitVec 3) (lines : List (BitVec 512)) : Packet :=
  { State.reset.packet t.toNat 0 with len := len, lines := lines }

/-- A recovery message with entry `e`. -/
def recMsg (e : List Word64) : RecMsg := ⟨0, 0, 0, 0, 0, 0, 0, 0, 0, e⟩

/-- A WALK body. -/
def walkBody (nhops hop : BitVec 5) (ends : List (BitVec 16)) : WalkBody := ⟨nhops, hop, 0, 0, 0, 0, false, false, 0, 0, 0, 0, ends⟩

theorem test_wf_read : (Instr.read 0 (blank 0x01 4 [])).wf = true := by decide +kernel
theorem test_illformed_packet_length : (Instr.read 0 (blank 0x01 5 [])).wf = false := by decide +kernel
theorem test_illformed_packet_lines : (Instr.write 0 (blank 0x02 2 [0])).wf = false := by decide +kernel
theorem test_illformed_read_with_data : (Instr.read 0 (blank 0x01 1 [0])).wf = false := by decide +kernel
theorem test_illformed_ctrl_lines : (Instr.ctrl 0 (blank 0x10 0 [])).wf = false := by decide +kernel
theorem test_illformed_recov_lines : (Instr.recov 0 (blank 0x11 1 [0]) Told.none).wf = false := by decide +kernel
theorem test_illformed_flit : (Instr.flitReceive 0 ⟨true, true, 0, 0, .data, 0, 0, 0, [blank 0x01 5 []]⟩ Told.none).wf = false := by decide +kernel
theorem test_wf_query : (Instr.query 0 (walkBody 16 16 (List.replicate 16 0))).wf = true := by decide +kernel
theorem test_illformed_walk_hops : (Instr.query 0 (walkBody 17 0 (List.replicate 16 0))).wf = false := by decide +kernel
theorem test_illformed_walk_hop : (Instr.queryAns (walkBody 2 3 (List.replicate 16 0))).wf = false := by decide +kernel
theorem test_illformed_walk_ends : (Instr.assign 0 (walkBody 1 0 []) true).wf = false := by decide +kernel
theorem test_illformed_route : (Instr.queryTimeout (List.replicate 17 0)).wf = false := by decide +kernel
theorem test_illformed_recovery_entry : (Instr.log (recMsg [0])).wf = false := by decide +kernel

/-! ### The control slot (R41, R51, R56 to R60) -/

theorem test_issues : running.issues 0 plain := by refine ⟨by decide +kernel, by decide +kernel, ?_⟩; intro t h; cases h
theorem test_register_instructions : ([Instr.add 0 plain 4 1 2, .sub 0 plain 4 1 2, .and 0 plain 4 1 2, .or 0 plain 4 1 2, .xor 0 plain 4 1 2, .shl 0 plain 4 1 2,
    .shr 0 plain 4 3 2, .sar 0 plain 4 3 2, .mul 0 plain 4 1 2, .mulh 0 plain 4 3 1, .min 0 plain 4 1 3, .max 0 plain 4 1 3, .slt 0 plain 4 3 1, .sltu 0 plain 4 3 1].map x4) =
  [12, 2, 5, 7, 2, 224, 0x07FFFFFFFFFFFFFF, 0xFFFFFFFFFFFFFFFF, 35, 0xFFFFFFFFFFFFFFFF, 0xFFFFFFFFFFFFFFFF, 7, 1, 0].map some := by decide +kernel
theorem test_immediate_instructions : ([Instr.addi 0 plain 4 1 (BitVec.ofInt 36 (-1)), .andi 0 plain 4 1 5, .ori 0 plain 4 2 8, .xori 0 plain 4 1 2, .shli 0 plain 4 1 4, .shri 0 plain 4 3 60,
    .ldhi 0 plain 4 1 9].map x4) = [6, 5, 13, 5, 112, 15, 0x700000009].map some := by decide +kernel
theorem test_x0_discards : onNext (exec (.add 0 plain 0 1 2) running) (fun t => (t.core 0).xr 0 == 0 && (t.core 0).pc == 4) = true := by decide +kernel
theorem test_branch_taken : onNext (exec (.bne 0 plain 1 2 6) running) (fun t => (t.core 0).pc == 6) = true := by decide +kernel
theorem test_branch_not_taken : onNext (exec (.beq 0 plain 1 2 6) running) (fun t => (t.core 0).pc == 4) = true := by decide +kernel

/-! ### Transfers, memory and core state (R47, R57 to R60, R84) -/

/-- A running core 0 changed by `f`. -/
def runningWith (f : Core → Core) : State := running.setCore 0 (f (running.core 0))

/-- LOOP with XA zero skips to TARGET+1, which is core fault IMEM_RANGE beyond the code (R47); LDHI with IMM[35:32] not zero is RESERVED_NONZERO (R50). -/
theorem test_loop_skips_past_the_code : [exec (.loop 0 plain 0 6) running, exec (.loop 0 plain 0 7) running, exec (.ldhi 0 plain 4 1 0x100000009) running].map (fun r => match r with
    | .next t => some ((t.core 0).pc, (t.core 0).fault.map fun f => (f.code, f.pc))
    | _ => none) = [some (7, none), some (3, some (3, 3)), some (3, some (2, 3))] := by decide +kernel
/-- A jump whose bundle stands outside a loop's body does not end that loop (R58). -/
theorem test_jump_outside_a_loop : onNext (exec (.j 0 plain 2) (runningWith fun k => { k with loops := [⟨5, 6, 9, 0⟩, ⟨3, 4, 9, 0⟩] })) (fun t =>
    (t.core 0).loops == [⟨5, 6, 9, 0⟩]) = true := by decide +kernel
theorem test_call_and_return_hypotheses : (running.core 0).ret.length < 16 ∧ (2 : BitVec 13).toNat < (running.core 0).codeLen := by decide +kernel
theorem test_call_pushes : onNext (exec (.call 0 plain 2) running) (fun t => (t.core 0).pc == 2 && (t.core 0).ret == [4]) = true := by decide +kernel
theorem test_call_stack_full : onNext (exec (.call 0 plain 2) (runningWith fun k => { k with ret := List.replicate 16 1 }))
    (fun t => (t.core 0).fault == some ⟨0x0B, 3, 0⟩) = true := by decide +kernel
theorem test_return_empty_stack : onNext (exec (.ret 0 plain) running) (fun t => (t.core 0).fault == some ⟨0x0B, 3, 0⟩) = true := by decide +kernel
theorem test_return : onNext (exec (.ret 0 plain) (runningWith fun k => { k with ret := [7] })) (fun t => (t.core 0).pc == 7 && (t.core 0).ret == []) = true := by decide +kernel
theorem test_jr_beyond_code : onNext (exec (.jr 0 plain 3) running) (fun t => (t.core 0).fault == some ⟨0x03, 3, 0⟩) = true := by decide +kernel
theorem test_loop_opens : onNext (exec (.loop 0 plain 2 6) running) (fun t => (t.core 0).loops == [⟨4, 6, 5, 0⟩]) = true := by decide +kernel
theorem test_fifth_loop : onNext (exec (.loop 0 plain 2 6) (runningWith fun k => { k with loops := List.replicate 4 ⟨2, 7, 9, 0⟩ }))
    (fun t => (t.core 0).fault == some ⟨0x0C, 3, 0⟩) = true := by decide +kernel
theorem test_jump_out_of_code : onNext (exec (.j 0 plain 8) running) (fun t => (t.core 0).fault == some ⟨0x03, 3, 0⟩) = true := by decide +kernel
theorem test_jump_last_bundle : onNext (exec (.j 0 plain 7) running) (fun t => (t.core 0).pc == 7) = true := by decide +kernel
theorem test_halt : onNext (exec (.halt 0 plain) running) (fun t => (t.core 0).ctl == .halting) = true := by decide +kernel

/-- The running core with X5 at the last 8 bytes of local memory. -/
def atTop : State := runningWith fun k => { k with x := k.x ++ [(5, 0x5FFFF8), (6, 0x5FFFE0)] }

theorem test_access_hypotheses : ((atTop.core 0).xr 5 + (0 : BitVec 36).signExtend 64).toNat % 8 = 0 ∧
    ((atTop.core 0).xr 5 + (0 : BitVec 36).signExtend 64).toNat + 7 ≤ 0x5FFFFF ∧ (atTop.core 0).lmDouble 0x5FFFF8 8 = false ∧ (atTop.core 0).poisoned 0x5FFFF8 8 = false := by
  decide +kernel
theorem test_store_at_top : onNext (exec (.st 0 plain 1 5 0) atTop) (fun t => Mem.readLE (t.core 0).lm 0x5FFFF8 8 == 7) = true := by decide +kernel
theorem test_load_little_endian : onNext (exec (.ld 0 plain 4 5 0) (atTop.setCore 0 ((atTop.core 0).lmWrite 0x5FFFF8 [1, 2, 0, 0, 0, 0, 0, 0x80])))
    (fun t => (t.core 0).xr 4 == 0x8000000000000201) = true := by decide +kernel
theorem test_load_beyond_top : onNext (exec (.ld 0 plain 4 5 8) atTop) (fun t => (t.core 0).fault == some ⟨0x05, 3, 0⟩) = true := by decide +kernel
theorem test_load_misaligned : onNext (exec (.ld 0 plain 4 5 4) atTop) (fun t => (t.core 0).fault == some ⟨0x06, 3, 0⟩) = true := by decide +kernel
theorem test_tile_descriptor_round : onNext (exec (.tdst 0 plain 2 6 0) (atTop.setCore 0 { atTop.core 0 with td := [(2, 0x0102)] }))
    (fun t => onNext (exec (.tdld 0 plain 9 6 0) t) fun u => (u.core 0).tdr 9 == 0x0102) = true := by decide +kernel
theorem test_csr_step : onNext (exec (.csrw 0 plain 0 1 0x010) running) (fun t => onNext (exec (.csrr 0 plain 4 0 0x010) t) fun u => (u.core 0).xr 4 == 7) = true := by decide +kernel
theorem test_csr_set_and_clear : onNext (exec (.csrs 0 plain 0 1 0x010) (runningWith fun k => { k with step := 8 }))
    (fun t => (t.core 0).step == 15 && onNext (exec (.csrc 0 plain 0 2 0x010) t) fun u => (u.core 0).step == 10) = true := by decide +kernel
theorem test_csr_unknown : onNext (exec (.csrr 0 plain 4 0 0x7FF) running) (fun t => (t.core 0).fault == some ⟨0x0D, 3, 0⟩) = true := by decide +kernel
theorem test_fault_stops_a_live_core : ((running.core 0).ctl.live = true) ∧ (((running.coreFault 0 5 3 1).1.core 0).ctl = .faulted) := by decide +kernel
theorem test_alloc_blocks : onNext (exec (.alloc 0 plain 4 1 0) running) (fun t => (t.core 0).ctl == .blocked ⟨.alloc 4 1 0, plain, none, none⟩ &&
    (t.cluster 0).calls == [⟨0, false, 7, 0⟩]) = true := by decide +kernel
theorem test_free_blocks : onNext (exec (.free 0 plain 4 1 0) running) (fun t => (t.cluster 0).calls == [⟨0, true, 7, 0⟩]) = true := by decide +kernel
theorem test_control_slot_answers : ∃ t, exec (Instr.ofCtl 0 plain (.add 4 1 2)) running = .next t := ⟨_, rfl⟩

/-! ### Fences (R226 to R231) -/

/-- A READY module with fence 5 LIVE at value 10, owned by context 1, and fence 6 in ERROR. -/
def fenced : State := { running with fences := [(5, { Fence.reset with value := 10, state := .live, owner := 1 }), (6, { Fence.reset with value := 3, state := .error, owner := 1 })] }

/-- Fence 5 with value `v`. -/
def fencedAt (v : Nat) : State := { fenced with fences := [(5, { Fence.reset with value := v, state := .live, owner := 1 })] }

theorem test_usable : fenced.usable 5 (.ctx 1) ∧ (fenced.fence 5).state = .live ∧ (fenced.fence 5).value < 2 ^ 64 - 1 := by unfold State.usable; decide +kernel
theorem test_signal_raises : (fenced.fenceSignal 5 11 (.ctx 1) true).1 = 0 ∧ ((fenced.fenceSignal 5 11 (.ctx 1) true).2.1.fence 5).value = 11 := by decide +kernel
theorem test_signal_equal : (fenced.fenceSignal 5 10 (.ctx 1) true).1 = 0 ∧ ((fenced.fenceSignal 5 10 (.ctx 1) true).2.1.fence 5).drops = 0 := by decide +kernel
theorem test_signal_lower_is_discarded : (fenced.fenceSignal 5 9 (.ctx 1) true).1 = 4 ∧ ((fenced.fenceSignal 5 9 (.ctx 1) true).2.1.fence 5).drops = 1 ∧
    ((fenced.fenceSignal 5 9 (.ctx 1) true).2.1.fence 5).value = 10 := by decide +kernel
theorem test_signal_saturated : ((fencedAt (2 ^ 64 - 1)).fenceSignal 5 1 (.ctx 1) true).1 = 5 := by decide +kernel
theorem test_add_to_the_limit : (fenced.fenceAdd 5 (2 ^ 64 - 11) (.ctx 1) true).1 = 0 ∧ ((fenced.fenceAdd 5 (2 ^ 64 - 11) (.ctx 1) true).2.1.fence 5).value = 2 ^ 64 - 1 := by decide +kernel
theorem test_add_saturates : (fenced.fenceAdd 5 (2 ^ 64 - 10) (.ctx 1) true).1 = 5 ∧ ((fenced.fenceAdd 5 (2 ^ 64 - 10) (.ctx 1) true).2.1.fence 5).value = 2 ^ 64 - 1 ∧
    ((fenced.fenceAdd 5 (2 ^ 64 - 10) (.ctx 1) true).2.1.cluster 0).hub.cnt.sat = 1 := by decide +kernel
theorem test_add_zero : (fenced.fenceAdd 5 0 (.ctx 1) true).1 = 0 ∧ ((fenced.fenceAdd 5 0 (.ctx 1) true).2.1.fence 5).value = 10 := by decide +kernel
theorem test_wait_satisfied : (fenced.fenceWait 5 10 (.ctx 1) (.core 0)).1 = some 0 := by decide +kernel
theorem test_wait_registered : (fenced.fenceWait 5 11 (.ctx 1) (.core 0)).1 = none := by decide +kernel
theorem test_wait_on_error : fenced.usable 6 (.ctx 1) ∧ (fenced.fenceWait 6 0 (.ctx 1) (.core 0)).1 = some 2 := by unfold State.usable; decide +kernel
theorem test_wait_no_such : (fenced.fenceWait (2 ^ 20) 0 (.ctx 1) (.core 0)).1 = some 3 ∧ (fenced.fenceRead 7 (.ctx 1)).2.1 = 0 := by decide +kernel
theorem test_read_of_error : (fenced.fenceRead 6 (.ctx 1)).2.1 = 3 := by decide +kernel

/-- The running core bound to context 1, with X1 naming fence 5 and X2 the value 11. -/
def signalling : State := (fenced.setCore 0 { running.core 0 with ctx := 1, x := [(1, 5), (2, 11), (3, 0x900000005), (7, 4)] })

theorem test_fsig_then_answer : onNext (exec (.fsig 0 plain 4 1 2) signalling) (fun t => onNext (exec (.syncAnswer 0) t) fun u =>
    (u.fence 5).value == 11 && (u.core 0).xr 4 == 0 && (u.core 0).pc == 4) = true := by decide +kernel
theorem test_fadd_then_answer : onNext (exec (.fadd 0 plain 4 1 2) signalling) (fun t => onNext (exec (.syncAnswer 0) t) fun u => (u.fence 5).value == 21) = true := by decide +kernel
theorem test_fread_then_answer : onNext (exec (.fread 0 plain 4 1 0) signalling) (fun t => onNext (exec (.syncAnswer 0) t) fun u => (u.core 0).xr 4 == 10) = true := by decide +kernel
theorem test_fwait_blocks_then_times_out : onNext (exec (.fwait 0 plain 4 1 2 100) signalling) (fun t => onNext (exec (.fenceWaitTimeout 0) t) fun u =>
    (u.core 0).xr 4 == 1 && u.ltime == 100 && u.waits == []) = true := by decide +kernel
theorem test_fwait_released_by_a_signal : onNext (exec (.fwait 0 plain 4 1 2 0) signalling) (fun t => onNext (exec (.syncAnswer 0)
    (let r := t.fenceSignal 5 11 (.ctx 1) true; r.2.1.settle r.2.2)) fun u => (u.core 0).xr 4 == 0 && (u.core 0).ctl == .running) = true := by decide +kernel
theorem test_remote_signal_goes_out : onNext (exec (.rfsig 0 plain 4 3 2) { signalling with routing := [(9, 1)] }) (fun t => (t.core 0).pc == 4 && t.sent.length == 1) = true := by decide +kernel
theorem test_ftok_posts_at_once : onNext (exec (.ftok 0 plain 7 1 2) { signalling with fences := [(5, { Fence.reset with value := 11, state := .live, owner := 1 })] })
    (fun t => (t.core 0).token 4 == 1) = true := by decide +kernel
theorem test_ftok_twice_overflows : onNext (exec (.ftok 0 plain 7 1 2) signalling) (fun t => onNext (exec (.ftok 0 plain 7 1 2) t) fun u =>
    ((u.core 0).fault.map fun f => f.code) == some 9) = true := by decide +kernel
theorem test_blocked_hypothesis : ((signalling.setCore 0 { signalling.core 0 with ctl := .blocked ⟨.fread 4 1 0, plain, some 9, none⟩ }).core 0).ctl = .blocked ⟨.fread 4 1 0, plain, some 9, none⟩ ∧
    onNext (exec (.syncAnswer 0) (signalling.setCore 0 { signalling.core 0 with ctl := .blocked ⟨.fread 4 1 0, plain, some 9, none⟩ })) (fun t => (t.core 0).xr 4 == 9) = true := by decide +kernel
theorem test_barrier_wait_blocks : onNext (exec (.barw 0 plain 4 7 0 0) { signalling with clusters := [(0, { Cluster.reset with hub := { Hub.reset with bars := [(4, { Barrier.reset with conf := true, expect := 2, owner := 1 })] } })] })
    (fun t => match (t.core 0).ctl with | .blocked _ => true | _ => false) = true := by decide +kernel

/-! ### Bundles (R42, R43, R48 to R54) -/

/-- A bundle of four slots (Table 02-1). -/
def bundle (ctl mat vec mov : Nat) : Word256 := BitVec.ofNat 256 (ctl + mat * 2 ^ 64 + vec * 2 ^ 128 + mov * 2 ^ 192)

/-- The running core with bundle `b` as bundle 3. -/
def fetching (b : Word256) : State := runningWith fun k => { k with imem := [(3, b)], td := [(1, 0x1234)] }

/-- ADD X4 ← X1 + X2; ACCZ of accumulator 2; VIADD V3 ← V1 + V2 in INT32; MCPY with XS X1, XD X2, XL X3, by Tables 02-3 to 02-8. -/
def four : Word256 := bundle 0x0100081100000000 0x0A00000010000000 0x4000061102800000 0x0100022180000000

theorem test_bundle_hypotheses : bundleFault four = none ∧ ((fetching four).core 0).canWait (slotHdr (slotOf four 0)) = true ∧
    ((fetching four).core 0).roomFor four = true ∧ ctlDecode (slotOf four 0) = some (CtlForm.r, CtlOp.add 4 1 2) ∧
    matrixOp (slotOf four 1) = some .accz ∧ vecOp (slotOf four 2) = some .viadd ∧ moveOp (slotOf four 3) = some .mcpy := by decide +kernel
theorem test_bundle_issues : onNext (exec (.bundleIssue 0) (fetching four)) (fun t => (t.core 0).xr 4 == 12 && (t.core 0).pc == 4 &&
    (t.core 0).mq.map (fun e => e.acc) == [2] && (t.core 0).vq.map (fun e => (e.vd, e.va, e.vb, e.dt)) == [(3, 1, 2, 10)] &&
    (t.core 0).xq.map (fun e => (e.xs, e.xd)) == [(7, 5)]) = true := by decide +kernel
/-- The matrix slot that 02_core.md works out: MMA, waiting on T0 and posting T2, with TDA 0, TDB 2, TDC 4 and ACC 0. -/
theorem test_example_matrix_slot : matrixOp 0x0184802200000000 = some .mma ∧ slotHdr 0x0184802200000000 = ⟨some 0, some 2⟩ ∧
    regAt 0x0184802200000000 45 41 = 0 ∧ regAt 0x0184802200000000 40 36 = 2 ∧ regAt 0x0184802200000000 35 31 = 4 := by decide +kernel
theorem test_fetch_past_the_end : onNext (exec (.bundleIssue 0) (runningWith fun k => { k with pc := 8 })) (fun t => (t.core 0).fault == some ⟨3, 7, 0⟩) = true := by decide +kernel
theorem test_bad_parity : onNext (exec (.bundleIssue 0) (runningWith fun k => { k with imemBad := [3] })) (fun t => (t.core 0).fault == some ⟨4, 3, 0⟩) = true := by decide +kernel
theorem test_reserved_opcode : bundleFault (bundle 0xFF00000000000000 0 0 0) = some (1, 0) ∧ bundleFault (bundle 0 1 0 0) = some (2, 1) ∧
    bundleFault (bundle 0x1600000080000000 0 0 0) = none ∧ bundleFault (bundle 0x1600000100000000 0 0 0) = some (2, 0) := by decide +kernel
/-- A control NOP that waits on T1, which holds nothing. -/
theorem test_token_deadlock : ((fetching (bundle 0x0088000000000000 0 0 0)).core 0).canWait ⟨some 1, none⟩ = false ∧
    ((fetching (bundle 0x0088000000000000 0 0 0)).core 0).enginesHeld = true ∧ (fetching four).anyArm 0 = false ∧
    onNext (exec (.bundleIssue 0) (fetching (bundle 0x0088000000000000 0 0 0))) (fun t => (t.core 0).fault == some ⟨10, 3, 0⟩) = true := by decide +kernel
theorem test_full_queue_holds : ((runningWith fun k => { k with imem := [(3, four)], vq := List.replicate 64 ⟨plain, 0, .vadd, 0, 0, 0, 0, 0, 0, 0, 0, 0, 0, 0, 0⟩ }).core 0).roomFor four = false := by
  decide +kernel
theorem test_poisoned_load_holds : (CtlOp.ld 4 5 0).onPoison { atTop.core 0 with poison := [0x5FFFF8 / 128] } = true := by decide +kernel

/-! ### Formats, roundings and exact entries, with the examples of 03 to 05 -/

/-- 300.7 as 3007/10 lies within 2^−20 of this multiple of 2^−20. -/
def x300p7 : FV := .fin false 315306803 (-20)

theorem test_example_round_nearest : (Fmt.e4m3.convert .nearest true x300p7).1 = 0x79 ∧ Fmt.e4m3.decode 0x79 = .fin false 9 5 := by decide +kernel
theorem test_example_round_stochastic : (Fmt.e4m3.convert (.stochastic 40000) true x300p7).1 = 0x7A ∧ (Fmt.e4m3.convert (.stochastic 39000) true x300p7).1 = 0x79 := by
  decide +kernel
theorem test_example_clamp : Fmt.e4m3.convert .nearest true (.fin false 470 0) = (0x7E, flCvtSat) ∧ Fmt.e5m2.convert .nearest true (.fin false 470 0) = (0x5F, 0) := by decide +kernel
theorem test_generator_vectors : roundingBits 0 0 0 0 = 0x25864A25FB99E3FF ∧ roundingBits 0x0123456789ABCDEF 0x11 0x500000003 2 = 0xF078B1A6E38E24A1 := by decide +kernel
theorem test_round_hypotheses : (3 : Int) < 5 ∧ roundAt .nearest 5 6 3 = 2 ∧ roundAt .truncate 5 6 3 = 1 ∧ roundAt (.stochastic 32768) 5 6 3 = 2 := by decide +kernel
theorem test_example_entries : (FV.mul (Fmt.e4m3.decode 0x45) (Fmt.e4m3.decode 0x86)).1 = .fin true 78 (-11) ∧ (windowEntry (-8) true 78 (-11)).1 = -9 ∧
    (windowEntry (-10) true 78 (-11)).1 = -39 ∧ (windowEntry (-8) false 78 (-11)).1 = 9 := by decide +kernel
theorem test_sums_in_any_order : [Fmt.e4m3.decode 0x45, Fmt.e4m3.decode 0x86].Perm [Fmt.e4m3.decode 0x86, Fmt.e4m3.decode 0x45] := List.Perm.swap ..
theorem test_example_scales : scaleElem 3 0x4396599A = (127, 0) ∧ scaleElem 3 0x3D4CCCCD = (114, 0) ∧ scaleElem 0x13 0x3D4CCCCD = (115, 0) := by decide +kernel

/-- A VQUANT of FP32 to E4M3 by the scales of V1. -/
def quant : VecEntry := ⟨plain, 3, .vquant, 5, 2, 1, 0, 3, 0, 0, 0, 0, 0, 0, 0⟩

/-- 300.7 in block 0 with scale byte 127 gives 288, and 0.05 in block 1 with scale byte 114 gives 416. -/
theorem test_example_quant : (vecQuant quant 0 (BitVec.ofNat 32768 (0x4396599A + 0x3D4CCCCD * 2 ^ 1024)) 0x727F).1.toNat % 256 = 0x79 ∧
    (vecQuant quant 0 (BitVec.ofNat 32768 (0x4396599A + 0x3D4CCCCD * 2 ^ 1024)) 0x727F).1.toNat / 2 ^ 256 % 256 = 0x7D := by decide +kernel

/-! ### Matrix and vector instructions -/

/-- A 1 × 32 INT8 row at 0, a 32 × 1 INT8 column at 0x80 and a 1 × 1 INT32 output at 0x100 (Table 02-11). -/
def tileA : Word256 := BitVec.ofNat 256 (0x0800200001000000 + 32 * 2 ^ 64)
def tileB : Word256 := BitVec.ofNat 256 (0x0800010020000080 + (32 + 2 ^ 48) * 2 ^ 64)
def tileC : Word256 := BitVec.ofNat 256 (0x0A00010001000100 + 32 * 2 ^ 64)

/-- A matrix entry of accumulator 1. -/
def mEntry (op : MatrixOp) : MatrixEntry := ⟨plain, 3, op, 1, tileA, tileB, tileC, 0, 0⟩

/-- The running core with a matrix instruction at the head of its queue, the row 3, 1, 0 … and the column −2, 5, 0 …. -/
def multiplying (op : MatrixOp) : State := runningWith fun k => { k with mq := [mEntry op], lm := [(0, 3), (1, 1), (0x80, 0xFE), (0x81, 5)] }

theorem test_mma_hypotheses : ((multiplying .mma).core 0).enginesLive = true ∧ ((multiplying .mma).core 0).matrixNext = some (mEntry .mma) ∧ ((multiplying .mma).core 0).grants .matrix (mEntry .mma).hdr = true ∧
    ((multiplying .mma).core 0).accFault .mma 1 false = false ∧ mmaClass (Desc.of tileA) (Desc.of tileB) (Desc.of tileC) = some .int := by decide +kernel
theorem test_mma_multiplies : onNext (exec (.mma 0) (multiplying .mma)) (fun t => ((t.core 0).mrun.map fun r => r.flags) == [0] && Tbl.get 0 ((t.core 0).accu 1).elems 0 == 0xFFFFFFFF) = true := by
  decide +kernel
theorem test_mma_adds : onNext (exec (.mma 0) ((multiplying .mma).setCore 0 (((multiplying .mma).core 0).setAcc 1 ⟨.int, 1, 1, 0, [(0, 10)], []⟩)))
    (fun t => Tbl.get 0 ((t.core 0).accu 1).elems 0 == 9) = true := by decide +kernel
theorem test_mma_tag_differs : onNext (exec (.mma 0) ((multiplying .mma).setCore 0 (((multiplying .mma).core 0).setAcc 1 ⟨.float, 1, 1, 0, [], []⟩)))
    (fun t => (t.core 0).fault == some ⟨7, 3, 1⟩) = true := by decide +kernel
theorem test_mmaz_number_in_use : onNext (exec (.mmaz 0) ((multiplying .mmaz).setCore 0 (((multiplying .mmaz).core 0).setAcc 0 ⟨.exact, 1, 1, 0, [], []⟩)))
    (fun t => (t.core 0).fault == some ⟨8, 3, 1⟩) = true := by decide +kernel
/-- Without the grants of its array and of the vector unit an instruction waits. -/
theorem test_no_grant_no_start : (multiplying .mma).granted 0 ((tileArrays (Desc.of tileC)).map fun i => 4 * ((0 : CoreId).val % 4) + i) = true ∧
    [exec (.mma 0) { multiplying .mma with cpw := [] }, exec (.instructionCompletionPoint 0 (.matrix 0)) (({ multiplying .mma with cpw := [] } : State).modCore 0 fun k => { k with mrun := [(mEntry .mma).begin k 0 0] })].map
      (fun r => onNext r fun t => (t.core 0).mq.length == 1 && (t.core 0).acc == []) = [true, true] := by decide +kernel
theorem test_accst_stores : onNext (exec (.accst 0) ((multiplying .accst).setCore 0 (((multiplying .accst).core 0).setAcc 1 ⟨.int, 1, 1, 0, [(0, 0x12345678)], []⟩)))
    (fun t => Mem.readLE (t.core 0).lm 0x100 4 == 0x12345678) = true := by decide +kernel
theorem test_accld_loads : onNext (exec (.accld 0) ((multiplying .accld).setCore 0 (((multiplying .accld).core 0).lmWrite 0x100 [0x78, 0x56, 0x34, 0x12])))
    (fun t => Tbl.get 0 ((t.core 0).accu 1).elems 0 == 0x12345678 && ((t.core 0).accu 1).cls == .int) = true := by decide +kernel
theorem test_accz_empties_four : onNext (exec (.accz 0) ((runningWith fun k => { k with mq := [{ mEntry .accz with acc := 4 }] }).setCore 0
    ((runningWith fun k => { k with mq := [{ mEntry .accz with acc := 4 }] }).core 0 |>.setAcc 4 ⟨.exact, 1, 1, 0, [], []⟩)))
    (fun t => [4, 5, 6, 7].all fun i => ((t.core 0).accu i).cls == .empty) = true := by decide +kernel

/-- A vector entry V3 ← V1 op V2. -/
def vEntry (op : VecOp) (dt : BitVec 4) (m : BitVec 22) (xa : Word64) : VecEntry := ⟨plain, 3, op, 3, 1, 2, 0, dt, m, xa, 0x100, 0, 0, 0, 0⟩

/-- The running core with a vector instruction at the head of its queue. -/
def vector (e : VecEntry) : State := runningWith fun k => { k with vq := [e], v := [(1, 0x80000005FFFFFFFF), (2, 0x0000000300000001)], lm := [(0x80, 9)] }

/-- Element `i` of V3 after the instruction at the head. -/
def v3 (op : VecOp) (dt : BitVec 4) (m : BitVec 22) (w i : Nat) : Option Nat :=
  match exec (Instr.ofVec 0 op) (vector (vEntry op dt m 0)) with
  | .next t => some (((t.core 0).vreg 3).toNat / 2 ^ (w * i) % 2 ^ w)
  | _ => none

theorem test_vector_hypotheses : ((vector (vEntry .viadd 10 0 0)).core 0).atVec (vEntry .viadd 10 0 0) ∧ elemCount 10 = some 1024 :=
  ⟨⟨by decide +kernel, by decide +kernel, by decide +kernel, ⟨[], by decide +kernel⟩⟩, by decide +kernel⟩
theorem test_vector_integers : [v3 .viadd 10 0 32 0, v3 .visub 10 0 32 1, v3 .vimul 10 0 32 1, v3 .vsar 10 0 32 1, v3 .vshr 10 0 32 1, v3 .vimax 10 0 32 1, v3 .vxor 10 0 32 0] =
    [0, 0x80000002, 0x8000000F, 0xF0000000, 0x10000000, 3, 0xFFFFFFFE].map some := by decide +kernel
/-- 1.0 + 2.0 in FP32, and the comparison of the two. -/
theorem test_vector_floats : (vecArith .vadd 0 0 0x3F800000 0x40000000 0).1 = 0x40400000 ∧ (vecArith .vmul 0 0 0x3F800000 0x40000000 0).1 = 0x40000000 ∧
    (vecArith .vdiv 0 0 0x3F800000 0x40000000 0).1 = 0x3F000000 ∧ (vecArith .vsqrt 0 0 0x40800000 0 0).1 = 0x40000000 := by decide +kernel
/-- e, sin 1, cos 1, ln 2, log2 3, tanh 1, erf 1, σ(1), both forms of GELU at 1 and the square root of 2, in FP32. -/
theorem test_vector_functions : ([(VecOp.vexp, 0, 1, 0), (.vsin, 0, 1, 0), (.vcos, 0, 1, 0), (.vlog, 0, 1, 1), (.vlog2, 0, 3, 0), (.vtanh, 0, 1, 0), (.verf, 0, 1, 0), (.vsigm, 0, 1, 0),
      (.vgelu, 0, 1, 0), (.vgelu, 1, 1, 0), (.vexp2, 0, 1, -1)].map fun (q : VecOp × Nat × Nat × Int) => (Fmt.fp32.convert .nearest false (fnValue q.1 q.2.1 false q.2.2.1 q.2.2.2)).1) =
    [0x402DF854, 0x3F576AA4, 0x3F0A5140, 0x3F317218, 0x3FCAE00D, 0x3F42F7D6, 0x3F57BB3D, 0x3F3B26A8, 0x3F57625F, 0x3F57585C, 0x3FB504F3] := by decide +kernel
theorem test_vector_bounds : ([0x402DF853, 0x402DF854, 0x402DF855, 0x402DF856].map fun y => match Fmt.fp32.float with
      | some g => (Fmt.fp32.decode y).keeps g (.halves 2) (expOf false 1 0)
      | none => false) = [false, true, true, false] := by decide +kernel
theorem test_vector_load : onNext (exec (.vld 0) (vector (vEntry .vld 0 0 0x80))) (fun t => ((t.core 0).vreg 3).toNat % 256 == 9 && (t.core 0).vrun == some 0) = true := by decide +kernel
theorem test_vector_load_misaligned : onNext (exec (.vld 0) (vector (vEntry .vld 0 0 0x90))) (fun t => (t.core 0).fault == some ⟨6, 3, 2⟩) = true := by decide +kernel
theorem test_vector_store_past_the_end : onNext (exec (.vst 0) (vector (vEntry .vst 0 0 0x5FFF80))) (fun t => (t.core 0).fault == some ⟨5, 3, 2⟩) = true := by decide +kernel
theorem test_vector_store : onNext (exec (.vst 0) (vector (vEntry .vst 0 0 0x5FF000))) (fun t => (t.core 0).vrun == some 0 && (t.core 0).fault == none) = true := by decide +kernel
theorem test_completion_point_posts : onNext (exec (.instructionCompletionPoint 0 .vector) (runningWith fun k => { k with vq := [{ vEntry .vadd 0 0 0 with hdr := ⟨none, some 5⟩ }], vrun := some 4 }))
    (fun t => (t.core 0).token 5 == 1 && (t.core 0).mflags == 4 && (t.core 0).vq == []) = true := by decide +kernel

/-! ### Moves (R69, R70, R148) -/

/-- A move entry from `xs` to `xd` of length `xl`. -/
def xEntry (op : MoveOp) (xs xd xl : Word64) : MoveEntry := ⟨plain, 3, op, xs, xd, xl, BitVec.ofNat 256 (0x0800200001000000 + 32 * 2 ^ 64), 1, 0, 2, 0⟩

/-- Channel 0, cluster 0 and partition 0 of forme 7 at map epoch 1, with context 1 bound to it and a core of the context whose move queue holds `e`. -/
def mapped (e : List MoveEntry) : State :=
  { runningWith fun k => { k with xq := e, ctx := 1, lm := [(0, 1), (1, 2), (0x1F, 9), (0x24, 5)], x := [(1, 8192), (2, 0x1000), (5, 0x1000)] } with
    parts := [(0, { Partition.reset with inUse := true, forme := 7, lay := ⟨[0], [0], [(0, 0)], 16, 8, 0, 0, [], false, []⟩ })]
    formes := [{ Forme.blank 7 with epoch := 1 }]
    ctxs := [(1, { Context.reset with state := .live, forme := 7, part := 0, fenceQuota := 4, quotas := [1] })]
    keys := [(2, { KeyEntry.reset with engines := 1, type := .partition, valid := true, key := .random 1 })] }

theorem test_move_hypotheses : ((mapped [xEntry .mcpy 0 0x40 32]).core 0).atMove (xEntry .mcpy 0 0x40 32) ∧
    (mapped [xEntry .mcpy 0 0x40 32]).moveFault 0 ((mapped [xEntry .mcpy 0 0x40 32]).core 0) (xEntry .mcpy 0 0x40 32) = none :=
  ⟨⟨by decide +kernel, by decide +kernel, by decide +kernel, by decide +kernel, ⟨[], by decide +kernel⟩⟩, by decide +kernel⟩
theorem test_mcpy_overlapping : onNext (exec (.mcpy 0) (mapped [xEntry .mcpy 0 0x20 64])) (fun t =>
    Mem.readLE (t.core 0).lm 0x20 2 == 0x0201 && Mem.readLE (t.core 0).lm 0x44 1 == 5 && (t.core 0).xrun.isSome) = true := by decide +kernel
theorem test_mcpy_misaligned : onNext (exec (.mcpy 0) (mapped [xEntry .mcpy 16 0x20 64])) (fun t => (t.core 0).fault == some ⟨6, 3, 3⟩) = true := by decide +kernel
theorem test_mcpy_past_the_end : onNext (exec (.mcpy 0) (mapped [xEntry .mcpy 0 0x5FFFE0 64])) (fun t => (t.core 0).fault == some ⟨5, 3, 3⟩) = true := by decide +kernel
theorem test_mcsw_and_mcsr : onNext (exec (.mcsw 0) (mapped [xEntry .mcsw 0 64 64])) (fun t => Mem.readLE (t.cluster 0).scratch 64 2 == 0x0201 &&
    onNext (exec (.mcsr 0) (t.setCore 0 { t.core 0 with xq := [xEntry .mcsr 64 0x80 64], xrun := none })) fun u => Mem.readLE (u.core 0).lm 0x80 2 == 0x0201) = true := by decide +kernel
theorem test_mcsr_out_of_scratch : onNext (exec (.mcsr 0) (mapped [xEntry .mcsr 0x800000 0 64])) (fun t => (t.core 0).fault == some ⟨14, 3, 3⟩) = true := by decide +kernel
theorem test_mstrm_queues : onNext (exec (.mstrm 0) (mapped [xEntry .mstrm 0 0 0])) (fun t => (t.engine 1).queue.map (fun q => (q.ctx, q.cls, q.desc.headD 0)) == [(1, 2, 0x0201)]) = true := by
  decide +kernel
theorem test_mprd_reads_fresh_page : onNext (exec (.mprd 0) (mapped [xEntry .mprd 0x1000 0 64])) (fun t => Mem.readLE (t.core 0).lm 0 2 == 0 && (t.core 0).xrun.isSome) = true := by decide +kernel
theorem test_mpwr_then_mprd : onNext (exec (.mpwr 0) (mapped [xEntry .mpwr 0 0x1000 64])) (fun t => (t.core 0).xrun.isSome &&
    onNext (exec (.mprd 0) (t.setCore 0 { t.core 0 with xq := [xEntry .mprd 0x1000 0x80 64], xrun := none, xmove := none })) fun u => Mem.readLE (u.core 0).lm 0x80 2 == 0x0201) = true := by decide +kernel
theorem test_moves_complete_hypotheses :
    (let s := mapped [xEntry .mprd 0x1000 0 64]
     let r := (s.modCore 0 fun k => k.beginMove (xEntry .mprd 0x1000 0 64)).readMove 0 (xEntry .mprd 0x1000 0 64) 1
     s.moveFault 0 (s.core 0) (xEntry .mprd 0x1000 0 64) == none && r.1 && r.2.2.isEmpty && (((r.2.1.core 0).xmove.map fun x => x.bad.isEmpty) == some true)) = true ∧
    (let s := mapped [xEntry .mpwr 0 0x1000 64]
     let r := (s.modCore 0 fun k => k.beginMove (xEntry .mpwr 0 0x1000 64)).writeMove 0 (xEntry .mpwr 0 0x1000 64) 1
     s.moveFault 0 (s.core 0) (xEntry .mpwr 0 0x1000 64) == none && r.1 && r.2.2.isEmpty &&
       !((moveReads (s.core 0) (xEntry .mpwr 0 0x1000 64)).any fun p => (s.core 0).poisoned p.1 p.2)) = true ∧
    (let e := { xEntry .mpamo 0 0x1000 64 with mop := 0x13 }
     let s := mapped [e]
     let r := (s.modCore 0 fun k => k.beginMove e).writeMove 0 e 1
     s.moveFault 0 (s.core 0) e == none && (mopDecode 0x13).isSome && r.1 && r.2.2.isEmpty) = true := by decide +kernel
theorem test_mprd_outside_the_partition : onNext (exec (.mprd 0) (mapped [xEntry .mprd 0x10000 0 64])) (fun t => (t.core 0).fault.map (fun f => f.code) == some 15) = true := by decide +kernel
theorem test_mgath_and_mtrn : onNext (exec (.mtrn 0) (mapped [{ xEntry .mtrn 0 0x100 0 with td := BitVec.ofNat 256 (0x0800200001000000 + 32 * 2 ^ 64) }])) (fun t =>
      Mem.readLE (t.core 0).lm 0x100 1 == 1 && Mem.readLE (t.core 0).lm 0x120 1 == 2) = true ∧
    onNext (exec (.mgath 0) (mapped [xEntry .mgath 0x200 0x100 1])) (fun t => Mem.readLE (t.core 0).lm 0x100 2 == 0x0201) = true := by decide +kernel

/-! ### Allocation (R78 to R81) -/

theorem test_allocation : ((mapped []).allocate 1 0 8192 0).1 = 0 ∧ ((mapped []).allocate 1 0 8192 0).2.1 = 0x1000 ∧
    ((((mapped []).allocate 1 0 8192 0).2.2.part 0).allocs.map fun a => (a.base, a.size, a.ctx)) = [(0x1000, 8192, 1)] := by decide +kernel
theorem test_allocation_refused : ((mapped []).allocate 1 0 0 0).1 = 8 ∧ ((mapped []).allocate 1 0 (2 ^ 39 + 1) 0).1 = 8 ∧ ((mapped []).allocate 1 0 0x1001000 0).1 = 6 ∧ ((mapped []).allocate 1 0 0x10000 0).1 = 7 := by decide +kernel
theorem test_alloc_answered : onNext (exec (.alloc 0 plain 4 1 0) (mapped [])) (fun t => onNext (exec (.allocatorAnswer 0) t) fun u =>
    (u.core 0).xr 4 == 0x1000 && (u.core 0).ctl == .running && (u.core 0).pc == 4) = true := by decide +kernel
theorem test_free_of_nothing : onNext (exec (.free 0 plain 4 5 0) (mapped [])) (fun t => onNext (exec (.allocatorAnswer 0) t) fun u => (u.core 0).xr 4 == 3) = true := by decide +kernel

/-! ### Completion, program end, stop and resume (R55, R60, R82, R83) -/

theorem test_idle_engine_has_no_completion : onNext (exec (.instructionCompletionPoint 0 (.matrix 0)) running) (fun t => t == running) = true := by decide +kernel
/-- ACCST of another accumulator starts beside an MMA, and completes before it; of the same accumulator it waits (R108). -/
theorem test_matrix_overlap : [2, 1].map (fun a => onNext (exec (.mma 0) ((multiplying .mma).modCore 0 fun k => { k with mq := [mEntry .mma, { mEntry .accst with acc := a }] })) fun t =>
    onNext (exec (.accst 0) t) fun u => (u.core 0).mrun.length == 2 && onNext (exec (.instructionCompletionPoint 0 (.matrix 1)) u) fun v => (v.core 0).mrun.length == 1 && (v.core 0).mq == [mEntry .mma]) =
    [true, false] := by decide +kernel
/-- A store under an operand of an executing MMA is kept with the bytes from before it (R109). -/
theorem test_matrix_torn_read : onNext (exec (.mma 0) (multiplying .mma)) (fun t => onNext (exec (.st 0 plain 1 0 0) t) fun u =>
    ((u.core 0).mrun.map fun r => r.torn.map fun e => (e.1, e.2.take 2)) == [[(0, [3, 1])]]) = true := by decide +kernel
/-- The matrix unit comes before the move unit where one token serves one of them (R53). -/
theorem test_grant_order : [1, 2].map (fun n => ((runningWith fun k => { k with tokens := [(5, n)], mq := [{ mEntry .accz with hdr := ⟨some 5, none⟩ }] }).core 0).grants .move ⟨some 5, none⟩) =
    [false, true] := by decide +kernel
theorem test_poisoned_read_noted : ((multiplying .mma).setCore 0 { (multiplying .mma).core 0 with poison := [0] }).core 0 |>.headHolds .matrix := by decide +kernel
theorem test_token_overflow : onNext (exec (.instructionCompletionPoint 0 .vector) (runningWith fun k =>
    { k with vq := [{ vEntry .vadd 0 0 0 with hdr := ⟨none, some 5⟩ }], vrun := some 0, tokens := [(5, 63)] })) (fun t => (t.core 0).fault == some ⟨9, 3, 2⟩) = true := by decide +kernel
theorem test_program_end_tells_the_master : onNext (exec (.programEnd (.core 0)) (runningWith fun k => { k with ctl := .halting })) (fun t =>
    (t.core 0).ctl == .ended && t.sent == [.coreDone 0 0 0 0 false 0]) = true := by decide +kernel
theorem test_program_end_waits : onNext (exec (.programEnd (.core 0)) (runningWith fun k => { k with ctl := .halting, vq := [vEntry .vadd 0 0 0] })) (fun t => (t.core 0).ctl == .halting) = true := by
  decide +kernel
theorem test_stop_and_resume : onNext (exec (.fwait 0 plain 4 1 2 0) signalling) (fun t => onNext (exec (.coreStop 0) t) fun u => u.waits == [] && (u.core 0).x == (t.core 0).x &&
    onNext (exec (.coreResume 0) u) fun v => v.waits.length == 1) = true := by decide +kernel
theorem test_stop_takes_the_answer_of_the_allocator : onNext (exec (.alloc 0 plain 4 1 0) running) (fun t => onNext (exec (.coreStop 0) t) fun u => (u.core 0).ctl == .stopped false none && (u.core 0).xr 4 == 0x60000000000 && (u.core 0).pc == 4) = true := by decide +kernel

/-! ### Streams (R148 to R166) -/

/-- A stream of 1 tile of 1 row of 64 bytes from partition address 0x1000 to local 0x4000, as words of Table 06-1. -/
def streamed (q : List QueuedDesc) : State := { mapped [] with engines := [(0, { StreamEngine.reset with queue := q })] }

/-- One tile of one 64-byte run from local 0 to local 0x4000 of core 0 (Table 06-2): VERSION 1, NDIM 1, TDIM 1. -/
def oneLine : QueuedDesc := ⟨[0x090001, 0, 0x4000, 64] ++ List.replicate 12 0, 1, 0, 0, 0⟩

theorem test_stream_hypotheses : ((streamed [oneLine]).engine 0).freeSlot = some 0 ∧ (streamed [oneLine]).quiesced (.stream 0 0) = false ∧
    (((streamed [oneLine]).modEngine 0 fun g => { g with queue := [] }).descOk 0 1 (SDesc.of oneLine.desc)) = true := by decide +kernel
theorem test_stream_starts : onNext (exec (.streamStart 0 0) (streamed [oneLine])) (fun t => ((t.engine 0).active.map fun e => (e.1, e.2.tile, e.2.ctx)) == [(0, 0, 1)] &&
    (t.engine 0).queue == []) = true := by decide +kernel
theorem test_stream_bad_descriptor : onNext (exec (.streamStart 0 0) (streamed [⟨[0x090002, 0, 0x4000, 64] ++ List.replicate 12 0, 1, 0, 0, 0⟩])) (fun t =>
    (t.engine 0).active == [] && (t.ctx 1).state != .live) = true := by decide +kernel
/-- One line read and written. -/
theorem test_stream_moves_a_line : onNext (exec (.streamStart 0 0) (streamed [oneLine])) (fun a => onNext (exec (.streamRequestIssue 0 0 0) a) fun b =>
    onNext (exec (.streamRequestComplete 0 0 ((((b.engine 0).active.map fun e => e.2.reqs.map fun r => r.id).flatten).headD 0)) b) fun c =>
    onNext (exec (.streamRequestIssue 0 0 0) c) fun d =>
    onNext (exec (.streamRequestComplete 0 0 ((((b.engine 0).active.map fun e => e.2.reqs.map fun r => r.id).flatten).headD 0)) d) fun e =>
    Mem.readLE (e.core 0).lm 0x4000 2 == 0x0201) = true := by decide +kernel
theorem test_stream_issue_hypotheses : onNext (exec (.streamStart 0 0) (streamed [oneLine])) (fun a =>
    let d := SDesc.of oneLine.desc
    let ends (t : Stream) : Bool := (a.srcEnd 0 t d 0 0 matches .part _ _ _ _) || (a.srcEnd 0 t d 0 0 matches .localMem _ _)
    (a.engine 0).nextSlot == some 0 && !a.quiesced (.stream 0 0) && (Tbl.find (a.engine 0).active 0).any fun t =>
      t.lookup.isNone && (t.writable d).isNone && !t.needsCredit d && !t.stopping && decide (t.tile < d.tiles ∧ d.cwin = 0 ∧ d.mop = 0 ∧ d.srcKind ≠ 4 ∧ d.dstKind ≠ 4) &&
        ends t && (a.dstEnd 0 t d 0 0 matches .localMem _ _)) = true := by decide +kernel
theorem test_no_stream_no_request : onNext (exec (.streamRequestIssue 0 0 3) (streamed [])) (fun t => t == streamed []) = true := by decide +kernel

/-- A stream in slot 2 that has its credit. -/
def granted : Stream := { Stream.start oneLine 2 9 with cwait := .granted, credit := 4 }

theorem test_credit_grant : onNext (exec (.creditGrant 0 0 2) { streamed [] with engines := [(0, { StreamEngine.reset with active := [(2, granted)] })] })
    (fun t => (t.engine 0).active.map (fun e => (e.2.credit, e.2.cwait == .none)) == [(5, true)]) = true := by decide +kernel
/-- A suspended stream that may go on. -/
def parked : Stream := { Stream.start oneLine 2 9 with cursor := 0, ready := true, stopping := true }

theorem test_stream_resumes : parked.resumable = true ∧ onNext (exec (.streamResume 0 0 9) { streamed [] with engines := [(0, { StreamEngine.reset with suspended := [parked] })] })
    (fun t => (t.engine 0).suspended == [] && (t.engine 0).active.map (fun e => e.1) == [0]) = true := by decide +kernel

/-! ### Translation (R161 to R176, R555) -/

/-- A page of 4 KiB of connection 3 and address space 5 in the cache of die 0, and one of address space 6. -/
def translated : State := { ready with caches := [(0, (TransCache.reset.fill ⟨3, 5, .kib4, 7, 0x7000, 1, true, true⟩).fill ⟨3, 6, .kib4, 7, 0x7000, 1, true, true⟩)] }

/-- A range of address space 5. -/
def range5 (a b : BitVec 57) : TransMsg := { TransMsg.zero with asn := 5, va := a, vaEnd := b, reqId := 44 }

theorem test_invalidate_hypotheses : (44 : Nat) ∉ (translated.conn 3).acked ∧ translated.agent.invals = [] ∧ (range5 0x7000 0x8000).rsv = false := by decide +kernel
theorem test_invalidate_drops_the_page : onNext (exec (.invalidate 3 (range5 0x7000 0x7001)) translated) (fun t => (t.tcache 0).find 3 5 0x7FFF == none &&
    ((t.tcache 0).find 3 6 0x7FFF).isSome && (t.agent.invals.map fun v => v.waiting.length) == [192]) = true := by decide +kernel
theorem test_invalidate_keeps_the_neighbour : onNext (exec (.invalidate 3 (range5 0x8000 0x9000)) translated) (fun t => ((t.tcache 0).find 3 5 0x7FFF).isSome) = true := by decide +kernel
theorem test_invalidate_discarded : onNext (exec (.invalidate 3 { range5 0 1 with rd := true }) translated) (fun t => t.agent.invals == []) = true := by decide +kernel
theorem test_last_engine_acknowledges : onNext (exec (.invalidationEngineReport 0 1) { translated with agent := { TransAgent.reset with gen := 1, invals := [⟨1, [1], 3, 5, 44⟩] } })
    (fun t => t.agent.invals == [] && (t.conn 3).acked == [44]) = true := by decide +kernel
theorem test_translate_unknown : translated.translateOf 3 9 = none ∧ onNext (exec (.translateTimeout 3 9) translated) (fun t => t == translated) = true := by decide +kernel

/-- A translation request outstanding on die 1, sent at 500 ns. -/
def asking : State := { ready with caches := [(1, { TransCache.reset with out := [⟨9, 3, 5, 7, false, 500, true, []⟩] })] }

theorem test_translate_answered : asking.translateOf 3 9 = some (1, ⟨9, 3, 5, 7, false, 500, true, []⟩) ∧
    onNext (exec (.translateAns 3 { TransMsg.zero with asn := 5, reqId := 9, va := 0x7000, rd := true, target := 0xA000, mkey := 2 }) asking)
      (fun t => ((t.tcache 1).find 3 5 0x7123).isSome && (t.tcache 1).out == []) = true := by decide +kernel
theorem test_translate_times_out : onNext (exec (.translateTimeout 3 9) asking) (fun t => (t.tcache 1).out == [] && (t.tcache 1).find 3 5 0x7123 == none && t.ltime == 10000500) = true := by
  decide +kernel

/-- The same request with a write prefetch of SPEC that waits for it: an answer that permits reads alone is a fault of it (R164). -/
theorem test_spec_prefetch_asks : onNext (exec (.translateAns 3 { TransMsg.zero with asn := 5, reqId := 9, va := 0x7000, rd := true, target := 0xA000, mkey := 2 })
    { asking with caches := [(1, { TransCache.reset with out := [⟨9, 3, 5, 7, false, 500, true, [true]⟩] })] })
      (fun t => (t.agent.table.map fun e => (e.1, e.2.write, e.2.spec, e.2.specs)) == [(0, true, true, [(1, true)])]) = true := by decide +kernel
/-- A prefetch that hits an entry with its permission sends nothing. -/
theorem test_prefetch_hit_is_silent : ((translated.prefetchPage 0 3 5 0x7000 true true).tcache 0).out = [] := by decide +kernel

/-- A page request outstanding for a waiter, sent at 0 on connection 3. -/
def paging : State := { ready with agent := { TransAgent.reset with table := [(4, ⟨[], 3, 5, 7, false, false, [], 0, 9⟩)] } }

theorem test_page_answered : onNext (exec (.pageAns 3 { TransMsg.zero with asn := 5, reqId := 9, va := 0x7000, rd := true, target := 0xA000, mkey := 2 }) paging)
    (fun t => t.agent.table == []) = true := by decide +kernel
theorem test_page_times_out : onNext (exec (.pageRequestTimeout 4) paging) (fun t => t.agent.table == []) = true ∧
    onNext (exec (.pageRequestTimeout 5) paging) (fun t => t == paging) = true := by decide +kernel

/-! ### Messages between hubs (R222, R231, R236 to R242) -/

/-- A control message of module 2 for fence `n` of this module, authenticated as context 1. -/
def ctrl (n : BitVec 32) (v : BitVec 64) : CtrlMsg := ⟨0, true, 2, 0, 3, n, 17, 1, v, 1⟩

theorem test_hub_hypotheses : (ctrl 5 11).dstMod.toNat = fenced.fabAddr ∧ fenced.hubsStill = true ∧ (fenced.fence 5).imports = 0 ∧ fenced.ctrlWho (ctrl 5 11) 1 = .ctx 1 := by decide +kernel
theorem test_signal_and_result : onNext (exec (.signal (ctrl 5 11)) { fenced with routing := [(2, 1)] }) (fun t => (t.fence 5).value == 11 && t.sent.length == 1) = true := by decide +kernel
theorem test_signal_denied : onNext (exec (.signal { ctrl 5 11 with auth := 9 }) fenced) (fun t => (t.fence 5).value == 10 && (t.cluster 0).hub.cnt.deny == 1) = true := by decide +kernel
theorem test_signal_bad_status : onNext (exec (.signal { ctrl 5 11 with status := 1 }) fenced) (fun t => (t.fence 5).value == 10 && (t.cluster 0).hub.cnt.badmsg == 1) = true := by decide +kernel
theorem test_signal_for_another_module : onNext (exec (.signal { ctrl 5 11 with dstMod := 9 }) fenced) (fun t => (t.fence 5).value == 10) = true := by decide +kernel
theorem test_ctrl_add_saturates : onNext (exec (.ctrlAdd (ctrl 5 0xFFFFFFFFFFFFFFFF)) fenced) (fun t => (t.fence 5).value == 2 ^ 64 - 1) = true := by decide +kernel
theorem test_wait_registered_then_cancelled : onNext (exec (.wait (ctrl 5 12)) fenced) (fun t => t.waits.length == 1 &&
    onNext (exec (.waitCancel (ctrl 5 0)) t) fun u => u.waits == []) = true := by decide +kernel
theorem test_wait_cancel_other_tag : onNext (exec (.wait (ctrl 5 12)) fenced) (fun t => onNext (exec (.waitCancel { ctrl 5 0 with tag := 18 }) t) fun u => u.waits.length == 1) = true := by decide +kernel
theorem test_release : onNext (exec (.ctrlRelease (ctrl 5 0)) { fenced with fences := [(5, { Fence.reset with state := .live, owner := 1, imports := 2 })] }) (fun t => (t.fence 5).imports == 1) = true ∧
    onNext (exec (.ctrlRelease (ctrl 5 0)) { fenced with fences := [(5, { Fence.reset with state := .error, owner := 1, imports := 1 })] }) (fun t => (t.fence 5).state == .free) = true := by
  decide +kernel

/-- Core 0 waits on a fence of another module under tag 17 of hub 3. -/
def waitingAfar (polling : Bool) : State :=
  { runningWith fun k => { k with ctl := .blocked ⟨.rfwait 4 1 2 0, plain, none, none⟩ } with
    clusters := [(3, { Cluster.reset with hub := { Hub.reset with remote := [{ tag := 17, core := some 0, stream := none, isRead := false, mod := 2, number := 5, target := 12, polling := polling, isSignal := false }] } })] }

theorem test_wait_done : onNext (exec (.waitDone { ctrl 5 0 with status := 2 }) (waitingAfar false)) (fun t => onNext (exec (.syncAnswer 0) t) fun u => (u.core 0).xr 4 == 2) = true := by decide +kernel
theorem test_registry_full_polls : onNext (exec (.waitDone { ctrl 5 0 with status := 0x80 }) (waitingAfar false)) (fun t => (t.cluster 3).hub.remote.map (fun r => r.polling) == [true] &&
    (t.cluster 3).hub.cnt.poll == 1 && onNext (exec (.remoteWaitPoll 3 17) { t with routing := [(2, 1)] }) fun u => u.sent.length == 1) = true := by decide +kernel
theorem test_poll_reaches_its_target : onNext (exec (.readAns (ctrl 5 12)) (waitingAfar true)) (fun t => (t.cluster 3).hub.remote == []) = true ∧
    onNext (exec (.readAns (ctrl 5 11)) (waitingAfar true)) (fun t => (t.cluster 3).hub.remote.length == 1) = true := by decide +kernel
theorem test_hot_fence_written_back : onNext (exec (.hotFenceWriteback 5) { fenced with clusters := [(0, { Cluster.reset with hub := { Hub.reset with hot := [(5, true)] } })] })
    (fun t => (t.fence 5).stored == 10 && (t.cluster 0).hub.hot == [(5, false)]) = true := by decide +kernel
theorem test_cold_wait_released : onNext (exec (.coldWaitRetest 0) { fenced with waits := [⟨5, 10, .core 0, true⟩] }) (fun t => t.waits == []) = true ∧
    onNext (exec (.coldWaitRetest 0) { fenced with waits := [⟨5, 11, .core 0, true⟩] }) (fun t => t.waits.length == 1) = true := by decide +kernel

/-- Instance 4 of hub 0 expects one arrival more: bits 13 to 8 of its number name the hub, bits 7 to 0 the instance. -/
def barrierAt : State := { fenced with clusters := [(0, { Cluster.reset with hub := { Hub.reset with bars := [(4, { Barrier.reset with conf := true, expect := 2, owner := 1 })] } })] }

theorem test_barrier_arrival : onNext (exec (.barArrive (ctrl 4 0)) barrierAt) (fun t => (t.bar 0 4).arrived == 1 &&
    onNext (exec (.barArrive { ctrl 4 0 with tag := 18 }) t) fun u => (u.bar 0 4).phase == 1 && (u.bar 0 4).arrived == 0) = true := by decide +kernel

/-! ### Channels of memory (R187 to R212) -/

/-- The example of 07_hbm_and_memory_side_arithmetic.md: page 0x12345 of a partition bound to the global channels 232 to 247. -/
theorem test_example_placement : stripeHash 0x1234 = 0x26 ∧ stripePlace (rangeFrom 232 16) 0x12345 = (243, 4660) ∧ (stripePlace (rangeFrom 232 16) 0x12346).1 = 244 ∧
    stripePlace (rangeFrom 232 16) 0x12355 = (244, 4661) := by decide +kernel

/-- A request of context 1 to partition 0 under map epoch 1. -/
def req (a : BitVec 40) : MemReq := ⟨.ctx 1, 0, a, 1, 0, 0⟩

/-- The status and the line of the last answer of memory. -/
def lastLine (t : State) : Option (Nat × BitVec 512) :=
  match t.sent.getLast? with
  | some (.line _ _ st d) => some (st, d)
  | _ => none

/-- Page 1 written at its first line. -/
def written : State :=
  match exec (.channelWrite (req 0x1000) 0xAB) (mapped []) with
  | .next t => t
  | _ => mapped []

theorem test_memory_hypotheses : (mapped []).resolve 0 1 0x1000 = .layout ((mapped []).part 0).lay none ∧ (((mapped []).part 0).lay.place 0x1000).isSome = true ∧
    (mapped []).copies 0 ((mapped []).part 0).lay 0x1000 = [(0, 8)] ∧ (mapped []).freshAt (0, 8) = true ∧ written.freshAt (0, 8) = false ∧
    written.keyPermits 2 0 (.ctx 1) = true ∧ (written.selectKey 0 0x1000).dead = false ∧ (written.blockAt (0, 8)).intact (written.sealFor 0 0x1000) = true := by decide +kernel
theorem test_read_of_a_fresh_page : onNext (exec (.channelRead (req 0x1000)) (mapped [])) (fun t => lastLine t == some (0, 0)) = true := by decide +kernel
theorem test_read_after_write : onNext (exec (.channelRead (req 0x1000)) written) (fun t => lastLine t == some (0, 0xAB)) = true ∧
    onNext (exec (.channelRead (req 0x1040)) written) (fun t => lastLine t == some (0, 0)) = true := by decide +kernel
theorem test_read_of_another_epoch : onNext (exec (.channelRead { req 0x1000 with epoch := 2 }) written) (fun t => (lastLine t).map (·.1) == some 5) = true := by decide +kernel
theorem test_read_outside : onNext (exec (.channelRead (req 0x10000)) written) (fun t => (lastLine t).map (·.1) == some 6) = true := by decide +kernel
theorem test_read_without_permission : onNext (exec (.channelRead { req 0x1000 with who := .ctx 2 }) written) (fun t => (lastLine t).map (·.1) == some 2) = true := by decide +kernel
theorem test_read_of_a_fenced_channel : onNext (exec (.channelRead (req 0x1000)) (written.modChannel 0 fun k => { k with fenced := true })) (fun t => (lastLine t).map (·.1) == some 7) = true := by
  decide +kernel
theorem test_read_of_poison : onNext (exec (.channelRead (req 0x1000)) (written.modBlock (0, 8) fun b => { b with poison := true, sealedBy := none })) (fun t => lastLine t == some (1, 0)) = true := by
  decide +kernel
theorem test_write_to_a_read_only_region : onNext (exec (.channelWrite (req 0x1000) 1) { written with parts := [(0, { written.part 0 with regions :=
    [⟨0x1000, 0x1000, false, false, true, false, false, false, false, 0, 0, 1, false, false, none⟩] })] }) (fun t => (lastLine t).map (·.1) == some 4) = true := by decide +kernel
/-- MOP 0x13 adds INT32 elements (Table 07-6). -/
theorem test_memory_side_add : onNext (exec (.memorySideOperation (req 0x1000) 0x13 0xFFFFFFFF00000001) written) (fun t =>
    onNext (exec (.channelRead (req 0x1000)) t) fun u => lastLine u == some (0, 0xFFFFFFFF000000AC)) = true := by decide +kernel
theorem test_cas : onNext (exec (.cas (req 0x1000) (0xAB + (0x55 : BitVec 1024) <<< (512 : Nat))) written) (fun t => lastLine t == some (0, 0xAB) &&
    onNext (exec (.channelRead (req 0x1000)) t) fun u => lastLine u == some (0, 0x55)) = true := by decide +kernel
theorem test_element_operations : memElem .min .int32 0xFFFFFFFF 1 = 0xFFFFFFFF ∧ memElem .max .int32 0xFFFFFFFF 1 = 1 ∧ memElem .add .int32 0xFFFFFFFF 1 = 0 ∧ memElem .xor .b64 5 3 = 6 ∧
    memElem .add .fp32 0x3F800000 0x40000000 = 0x40400000 := by decide +kernel
theorem test_block_writeback : onNext (exec (.blockWriteback 0 8) written) (fun t => (written.blockAt (0, 8)).buffered && !(t.blockAt (0, 8)).buffered) = true := by decide +kernel
/-- A read waits at channel 0, which is held for a reset, and 100 ns have passed. -/
def atHeld : State :=
  match exec (.channelRead (req 0x1000)) (written.modChannel 0 fun k => { k with held := true }) with
  | .next t => { t with ltime := t.ltime + 100 }
  | _ => written

theorem test_a_held_request_waits : atHeld.waiting.length = 1 ∧ atHeld.sent.length = written.sent.length ∧ atHeld.parked .row = true := by decide +kernel
theorem test_the_older_request_is_served_first :
    ((atHeld.modChannel 0 fun k => { k with held := false }).ahead (atHeld.arrival (req 0x1000) (some (.write 0xCD)) .row)).length = 1 ∧
    onNext (exec (.channelWrite (req 0x1000) 0xCD) (atHeld.modChannel 0 fun k => { k with held := false })) (fun t =>
      t.waiting == [] && (t.sent.drop atHeld.sent.length) == [.line 0 0x1000 0 0xAB, .line 0 0x1000 0 0]) = true := by decide +kernel
/-- The example of 11_regulation.md: label 6 with a target of 300 ns, as excess. -/
theorem test_priority_rises_with_age :
    let s := ({ ready with ltime := 1150 } : State).modSlot 0 5 fun r => { r with targets := [0, 0, 0, 0, 0, 0, 15, 0] }
    let w (t : Nat) : Waiting := ⟨⟨.ctx 1, 5, 0, 1, 0, 6⟩, none, .row, t, none, none⟩
    s.priority 0 (w 1000) = 2 ∧ s.priority 0 (w 925) = 3 := by decide +kernel
theorem test_scrub_goes_on : onNext (exec (.patrolScrub 0) written) (fun t => (t.channel 0).scrubPos == 1) = true := by decide +kernel
theorem test_relocation_ends : onNext (exec (.pageRelocationDone 0 1) (written.modChannel 0 fun k => { k with copying := [(1, 9)] })) (fun t =>
    (t.channel 0).copying == [] && Tbl.get 0 (t.blockAt (0, 72)).lines 0 == 0xAB && onNext (exec (.channelRead (req 0x1000)) t) fun u => lastLine u == some (0, 0xAB)) = true := by decide +kernel
theorem test_interface_error_twice : onNext (exec (.channelInterfaceError 5) ready) (fun t => (t.channel 5).ifErrors == 1 && !(t.channel 5).fenced &&
    onNext (exec (.channelInterfaceError 5) t) fun u => (u.channel 5).fenced) = true := by decide +kernel
/-- The fence store placed over channels 0 and 32: fence 5 has its entry on both, and enters ERROR when both are fenced off (R220, R550). -/
theorem test_fence_store_copies : areaCopies [0, 32] 0 = (0, 32) ∧ moduleAreaTop [0, 32] = some 6144 ∧ moduleAreaTop [0, 1] = none ∧
    (let s : State := { fenced with areaChans := [0, 32] }
     let t := s.fenceOne 32 0
     let u := (t.1.settle t.2).fenceOne 0 0
     ((t.1.settle t.2).fence 5).state = .live ∧ ((u.1.settle u.2).fence 5).state = .error) := by decide +kernel
theorem test_window : ready.sharers 5 = [] ∧ onNext (exec (.regulatorWindow 5 700 false [] []) ready) (fun t => (t.channel 5).capNow == 2560 && (t.channel 5).window == 1) = true := by decide +kernel
theorem test_commit_refused_or_taken : ((ready.modChannel 5 fun k => { k with commit := true }).takeCommit 5).channel 5 = { Channel.reset with cresult := 1 } := by decide +kernel

/-! ### Registers (chapter 18) -/

/-- Master of the host connection 3. -/
def host : Master := .host 3

theorem test_register_hypotheses : ready.takesWrites host .module ∧ ready.takesWrites host (.cluster 47) ∧ ready.takesWrites host (.link 15) ∧ ready.runs (.cluster 5) = false ∧
    blkOf 0x4008 = some (.module, 0x4008) := by unfold State.takesWrites; decide +kernel
theorem test_pwr_cap_limits : onNext (exec (.pwrCap host 2000) ready) (fun t => t.power.capNext == some 2000) = true ∧ onNext (exec (.pwrCap host 5000) ready) (fun t => t.power.capNext == some 5000) = true ∧
    onNext (exec (.pwrCap host 1999) ready) (fun t => t.power.capNext == none && (t.hdr .module).refused == 1) = true := by decide +kernel
theorem test_pm_stop_drops_start : onNext (exec (.pmStart host true) ready) (fun t => t.pm.start && onNext (exec (.pmStop host true) t) fun u => !u.pm.start && u.pm.stop) = true := by decide +kernel
theorem test_csm_ways : onNext (exec (.csmWays host 5 16) ready) (fun t => (t.cluster 5).csmWays == 16) = true ∧
    onNext (exec (.csmWays host 5 17) ready) (fun t => (t.cluster 5).csmWays == 0) = true := by decide +kernel
theorem test_routing_entry : onNext (exec (.routingEntryWrite host 0x5123 0x8001) ready) (fun t => t.mask 0x5123 == 0x8001 && t.mask 0x5122 == 0) = true := by decide +kernel
theorem test_err_cons_not_past_the_producer : onNext (exec (.errCons host 3) { ready with errProd := 3 }) (fun t => t.errCons == 3) = true ∧
    onNext (exec (.errCons host 4) { ready with errProd := 3 }) (fun t => t.errCons == 0) = true := by decide +kernel
theorem test_write_off_the_boundary : onNext (exec (.registerWrite host 0x4001 3000) ready) (fun t => t.power.capNext == none) = true := by decide +kernel
theorem test_commit_of_the_channel_only : onNext (exec (.commit host 40 true) ready) (fun t => (t.channel 40).commit && !(t.channel 41).commit) = true := by decide +kernel
theorem test_head_of_an_undefined_ring : onNext (exec (.head host 7 5) ready) (fun t => (t.cring 7).head == 0) = true := by decide +kernel
theorem test_head_within_the_ring : onNext (exec (.head host 7 2) { ready with crings := [(7, { CRing.reset with defined := true, log := 6, tail := 2 })] }) (fun t => (t.cring 7).head == 2) = true ∧
    onNext (exec (.head host 7 3) { ready with crings := [(7, { CRing.reset with defined := true, log := 6, tail := 2 })] }) (fun t => (t.cring 7).head == 0) = true := by decide +kernel

/-! ### The management bus (R512 to R516) -/

/-- A READY module with a dynamic address. -/
def addressed : State := { ready with pm := { ready.pm with da := some 9 } }

/-- What the last answer of the bus is. -/
def lastSent (t : State) : Option Sent := t.sent.getLast?

theorem test_bus_off_is_silent : onNext (exec .getbcr { addressed with pm := { addressed.pm with st := .off } }) (fun t => t.sent == []) = true := by decide +kernel
theorem test_entdaa_once : onNext (exec (.entdaa 0x31) ready) (fun t => t.pm.da == some 0x31 && onNext (exec (.entdaa 0x32) t) fun u => u.pm.da == some 0x31) = true := by decide +kernel
theorem test_identity : onNext (exec .getbcr addressed) (fun t => lastSent t == some (.i3c true [0x0E])) = true ∧ onNext (exec .getbcr ready) (fun t => t.sent == []) = true := by decide +kernel
theorem test_rstact : onNext (exec (.rstact 1) addressed) (fun t => t.pm.rstact == 1) = true ∧ onNext (exec (.rstact 2) addressed) (fun t => lastSent t == some (.i3c false [])) = true := by decide +kernel
theorem test_max_lengths : onNext (exec (.setmwl 257) addressed) (fun t => t.pm.mwl == 256 && onNext (exec .getmwl t) fun u => lastSent u == some (.i3c true [1, 0])) = true := by decide +kernel
theorem test_sensor_in_standby : onNext (exec (.getSensorReading 3) { addressed with pm := { addressed.pm with st := .standby } }) (fun t => lastSent t == some (.pldm (.reading 3 none))) = true ∧
    onNext (exec (.getSensorReading 21) addressed) (fun t => lastSent t == some (.pldm .error)) = true := by decide +kernel
theorem test_bus_register_reads : onNext (exec (.regRead 0x4000 1) addressed) (fun t => lastSent t == some (.pldm (.words [5000]))) = true ∧
    onNext (exec (.regRead 0x4000 17) addressed) (fun t => lastSent t == some (.pldm .invalidData)) = true := by decide +kernel
theorem test_bus_register_write : addressed.busReaches 0x4000 = true ∧ onNext (exec (.regWrite 0x4000 [2400]) addressed) (fun t => t.power.capNext == some 2400 && lastSent t == some (.pldm .success)) = true := by
  decide +kernel
theorem test_event_of_new_records : onNext (exec .platformEventMessage { addressed with errProd := 1 }) (fun t => t.pm.evProd == 1 && t.sent.length == 1 &&
    onNext (exec .platformEventMessage t) fun u => u == t) = true := by decide +kernel

/-- Requested update of slot B. -/
def updating (n : Nat) (e : Bool) : State := { addressed with pm := { addressed.pm with update := some ⟨1, n, e⟩ } }

theorem test_update_taken : onNext (exec .requestUpdate addressed) (fun t => t.pm.update == some ⟨1, 0, false⟩) = true := by decide +kernel
theorem test_fourth_stage : onNext (exec (.slotImageStage true 0 ⟨7, [], [1, 2]⟩) (updating 3 false)) (fun t => t.pm.update == some ⟨1, 4, false⟩ && t.pm.slotB.length == State.reset.pm.slotB.length + 1) = true := by
  decide +kernel
theorem test_activate_needs_four_stages : onNext (exec .activateFirmware (updating 4 false)) (fun t => t.pm.pref == 1 && t.pm.actPending) = true ∧
    onNext (exec .activateFirmware (updating 3 false)) (fun t => t.pm.pref == 0 && t.pm.update == some ⟨1, 3, false⟩) = true ∧
    onNext (exec .activateFirmware (updating 4 true)) (fun t => t.pm.pref == 0) = true := by decide +kernel
theorem test_bad_stage_ends_the_update : onNext (exec (.slotImageStage false 0 ⟨7, [], []⟩) (updating 3 false)) (fun t => t.pm.update == some ⟨1, 3, true⟩ && lastSent t == some (.pldm .verifyFailed)) = true := by
  decide +kernel
theorem test_access_port_by_life_cycle : onNext (exec .testAccessPort { ready with sec := { ready.sec with lcBits := [] } }) (fun t => lastSent t == some (.tdo true)) = true ∧
    onNext (exec .testAccessPort { ready with sec := { ready.sec.toLife 2 with q := 0 } }) (fun t => lastSent t == some (.tdo false)) = true := by decide +kernel

/-! ### Power, boot, grants and the governor (chapters 14 and 17) -/

/-- A module in the state `st`. -/
def inState (st : PmState) : State := { State.reset with ltime := 5, pm := { State.reset.pm with st := st } }

theorem test_input_rise : onNext (exec (.inputRise true) (inState .off)) (fun t => t.pm.st == .standby && t.ltime == 0 && t.isRoot) = true ∧
    onNext (exec (.inputRise true) (inState .ready)) (fun t => !t.isRoot) = true := by decide +kernel
theorem test_undervolt_stops : onNext (exec .undervolt (inState .ready)) (fun t => t.pm.st == .standby && t.pm.cause == .undervolt && t.pm.inputBad) = true := by decide +kernel
theorem test_mod_en_low_boots : onNext (exec (.modEnSample false 0 5400 0 []) (inState .standby)) (fun t => t.pm.st == .booting && t.pm.step == 3 && t.ltime == 1000000) = true := by decide +kernel
theorem test_thermal_wait : ({ inState .standby with pm := { (inState .standby).pm with thermalAt := some 0 }, ltime := 59999999999 } : State).mayLeave true false = false ∧
    ({ inState .standby with pm := { (inState .standby).pm with thermalAt := some 0 }, ltime := 60000000000 } : State).mayLeave true false = true ∧
    ({ inState .standby with pm := { (inState .standby).pm with thermalAt := some 0 }, ltime := 60000000000 } : State).mayLeave false false = false := by decide +kernel
theorem test_pm_stop_sampled : onNext (exec (.modEnSample false 0 5400 0 []) { inState .ready with pm := { (inState .ready).pm with stop := true } }) (fun t => t.pm.st == .standby && t.pm.cause == .stop) = true := by
  decide +kernel
theorem test_boot_overrun : onNext (exec (.bootStepOverrun []) { inState .booting with pm := { (inState .booting).pm with step := 5 } }) (fun t => t.pm.st == .failed && t.pm.cause == .notReady) = true := by
  decide +kernel
theorem test_rail_of_the_always_on_island : onNext (exec (.railFault 37 0) (inState .ready)) (fun t => t.pm.st == .failed && t.pm.cause == .level5) = true ∧
    onNext (exec (.railFault 5 0) (inState .standby)) (fun t => t.pm.st == .standby && t.errProd == 0) = true := by decide +kernel

/-- Partition 0 on cluster 0 with all the power, and core 0 with a matrix instruction in its queue. -/
def powered : State := { multiplying .mma with
  parts := [(0, { Partition.reset with inUse := true, lay := ⟨[0], [0], [(0, 0)], 16, 8, 0, 65536, [], false, []⟩ })]
  cpw := [(0, { ClusterPower.reset with temp := 40 })]
  power := { PowerCtl.reset with vop := [(0, 60)] } }

theorem test_grant_slot : onNext (exec (.grantSlot 0) powered) (fun t => (t.cpower 0).grants.length == 1 && (t.cpower 0).grants.all fun u => (powered.clusterUnits 0).contains u) = true := by decide +kernel
theorem test_release_of_an_idle_unit : (powered.clusterUnits 0).contains 19 = false ∧ onNext (exec (.grantRelease 0 19) (powered.modCpower 0 fun k => { k with grants := [19, 0] })) (fun t =>
    (t.cpower 0).grants == [0]) = true := by decide +kernel
theorem test_rail_backstop_limit : onNext (exec (.railBackstop 1 6239) ready) (fun t => t.power.backstop == 0) = true ∧ onNext (exec (.railBackstop 1 6240) ready) (fun t => t.power.backstop == 1 && Tbl.get 0 t.power.halved 1 == 10000) = true := by
  decide +kernel
theorem test_input_backstop : onNext (exec (.inputBackstop 10950) ready) (fun t => t.power.backSteps == 1 && onNext (exec (.inputBackstop 10499) t) fun u => u.power.backResume == some 1000000) = true := by decide +kernel
theorem test_droop_and_its_end : onNext (exec (.droop 3) ready) (fun t => (t.cpower 3).stretched && (t.cpower 3).droop == 1 && onNext (exec (.droopEnd 3) t) fun u => !(u.cpower 3).stretched) = true := by decide +kernel
theorem test_thermal_step_limits : onNext (exec (.thermalSensorRead [(3, 95)] [] []) ready) (fun t => (t.cpower 3).nT == 1) = true ∧ onNext (exec (.thermalSensorRead [(3, 94)] [] []) ready) (fun t => (t.cpower 3).nT == 0) = true ∧
    onNext (exec (.thermalSensorRead [(3, 105)] [] []) ready) (fun t => t.power.emergency == [0] && t.stepOf 1 == 19) = true := by decide +kernel
theorem test_governor_tick_takes_the_cap : onNext (exec (.governorTick 0) { powered with power := { powered.power with capNext := some 2100 } }) (fun t => t.power.cap == 2100 && t.power.capNext == none) = true := by
  decide +kernel
theorem test_energy_hypotheses : (⟨0, 0, [(0, 5)], 100⟩ : EnergyAct).ctx = 0 ∧ ((mapped []).ctx (1 : BitVec 16).toNat).state ≠ .free ∧
    ((mapped []).forme ((mapped []).ctx (1 : BitVec 16).toNat).forme).map (fun f => f.switching) = some none ∧ ((mapped []).forme ((mapped []).ctx 0).forme).isNone = true := by
  decide +kernel
/-- Contexts 1 and 2 of jobs 0 and 5 share partition 0, and forme 7 switches from the one to the other. -/
def betweenJobs : State := { mapped [] with
  formes := [{ Forme.blank 7 with running := some 0, switching := some (5, [0]) }]
  ctxs := [(1, { Context.reset with state := .live, forme := 7, part := 0 }), (2, { Context.reset with state := .live, forme := 7, job := 5, part := 0 })] }
theorem test_gang_switch_energy_hypotheses : (betweenJobs.ctx 1).state ≠ .free ∧ (betweenJobs.forme 7).map (fun f => (f.switching.map (fun w => w.1), f.running)) = some (some 5, some 0) ∧
    (betweenJobs.ctx 1).job = 0 ∧ ((betweenJobs.jobCtxs 7 5).find? fun e => e.2.part == 0) = some (2, betweenJobs.ctx 2) ∧ betweenJobs.switchPartner 1 = some 2 := by decide +kernel
/-- Of a VL0 packet, a data packet and a transit packet that wait, VL0 leaves first; then the injected and the transit packet take turns (R465). -/
theorem test_arbitration :
    let p (t : BitVec 8) (c : BitVec 3) (m : BitVec 16) : Packet := { blank t 1 [0] with cls := c, srcMod := m }
    let heads (a b : Nat) := [(0, p 2 1 0), (49, p 2 2 9), (a, p 0x10 0 0), (b, p 2 7 0)]
    (LinkArb.reset.choose 0 (fun _ => 4) (heads 49 48)).map (fun (r : LinkArb × Packet) => r.2.vl) = some 0 ∧
    ({ LinkArb.reset with vl0 := 4, all := 20, at_ := 48 }.choose 0 (fun _ => 4) (heads 49 48)).map (fun (r : LinkArb × Packet) => r.2.vl) = some 3 ∧
    ({ LinkArb.reset with vl0 := 4, all := 20 }.choose 100 (fun _ => 4) (heads 49 48)).map (fun (r : LinkArb × Packet) => r.2.vl) = some 1 ∧
    ({ LinkArb.reset with vl0 := 4, all := 20, turn := 32 }.choose 0 (fun _ => 4) (heads 49 48)).map (fun (r : LinkArb × Packet) => (r.2.vl, r.1.transit)) = some (4, true) := by decide +kernel

/-! ### Commands of queues (chapters 08, 10 and 13) -/

/-- A waiting command of opcode `opc`, its arguments from word 5. -/
def cmd (opc : Word64) (args : List Word64) : Cmd := ⟨0, [opc, 0, 0, 0, 0] ++ args, [], 0, .waiting, true, 0, 0, none, false, false, false, false, none, [], [], false, 0⟩

/-- Queue 1 of context 1, and the admin queue, with a command each. -/
def queued (c a : Cmd) : State := { mapped [] with
  queues := [(0, { Queue.reset with cmds := [a], nextPlace := 1 }), (1, { Queue.reset with inUse := true, ctx := 1, ringLog := 6, ringBase := 0x1000, gen := 3, cmds := [c], nextPlace := 1 })]
  fences := [(5, { Fence.reset with value := 10, state := .live, owner := 1 })] }

/-- A command of queue 1 beside a NOP of the admin queue. -/
def asked (c : Cmd) : State := queued c (cmd 0 [])

/-- Whether queue `q` holds no command any more. -/
def ended (q : Nat) (t : State) : Bool := (t.queue q).cmds == []

/-- STATUS and DETAIL of the completion that waits last in ring 0 (Table 10-6). -/
def status (t : State) : Option (Nat × Nat) :=
  match (t.cring 0).waiting.getLast? with
  | some g => (g.entries.head?).map fun e => (bits (e.getD 0 0).toNat 7 0, bits (e.getD 1 0).toNat 31 16)
  | none => none

theorem test_command_hypotheses : (asked (cmd 0 [])).takes 1 0 (cmd 0 []) ∧ (asked (cmd 0 [])).takesNone 1 7 := by unfold State.takes State.takesNone; decide +kernel
theorem test_nop_completes : onNext (exec (.cmdNop 1) (asked (cmd 0 []))) (fun t => ended 1 t && status t == some (0, 0)) = true := by decide +kernel
theorem test_heartbeat_completes : onNext (exec (.heartbeat 0) (queued (cmd 0 []) (cmd 7 []))) (fun t => ended 0 t && status t == some (0, 0)) = true := by decide +kernel
theorem test_session_open_bad_bulk : onNext (exec (.sessionOpen 1) (asked { cmd 0x50 [] with bulk := some [1, 0, 0, 0] })) (fun t => status t == some (7, 0x2E)) = true := by decide +kernel
theorem test_session_close_outside : onNext (exec (.sessionClose 1) (asked (cmd 0x51 [0x41]))) (fun t => status t == some (5, 0)) = true := by decide +kernel

/-- Handle 0x41 is a session opened at 100 ns. -/
def sessioned (c : Cmd) : State := { asked c with
  keys := [(2, { KeyEntry.reset with engines := 1, type := .partition, valid := true }), (0x41, { KeyEntry.reset with type := .session, valid := true })], sessions := [(0x41, ⟨100, 1, [], []⟩)] }

theorem test_session_closes : ((sessioned (cmd 0x51 [0x41])).session 0x41).isSome = true ∧
    onNext (exec (.sessionClose 1) (sessioned { cmd 0x51 [0x41] with session := 0x41 })) (fun t => status t == some (0, 0) && !(t.key 0x41).valid) = true := by decide +kernel
theorem test_session_in_use : onNext (exec (.sessionClose 1) { sessioned { cmd 0x51 [0x41] with session := 0x41 } with ctxs := [(1, { Context.reset with state := .live, session := 0x41 })] })
    (fun t => status t == some (7, 0x37) && (t.key 0x41).valid) = true := by decide +kernel
theorem test_session_expires : onNext (exec (.sessionExpiry 0x41) (sessioned (cmd 0 []))) (fun t => t.session 0x41 == none && t.ltime == 60000000100) = true := by decide +kernel
/-- A MEM key under handle 0x50, for engine bit 0. -/
theorem test_key_installed : onNext (exec (.keyInstall 1) (sessioned { cmd 0x52 [0x14050, 0, 0] with session := 0x41 })) (fun t => status t == some (0, 0) && (t.key 0x50).type == .mem && (t.key 0x50).valid &&
    (t.key 0x50).owner == 1 && (t.key 0x50).engines == 1) = true := by decide +kernel
theorem test_key_install_refused : onNext (exec (.keyInstall 1) (sessioned { cmd 0x52 [0x14041, 0, 0] with session := 0x41 })) (fun t => status t == some (7, 0x30)) = true ∧
    onNext (exec (.keyInstall 1) (sessioned { cmd 0x52 [0x1403F, 0, 0] with session := 0x41 })) (fun t => status t == some (7, 0x32)) = true ∧
    onNext (exec (.keyInstall 1) (sessioned { cmd 0x52 [0x2014050, 0, 0] with session := 0x41 })) (fun t => status t == some (6, 0)) = true ∧
    onNext (exec (.keyInstall 1) (sessioned (cmd 0x52 [0x14050, 0, 0]))) (fun t => status t == some (5, 0)) = true := by decide +kernel

/-- Context 1 owns a MEM key under 0x50 with share list 1, and window 4 under it. -/
def keyed (c : Cmd) : State := { asked { c with session := 0x41 } with
  keys := [(2, { KeyEntry.reset with engines := 1, type := .partition, valid := true }), (0x50, { KeyEntry.reset with type := .mem, valid := true, owner := 1, share := 1, engines := 1 })]
  shares := [(1, ⟨0x50, [3]⟩)]
  parts := [(0, { (mapped []).part 0 with allocs := [⟨0x4000, 0x4000, 1, .heap 0⟩], windows := [(4, ⟨0x4000, 0x1000, 0x50, 1⟩)] })] }

theorem test_key_destroyed : (keyed (cmd 0x53 [0x50])).keyRefusal 1 0x50 = 0 ∧ onNext (exec (.keyDestroy 1) (keyed (cmd 0x53 [0x50]))) (fun t => !(t.key 0x50).valid && t.shares == [] && (t.key 2).valid) = true := by decide +kernel
theorem test_key_of_another : onNext (exec (.keyDestroy 1) (keyed (cmd 0x53 [2]))) (fun t => status t == some (7, 0x33) && (t.key 2).valid) = true := by decide +kernel
theorem test_share_sets : onNext (exec (.shareSetAdd 1) (keyed { cmd 0x54 [0x9050, 0, 0] with second := [0x300000003, 8] })) (fun t => status t == some (0, 0) && t.shares == [(1, ⟨0x50, [3]⟩)]) = true ∧
    onNext (exec (.shareSetReplace 1) (keyed { cmd 0x54 [0x8050, 0, 0] with second := [0x800000007] })) (fun t => t.shares == [(1, ⟨0x50, [7, 8]⟩)]) = true ∧
    onNext (exec (.shareSetRemove 1) (keyed { cmd 0x54 [0x6050, 0, 0] with second := [3] })) (fun t => t.shares == [(1, ⟨0x50, []⟩)]) = true := by decide +kernel
theorem test_window_installed : onNext (exec (.windowInstall (.queue 1 none)) (keyed (cmd 0x55 [0x5005, 0x5000, 0x1000]))) (fun t => status t == some (0, 0) &&
    Tbl.find (t.part 0).windows 5 == some ⟨0x5000, 0x1000, 0x50, 1⟩) = true := by decide +kernel
theorem test_window_overlaps : onNext (exec (.windowInstall (.queue 1 none)) (keyed (cmd 0x55 [0x5005, 0x4000, 0x2000]))) (fun t => status t == some (7, 0x34)) = true := by decide +kernel
theorem test_window_removed : onNext (exec (.windowRemove (.queue 1 none)) (keyed (cmd 0x55 [0x5044, 0, 0]))) (fun t => status t == some (0, 0) && (t.part 0).windows == []) = true := by decide +kernel

/-- A token of operation `op` for the serial number 0 (Table 13-4). -/
def token (op : Byte) : List Byte := [0x4C, 0x54, 0x4F, 0x4B, 1, op] ++ List.replicate 266 0

/-- The command in life-cycle state `lc`. -/
def living (op : Byte) (lc : Nat) : State := { asked { cmd 0x57 [] with bulk := some (token op) } with sec := { Security.reset.toLife lc with q := 0 } }

theorem test_life_cycle_forward : onNext (exec (.provision 1 true) (living 1 0)) (fun t => t.sec.lc == 1) = true ∧ onNext (exec (.provision 1 false) (living 1 0)) (fun t => t.sec.lc == 0) = true ∧
    onNext (exec (.claim 1 true) (living 2 0)) (fun t => t.sec.lc == 0 && status t == some (7, 0x39)) = true := by decide +kernel
theorem test_scrap_from_return : onNext (exec (.scrap 1 true) (living 4 3)) (fun t => t.sec.lc == 4) = true ∧ onNext (exec (.reprovision 1 true) (living 5 2)) (fun t => t.sec.gen1) = true := by decide +kernel
theorem test_svn_only_rises : onNext (exec (.svnCommit 1) { asked (cmd 0x58 []) with sec := { Security.reset with svn := 2, svnRun := 3 } }) (fun t => t.sec.svn == 3) = true ∧
    onNext (exec (.svnCommit 1) { asked (cmd 0x58 []) with sec := { Security.reset with svn := 3, svnRun := 3 } }) (fun t => status t == some (7, 0x3A)) = true := by decide +kernel
theorem test_attest_needs_leaves : onNext (exec (.attest 1) { asked { cmd 0x56 [] with bulk := some (List.replicate 48 0) } with sec := { Security.reset with colophons := bootColophons } })
    (fun t => status t == some (7, 0x38)) = true := by decide +kernel
theorem test_nothing_to_seal : onNext (exec .packetSeal (asked (cmd 0 []))) (fun t => t.egress == [] && t.sent == []) = true := by decide +kernel

/-! ### Fetching, contexts and queues -/

/-- A NOP with tag 9 at index 0 of the admin ring, and TAIL 1. -/
def rung : State := { mapped [] with adminEn := true, adminOn := true, recordArea := Mem.writeLE [] 4 1 9, queues := [(0, { Queue.reset with inUse := true, tail := 1 })] }

theorem test_fetch_hypotheses : rung.fetchQuiesced 0 = false ∧ (rung.ringEntry 0 0).isSome = true ∧ (rung.ringEntries 0 0 1).isSome = true ∧ knownOpc 0 = true ∧ adminOnly 1 = true ∧ contextOnly 0x11 = true := by decide +kernel
theorem test_fetch : onNext (exec (.commandFetch 0) rung) (fun t => (t.queue 0).head == 1 && (t.queue 0).cmds.map (fun c => (c.opc, c.tag)) == [(0, 9)] && onNext (exec (.commandFetch 0) t) fun u => u == t) = true := by
  decide +kernel
theorem test_fetch_keeps_the_connection : onNext (exec (.commandFetch 0) (rung.ring 0 2 3 |>.ring 0 3 4)) (fun t =>
    (t.queue 0).cmds.map (fun c => c.conn) == [3] && (t.queue 0).rings == [(2, 3), (3, 4)] && (t.queue 0).rungBy 2 == 4) = true := by decide +kernel
theorem test_admin_en_acts_at_a_doorbell : (({ rung with adminEn := false } : State).ring 0 5 1).queue 0 = rung.queue 0 ∧
    onNext (exec (.commandFetch 0) ({ rung with adminEn := false }.ring 0 5 1)) (fun t => (t.queue 0).cmds == []) = true ∧
    onNext (exec (.commandFetch 0) { rung with adminEn := false }) (fun t => (t.queue 0).cmds.length == 1) = true := by decide +kernel
theorem test_heartbeat_renews_at_its_fetch : onNext (exec (.commandFetch 0) { rung with ltime := 500, recordArea := Mem.writeLE (Mem.writeLE [] 0 1 7) 8 3 0x090001 }) (fun t =>
    (t.ctx 1).leaseStart == 500 && t.hbIgnored == 1 && (t.queue 0).cmds.map (fun c => c.opc) == [7]) = true := by decide +kernel
theorem test_second_command_waits : (queued (cmd 0 []) (cmd 0 [])).startable 1 { cmd 7 [] with place := 1 } = false := by decide +kernel
/-- A command that waits for fence 5 to reach 10, and one for 11. -/
theorem test_waitv : onNext (exec (.waitvSatisfied 1) (asked { cmd 0 [] with words := [0x400, 5, 10, 0, 0], waitMet := false })) (fun t => (t.queue 1).cmds.map (fun c => c.waitMet) == [true]) = true ∧
    onNext (exec (.waitvSatisfied 1) (asked { cmd 0 [] with words := [0x400, 5, 11, 0, 0], waitMet := false })) (fun t => (t.queue 1).cmds.map (fun c => c.waitMet) == [false]) = true := by decide +kernel

/-- The admin queue of a module whose partition 0 is member 0 of forme 7. -/
def admin (c : Cmd) : State := { queued (cmd 0 []) c with
  formes := [{ Forme.blank 7 with epoch := 1, members := [(0, ⟨0, 0, false⟩)], rotation := [0], running := some 0 }]
  crings := [(1, { CRing.reset with defined := true, log := 6 })]
  conns := [(0, { Conn.reset with st := .up })] }

theorem test_create_ctx : onNext (exec (.createCtx ⟨0, []⟩) (admin { cmd 1 [] with second := [7, 3, 0x55, 1 <<< (44 : Nat), 1, 0, 0, 0] })) (fun t => status t == some (7, 0x22)) = true ∧
    onNext (exec (.createCtx ⟨0, []⟩) { admin { cmd 1 [] with second := [7, 3, 0x55, 1 <<< (44 : Nat), 1, 0, 0, 0] } with ctxs := [] }) (fun t =>
      (t.ctx 1).state == .live && (t.ctx 1).seed == 0x55 && (t.ctx 1).job == 3 && (t.ctx 1).leaseMs == 5000 && t.lastCtx == 1) = true ∧
    onNext (exec (.createCtx ⟨0, []⟩) (admin { cmd 1 [] with second := [8, 3, 0, 0] })) (fun t => status t == some (7, 0x2C)) = true ∧
    onNext (exec (.createCtx ⟨0, []⟩) (admin { cmd 1 [] with second := [0x1000000000007, 3, 0, 0] })) (fun t => status t == some (7, 0x2E)) = true := by decide +kernel
theorem test_create_queue : onNext (exec (.createQueue 0) ((admin (cmd 3 [0x60001, 0x2000, 1])).modPart 0 fun q => { q with allocs := [⟨0x2000, 0x1000, 1, .save 0⟩] })) (fun t => (t.queue 2).inUse && (t.queue 2).ctx == 1 && (t.queue 2).gen == 1 && (t.queue 2).ringBase == 0x2000) = true ∧
    onNext (exec (.createQueue 0) (admin (cmd 3 [0x60001, 0x2000, 1]))) (fun t => status t == some (7, 0x28)) = true ∧
    onNext (exec (.createQueue 0) (admin (cmd 3 [0x60001, 0x2001, 1]))) (fun t => status t == some (7, 0x28)) = true ∧
    onNext (exec (.createQueue 0) (admin (cmd 3 [0x50001, 0x2000, 0]))) (fun t => status t == some (7, 0x2E)) = true ∧
    onNext (exec (.createQueue 0) (admin (cmd 3 [0x60009, 0x2000, 0]))) (fun t => status t == some (3, 0)) = true := by decide +kernel
theorem test_destroy_queue : onNext (exec (.destroyQueue 0) (admin (cmd 4 [1]))) (fun t => (t.queue 1).closing && (t.queue 1).cmds.length == 1 &&
      (t.ring 1 0x30001 0).staleDb == t.staleDb + 1 && onNext (exec (.cmdNop 1) t) fun u => !(u.queue 1).inUse && (u.queue 1).gen == 3) = true ∧
    onNext (exec (.destroyQueue 0) (admin (cmd 4 [0]))) (fun t => status t == some (7, 0x2E)) = true := by decide +kernel
theorem test_destroy_ctx : onNext (exec (.destroyCtx 0) (admin (cmd 2 [1]))) (fun t => (t.ctx 1).state == .tearing && (t.core 0).ctl != .running && !t.outstandingOf 1 &&
    onNext (exec (.teardownDrainComplete 1) t) fun u => (u.ctx 1).state == .free && !(u.queue 1).inUse && ended 0 u) = true := by decide +kernel
/-- A core at HALT leaves its RUN, which goes on while another core of it runs. -/
theorem test_program_end_leaves_its_run :
    (let d := { cmd 0x11 [] with run := some ⟨0, 0, 0, [0, 1], [], 0, false, 0⟩ }
     let s := { runningWith (fun k => { k with ctl := .halting }) with queues := [(1, { Queue.reset with inUse := true, cmds := [d], nextPlace := 1 })] }
     !s.queueAway 1 && onNext (exec (.programEnd (.core 0)) s) fun t => (t.core 0).ctl == .ended && ((t.queue 1).cmds.map fun c => c.run.map fun r => r.cores) == [some [1]]) = true := by
  decide +kernel
theorem test_lease_is_here : (admin (cmd 0 [])).holdsLease 1 = true ∧ (admin (cmd 0 [])).ctxAway 1 = false := by decide +kernel
theorem test_lease_expires : onNext (exec (.leaseExpiry 1) (admin (cmd 0 []))) (fun t => (t.ctx 1).state == .tearing) = true ∧ onNext (exec (.leaseExpiry 2) (admin (cmd 0 []))) (fun t => (t.ctx 1).state == .live) = true := by
  decide +kernel
theorem test_loss_releases_imports :
    let s := admin (cmd 0 [])
    onNext (exec (.lossReport 7 0 5) { s with
      fences := [(5, { Fence.reset with state := .live, owner := 2, imports := 2 })]
      ctxs := Tbl.mod Context.reset s.ctxs 1 fun x => { x with imports := [5] } })
      (fun t => (t.fence 5).imports == 1 && (t.ctx 1).imports == []) = true := by decide +kernel
theorem test_loss_reported : onNext (exec (.lossReport 7 0 5) (admin (cmd 0 []))) (fun t => (t.ctx 1).state == .lost) = true ∧ onNext (exec (.lossReport 7 1 5) (admin (cmd 0 []))) (fun t => (t.ctx 1).state == .live) = true := by
  decide +kernel

/-! ### Commands of contexts -/

theorem test_cmd_alloc_and_free : onNext (exec (.cmdAlloc (.queue 1 none)) (asked (cmd 0x12 [0x2000, 0, 0]))) (fun t => status t == some (0, 0) && (t.part 0).allocs.map (fun a => (a.base, a.size)) == [(0x1000, 0x2000)]) = true ∧
    onNext (exec (.cmdFree (.queue 1 none)) (keyed (cmd 0x13 [0x4000, 0, 0]))) (fun t => (t.part 0).allocs == []) = true ∧
    onNext (exec (.cmdFree (.queue 1 none)) (keyed (cmd 0x13 [0x5000, 0, 0]))) (fun t => status t == some (7, 3)) = true := by decide +kernel
theorem test_cmd_on_no_member : onNext (exec (.cmdAlloc (.queue 1 none)) (asked (cmd 0x12 [0x2000, 0x50000, 0]))) (fun t => status t == some (7, 0x2C)) = true := by decide +kernel
theorem test_member_order : onNext (exec (.cmdAlloc (.order ⟨7, 0, 0, 0x12, [0x2000, 0, 0], [], 0⟩)) (asked (cmd 0 []))) (fun t => (t.part 0).allocs.length == 1 && t.sent.length == 1) = true := by decide +kernel
/-- REGION, its descriptor in the second entry: base, length and RO. -/
theorem test_regions : onNext (exec (.regionInstall (.queue 1 none)) (asked { cmd 0x14 [0, 0, 0] with second := [0x4000, 0x1000, 4, 0] })) (fun t => status t == some (0, 0) &&
      (t.part 0).regions.map (fun r => (r.base, r.length, r.ro, r.owner)) == [(0x4000, 0x1000, true, 1)]) = true ∧
    onNext (exec (.regionInstall (.queue 1 none)) (asked { cmd 0x14 [0, 0, 0] with second := [0x4000, 0x1000, 8, 0] })) (fun t => status t == some (7, 0x29)) = true ∧
    onNext (exec (.regionRemove (.queue 1 none)) (asked { cmd 0x14 [2, 0, 0] with second := [0x4000] })) (fun t => status t == some (7, 0x29)) = true := by decide +kernel
theorem test_fence_create : onNext (exec (.fenceCreate 1) (asked (cmd 0x18 [0xFFFFF, 77, 0]))) (fun t => (t.fence 0xFFFFF).value == 77 && (t.fence 0xFFFFF).state == .live && (t.fence 0xFFFFF).owner == 1) = true ∧
    onNext (exec (.fenceCreate 1) (asked (cmd 0x18 [0x100000, 77, 0]))) (fun t => status t == some (7, 3)) = true ∧ onNext (exec (.fenceCreate 1) (asked (cmd 0x18 [5, 77, 0]))) (fun t => status t == some (7, 0x25)) = true := by
  decide +kernel
theorem test_fence_retire : onNext (exec (.fenceRetire 1) (asked (cmd 0x19 [5, 0, 0]))) (fun t => (t.fence 5).state == .free && status t == some (0, 0)) = true ∧
    onNext (exec (.fenceRetire 1) { asked (cmd 0x19 [5, 0, 0]) with fences := [(5, { Fence.reset with state := .live, owner := 1, imports := 1 })] }) (fun t => status t == some (7, 0x26)) = true := by decide +kernel
theorem test_fence_import_and_release : onNext (exec (.fenceImport (.queue 1 none)) (asked (cmd 0x1A [5, 0, 0]))) (fun t => (t.fence 5).imports == 1 && (t.ctx 1).imports == [5] &&
    onNext (exec (.fenceRelease 1) { t with queues := (asked (cmd 0x1B [5, 0, 0])).queues }) fun u => (u.fence 5).imports == 0 && (u.ctx 1).imports == []) = true := by decide +kernel
theorem test_fence_signal_commands : onNext (exec (.fenceSignal 1) (asked (cmd 0x1C [5, 12, 0]))) (fun t => (t.fence 5).value == 12) = true ∧ onNext (exec (.fenceSignalAdd 1) (asked (cmd 0x1C [5, 12, 1]))) (fun t => (t.fence 5).value == 22) = true ∧
    onNext (exec (.fenceSignal 1) (asked (cmd 0x1C [6, 12, 0]))) (fun t => status t == some (7, 3)) = true := by decide +kernel
/-- Instance 9 of hub 0 expects 4096 arrivals; 4097 is out of range. -/
theorem test_bar_config : onNext (exec (.barConfig 1) (asked (cmd 0x1D [0x4000009, 0, 0]))) (fun t => (t.bar 0 9).conf && (t.bar 0 9).expect == 4096 && (t.bar 0 9).owner == 1 &&
      onNext (exec (.barRemove 1) { t with queues := (asked (cmd 0x1E [9, 0, 0])).queues }) fun u => !(u.bar 0 9).conf) = true ∧
    onNext (exec (.barConfig 1) (asked (cmd 0x1D [0x4004009, 0, 0]))) (fun t => status t == some (7, 0x2E)) = true := by decide +kernel
theorem test_set_sched : onNext (exec (.setSched 0) (admin (cmd 6 [7, 1000, 0]))) (fun t => (t.formes.map fun f => f.newQuantum) == [some 1000]) = true ∧
    onNext (exec (.setSched 0) (admin (cmd 6 [7, 1001, 0]))) (fun t => status t == some (7, 0x2E)) = true ∧ onNext (exec (.setSched 0) (admin (cmd 6 [8, 10, 0]))) (fun t => status t == some (7, 0x2C)) = true := by decide +kernel
theorem test_compose_of_a_bad_plan : onNext (exec (.compose 0) (admin { cmd 5 [] with bulk := some [9] })) (fun t => ended 0 t && (status t).map (·.1) == some 7) = true := by decide +kernel

/-! ### Images, runs and the gang switch -/

theorem test_load_image_format : onNext (exec (.loadImage (.queue 1 none) ⟨[], 0⟩) { admin (cmd 0 []) with queues := (asked { cmd 0x10 [] with bulk := some [1, 2] }).queues }) (fun t => status t == some (7, 1)) = true := by decide +kernel

/-- Job 0 of forme 7 with an image of four virtual cores, its code in place, and the RUN `c`. -/
def running0 (c : Cmd) : State := { admin (cmd 0 []) with
  queues := (asked c).queues
  cores := []
  jobs := [{ Job.blank 7 0 with digest := some 3 }]
  parts := [(0, { (mapped []).part 0 with residency := some ⟨3, 4, 4, 0, false, 0, 0, 0, 0, 0, 0, 0⟩ })] }

/-- Virtual cores 0 to 3 from bundle 2 with ARG 0x99: ARG0 is first and count, ARG1 the entry bundle, ARG2 ARG (Table 10-5). -/
theorem test_run_starts_its_cores : onNext (exec (.run (.queue 1 none) []) (running0 (cmd 0x11 [0x400000000, 2, 0x99]))) (fun t => [0, 1, 2, 3].all fun c =>
    (t.core c).ctl == .running && (t.core c).pc == 2 && (t.core c).xr 1 == 0x99 && (t.core c).xr 3 == 1 && (t.core c).ctx == 1) = true := by decide +kernel
theorem test_run_beyond_the_cores : onNext (exec (.run (.queue 1 none) []) (running0 (cmd 0x11 [0x500000000, 2, 0]))) (fun t => status t == some (7, 0x2C)) = true := by decide +kernel
theorem test_run_without_image : onNext (exec (.run (.queue 1 none) []) { running0 (cmd 0x11 [0x400000000, 2, 0]) with jobs := [Job.blank 7 0] }) (fun t => status t == some (7, 0x2D)) = true := by decide +kernel
theorem test_quantum_without_another_job : onNext (exec (.quantumExpiry 7 []) (running0 (cmd 0x11 [0x400000000, 2, 0]))) (fun t => (t.formes.map fun f => f.running) == [some 0]) = true ∧
    onNext (exec (.quantumExpiry 8 []) ready) (fun t => t == ready) = true := by decide +kernel
theorem test_gang_switch_stops_the_cluster : onNext (exec (.gangSwitch 7 0 2) (admin (cmd 0 []))) (fun t => (t.formes.map fun f => f.switching) == [some (2, [])] && (match (t.core 0).ctl with
    | .stopped _ _ => true
    | _ => false) && onNext (exec (.switchDone 7 0) t) fun u => (u.formes.map fun f => f.running) == [some 2]) = true := by decide +kernel
theorem test_gang_switch_elsewhere : onNext (exec (.gangSwitch 7 5 2) (admin (cmd 0 []))) (fun t => (t.formes.map fun f => f.switching) == [none]) = true := by decide +kernel

/-! ### Changes of a forme (R260 to R284) -/

/-- A plan entry of member `n` in partition 0 of module `fab`. -/
def entry (n fab act : Nat) : PlanEntry := ⟨n, fab, 0, act, false, 1, 1, 2, 2, 0, 0, List.replicate 16 0, false⟩

/-- A change of forme 7 that this module leads, at step `st`. -/
def change (st : ChangeStep) : Change :=
  { Change.start ready 4 { Forme.blank 7 with epoch := 1 } (PlanHeader.unknown 7) [] false none with step := st, parts := [0], mods := [0], master := 0 }

/-- Forme 7, on this module alone, with the change `c`. -/
def changing (c : Change) : State := { mapped [] with
  formes := [{ Forme.blank 7 with epoch := 1, members := [(0, ⟨0, 0, false⟩)], change := some c, membersNew := some (2, [(0, ⟨0, 0, false⟩)]) }] }

/-- A message of this module in change 4 of forme 7. -/
def comp (w4 : Word64) : CompMsg := ⟨0, 0, 0, 2, 7, none, 4, w4, 0, 0, .none⟩

/-- What of the change of forme 7 a test asks. -/
def changeIs (p : Change → Bool) (t : State) : Bool := (t.changeOf 7).any p

/-- Partition 0 of `written` as it moves here from module 3: chunk 0 is HELD. -/
def arriving : State := { written with
  parts := [(0, { written.part 0 with movedFrom := some (3, 0) })]
  formes := written.formes.map fun f => { f with change := some { change .move with moving := true, chunks := [⟨0, 0, .held, false⟩] } } }

theorem test_far_hypotheses : arriving.farSource 0 = true ∧ arriving.resolve 0 1 0x1000 = .layout (arriving.part 0).lay none ∧ arriving.waiting = [] := by decide +kernel
theorem test_write_through_to_another_module : onNext (exec (.channelWrite (req 0x1000) 0xCD) { arriving with routing := [(3, 1)] }) (fun t =>
    (t.waiting.map fun w => w.applied.isSome) == [true] && (t.peerOut.map fun o => (o.mod, o.use)) == [(3, .through 0 0x1000)] && t.sent.length == 1 &&
    (t.throughDone 0).sent.length == 2 && lastLine (t.throughDone 0) == some (0, 0) && (t.throughDone 0).waiting == []) = true := by decide +kernel
theorem test_change_hypotheses : (changing (change .install)).takesComp 0x24 (comp 0) ∧ ((changing (change .install)).counted 0x23 (comp 0)).stepIn 7 .install (fun c => c.mods) = true ∧
    ((changing { change .install with mods := [0, 3] }).counted 0x23 (comp 0)).stepIn 7 .install (fun c => c.mods) = false := by unfold State.takesComp; decide +kernel
theorem test_compositor_message_elsewhere : onNext (exec (.installed { comp 0 with dstMod := 9 }) { changing (change .install) with routing := [(9, 1)] }) (fun t => t.sent.length == 1 && changeIs (fun c => c.step == .install) t) = true := by decide +kernel
theorem test_compositor_reserved_field : onNext (exec (.installed (comp 1)) (changing (change .install))) (fun t => (t.cluster 0).hub.cnt.badmsg == 1 && changeIs (fun c => c.step == .install) t) = true := by decide +kernel
theorem test_admission : onNext (exec (.admitOk (comp 0)) (changing (change .admission))) (fun t => changeIs (fun c => c.step == .install) t) = true ∧
    onNext (exec (.admitOk (comp 0)) (changing { change .admission with parts := [0, 3] })) (fun t => changeIs (fun c => c.step == .admission && c.answered == [0]) t) = true := by decide +kernel
theorem test_refusals : onNext (exec (.admitRefuse { comp 5 with status := 3 }) (changing (change .admission))) (fun t => changeIs (fun c => c.step == .aborting && c.outcome == 1 && c.reason == 3 && c.reasonMember == some 5) t) = true := by
  decide +kernel
theorem test_install : onNext (exec (.install { comp 1 with data := .install [⟨3, 9, 1, true, false⟩] }) (changing (change .install))) (fun t =>
    (t.formes.map fun f => (f.membersNew, f.epoch)) == [(some (2, [(0, ⟨0, 0, false⟩), (3, ⟨9, 1, true⟩)]), 1)]) = true := by decide +kernel
theorem test_installed : onNext (exec (.installed (comp 0)) (changing (change .install))) (fun t => changeIs (fun c => c.step == .switch && c.answered == []) t) = true := by decide +kernel
theorem test_switch_epoch : onNext (exec (.switchEpoch (comp 0)) (changing (change .switch))) (fun t => (t.formes.map fun f => (f.epoch, f.draining, f.membersNew)) == [(2, some 1, none)]) = true := by decide +kernel
theorem test_switched : onNext (exec (.switched (comp 0)) (changing (change .switch))) (fun t => changeIs (fun c => c.step == .drain) t) = true := by decide +kernel

/-- Epoch 1 drains. -/
def draining (c : Change) : State := { changing c with formes := (changing c).formes.map fun f => { f with epoch := 2, draining := some 1 } }

theorem test_drained : (draining (change .drain)).epochBusy 7 1 = false ∧ onNext (exec (.epochDrained 7) (draining (change .drain))) (fun t => changeIs (fun c => c.drainReported) t &&
    onNext (exec (.epochDrained 7) t) fun u => u == t) = true ∧ onNext (exec (.drainLimitExpiry 7) (draining (change .drain))) (fun t => changeIs (fun c => !c.drainReported) t) = true ∧
    onNext (exec (.drained (comp 0)) (draining (change .drain))) (fun t => changeIs (fun c => c.drained == [0] && c.step == .move) t) = true := by decide +kernel
theorem test_move_and_moved : onNext (exec (.move (comp 0) []) (draining (change .move))) (fun t => (t.formes.map fun f => f.draining) == [none] && changeIs (fun c => c.moving) t) = true ∧
    onNext (exec (.moved { comp 0 with data := .moved [⟨0, 1, 2, true⟩] 0 0 }) (draining (change .move))) (fun t => changeIs (fun c => c.step == .quoin && c.decided && c.renumber == [⟨0, 1, 2, true⟩]) t) = true := by decide +kernel
theorem test_sweeper_and_pull : onNext (exec (.sweeper 7) (draining (change .move))) (fun t => changeIs (fun c => c.chunksMoved == 0) t) = true ∧
    onNext (exec (.demandPull 7 0 3) (draining (change .move))) (fun t => t == draining (change .move)) = true ∧
    onNext (exec (.pullComplete 7 0 3 []) (draining (change .move))) (fun t => t == draining (change .move)) = true := by decide +kernel
/-- A chunk with no live page is not read but skipped (R270). -/
theorem test_dead_chunk : onNext (exec (.pullComplete 7 0 0 []) (draining { change .move with chunks := [⟨0, 0, .pulling, true⟩] })) (fun t => changeIs (fun c => c.chunk 0 0 == some .skipped && c.chunksMoved == 0) t) = true := by
  decide +kernel
theorem test_mini_switch : onNext (exec (.msBegin { comp 0x3041 with srcMod := 5 }) { changing (change .move) with routing := [(5, 1)] }) (fun t => changeIs (fun c => c.minis.map (fun k => (k.tag, k.srcMod, k.srcClu, k.dstClu)) == [(3, 5, 1, 1)]) t) = true ∧
    onNext (exec (.msReady (comp 0x3041)) (changing (change .move))) (fun t => t == changing (change .move)) = true ∧
    onNext (exec (.msDone (comp 0x3041)) (changing (change .move))) (fun t => changeIs (fun c => c.minis == []) t && t.answered.length == 1) = true ∧
    onNext (exec (.miniSwitchRestore 7 3 [] []) (changing (change .move))) (fun t => t == changing (change .move)) = true := by decide +kernel
theorem test_quoin_and_release : onNext (exec (.quoin (comp 0) []) (changing (change .quoin))) (fun t => changeIs (fun c => c.quoined) t) = true ∧
    onNext (exec (.quoined (comp 0)) (changing (change .quoin))) (fun t => changeIs (fun c => c.step == .release) t) = true ∧
    onNext (exec (.release (comp 0)) (draining (change .release))) (fun t => (t.formes.map fun f => (f.draining, f.membersOld)) == [(none, [])]) = true ∧
    onNext (exec (.released (comp 0)) (changing (change .release))) (fun t => t.changeOf 7 == none) = true := by decide +kernel
theorem test_composition_timeout : onNext (exec (.compositionTimeout 7 3) (changing { change .install with mods := [0, 3] })) (fun t => changeIs (fun c => c.failedMods == [3]) t) = true ∧
    onNext (exec (.compositionTimeout 7 4) (changing { change .install with mods := [0, 3] })) (fun t => t == changing { change .install with mods := [0, 3] }) = true := by decide +kernel
theorem test_abort : onNext (exec (.abort (comp 1)) (changing (change .move))) (fun t => changeIs (fun c => c.undo) t) = true ∧
    onNext (exec (.abort (comp 0)) (changing (change .install))) (fun t => (t.formes.map fun f => f.membersNew) == [none]) = true ∧
    onNext (exec (.aborted (comp 0)) (changing { change .aborting with outcome := 1 })) (fun t => t.changeOf 7 == none) = true := by decide +kernel
theorem test_member_failed : onNext (exec (.memberFailed (comp 3)) (changing (change .move))) (fun t => (t.formes.map fun f => f.failedMembers) == [[3]]) = true := by decide +kernel
theorem test_forwarded_doorbell : onNext (exec (.fwd { comp 1 with data := .fwdDoorbell 2 }) { changing (change .quoin) with queues := (asked (cmd 0 [])).queues }) (fun t => (t.queue 1).tail == 2) = true := by decide +kernel
theorem test_ack_and_repeat : onNext (exec (.ack (comp 0x27)) { changing (change .move) with unanswered := [⟨0x27, comp 0, 0⟩] }) (fun t => t.unanswered == []) = true ∧
    onNext (exec (.compositorMessageRepeat 0x27 0 7) { changing (change .move) with unanswered := [⟨0x27, comp 0, 0⟩] }) (fun t => t.unanswered.map (fun u => u.sentAt) == [1000000]) = true ∧
    onNext (exec (.compositorMessageRepeat 0x28 0 7) { changing (change .move) with unanswered := [⟨0x27, comp 0, 0⟩] }) (fun t => t.unanswered.map (fun u => u.sentAt) == [0]) = true := by decide +kernel

/-! ### Hidden recovery (R345 to R382) -/

/-- The stream engine 0 of cluster 0. -/
def unit0 : HangUnit := .stream 0 0

/-- A recovery of the channel 100 at level `n`, begun at 100 ns. -/
def climbing (n : Nat) : State := { mapped [] with ladders := [⟨.unit (.channel 100), some (.channel 100), n, 100, none, [], [], false, false, false⟩] }

theorem test_hang_starts_the_ladder : (mapped []).canHang unit0 = false ∧ (mapped []).canHang (.issuer 0 none) = true ∧
    onNext (exec (.hang (.issuer 0 none) []) (mapped [])) (fun t => t.ladders.map (fun l => (l.res, l.level)) == [(.unit (.issuer 0 none), 1)] && t.errProd != 0) = true ∧
    onNext (exec (.hang (.hub 0) []) (mapped [])) (fun t => t.ladders.map (fun l => l.level) == [2]) = true := by decide +kernel
theorem test_ladder_overrun : (climbing 1).ladderOf (.unit (.channel 100)) ≠ none ∧ onNext (exec (.ladderLevelOverrun (.unit (.channel 100))) (climbing 1)) (fun t => t.ltime == 100100 && t.dieFenced == [1] && t.ladders.map (fun l => (l.res, l.level)) == [(.die 1, 4)]) = true ∧
    onNext (exec (.ladderLevelOverrun (.unit (.channel 101))) (climbing 1)) (fun t => t == climbing 1) = true := by decide +kernel
theorem test_ladder_level_ends : onNext (exec (.ladderLevelComplete (.unit (.channel 100)) [] []) (climbing 1)) (fun t => t.ladders == []) = true := by decide +kernel
theorem test_culprit_test : onNext (exec (.culpritTest unit0 true) { mapped [] with culprits := [⟨unit0, [], none, 0, 1⟩] }) (fun t => t.culprits == [⟨unit0, [], none, 0, 1⟩]) = true ∧
    onNext (exec (.culpritTest unit0 true) { mapped [] with culprits := [⟨unit0, [1], some 2, 1, 1⟩] }) (fun t => t.culprits.map (fun k => k.testing) == [some 1]) = true := by decide +kernel

/-- Context 1 asks for an epoch command of its job, which this module masters. -/
def marking (c : Cmd) : State := running0 c

theorem test_epoch_mark : onNext (exec (.epochMark (.queue 1 none)) (marking (cmd 0x41 []))) (fun t => ended 1 t && (t.jobs.map fun j => (j.mark, j.log)) == [(1, [])]) = true := by decide +kernel
theorem test_reserve_and_reset : onNext (exec (.reserve 0) (admin { cmd 0x44 [] with bulk := some [7, 0, 0, 0, 0, 0, 0, 0, 5, 0, 3, 0, 0, 0, 0, 0] })) (fun t => (t.formes.map fun f => f.reserves) == [[⟨5, 3⟩]]) = true ∧
    onNext (exec (.resetPartition 0) (admin (cmd 0x45 [0]))) (fun t => t.ladders.map (fun l => (l.res, l.level)) == [(.part 0, 2)]) = true ∧
    onNext (exec (.resetPartition 0) (admin (cmd 0x45 [48]))) (fun t => status t == some (7, 0x2E)) = true := by decide +kernel
theorem test_fence_off : onNext (exec (.fenceOffChannel 0) (admin (cmd 0x46 [0x15]))) (fun t => (t.channel 5).fenced && status t == some (0, 0)) = true ∧
    onNext (exec (.fenceOffCluster 0 []) (admin (cmd 0x46 [0xC0]))) (fun t => status t == some (7, 0x2E)) = true ∧
    onNext (exec (.fenceOffDie 0) (admin (cmd 0x46 [0xA]))) (fun t => t.ladders.map (fun l => (l.res, l.level)) == [(.die 2, 4)]) = true := by decide +kernel

/-- A recovery message of module 5 about forme 7, member 0, job 0. -/
def rec5 : RecMsg := ⟨0, 5, 0, 7, 0, 0, 0, 1, 0, []⟩

/-- Forme 7 with member 0 on module `k` and member 3 on module `5 - k`; the module of member 0 masters it. -/
def twoModules (k : Nat) (f : Forme → Forme) : State := { mapped [] with
  routing := [(5, 1)], ltime := 900, formes := [f { Forme.blank 7 with epoch := 1, members := [(0, ⟨k, 0, false⟩), (3, ⟨5 - k, 0, false⟩)], peerTimeout := 2 }] }

/-- No copies beside. -/
def noCopy : DeputyCopy := ⟨[], [], entry 0 0 0, none⟩

/-- What of forme 7 a test asks. -/
def formeIs (p : Forme → Bool) (t : State) : Bool := (t.forme 7).any p

theorem test_recovery_hypotheses : (twoModules 5 id).takesRec 1 rec5 ∧ (twoModules 5 id).takesRec 8 { rec5 with status := 1 } ∧ ¬ (twoModules 5 id).takesRec 1 { rec5 with status := 1 } ∧
    (twoModules 5 id).partHere 7 3 = some 0 ∧ (twoModules 5 id).partHere 7 0 = none := by unfold State.takesRec; decide +kernel
theorem test_pulses : onNext (exec (.pulseSend 7 3) (twoModules 5 id)) (fun t => t.sent.length == 1) = true ∧ onNext (exec (.pulse rec5) (twoModules 0 id)) (fun t => formeIs (fun f => f.lastPulse == [(0, 900)]) t && t.sent.length == 1) = true ∧
    onNext (exec (.pulseAns rec5) (twoModules 5 id)) (fun t => formeIs (fun f => f.lastPulseAns == [(0, 900)]) t) = true ∧ onNext (exec (.pulse { rec5 with status := 1 }) (twoModules 5 id)) (fun t => (t.cluster 0).hub.cnt.badmsg == 1) = true := by decide +kernel
theorem test_suspect_and_probe : onNext (exec (.suspect rec5) (twoModules 5 id)) (fun t => formeIs (fun f => f.probe == some (0, 900) && f.askers == [5]) t && t.sent.length == 1 &&
      onNext (exec (.probeAns rec5) t) fun u => formeIs (fun f => f.probe == none && f.askers == []) u && u.sent.length == 2) = true ∧
    onNext (exec (.probe { rec5 with member := 3 }) (twoModules 5 id)) (fun t => t.sent.length == 1) = true ∧ onNext (exec (.probe rec5) (twoModules 5 id)) (fun t => t == twoModules 5 id) = true := by decide +kernel
theorem test_probe_timeout : onNext (exec (.probeTimeout 7 noCopy []) (twoModules 5 id)) (fun t => t == twoModules 5 id) = true ∧
    onNext (exec (.probeTimeout 7 noCopy []) (twoModules 0 fun f => { f with probe := some (3, 1000) })) (fun t => t.ltime == 2001000 && formeIs (fun f => f.failedMembers == [3]) t) = true := by decide +kernel
/-- The master declares member 3 failed 2 ms after its last pulse; member 3 suspects member 0 to the deputy, once the answers fail. -/
theorem test_peer_timeout : onNext (exec (.peerTimeout 7 0 3 noCopy []) (twoModules 0 fun f => { f with lastPulse := [(3, 100)] })) (fun t => t.ltime == 2000100 && formeIs (fun f => f.failedMembers == [3]) t) = true ∧
    onNext (exec (.peerTimeout 7 3 0 noCopy []) (twoModules 5 id)) (fun t => t.ltime == 2000000 && formeIs (fun f => f.frozen) t) = true ∧
    onNext (exec (.peerTimeout 7 3 9 noCopy []) (twoModules 5 id)) (fun t => t == twoModules 5 id) = true := by decide +kernel
theorem test_thaw_rollback_log : onNext (exec (.thaw rec5) (twoModules 5 fun f => { f with frozen := true })) (fun t => formeIs (fun f => !f.frozen) t) = true ∧
    onNext (exec (.rollback rec5) (twoModules 5 id)) (fun t => t.sent.length == 1) = true ∧
    onNext (exec (.rolledBack rec5 []) (twoModules 5 id)) (fun t => t == twoModules 5 id) = true ∧
    onNext (exec (.masterClaim rec5 []) (twoModules 5 id)) (fun t => formeIs (fun f => f.redirect == some (5, 5)) t) = true ∧
    onNext (exec (.log { rec5 with entry := List.replicate 8 0 }) (twoModules 0 id)) (fun t => formeIs (fun f => f.logCopies == [(0, 0, 0, List.replicate 8 0)]) t) = true := by decide +kernel

/-- The block of page 1 is poisoned. -/
def poisoned : State := written.modBlock (0, 8) fun b => { b with poison := true, sealedBy := none, buffered := false }

theorem test_poison_hypotheses : poisoned.locIn (poisoned.part 0).lay 0x1000 = some (0, 8) ∧ poisoned.otherCopy 0 0x1000 = none ∧ (poisoned.part 0).allocOf 0x1000 = none ∧
    onNext (exec (.poisonRestore 0 0x10000) poisoned) (fun t => t == poisoned) = true := by decide +kernel
/-- Outside every allocation nothing is lost: the page is fresh again. -/
theorem test_poison_outside_allocations : onNext (exec (.poisonRestore 0 0x1000) poisoned) (fun t => t.freshAt (0, 8)) = true := by decide +kernel

/-! ### Links (R454 to R473) -/

/-- Link 3 at state `st`. -/
def linked (st : LinkState) : State := ready.modLink 3 fun k => { k with state := st, credits := [(1, 8), (2, 8)] }

/-- What of link 3 a test asks. -/
def linkIs (p : Link → Bool) (t : State) : Bool := p (t.link 3)

theorem test_training : onNext (exec (.linkTraining 3) ready) (linkIs fun k => k.state == .training 1) = true ∧ onNext (exec (.linkTraining 3) (linked (.training 3))) (fun t => linkIs (fun k => k.state == .training 4) t && t.sent.length == 1) = true ∧
    onNext (exec (.train 3 77 2 9 true 5 100) (linked (.training 4))) (linkIs fun k => k.state == .guarding false && k.epoch == 6 && k.partnerMod == 9 && k.partnerLink == 2 && k.rtt == 100) = true ∧
    onNext (exec (.hello 3) (linked (.guarding false))) (linkIs fun k => k.hello) = true ∧ onNext (exec (.linkTraining 3) (linked (.guarding true))) (linkIs fun k => k.state == .up) = true := by decide +kernel
theorem test_proof_refused : onNext (exec (.proof 3 true true 0 0) ((linked (.guarding false)).modLink 3 fun k => { k with hello := true })) (linkIs fun k => k.state == .rejected) = true := by decide +kernel
theorem test_three_failed_trainings : onNext (exec (.trainingStepOverrun 3) (linked (.training 2))) (linkIs fun k => k.state == .training 1 && k.failed == [5000000] && k.stepAt == 5000000) = true ∧
    onNext (exec (.trainingStepOverrun 3) ((linked (.training 2)).modLink 3 fun k => { k with failed := [0, 0] })) (linkIs fun k => k.state == .down && k.waits) = true := by decide +kernel
theorem test_link_down : onNext (exec (.linkDown 3) (linked .up)) (linkIs fun k => k.state == .down && k.record.isSome && k.credits == []) = true ∧ onNext (exec (.linkDown 3) ready) (fun t => t == ready) = true := by decide +kernel

/-- A flit of position `n`. -/
def flit (n : BitVec 12) (good : Bool) : Flit := ⟨true, good, n, 0xFFF, .data, 1, 3, 0, []⟩

theorem test_flits : onNext (exec (.flitReceive 3 (flit 0 true) Told.none) (linked .up)) (linkIs fun k => k.rxPos == 1 && k.credits == [(1, 11), (2, 8)]) = true ∧
    onNext (exec (.flitReceive 3 (flit 0 false) Told.none) (linked .up)) (fun t => linkIs (fun k => k.rxPos == 0 && k.guardFail == 1 && k.nakSent) t && t.sent.length == 1 &&
      onNext (exec (.flitReceive 3 (flit 1 true) Told.none) t) fun u => linkIs (fun k => k.rxPos == 0) u && u.sent.length == 1) = true := by decide +kernel

/-- A READ of one line from module 9 for module 0. -/
def readOf : Packet := { blank 0x01 0 [] with srcMod := 9, hops := 4, formeId := 7, len := 1, addr := 0x1000, epoch := 1 }

theorem test_packet_for_another_module : onNext (exec (.read 3 { readOf with dstMod := 5 }) { linked .up with routing := [(5, 8)] }) (fun t => t.sent.length == 1 && linkIs (fun k => k.retry.length == 1 && k.waiting == []) t) = true ∧
    onNext (exec (.read 3 { readOf with dstMod := 5, hops := 1 }) { linked .up with routing := [(5, 8)] }) (linkIs fun k => k.hopsDrop == 1) = true ∧ onNext (exec (.readResp 3 readOf) (linked .up)) (fun t => t == linked .up) = true := by decide +kernel
theorem test_read_of_no_member_here : onNext (exec (.read 3 readOf) { linked .up with routing := [(9, 8)] }) (fun t => linkIs (fun k => k.waiting.map (fun p => (p.kind, p.status)) == [(4, 6)]) t && t.errProd != 0) = true := by decide +kernel
theorem test_walk_passes_on : onNext (exec (.query 3 { walkBody 2 0 (List.replicate 16 0) with route := 0x30 }) (linked .up)) (fun t => t.sent.length == 1) = true ∧
    onNext (exec (.assign 3 { walkBody 1 0 (List.replicate 16 0) with addr := 6 } false) (linked .up)) (fun t => t.fabAddr == 6 && t.fabV) = true := by decide +kernel
theorem test_walk_at_the_root : onNext (exec (.queryTimeout [3]) { linked .up with walk := { Walk.reset with wstatus := 1, queries := [⟨[3], 0, 1, 50⟩] } }) (fun t => t.ltime == 1000050 && t.walk.queries.map (fun q => q.tries) == [2]) = true ∧
    onNext (exec (.queryAns { walkBody 1 0 (List.replicate 16 0) with route := 3, serial := 8, walkId := 0 }) { linked .up with walk := { Walk.reset with wstatus := 1, queries := [⟨[3], 0, 1, 50⟩] } }) (fun t =>
      t.walk.nodes.map (fun n => n.serial) == [8] && t.walk.queries == []) = true := by decide +kernel

/-! ### The Ethernet host attachment (R476 to R491) -/

/-- Ports 0 and 4 are up; connection 0 is up on both, with key tag 6 and last PSEQ 20. -/
def attached (f : Conn → Conn) : State := { ready with
  ports := [(0, { Port.reset with up := true, mode := 1, ipv4 := 7, ipv4V := true }), (4, { Port.reset with up := true, mode := 3 })]
  conns := [(0, f { Conn.reset with st := .up, keytag := 6, lastPseq := some 20, rates := [⟨400000, 400000, none, 0, none⟩] })] }

/-- A service message with every word zero. -/
def svc : SvcMsg := ⟨0, 0, 0, 0, 0, 0, 0, 0, 0, 0⟩

/-- What of connection 0 a test asks. -/
def connIs (p : Conn → Bool) (t : State) : Bool := p (t.conn 0)

theorem test_ports : onNext (exec (.autoNegotiation 0 0x3F true) ready) (fun t => (t.port 0).up && (t.port 0).mode == 1) = true ∧ onNext (exec (.autoNegotiation 0 0x3F false) ready) (fun t => (t.port 0).mode == 3 && (t.port 0).lane1Fail) = true ∧
    onNext (exec (.portDown 0) (attached id)) (fun t => !(t.port 0).up && connIs (fun c => c.failA && c.switching.isSome) t) = true ∧ onNext (exec (.arp 0 7) (attached id)) (fun t => t.sent.length == 1) = true ∧
    onNext (exec (.arp 0 8) (attached id)) (fun t => t == attached id) = true := by decide +kernel
theorem test_conn_req : onNext (exec (.connReq 0 { svc with w5 := 3 }) { attached id with conns := [] }) (connIs fun c => c.st == .up && c.active == 0 && c.portA == 0 && c.portB == 4 && c.prTimeout == 1000 && c.hostQpn == [3, 0, 0, 0]) = true ∧
    onNext (exec (.connReq 0 { svc with w5 := 0x38000000000000 }) { attached id with conns := [] }) (connIs fun c => c.st == .free) = true ∧ onNext (exec (.connReq 1 svc) (attached id)) (fun t => t == attached id) = true := by decide +kernel
theorem test_cring_set : onNext (exec (.cringSet 0 { svc with w1 := 0x4000, w2 := 0x2600000009 }) (attached id)) (fun t => (t.cring 1).defined && (t.cring 1).log == 6 && (t.cring 1).addr == 0x4000 && (t.cring 1).rkey == 9) = true ∧
    onNext (exec (.cringSet 0 { svc with w2 := 0x2500000009 }) (attached id)) (fun t => !(t.cring 1).defined && t.sent.length == 1) = true := by decide +kernel
theorem test_close_and_break : onNext (exec (.closeConn 0 svc) (attached id)) (connIs fun c => c.st == .free) = true ∧
    onNext (exec (.connectionBreakExpiry 0) (attached fun c => { c with st := .broken, brokenAt := 5 })) (fun t => t.ltime == 60000000005 && connIs (fun c => c.st == .free) t) = true := by decide +kernel
theorem test_planes : onNext (exec (.planeFailure 0 0) (attached id)) (fun t => t == attached id) = true ∧
    onNext (exec (.planeFailure 0 0) (attached fun c => { c with probeA := some 50 })) (fun t => t.ltime == 150050 && connIs (fun c => c.failA && c.switching.map (fun w => w.left) == some 2) t &&
      onNext (exec (.pairSwitchAck 0) t) fun u => connIs (fun c => c.active == 1 && c.failA && c.switching == none) u) = true ∧
    onNext (exec (.planeFailure 0 0) (attached fun c => { c with probeA := some 50, failB := true })) (connIs fun c => c.st == .broken) = true ∧
    onNext (exec (.pairSwitchRetry 0) (attached fun c => { c with switching := some ⟨0, 0⟩ })) (connIs fun c => c.st == .broken) = true ∧
    onNext (exec (.pairSwitch 0 1 svc) (attached id)) (connIs fun c => c.active == 1 && c.failA) = true ∧
    onNext (exec (.pairProbeSend 0 1) (attached id)) (fun t => connIs (fun c => c.probeB == some 0) t && onNext (exec (.pairProbeAns 0 1) t) (connIs fun c => c.probeB == none)) = true := by decide +kernel
/-- Word 0 of window 0 with key tag 6: the next PSEQ runs, the last one is repeated, another is refused. -/
theorem test_pseq_order : onNext (exec (.rdmaRead 0 0 6 0x0015000000000000 8) (attached id)) (fun t => connIs (fun c => c.lastPseq == some 21) t && t.sent.length == 1) = true ∧
    onNext (exec (.rdmaRead 0 0 6 0x0014000000000000 8) (attached id)) (fun t => connIs (fun c => c.lastPseq == some 20) t && (t.port 0).dupOps == 1) = true ∧
    onNext (exec (.rdmaRead 0 0 6 0x0016000000000000 8) (attached id)) (fun t => connIs (fun c => c.lastPseq == some 20) t && t.sent.length == 1) = true ∧
    onNext (exec (.rdmaRead 0 0 5 0x0015000000000000 8) (attached id)) (fun t => connIs (fun c => c.lastPseq == some 20) t) = true := by decide +kernel

/-- Operation 2 of the module: a read of eight bytes for a bulk argument, sent at 100 ns. -/
def reading (tries : Nat) : State := { attached id with rdmaOut := [⟨2, 0, true, 0x100, 9, 8, [], [1, 2], false, .notice 0, tries, 100⟩] }

theorem test_module_operations : onNext (exec (.rdmaReadResponse 2 [3, 4]) (reading 0)) (fun t => t.rdmaOut.map (fun o => o.got) == [[1, 2, 3, 4]]) = true ∧
    onNext (exec (.roceAckTimeout 2) (reading 0)) (fun t => t.ltime == 32100 && t.rdmaOut.map (fun o => o.tries) == [1] && t.sent.length == 1) = true ∧
    onNext (exec (.roceAckTimeout 2) (reading 3)) (fun t => t == reading 3) = true ∧ onNext (exec (.roceAcknowledge 3 true) (reading 0)) (fun t => t == reading 0) = true := by decide +kernel
theorem test_rates : onNext (exec (.cnp 0 0) (attached id)) (connIs fun c => c.rates.map (fun r => (r.rate, r.prev)) == [(300000, 400000)]) = true ∧
    onNext (exec (.rateIncrease 0 0) (attached fun c => { c with rates := [⟨300000, 400000, some 0, 0, none⟩] })) (fun t => t.ltime == 50000 && connIs (fun c => c.rates.map (fun r => r.rate) == [354000]) t) = true ∧
    onNext (exec (.ceMarkedPacket 0 0) (attached id)) (fun t => t.sent.length == 1 && onNext (exec (.ceMarkedPacket 0 0) t) fun u => u.sent.length == 1) = true := by decide +kernel

/-! ### The queue of commands -/

/-- Two commands wait. -/
def two : State := { running with pending := [.nop 0 plain, .add 0 plain 4 1 2] }

theorem test_queue_hypotheses : two.queueWf = true ∧ (two.pending = [Instr.nop 0 plain] ++ Instr.add 0 plain 4 1 2 :: []) ∧ running.pending = [] := by decide +kernel
theorem test_steps_in_order : onNext (step two) (fun t => t.pending.length == 1 && onNext (step t) fun u => u.pending == [] && (u.core 0).xr 4 == 12 && onNext (step u) fun v => v == u) = true := by decide +kernel

end Sys2Proof.Tests
end

section
/-! PROOFS. The control slot: what a command that issues comes to, and the loads and stores of local memory (R57, R72). -/

namespace Sys2Proof.Machine

/-! ### Fields that consuming, passing and posting leave -/

@[simp] theorem Core.consume_lm (k : Core) (h : Hdr) : (k.consume h).lm = k.lm := by unfold Core.consume; split <;> rfl
@[simp] theorem Core.consume_td (k : Core) (h : Hdr) : (k.consume h).td = k.td := by unfold Core.consume; split <;> rfl
@[simp] theorem Core.consume_mrun (k : Core) (h : Hdr) : (k.consume h).mrun = k.mrun := by unfold Core.consume; split <;> rfl
@[simp] theorem Core.consume_lmBad1 (k : Core) (h : Hdr) : (k.consume h).lmBad1 = k.lmBad1 := by unfold Core.consume; split <;> rfl
@[simp] theorem Core.consume_lmBad2 (k : Core) (h : Hdr) : (k.consume h).lmBad2 = k.lmBad2 := by unfold Core.consume; split <;> rfl
@[simp] theorem Core.consume_tdr (k : Core) (h : Hdr) (r : Fin 32) : (k.consume h).tdr r = k.tdr r := by simp [Core.tdr]
@[simp] theorem Core.consume_peek (k : Core) (h : Hdr) (a n : Nat) : (k.consume h).peek a n = k.peek a n := by simp [Core.peek]
@[simp] theorem Core.consume_lmSingle (k : Core) (h : Hdr) (a n : Nat) : (k.consume h).lmSingle a n = k.lmSingle a n := by
  simp [Core.lmSingle]
@[simp] theorem Core.consume_lmDouble (k : Core) (h : Hdr) (a n : Nat) : (k.consume h).lmDouble a n = k.lmDouble a n := by
  simp [Core.lmDouble]
@[simp] theorem Core.consume_memAddr (k : Core) (h : Hdr) (xa : Fin 32) (imm : BitVec 36) :
    memAddr (k.consume h) xa imm = memAddr k xa imm := by
  simp [memAddr]

@[simp] theorem Core.pass_lm (k : Core) (pc : Nat) : (k.pass pc).lm = k.lm := rfl
@[simp] theorem Core.posted_lm (k : Core) (h : Hdr) : (k.posted h).lm = k.lm := by unfold Core.posted; split <;> rfl

/-! ### What reads and writes of local memory do to a core -/

@[simp] theorem Core.lmCorrect_ctl (k : Core) (a n : Nat) : (k.lmCorrect a n).ctl = k.ctl := rfl
@[simp] theorem Core.lmCorrect_token (k : Core) (a n : Nat) (t : Fin 16) : (k.lmCorrect a n).token t = k.token t := rfl
@[simp] theorem Core.flag_ctl (k : Core) (i : Nat) : (k.flag i).ctl = k.ctl := rfl
@[simp] theorem Core.flag_token (k : Core) (i : Nat) (t : Fin 16) : (k.flag i).token t = k.token t := rfl

@[simp] theorem Core.lmWritten_ctl (k : Core) (a n : Nat) : (k.lmWritten a n).ctl = k.ctl := by unfold Core.lmWritten; split <;> rfl
@[simp] theorem Core.lmWritten_lm (k : Core) (a n : Nat) : (k.lmWritten a n).lm = k.lm := by unfold Core.lmWritten; split <;> rfl
@[simp] theorem Core.lmWritten_token (k : Core) (a n : Nat) (t : Fin 16) : (k.lmWritten a n).token t = k.token t := by
  unfold Core.lmWritten; split <;> rfl

@[simp] theorem Core.lmWrite_ctl (k : Core) (a : Nat) (l : List Byte) : (k.lmWrite a l).ctl = k.ctl := Core.lmWritten_ctl _ _ _
@[simp] theorem Core.lmWrite_lm (k : Core) (a : Nat) (l : List Byte) : (k.lmWrite a l).lm = Mem.writeBytes k.lm a l :=
  Core.lmWritten_lm _ _ _
@[simp] theorem Core.lmWrite_token (k : Core) (a : Nat) (l : List Byte) (t : Fin 16) : (k.lmWrite a l).token t = k.token t :=
  Core.lmWritten_token _ _ _ _

/-- Where no ACCST executes, another issuer reads local memory as it stands (R109). -/
theorem Core.peek_of_no_writes (k : Core) (w : ∀ r ∈ k.mrun, r.writes = []) (a n : Nat) : k.peek a n = Mem.readBytes k.lm a n := by
  have none_writes : k.mrun.find? (fun r => !r.writes.isEmpty) = none :=
    List.find?_eq_none.mpr fun r hr => by simp [w r hr]
  simp only [Core.peek, none_writes]

/-- An aligned access that ends inside local memory does not fault (R57). -/
theorem memFault_eq_none {a n : Nat} (aligned : a % n = 0) (inside : a + n - 1 ≤ localTop) : memFault a n = none := by
  simp [memFault, aligned, Nat.not_lt.mpr inside]

/-! ### A control-slot command that issues -/

/-- Every command of a control-slot instruction issues it and keeps the queue of commands. -/
theorem exec_ofCtl (c : CoreId) (h : Hdr) (op : CtlOp) (s : State) :
    exec (Instr.ofCtl c h op) s = s.answer (s.issueControl c h op) := by
  cases op <;> rfl

/-- A command that issues, is neither a register instruction nor a branch, and reads no poisoned granule. -/
theorem exec_ofCtl_other {s : State} {c : CoreId} {h : Hdr} {op : CtlOp} (i : s.issues c h) (clean : op.clean = true)
    (unheld : op.onPoison (s.core c) = false) (noResult : ∀ k, op.result k = none) (noBranch : ∀ k, op.branch k = none) :
    exec (Instr.ofCtl c h op) s = s.answer ((s.setCore c ((s.core c).consume h)).controlOther c h op) := by
  rw [exec_ofCtl, State.issueControl_issues s c h op i clean unheld, State.control_other _ _ _ _ (noResult _) (noBranch _)]

@[simp] theorem State.passed_pending (s : State) (c : CoreId) (h : Hdr) (f : Core → Core) : (s.passed c h f).pending = s.pending := rfl

theorem State.passed_core (s : State) (c : CoreId) (h : Hdr) (f : Core → Core) :
    (s.passed c h f).core c = ((f ((s.core c).consume h)).pass (s.core c).pc).posted h := by
  simp [State.passed]

/-- Only what the effect makes of the core whose token wait has been consumed counts. -/
theorem State.passed_congr (s : State) (c : CoreId) (h : Hdr) {f g : Core → Core}
    (same : f ((s.core c).consume h) = g ((s.core c).consume h)) : s.passed c h f = s.passed c h g := by
  simp only [State.passed, same]

theorem State.answer_passed (s : State) (c : CoreId) (h : Hdr) (f : Core → Core) : s.answer (s.passed c h f) = .next (s.passed c h f) :=
  State.answer_same _ _ rfl

/-- A control-slot instruction that ends at once on an issuing core, where its own effect leaves the control unit and the tokens. -/
theorem State.finishCtl_issues {s : State} {c : CoreId} {h : Hdr} (i : s.issues c h) {f : Core → Core}
    (ctl : (f ((s.core c).consume h)).ctl = ((s.core c).consume h).ctl)
    (tokens : ∀ t, (f ((s.core c).consume h)).token t = ((s.core c).consume h).token t) :
    (s.setCore c ((s.core c).consume h)).finishCtl c h (s.core c).pc f = s.passed c h f := by
  obtain ⟨running, -, room⟩ := i
  refine State.finishCtl_setCore s c _ h _ f ?live ?space
  case live => simp [ctl, running, CtlState.live]
  case space => exact fun t ht => (tokens t).symm ▸ room t ht

/-! ### Loads and stores -/

/-- A load without a fault, a double-bit error or a change of the control unit's own state passes its bundle. -/
theorem State.ctlLoad_issues {s : State} {c : CoreId} {h : Hdr} (i : s.issues c h) {a n : Nat} {f : Nat → Core → Core}
    (noFault : memFault a n = none) (noDouble : (s.core c).lmDouble a n = false)
    (ctl : ∀ v k, (f v k).ctl = k.ctl) (tokens : ∀ v k t, (f v k).token t = k.token t) :
    (s.setCore c ((s.core c).consume h)).ctlLoad c h a n f =
      s.passed c h fun k =>
        let k' := f (leNat ((s.core c).peek a n)) (k.lmCorrect a n)
        if (s.core c).lmSingle a n then k'.flag 6 else k' := by
  simp only [State.ctlLoad, noFault, State.core_setCore, if_true, Core.consume_lmDouble, Core.consume_lmSingle, Core.consume_peek,
    Core.consume_pc, noDouble, Bool.false_eq_true, if_false]
  apply State.finishCtl_issues i
  · split <;> simp [ctl]
  · intro t
    split <;> simp [tokens]

/-- A store without a fault passes its bundle. -/
theorem State.ctlStore_issues {s : State} {c : CoreId} {h : Hdr} (i : s.issues c h) {a n : Nat} (v : Nat) (noFault : memFault a n = none) :
    (s.setCore c ((s.core c).consume h)).ctlStore c h a n v = s.passed c h fun k => k.lmWrite a (leBytes v n) := by
  simp only [State.ctlStore, noFault, State.core_setCore, if_true, Core.consume_pc]
  exact State.finishCtl_issues i (Core.lmWrite_ctl _ _ _) (Core.lmWrite_token _ _ _)

/-- A passed store: its bytes spell the number stored, and every other byte of local memory is as it was. -/
theorem State.passed_store_lm (s : State) (c : CoreId) (h : Hdr) (a : Nat) {n v : Nat} (fits : v < 256 ^ n) :
    Mem.readLE ((s.passed c h fun k => k.lmWrite a (leBytes v n)).core c).lm a n = v ∧
    ∀ b, b < a ∨ a + n ≤ b →
      Mem.read ((s.passed c h fun k => k.lmWrite a (leBytes v n)).core c).lm b = Mem.read (s.core c).lm b := by
  have written : ((s.passed c h fun k => k.lmWrite a (leBytes v n)).core c).lm = Mem.writeLE (s.core c).lm a n v := by
    simp [State.passed_core, Mem.writeLE]
  rw [written]
  refine ⟨?inside, fun b outside => ?_⟩
  case inside => rw [Mem.readLE_writeLE, Nat.mod_eq_of_lt fits]
  exact Mem.read_writeBytes_outside _ _ _ _ (by rwa [leBytes_length])

/-- The tile descriptor that TDLD loads: the number loaded without its reserved bits (R14). -/
def Core.loadTd (k : Core) (xd : Fin 32) (v : Nat) : Core := { k with td := Tbl.set k.td xd.val (BitVec.ofNat 256 v &&& tdMask) }

@[simp] theorem Core.loadTd_ctl (k : Core) (xd : Fin 32) (v : Nat) : (k.loadTd xd v).ctl = k.ctl := rfl
@[simp] theorem Core.loadTd_token (k : Core) (xd : Fin 32) (v : Nat) (t : Fin 16) : (k.loadTd xd v).token t = k.token t := rfl

theorem State.controlOther_tdld_loadTd (s : State) (c : Nat) (h : Hdr) (xd xa : Fin 32) (imm : BitVec 36) :
    s.controlOther c h (.tdld xd xa imm) = s.ctlLoad c h (memAddr (s.core c) xa imm) 32 fun v k => k.loadTd xd v := rfl

/-- What a load into a tile descriptor leaves, whether the table of descriptors is taken before or after the token wait is consumed. -/
theorem Core.loadTd_lmCorrect_consume (k : Core) (h : Hdr) (xd : Fin 32) (a n v : Nat) :
    ((k.consume h).lmCorrect a n).loadTd xd v =
      { (k.consume h).lmCorrect a n with td := Tbl.set k.td xd.val (BitVec.ofNat 256 v &&& tdMask) } := by
  rw [← Core.consume_td k h]
  rfl

section Access
variable {s : State} {c : CoreId} {h : Hdr} (i : s.issues c h) (xd xa : Fin 32) (imm : BitVec 36)
include i

/-- LD without a fault or an error that it cannot correct (R57, R72). -/
theorem exec_ld_passes (noFault : memFault (memAddr (s.core c) xa imm) 8 = none)
    (noDouble : (s.core c).lmDouble (memAddr (s.core c) xa imm) 8 = false)
    (clean : (s.core c).poisoned (memAddr (s.core c) xa imm) 8 = false) :
    exec (.ld c h xd xa imm) s = .next (s.passed c h fun k =>
      let a := memAddr (s.core c) xa imm
      let k' := (k.lmCorrect a 8).setX xd (BitVec.ofNat 64 (leNat ((s.core c).peek a 8)))
      if (s.core c).lmSingle a 8 then k'.flag 6 else k') := by
  refine (exec_ofCtl_other (op := .ld xd xa imm) i rfl (by simp [CtlOp.onPoison, clean]) (fun _ => rfl) fun _ => rfl).trans ?_
  rw [State.controlOther_ld]
  simp only [State.core_setCore, if_true, Core.consume_memAddr]
  rw [State.ctlLoad_issues i noFault noDouble (by simp) (by simp), State.answer_passed]

/-- TDLD without a fault or an error that it cannot correct (R57, R72). -/
theorem exec_tdld_passes (noFault : memFault (memAddr (s.core c) xa imm) 32 = none)
    (noDouble : (s.core c).lmDouble (memAddr (s.core c) xa imm) 32 = false)
    (clean : (s.core c).poisoned (memAddr (s.core c) xa imm) 32 = false) :
    exec (.tdld c h xd xa imm) s = .next (s.passed c h fun k =>
      let a := memAddr (s.core c) xa imm
      let k' := (k.lmCorrect a 32).loadTd xd (leNat ((s.core c).peek a 32))
      if (s.core c).lmSingle a 32 then k'.flag 6 else k') := by
  refine (exec_ofCtl_other (op := .tdld xd xa imm) i rfl (by simp [CtlOp.onPoison, clean]) (fun _ => rfl) fun _ => rfl).trans ?_
  rw [State.controlOther_tdld_loadTd]
  simp only [State.core_setCore, if_true, Core.consume_memAddr]
  rw [State.ctlLoad_issues i noFault noDouble (by simp) (by simp), State.answer_passed]

/-- ST without a fault (R57). -/
theorem exec_st_passes (noFault : memFault (memAddr (s.core c) xa imm) 8 = none) :
    exec (.st c h xd xa imm) s =
      .next (s.passed c h fun k => k.lmWrite (memAddr (s.core c) xa imm) (leBytes ((s.core c).xr xd).toNat 8)) := by
  refine (exec_ofCtl_other (op := .st xd xa imm) i rfl rfl (fun _ => rfl) fun _ => rfl).trans ?_
  rw [State.controlOther_st]
  simp only [State.core_setCore, if_true, Core.consume_memAddr, Core.consume_xr]
  rw [State.ctlStore_issues i _ noFault, State.answer_passed]

/-- TDST without a fault (R57). -/
theorem exec_tdst_passes (noFault : memFault (memAddr (s.core c) xa imm) 32 = none) :
    exec (.tdst c h xd xa imm) s =
      .next (s.passed c h fun k => k.lmWrite (memAddr (s.core c) xa imm) (leBytes ((s.core c).tdr xd).toNat 32)) := by
  refine (exec_ofCtl_other (op := .tdst xd xa imm) i rfl rfl (fun _ => rfl) fun _ => rfl).trans ?_
  rw [State.controlOther_tdst]
  simp only [State.core_setCore, if_true, Core.consume_memAddr, Core.consume_tdr]
  rw [State.ctlStore_issues i _ noFault, State.answer_passed]

end Access

/-- Settles O12: each of the four issues, meets no fault, and ends by the lemma for its kind of access. -/
theorem loadsAndStoresOfLocalMemory : Obligations.LoadsAndStoresOfLocalMemory := by
  intro s c h xd xa imm i
  refine ⟨(s.core c).peek_of_no_writes, ?ld, ?tdld, ?st, ?tdst⟩
  case ld => exact fun aligned inside => exec_ld_passes i xd xa imm (memFault_eq_none aligned inside)
  case tdld =>
    intro aligned inside noDouble clean
    rw [exec_tdld_passes i xd xa imm (memFault_eq_none aligned inside) noDouble clean]
    exact congrArg _ (State.passed_congr s c h (by simp only [Core.loadTd_lmCorrect_consume]; rfl))
  case st =>
    exact fun aligned inside => ⟨_, exec_st_passes i xd xa imm (memFault_eq_none aligned inside), rfl,
      State.passed_store_lm s c h _ ((s.core c).xr xd).isLt⟩
  case tdst =>
    exact fun aligned inside => ⟨_, exec_tdst_passes i xd xa imm (memFault_eq_none aligned inside), rfl,
      State.passed_store_lm s c h _ ((s.core c).tdr xd).isLt⟩

end Sys2Proof.Machine
end

section
/-! PROOFS. One rounding of a magnitude to a unit: how each mode follows from the truncation and from what it drops (R102). -/

namespace Sys2Proof.Machine

/-! ### The modes of a rounding -/

/-- No bit of `m·2^e` lies below a unit `2^q` with `q ≤ e`. -/
theorem roundAt_of_unit_le {q e : Int} (le : q ≤ e) (r : Rnd) (m : Nat) : roundAt r q m e = m * 2 ^ (e - q).toNat :=
  if_pos le

section BelowUnit

variable {q e : Int} (below : e < q) (m u : Nat)
include below

theorem roundAt_truncate : roundAt .truncate q m e = m / 2 ^ (q - e).toNat :=
  if_neg (Int.not_le.mpr below)

theorem roundAt_nearest : roundAt .nearest q m e =
    if 2 ^ (q - e).toNat < 2 * (m % 2 ^ (q - e).toNat) ∨
        (2 * (m % 2 ^ (q - e).toNat) = 2 ^ (q - e).toNat ∧ roundAt .truncate q m e % 2 = 1)
      then roundAt .truncate q m e + 1 else roundAt .truncate q m e := by
  rw [roundAt_truncate below]
  exact if_neg (Int.not_le.mpr below)

theorem roundAt_stochastic : roundAt (.stochastic u) q m e =
    if 2 ^ 16 ≤ m % 2 ^ (q - e).toNat * 2 ^ 16 / 2 ^ (q - e).toNat + u
      then roundAt .truncate q m e + 1 else roundAt .truncate q m e := by
  rw [roundAt_truncate below]
  exact if_neg (Int.not_le.mpr below)

/-- The magnitude is its truncation and what the truncation drops. -/
theorem roundAt_truncate_mul_add_mod :
    roundAt .truncate q m e * 2 ^ (q - e).toNat + m % 2 ^ (q - e).toNat = m := by
  rw [roundAt_truncate below]
  exact Nat.div_add_mod' m _

theorem sub_roundAt_truncate_mul :
    m - roundAt .truncate q m e * 2 ^ (q - e).toNat = m % 2 ^ (q - e).toNat :=
  Nat.sub_eq_of_eq_add' (roundAt_truncate_mul_add_mod below m).symm

/-- Round to nearest keeps the truncation only where at most half a unit is dropped, and goes to the neighbour above it only where at least half
a unit is. -/
theorem roundAt_nearest_cases :
    (roundAt .nearest q m e = roundAt .truncate q m e ∧ 2 * (m % 2 ^ (q - e).toNat) ≤ 2 ^ (q - e).toNat) ∨
    (roundAt .nearest q m e = roundAt .truncate q m e + 1 ∧ 2 ^ (q - e).toNat ≤ 2 * (m % 2 ^ (q - e).toNat)) := by
  rw [roundAt_nearest below]
  split
  case isTrue up => exact .inr ⟨rfl, by omega⟩
  case isFalse down => exact .inl ⟨rfl, by omega⟩

/-- From the middle, where exactly half a unit is dropped, round to nearest goes to the even neighbour. -/
theorem roundAt_nearest_even_of_middle (middle : 2 * (m % 2 ^ (q - e).toNat) = 2 ^ (q - e).toNat) :
    roundAt .nearest q m e % 2 = 0 := by
  rw [roundAt_nearest below]
  split
  case isTrue up => omega
  case isFalse down => omega

/-! ### Where the result lies -/

theorem roundAt_truncate_bounds :
    roundAt .truncate q m e * 2 ^ (q - e).toNat ≤ m ∧ m < (roundAt .truncate q m e + 1) * 2 ^ (q - e).toNat := by
  have parts := roundAt_truncate_mul_add_mod below m
  have rest : m % 2 ^ (q - e).toNat < 2 ^ (q - e).toNat := Nat.mod_lt _ (Nat.two_pow_pos _)
  rw [Nat.succ_mul]
  omega

theorem roundAt_nearest_within_half :
    2 * (roundAt .nearest q m e * 2 ^ (q - e).toNat) ≤ 2 * m + 2 ^ (q - e).toNat ∧
      2 * m ≤ 2 * (roundAt .nearest q m e * 2 ^ (q - e).toNat) + 2 ^ (q - e).toNat := by
  have parts := roundAt_truncate_mul_add_mod below m
  have rest : m % 2 ^ (q - e).toNat < 2 ^ (q - e).toNat := Nat.mod_lt _ (Nat.two_pow_pos _)
  obtain ⟨kept, half⟩ | ⟨raised, half⟩ := roundAt_nearest_cases below m
  · rw [kept]
    omega
  · rw [raised, Nat.succ_mul (roundAt .truncate q m e)]
    omega

/-- A result half a unit away from the magnitude comes from the middle: exactly half a unit was dropped. -/
theorem roundAt_nearest_even_of_half
    (half : 2 * (roundAt .nearest q m e * 2 ^ (q - e).toNat) = 2 * m + 2 ^ (q - e).toNat ∨
      2 * m = 2 * (roundAt .nearest q m e * 2 ^ (q - e).toNat) + 2 ^ (q - e).toNat) :
    roundAt .nearest q m e % 2 = 0 := by
  have parts := roundAt_truncate_mul_add_mod below m
  have rest : m % 2 ^ (q - e).toNat < 2 ^ (q - e).toNat := Nat.mod_lt _ (Nat.two_pow_pos _)
  apply roundAt_nearest_even_of_middle below
  obtain ⟨kept, -⟩ | ⟨raised, -⟩ := roundAt_nearest_cases below m
  · rw [kept] at half
    omega
  · rw [raised, Nat.succ_mul (roundAt .truncate q m e)] at half
    omega

/-- The random value decides on the sixteen bits below the unit of what the truncation drops. -/
theorem roundAt_stochastic_eq_truncate_add :
    roundAt (.stochastic u) q m e = roundAt .truncate q m e +
      (if 2 ^ 16 ≤ (m - roundAt .truncate q m e * 2 ^ (q - e).toNat) * 2 ^ 16 / 2 ^ (q - e).toNat + u then 1 else 0) := by
  rw [sub_roundAt_truncate_mul below, roundAt_stochastic below]
  split
  case isTrue => rfl
  case isFalse => rfl

end BelowUnit

/-- Settles O27: the exact case is an equation of the rounding; below the unit each mode is compared with the truncation. -/
theorem oneRoundingOfAMagnitude : Obligations.OneRoundingOfAMagnitude := by
  intro q e m u
  refine ⟨fun r le => roundAt_of_unit_le le r m, fun below => ?_⟩
  exact ⟨roundAt_truncate_bounds below m, roundAt_nearest_within_half below m,
    roundAt_nearest_even_of_half below m, roundAt_stochastic_eq_truncate_add below m u⟩

end Sys2Proof.Machine
end

section
/-! PROOFS. A number of `w` bits as a signed word, and the integers modulo `2 ^ w`. -/

namespace Sys2Proof.Machine

/-- The order of two operands does not count in an operation that is associative and commutative. -/
theorem right_comm_of_assoc_of_comm {α : Type} {f : α → α → α} (assoc : ∀ a b c, f (f a b) c = f a (f b c)) (comm : ∀ a b, f a b = f b a)
    (a x y : α) : f (f a x) y = f (f a y) x := by
  rw [assoc, comm x, ← assoc]

/-- The model's reading of a number in two's complement is the library's reading of the word it makes. -/
theorem toSigned_eq_toInt (w v : Nat) : toSigned w v = (BitVec.ofNat w v).toInt := by
  have twice : v % 2 ^ w < 2 ^ (w - 1) ↔ 2 * (v % 2 ^ w) < 2 ^ w := by
    cases w with
    | zero => simp [Nat.mod_one]
    | succ n => rw [Nat.add_sub_cancel, Nat.pow_succ]; omega
  simp only [toSigned, twice, BitVec.toInt_eq_toNat_cond, BitVec.toNat_ofNat]

@[simp] theorem toSigned_toNat {w : Nat} (x : BitVec w) : toSigned w x.toNat = x.toInt := by
  rw [toSigned_eq_toInt, BitVec.ofNat_toNat, BitVec.setWidth_eq]

@[simp] theorem ofNat_ofSigned (w : Nat) (i : Int) : BitVec.ofNat w (ofSigned w i) = BitVec.ofInt w i := by
  have value : (BitVec.ofInt w i).toNat = ofSigned w i := BitVec.toNat_ofInt i
  rw [← value, BitVec.ofNat_toNat, BitVec.setWidth_eq]

/-- Numbers of `w` bits with one signed reading are equal. -/
theorem toSigned_inj {w x y : Nat} (hx : x < 2 ^ w) (hy : y < 2 ^ w) (h : toSigned w x = toSigned w y) : x = y := by
  rw [toSigned_eq_toInt, toSigned_eq_toInt, BitVec.toInt_inj] at h
  simpa [Nat.mod_eq_of_lt hx, Nat.mod_eq_of_lt hy] using congrArg BitVec.toNat h

end Sys2Proof.Machine
end

section
/-! PROOFS. Exact accumulation: the order of the values entered, and a split of them over two updates (R115 to R118). -/

namespace Sys2Proof.Machine

/-! ### The special state: Table 04-1 joins two states of a flat order with NONE below and NAN above -/

@[simp] theorem spNext_spNone (sp : Nat) : spNext sp spNone = sp := rfl

@[simp] theorem spNone_spNext (ev : Nat) : spNext spNone ev = ev := by
  by_cases quiet : ev = spNone <;> simp [spNext, quiet]

/-- Two events that both name a state leave it if they agree, and NAN if they do not. -/
theorem spNext_of_ne_spNone {a b : Nat} (ha : a ≠ spNone) (hb : b ≠ spNone) : spNext a b = if a = b then a else spNan := by
  simp [spNext, ha, hb]

theorem spNext_comm (a b : Nat) : spNext a b = spNext b a := by
  by_cases ha : a = spNone
  · simp [ha]
  by_cases hb : b = spNone
  · simp [hb]
  rw [spNext_of_ne_spNone ha hb, spNext_of_ne_spNone hb ha]
  grind

theorem spNext_assoc (a b c : Nat) : spNext (spNext a b) c = spNext a (spNext b c) := by
  by_cases ha : a = spNone
  · simp [ha]
  by_cases hb : b = spNone
  · simp [hb]
  by_cases hc : c = spNone
  · simp [hc]
  have joined {x y : Nat} (hx : x ≠ spNone) : (if x = y then x else spNan) ≠ spNone := by
    split
    · exact hx
    · decide
  rw [spNext_of_ne_spNone ha hb, spNext_of_ne_spNone hb hc, spNext_of_ne_spNone (joined ha) hc, spNext_of_ne_spNone ha (joined hb)]
  grind

/-! ### What is gathered, as the join of what each value gathers -/

namespace ExactSum

/-- What two sets of values gather together. -/
def join (x y : ExactSum) : ExactSum := ⟨x.pos + y.pos, x.neg + y.neg, x.clamped || y.clamped, spNext x.sp y.sp⟩

/-- What a set of values gathers for an element whose special state was `sp`. -/
def gather (wexp : Int) (sp : Nat) (vs : List FV) : ExactSum := vs.foldl (ExactSum.enter wexp) ⟨0, 0, false, sp⟩

theorem join_assoc (x y z : ExactSum) : (x.join y).join z = x.join (y.join z) := by
  simp [join, Int.add_assoc, Bool.or_assoc, spNext_assoc]

theorem join_comm (x y : ExactSum) : x.join y = y.join x := by
  simp [join, Int.add_comm, Bool.or_comm, spNext_comm]

/-- To enter a value is to join what it gathers alone: an entry and a clamp for a finite one (R116), an event for another (R118). -/
theorem enter_eq_join (wexp : Int) (x : ExactSum) (v : FV) : x.enter wexp v = x.join (gather wexp spNone [v]) := by
  cases v with
  | fin s m e => simp [gather, enter, join]
  | inf s => simp [gather, enter, join]
  | nan sig => simp [gather, enter, join]

theorem foldl_enter_eq_join (wexp : Int) (x : ExactSum) (vs : List FV) :
    vs.foldl (ExactSum.enter wexp) x = x.join (gather wexp spNone vs) := by
  induction vs generalizing x with
  | nil => simp [gather, join]
  | cons v vs ih =>
    calc (v :: vs).foldl (ExactSum.enter wexp) x
        = (x.enter wexp v).join (gather wexp spNone vs) := ih _
      _ = (x.join (gather wexp spNone [v])).join (gather wexp spNone vs) := by rw [enter_eq_join]
      _ = x.join ((gather wexp spNone [v]).join (gather wexp spNone vs)) := join_assoc _ _ _
      _ = x.join (gather wexp spNone (v :: vs)) := congrArg x.join (ih _).symm

theorem enter_right_comm (wexp : Int) (x : ExactSum) (v w : FV) : (x.enter wexp v).enter wexp w = (x.enter wexp w).enter wexp v := by
  simp only [enter_eq_join wexp]
  exact right_comm_of_assoc_of_comm join_assoc join_comm x _ _

/-- The values of a set gather the same in every order. -/
theorem gather_perm (wexp : Int) (sp : Nat) {l l' : List FV} (p : l.Perm l') : gather wexp sp l = gather wexp sp l' :=
  p.foldl_eq' (fun v _ w _ x => enter_right_comm wexp x v w) _

/-- One update with two lists gathers what the first and the second gather, the second from the special state that the first leaves. -/
theorem gather_append (wexp : Int) (sp : Nat) (l l' : List FV) :
    let z1 := gather wexp sp l
    let z2 := gather wexp z1.sp l'
    gather wexp sp (l ++ l') = ⟨z1.pos + z2.pos, z1.neg + z2.neg, z1.clamped || z2.clamped, z2.sp⟩ := by
  intro z1 z2
  have first : gather wexp sp (l ++ l') = z1.join (gather wexp spNone l') :=
    (List.foldl_append ..).trans (foldl_enter_eq_join wexp z1 l')
  have second : z2 = ExactSum.join ⟨0, 0, false, z1.sp⟩ (gather wexp spNone l') := foldl_enter_eq_join ..
  simp [first, second, join]

/-- The integer of an element of value `old` after what is gathered has been added (R115). -/
def addTo (z : ExactSum) (old : BitVec 128) : BitVec 128 :=
  BitVec.ofNat 128 (ofSigned 128 (toSigned 128 old.toNat + z.pos + z.neg))

/-- An update adds a word to the element's word: addition is modulo 2^128 (R115). -/
theorem addTo_eq (z : ExactSum) (old : BitVec 128) : z.addTo old = old + BitVec.ofInt 128 (z.pos + z.neg) := by
  rw [addTo, toSigned_toNat, ofNat_ofSigned, Int.add_assoc, BitVec.ofInt_add, BitVec.ofInt_toInt]

theorem addTo_addTo (z1 z2 : ExactSum) (c : Bool) (sp : Nat) (old : BitVec 128) :
    z2.addTo (z1.addTo old) = (ExactSum.mk (z1.pos + z2.pos) (z1.neg + z2.neg) c sp).addTo old := by
  have sums : z1.pos + z2.pos + (z1.neg + z2.neg) = z1.pos + z1.neg + (z2.pos + z2.neg) := by omega
  simp only [addTo_eq, sums]
  rw [BitVec.add_assoc, ← BitVec.ofInt_add]

end ExactSum

/-- Settles O28: what is gathered is a join of what each value gathers, and an update adds a word modulo 2^128. -/
theorem exactSumsDoNotDependOnOrderOrSplit : Obligations.ExactSumsDoNotDependOnOrderOrSplit := by
  intro wexp l l'
  refine ⟨fun sp _ permuted => ExactSum.gather_perm wexp sp permuted, fun old sp _ => ?_⟩
  have split := ExactSum.gather_append wexp sp l l'
  refine ⟨?integer, (congrArg ExactSum.sp split).symm, (congrArg ExactSum.clamped split).symm⟩
  case integer => exact (ExactSum.addTo_addTo _ _ _ _ old).trans (congrArg (ExactSum.addTo · old) split.symm)

end Sys2Proof.Machine
end

section
/-! PROOFS. Memory-side operations on the elements of a line (R201, R202). -/

namespace Sys2Proof.Machine

/-! ### A line as its elements -/

/-- Element `i` of a line whose elements have `w` bits (R9, Table 07-7). -/
def elemAt (w v i : Nat) : Nat := v / 2 ^ (w * i) % 2 ^ w

/-- The number whose elements of `w` bits are `d 0` to `d (n - 1)`. -/
def ofElems (w n : Nat) (d : Nat → Nat) : Nat := (rangeFrom 0 n).foldl (fun a i => a + d i * 2 ^ (w * i)) 0

theorem memLine_eq (o : MemOp) (t : MemTy) (old opd : BitVec 512) : memLine o t old opd =
    BitVec.ofNat 512 (ofElems t.width (512 / t.width) fun i => memElem o t (elemAt t.width old.toNat i) (elemAt t.width opd.toNat i)) := rfl

theorem casLine_eq (old : BitVec 512) (opd : BitVec 1024) : casLine old opd =
    BitVec.ofNat 512 (ofElems 64 8 fun i =>
      if elemAt 64 old.toNat i = elemAt 64 opd.toNat i then opd.toNat / 2 ^ (512 + 64 * i) % 2 ^ 64 else elemAt 64 old.toNat i) := rfl

theorem elemAt_lt (w v i : Nat) : elemAt w v i < 2 ^ w := Nat.mod_lt _ (Nat.two_pow_pos w)

theorem rangeFrom_eq_range' (lo n : Nat) : rangeFrom lo n = List.range' lo n := by
  induction n generalizing lo with
  | zero => rfl
  | succ n ih => rw [rangeFrom, ih, List.range'_succ]

@[simp] theorem ofElems_zero (w : Nat) (d : Nat → Nat) : ofElems w 0 d = 0 := rfl

theorem ofElems_succ (w n : Nat) (d : Nat → Nat) : ofElems w (n + 1) d = ofElems w n d + d n * 2 ^ (w * n) := by
  simp [ofElems, rangeFrom_eq_range', List.range'_concat]

theorem ofElems_congr {w n : Nat} {d e : Nat → Nat} (same : ∀ i < n, d i = e i) : ofElems w n d = ofElems w n e := by
  induction n with
  | zero => rfl
  | succ n ih => rw [ofElems_succ, ofElems_succ, ih fun i hi => same i (by omega), same n n.lt_succ_self]

section Fits
variable {w n : Nat} {d : Nat → Nat} (fits : ∀ i < n, d i < 2 ^ w)
include fits

theorem ofElems_lt : ofElems w n d < 2 ^ (w * n) := by
  induction n with
  | zero => simp
  | succ n ih =>
    have below := ih fun i hi => fits i (by omega)
    have top : (d n + 1) * 2 ^ (w * n) ≤ 2 ^ w * 2 ^ (w * n) := Nat.mul_le_mul_right _ (fits n n.lt_succ_self)
    rw [ofElems_succ, Nat.mul_succ, Nat.pow_add, Nat.mul_comm (2 ^ (w * n))]
    rw [Nat.succ_mul] at top
    omega

theorem elemAt_ofElems {i : Nat} (hi : i < n) : elemAt w (ofElems w n d) i = d i := by
  induction n with
  | zero => omega
  | succ n ih =>
    have fits' : ∀ j < n, d j < 2 ^ w := fun j hj => fits j (by omega)
    rw [ofElems_succ, elemAt]
    obtain lower | rfl : i < n ∨ i = n := by omega
    case inl =>
      obtain ⟨k, rfl⟩ : ∃ k, n = i + (k + 1) := ⟨n - i - 1, by omega⟩
      have above : d (i + (k + 1)) * 2 ^ (w * (i + (k + 1))) = 2 ^ (w * i) * (2 ^ w * (d (i + (k + 1)) * 2 ^ (w * k))) := by
        simp only [Nat.mul_add, Nat.mul_one, Nat.pow_add]
        ac_rfl
      rw [above, Nat.add_mul_div_left _ _ (Nat.two_pow_pos _), Nat.add_mul_mod_self_left]
      exact ih fits' lower
    case inr =>
      rw [Nat.add_mul_div_right _ _ (Nat.two_pow_pos _), Nat.div_eq_of_lt (ofElems_lt fits'), Nat.zero_add]
      exact Nat.mod_eq_of_lt (fits i i.lt_succ_self)

/-- An element of a line of `m` bits that holds the elements given. -/
theorem elemAt_ofNat_ofElems {m i : Nat} (whole : w * n = m) (hi : i < n) :
    elemAt w (BitVec.ofNat m (ofElems w n d)).toNat i = d i := by
  subst whole
  rw [BitVec.toNat_ofNat, Nat.mod_eq_of_lt (ofElems_lt fits), elemAt_ofElems fits hi]

end Fits

/-- The elements of a type fill a line. -/
theorem MemTy.width_mul_elems (t : MemTy) : t.width * (512 / t.width) = 512 := by cases t <;> rfl

/-! ### One element of an integer or bitwise type -/

section IntegerType
variable {t : MemTy} (int : t.fmt = none)
include int

theorem memElem_add (x y : Nat) : memElem .add t x y = (x + y) % 2 ^ t.width := by
  simp [memElem, int]

theorem memElem_max (x y : Nat) : memElem .max t x y = if toSigned t.width x < toSigned t.width y then y else x := by
  simp [memElem, int]

theorem memElem_min (x y : Nat) : memElem .min t x y = if toSigned t.width y < toSigned t.width x then y else x := by
  simp [memElem, int]

theorem toSigned_memElem_max (x y : Nat) :
    toSigned t.width (memElem .max t x y) = max (toSigned t.width x) (toSigned t.width y) := by
  rw [memElem_max int]
  split
  case isTrue less => exact (Int.max_eq_right (Int.le_of_lt less)).symm
  case isFalse notLess => exact (Int.max_eq_left (Int.not_lt.mp notLess)).symm

theorem toSigned_memElem_min (x y : Nat) :
    toSigned t.width (memElem .min t x y) = min (toSigned t.width x) (toSigned t.width y) := by
  rw [memElem_min int]
  split
  case isTrue less => exact (Int.min_eq_right (Int.le_of_lt less)).symm
  case isFalse notLess => exact (Int.min_eq_left (Int.not_lt.mp notLess)).symm

theorem memElem_lt (o : MemOp) {x y : Nat} (hx : x < 2 ^ t.width) (hy : y < 2 ^ t.width) : memElem o t x y < 2 ^ t.width := by
  cases o with
  | add => exact memElem_add int x y ▸ Nat.mod_lt _ (Nat.two_pow_pos _)
  | min => rw [memElem_min int]; split <;> assumption
  | max => rw [memElem_max int]; split <;> assumption
  | and => exact Nat.and_lt_two_pow x hy
  | or => exact Nat.or_lt_two_pow hx hy
  | xor => exact Nat.xor_lt_two_pow hx hy
  | cas => exact hx

/-- The order of two operations of one MOP on an element does not count: addition is modulo a power of two, and a signed reading tells elements
apart. -/
theorem memElem_right_comm (o : MemOp) {a x y : Nat} (ha : a < 2 ^ t.width) (hx : x < 2 ^ t.width) (hy : y < 2 ^ t.width) :
    memElem o t (memElem o t a x) y = memElem o t (memElem o t a y) x := by
  have lt {u v : Nat} (hu : u < 2 ^ t.width) (hv : v < 2 ^ t.width) := memElem_lt int o hu hv
  cases o with
  | add => simp only [memElem_add int, Nat.mod_add_mod, Nat.add_right_comm]
  | min =>
    apply toSigned_inj (lt (lt ha hx) hy) (lt (lt ha hy) hx)
    simp only [toSigned_memElem_min int]
    exact right_comm_of_assoc_of_comm Int.min_assoc Int.min_comm _ _ _
  | max =>
    apply toSigned_inj (lt (lt ha hx) hy) (lt (lt ha hy) hx)
    simp only [toSigned_memElem_max int]
    exact right_comm_of_assoc_of_comm Int.max_assoc Int.max_comm _ _ _
  | and => exact right_comm_of_assoc_of_comm Nat.and_assoc Nat.and_comm a x y
  | or => exact right_comm_of_assoc_of_comm Nat.or_assoc Nat.or_comm a x y
  | xor => exact right_comm_of_assoc_of_comm Nat.xor_assoc Nat.xor_comm a x y
  | cas => rfl

/-! ### A line -/

theorem elemAt_memLine (o : MemOp) (old opd : BitVec 512) {i : Nat} (hi : i < 512 / t.width) :
    elemAt t.width (memLine o t old opd).toNat i = memElem o t (elemAt t.width old.toNat i) (elemAt t.width opd.toNat i) := by
  rw [memLine_eq]
  exact elemAt_ofNat_ofElems (fun i _ => memElem_lt int o (elemAt_lt ..) (elemAt_lt ..)) t.width_mul_elems hi

theorem memLine_right_comm (o : MemOp) (old x y : BitVec 512) :
    memLine o t (memLine o t old x) y = memLine o t (memLine o t old y) x := by
  rw [memLine_eq o t (memLine o t old x), memLine_eq o t (memLine o t old y)]
  congr 1
  apply ofElems_congr
  intro i hi
  rw [elemAt_memLine int o old x hi, elemAt_memLine int o old y hi]
  exact memElem_right_comm int o (elemAt_lt ..) (elemAt_lt ..) (elemAt_lt ..)

end IntegerType

theorem toNat_extractLsb'_eq_elemAt {m : Nat} (x : BitVec m) (w i : Nat) :
    (x.extractLsb' (w * i) w).toNat = elemAt w x.toNat i := by
  rw [BitVec.extractLsb'_toNat, Nat.shiftRight_eq_div_pow, elemAt]

theorem extractLsb'_casLine (old : BitVec 512) (opd : BitVec 1024) {i : Nat} (hi : i < 8) :
    (casLine old opd).extractLsb' (64 * i) 64 =
      if old.extractLsb' (64 * i) 64 = opd.extractLsb' (64 * i) 64 then opd.extractLsb' (512 + 64 * i) 64 else old.extractLsb' (64 * i) 64 := by
  apply BitVec.eq_of_toNat_eq
  have fits : ∀ j < 8, (if elemAt 64 old.toNat j = elemAt 64 opd.toNat j then opd.toNat / 2 ^ (512 + 64 * j) % 2 ^ 64
      else elemAt 64 old.toNat j) < 2 ^ 64 := by
    intro j _
    split
    · exact Nat.mod_lt _ (Nat.two_pow_pos 64)
    · exact elemAt_lt ..
  rw [toNat_extractLsb'_eq_elemAt, casLine_eq, elemAt_ofNat_ofElems fits rfl hi, apply_ite BitVec.toNat, toNat_extractLsb'_eq_elemAt,
    BitVec.extractLsb'_toNat, Nat.shiftRight_eq_div_pow]
  simp only [← BitVec.toNat_inj, toNat_extractLsb'_eq_elemAt]

/-- Settles O43: a line is taken apart into its elements, and each clause is a fact about one element. -/
theorem memorySideOperationsElementByElement : Obligations.MemorySideOperationsElementByElement :=
  ⟨fun o _ old opd _ int hi => elemAt_memLine int o old opd hi,
    fun _ x y int _ _ => ⟨memElem_add int x y, toSigned_memElem_max int x y, toSigned_memElem_min int x y, rfl, rfl, rfl⟩,
    fun old opd _ hi => extractLsb'_casLine old opd hi,
    fun o _ old x y int _ => memLine_right_comm int o old x y⟩

end Sys2Proof.Machine
end

section
/-! PROOFS. The instruction at the head of the vector queue: what it executes to, its granules, loads and stores (R144, R438). -/

namespace Sys2Proof.Machine

/-! ### Local memory and the vector registers, side by side -/

@[simp] theorem Core.consume_v (k : Core) (h : Hdr) : (k.consume h).v = k.v := by unfold Core.consume; split <;> rfl
@[simp] theorem Core.consume_vreg (k : Core) (h : Hdr) (r : Fin 32) : (k.consume h).vreg r = k.vreg r := by simp [Core.vreg]
@[simp] theorem Core.setVreg_lm (k : Core) (r : Fin 32) (x : VReg) : (k.setVreg r x).lm = k.lm := rfl

@[simp] theorem Core.vreg_setVreg (k : Core) (q r : Fin 32) (x : VReg) : (k.setVreg q x).vreg r = if r = q then x else k.vreg r := by
  simp [Core.vreg, Core.setVreg, Fin.ext_iff]

@[simp] theorem Core.lmWritten_v (k : Core) (a n : Nat) : (k.lmWritten a n).v = k.v := by unfold Core.lmWritten; split <;> rfl
@[simp] theorem Core.lmWrite_v (k : Core) (a : Nat) (l : List Byte) : (k.lmWrite a l).v = k.v := Core.lmWritten_v _ _ _

/-- Reads that correct errors change the count of them and the list of the words that hold them (R72). -/
theorem Core.correctAll_eq (rs : List (Nat × Nat)) (k : Core) : ∃ n ws, k.correctAll rs = { k with lmCorr := n, lmBad1 := ws } := by
  induction rs generalizing k with
  | nil => exact ⟨k.lmCorr, k.lmBad1, rfl⟩
  | cons r rs ih => exact ih (k.lmCorrect r.1 r.2)

@[simp] theorem Core.correctAll_lm (k : Core) (rs : List (Nat × Nat)) : (k.correctAll rs).lm = k.lm := by
  obtain ⟨_, _, corrected⟩ := k.correctAll_eq rs
  rw [corrected]

@[simp] theorem Core.correctAll_vreg (k : Core) (rs : List (Nat × Nat)) (r : Fin 32) : (k.correctAll rs).vreg r = k.vreg r := by
  obtain ⟨_, _, corrected⟩ := k.correctAll_eq rs
  rw [corrected]
  rfl

@[simp] theorem Core.correctAll_peek (k : Core) (rs : List (Nat × Nat)) (a n : Nat) : (k.correctAll rs).peek a n = k.peek a n := by
  obtain ⟨_, _, corrected⟩ := k.correctAll_eq rs
  rw [corrected]
  rfl

/-- Nothing under the ranges holds a reader up: no granule is marked and no word has a double-bit error (R72, R377). -/
def Core.readable (k : Core) (rs : List (Nat × Nat)) : Prop := ∀ r ∈ rs, k.poisoned r.1 r.2 = false ∧ k.lmDouble r.1 r.2 = false

/-- An instruction that finds its ranges readable acts, on the core whose single-bit errors there are corrected. -/
theorem Engine.reading_of_readable {k : Core} {rs : List (Nat × Nat)} (f : Core → Core × BitVec 7) (clean : k.readable rs) :
    Engine.reading k rs f = .done (f (k.correctAll rs)).1 ((f (k.correctAll rs)).2 ||| flagIf (k.anySingle rs) flLmCorr) := by
  have noPoison : k.anyPoison rs = false := List.any_eq_false.mpr fun r hr => by simp [(clean r hr).1]
  have noDouble : k.anyDouble rs = false := List.any_eq_false.mpr fun r hr => by simp [(clean r hr).2]
  simp [Engine.reading, noPoison, noDouble]

/-! ### The 32 granules -/

/-- Whether the stride is that of a register, and not one granule. -/
def VecEntry.strided (e : VecEntry) : Bool := e.op == .vlds || e.op == .vsts

/-- The address of granule `i` of a load or store. -/
def VecEntry.granule (e : VecEntry) (i : Nat) : Nat :=
  (e.xa + e.modf.signExtend 64 + BitVec.ofNat 64 i * (if e.strided then e.xb else 128)).toNat

/-- The address and the stride are multiples of 128. -/
def VecEntry.aligned (e : VecEntry) : Prop := e.granule 0 % 128 = 0 ∧ (e.strided = true → e.xb.toNat % 128 = 0)

theorem granules_eq (e : VecEntry) : granules e e.strided = (List.range 32).map e.granule := rfl

theorem granuleFault_of_not_aligned {e : VecEntry} (bad : e.granule 0 % 128 ≠ 0 ∨ (e.strided = true ∧ e.xb.toNat % 128 ≠ 0)) :
    granuleFault e e.strided = some FaultCode.align :=
  if_pos bad

theorem granuleFault_of_aligned {e : VecEntry} (fits : e.aligned) : granuleFault e e.strided =
    if (granules e e.strided).any (fun a => decide (localTop < a + 127)) then some FaultCode.localRange else none := by
  refine if_neg ?_
  rintro (base | ⟨on, stride⟩)
  · exact base fits.1
  · exact stride (fits.2 on)

theorem granuleFault_of_beyond {e : VecEntry} (fits : e.aligned) (beyond : ∃ i < 32, 0x5FFFFF < e.granule i + 127) :
    granuleFault e e.strided = some FaultCode.localRange := by
  obtain ⟨i, hi, far⟩ := beyond
  have listed : e.granule i ∈ granules e e.strided := List.mem_map_of_mem (List.mem_range.mpr hi)
  rw [granuleFault_of_aligned fits]
  exact if_pos (List.any_eq_true.mpr ⟨_, listed, decide_eq_true far⟩)

theorem granuleFault_of_inside {e : VecEntry} (fits : e.aligned) (inside : ∀ i < 32, e.granule i + 127 ≤ 0x5FFFFF) :
    granuleFault e e.strided = none := by
  have near : ∀ a ∈ granules e e.strided, a + 127 ≤ 0x5FFFFF := by
    rw [granules_eq, List.forall_mem_map]
    exact fun i hi => inside i (List.mem_range.mp hi)
  rw [granuleFault_of_aligned fits]
  refine if_neg ?_
  rw [List.any_eq_true]
  rintro ⟨a, listed, far⟩
  exact absurd (near a listed) (Nat.not_le.mpr (of_decide_eq_true far))

/-! ### What the head of the queue comes to -/

/-- The instruction fills VD from local memory (R144). -/
def VecEntry.loads (e : VecEntry) : Prop := e.op = .vld ∨ e.op = .vlds

/-- The instruction writes VD to local memory (R144). -/
def VecEntry.stores (e : VecEntry) : Prop := e.op = .vst ∨ e.op = .vsts

theorem VecEntry.run_other {e : VecEntry} (noLoad : ¬ e.loads) (noStore : ¬ e.stores) (k : Core) (free : Bool) :
    e.run k free = .done (k.setVreg e.vd (e.result k free).1) (e.result k free).2 := by
  unfold VecEntry.run
  split
  case h_1 op => exact absurd (.inl op) noLoad
  case h_2 op => exact absurd (.inr op) noLoad
  case h_3 op => exact absurd (.inl op) noStore
  case h_4 op => exact absurd (.inr op) noStore
  case h_5 => rfl

theorem VecEntry.run_load {e : VecEntry} (load : e.loads) (k : Core) (free : Bool) : e.run k free = vecLoad k e e.strided := by
  rcases load with op | op <;> (simp only [VecEntry.run, VecEntry.strided, op]; rfl)

theorem VecEntry.run_store {e : VecEntry} (store : e.stores) (k : Core) (free : Bool) : e.run k free = vecStore k e e.strided := by
  rcases store with op | op <;> (simp only [VecEntry.run, VecEntry.strided, op]; rfl)

theorem VecEntry.run_fault {e : VecEntry} (moves : e.loads ∨ e.stores) {code : Nat} (fault : granuleFault e e.strided = some code)
    (k : Core) (free : Bool) : e.run k free = .fault code := by
  rcases moves with load | store
  · simp only [VecEntry.run_load load, vecLoad, fault]
  · simp only [VecEntry.run_store store, vecStore, fault]

/-- The number that the bytes of the granules spell (R144). -/
def VecEntry.gathered (e : VecEntry) (k : Core) : Nat := leNat ((granules e e.strided).map fun a => k.peek a 128).flatten

theorem VecEntry.gathered_eq (e : VecEntry) (k : Core) :
    e.gathered k = leNat ((List.range 32).map fun i => k.peek (e.granule i) 128).flatten := by
  rw [VecEntry.gathered, granules_eq, List.map_map]
  rfl

/-- VD filled from the granules, on a core whose reads of them have corrected their errors. -/
def VecEntry.loaded (e : VecEntry) (k : Core) : Core :=
  (k.correctAll ((granules e e.strided).map fun a => (a, 128))).setVreg e.vd (BitVec.ofNat 32768 (e.gathered k))

@[simp] theorem VecEntry.gathered_correctAll (e : VecEntry) (k : Core) (rs : List (Nat × Nat)) : e.gathered (k.correctAll rs) = e.gathered k := by
  simp only [VecEntry.gathered, Core.correctAll_peek]

@[simp] theorem VecEntry.gathered_consume (e : VecEntry) (k : Core) (h : Hdr) : e.gathered (k.consume h) = e.gathered k := by
  simp only [VecEntry.gathered, Core.consume_peek]

theorem vecLoad_eq {e : VecEntry} (noFault : granuleFault e e.strided = none) (k : Core) : vecLoad k e e.strided =
    Engine.reading k ((granules e e.strided).map fun a => (a, 128)) fun j => (j.setVreg e.vd (BitVec.ofNat 32768 (e.gathered j)), 0) := by
  rw [vecLoad, noFault]
  rfl

theorem VecEntry.run_loaded {e : VecEntry} (load : e.loads) (noFault : granuleFault e e.strided = none) {k : Core}
    (clean : ∀ i < 32, k.poisoned (e.granule i) 128 = false ∧ k.lmDouble (e.granule i) 128 = false) (free : Bool) :
    ∃ fl, e.run k free = .done (e.loaded k) fl := by
  have readable : k.readable ((granules e e.strided).map fun a => (a, 128)) := by
    simpa [Core.readable, granules_eq] using clean
  rw [VecEntry.run_load load, vecLoad_eq noFault, Engine.reading_of_readable _ readable, VecEntry.gathered_correctAll]
  exact ⟨_, rfl⟩

@[simp] theorem VecEntry.loaded_lm (e : VecEntry) (k : Core) : (e.loaded k).lm = k.lm := by
  rw [VecEntry.loaded, Core.setVreg_lm, Core.correctAll_lm]

theorem VecEntry.vreg_loaded (e : VecEntry) (k : Core) (r : Fin 32) :
    (e.loaded k).vreg r = if r = e.vd then BitVec.ofNat 32768 (e.gathered k) else k.vreg r := by
  rw [VecEntry.loaded, Core.vreg_setVreg, Core.correctAll_vreg]

/-- The bytes of a vector register that granule `i` takes (R144). -/
def granuleBytes (x : VReg) (i : Nat) : List Byte := leBytes (x.toNat / 2 ^ (1024 * i) % 2 ^ 1024) 128

/-- VD written to the granules in rising order. -/
def VecEntry.stored (e : VecEntry) (k : Core) : Core :=
  (List.range 32).foldl (fun j i => j.lmWrite (e.granule i) (granuleBytes (k.vreg e.vd) i)) k

theorem zipIdx_map_range {α : Type} (f : Nat → α) (n : Nat) : ((List.range n).map f).zipIdx = (List.range n).map fun i => (f i, i) := by
  apply List.ext_getElem <;> simp

theorem VecEntry.run_stored {e : VecEntry} (store : e.stores) (noFault : granuleFault e e.strided = none) (k : Core) (free : Bool) :
    e.run k free = .done (e.stored k) 0 := by
  simp only [VecEntry.run_store store, vecStore, noFault, granules_eq, zipIdx_map_range, List.foldl_map]
  rfl

theorem VecEntry.stored_lm (e : VecEntry) (k : Core) : (e.stored k).lm =
    (List.range 32).foldl (fun m i => Mem.writeBytes m (e.granule i) (granuleBytes (k.vreg e.vd) i)) k.lm :=
  (List.foldl_hom Core.lm fun j _ => (j.lmWrite_lm _ _).symm).symm

@[simp] theorem VecEntry.stored_v (e : VecEntry) (k : Core) : (e.stored k).v = k.v := by
  have kept (is : List Nat) (j : Core) :
      (is.foldl (fun j i => j.lmWrite (e.granule i) (granuleBytes (k.vreg e.vd) i)) j).v = j.v := by
    induction is generalizing j with
    | nil => rfl
    | cons _ is ih => exact (ih _).trans (Core.lmWrite_v ..)
  exact kept _ k

/-! ### The command -/

/-- Every command of a vector instruction steps the vector unit and keeps the queue of commands. -/
theorem exec_ofVec (c : CoreId) (op : VecOp) (s : State) : exec (Instr.ofVec c op) s = s.answer (s.vecStep c op) := by
  cases op <;> rfl

/-- What a vector instruction that starts leaves: the core that it makes, with its flags kept for its completion point. -/
def State.vecBegun (s : State) (c : Nat) (k : Core) (fl : BitVec 7) : State :=
  s.fresh.2.setCore c { k with vrun := some fl, held := k.held.filter (· != .vector) }

theorem State.onlyCore_vecBegun (s : State) (c : Nat) (k : Core) (fl : BitVec 7) : OnlyCore c s.fresh.2 (s.vecBegun c k fl) := by
  simp [OnlyCore, State.vecBegun]

theorem State.core_vecBegun (s : State) (c : Nat) (k : Core) (fl : BitVec 7) :
    (s.vecBegun c k fl).core c = { k with vrun := some fl, held := k.held.filter (· != .vector) } := by
  simp [State.vecBegun]

@[simp] theorem State.vrun_vecBegun (s : State) (c : Nat) (k : Core) (fl : BitVec 7) : ((s.vecBegun c k fl).core c).vrun = some fl := by
  rw [State.core_vecBegun]
@[simp] theorem State.lm_vecBegun (s : State) (c : Nat) (k : Core) (fl : BitVec 7) : ((s.vecBegun c k fl).core c).lm = k.lm := by
  rw [State.core_vecBegun]
@[simp] theorem State.v_vecBegun (s : State) (c : Nat) (k : Core) (fl : BitVec 7) : ((s.vecBegun c k fl).core c).v = k.v := by
  rw [State.core_vecBegun]
@[simp] theorem State.vreg_vecBegun (s : State) (c : Nat) (k : Core) (fl : BitVec 7) (r : Fin 32) :
    ((s.vecBegun c k fl).core c).vreg r = k.vreg r := by
  rw [Core.vreg, State.v_vecBegun, Core.vreg]

theorem Core.atVec.vecHead {k : Core} {e : VecEntry} (head : k.atVec e) (op : VecOp) : k.vecHead op = if e.op = op then some e else none := by
  obtain ⟨live, idle, granted, q, queue⟩ := head
  simp [Core.vecHead, live, idle, granted, queue]

section AtHead
variable {s : State} {c : CoreId} {e : VecEntry} (head : (s.core c).atVec e)
include head

theorem exec_ofVec_of_ne {op : VecOp} (ne : op ≠ e.op) : exec (Instr.ofVec c op) s = .next s := by
  have noHead : (s.core c).vecHead op = none := (head.vecHead op).trans (if_neg ne.symm)
  have still : s.vecStep c op = s := by simp only [State.vecStep, noHead]
  rw [exec_ofVec, still, State.answer, State.keepQueue_self]

theorem exec_ofVec_fault {code : Nat} (faults : e.run ((s.core c).consume e.hdr) (Config.freeBool s.freeIx) = .fault code) :
    exec (Instr.ofVec c e.op) s = s.answer (s.fresh.2.fault c code e.pc 2) := by
  have atHead : (s.core c).vecHead e.op = some e := (head.vecHead e.op).trans (if_pos rfl)
  have step : s.vecStep c e.op = s.fresh.2.fault c code e.pc 2 := by
    simp only [State.vecStep, atHead, State.fresh, faults]
  rw [exec_ofVec, step]

/-- What executes starts once the unit is granted, and waits until then (R438). -/
theorem exec_ofVec_done {k : Core} {fl : BitVec 7} (does : e.run ((s.core c).consume e.hdr) (Config.freeBool s.freeIx) = .done k fl) :
    exec (Instr.ofVec c e.op) s = .next (if s.granted c (vecUnits c) then s.vecBegun c k fl else s) := by
  have atHead : (s.core c).vecHead e.op = some e := (head.vecHead e.op).trans (if_pos rfl)
  have step : s.vecStep c e.op = if s.granted c (vecUnits c) then s.vecBegun c k fl else s := by
    simp only [State.vecStep, atHead, State.fresh, does, State.vecBegun]
  rw [exec_ofVec, step]
  exact State.answer_same _ _ (by split <;> rfl)

theorem exec_ofVec_waits {k : Core} {fl : BitVec 7} (does : e.run ((s.core c).consume e.hdr) (Config.freeBool s.freeIx) = .done k fl)
    (off : s.granted c (vecUnits c) = false) : exec (Instr.ofVec c e.op) s = .next s := by
  simp [exec_ofVec_done head does, off]

theorem exec_ofVec_starts {k : Core} {fl : BitVec 7} (does : e.run ((s.core c).consume e.hdr) (Config.freeBool s.freeIx) = .done k fl)
    (on : s.granted c (vecUnits c) = true) : exec (Instr.ofVec c e.op) s = .next (s.vecBegun c k fl) := by
  simp [exec_ofVec_done head does, on]

/-- A load that starts changes VD alone, beside the count of errors corrected. -/
theorem completes_load {fl : BitVec 7}
    (does : e.run ((s.core c).consume e.hdr) (Config.freeBool s.freeIx) = .done (e.loaded ((s.core c).consume e.hdr)) fl)
    (on : s.granted c (vecUnits c) = true) :
    Completes (Instr.ofVec c e.op) s fun t => OnlyCore c s.fresh.2 t ∧ (t.core c).vrun.isSome = true ∧ (t.core c).lm = (s.core c).lm ∧
      (∀ r, r ≠ e.vd → (t.core c).vreg r = (s.core c).vreg r) ∧
      (t.core c).vreg e.vd = BitVec.ofNat 32768 (leNat (((List.range 32).map fun i => (s.core c).peek (e.granule i) 128).flatten)) := by
  refine ⟨_, exec_ofVec_starts head does on, State.onlyCore_vecBegun .., ?run, ?lm, fun r other => ?others, ?vd⟩
  case run => simp
  case lm => simp
  case others => simp [VecEntry.vreg_loaded, other]
  case vd => simp [VecEntry.vreg_loaded, VecEntry.gathered_eq]

/-- A store that starts changes local memory alone, beside the marks and errors of what it writes. -/
theorem completes_store (does : e.run ((s.core c).consume e.hdr) (Config.freeBool s.freeIx) = .done (e.stored ((s.core c).consume e.hdr)) 0)
    (on : s.granted c (vecUnits c) = true) :
    Completes (Instr.ofVec c e.op) s fun t => OnlyCore c s.fresh.2 t ∧ (t.core c).vrun = some 0 ∧ (t.core c).v = (s.core c).v ∧
      (t.core c).lm = (List.range 32).foldl
        (fun m i => Mem.writeBytes m (e.granule i) (granuleBytes ((s.core c).vreg e.vd) i)) (s.core c).lm := by
  refine ⟨_, exec_ofVec_starts head does on, State.onlyCore_vecBegun .., ?run, ?v, ?lm⟩
  case run => simp
  case v => simp
  case lm => simp [VecEntry.stored_lm]

end AtHead

/-- Settles O25: the head of the queue runs to a fault or to a core, and what it runs to is the outcome of the command. -/
theorem vectorInstructionsWriteTheirDestination : Obligations.VectorInstructionsWriteTheirDestination := by
  intro s c e head k j u done load store strided at_ on
  refine ⟨fun op ne => exec_ofVec_of_ne head ne, ?other, fun moves => ⟨?align, ?range, fun base stride inside => ?executes⟩⟩
  case other => exact fun noLoad noStore => exec_ofVec_done head (VecEntry.run_other noLoad noStore _ _)
  case align => exact fun bad => exec_ofVec_fault head (VecEntry.run_fault moves (granuleFault_of_not_aligned bad) _ _)
  case range =>
    exact fun base stride beyond => exec_ofVec_fault head (VecEntry.run_fault moves (granuleFault_of_beyond ⟨base, stride⟩ beyond) _ _)
  case executes =>
    have noFault : granuleFault e e.strided = none := granuleFault_of_inside ⟨base, stride⟩ inside
    refine ⟨fun off runs => ?waits, fun loads granted clean => ?load, fun stores granted => ?store⟩
    case waits =>
      have does : ∃ k' fl, e.run j (Config.freeBool s.freeIx) = .done k' fl := by
        rcases moves with loads | stores
        · rcases runs with stores | clean
          · exact ⟨_, _, VecEntry.run_stored stores noFault _ _⟩
          · exact ⟨_, VecEntry.run_loaded loads noFault clean _⟩
        · exact ⟨_, _, VecEntry.run_stored stores noFault _ _⟩
      obtain ⟨k', fl, does⟩ := does
      exact exec_ofVec_waits head does off
    case load =>
      obtain ⟨fl, does⟩ := VecEntry.run_loaded loads noFault clean (Config.freeBool s.freeIx)
      exact completes_load head does granted
    case store => exact completes_store head (VecEntry.run_stored stores noFault _ _) granted

end Sys2Proof.Machine
end

section
/-! PROOFS. What a vector instruction writes, element by element (R127 to R134, R143). -/

namespace Sys2Proof.Machine

/-! ### Elements of a register -/

theorem elemAt_succ (w v i : Nat) : elemAt w v (i + 1) = elemAt w (v / 2 ^ w) i := by
  rw [elemAt, elemAt, Nat.mul_succ, Nat.pow_add, Nat.div_div_eq_div_mul, Nat.mul_comm (2 ^ w)]

/-- The elements of a number below a boundary between elements are those of what lies below it. -/
theorem elemAt_mod_two_pow {w n i : Nat} (hi : i < n) (v : Nat) : elemAt w (v % 2 ^ (w * n)) i = elemAt w v i := by
  obtain ⟨k, rfl⟩ : ∃ k, n = i + (k + 1) := ⟨n - i - 1, by omega⟩
  have split : 2 ^ (w * (i + (k + 1))) = 2 ^ (w * i) * 2 ^ (w * (k + 1)) := by rw [Nat.mul_add, Nat.pow_add]
  have whole : 2 ^ w ∣ 2 ^ (w * (k + 1)) := Nat.pow_dvd_pow 2 (Nat.le_mul_of_pos_right w k.succ_pos)
  rw [elemAt, elemAt, split, Nat.mod_mul_right_div_self, Nat.mod_mod_of_dvd _ whole]

theorem elemAt_foldr_of_getElem? {l : List Nat} {w i x : Nat} (listed : l[i]? = some x) :
    elemAt w (l.foldr (fun x a => x % 2 ^ w + a * 2 ^ w) 0) i = x % 2 ^ w := by
  induction l generalizing i with
  | nil => simp at listed
  | cons y l ih =>
    cases i with
    | zero =>
      obtain rfl : y = x := by simpa using listed
      simp [elemAt]
    | succ i =>
      rw [List.foldr_cons, elemAt_succ, Nat.add_mul_div_right _ _ (Nat.two_pow_pos w), Nat.div_eq_of_lt (Nat.mod_lt _ (Nat.two_pow_pos w)),
        Nat.zero_add]
      exact ih (by simpa using listed)

/-- An element of a register that its elements fill (R127). -/
theorem elemAt_packElems {l : List Nat} {w n i x : Nat} (whole : w * n = 32768) (hi : i < n) (listed : l[i]? = some x) :
    elemAt w (packElems w l).toNat i = x % 2 ^ w := by
  rw [packElems, BitVec.toNat_ofNat, ← whole, elemAt_mod_two_pow hi, elemAt_foldr_of_getElem? listed]

theorem elemAt_packElems_of_lt {l : List Nat} {w n i x : Nat} (whole : w * n = 32768) (hi : i < n) (listed : l[i]? = some x)
    (fits : x < 2 ^ w) : elemAt w (packElems w l).toNat i = x :=
  (elemAt_packElems whole hi listed).trans (Nat.mod_eq_of_lt fits)

@[simp] theorem getElem?_rangeFrom {n i : Nat} (hi : i < n) : (rangeFrom 0 n)[i]? = some i := by
  simp [rangeFrom_eq_range', hi]

theorem getElem?_map_of_some {α β : Type} {l : List α} {i : Nat} {a : α} (f : α → β) (ha : l[i]? = some a) :
    (l.map f)[i]? = some (f a) := by
  simp only [List.getElem?_map, ha, Option.map_some]

theorem getElem?_zipWith_of_some {α β γ : Type} {l : List α} {m : List β} {i : Nat} {a : α} {b : β} (f : α → β → γ)
    (ha : l[i]? = some a) (hb : m[i]? = some b) : (List.zipWith f l m)[i]? = some (f a b) := by
  simp only [List.getElem?_zipWith, ha, hb]

theorem getElem?_elemsOf {n i : Nat} (hi : i < n) (w : Nat) (x : VReg) : (elemsOf w n x)[i]? = some (elemAt w x.toNat i) :=
  getElem?_map_of_some _ (getElem?_rangeFrom hi)

/-- The elements of a type fill a register (Table 05-1). -/
theorem bits_mul_elemCount {dt n : Nat} (count : elemCount dt = some n) : (dtFmt dt).bits * n = 32768 := by
  unfold elemCount at count
  split at count
  case isTrue word => rcases word with rfl | rfl <;> cases count <;> rfl
  split at count
  case isTrue half => rcases half with rfl | rfl <;> cases count <;> rfl
  split at count
  case isTrue byte => subst byte; cases count; rfl
  case isFalse => cases count

/-- An element count is a power of two (Table 05-1). -/
theorem elemCount_eq_two_pow {dt n : Nat} (count : elemCount dt = some n) : n = 2 ^ elemLog dt := by
  unfold elemCount at count
  split at count
  case isTrue word =>
    have log : elemLog dt = 10 := if_pos word
    cases count
    exact (congrArg (2 ^ ·) log).symm
  split at count
  case isTrue notWord half =>
    have log : elemLog dt = 11 := (if_neg notWord).trans (if_pos half)
    cases count
    exact (congrArg (2 ^ ·) log).symm
  split at count
  case isTrue notWord notHalf _ =>
    have log : elemLog dt = 12 := (if_neg notWord).trans (if_neg notHalf)
    cases count
    exact (congrArg (2 ^ ·) log).symm
  case isFalse => cases count

/-- A floating-point type has at least 16 bits. -/
theorem bits_of_dtFloat {dt : Nat} (float : dtFloat dt = true) : 16 ≤ (dtFmt dt).bits := by
  have code : dt ≤ 2 := of_decide_eq_true float
  obtain rfl | rfl | rfl : dt = 0 ∨ dt = 1 ∨ dt = 2 := by omega
  all_goals decide

/-! ### The operation on one element -/

theorem ofSigned_lt (w : Nat) (i : Int) : ofSigned w i < 2 ^ w := by
  have value : (BitVec.ofInt w i).toNat = ofSigned w i := BitVec.toNat_ofInt i
  exact value ▸ (BitVec.ofInt w i).isLt

theorem vecInt_lt (op : VecOp) (m : Nat) {w a b : Nat} (ha : a < 2 ^ w) (hb : b < 2 ^ w) : vecInt op w m a b < 2 ^ w := by
  have remainder (x : Nat) : x % 2 ^ w < 2 ^ w := Nat.mod_lt x (Nat.two_pow_pos w)
  unfold vecInt
  generalize (if bit m 21 then bits m 5 0 else b) % w = cnt
  dsimp only
  split
  · exact remainder _
  · exact remainder _
  · exact remainder _
  · exact Nat.and_lt_two_pow a hb
  · exact Nat.or_lt_two_pow ha hb
  · exact Nat.xor_lt_two_pow ha hb
  · exact remainder _
  · exact Nat.lt_of_le_of_lt (Nat.div_le_self ..) ha
  · exact ofSigned_lt ..
  · split <;> exact ofSigned_lt ..
  · exact Nat.two_pow_pos w

/-- What is subtracted and added again is back where it was (R133). -/
theorem vecInt_visub_add (m : Nat) {w a b : Nat} (ha : a < 2 ^ w) (hb : b < 2 ^ w) : (vecInt .visub w m a b + b) % 2 ^ w = a := by
  change ((a + 2 ^ w - b) % 2 ^ w + b) % 2 ^ w = a
  rw [Nat.mod_add_mod, Nat.sub_add_cancel (by omega), Nat.add_mod_right, Nat.mod_eq_of_lt ha]

/-- One of the bits 0 to 9 that name a class (R134). -/
def IsClassBit (x : Nat) : Prop := ∃ j < 10, x = 2 ^ j

theorem IsClassBit.ite {c : Prop} [Decidable c] {x y : Nat} (hx : IsClassBit x) (hy : IsClassBit y) : IsClassBit (if c then x else y) := by
  split
  · exact hx
  · exact hy

theorem isClassBit_vecClass (f : Fmt) (a : Nat) : IsClassBit (vecClass f a).1 := by
  have bit (j : Nat) (hj : j < 10) : IsClassBit (2 ^ j) := ⟨j, hj, rfl⟩
  unfold vecClass
  split
  case h_1 => exact bit 0 (by decide)
  case h_2 => exact bit 1 (by decide)
  case h_3 => exact .ite (bit 2 (by decide)) (bit 9 (by decide))
  case h_4 =>
    exact .ite (.ite (bit 5 (by decide)) (bit 6 (by decide)))
      (.ite (.ite (bit 4 (by decide)) (bit 7 (by decide))) (.ite (bit 3 (by decide)) (bit 8 (by decide))))

/-! ### Elements of what is written -/

/-- The bits of an element of the instruction's type. -/
def VecEntry.width (e : VecEntry) : Nat := (dtFmt e.dt.toNat).bits

/-- Element `i` of a register in the instruction's type. -/
def VecEntry.elem (e : VecEntry) (r : VReg) (i : Nat) : Nat := elemAt e.width r.toNat i

/-- The elements of a register in the instruction's type. -/
def VecEntry.elems (e : VecEntry) (r : VReg) : List Nat := elemsOf e.width ((elemCount e.dt.toNat).getD 0) r

theorem VecEntry.elem_lt (e : VecEntry) (r : VReg) (i : Nat) : e.elem r i < 2 ^ e.width := elemAt_lt ..

/-- The operations of 0x01 to 0x29 (R131, R135). -/
def arithOps : List VecOp := [.vadd, .vsub, .vmul, .vfma, .vfms, .vdiv, .vsqrt, .vrsqrt, .vrcp, .vmin, .vmax, .vabs, .vneg, .vexp, .vexp2, .vlog,
  .vlog2, .vsin, .vcos, .vtanh, .vsigm, .verf, .vgelu]

/-- The integer operations of 0x40 to 0x49 (R133). -/
def intOps : List VecOp := [.viadd, .visub, .vimul, .vand, .vor, .vxor, .vshl, .vshr, .vsar, .vimax]

/-- The permutes (R143). -/
def permuteOps : List VecOp := [.vperm, .vbcast, .vtrans, .vshuf]

section Result
variable {e : VecEntry} (k : Core) (free : Bool)

theorem VecEntry.result_arith (op : e.op ∈ arithOps) : e.result k free = packResults e.width
    ((List.zip (e.elems (k.vreg e.va)) (List.zip (e.elems (k.vreg e.vb)) (e.elems (k.vreg e.vc)))).map fun x =>
      vecArith e.op e.dt.toNat e.modf.toNat x.1 x.2.1 x.2.2) := by
  unfold VecEntry.result
  generalize e.op = o at op ⊢
  simp only [arithOps, List.mem_cons, List.not_mem_nil, or_false] at op
  rcases op with rfl | rfl | rfl | rfl | rfl | rfl | rfl | rfl | rfl | rfl | rfl | rfl |
    rfl | rfl | rfl | rfl | rfl | rfl | rfl | rfl | rfl | rfl | rfl <;> rfl

theorem VecEntry.result_int (op : e.op ∈ intOps) : e.result k free =
    (packElems e.width (List.zipWith (vecInt e.op e.width e.modf.toNat) (e.elems (k.vreg e.va)) (e.elems (k.vreg e.vb))), 0) := by
  unfold VecEntry.result
  generalize e.op = o at op ⊢
  simp only [intOps, List.mem_cons, List.not_mem_nil, or_false] at op
  rcases op with rfl | rfl | rfl | rfl | rfl | rfl | rfl | rfl | rfl | rfl <;> rfl

theorem VecEntry.result_permute (op : e.op ∈ permuteOps) : e.result k free =
    (packElems e.width (vecPermute e.op e.modf.toNat ((elemCount e.dt.toNat).getD 0) (e.elems (k.vreg e.va)) (e.elems (k.vreg e.vb))
      (elemsOf 16 ((elemCount e.dt.toNat).getD 0) (k.vreg e.vb))), 0) := by
  unfold VecEntry.result
  generalize e.op = o at op ⊢
  simp only [permuteOps, List.mem_cons, List.not_mem_nil, or_false] at op
  rcases op with rfl | rfl | rfl | rfl <;> rfl

theorem VecEntry.result_vcmp (op : e.op = .vcmp) : e.result k free = packResults e.width
    (List.zipWith (fun x y => let r := vecCmp (dtFmt e.dt.toNat) e.modf.toNat x y; (if r.1 then 2 ^ e.width - 1 else 0, r.2))
      (e.elems (k.vreg e.va)) (e.elems (k.vreg e.vb))) := by
  simp only [VecEntry.result, op]
  rfl

theorem VecEntry.result_vsel (op : e.op = .vsel) : e.result k free = (packElems e.width
    (List.zipWith (fun z xy => if z ≠ 0 then xy.1 else xy.2) (e.elems (k.vreg e.vc)) (List.zip (e.elems (k.vreg e.va)) (e.elems (k.vreg e.vb)))),
      0) := by
  simp only [VecEntry.result, op]
  rfl

theorem VecEntry.result_vclass (op : e.op = .vclass) :
    e.result k free = packResults e.width ((e.elems (k.vreg e.va)).map (vecClass (dtFmt e.dt.toNat))) := by
  simp only [VecEntry.result, op]
  rfl

end Result

section Elements
variable {e : VecEntry} {n i : Nat} (count : elemCount e.dt.toNat = some n) (hi : i < n) (k : Core) (free : Bool)
include count hi

theorem getElem?_elems (r : VReg) : (e.elems r)[i]? = some (e.elem r i) := by
  simp only [VecEntry.elems, count, Option.getD_some, getElem?_elemsOf hi, VecEntry.elem]

theorem nth_elems (r : VReg) : nth (e.elems r) i = e.elem r i := by
  rw [nth, List.getD_eq_getElem?_getD, getElem?_elems count hi, Option.getD_some]

theorem elem_arith (op : e.op ∈ arithOps) : e.elem (e.result k free).1 i =
    (vecArith e.op e.dt.toNat e.modf.toNat (e.elem (k.vreg e.va) i) (e.elem (k.vreg e.vb) i) (e.elem (k.vreg e.vc) i)).1 % 2 ^ e.width := by
  rw [VecEntry.result_arith k free op]
  have a := getElem?_elems count hi (k.vreg e.va)
  have b := getElem?_elems count hi (k.vreg e.vb)
  have c := getElem?_elems count hi (k.vreg e.vc)
  exact elemAt_packElems (bits_mul_elemCount count) hi
    (getElem?_map_of_some _ (getElem?_map_of_some _ (getElem?_zipWith_of_some _ a (getElem?_zipWith_of_some _ b c))))

theorem elem_int {o : VecOp} (op : e.op = o) (int : o ∈ intOps) : e.elem (e.result k free).1 i =
    vecInt o e.width e.modf.toNat (e.elem (k.vreg e.va) i) (e.elem (k.vreg e.vb) i) := by
  subst op
  rw [VecEntry.result_int k free int]
  exact elemAt_packElems_of_lt (bits_mul_elemCount count) hi
    (getElem?_zipWith_of_some _ (getElem?_elems count hi _) (getElem?_elems count hi _)) (vecInt_lt _ _ (e.elem_lt ..) (e.elem_lt ..))

theorem elem_vcmp (op : e.op = .vcmp) : e.elem (e.result k free).1 i =
    if (vecCmp (dtFmt e.dt.toNat) e.modf.toNat (e.elem (k.vreg e.va) i) (e.elem (k.vreg e.vb) i)).1 then 2 ^ e.width - 1 else 0 := by
  have positive : 0 < 2 ^ e.width := Nat.two_pow_pos _
  rw [VecEntry.result_vcmp k free op]
  refine elemAt_packElems_of_lt (bits_mul_elemCount count) hi ?listed ?fits
  case listed =>
    exact getElem?_map_of_some _ (getElem?_zipWith_of_some _ (getElem?_elems count hi _) (getElem?_elems count hi _))
  case fits =>
    split
    · exact Nat.sub_one_lt (Nat.ne_of_gt positive)
    · exact positive

theorem elem_vsel (op : e.op = .vsel) : e.elem (e.result k free).1 i =
    if e.elem (k.vreg e.vc) i ≠ 0 then e.elem (k.vreg e.va) i else e.elem (k.vreg e.vb) i := by
  rw [VecEntry.result_vsel k free op]
  refine elemAt_packElems_of_lt (bits_mul_elemCount count) hi ?listed ?fits
  case listed =>
    have pair := getElem?_zipWith_of_some Prod.mk (getElem?_elems count hi (k.vreg e.va)) (getElem?_elems count hi (k.vreg e.vb))
    exact getElem?_zipWith_of_some _ (getElem?_elems count hi (k.vreg e.vc)) pair
  case fits => split <;> exact e.elem_lt ..

theorem elem_vclass (op : e.op = .vclass) :
    e.elem (e.result k free).1 i = (vecClass (dtFmt e.dt.toNat) (e.elem (k.vreg e.va) i)).1 % 2 ^ e.width := by
  rw [VecEntry.result_vclass k free op]
  exact elemAt_packElems (bits_mul_elemCount count) hi (getElem?_map_of_some _ (getElem?_map_of_some _ (getElem?_elems count hi _)))

/-- The class of an element of a floating-point type fits the element (R134). -/
theorem elem_vclass_eq_two_pow (op : e.op = .vclass) (float : dtFloat e.dt.toNat = true) :
    ∃ j < 10, (vecClass (dtFmt e.dt.toNat) (e.elem (k.vreg e.va) i)).1 = 2 ^ j ∧ e.elem (e.result k free).1 i = 2 ^ j := by
  obtain ⟨j, hj, cls⟩ := isClassBit_vecClass (dtFmt e.dt.toNat) (e.elem (k.vreg e.va) i)
  have wide : 16 ≤ e.width := bits_of_dtFloat float
  refine ⟨j, hj, cls, ?_⟩
  rw [elem_vclass count hi k free op, cls, Nat.mod_eq_of_lt (Nat.pow_lt_pow_right Nat.one_lt_two (by omega))]

/-- An element of a permute is the one that the list of the opcode has there. -/
theorem elem_permute {o : VecOp} (op : e.op = o) (permute : o ∈ permuteOps) {x : Nat}
    (listed : (vecPermute o e.modf.toNat n (e.elems (k.vreg e.va)) (e.elems (k.vreg e.vb)) (elemsOf 16 n (k.vreg e.vb)))[i]? = some x)
    (fits : x < 2 ^ e.width) : e.elem (e.result k free).1 i = x := by
  subst op
  rw [VecEntry.result_permute k free permute, count]
  exact elemAt_packElems_of_lt (bits_mul_elemCount count) hi listed fits

theorem elem_vbcast (op : e.op = .vbcast) : e.elem (e.result k free).1 i = e.elem (k.vreg e.va) (i / 2 ^ e.modf.toNat) := by
  have source : i / 2 ^ e.modf.toNat < n := Nat.lt_of_le_of_lt (Nat.div_le_self ..) hi
  refine elem_permute count hi k free op (by decide) ?_ (e.elem_lt ..)
  have listed := getElem?_map_of_some (fun j => nth (e.elems (k.vreg e.va)) (j / 2 ^ e.modf.toNat)) (getElem?_rangeFrom hi)
  rwa [nth_elems count source] at listed

theorem elem_vperm (op : e.op = .vperm) : e.elem (e.result k free).1 i =
    if elemAt 16 (k.vreg e.vb).toNat i < n then e.elem (k.vreg e.va) (elemAt 16 (k.vreg e.vb).toNat i) else 0 := by
  have index : nth (elemsOf 16 n (k.vreg e.vb)) i = elemAt 16 (k.vreg e.vb).toNat i := by
    rw [nth, List.getD_eq_getElem?_getD, getElem?_elemsOf hi, Option.getD_some]
  refine elem_permute count hi k free op (by decide) ?listed ?fits
  case listed =>
    simp only [vecPermute, List.getElem?_map, getElem?_rangeFrom hi, Option.map_some, index]
    split
    case isTrue source => rw [nth_elems count source]
    case isFalse => rfl
  case fits =>
    split
    · exact e.elem_lt ..
    · exact Nat.two_pow_pos _

/-- Element `r` of row `col` of a transpose: the source has rows of `2^m` elements (R143). -/
theorem elem_vtrans (op : e.op = .vtrans) (rows : e.modf.toNat ≤ elemLog e.dt.toNat) {r col : Nat}
    (place : i = col * (n / 2 ^ e.modf.toNat) + r) (hr : r < n / 2 ^ e.modf.toNat) :
    e.elem (e.result k free).1 i = e.elem (k.vreg e.va) (r * 2 ^ e.modf.toNat + col) := by
  have whole : n / 2 ^ e.modf.toNat * 2 ^ e.modf.toNat = n :=
    Nat.div_mul_cancel (elemCount_eq_two_pow count ▸ Nat.pow_dvd_pow 2 rows)
  have row : i % (n / 2 ^ e.modf.toNat) = r := by rw [place, Nat.mul_add_mod', Nat.mod_eq_of_lt hr]
  have column : i / (n / 2 ^ e.modf.toNat) = col := by
    rw [place, Nat.mul_comm, Nat.mul_add_div (Nat.zero_lt_of_lt hr), Nat.div_eq_of_lt hr, Nat.add_zero]
  have inColumn : col < 2 ^ e.modf.toNat := by
    rw [← column]
    exact Nat.div_lt_of_lt_mul (whole.symm ▸ hi)
  have source : r * 2 ^ e.modf.toNat + col < n := by
    calc r * 2 ^ e.modf.toNat + col < r * 2 ^ e.modf.toNat + 2 ^ e.modf.toNat := Nat.add_lt_add_left inColumn _
      _ = (r + 1) * 2 ^ e.modf.toNat := (Nat.succ_mul ..).symm
      _ ≤ n / 2 ^ e.modf.toNat * 2 ^ e.modf.toNat := Nat.mul_le_mul_right _ hr
      _ = n := whole
  refine elem_permute count hi k free op (by decide) ?_ (e.elem_lt ..)
  simp only [vecPermute, List.getElem?_map, getElem?_rangeFrom hi, Option.map_some, row, column, nth_elems count source]

end Elements

/-- Settles O26: the register that is written has its elements where the list of results has them, and each clause is a fact about one of them. -/
theorem elementsOfVectorResults : Obligations.ElementsOfVectorResults := by
  intro k e free n i count hi
  have int {o : VecOp} (op : e.op = o) (isInt : o ∈ intOps) := elem_int count hi k free op isInt
  refine ⟨elem_arith count hi k free, fun op => int op (by decide), fun op => ?visub, fun op => int op (by decide), fun op => int op (by decide),
    fun op => int op (by decide), fun op => int op (by decide), ?shifts, fun op => int op (by decide), elem_vcmp count hi k free,
    elem_vsel count hi k free, elem_vclass_eq_two_pow count hi k free, elem_vbcast count hi k free, fun op _ => elem_vperm count hi k free op,
    fun op rows r col => elem_vtrans count hi k free op rows⟩
  case visub =>
    refine (congrArg (fun d => (d + e.elem (k.vreg e.vb) i) % 2 ^ e.width) (int op (by decide))).trans ?_
    exact vecInt_visub_add _ (e.elem_lt ..) (e.elem_lt ..)
  case shifts =>
    rintro cnt rfl
    exact ⟨fun op => int op (by decide), fun op => int op (by decide), fun op => int op (by decide)⟩

end Sys2Proof.Machine
end

section
/-! PROOFS. Stream engines: the slots of an engine and the turn between them (R149), and what the rows that start, resume, issue and
complete come to (R155 to R166, R553). -/

namespace Sys2Proof.Machine

/-! ### What a command that runs a function of the state comes to -/

section Row
variable {i : Instr} {s t u : State} (row : exec i s = s.answer u) (runs : u = t)
include row runs

theorem exec_eq_answer : exec i s = s.answer t := runs ▸ row

theorem exec_eq_next (queue : t.pending = s.pending) : exec i s = .next t := (exec_eq_answer row runs).trans (State.answer_same s t queue)

end Row

/-! ### The rows of the stream engines -/

section Quiet
variable {s : State} {cl : ClusterId} {se : Fin 4} (quiet : s.quiesced (.stream cl se) = false)
include quiet

theorem exec_streamStart : exec (.streamStart cl se) s = s.answer (s.streamStart (4 * cl.val + se.val)) :=
  congrArg s.answer (if_neg (Bool.eq_false_iff.mp quiet))

theorem exec_streamRequestIssue (slot : Fin 8) :
    exec (.streamRequestIssue cl se slot) s = s.answer (s.streamIssue (4 * cl.val + se.val) slot.val) :=
  congrArg s.answer (if_neg (Bool.eq_false_iff.mp quiet))

theorem exec_streamResume (sid : Nat) (thawed : s.frozenEngine (4 * cl.val + se.val) = false) :
    exec (.streamResume cl se sid) s = s.answer (s.streamResume (4 * cl.val + se.val) sid) :=
  congrArg s.answer ((if_neg (Bool.eq_false_iff.mp quiet)).trans (if_neg (Bool.eq_false_iff.mp thawed)))

end Quiet

section Rows
variable (s : State) (cl : ClusterId) (se : Fin 4)

/-- A hung engine takes no new work (R349): a row that would leave the state as it is does so on every engine. -/
theorem exec_streamStart_idle (idle : s.streamStart (4 * cl.val + se.val) = s) : exec (.streamStart cl se) s = .next s :=
  exec_eq_next rfl (idle.symm ▸ ite_self s) rfl

theorem exec_streamRequestIssue_idle {slot : Fin 8} (idle : s.streamIssue (4 * cl.val + se.val) slot.val = s) :
    exec (.streamRequestIssue cl se slot) s = .next s :=
  exec_eq_next rfl (idle.symm ▸ ite_self s) rfl

theorem exec_streamRequestComplete (id : Nat) :
    exec (.streamRequestComplete cl se id) s = s.answer (s.streamComplete (4 * cl.val + se.val) id) := rfl

theorem exec_creditGrant (slot : Fin 8) : exec (.creditGrant cl se slot) s = s.answer (s.creditGrant (4 * cl.val + se.val) slot.val) := rfl

theorem exec_rdmaOperationFailed (id : Nat) : exec (.rdmaOperationFailed id) s = s.answer (s.rdmaFailed id) := rfl

end Rows

/-! ### Slots and turns (R149) -/

theorem StreamEngine.freeSlot_eq_some {g : StreamEngine} {slot : Nat} : g.freeSlot = some slot ↔
    slot < 8 ∧ Tbl.find g.active slot = none ∧ ∀ i, i < slot → (Tbl.find g.active i).isSome = true := by
  simp only [StreamEngine.freeSlot, List.find?_range_eq_some, activeSlots, List.mem_range, Option.isNone_iff_eq_none, Option.not_isNone]
  exact and_left_comm

/-- The slots are tried from the one after the last served, each of the eight once. -/
theorem mem_slotsFrom (turn : Nat) {j : Nat} : j ∈ (rangeFrom (turn + 1) activeSlots).map (· % activeSlots) ↔ j < 8 := by
  simp only [rangeFrom_eq_range', activeSlots, List.mem_map, List.mem_range'_1]
  constructor
  · rintro ⟨k, -, rfl⟩
    exact Nat.mod_lt k (by decide)
  · intro hj
    exact ⟨turn + 1 + (j + 7 - turn % 8) % 8, by omega, by omega⟩

theorem StreamEngine.nextSlot_active {g : StreamEngine} {j : Nat} (turn : g.nextSlot = some j) :
    j < 8 ∧ ∃ t, Tbl.find g.active j = some t ∧ t.canIssue = true := by
  refine ⟨(mem_slotsFrom g.turn).mp (List.mem_of_find?_eq_some turn), ?_⟩
  have issues := List.find?_some turn
  cases active : Tbl.find g.active j with
  | none => simp [active] at issues
  | some t => exact ⟨t, rfl, by simpa [active] using issues⟩

theorem StreamEngine.canIssue_of_nextSlot {g : StreamEngine} {j : Nat} {t : Stream} (turn : g.nextSlot = some j)
    (active : Tbl.find g.active j = some t) : t.canIssue = true := by
  obtain ⟨-, u, atSlot, issues⟩ := StreamEngine.nextSlot_active turn
  rwa [Option.some.inj (active.symm.trans atSlot)]

/-- The only slot whose stream has a request to issue has the turn. -/
theorem StreamEngine.nextSlot_of_only {g : StreamEngine} {slot : Fin 8} {t : Stream} (active : Tbl.find g.active slot = some t)
    (issues : t.canIssue = true) (only : ∀ i : Fin 8, i ≠ slot → (Tbl.find g.active i).all (fun u => !u.canIssue)) :
    g.nextSlot = some slot.val := by
  cases turn : g.nextSlot with
  | none =>
    have idle := List.find?_eq_none.mp turn slot ((mem_slotsFrom g.turn).mpr slot.isLt)
    simp [active, issues] at idle
  | some j =>
    obtain ⟨hj, u, atSlot, canIssue⟩ := StreamEngine.nextSlot_active turn
    by_cases same : j = slot
    · rw [same]
    · have silent := only ⟨j, hj⟩ (Fin.ne_of_val_ne same)
      simp [atSlot, canIssue] at silent

/-! ### Starting, credit and resumption (R155, R160, R166) -/

section Start
variable {s : State} {e : Nat} {q : QueuedDesc} {rest : List QueuedDesc} {slot : Nat}

theorem State.streamStart_eq (going : (s.engine e).stopped = false) (queue : (s.engine e).queue = q :: rest)
    (free : (s.engine e).freeSlot = some slot) (resume : (s.engine e).suspended.any Stream.resumable = false)
    (sound : s.suspectCtx q.ctx = false) :
    s.streamStart e =
      let p := s.modEngine e fun g => { g with queue := rest }
      let t := Stream.start q slot p.number.1
      if p.descOk (e / 4) q.ctx (SDesc.of q.desc) then p.number.2.modEngine e fun g => { g with active := Tbl.set g.active slot t }
      else (p.streamStop e { t with suspTime := s.ltime } 0x10 2).settle [.lose q.ctx] := by
  simp [State.streamStart, going, queue, free, resume, sound]

theorem State.streamStart_idle (idle : (s.engine e).queue = [] ∨ (s.engine e).freeSlot = none ∨ (s.engine e).stopped = true ∨
    (s.engine e).suspended.any Stream.resumable = true) : s.streamStart e = s := by
  unfold State.streamStart
  obtain empty | full | stopped | resumes := idle
  · simp [empty]
  · simp [full]
  · simp [stopped]; split <;> rfl
  · simp only [resumes]; split <;> simp

end Start

section Credit
variable {s : State} {e slot : Nat} {t : Stream} (active : Tbl.find (s.engine e).active slot = some t)
include active

theorem State.creditGrant_granted (granted : t.cwait = .granted) :
    s.creditGrant e slot = s.modStream e t.sid fun t => { t with credit := t.credit + 1, cwait := .none } := by
  simp [State.creditGrant, active, granted]

theorem State.creditGrant_waits (waits : t.cwait ≠ .granted) : s.creditGrant e slot = s := by
  simp [State.creditGrant, active, waits]

end Credit

theorem State.streamResume_suspended {s : State} {e sid slot : Nat} {t : Stream} (going : (s.engine e).stopped = false)
    (inOrder : (s.engine e).inOrder sid = true) (suspended : (s.engine e).suspended.find? (fun t => t.sid == sid) = some t)
    (resumes : t.resumable = true) (free : (s.engine e).freeSlot = some slot) :
    s.streamResume e sid = ((s.modEngine e fun g => { g with order := g.order.filter (· ≠ sid) }).modEngine e fun g => { g with
      suspended := g.suspended.filter fun u => u.sid ≠ sid
      active := Tbl.set g.active slot
        { t with slot := slot, stopping := false, ready := false, lookup := none, tile := t.cursor, line := 0, cause := 0 } }).parkAll e := by
  simp [State.streamResume, going, inOrder, suspended, resumes, free]

/-- Settles O35: a free slot is the lowest, and each row does what its premises choose. -/
theorem streamsStartAndResumeInAFreeSlot : Obligations.StreamsStartAndResumeInAFreeSlot := by
  intro s cl se e g
  refine ⟨?start, ?idle, ?credit, ?resume⟩
  case start =>
    intro q rest slot quiet going queue free resume sound
    have started := State.streamStart_eq going queue free resume sound
    exact ⟨StreamEngine.freeSlot_eq_some.mp free, ⟨rfl, rfl, rfl, rfl, rfl, rfl, rfl⟩,
      fun ok => exec_eq_next (exec_streamStart quiet) (started.trans (if_pos ok)) rfl,
      fun bad => exec_eq_answer (exec_streamStart quiet) (started.trans (if_neg (Bool.eq_false_iff.mp bad)))⟩
  case idle => exact fun idle => exec_streamStart_idle s cl se (State.streamStart_idle idle)
  case credit =>
    intro slot t active
    exact ⟨fun granted => exec_eq_next (exec_creditGrant s cl se slot) (State.creditGrant_granted active granted) rfl,
      fun waits => exec_eq_next (exec_creditGrant s cl se slot) (State.creditGrant_waits active waits) rfl⟩
  case resume =>
    intro sid t slot quiet thawed going inOrder suspended resumes free
    exact exec_eq_answer (exec_streamResume quiet sid thawed) (State.streamResume_suspended going inOrder suspended resumes free)

end Sys2Proof.Machine
end

section
/-! PROOFS. The requests of a stream: which one an engine issues, and what a request at an end inside the module reads and writes (R157,
R158, R162, R553). -/

namespace Sys2Proof.Machine

/-! ### Issuing (R157, R160) -/

section Issue
variable {s : State} {e slot : Nat} {t : Stream} (active : Tbl.find (s.engine e).active slot = some t) (noLookup : t.lookup = none)
  (room : (s.engine e).outstanding < 8192)
include active noLookup room

theorem State.streamIssue_write {r : StreamReq} (ready : t.writable (SDesc.of t.desc) = some r) (turn : (s.engine e).nextSlot = some slot) :
    s.streamIssue e slot = (s.modEngine e fun g => { g with turn := slot }).issueWrite e t (SDesc.of t.desc) r := by
  simp [State.streamIssue, active, noLookup, engineRequests, Nat.not_le.mpr room, ready, turn]

theorem State.streamIssue_askCredit (noWrite : t.writable (SDesc.of t.desc) = none) (credit : t.needsCredit (SDesc.of t.desc) = true) :
    s.streamIssue e slot = s.askCredit e slot t (SDesc.of t.desc) := by
  simp [State.streamIssue, active, noLookup, engineRequests, Nat.not_le.mpr room, noWrite, credit]

theorem State.streamIssue_read (noWrite : t.writable (SDesc.of t.desc) = none) (credit : t.needsCredit (SDesc.of t.desc) = false)
    (turn : (s.engine e).nextSlot = some slot) :
    s.streamIssue e slot = (s.modEngine e fun g => { g with turn := slot }).issueRead e t (SDesc.of t.desc) := by
  simp [State.streamIssue, active, noLookup, engineRequests, Nat.not_le.mpr room, noWrite, credit, turn]

/-- A stream with no write ready and its tiles all issued, or being suspended, has no turn. -/
theorem State.streamIssue_done (noWrite : t.writable (SDesc.of t.desc) = none) (credit : t.needsCredit (SDesc.of t.desc) = false)
    (done : t.stopping = true ∨ (SDesc.of t.desc).tiles ≤ t.tile) : s.streamIssue e slot = s := by
  have unreadable : t.readable (SDesc.of t.desc) = false := by
    obtain stopping | past := done
    · simp [Stream.readable, stopping]
    · simp [Stream.readable, Nat.not_lt.mpr past]
  have noTurn : (s.engine e).nextSlot ≠ some slot := fun turn => by
    have issues := StreamEngine.canIssue_of_nextSlot turn active
    simp [Stream.canIssue, noWrite, unreadable] at issues
  simp [State.streamIssue, active, noLookup, engineRequests, Nat.not_le.mpr room, noWrite, credit, noTurn]

end Issue

theorem State.streamIssue_none {s : State} {e slot : Nat} (empty : Tbl.find (s.engine e).active slot = none) : s.streamIssue e slot = s := by
  simp [State.streamIssue, empty]

/-- Local memory of a core of the cluster, or its scratch: an end that a request reaches without a check at issue. -/
def LineEnd.inside (x : LineEnd) : Prop := (∃ c a, x = .localMem c a) ∨ ∃ a, x = .scratch a

/-- The request that a read of the next line enters in its stream's list. -/
def State.readReq (s : State) (t : Stream) : StreamReq :=
  ⟨s.number.1, t.tile, t.line, .reading, 0, 0, 0, 0, 0, s.ctxEpoch t.ctx, s.number.1, false⟩

section IssueAtEnd
variable {s : State} {e : Nat} {t : Stream} {d : SDesc}

theorem State.issueWrite_inside {r : StreamReq} (mop : d.mop = 0) (inside : (s.dstEnd e t d r.tile r.line).inside) :
    s.issueWrite e t d r = s.number.2.modStream e t.sid fun x => x.mapReq r.id fun q =>
      { q with phase := .writing, epoch := s.ctxEpoch t.ctx, seq := s.number.1 } := by
  unfold State.issueWrite
  obtain ⟨c, a, atEnd⟩ | ⟨a, atEnd⟩ := inside <;> cases mopDecode d.mop <;> simp [mop, atEnd]

section Read
variable (srcNear : d.srcKind ≠ 4) (dstNear : d.dstKind ≠ 4)
include srcNear dstNear

theorem State.issueRead_inside (inside : (s.srcEnd e t d t.tile t.line).inside) :
    s.issueRead e t d = s.number.2.modStream e t.sid fun x => x.issued d (s.readReq t) := by
  unfold State.issueRead
  obtain ⟨c, a, atEnd⟩ | ⟨a, atEnd⟩ := inside <;> simp [srcNear, dstNear, atEnd, State.readReq]

theorem State.issueRead_part {p a : Nat} {who : Principal} {own : Bool} (atEnd : s.srcEnd e t d t.tile t.line = .part p a who own)
    (space : s.inSpace p a = true) :
    s.issueRead e t d = (s.number.2.countDemote (e / 4) t.cls).modStream e t.sid fun x => x.issued d (s.readReq t) := by
  unfold State.issueRead
  simp [srcNear, dstNear, atEnd, space, State.readReq]

end Read

end IssueAtEnd

@[simp] theorem State.countDemote_pending (s : State) (c : Nat) (cls : BitVec 3) : (s.countDemote c cls).pending = s.pending := by
  unfold State.countDemote
  split <;> rfl

/-! ### Completing (R158) -/

section Complete
variable {s : State} {e id : Nat} {i : Option Nat} {t : Stream} {r : StreamReq} (found : (s.engine e).ofReq id = some (i, t))
  (listed : t.reqs.find? (fun r => r.id == id) = some r)
include found listed

theorem State.streamComplete_held (held : r.phase = .data ∨ s.behind e t (SDesc.of t.desc) r = true) : s.streamComplete e id = s := by
  obtain ready | behind := held
  · simp [State.streamComplete, found, listed, ready]
  · simp [State.streamComplete, found, listed, behind]

variable (first : s.behind e t (SDesc.of t.desc) r = false)
include first

theorem State.streamComplete_read (phase : r.phase = .reading) : s.streamComplete e id = s.completeRead e t (SDesc.of t.desc) r := by
  simp [State.streamComplete, found, listed, first, phase]

theorem State.streamComplete_write (phase : r.phase = .writing) : s.streamComplete e id = s.completeWrite e t (SDesc.of t.desc) r := by
  simp [State.streamComplete, found, listed, first, phase]

end Complete

section CompleteAtEnd
variable {s : State} {e : Nat} {t : Stream} {d : SDesc} {r : StreamReq} {a : Nat}

theorem State.completeRead_localMem {c : Nat} (atEnd : s.srcEnd e t d r.tile r.line = .localMem c a) (sound : (s.core c).poisoned a 64 = false)
    (double : (s.core c).lmDouble a 64 = false) (single : (s.core c).lmSingle a 64 = false) :
    s.completeRead e t d r = (s.modCore c fun k => k).readReturned e r.id (lineOfBytes ((s.core c).peek a 64)) := by
  simp [State.completeRead, atEnd, sound, double, single]

theorem State.completeRead_part {p : Nat} {who : Principal} {own : Bool} (atEnd : s.srcEnd e t d r.tile r.line = .part p a who own) :
    s.completeRead e t d r = readAnswered e r.id a (s.cachedRead (e / 4) (s.streamReq e t r who p a) (.stream e r.id)) := by
  simp only [State.completeRead, atEnd]

section Peer
variable {m mem : Nat} (atEnd : s.srcEnd e t d r.tile r.line = .peer m mem a)
include atEnd

theorem State.completeRead_away (away : r.hit = false) : s.completeRead e t d r = s := by
  simp [State.completeRead, atEnd, away]

theorem State.completeRead_held {l : CacheLine} (hit : r.hit = true) (held : s.peerCached (e / 4) (s.ctx t.ctx).forme mem t.ctx a = some l) :
    s.completeRead e t d r = (s.modCluster (e / 4) fun k => k.cacheTouch l).readReturned e r.id l.data := by
  simp [State.completeRead, atEnd, hit, held]

end Peer

theorem State.completeWrite_localMem {c : Nat} (atEnd : s.dstEnd e t d r.tile r.line = .localMem c a) :
    s.completeWrite e t d r = (s.modCore c fun k => k.lmWrite a (bytesOfLine r.data)).writeReturned e r.id := by
  simp only [State.completeWrite, atEnd]

theorem State.completeWrite_scratch (atEnd : s.dstEnd e t d r.tile r.line = .scratch a) :
    s.completeWrite e t d r = (s.modCluster (e / 4) fun k => k.scratchWrite a (bytesOfLine r.data)).writeReturned e r.id := by
  simp only [State.completeWrite, atEnd]

theorem State.completeWrite_part {p : Nat} {who : Principal} {own : Bool} (atEnd : s.dstEnd e t d r.tile r.line = .part p a who own) :
    s.completeWrite e t d r =
      if d.mop = 0 then writeAnswered e r.id false (s.askWrite (s.streamReq e t r who p a) r.data (.stream e r.id)) t.ctx
      else writeAnswered e r.id true (s.askOp (s.streamReq e t r who p a) d.mop (r.data.zeroExtend 1024) (.stream e r.id)) t.ctx := by
  simp only [State.completeWrite, atEnd]

end CompleteAtEnd

/-- A line written to local memory leaves every byte beside it. -/
theorem Core.read_lmWrite_line_outside (k : Core) (a b : Nat) (v : BitVec 512) (beside : b < a ∨ a + 64 ≤ b) :
    Mem.read (k.lmWrite a (bytesOfLine v)).lm b = Mem.read k.lm b := by
  rw [Core.lmWrite_lm]
  exact Mem.read_writeBytes_outside _ _ _ _ (by rwa [bytesOfLine, leBytes_length])

/-! ### Operations at the host (R553) -/

theorem State.rdmaFailed_stream {s : State} {id e r : Nat} {o : RdmaOut} (out : s.rdmaOut.find? (fun o => o.id == id) = some o)
    (use : o.use = .stream e r) : s.rdmaFailed id = (s.endRdma id).streamHostFailed e r := by
  simp [State.rdmaFailed, out, use]

theorem State.rdmaFailed_none {s : State} {id : Nat} (unknown : s.rdmaOut.find? (fun o => o.id == id) = none) : s.rdmaFailed id = s := by
  simp [State.rdmaFailed, unknown]

/-- Settles O36: the issue is the one that the stream's turn and lists choose, and the completion the one at the request's end. -/
theorem streamRequestsMoveTheirLines : Obligations.StreamRequestsMoveTheirLines := by
  intro s cl se e g
  have cluster : e / 4 = cl.val := by omega
  refine ⟨?issue, ?empty, ?complete, ?failed, ?unknown⟩
  case issue =>
    intro slot t active quiet noLookup room d turned
    have row := exec_streamRequestIssue quiet slot
    have write {r : StreamReq} := State.streamIssue_write (r := r) active noLookup room
    have read := State.streamIssue_read active noLookup room
    refine ⟨fun r ready turn => exec_eq_answer row (write ready turn),
      fun noWrite credit => exec_eq_answer row (State.streamIssue_askCredit active noLookup room noWrite credit),
      fun noWrite credit _ _ _ turn => exec_eq_answer row (read noWrite credit turn),
      fun noWrite credit done => exec_eq_next row (State.streamIssue_done active noLookup room noWrite credit done) rfl, ⟨?_, ?_⟩,
      StreamEngine.nextSlot_of_only active, fun j turn u => StreamEngine.canIssue_of_nextSlot turn⟩
    · intro r ready turn mop inside
      exact exec_eq_next row ((write ready turn).trans (State.issueWrite_inside mop inside)) rfl
    · intro noWrite credit _ _ _ turn srcNear dstNear
      refine ⟨fun inside => ?_, fun p a who own atEnd space => ?_⟩
      · exact exec_eq_next row ((read noWrite credit turn).trans (State.issueRead_inside srcNear dstNear inside)) rfl
      · rw [← cluster]
        exact exec_eq_next row ((read noWrite credit turn).trans (State.issueRead_part srcNear dstNear atEnd space)) (State.countDemote_pending ..)
  case empty => exact fun slot empty => exec_streamRequestIssue_idle s cl se (State.streamIssue_none empty)
  case complete =>
    intro id i t r found listed d
    have row := exec_streamRequestComplete s cl se id
    refine ⟨fun held => exec_eq_next row (State.streamComplete_held found listed held) rfl, fun first => ?_⟩
    have read {u : State} (phase : r.phase = .reading) (runs : s.completeRead e t d r = u) :=
      exec_eq_answer row ((State.streamComplete_read found listed first phase).trans runs)
    have write {u : State} (phase : r.phase = .writing) (runs : s.completeWrite e t d r = u) :=
      exec_eq_answer row ((State.streamComplete_write found listed first phase).trans runs)
    rw [← cluster]
    exact ⟨fun phase c a atEnd sound double single => read phase (State.completeRead_localMem atEnd sound double single),
      fun phase p a who own atEnd => read phase (State.completeRead_part atEnd),
      fun phase m mem a atEnd => ⟨fun away => read phase (State.completeRead_away atEnd away),
        fun l hit held => read phase (State.completeRead_held atEnd hit held)⟩,
      fun phase c a atEnd => ⟨write phase (State.completeWrite_localMem atEnd), fun b => Core.read_lmWrite_line_outside _ a b r.data⟩,
      fun phase a atEnd => write phase (State.completeWrite_scratch atEnd),
      fun phase p a who own atEnd => write phase (State.completeWrite_part atEnd)⟩
  case failed => exact fun id o f r out use => exec_eq_answer (exec_rdmaOperationFailed s id) (State.rdmaFailed_stream out use)
  case unknown => exact fun id unknown => exec_eq_next (exec_rdmaOperationFailed s id) (State.rdmaFailed_none unknown) rfl

end Sys2Proof.Machine
end

section
/-! PROOFS. The translation caches: what a purge, a fill and an answer leave for a lookup to find (R162, R163, R176). -/

namespace Sys2Proof.Machine

/-! ### Lookups -/

/-- What a lookup finds stands in a set, is of its own size's set and translates the address. -/
theorem TransCache.find_eq_some {k : TransCache} {conn asn va : Nat} {x : TcEntry} (found : k.find conn asn va = some x) :
    x ∈ Tbl.get [] k.sets (tcSet asn (va / 2 ^ x.size.shift)) ∧ x.hits conn asn va = true := by
  obtain ⟨z, -, atSize⟩ := List.exists_of_findSome?_eq_some found
  have ⟨size, hits⟩ : x.size = z ∧ x.hits conn asn va = true := by simpa using List.find?_some atSize
  exact ⟨size ▸ List.mem_of_find?_eq_some atSize, hits⟩

/-- A lookup finds an entry where one that translates the address stands in its set. -/
theorem TransCache.find_isSome {k : TransCache} {conn asn va : Nat} {x : TcEntry}
    (listed : x ∈ Tbl.get [] k.sets (tcSet asn (va / 2 ^ x.size.shift))) (hits : x.hits conn asn va = true) :
    (k.find conn asn va).isSome = true := by
  rw [TransCache.find, List.findSome?_isSome_iff]
  refine ⟨x.size, by cases x.size <;> decide, ?_⟩
  exact List.find?_isSome.mpr ⟨x, listed, by simp [hits]⟩

theorem TcEntry.hits_iff {x : TcEntry} {conn asn va : Nat} :
    x.hits conn asn va = true ↔ x.conn = conn ∧ x.asn = asn ∧ x.page = va / 2 ^ x.size.shift := by
  simp [TcEntry.hits, and_assoc]

theorem Tbl.mem_of_mem_get {α : Type} {t : Tbl (List α)} {n : Nat} {x : α} (h : x ∈ Tbl.get [] t n) : ∃ l, (n, l) ∈ t ∧ x ∈ l := by
  induction t with
  | nil => simp at h
  | cons p r ih =>
    obtain ⟨j, l⟩ := p
    by_cases here : j = n
    · exact ⟨l, by simp [here], by simpa [Tbl.get, here] using h⟩
    · obtain ⟨m, listed, hm⟩ := ih (by simpa [Tbl.get, here] using h)
      exact ⟨m, List.mem_cons_of_mem _ listed, hm⟩

theorem Tbl.get_map_filter {α : Type} (t : Tbl (List α)) (p : α → Bool) (n : Nat) :
    Tbl.get [] (t.map fun (e : Nat × List α) => (e.1, e.2.filter p)) n = (Tbl.get [] t n).filter p := by
  induction t with
  | nil => rfl
  | cons q r ih =>
    obtain ⟨j, l⟩ := q
    by_cases here : j = n <;> simp [Tbl.get, here, ih]

/-! ### Fills and answers (R162, R163) -/

/-- The set of a filled entry holds it. -/
theorem TransCache.mem_fill (k : TransCache) (x : TcEntry) : x ∈ Tbl.get [] (k.fill x).sets (tcSet x.asn x.page) := by
  simp [TransCache.fill]

/-- A fill brings in no entry but its own. -/
theorem TransCache.mem_of_mem_fill {k : TransCache} {x y : TcEntry} {n : Nat} (h : y ∈ Tbl.get [] (k.fill x).sets n) :
    y = x ∨ y ∈ Tbl.get [] k.sets n := by
  simp only [TransCache.fill, Tbl.get_mod] at h
  split at h
  next same =>
    obtain kept | own := List.mem_append.mp h
    · refine .inr ?_
      split at kept
      · exact same ▸ (List.mem_filter.mp (List.mem_of_mem_drop kept)).1
      · exact same ▸ (List.mem_filter.mp kept).1
    · exact .inl (by simpa using own)
  next => exact .inr h

theorem TransCache.find_fill_isSome (k : TransCache) {x : TcEntry} {va : Nat} (page : x.page = va / 2 ^ x.size.shift) :
    ((k.fill x).find x.conn x.asn va).isSome = true :=
  TransCache.find_isSome (page ▸ k.mem_fill x) (TcEntry.hits_iff.mpr ⟨rfl, rfl, page⟩)

/-- Once the entries that served an address have left, the one that is filled is the only one that serves it. -/
theorem TransCache.find_answer (k : TransCache) {x : TcEntry} {va : Nat} (page : x.page = va / 2 ^ x.size.shift) :
    (k.answer va x).find x.conn x.asn va = some x := by
  obtain ⟨y, found⟩ := Option.isSome_iff_exists.mp ((k.without x.conn x.asn va).find_fill_isSome page)
  obtain ⟨listed, hits⟩ := TransCache.find_eq_some found
  obtain rfl | old := TransCache.mem_of_mem_fill listed
  · exact found
  · rw [TransCache.without, Tbl.get_map_filter] at old
    simp [hits] at old

/-! ### Purges (R176) -/

/-- The cache after an invalidation of generation `g`: the entries that it meets have left. -/
def TransCache.purged (k : TransCache) (g : Nat) (drop : TcEntry → Bool) : TransCache :=
  { k with gen := g, sets := k.sets.map fun (e : Nat × List TcEntry) => (e.1, e.2.filter fun x => !drop x) }

theorem TransCache.not_drop_of_mem_purged {k : TransCache} {g n : Nat} {drop : TcEntry → Bool} {l : List TcEntry} {x : TcEntry}
    (set : (n, l) ∈ (k.purged g drop).sets) (hx : x ∈ l) : drop x = false := by
  obtain ⟨e, -, same⟩ := List.mem_map.mp set
  obtain ⟨rfl, rfl⟩ := Prod.mk.inj same
  simpa using (List.mem_filter.mp hx).2

theorem TransCache.not_drop_of_find_purged {k : TransCache} {g conn asn va : Nat} {drop : TcEntry → Bool} {x : TcEntry}
    (found : (k.purged g drop).find conn asn va = some x) : drop x = false := by
  obtain ⟨l, set, hx⟩ := Tbl.mem_of_mem_get (TransCache.find_eq_some found).1
  exact TransCache.not_drop_of_mem_purged set hx

/-- An entry of the address space that an invalidation spares lies beside its range. -/
theorem invalidates_eq_false {conn asn lo hi : Nat} {all : Bool} {x : TcEntry} (spared : invalidates conn asn all lo hi x = false)
    (hconn : x.conn = conn) (hasn : x.asn = asn) :
    all = false ∧ (hi ≤ x.page * 2 ^ x.size.shift ∨ (x.page + 1) * 2 ^ x.size.shift ≤ lo) := by
  simp only [invalidates, hconn, hasn, beq_self_eq_true, Bool.and_self, Bool.true_and, Bool.or_eq_false_iff, decide_eq_false_iff_not] at spared
  exact ⟨spared.1, by omega⟩

/-- So does every address of its page. -/
theorem outside_of_page_outside {lo hi va page n : Nat} (at_ : page = va / 2 ^ n) (beside : hi ≤ page * 2 ^ n ∨ (page + 1) * 2 ^ n ≤ lo) :
    va < lo ∨ hi ≤ va := by
  subst at_
  obtain below | above := beside
  · exact .inr (Nat.le_trans below (Nat.div_mul_le_self va _))
  · exact .inl (Nat.lt_of_lt_of_le (Nat.lt_mul_of_div_lt (Nat.lt_succ_self _) (Nat.two_pow_pos n)) above)

end Sys2Proof.Machine
end

section
/-! PROOFS. Invalidations: the rows that begin, hold and acknowledge them (R176, R496, R555). -/

namespace Sys2Proof.Machine

theorem exec_invalidate (conn : ConnId) (m : TransMsg) (s : State) : exec (.invalidate conn m) s = s.answer (s.invalidate conn.val m) := rfl

theorem exec_invalidationEngineReport (cl : ClusterId) (se : Fin 4) (s : State) :
    exec (.invalidationEngineReport cl se) s = s.answer (s.engineReport (4 * cl.val + se.val)) := rfl

/-! ### INVALIDATE -/

/-- An invalidation with a field set that must be zero (R555). -/
def IsBadInvalidate (m : TransMsg) : Prop :=
  m.rsv = true ∨ m.status ≠ 0 ∨ m.psize ≠ 0 ∨ m.rd = true ∨ m.wr = true ∨ m.spec = true ∨ m.access = true ∨ m.target ≠ 0 ∨ m.mkey ≠ 0 ∨
    (m.all = true ∧ (m.va ≠ 0 ∨ m.vaEnd ≠ 0))

/-- The four caches of the module, each purged. -/
def State.purgeCaches (s : State) (g : Nat) (drop : TcEntry → Bool) : State :=
  (List.range 4).foldl (fun s d => s.modTcache d fun k => k.purged g drop) s

/-- The state after an invalidation has begun: its generation, the caches without what it meets, and every engine to report. -/
def State.invalidationBegun (s : State) (conn : Nat) (m : TransMsg) : State :=
  let g := s.agent.gen + 1
  let p := s.purgeCaches g (invalidates conn m.asn.toNat m.all m.va.toNat m.vaEnd.toNat)
  { p with agent := { p.agent with gen := g, invals := p.agent.invals ++ [⟨g, List.range 192, conn, m.asn.toNat, m.reqId.toNat⟩] } }

/-- A purge changes the caches and nothing else. -/
theorem State.purgeCaches_eq (s : State) (g : Nat) (drop : TcEntry → Bool) : ∃ c, s.purgeCaches g drop = { s with caches := c } := by
  have purges (l : List Nat) : ∀ s : State, ∃ c, l.foldl (fun s d => s.modTcache d fun k => k.purged g drop) s = { s with caches := c } := by
    induction l with
    | nil => exact fun s => ⟨s.caches, rfl⟩
    | cons d l ih =>
      intro s
      obtain ⟨c, eq⟩ := ih (s.modTcache d fun k => k.purged g drop)
      exact ⟨c, eq⟩
  exact purges (List.range 4) s

theorem State.invalidationBegun_eq (s : State) (conn : Nat) (m : TransMsg) : ∃ c, s.invalidationBegun conn m = { s with
    caches := c
    agent := { s.agent with
      gen := s.agent.gen + 1
      invals := s.agent.invals ++ [⟨s.agent.gen + 1, List.range 192, conn, m.asn.toNat, m.reqId.toNat⟩] } } := by
  obtain ⟨c, purged⟩ := s.purgeCaches_eq (s.agent.gen + 1) (invalidates conn m.asn.toNat m.all m.va.toNat m.vaEnd.toNat)
  exact ⟨c, by rw [State.invalidationBegun, purged]⟩

section Invalidate
variable {s : State} {conn : Nat} {m : TransMsg}

theorem State.invalidate_bad (bad : IsBadInvalidate m) : s.invalidate conn m = s.countDiscard conn := by
  unfold State.invalidate
  rw [if_pos]
  simpa [IsBadInvalidate, or_assoc] using bad

/-- A well-formed invalidation is acknowledged again, ignored or begun, by where its identifier stands. -/
theorem State.invalidate_eq (good : ¬ IsBadInvalidate m) : s.invalidate conn m =
    if m.reqId.toNat ∈ (s.conn conn).acked then s.emit (.trans conn 0x06 { TransMsg.zero with asn := m.asn, reqId := m.reqId })
    else if ∃ v ∈ s.agent.invals, v.conn = conn ∧ v.reqId = m.reqId.toNat then s
    else s.invalidationBegun conn m := by
  unfold State.invalidate
  rw [if_neg (by simpa [IsBadInvalidate, or_assoc] using good)]
  simp only [List.contains_eq_mem, List.any_eq_true, Bool.and_eq_true, beq_iff_eq, decide_eq_true_eq]
  rfl

end Invalidate

@[simp] theorem State.tcache_modTcache (s : State) (d i : Nat) (f : TransCache → TransCache) :
    (s.modTcache d f).tcache i = if i = d then f (s.tcache d) else s.tcache i := by
  simp [State.tcache, State.modTcache]

theorem State.tcache_purgeCaches (s : State) (g : Nat) (drop : TcEntry → Bool) {d : Nat} (hd : d < 4) :
    (s.purgeCaches g drop).tcache d = (s.tcache d).purged g drop := by
  obtain rfl | rfl | rfl | rfl : d = 0 ∨ d = 1 ∨ d = 2 ∨ d = 3 := by omega
  all_goals simp [State.purgeCaches, List.range_succ]

theorem State.tcache_invalidationBegun (s : State) (conn : Nat) (m : TransMsg) {d : Nat} (hd : d < 4) :
    (s.invalidationBegun conn m).tcache d =
      (s.tcache d).purged (s.agent.gen + 1) (invalidates conn m.asn.toNat m.all m.va.toNat m.vaEnd.toNat) := by
  rw [← s.tcache_purgeCaches _ _ hd]
  simp only [State.invalidationBegun, State.tcache]

/-! ### Acknowledgements -/

/-- An acknowledgement joins the last 64 of its connection and leaves those of the others. -/
theorem State.acked_ackInvalidate (s : State) (conn asn id n : Nat) : ((s.ackInvalidate conn asn id).conn n).acked =
    if n = conn then ((s.conn conn).acked ++ [id]).drop ((s.conn conn).acked.length + 1 - 64) else (s.conn n).acked := by
  have eq : (s.ackInvalidate conn asn id).conn n = (s.modConn conn fun c =>
      { c with acked := (c.acked ++ [id]).drop (c.acked.length + 1 - 64) }).conn n := rfl
  rw [eq, State.conn_modConn]
  split <;> rfl

/-- Several invalidations are acknowledged, in order. -/
def State.ackAll (s : State) (vs : List Invalidation) : State := vs.foldl (fun s v => s.ackInvalidate v.conn v.asn v.reqId) s

/-- Acknowledging changes nothing but connections and what has been sent. -/
theorem State.ackAll_kept (vs : List Invalidation) (s : State) : (s.ackAll vs).agent = s.agent ∧ (s.ackAll vs).caches = s.caches ∧
    (s.ackAll vs).fences = s.fences ∧ (s.ackAll vs).channels = s.channels := by
  induction vs generalizing s with
  | nil => exact ⟨rfl, rfl, rfl, rfl⟩
  | cons v vs ih => exact ih (s.ackInvalidate v.conn v.asn v.reqId)

/-- The identifier `id` stands among the acknowledged with at most `n` after it. -/
def AckedBefore (l : List Nat) (id n : Nat) : Prop := ∃ pre post, l = pre ++ id :: post ∧ post.length ≤ n

/-- One acknowledgement more pushes out only what has 63 after it. -/
theorem AckedBefore.push {l : List Nat} {id n : Nat} (h : AckedBefore l id n) (hn : n < 63) (x : Nat) :
    AckedBefore ((l ++ [x]).drop (l.length + 1 - 64)) id (n + 1) := by
  obtain ⟨pre, post, rfl, short⟩ := h
  refine ⟨pre.drop (pre.length + post.length + 2 - 64), post ++ [x], ?_, by simpa using short⟩
  have inPre : pre.length + post.length + 2 - 64 ≤ pre.length := by omega
  simp only [List.append_assoc, List.cons_append, List.length_append, List.length_cons]
  rw [← List.drop_append_of_le_length inPre]
  congr 1

/-- An identifier stays among the acknowledged while fewer than 64 of its connection have come since. -/
theorem State.ackedBefore_ackAll {c id : Nat} (vs : List Invalidation) {s : State} {n : Nat} (h : AckedBefore (s.conn c).acked id n)
    (few : n + (vs.filter fun v => v.conn == c).length < 64) : id ∈ ((s.ackAll vs).conn c).acked := by
  induction vs generalizing s n with
  | nil =>
    obtain ⟨pre, post, eq, -⟩ := h
    simp [State.ackAll, eq]
  | cons v vs ih =>
    by_cases same : v.conn = c
    · simp only [List.filter_cons, same, beq_self_eq_true, if_true, List.length_cons] at few
      refine ih (n := n + 1) ?_ (by omega)
      rw [State.acked_ackInvalidate, if_pos same.symm, same]
      exact h.push (by omega) _
    · refine ih (n := n) ?_ (by simpa [same] using few)
      rwa [State.acked_ackInvalidate, if_neg (Ne.symm same)]

/-- Of fewer than 64 invalidations of a connection that are acknowledged together every one stands among the last 64. -/
theorem State.mem_acked_ackAll {v : Invalidation} (vs : List Invalidation) {s : State} (hv : v ∈ vs)
    (few : (vs.filter fun u => u.conn == v.conn).length < 64) : v.reqId ∈ ((s.ackAll vs).conn v.conn).acked := by
  induction vs generalizing s with
  | nil => simp at hv
  | cons u vs ih =>
    obtain rfl | later := List.mem_cons.mp hv
    · have own : AckedBefore ((s.ackInvalidate v.conn v.asn v.reqId).conn v.conn).acked v.reqId 0 := by
        rw [State.acked_ackInvalidate, if_pos rfl, List.drop_append_of_le_length (by omega)]
        exact ⟨_, [], rfl, Nat.le_refl 0⟩
      refine State.ackedBefore_ackAll vs own ?_
      simp only [List.filter_cons, beq_self_eq_true, if_true, List.length_cons] at few
      omega
    · refine ih later ?_
      refine Nat.lt_of_le_of_lt (List.Sublist.length_le ?_) few
      exact (List.sublist_cons_self u vs).filter _

/-! ### INVALIDATION_ENGINE_REPORT -/

/-- An invalidation after engine `e` has reported what it no longer holds up. -/
def State.struck (s : State) (e : Nat) (v : Invalidation) : Invalidation :=
  if s.engineClear e v.gen then { v with waiting := v.waiting.filter fun k => k ≠ e } else v

section Struck
variable (s : State) (e : Nat) (v : Invalidation)

@[simp] theorem State.struck_conn : (s.struck e v).conn = v.conn := by unfold State.struck; split <;> rfl
@[simp] theorem State.struck_reqId : (s.struck e v).reqId = v.reqId := by unfold State.struck; split <;> rfl
@[simp] theorem State.struck_gen : (s.struck e v).gen = v.gen := by unfold State.struck; split <;> rfl

end Struck

theorem State.struck_of_clear {s : State} {e : Nat} {v : Invalidation} (clear : s.engineClear e v.gen = true) :
    s.struck e v = { v with waiting := v.waiting.filter fun k => k ≠ e } := if_pos clear

theorem State.struck_of_held {s : State} {e : Nat} {v : Invalidation} (held : s.engineClear e v.gen = false) : s.struck e v = v := by
  simp [State.struck, held]

/-- The state after an engine's report, before the acknowledgements: the invalidations that still wait are left. -/
def State.reportTaken (s : State) (e : Nat) : State :=
  let vs := s.agent.invals.map (s.struck e)
  let top := vs.foldl (fun a v => if v.waiting.contains e then a else max a v.gen) (s.engine e).reported
  let r := s.modEngine e fun g => { g with reported := top }
  { r with agent := { r.agent with invals := vs.filter fun v => !v.waiting.isEmpty } }

/-- The invalidations that an engine's report is the last for. -/
def State.reportEnds (s : State) (e : Nat) : List Invalidation := (s.agent.invals.map (s.struck e)).filter fun v => v.waiting.isEmpty

theorem State.engineReport_eq (s : State) (e : Nat) : s.engineReport e = (s.reportTaken e).ackAll (s.reportEnds e) := rfl

theorem State.invals_engineReport (s : State) (e : Nat) :
    (s.engineReport e).agent.invals = (s.agent.invals.map (s.struck e)).filter fun v => !v.waiting.isEmpty := by
  rw [State.engineReport_eq, (State.ackAll_kept _ _).1]
  rfl

/-- No more invalidations of a connection end by a report than are in progress. -/
theorem State.length_reportEnds_le (s : State) (e c : Nat) : ((s.reportEnds e).filter fun u => u.conn == c).length ≤
    (s.agent.invals.filter fun u => u.conn == c).length := by
  calc ((s.reportEnds e).filter fun u => u.conn == c).length
      ≤ ((s.agent.invals.map (s.struck e)).filter fun u => u.conn == c).length := (List.filter_sublist.filter _).length_le
    _ = (s.agent.invals.filter fun u => u.conn == c).length := by simp [List.filter_map, Function.comp_def]

/-- Settles O37: a purge leaves beside the range what it leaves, and an acknowledgement stays while fewer than 64 others follow. -/
theorem invalidationsPurgeTheCachesAndAreAcknowledged : Obligations.InvalidationsPurgeTheCachesAndAreAcknowledged := by
  intro s conn m cl se bad known going
  refine ⟨fun h => exec_eq_answer (exec_invalidate conn m s) (State.invalidate_bad h), fun good h => ?again, fun good h1 h2 => ?waits, fun good h1 h2 => ?begun, ?report⟩
  case again => exact exec_eq_answer (exec_invalidate conn m s) ((State.invalidate_eq good).trans (if_pos h))
  case waits => exact exec_eq_next (exec_invalidate conn m s) ((State.invalidate_eq good).trans ((if_neg h1).trans (if_pos h2))) rfl
  case begun =>
    have runs := exec_eq_answer (exec_invalidate conn m s) ((State.invalidate_eq good).trans ((if_neg h1).trans (if_neg h2)))
    obtain ⟨c, begun⟩ := s.invalidationBegun_eq conn m
    refine ⟨_, runs, by simp [begun], by simp [begun], fun d hd => ?_, by simp [begun], by simp [begun], by simp [begun]⟩
    have cache : (s.keepQueue (s.invalidationBegun conn m)).tcache d = (s.tcache d).purged (s.agent.gen + 1)
        (invalidates conn m.asn.toNat m.all m.va.toNat m.vaEnd.toNat) := by
      rw [State.tcache, State.keepQueue_caches]
      exact s.tcache_invalidationBegun conn m hd
    rw [cache]
    refine ⟨rfl, fun n l x set hx => invalidates_eq_false (TransCache.not_drop_of_mem_purged set hx), fun va x found => ?_⟩
    obtain ⟨hconn, hasn, page⟩ := TcEntry.hits_iff.mp (TransCache.find_eq_some found).2
    obtain ⟨notAll, beside⟩ := invalidates_eq_false (TransCache.not_drop_of_find_purged found) hconn hasn
    exact ⟨notAll, outside_of_page_outside page beside⟩
  case report =>
    intro e
    obtain ⟨-, caches, fences, channels⟩ := State.ackAll_kept (s.reportEnds e) (s.reportTaken e)
    refine ⟨s.keepQueue (s.engineReport e), exec_invalidationEngineReport cl se s, fun v hv held waits => ?held, fun v hv => ?left, fun v hv clear last => ?last, caches, fences, channels⟩
    case held =>
      rw [State.keepQueue_agent, State.invals_engineReport, List.mem_filter]
      exact ⟨List.mem_map.mpr ⟨v, hv, State.struck_of_held held⟩, by simpa using waits⟩
    case left =>
      rw [State.keepQueue_agent, State.invals_engineReport, List.mem_filter] at hv
      obtain ⟨listed, waits⟩ := hv
      obtain ⟨u, -, rfl⟩ := List.mem_map.mp listed
      refine ⟨by simpa using waits, fun clear => ?_⟩
      rw [State.struck_of_clear (s.struck_gen e u ▸ clear)]
      simp
    case last =>
      by_cases few : (s.agent.invals.filter fun u => u.conn == v.conn).length < 64
      · have ends : s.struck e v ∈ s.reportEnds e := by
          refine List.mem_filter.mpr ⟨List.mem_map_of_mem hv, ?_⟩
          simp [State.struck_of_clear clear, last]
        have acked := State.mem_acked_ackAll (s := s.reportTaken e) (s.reportEnds e) ends
          (by rw [State.struck_conn]; exact Nat.lt_of_le_of_lt (s.length_reportEnds_le e v.conn) few)
        rw [State.struck_conn, State.struck_reqId] at acked
        exact .inl acked
      · exact .inr (Nat.le_of_not_lt few)

end Sys2Proof.Machine
end

section
/-! PROOFS. The answers and the time limits of translations and of page requests (R163, R170 to R172, R496, R555). -/

namespace Sys2Proof.Machine

section Answers
variable {s : State} {conn : Nat} {m : TransMsg}

theorem State.translateAns_unknown (unknown : s.translateOf conn m.reqId.toNat = none) : s.translateAns conn m = s.countDiscard conn := by
  simp [State.translateAns, unknown]

theorem State.translateAns_eq {d : Nat} {r : TransReq} (asked : s.translateOf conn m.reqId.toNat = some (d, r)) :
    s.translateAns conn m = if transAnswerOk m 1 = true then
      s.translateDone d r (if m.status = 0 then coveringEntry m conn r.asn r.page else none) else s.countDiscard conn := by
  cases ok : transAnswerOk m 1 <;> simp [State.translateAns, asked, ok]

theorem State.translateTimeout_unknown {id : Nat} (unknown : s.translateOf conn id = none) : s.translateTimeout conn id = s := by
  simp [State.translateTimeout, unknown]

theorem State.translateTimeout_eq {id d : Nat} {r : TransReq} (asked : s.translateOf conn id = some (d, r)) :
    s.translateTimeout conn id = (s.advanceTo (r.sentAt + 10000000)).translateDone d r none := by
  simp [State.translateTimeout, asked]

theorem State.pageAns_unknown (unknown : s.agent.table.find? (fun e => e.2.conn == conn && e.2.reqId == m.reqId.toNat) = none) :
    s.pageAns conn m = s.countDiscard conn := by
  simp [State.pageAns, unknown]

section Asked
variable {j : Nat} {r : PageReq} (asked : s.agent.table.find? (fun e => e.2.conn == conn && e.2.reqId == m.reqId.toNat) = some (j, r))
include asked

theorem State.pageAns_bad (bad : ¬ transAnswerOk m 2 = true) : s.pageAns conn m = s.countDiscard conn := by
  simp [State.pageAns, asked, bad]

theorem State.pageAns_failed (ok : transAnswerOk m 2 = true) (uncovered : (if m.status = 0 then coveringEntry m conn r.asn r.page else none) = none) :
    s.pageAns conn m = s.failPageReq j r 0x12 := by
  simp only [State.pageAns, asked, ok, uncovered, Bool.not_true, Bool.false_eq_true, if_false]

theorem State.pageAns_covered (ok : transAnswerOk m 2 = true) {k : TcEntry}
    (covered : (if m.status = 0 then coveringEntry m conn r.asn r.page else none) = some k) :
    s.pageAns conn m = ((((distinct ((r.waiters.map fun w => dieOf (w.1 / 4)) ++ r.specs.map fun x => x.1)).foldl
      (fun s d => s.modTcache d fun c => c.answer (r.page * 4096) k) s).freePageReq j).wakeWaiters r r.waiters).wakeSpecs r := by
  simp only [State.pageAns, asked, ok, covered, Bool.not_true, Bool.false_eq_true, if_false]

end Asked

theorem State.pageTimeout_none {i : Nat} (free : Tbl.find s.agent.table i = none) : s.pageTimeout i = s := by
  simp [State.pageTimeout, free]

theorem State.pageTimeout_eq {i : Nat} {r : PageReq} (entry : Tbl.find s.agent.table i = some r) :
    s.pageTimeout i = (s.advanceTo (r.sentAt + (s.conn r.conn).prTimeout * 1000000)).failPageReq i r 0x13 := by
  simp [State.pageTimeout, entry]

end Answers

theorem exec_translateAns (conn : ConnId) (m : TransMsg) (s : State) :
    exec (.translateAns conn m) s = s.answer (s.translateAns conn.val m) := rfl

theorem exec_translateTimeout (conn : ConnId) (id : BitVec 32) (s : State) :
    exec (.translateTimeout conn id) s = s.answer (s.translateTimeout conn.val id.toNat) := rfl

theorem exec_pageAns (conn : ConnId) (m : TransMsg) (s : State) : exec (.pageAns conn m) s = s.answer (s.pageAns conn.val m) := rfl

theorem exec_pageRequestTimeout (i : Fin 1024) (s : State) : exec (.pageRequestTimeout i) s = s.answer (s.pageTimeout i.val) := rfl

/-- Settles O38: each answer and time limit by whether its request stands, and the entry that it gives serves its page from then on. -/
theorem translationAnswersAndTimeouts : Obligations.TranslationAnswersAndTimeouts := by
  intro s conn m id i ok given
  have answered := exec_translateAns conn m s
  have timedOut := exec_translateTimeout conn id s
  have paged := exec_pageAns conn m s
  have pageTimedOut := exec_pageRequestTimeout i s
  exact ⟨fun unknown => exec_eq_answer answered (State.translateAns_unknown unknown),
    fun d r asked => ⟨fun bad => exec_eq_answer answered ((State.translateAns_eq asked).trans (if_neg bad)),
      fun good => exec_eq_answer answered ((State.translateAns_eq asked).trans (if_pos good))⟩,
    fun d r asked => exec_eq_answer timedOut (State.translateTimeout_eq asked),
    fun unknown => exec_eq_next timedOut (State.translateTimeout_unknown unknown) rfl,
    fun unknown => exec_eq_answer paged (State.pageAns_unknown unknown),
    fun j r asked => ⟨fun bad => exec_eq_answer paged (State.pageAns_bad asked bad),
      fun good uncovered => exec_eq_answer paged (State.pageAns_failed asked good uncovered),
      fun good k covered => exec_eq_answer paged (State.pageAns_covered asked good covered)⟩,
    fun r entry => exec_eq_answer pageTimedOut (State.pageTimeout_eq entry),
    fun free => exec_eq_next pageTimedOut (State.pageTimeout_none free) rfl,
    fun c x va page => c.find_fill_isSome page, fun c x va page => c.find_answer page⟩

end Sys2Proof.Machine
end

section
/-! PROOFS. Requests of rows for a line of memory where nothing else waits: what is answered and what waits, and reads of a line with one copy
(R187, R194, R207, R255, R409). -/

namespace Sys2Proof.Machine

/-! ### The rows -/

theorem exec_channelRead (r : MemReq) (s : State) : exec (.channelRead r) s = s.answer (s.rowRequest r none) := rfl

theorem exec_channelWrite (r : MemReq) (v : BitVec 512) (s : State) :
    exec (.channelWrite r v) s = s.answer (s.rowRequest r (some (.write v))) := rfl

theorem exec_cas (r : MemReq) (opd : BitVec 1024) (s : State) :
    exec (.cas r opd) s = s.answer (s.rowRequest r (some (.op 0x78 .cas .b64 opd))) := rfl

theorem exec_memorySideOperation (r : MemReq) {mop : BitVec 8} (opd : BitVec 512) (s : State) {o : MemOp} {t : MemTy}
    (decoded : mopDecode mop.toNat = some (o, t)) (notCas : o ≠ .cas) :
    exec (.memorySideOperation r mop opd) s = s.answer (s.rowRequest r (some (.op mop.toNat o t (opd.zeroExtend 1024)))) := by
  have meaning : exec (.memorySideOperation r mop opd) s = s.answer (s.memorySideOperation r mop.toNat opd) := rfl
  simp only [meaning, State.memorySideOperation, decoded, if_neg notCas]

/-! ### The answer to a row -/

section Answer
variable (s : State) {w : Waiting} {o : MemOut}

theorem State.answerRow_read (read : w.change = none) (ended : o.status ≠ .hold) :
    s.answerRow w o = s.send (.line w.req.part.val (w.req.addr.toNat / 64 * 64) o.status.code o.data) := by
  simp only [State.answerRow, Waiting.withData, read, if_neg ended, if_true]

/-- The acknowledgement of a plain write carries no line and marks no epoch. -/
theorem State.answerRow_write {v : BitVec 512} (write : w.change = some (.write v)) (ended : o.status ≠ .hold) :
    s.answerRow w o = s.send (.line w.req.part.val (w.req.addr.toNat / 64 * 64) o.status.code 0) := by
  simp only [State.answerRow, Waiting.withData, write, if_neg ended, Bool.false_eq_true, if_false]

/-- A change that was turned away marks no epoch. -/
theorem State.answerRow_away (ended : o.status ≠ .hold) (away : ¬ (o.status = .ok ∨ o.status = .poison)) (empty : o.data = 0) :
    s.answerRow w o = s.send (.line w.req.part.val (w.req.addr.toNat / 64 * 64) o.status.code 0) := by
  simp only [State.answerRow, if_neg ended, if_neg away, empty, ite_self]
  split <;> rfl

/-- The acknowledgement of an operation may mark the epoch of the requester's job (R364); that of CAS carries the old line (R202). -/
theorem State.answerRow_op {m : Nat} {x : MemOp} {t : MemTy} {opd : BitVec 1024} (op : w.change = some (.op m x t opd))
    (acked : o.status = .ok ∨ o.status = .poison) :
    s.answerRow w o =
      let u := s.send (.line w.req.part.val (w.req.addr.toNat / 64 * 64) o.status.code (if x == .cas then o.data else 0))
      (ctxOf w.req.who).elim u fun n => u.opAcked n o.epochBit := by
  have ended : o.status ≠ .hold := by rintro held; simp [held] at acked
  simp only [State.answerRow, Waiting.withData, op, if_neg ended, if_pos acked]
  cases ctxOf w.req.who <;> rfl

end Answer

/-! ### The request of a row where nothing else waits -/

section Alone
variable {s : State} {r : MemReq} {c : Option Change512} (alone : s.waiting = []) {o : MemOut} {t : State} {es : List Ev}
include alone

theorem State.rowRequest_of_turn (turn : s.turn (s.arrival r c .row) = (o, t, es)) :
    s.rowRequest r c = (t.settle es).answerRow (s.arrival r c .row) o := by
  have arrives : s.asked r c .row = s.arrival r c .row := by simp only [State.asked, alone, List.find?_nil]
  simp only [State.rowRequest, State.ask_alone s r c .row alone, arrives, turn]

theorem State.rowRequest_held (served : s.serve (s.arrival r c .row) = (o, t, es)) (held : o.status = .hold) :
    s.rowRequest r c = (t.wait (s.arrival r c .row)).settle es := by
  have turn : s.turn (s.arrival r c .row) = (o, t.wait (s.arrival r c .row), es) := by simp only [State.turn, served, if_pos held]
  simp only [State.rowRequest_of_turn alone turn, State.answerRow, if_pos held]

theorem State.rowRequest_answered (served : s.serve (s.arrival r c .row) = (o, t, es)) (ended : o.status ≠ .hold)
    (near : s.goesThrough r o = false) :
    s.rowRequest r c = ((s.taken (s.arrival r c .row) t).settle es).answerRow (s.arrival r c .row) o := by
  refine State.rowRequest_of_turn alone ?_
  have near' : s.goesThrough (s.arrival r c .row).req (s.serve (s.arrival r c .row)).1 = false := by rw [served]; exact near
  rw [State.turn_near s _ near', served, if_neg ended]

end Alone

/-! ### Reads -/

/-- An error that the code does not correct, met without permission in the only copy of a block, poisons the block (R185). -/
theorem State.codeFails_one (s : State) (p a : Nat) (b : Loc) :
    s.codeFails p a [b] = if (s.blockAt b).uncorr then s.poison b else s := by
  cases h : (s.blockAt b).uncorr <;> simp [State.codeFails, h]

section Read
variable {s : State} {r : MemReq} (alone : s.waiting = []) {st : MemStatus} {d : BitVec 512} {t : State} {es : List Ev} {n : Nat}
include alone

theorem exec_channelRead_held (served : s.readLine r = ({ status := .hold }, t, es)) :
    exec (.channelRead r) s = s.answer ((t.wait (s.arrival r none .row)).settle es) :=
  exec_eq_answer (exec_channelRead r s) (State.rowRequest_held (c := none) alone served rfl)

theorem exec_channelRead_answered (served : s.readLine r = ({ status := st, data := d }, t, es)) (ended : st ≠ .hold) :
    exec (.channelRead r) s = s.answer (((s.taken (s.arrival r none .row) t).settle es).send
      (.line r.part.val (r.addr.toNat / 64 * 64) st.code d)) :=
  exec_eq_answer (exec_channelRead r s)
    ((State.rowRequest_answered (c := none) alone served ended rfl).trans (State.answerRow_read _ rfl ended))

theorem exec_channelRead_away (served : s.readLine r = ({ status := st }, t, es)) (ended : st ≠ .hold) (coded : st.code = n) :
    exec (.channelRead r) s = s.answer (t.turnedAway (s.taken (s.arrival r none .row)) r es n) :=
  coded ▸ exec_channelRead_answered alone served ended

theorem exec_channelRead_served {b : Loc}
    (served : s.readLine r = ({ status := st, data := d }, (t.thresholds b.1 (b.2 / 8)).1, es ++ (t.thresholds b.1 (b.2 / 8)).2))
    (ended : st ≠ .hold) (coded : st.code = n) :
    exec (.channelRead r) s = s.answer (t.served (s.taken (s.arrival r none .row)) r b es n d) :=
  coded ▸ exec_channelRead_answered alone served ended

/-- A permitted read, by what stands in the copy. -/
theorem exec_channelRead_permitted {b : Loc} {x : MemStatus × BitVec 512 × State}
    (served : s.readLine r = ({ status := x.1, data := x.2.1 }, (x.2.2.thresholds b.1 (b.2 / 8)).1, [] ++ (x.2.2.thresholds b.1 (b.2 / 8)).2))
    (copy : x = (st, d, t)) (ended : st ≠ .hold) (coded : st.code = n) :
    exec (.channelRead r) s = s.answer (t.served (s.taken (s.arrival r none .row)) r b [] n d) := by
  subst copy
  exact exec_channelRead_served alone served ended coded

end Read

/-- Settles O41: in each case the controller's answer to the read, and from it the row's. Without permission the order is key, then code and
poison. -/
theorem readsOfALineOfMemory : Obligations.ReadsOfALineOfMemory := by
  intro s r p a line w g waits alone
  refine ⟨fun refused => exec_channelRead_away alone (State.readLine_refuse s r refused) MemStatus.noConfusion rfl,
    fun held => exec_channelRead_held alone (State.readLine_wait s r held),
    fun l th found => ⟨fun outside => ?range, fun placed gone => ?gone, ?copy⟩⟩
  case range =>
    exact exec_channelRead_away alone (State.readLine_range s r found (Option.isNone_iff_eq_none.mpr outside)) MemStatus.noConfusion rfl
  case gone =>
    exact exec_channelRead_away alone (State.readLine_gone s r found (Option.isNone_eq_false_iff.mpr placed) gone) MemStatus.noConfusion rfl
  intro b placed copies
  have placed := Option.isNone_eq_false_iff.mpr placed
  refine ⟨fun busy => ?busy, fun idle calm => ?served⟩
  case busy => exact exec_channelRead_held alone (State.readLine_busy s r found placed copies (Bool.or_eq_true _ _ ▸ busy))
  have free := Bool.or_eq_false_iff.mpr ⟨idle, calm⟩
  refine ⟨fun fresh => exec_channelRead_away alone (State.readLine_fresh s r found placed copies free fresh) MemStatus.noConfusion rfl, ?loaded⟩
  intro old u sel k permits v
  have failed : u.codeFails p a [b] = v := u.codeFails_one p a b
  refine ⟨fun dead => ?dead, fun live denied => ?denied, fun live permitted => ?permitted⟩
  case dead =>
    rw [← failed]
    exact exec_channelRead_served alone (State.readLine_dead s r found placed copies free old rfl dead rfl) MemStatus.noConfusion rfl
  case denied =>
    rw [← failed]
    exact exec_channelRead_served alone (State.readLine_denied s r found placed copies free old rfl live rfl denied) MemStatus.noConfusion rfl
  case permitted =>
    have served := State.readLine_served s r found placed copies free old rfl live permitted
    have copy := u.readCopies_one p a (u.sealFor p a) b
    have unread (broken : k.intact (u.sealFor p a) = false) := copy.trans (if_neg (Bool.eq_false_iff.mp broken))
    exact ⟨fun intact => exec_channelRead_permitted alone served (copy.trans (if_pos intact)) MemStatus.noConfusion rfl,
      fun broken poisoned => exec_channelRead_permitted alone served ((unread broken).trans (if_pos poisoned)) MemStatus.noConfusion rfl,
      fun broken clean =>
        exec_channelRead_permitted alone served ((unread broken).trans (if_neg (Bool.eq_false_iff.mp clean))) MemStatus.noConfusion rfl⟩

end Sys2Proof.Machine
end

section
/-! PROOFS. Writes, memory-side operations and CAS of rows on a line with one copy: what is answered, and what waits for the acknowledgement of a
source on another module (R187, R194, R201 to R204, R207, R269, R364, R378, R409). -/

namespace Sys2Proof.Machine

/-! ### The request of a row for a change -/

section Change
variable {s : State} {r : MemReq} (alone : s.waiting = []) {st : MemStatus} {d : BitVec 512} {bit stored : Bool} {t : State} {b : Loc} {es : List Ev}
  {n : Nat}
include alone

/-- A change that is turned away leaves nothing stored and is answered at once. -/
theorem State.rowRequest_away {c : Change512} (served : s.changeLine r c = ({ status := st }, t, es))
    (ended : st ≠ .hold) (away : ¬ (st = .ok ∨ st = .poison)) (coded : st.code = n) :
    s.rowRequest r (some c) = t.turnedAway (s.taken (s.arrival r (some c) .row)) r es n :=
  coded ▸ (State.rowRequest_answered (c := some c) alone served ended rfl).trans (State.answerRow_away _ ended away rfl)

theorem State.rowRequest_write {v : BitVec 512}
    (served : s.changeLine r (.write v) = ({ status := st, data := d, epochBit := bit, stored := stored }, (t.thresholds b.1 (b.2 / 8)).1,
      es ++ (t.thresholds b.1 (b.2 / 8)).2))
    (ended : st ≠ .hold) (near : (stored && s.farSource r.part.val) = false) (coded : st.code = n) :
    s.rowRequest r (some (.write v)) = t.served (s.taken (s.arrival r (some (.write v)) .row)) r b es n 0 :=
  coded ▸ (State.rowRequest_answered (c := some (.write v)) alone served ended near).trans (State.answerRow_write _ rfl ended)

theorem State.rowRequest_op {m : Nat} {x : MemOp} {ty : MemTy} {opd : BitVec 1024}
    (served : s.changeLine r (.op m x ty opd) = ({ status := st, data := d, epochBit := bit, stored := stored }, (t.thresholds b.1 (b.2 / 8)).1,
      es ++ (t.thresholds b.1 (b.2 / 8)).2))
    (acked : st = .ok ∨ st = .poison) (near : (stored && s.farSource r.part.val) = false) (coded : st.code = n)
    {v : BitVec 512} (carried : (if x == .cas then d else 0) = v) :
    s.rowRequest r (some (.op m x ty opd)) =
      let u := t.served (s.taken (s.arrival r (some (.op m x ty opd)) .row)) r b es n v
      (ctxOf r.who).elim u fun k => u.opAcked k bit := by
  have ended : st ≠ .hold := by rintro held; simp [held] at acked
  subst coded carried
  exact (State.rowRequest_answered (c := some (.op m x ty opd)) alone served ended near).trans (State.answerRow_op _ rfl acked)

/-- A change that is written through to another module is settled, and its answer waits (R269). -/
theorem State.rowRequest_through {c : Change512}
    (served : s.changeLine r c = ({ status := st, data := d, epochBit := bit, stored := true }, (t.thresholds b.1 (b.2 / 8)).1,
      es ++ (t.thresholds b.1 (b.2 / 8)).2))
    (ended : st ≠ .hold) (far : s.farSource r.part.val = true) :
    s.rowRequest r (some c) =
      t.awaitsAck (s.taken (s.arrival r (some c) .row)) (s.arrival r (some c) .row) b es { status := st, data := d, epochBit := bit } := by
  have serve : s.serve (s.arrival r (some c) .row) = s.changeLine r c := rfl
  rw [served] at serve
  have turn := State.turn_far s (s.arrival r (some c) .row) far ReqUnit.noConfusion (by rw [serve]) (by rw [serve]; exact ended)
  rw [serve] at turn
  rw [State.rowRequest_of_turn alone turn]
  rfl

end Change

/-- The source's acknowledgement of the one request that waits, a row's, lets its answer leave. -/
theorem State.throughDone_row {s : State} {w : Waiting} {o : MemOut} {tag : Nat} (waiting : s.waiting = [w]) (row : w.unit = .row)
    (applied : w.applied = some o) (tagged : o.tag = some tag) (noneLate : s.lateAcks = []) :
    s.throughDone tag = { s with waiting := [] }.answerRow w o := by
  simp [State.throughDone, waiting, row, applied, tagged, noneLate]

/-! ### What the controller makes of a change -/

/-- What a change leaves in a line. -/
def Change512.result (c : Change512) (old : BitVec 512) : BitVec 512 :=
  match c with
  | .write v => v
  | .op _ o t opd => applyMemOp o t old opd

theorem Change512.result_write (v old : BitVec 512) : (Change512.write v).result old = v := rfl

theorem Change512.result_op (m : Nat) {o : MemOp} (t : MemTy) (opd old : BitVec 512) (notCas : o ≠ .cas) :
    (Change512.op m o t (opd.zeroExtend 1024)).result old = memLine o t old opd := by
  have halves : (opd.zeroExtend 1024).truncate 512 = opd := by simp
  simp only [Change512.result, applyMemOp, if_neg notCas, halves]

theorem Change512.result_cas (m : Nat) (t : MemTy) (opd : BitVec 1024) (old : BitVec 512) :
    (Change512.op m .cas t opd).result old = casLine old opd := rfl

/-- Line `v` put into an intact block without a second copy, with what follows from it (R205, R269). -/
def State.putLine (u : State) (p a : Nat) (l : Layout) (through : Option Layout) (b : Loc) (v : BitVec 512) : State :=
  (u.modBlock b fun k => { k with lines := Tbl.set k.lines ((a / 64) % 8) v }).spread p a l through b
    (fun k => k.put (u.sealFor p a) ((a / 64) % 8) v) []

theorem State.applyChange_putLine (u : State) (r : MemReq) (a : Nat) (l : Layout) (th : Option Layout) (c : Change512) (b : Loc) (bit : Bool)
    (intact : (u.blockAt b).intact (u.sealFor r.part.val a) = true) {v : BitVec 512}
    (becomes : c.result (Tbl.get 0 (u.blockAt b).lines ((a / 64) % 8)) = v) :
    u.applyChange r a l th c b [] bit =
      ({ status := .ok, data := Tbl.get 0 (u.blockAt b).lines ((a / 64) % 8), epochBit := bit, stored := true },
        u.putLine r.part.val a l th b v, []) := by
  rw [State.applyChange_intact u r a l th c b bit intact, ← becomes]
  cases c <;> rfl

/-- A permitted change, by what it does to the copy. -/
theorem State.changeLine_of_applied {s : State} {r : MemReq} {c : Change512} {x : MemOut × State × List Ev} {b : Loc} {o : MemOut} {t : State}
    {es : List Ev}
    (served : s.changeLine r c = (x.1, (x.2.1.thresholds b.1 (b.2 / 8)).1, x.2.2 ++ (x.2.1.thresholds b.1 (b.2 / 8)).2))
    (applied : x = (o, t, es)) :
    s.changeLine r c = (o, (t.thresholds b.1 (b.2 / 8)).1, es ++ (t.thresholds b.1 (b.2 / 8)).2) := by
  subst applied
  exact served

/-- Settles O42: in each case what the controller makes of the change, in the order region, key, poison, and from it the row's answer or its wait
for the source. -/
theorem writesAndOperationsOnALineOfMemory : Obligations.WritesAndOperationsOnALineOfMemory := by
  intro s r l th b p a line found placed copies idle calm alone g u sel permits epoch put old acked far waits
  have placed := Option.isNone_eq_false_iff.mpr placed
  have free := Bool.or_eq_false_iff.mpr ⟨idle, calm⟩
  -- the statement's `match` on the requester, as `State.answerRow_op` says it
  have ack (t : State) : acked t = (ctxOf r.who).elim t fun n => t.opAcked n epoch := by
    dsimp only [acked]
    cases r.who <;> rfl
  have refused {c : Change512} (refuses : (s.part p).refuses a c = true) :=
    State.rowRequest_away (n := 4) alone (State.changeLine_refused s r c found placed copies free refuses) MemStatus.noConfusion (by decide) rfl
  have deadened {c : Change512} (allowed : (s.part p).refuses a c = false) (dead : sel.dead = true) :=
    State.rowRequest_away (n := 3) alone (State.changeLine_dead s r c found placed copies free allowed rfl dead) MemStatus.noConfusion
      (by decide) rfl
  have denied {c : Change512} (allowed : (s.part p).refuses a c = false) (live : sel.dead = false) (unkeyed : permits = false)
      (isOp : (c.mop != 0) = true) :=
    State.rowRequest_away (n := 2) alone (State.changeLine_noOp s r c found placed copies free allowed rfl live unkeyed isOp)
      MemStatus.noConfusion (by decide) rfl
  have permitted {c : Change512} (allowed : (s.part p).refuses a c = false) (live : sel.dead = false) (granted : permits = true) :=
    State.changeLine_permitted s r c found placed copies free allowed rfl live (u := u) rfl (bit := epoch) rfl granted
  have changed {c : Change512} {v : BitVec 512} (becomes : c.result old = v) (allowed : (s.part p).refuses a c = false)
      (live : sel.dead = false) (granted : permits = true) (intact : (u.blockAt b).intact (u.sealFor p a) = true) :=
    State.changeLine_of_applied (permitted allowed live granted) (State.applyChange_putLine u r a l th c b epoch intact becomes)
  refine ⟨fun v refuses => exec_eq_answer (exec_channelWrite r v s) (refused refuses), fun v allowed => ?write, ?op, ?cas,
    fun t w o tag waiting row applied tagged noneLate => State.throughDone_row waiting row applied tagged noneLate⟩
  case write =>
    have row := exec_channelWrite r v s
    refine ⟨fun dead => exec_eq_answer row (deadened allowed dead), fun live granted intact => ?intact, fun live unkeyed => ?forged⟩
    case intact =>
      have changed := changed (Change512.result_write v old) allowed live granted intact
      exact ⟨fun near => exec_eq_answer row (State.rowRequest_write alone changed MemStatus.noConfusion near rfl),
        fun away => exec_eq_answer row (State.rowRequest_through alone changed MemStatus.noConfusion away)⟩
    case forged =>
      intro f d
      have forged := State.changeLine_forged s r (.write v) found placed copies free allowed rfl live (u := u) rfl (bit := epoch) rfl v rfl
        (d := d) (by rw [u.codeFails_one p a b]) unkeyed
      exact ⟨fun near => exec_eq_answer row (State.rowRequest_write alone forged MemStatus.noConfusion near rfl),
        fun away => exec_eq_answer row (State.rowRequest_through alone forged MemStatus.noConfusion away)⟩
  case op =>
    intro mop opd o t decoded notCas c
    have row := exec_memorySideOperation r opd s decoded notCas
    have isOp : (c.mop != 0) = true := mopDecode_ne_zero _ o t decoded
    have lineless (d : BitVec 512) : (if o == .cas then d else 0) = 0 := if_neg (by simpa using notCas)
    refine ⟨fun refuses => exec_eq_answer row (refused refuses), fun allowed dead => exec_eq_answer row (deadened allowed dead),
      fun allowed live unkeyed => exec_eq_answer row (denied allowed live unkeyed isOp),
      fun allowed live granted => ⟨fun intact => ?intact, fun broken poisoned => ?kept⟩⟩
    case intact =>
      have changed := changed (Change512.result_op mop.toNat t opd old notCas) allowed live granted intact
      exact ⟨fun near => ack _ ▸ exec_eq_answer row (State.rowRequest_op alone changed (.inl rfl) near rfl (lineless _)),
        fun away => exec_eq_answer row (State.rowRequest_through alone changed MemStatus.noConfusion away)⟩
    case kept =>
      intro v
      have kept := State.changeLine_of_applied (permitted allowed live granted)
        (State.applyChange_kept u r a l th mop.toNat o t (opd.zeroExtend 1024) b epoch broken poisoned)
      exact ack _ ▸ exec_eq_answer row (State.rowRequest_op alone kept (.inr rfl) rfl rfl (lineless _))
  case cas =>
    intro opd allowed live granted intact
    have row := exec_cas r opd s
    have changed := changed (Change512.result_cas 0x78 .b64 opd old) allowed live granted intact
    exact ⟨fun near => ack _ ▸ exec_eq_answer row (State.rowRequest_op alone changed (.inl rfl) near rfl (if_pos rfl)),
      fun away => exec_eq_answer row (State.rowRequest_through alone changed MemStatus.noConfusion away)⟩

end Sys2Proof.Machine
end

section
/-! PROOFS. Fences: what a home hub finds of a fence that may be used, and what a signal or an add makes of it (R225 to R228). -/

namespace Sys2Proof.Machine

/-! ### Hubs -/

@[simp] theorem State.cluster_modHub (s : State) (c i : Nat) (f : Hub → Hub) :
    (s.modHub c f).cluster i = if i = c then { s.cluster c with hub := f (s.cluster c).hub } else s.cluster i := by
  simp [State.modHub]

@[simp] theorem State.fence_modHub (s : State) (c n : Nat) (f : Hub → Hub) : (s.modHub c f).fence n = s.fence n := rfl

@[simp] theorem State.fence_hubMessage (s : State) (h n : Nat) : (s.hubMessage h).fence n = s.fence n := rfl

@[simp] theorem State.fence_synCount (s : State) (h n : Nat) (k : SynCnt) : (s.synCount h k).fence n = s.fence n := rfl

/-- A hub's counters count one event more. -/
theorem State.cnt_synCount (s : State) (h : Nat) (k : SynCnt) :
    ((s.synCount h k).cluster h).hub.cnt = (s.cluster h).hub.cnt.put k (min ((s.cluster h).hub.cnt.get k + 1) k.limit) := by
  simp [State.synCount]

/-! ### Bringing a fence hot (R222) -/

/-- Finding a hot slot changes hubs and what the store holds of fences, and no counter. -/
theorem State.touch_eq (s : State) (h n : Nat) : ∃ fs cs, (s.touch h n).1 = { s with fences := fs, clusters := cs } := by
  unfold State.touch
  dsimp only
  split
  · exact ⟨_, _, rfl⟩
  · split
    · exact ⟨_, _, rfl⟩
    · split <;> exact ⟨_, _, rfl⟩

theorem State.cnt_touch (s : State) (h n g : Nat) : ((s.touch h n).1.cluster g).hub.cnt = (s.cluster g).hub.cnt := by
  have kept (t : State) (f : Hub → Hub) (same : ∀ k, (f k).cnt = k.cnt) : ((t.modHub h f).cluster g).hub.cnt = (t.cluster g).hub.cnt := by
    by_cases e : g = h
    · simp [e, same]
    · simp [e]
  unfold State.touch
  dsimp only
  split
  · exact kept _ _ fun _ => rfl
  · split
    · exact kept _ _ fun _ => rfl
    · split
      · exact kept (s.writeBack _) _ fun _ => rfl
      · rfl

/-- Bringing a fence hot changes hubs, waits and what the store holds of fences. -/
theorem State.heat_eq (s : State) (h n : Nat) : ∃ fs cs ws, s.heat h n = { s with fences := fs, clusters := cs, waits := ws } := by
  obtain ⟨fs, cs, touched⟩ := s.touch_eq h n
  unfold State.heat State.warm
  rw [touched]
  split
  · exact ⟨fs, cs, s.waits, rfl⟩
  · split <;> exact ⟨fs, cs, _, rfl⟩

theorem State.cnt_heat (s : State) (h n g : Nat) : ((s.heat h n).cluster g).hub.cnt = (s.cluster g).hub.cnt := by
  rw [← s.cnt_touch h n g]
  unfold State.heat State.warm
  split
  · rfl
  · split <;> rfl

theorem State.syncPermits_heat (s : State) (h n owner keyh : Nat) (p : Principal) :
    (s.heat h n).syncPermits owner keyh p = s.syncPermits owner keyh p := by
  obtain ⟨_, _, _, hot⟩ := s.heat_eq h n
  rw [hot]
  rfl

/-! ### A fence that may be used -/

/-- The state in which a home hub applies an operation: the message is counted and the fence is hot. -/
def State.admitted (s : State) (n : Nat) : State := (s.hubMessage (s.fence n).home).heat (s.fence n).home n

theorem State.admitOp_usable {s : State} {n : Nat} {p : Principal} (use : s.usable n p) : s.admitOp n p = (s.admitted n, true) := by
  obtain ⟨inStore, unclamped, used, permits⟩ := use
  have permits : (s.admitted n).syncPermits (s.fence n).owner (s.fence n).keyh p = true :=
    (State.syncPermits_heat _ _ _ _ _ _).trans permits
  unfold State.admitOp
  rw [if_neg (Nat.not_le_of_gt inStore)]
  dsimp only
  rw [if_neg used, if_neg (Bool.eq_false_iff.mp unclamped)]
  exact if_pos permits

theorem Calm.admitted (s : State) (n : Nat) : Calm s (s.admitted n) := (Calm.hubMessage _ _).trans (Calm.heat _ _ _)

theorem Calm.home {s t : State} (a : Calm s t) (n : Nat) : (t.fence n).home = (s.fence n).home :=
  (congrArg Fence.home (a.fence n) :)

theorem Calm.drops {s t : State} (a : Calm s t) (n : Nat) : (t.fence n).drops = (s.fence n).drops :=
  (congrArg Fence.drops (a.fence n) :)

theorem State.cnt_admitted (s : State) (n g : Nat) : ((s.admitted n).cluster g).hub.cnt = ((s.hubMessage (s.fence n).home).cluster g).hub.cnt :=
  State.cnt_heat _ _ _ _

theorem State.value_putValue (s : State) (n v : Nat) : ((s.putValue n v).fence n).value = v := by
  unfold State.putValue
  dsimp only
  split <;> simp

/-- A raise gives the fence its new value, whatever the waits that it ends bring about. -/
theorem State.value_raised (s : State) (n v : Nat) : (((s.putValue n v).raised n).1.fence n).value = v :=
  ((Calm.raised _ n).value n).trans (s.value_putValue n v)

section Live
variable {s : State} {n : Nat} {p : Principal} (use : s.usable n p) (live : (s.fence n).state = .live)
include use live

/-- A signal to a LIVE fence that may be used, by how its value stands to the fence's (R226, R228). -/
theorem State.fenceSignal_live (v : Nat) (acked : Bool) : s.fenceSignal n v p acked =
    if fenceMax ≤ (s.fence n).value then (Sync.saturated, (s.admitted n).synCount (s.fence n).home .sat, [])
    else if v < (s.fence n).value then
      (Sync.discarded, ((s.admitted n).modFence n fun f => { f with drops := min (f.drops + 1) 0xFFFF }).synCount (s.fence n).home .drop, [])
    else if v = (s.fence n).value then (Sync.ok, s.admitted n, [])
    else (Sync.ok, ((s.admitted n).putValue n v).raised n) := by
  have calm := Calm.admitted s n
  have notError : ((s.admitted n).fence n).state ≠ .error := by rw [calm.state, live]; decide
  simp only [State.fenceSignal, State.admitOp_usable use, if_neg notError, calm.value, calm.home]

/-- An add to such a fence, by the sum (R227, R228). -/
theorem State.fenceAdd_live (a : Nat) (acked : Bool) : s.fenceAdd n a p acked =
    if fenceMax ≤ (s.fence n).value then (Sync.saturated, (s.admitted n).synCount (s.fence n).home .sat, [])
    else if a = 0 then (Sync.ok, s.admitted n, [])
    else if fenceMax < (s.fence n).value + a then
      (Sync.saturated, (((s.admitted n).synCount (s.fence n).home .sat).putValue n fenceMax).raised n)
    else (Sync.ok, ((s.admitted n).putValue n ((s.fence n).value + a)).raised n) := by
  have calm := Calm.admitted s n
  have notError : ((s.admitted n).fence n).state ≠ .error := by rw [calm.state, live]; decide
  simp only [State.fenceAdd, State.admitOp_usable use, if_neg notError, calm.value, calm.home]

end Live

/-- Settles O18: by how the signal's value stands to the fence's, and whether the fence is saturated. -/
theorem signalsRaiseAndNeverLower : Obligations.SignalsRaiseAndNeverLower := by
  intro s n v p acked use live c h r t
  have calm := Calm.admitted s n
  have signal := State.fenceSignal_live use live v acked
  refine ⟨fun below => ?below, fun saturated => ?saturated⟩
  case below =>
    have signal := signal.trans (if_neg (Nat.not_le_of_gt below))
    refine ⟨fun greater => ?raised, fun equal => ?kept, fun lower => ?dropped⟩
    case raised =>
      have raised : r = (Sync.ok, ((s.admitted n).putValue n v).raised n) :=
        signal.trans ((if_neg (Nat.lt_asymm greater)).trans (if_neg (Nat.ne_of_gt greater)))
      refine ⟨congrArg Prod.fst raised, ?_⟩
      dsimp only [t]
      rw [raised]
      exact (s.admitted n).value_raised n v
    case kept =>
      have kept : r = (Sync.ok, s.admitted n, []) := signal.trans ((if_neg (Nat.not_lt_of_le (Nat.le_of_eq equal.symm))).trans (if_pos equal))
      dsimp only [t]
      rw [kept]
      exact ⟨rfl, calm.value n, calm.drops n, rfl⟩
    case dropped =>
      have dropped := signal.trans (if_pos lower)
      dsimp only [t, r]
      rw [dropped]
      refine ⟨rfl, ?_, ?_, rfl, ?_⟩
      · simpa using calm.value n
      · simp [calm.drops n]
      · rw [State.cnt_synCount]
        show min (((s.admitted n).cluster h).hub.cnt.drop + 1) _ = _
        rw [State.cnt_admitted]
        rfl
  case saturated =>
    have signal := signal.trans (if_pos saturated)
    have add := (State.fenceAdd_live use live v acked).trans (if_pos saturated)
    dsimp only [t, r]
    rw [signal, add]
    refine ⟨rfl, calm.value n, rfl, ?_, rfl, calm.value n⟩
    rw [State.cnt_synCount, State.cnt_admitted]
    rfl

/-- Settles O19: by the sum, and by whether it passes the largest value. -/
theorem addsGiveTheExactSumOrSaturate : Obligations.AddsGiveTheExactSumOrSaturate := by
  intro s n a p acked use live below c r
  have add : r = _ := (State.fenceAdd_live use live a acked).trans (if_neg (Nat.not_le_of_gt below))
  have zero (none : a = 0) : r = (Sync.ok, s.admitted n, []) := add.trans (if_pos none)
  have unchanged := (Calm.admitted s n).value n
  refine ⟨fun none => ?zero, fun fits => ?exact, fun passes => ?saturates⟩
  case zero =>
    rw [zero none]
    exact ⟨rfl, unchanged, rfl⟩
  case exact =>
    by_cases none : a = 0
    · rw [zero none, none]
      exact ⟨rfl, unchanged⟩
    · rw [add.trans ((if_neg none).trans (if_neg (Nat.not_lt_of_le fits)))]
      exact ⟨rfl, State.value_raised _ _ _⟩
  case saturates =>
    have some : a ≠ 0 := fun none => by omega
    rw [add.trans ((if_neg some).trans (if_pos passes)), State.admitOp_usable use]
    exact ⟨rfl, State.value_raised _ _ _, rfl⟩

end Sys2Proof.Machine
end

section
/-! PROOFS. Control messages of other modules: where they go, and what a home hub does with the requests that it takes (R231, R236 to R242, R265). -/

namespace Sys2Proof.Machine

/-! ### Imports and entries that become FREE (R232, R236) -/

theorem Calm.imports {s t : State} (a : Calm s t) (n : Nat) : (t.fence n).imports = (s.fence n).imports :=
  (congrArg Fence.imports (a.fence n) :)

theorem State.fence_freeFence (s : State) (n m : Nat) : (s.freeFence n).fence m = if m = n then Fence.reset else s.fence m := by
  simp [State.freeFence, State.fence]

theorem State.fence_releaseImport_live {s : State} {n : Nat} (live : (s.fence n).state = .live) :
    (s.releaseImport n).fence n = { s.fence n with imports := (s.fence n).imports - 1 } := by
  simp [State.releaseImport, live]

/-- An ERROR fence whose last import goes becomes FREE (R236). -/
theorem State.fence_releaseImport_last {s : State} {n : Nat} (error : (s.fence n).state = .error) (last : (s.fence n).imports = 1) :
    (s.releaseImport n).fence n = Fence.reset := by
  simp [State.releaseImport, error, last, State.fence_freeFence]

/-! ### Hubs that stay where they are (R264, R265) -/

section Still
variable {s : State} (still : s.hubsStill = true)
include still

/-- No mini-switch of a change has taken a hub away or is bringing one here. -/
theorem State.mini_of_hubsStill {f : Forme} {x : Change} {k : MiniSwitch} (hf : f ∈ s.formes) (change : f.change = some x) (hk : k ∈ x.minis) :
    ¬ (k.srcMod = s.fabAddr ∧ (k.carried = true ∨ k.done = true)) ∧ (k.done = true ∨ k.dstMod ≠ s.fabAddr) := by
  have all := List.all_eq_true.mp still f hf
  rw [change] at all
  have mini := List.all_eq_true.mp all k hk
  obtain ⟨stays, arrived⟩ := Bool.and_eq_true_iff.mp mini
  refine ⟨fun ⟨own, gone⟩ => ?_, (Bool.or_eq_true_iff.mp arrived).imp id of_decide_eq_true⟩
  have leaves : (decide (k.srcMod = s.fabAddr) && (k.carried || k.done)) = true :=
    Bool.and_eq_true_iff.mpr ⟨decide_eq_true own, Bool.or_eq_true_iff.mpr gone⟩
  rw [leaves] at stays
  cases stays

theorem State.pausing_of_hubsStill (c : Nat) : s.pausing c = none := by
  refine List.findSome?_eq_none_iff.mpr fun f hf => ?_
  cases change : f.change with
  | none => rfl
  | some x =>
    refine Option.map_eq_none_iff.mpr (List.find?_eq_none.mpr fun k hk => ?_)
    obtain ⟨-, arrived | away⟩ := State.mini_of_hubsStill still hf change hk
    · simp [arrived]
    · simp [away]

theorem State.movedHubs_of_hubsStill : s.movedHubs = [] := by
  refine List.flatMap_eq_nil_iff.mpr fun f hf => ?_
  cases change : f.change with
  | none => rfl
  | some x =>
    refine List.map_eq_nil_iff.mpr (List.filter_eq_nil_iff.mpr fun k hk => ?_)
    obtain ⟨stays, -⟩ := State.mini_of_hubsStill still hf change hk
    simpa only [Bool.and_eq_true, Bool.or_eq_true, decide_eq_true_eq] using stays

theorem State.ctrlArrive_still (opc : Nat) (m : CtrlMsg) : s.ctrlArrive opc m = s.ctrlDispatch opc m := by
  have unpaused : (s.ctrlHub opc m).bind s.pausing = none := by
    cases s.ctrlHub opc m <;> simp [State.pausing_of_hubsStill still]
  have unmoved (hub : Option Nat) : (hub.bind fun c => s.movedHubs.find? fun e => e.2.srcClu == c) = none := by
    cases hub <;> simp [State.movedHubs_of_hubsStill still]
  simp only [State.ctrlArrive, unpaused, unmoved]

end Still

/-! ### Where a control message goes -/

/-- The requests that hubs of other modules send, and their answers, with their opcodes (Table 08-4). -/
def ctrlRequests (m : CtrlMsg) : List (Instr × Nat) :=
  [(.signal m, 0x01), (.ctrlAdd m, 0x02), (.ctrlRead m, 0x03), (.wait m, 0x04), (.waitCancel m, 0x05), (.ctrlRelease m, 0x06), (.barArrive m, 0x10)]
def ctrlAnswers (m : CtrlMsg) : List (Instr × Nat) := [(.result m, 0x81), (.readAns m, 0x83), (.waitDone m, 0x84), (.barDone m, 0x90)]

/-- The row of a control message is its arrival. -/
theorem exec_ctrl (s : State) (m : CtrlMsg) : ∀ p ∈ ctrlRequests m ++ ctrlAnswers m, exec p.1 s = s.answer (s.ctrlArrive p.2 m) := by
  simp only [ctrlRequests, ctrlAnswers, List.cons_append, List.nil_append, List.forall_mem_cons, List.not_mem_nil, false_imp_iff, implies_true, and_true]
  exact ⟨rfl, rfl, rfl, rfl, rfl, rfl, rfl, rfl, rfl, rfl, rfl⟩

theorem exec_ctrlRequest (s : State) (m : CtrlMsg) : ∀ p ∈ ctrlRequests m, exec p.1 s = s.answer (s.ctrlArrive p.2 m) :=
  fun p hp => exec_ctrl s m p (List.mem_append_left _ hp)

section In
variable {s : State} {m : CtrlMsg} (opc hub : Nat) (f : State → State)

theorem State.ctrlIn_away (away : m.dstMod.toNat ≠ s.fabAddr) : s.ctrlIn opc m hub f = s.emit (.ctrl opc m) := if_pos away

theorem State.ctrlIn_bad {opc : Nat} (here : m.dstMod.toNat = s.fabAddr) (request : opc < 0x80) (bad : m.status ≠ 0) :
    s.ctrlIn opc m hub f = s.synCount hub .badmsg := (if_neg (not_not_intro here)).trans (if_pos ⟨request, bad⟩)

theorem State.ctrlIn_good (here : m.dstMod.toNat = s.fabAddr) (good : m.status = 0) : s.ctrlIn opc m hub f = f s :=
  (if_neg (not_not_intro here)).trans (if_neg fun h => h.2 good)

end In

section Away
variable {s : State} {m : CtrlMsg} (away : m.dstMod.toNat ≠ s.fabAddr)
include away

theorem State.ctrlArrive_elsewhere (opc : Nat) : s.ctrlArrive opc m = s.ctrlDispatch opc m := by
  have elsewhere : s.ctrlHub opc m = none := if_pos away
  simp only [State.ctrlArrive, elsewhere, Option.bind_none, ite_self]

/-- A message for another module goes on unchanged (R238). -/
theorem State.ctrlArrive_away : ∀ p ∈ ctrlRequests m ++ ctrlAnswers m, s.ctrlArrive p.2 m = s.emit (.ctrl p.2 m) := by
  have on (opc hub : Nat) (f : State → State) := State.ctrlIn_away opc hub f away
  simp only [State.ctrlArrive_elsewhere away]
  simp [ctrlRequests, ctrlAnswers, State.ctrlDispatch, State.ctrlSignal, State.ctrlAdd, State.ctrlRead, State.ctrlWaitMsg, State.ctrlCancel,
    State.ctrlRelease, State.ctrlBarArrive, State.ctrlResult, State.ctrlReadAns, State.ctrlWaitDone, State.ctrlBarDone, on]

end Away

section Named
variable {s : State} {opc c : Nat} {m : CtrlMsg} (hub : s.ctrlHub opc m = some c)
include hub

/-- A message for a hub whose cluster is being moved is held (R264). -/
theorem State.ctrlArrive_paused {id tag : Nat} (paused : s.pausing c = some (id, tag)) :
    s.ctrlArrive opc m = s.modMini id tag fun k => { k with held := k.held ++ [(opc, m)] } := by
  simp only [State.ctrlArrive, hub, Option.bind_some, paused]

/-- A message for a hub that has moved to another module goes on to it (R265). -/
theorem State.ctrlArrive_moved (named : 6 < opc) (unpaused : s.pausing c = none) {id : Nat} {k : MiniSwitch}
    (moved : (s.movedHubs.find? fun e => e.2.srcClu == c) = some (id, k)) (far : k.dstMod ≠ s.fabAddr) {x : Change} (change : s.changeOf id = some x) :
    s.ctrlArrive opc m = s.sendComp 0x34 (s.compMsg k.dstMod id x.cseq 0 (w4 := k.dstClu + 2 ^ 16)
      (data := .fwdCtrl (BitVec.ofNat 8 opc) (ctrlAt opc m k.dstClu))) := by
  have named : ¬ (1 ≤ opc ∧ opc ≤ 6) := fun h => by omega
  have change : ((s.forme id).bind fun f => f.change) = some x := change
  simp only [State.ctrlArrive, hub, named, if_false, Option.bind_some, unpaused, moved, far, change]

end Named

/-! ### Requests that a home hub takes -/

/-- A request whose STATUS is not zero is counted: one about a barrier at the lowest-numbered cluster, another at its fence's hub. -/
theorem State.ctrlDispatch_bad {s : State} {m : CtrlMsg} (here : m.dstMod.toNat = s.fabAddr) (bad : m.status ≠ 0) :
    ∀ p ∈ ctrlRequests m, s.ctrlDispatch p.2 m = s.synCount (if p.2 = 0x10 then s.lowestCluster else s.hubOf m.number.toNat) .badmsg := by
  have counted (opc hub : Nat) (f : State → State) (request : opc < 0x80) := State.ctrlIn_bad hub f here request bad
  simp [ctrlRequests, State.ctrlDispatch, State.ctrlSignal, State.ctrlAdd, State.ctrlRead, State.ctrlWaitMsg, State.ctrlCancel,
    State.ctrlRelease, State.ctrlBarArrive, counted]

section Taken
variable {s : State} {m : CtrlMsg} (here : m.dstMod.toNat = s.fabAddr) (good : m.status = 0)
include here good

theorem State.ctrlSignal_good : s.ctrlSignal m =
    let r := s.fenceSignal m.number.toNat m.value.toNat (s.ctrlWho m (s.fence m.number.toNat).owner) m.ackReq
    (if m.ackReq then r.2.1.ctrlAnswer 0x81 m r.1 0 else r.2.1).settle r.2.2 := by
  simp only [State.ctrlSignal, State.ctrlIn_good _ _ _ here good]

theorem State.ctrlAdd_good : s.ctrlAdd m =
    let r := s.fenceAdd m.number.toNat m.value.toNat (s.ctrlWho m (s.fence m.number.toNat).owner) m.ackReq
    (if m.ackReq then r.2.1.ctrlAnswer 0x81 m r.1 0 else r.2.1).settle r.2.2 := by
  simp only [State.ctrlAdd, State.ctrlIn_good _ _ _ here good]

theorem State.ctrlRead_good : s.ctrlRead m =
    let r := s.fenceRead m.number.toNat (s.ctrlWho m (s.fence m.number.toNat).owner)
    r.2.2.ctrlAnswer 0x83 m r.1 r.2.1 := by
  simp only [State.ctrlRead, State.ctrlIn_good _ _ _ here good]

theorem State.ctrlWaitMsg_decided {st : Nat} {t : State} (wait : s.fenceWait m.number.toNat m.value.toNat (s.ctrlWho m (s.fence m.number.toNat).owner)
    (.remote m.srcMod.toNat m.srcClu.toNat m.tag.toNat m.auth.toNat) = (some st, t)) : s.ctrlWaitMsg m = t.ctrlAnswer 0x84 m st 0 := by
  simp only [State.ctrlWaitMsg, State.ctrlIn_good _ _ _ here good, wait]

/-- A wait is registered where the registry of remote waits has room, and answered REGISTRY_FULL where it has none (R239). -/
theorem State.ctrlWaitMsg_registered {t : State} (wait : s.fenceWait m.number.toNat m.value.toNat (s.ctrlWho m (s.fence m.number.toNat).owner)
    (.remote m.srcMod.toNat m.srcClu.toNat m.tag.toNat m.auth.toNat) = (none, t)) : s.ctrlWaitMsg m =
      if 8192 ≤ s.remoteWaits (s.hubOf m.number.toNat) then ({ t with waits := s.waits } : State).ctrlAnswer 0x84 m Sync.registryFull 0 else t := by
  simp only [State.ctrlWaitMsg, State.ctrlIn_good _ _ _ here good, wait]

/-- A cancelled wait goes, and no other (R239). -/
theorem State.ctrlCancel_good : ∃ t, s.ctrlCancel m = t ∧ t.fences = s.fences ∧ t.cores = s.cores ∧
    ∀ w, w ∈ t.waits ↔ w ∈ s.waits ∧ ∀ a, w.who ≠ .remote m.srcMod.toNat m.srcClu.toNat m.tag.toNat a := by
  refine ⟨_, State.ctrlIn_good _ _ _ here good, rfl, rfl, fun w => ?_⟩
  simp only [State.dropWaits, List.mem_filter]
  refine and_congr_right' ?_
  cases w.who with
  | remote mod clu tag auth =>
    simp only [ne_eq, Waiter.remote.injEq, not_and, Bool.not_eq_true', Bool.and_eq_false_imp, Bool.and_eq_true, beq_iff_eq, beq_eq_false_iff_ne, and_imp]
    exact ⟨fun other a hm hc ht _ => other hm hc ht, fun other hm hc ht => other auth hm hc ht rfl⟩
  | _ => simp

theorem State.ctrlRelease_good (use : s.usable m.number.toNat (s.ctrlWho m (s.fence m.number.toNat).owner)) :
    s.ctrlRelease m = (s.admitted m.number.toNat).releaseImport m.number.toNat := by
  simp only [State.ctrlRelease, State.ctrlIn_good _ _ _ here good, State.admitOp_usable use]

theorem State.ctrlBarArrive_good (named : m.number.toNat / 2 ^ 14 = 0 ∧ bits m.number.toNat 13 8 < 48) : s.ctrlBarArrive m =
    let h := bits m.number.toNat 13 8
    let i := bits m.number.toNat 7 0
    let r := s.barArriveChild h i (m.srcMod.toNat * 2 ^ 14 + m.srcClu.toNat * 2 ^ 8 + m.tag.toNat % 2 ^ 8) (s.ctrlWho m (s.bar h i).owner)
    r.1.settle r.2 := by
  have target : barTarget m = some (bits m.number.toNat 13 8, bits m.number.toNat 7 0) := if_pos named
  simp only [State.ctrlBarArrive, State.ctrlIn_good _ _ _ here good, target]

end Taken

/-- Settles O39: a request that is not held, forwarded or bad is dispatched by its opcode to what the hub does with it. -/
theorem requestsToAHomeHub : Obligations.RequestsToAHomeHub := by
  intro s m n who here requests answers
  refine ⟨fun away => ?away, fun p hp c hub => ?named, fun here still bad => ?bad, fun here still good => ?good⟩
  case away =>
    have away (p : Instr × Nat) (hp : p ∈ requests ++ answers) : exec p.1 s = s.answer (s.emit (.ctrl p.2 m)) :=
      exec_eq_answer (exec_ctrl s m p hp) (State.ctrlArrive_away away p hp)
    exact ⟨fun p hp => away p (List.mem_append_left _ hp), fun p hp => away p (List.mem_append_right _ hp)⟩
  case named =>
    have row := exec_ctrl s m p hp
    exact ⟨fun id tag paused => exec_eq_answer row (State.ctrlArrive_paused hub paused),
      fun id k x named unpaused moved far change => exec_eq_answer row (State.ctrlArrive_moved hub named unpaused moved far change)⟩
  case bad =>
    have row (p : Instr × Nat) (hp : p ∈ requests) :=
      exec_eq_answer (exec_ctrlRequest s m p hp) ((State.ctrlArrive_still still p.2 m).trans (State.ctrlDispatch_bad here bad p hp))
    refine ⟨fun p hp fence => ?_, row (.barArrive m, 0x10) (by simp [requests])⟩
    rw [row p hp, if_neg fence]
  case good =>
    have row (opc : Nat) : s.answer (s.ctrlArrive opc m) = s.answer (s.ctrlDispatch opc m) := congrArg s.answer (State.ctrlArrive_still still opc m)
    have signal : exec (.signal m) s = s.answer (s.ctrlSignal m) := row 0x01
    have add : exec (.ctrlAdd m) s = s.answer (s.ctrlAdd m) := row 0x02
    have read : exec (.ctrlRead m) s = s.answer (s.ctrlRead m) := row 0x03
    have wait : exec (.wait m) s = s.answer (s.ctrlWaitMsg m) := row 0x04
    have cancel : exec (.waitCancel m) s = s.answer (s.ctrlCancel m) := row 0x05
    have release : exec (.ctrlRelease m) s = s.answer (s.ctrlRelease m) := row 0x06
    have arrive : exec (.barArrive m) s = s.answer (s.ctrlBarArrive m) := row 0x10
    refine ⟨exec_eq_answer signal (State.ctrlSignal_good here good), exec_eq_answer add (State.ctrlAdd_good here good),
      exec_eq_answer read (State.ctrlRead_good here good), ⟨fun st decided => ?_, fun registered room => ?_, fun registered full => ?_⟩, ?cancelled,
      fun use live => ?released, fun use error last => ?freed, fun high low => exec_eq_answer arrive (State.ctrlBarArrive_good here good ⟨high, low⟩)⟩
    · exact exec_eq_answer wait (State.ctrlWaitMsg_decided here good (Prod.ext decided rfl))
    · exact exec_eq_answer wait ((State.ctrlWaitMsg_registered here good (Prod.ext registered rfl)).trans (if_neg (Nat.not_le_of_gt room)))
    · exact exec_eq_answer wait ((State.ctrlWaitMsg_registered here good (Prod.ext registered rfl)).trans (if_pos full))
    case cancelled =>
      obtain ⟨t, cancels, fences, cores, waits⟩ := State.ctrlCancel_good here good
      exact ⟨_, exec_eq_answer cancel cancels, waits, fences, cores⟩
    case released =>
      have calm := Calm.admitted s n
      have left := State.fence_releaseImport_live ((calm.state n).trans live)
      exact ⟨_, exec_eq_answer release (State.ctrlRelease_good here good use),
        (congrArg Fence.imports left).trans (congrArg (· - 1) (calm.imports n)),
        (congrArg Fence.value left).trans (calm.value n), (congrArg Fence.state left).trans ((calm.state n).trans live)⟩
    case freed =>
      have calm := Calm.admitted s n
      have left := State.fence_releaseImport_last ((calm.state n).trans error) ((calm.imports n).trans last)
      exact ⟨_, exec_eq_answer release (State.ctrlRelease_good here good use), congrArg Fence.state left⟩

end Sys2Proof.Machine
end

section
/-! PROOFS. Commands of queues on fences, barriers, schedules and compositions: what each comes to that may start (R232 to R236, R241, R243, R257
to R259, R298, R299, R309). -/

namespace Sys2Proof.Machine

/-! ### The command that starts -/

section Start
variable (s : State) (q n : Nat) (c : Cmd)

@[simp] theorem State.queue_start_ctx : ((s.start q c).queue q).ctx = (s.queue q).ctx := by
  simp [State.start, State.modCmd]

@[simp] theorem State.ctx_start : (s.start q c).ctx n = s.ctx n := rfl
@[simp] theorem State.fence_start : (s.start q c).fence n = s.fence n := rfl
@[simp] theorem State.part_start : (s.start q c).part n = s.part n := rfl
@[simp] theorem State.forme_start : (s.start q c).forme n = s.forme n := rfl
@[simp] theorem State.bar_start (h : Nat) : (s.start q c).bar h n = s.bar h n := rfl
@[simp] theorem State.isMaster_start (f : Forme) : (s.start q c).isMaster f = s.isMaster f := rfl
@[simp] theorem State.handleUsable_start : (s.start q c).handleUsable n = s.handleUsable n := rfl
@[simp] theorem State.ownedFences_start : (s.start q c).ownedFences n = s.ownedFences n := rfl
@[simp] theorem State.planReason_start (h : PlanHeader) (es : List PlanEntry) (fits : Bool) :
    (s.start q c).planReason h es fits = s.planReason h es fits := rfl

end Start

section Command
variable {s : State} {q opc : Nat} {c : Cmd}

theorem State.onCmd_none (none : s.takesNone q opc) (f : State → Cmd → State) : s.onCmd q opc f = s := by
  have none : (s.next q fun c => c.opc == opc) = .none := none
  simp only [State.onCmd, none]

theorem State.onCmd_takes (takes : s.takes q opc c) (f : State → Cmd → State) : s.onCmd q opc f = f (s.start q c) c := by
  have takes : (s.next q fun c => c.opc == opc) = some c := takes
  simp only [State.onCmd, takes]

theorem State.onBulk_none (none : s.takesNone q opc) (f : State → Cmd → List Byte → State) : s.onBulk q opc f = s := by
  have none : (s.next q fun c => c.opc == opc) = .none := none
  simp only [State.onBulk, none]

theorem State.onBulk_asks (takes : s.takes q opc c) (unread : c.bulk = none) (unasked : c.bulkAsked = false)
    (f : State → Cmd → List Byte → State) : s.onBulk q opc f = s.askBulk q c := by
  have takes : (s.next q fun c => c.opc == opc) = some c := takes
  simp only [State.onBulk, takes, unread, unasked, Bool.false_eq_true, if_false]

theorem State.onBulk_read (takes : s.takes q opc c) {b : List Byte} (read : c.bulk = some b) (f : State → Cmd → List Byte → State) :
    s.onBulk q opc f = f (s.start q c) c b := by
  have takes : (s.next q fun c => c.opc == opc) = some c := takes
  simp only [State.onBulk, takes, read]

end Command

/-- One barrier is changed, and no other. -/
theorem State.bar_modBar (s : State) (h i g j : Nat) (f : Barrier → Barrier) :
    (s.modBar h i f).bar g j = if g = h ∧ j = i then f (s.bar h i) else s.bar g j := by
  by_cases hub : g = h
  · by_cases inst : j = i <;> simp [State.modBar, State.bar, hub, inst]
  · simp [State.modBar, State.bar, hub]

/-! ### What each command comes to -/

section Commands
variable {s : State} {q : Nat} {c : Cmd}

theorem State.fenceCreate_takes (takes : s.takes q 0x18 c) : s.fenceCreate q =
    let u := s.start q c
    let n := (s.queue q).ctx
    let num := bits (c.arg 0) 31 0
    let home := bits (c.arg 0) 37 32
    let keyh := bits (c.arg 0) 49 38
    if (s.ctx n).member ≠ 0 then u.refuseCmd q c Dt.notMaster
    else if ¬ (s.handleUsable keyh = true ∧ home ∈ (s.part (s.ctx n).part).lay.clusters) then u.refuseCmd q c Dt.field
    else if fenceCount ≤ num then u.refuseCmd q c Sync.noSuch
    else if (s.fence num).state ≠ .free then u.refuseCmd q c Dt.inUse
    else if (s.ctx n).fenceQuota ≤ (s.ownedFences n).length then u.refuseCmd q c Sync.quota
    else ({ u with fences := Tbl.set u.fences num ⟨c.arg 1, .live, home, keyh, n, 0, 0, c.arg 1⟩ } : State).okCmd q c := by
  simp [State.fenceCreate, State.onCmd_takes takes, State.onMasterMember, Decidable.imp_iff_not_or]

theorem State.fenceRetire_takes (takes : s.takes q 0x19 c) : s.fenceRetire q =
    let u := s.start q c
    let n := (s.queue q).ctx
    let num := bits (c.arg 0) 31 0
    let ws := (u.waits.filter fun w => w.fence == num).map fun w => w.who
    let t := ({ u with waits := u.waits.filter fun w => w.fence != num } : State).tellAll num Sync.noSuch ws
    if (s.ctx n).member ≠ 0 then u.refuseCmd q c Dt.notMaster
    else if fenceCount ≤ num ∨ (s.fence num).state = .free then u.refuseCmd q c Sync.noSuch
    else if (s.fence num).owner ≠ n then (u.synCount (s.fence num).home .deny).refuseCmd q c Sync.noSuch
    else if (s.fence num).imports ≠ 0 then u.refuseCmd q c Dt.importsLeft
    else ((t.1.settle t.2).freeFence num).okCmd q c := by
  simp [State.fenceRetire, State.onCmd_takes takes, State.onMasterMember] <;> rfl

theorem State.fenceRelease_takes (takes : s.takes q 0x1B c) : s.fenceRelease q =
    let u := s.start q c
    let n := (s.queue q).ctx
    let name := c.arg 0 % 2 ^ 48
    if name ∉ (s.ctx n).imports then u.refuseCmd q c Sync.noSuch
    else ((u.modCtx n fun x => { x with imports := x.imports.erase name }).releaseName n name).okCmd q c := by
  simp [State.fenceRelease, State.onCmd_takes takes]

theorem State.barRemove_takes (takes : s.takes q 0x1E c) : s.barRemove q =
    let u := s.start q c
    let i := bits (c.arg 0) 7 0
    let h := bits (c.arg 0) 13 8
    let r := u.barUnconfigure h i
    if (s.bar h i).conf = false ∨ (s.bar h i).owner ≠ (s.queue q).ctx then u.refuseCmd q c Sync.noSuch
    else (r.1.settle r.2).okCmd q c := by
  simp [State.barRemove, State.onCmd_takes takes]

theorem State.barConfig_takes (takes : s.takes q 0x1D c) : s.barConfig q =
    let u := s.start q c
    let n := (s.queue q).ctx
    let i := bits (c.arg 0) 7 0
    let h := bits (c.arg 0) 13 8
    let expect := bits (c.arg 0) 26 14
    let keyh := bits (c.arg 0) 38 27
    let b := s.bar h i
    if ¬ (h ∈ (s.part (s.ctx n).part).lay.clusters ∧ 0 < expect ∧ expect ≤ 4096 ∧ s.handleUsable keyh = true) then u.refuseCmd q c Dt.field
    else if b.conf = true ∧ b.owner ≠ n then u.refuseCmd q c Sync.noSuch
    else if b.conf = true ∧ (b.arrived ≠ 0 ∨ b.children ≠ []) then u.refuseCmd q c Dt.inUse
    else if b.conf = false ∧ u.barsFree (s.ctx n).part h n ≤ ((u.cluster h).hub.bars.filter fun b => b.2.conf && b.2.owner == n).length then
      u.refuseCmd q c Sync.quota
    else (u.modBar h i fun b => { Barrier.reset with
      conf := true, expect := expect, keyh := keyh, owner := n, phase := b.phase,
      parent := if bit (c.arg 1) 30 then some (bits (c.arg 1) 29 0) else none }).okCmd q c := by
  simp [State.barConfig, State.onCmd_takes takes, Decidable.imp_iff_not_or, Nat.pos_iff_ne_zero]

/-- A barrier that is free, with room for it, or that is the context's own and has no arrivals takes the new configuration. -/
theorem State.barConfig_may (takes : s.takes q 0x1D c) :
    let u := s.start q c
    let n := (s.queue q).ctx
    let i := bits (c.arg 0) 7 0
    let h := bits (c.arg 0) 13 8
    let expect := bits (c.arg 0) 26 14
    let keyh := bits (c.arg 0) 38 27
    let b := s.bar h i
    h ∈ (s.part (s.ctx n).part).lay.clusters ∧ 0 < expect ∧ expect ≤ 4096 ∧ s.handleUsable keyh = true →
    (b.conf = false ∧ ((u.cluster h).hub.bars.filter fun b => b.2.conf && b.2.owner == n).length < u.barsFree (s.ctx n).part h n) ∨
      (b.conf = true ∧ b.owner = n ∧ b.arrived = 0 ∧ b.children = []) →
    s.barConfig q = (u.modBar h i fun b => { Barrier.reset with
      conf := true, expect := expect, keyh := keyh, owner := n, phase := b.phase,
      parent := if bit (c.arg 1) 30 then some (bits (c.arg 1) 29 0) else none }).okCmd q c := by
  intro u n i h expect keyh b good may
  have config := (State.barConfig_takes takes).trans (if_neg (not_not_intro good))
  obtain ⟨fresh, room⟩ | ⟨conf, own, quiet, childless⟩ := may
  · have unset {p : Prop} : ¬ (b.conf = true ∧ p) := fun set => Bool.false_ne_true (fresh.symm.trans set.1)
    exact config.trans ((if_neg unset).trans ((if_neg unset).trans (if_neg fun full => Nat.not_le_of_gt room full.2)))
  · have still : ¬ (b.arrived ≠ 0 ∨ b.children ≠ []) := not_or_intro (not_not_intro quiet) (not_not_intro childless)
    exact config.trans ((if_neg fun other => other.2 own).trans ((if_neg fun busy => still busy.2).trans
      (if_neg fun unset => Bool.false_ne_true (unset.1.symm.trans conf))))

theorem State.setSched_unknown (takes : s.takes q 0x06 c) (unknown : s.forme (bits (c.arg 0) 31 0) = none) :
    s.setSched q = (s.start q c).refuseCmd q c Dt.badMember := by
  simp only [State.setSched, State.onCmd_takes takes, State.forme_start, unknown]

theorem State.setSched_known (takes : s.takes q 0x06 c) {f : Forme} (known : s.forme (bits (c.arg 0) 31 0) = some f) : s.setSched q =
    let u := s.start q c
    let id := bits (c.arg 0) 31 0
    let ms := bits (c.arg 1) 15 0
    if s.isMaster f = false then u.refuseCmd q c Dt.notMaster
    else if 1000 < ms then u.refuseCmd q c Dt.field
    else (u.modForme id fun f => { f with newQuantum := some (if ms = 0 then 10 else ms) }).okCmd q c := by
  simp [State.setSched, State.onCmd_takes takes, known] <;> rfl

theorem State.fenceSignalCmd_none {add : Bool} (none : (s.next q fun c => c.opc == 0x1C && bit (c.arg 2) 0 == add) = none) :
    s.fenceSignalCmd q add = s := by
  simp only [State.fenceSignalCmd, none]

theorem State.fenceSignalCmd_takes {add : Bool} (takes : (s.next q fun c => c.opc == 0x1C && bit (c.arg 2) 0 == add) = some c) :
    s.fenceSignalCmd q add =
      let u := s.start q c
      let n := (s.queue q).ctx
      let name := c.arg 0 % 2 ^ 48
      let num := bits name 31 0
      let r := if add then u.fenceAdd num (c.arg 1) (.ctx n) true else u.fenceSignal num (c.arg 1) (.ctx n) true
      let v := r.2.1.settle r.2.2
      if bits name 47 32 ≠ s.fabAddr then
        (u.send (.ctrl (if add then 0x02 else 0x01) ⟨0, false, BitVec.ofNat 16 s.fabAddr, BitVec.ofNat 16 (bits name 47 32), 0,
          BitVec.ofNat 32 num, 0, BitVec.ofNat 16 n, BitVec.ofNat 64 (c.arg 1), 0⟩)).okCmd q c [0]
      else if r.1 = Sync.ok ∨ r.1 = Sync.discarded then v.okCmd q c [BitVec.ofNat 64 r.1]
      else v.refuseCmd q c r.1 := by
  simp only [State.fenceSignalCmd, takes, State.queue_start_ctx]
  rfl

theorem State.compose_takes (takes : s.takes q 0x05 c) {b : List Byte} (read : c.bulk = some b) : s.compose q =
    let u := s.start q c
    let h := planHeader b
    let fits := decide (64 + 128 * h.nent ≤ b.length)
    let es := if fits then planEntries b h.nent else []
    let why := s.planReason h es fits
    if why.1 ≠ 0 then u.refusePlan q c h why.1 why.2
    else (if h.kind = 0 then { u with formes := u.formes ++ [Forme.blank h.formeId] } else u).startChange h.formeId h es false (some c.place) :=
  State.onBulk_read takes read _

end Commands

/-! ### FENCE_IMPORT (R235, R299) -/

/-- The import of fence `num` for a principal that the hub admits or turns away. -/
theorem State.takeImport_eq (s : State) (num : Nat) (who : Principal) : s.takeImport num who =
    let t := (s.admitOp num who).1
    if (s.admitOp num who).2 = false then (Sync.noSuch, t)
    else if (t.fence num).state = .error then (Sync.fenceError, t)
    else if 4095 ≤ (t.fence num).imports then (Sync.quota, t)
    else (0, t.modFence num fun f => { f with imports := f.imports + 1 }) := by
  unfold State.takeImport
  split <;> simp [*]

/-- FENCE_IMPORT of a name by context `n` ends: with 0 the context holds the import, and any other code is its refusal. -/
def State.importEnds (s : State) (q n : Nat) (c : Cmd) (d : Nat) : State :=
  if d = 0 then (s.modCtx n fun x => { x with imports := x.imports ++ [c.arg 0 % 2 ^ 48] }).okCmd q c else s.refuseCmd q c d

section Import
variable {s : State} {q : QueueId} {c : Cmd}

theorem State.fenceImport_order {o : MemberOrder} (opcode : o.opc = 0x1A) : s.fenceImport (.order o) =
    let num := bits (argAt o.args 0) 31 0
    let t := s.takeImport num (s.importer o (s.fence num).owner)
    t.2.send (.orderDone o.forme o.job o.member 0x1A t.1 0) := if_neg (not_not_intro opcode)

/-- The answer to an order of this module ends the command that waits for it. -/
theorem State.fenceImport_answered {d : Cmd} (asked : (s.awaiting q fun c => c.opc == 0x1A) = some d) (r : BitVec 64) :
    s.fenceImport (.queue q (some r)) = s.importEnds q (s.queue q).ctx d (bits r.toNat 15 0) := by
  simp only [State.fenceImport, asked, State.importEnds]

theorem State.fenceImport_onCmd {reply : Option (BitVec 64)} (fresh : reply = none ∨ (s.awaiting q fun c => c.opc == 0x1A) = none) :
    ∃ f, s.fenceImport (.queue q reply) = s.onCmd q 0x1A f ∧ ∀ u c, f u c =
      let n := (s.queue q).ctx
      let name := c.arg 0 % 2 ^ 48
      let sent := (u.send (.memberOrder ⟨(u.ctx n).forme, (u.ctx n).job, (u.ctx n).member, 0x1A, [BitVec.ofNat 64 name], [], 0⟩)).ordered q c
      if bits name 47 32 = u.fabAddr then (u.takeImport (bits name 31 0) (.ctx n)).2.importEnds q n c (u.takeImport (bits name 31 0) (.ctx n)).1
      else reply.elim sent fun r => sent.importEnds q n c (bits r.toNat 15 0) := by
  obtain rfl | none := fresh
  · exact ⟨_, rfl, fun _ _ => rfl⟩
  · cases reply with
    | none => exact ⟨_, rfl, fun _ _ => rfl⟩
    | some r =>
      simp only [State.fenceImport, none]
      exact ⟨_, rfl, fun _ _ => rfl⟩

end Import

/-! ### The rows -/

theorem exec_compose (q : QueueId) (s : State) : exec (.compose q) s = s.answer (s.compose q) := rfl

theorem exec_fenceSignalCmd (q : QueueId) (s : State) (add : Bool) :
    exec (if add then Instr.fenceSignalAdd q else .fenceSignal q) s = s.answer (s.fenceSignalCmd q add) := by
  cases add <;> rfl

/-- Each of these rows leaves the state as it is where no command of its opcode may start. -/
theorem exec_takesNone (q : QueueId) (s : State) : ∀ p ∈ [(Instr.fenceCreate q, 0x18), (.fenceRetire q, 0x19), (.fenceImport (.queue q none), 0x1A),
    (.fenceRelease q, 0x1B), (.barConfig q, 0x1D), (.barRemove q, 0x1E), (.setSched q, 0x06), (.compose q, 0x05)],
    s.takesNone q p.2 → exec p.1 s = .next s := by
  have quiet {i : Instr} {opc : Nat} {f : State → Cmd → State} (row : exec i s = s.answer (s.onCmd q opc f)) (none : s.takesNone q opc) :
      exec i s = .next s := exec_eq_next row (State.onCmd_none none f) rfl
  simp only [List.forall_mem_cons, List.not_mem_nil, false_imp_iff, implies_true, and_true]
  exact ⟨quiet rfl, quiet rfl, quiet rfl, quiet rfl, quiet rfl, quiet rfl, quiet rfl,
    fun none => exec_eq_next (exec_compose q s) (State.onBulk_none none _) rfl⟩

/-- Settles O55: each command by what it comes to, check by check. -/
theorem fenceBarrierAndScheduleCommands : Obligations.FenceBarrierAndScheduleCommands := by
  intro s q c u n refused
  refine ⟨exec_takesNone q s, fun takes => ?create, fun takes => ?retire, fun num => ?free, fun takes => ?import_, fun r d asked => ?answered,
    fun o opcode => exec_eq_answer rfl (State.fenceImport_order opcode), fun num who => ?taken, fun takes => ?release,
    fun num live => congrArg Fence.imports (State.fence_releaseImport_live live),
    fun num error last => congrArg Fence.state (State.fence_releaseImport_last error last), fun add => ⟨fun none => ?unsignalled, fun takes => ?signal⟩,
    fun takes => ?config, fun takes => ?remove, fun takes => ?sched, fun takes unread unasked => ?asks, fun b takes read => ?compose⟩
  case create =>
    have create := State.fenceCreate_takes takes
    have master (h : (s.ctx n).member = 0) := create.trans (if_neg (not_not_intro h))
    refine ⟨fun away => exec_eq_answer rfl (create.trans (if_pos away)), fun here bad => exec_eq_answer rfl ((master here).trans (if_pos bad)),
      fun here good => ?_⟩
    have create := (master here).trans (if_neg (not_not_intro good))
    exact ⟨fun beyond => exec_eq_answer rfl (create.trans (if_pos beyond)),
      fun known used => exec_eq_answer rfl (create.trans ((if_neg (Nat.not_le_of_gt known)).trans (if_pos used))),
      fun known free full => exec_eq_answer rfl (create.trans ((if_neg (Nat.not_le_of_gt known)).trans ((if_neg (not_not_intro free)).trans (if_pos full)))),
      fun known free room => exec_eq_answer rfl (create.trans ((if_neg (Nat.not_le_of_gt known)).trans ((if_neg (not_not_intro free)).trans
        (if_neg (Nat.not_le_of_gt room)))))⟩
  case retire =>
    have retire := State.fenceRetire_takes takes
    have master (h : (s.ctx n).member = 0) := retire.trans (if_neg (not_not_intro h))
    refine ⟨fun away => exec_eq_answer rfl (retire.trans (if_pos away)), fun here unknown => exec_eq_answer rfl ((master here).trans (if_pos unknown)),
      fun here known used other => ?_, fun here known used own left => ?_, fun here known used own none => ?_⟩
    all_goals have retire := (master here).trans (if_neg (not_or_intro (Nat.not_le_of_gt known) used))
    · exact exec_eq_answer rfl (retire.trans (if_pos other))
    · exact exec_eq_answer rfl (retire.trans ((if_neg (not_not_intro own)).trans (if_pos left)))
    · exact exec_eq_answer rfl (retire.trans ((if_neg (not_not_intro own)).trans (if_neg (not_not_intro none))))
  case free =>
    exact ⟨by rw [State.fence_freeFence, if_pos rfl]; rfl, fun m other => by rw [State.fence_freeFence, if_neg other]⟩
  case import_ =>
    intro name num ends sent
    have imports {reply : Option (BitVec 64)} (fresh : reply = none ∨ (s.awaiting q fun c => c.opc == 0x1A) = none) :
        s.fenceImport (.queue q reply) =
          if bits name 47 32 = s.fabAddr then ends (u.takeImport num (.ctx n)).2 (u.takeImport num (.ctx n)).1
          else reply.elim sent fun r => ends sent (bits r.toNat 15 0) := by
      obtain ⟨f, runs, acts⟩ := State.fenceImport_onCmd (s := s) (q := q) fresh
      exact (runs.trans (State.onCmd_takes takes f)).trans (acts u c)
    exact ⟨fun away => ⟨exec_eq_answer rfl ((imports (.inl rfl)).trans (if_neg away)),
        fun r fresh => exec_eq_answer rfl ((imports (reply := some r) (.inr fresh)).trans (if_neg away))⟩,
      fun here => exec_eq_answer rfl ((imports (.inl rfl)).trans (if_pos here))⟩
  case answered =>
    have answered := State.fenceImport_answered asked r
    exact ⟨fun ok => exec_eq_answer rfl (answered.trans (if_pos ok)), fun bad => exec_eq_answer rfl (answered.trans (if_neg bad))⟩
  case taken =>
    intro r
    have taken := s.takeImport_eq num who
    refine ⟨fun denied => taken.trans (if_pos denied), fun admitted error => ?_, fun admitted sound full => ?_, fun admitted sound room => ?_⟩
    all_goals have taken := taken.trans (if_neg (Bool.not_eq_false _ ▸ admitted))
    · exact taken.trans (if_pos error)
    · exact taken.trans ((if_neg sound).trans (if_pos full))
    · exact taken.trans ((if_neg sound).trans (if_neg (Nat.not_le_of_gt room)))
  case release =>
    have release := State.fenceRelease_takes takes
    exact ⟨fun foreign => exec_eq_answer rfl (release.trans (if_pos foreign)),
      fun own => exec_eq_answer rfl (release.trans (if_neg (not_not_intro own)))⟩
  case unsignalled => exact exec_eq_next (exec_fenceSignalCmd q s add) (State.fenceSignalCmd_none none) rfl
  case signal =>
    intro r v
    have row := exec_fenceSignalCmd q s add
    have signal := State.fenceSignalCmd_takes takes
    exact ⟨fun away => exec_eq_answer row (signal.trans (if_pos away)),
      fun here ok => exec_eq_answer row (signal.trans ((if_neg (not_not_intro here)).trans (if_pos ok))),
      fun here failed kept => exec_eq_answer row (signal.trans ((if_neg (not_not_intro here)).trans (if_neg (not_or_intro failed kept))))⟩
  case config =>
    intro i h expect keyh b good
    have config := State.barConfig_takes takes
    have fits (ok : good) := config.trans (if_neg (not_not_intro ok))
    refine ⟨fun bad => exec_eq_answer rfl (config.trans (if_pos bad)),
      fun ok conf other => exec_eq_answer rfl ((fits ok).trans (if_pos ⟨conf, other⟩)),
      fun ok conf own busy => exec_eq_answer rfl ((fits ok).trans ((if_neg fun h => h.2 own).trans (if_pos ⟨conf, busy⟩))), ?_⟩
    intro mine
    refine ⟨fun ok fresh full => ?_, fun ok may => ?_⟩
    · have unset {p : Prop} : ¬ (b.conf = true ∧ p) := fun h => Bool.false_ne_true (fresh.symm.trans h.1)
      exact exec_eq_answer rfl ((fits ok).trans ((if_neg unset).trans ((if_neg unset).trans (if_pos ⟨fresh, full⟩))))
    · refine ⟨_, exec_eq_answer rfl (State.barConfig_may takes ok may), ?_, fun g j other => ?_⟩
      · rw [State.bar_modBar, if_pos ⟨rfl, rfl⟩]
        rfl
      · rw [State.bar_modBar, if_neg other]
        rfl
  case remove =>
    have remove := State.barRemove_takes takes
    exact ⟨fun none => exec_eq_answer rfl (remove.trans (if_pos none)),
      fun conf own => exec_eq_answer rfl (remove.trans (if_neg (not_or_intro (by simp [conf]) (not_not_intro own))))⟩
  case sched =>
    intro id ms
    refine ⟨fun unknown => exec_eq_answer rfl (State.setSched_unknown takes unknown), fun f known slave => ?_, fun f known master long => ?_,
      fun f known master fits => ?_⟩
    all_goals have sched := State.setSched_known takes known
    · exact exec_eq_answer rfl (sched.trans (if_pos slave))
    · exact exec_eq_answer rfl (sched.trans ((if_neg (by simp [master])).trans (if_pos long)))
    · exact exec_eq_answer rfl (sched.trans ((if_neg (by simp [master])).trans (if_neg (Nat.not_lt_of_le fits))))
  case asks => exact exec_eq_answer rfl (State.onBulk_asks takes unread unasked _)
  case compose =>
    intro h fits es why
    have compose := State.compose_takes takes read
    refine ⟨fun bad => exec_eq_answer rfl (compose.trans (if_pos bad)), fun ok new => ?_, fun ok known => ?_⟩
    all_goals have compose := compose.trans (if_neg (not_not_intro ok))
    · rw [if_pos new] at compose
      exact exec_eq_answer rfl compose
    · rw [if_neg known] at compose
      exact exec_eq_answer rfl compose

end Sys2Proof.Machine
end

section
/-! PROOFS. How compositor messages are taken (R281, R282): those for another module, those that came before, those of no known change, and those
that are acted on; and the change that a forme is in. -/

namespace Sys2Proof.Machine

/-! ### The change in progress -/

theorem State.changeOf_eq_some_iff {s : State} {id : Nat} {c : Change} : s.changeOf id = some c ↔ ∃ f, s.forme id = some f ∧ f.change = some c :=
  Option.bind_eq_some_iff

theorem State.changeOf_of_forme {s : State} {id : Nat} {f : Forme} (known : s.forme id = some f) : s.changeOf id = f.change := by
  rw [State.changeOf, known, Option.bind_some]

theorem State.stepIn_of_changeOf {s : State} {id : Nat} {c : Change} (change : s.changeOf id = some c) (st : ChangeStep) (ms : Change → List Nat) :
    s.stepIn id st ms = (c.step == st && c.allIn (ms c)) := by
  rw [State.stepIn, change, Option.any_some]

theorem State.not_stepIn_of_changeOf {s : State} {id : Nat} {c : Change} (change : s.changeOf id = some c) (st : ChangeStep)
    (ms : Change → List Nat) : (c.step != st || !c.allIn (ms c)) = !s.stepIn id st ms := by
  rw [State.stepIn_of_changeOf change, Bool.not_and]
  rfl

/-- What the master does at the end of a step, and only there. -/
theorem State.match_stepIn (s t : State) (id : Nat) (st : ChangeStep) (ms : Change → List Nat) :
    (match s.changeOf id with
      | some c => if c.step == st && c.allIn (ms c) then t else s
      | none => s) = if s.stepIn id st ms then t else s := by
  unfold State.stepIn
  cases s.changeOf id <;> rfl

/-- A change of a forme that keeps its number is found under it. -/
theorem State.forme_modForme (s : State) (id : Nat) {g : Forme → Forme} (keeps : ∀ f, (g f).id = f.id) :
    (s.modForme id g).forme id = (s.forme id).map g := by
  have found : (fun f : Forme => f.id == id) ∘ (fun f => if f.id = id then g f else f) = fun f => f.id == id := by
    funext f
    by_cases h : f.id = id <;> simp [h, keeps]
  rw [State.forme, State.modForme, List.find?_map, found]
  cases h : s.formes.find? fun f => f.id == id with
  | none => simp [State.forme, h]
  | some f => simp [State.forme, h, show f.id = id by simpa using List.find?_some h]

/-! ### Taking a message -/

section Taking
variable {s : State} {opc : Nat} {m : CompMsg}

theorem State.compIn_away (away : m.dstMod.toNat ≠ s.fabAddr) (f : State → State) : s.compIn opc m f = s.emit (.comp opc m) := if_pos away

theorem State.compIn_repeated (here : m.dstMod.toNat = s.fabAddr) {a : Answered} (found : (s.answered.find? fun a => a.repeats opc m) = some a)
    (f : State → State) : s.compIn opc m f = s.emit (.comp a.ansOpc a.ans) := by
  rw [State.compIn, if_neg (not_not_intro here), found]

theorem State.compIn_fresh (here : m.dstMod.toNat = s.fabAddr) (fresh : ∀ a ∈ s.answered, a.repeats opc m = false) (f : State → State) :
    s.compIn opc m f = if compReserved opc m || !s.knowsChange opc m then s.synCount s.lowestCluster .badmsg else f s := by
  rw [State.compIn, if_neg (not_not_intro here), List.find?_eq_none.mpr fun a known => Bool.eq_false_iff.mp (fresh a known)]

theorem State.compIn_bad (here : m.dstMod.toNat = s.fabAddr) (fresh : ∀ a ∈ s.answered, a.repeats opc m = false)
    (bad : compReserved opc m = true ∨ s.knowsChange opc m = false) (f : State → State) :
    s.compIn opc m f = s.synCount s.lowestCluster .badmsg :=
  (State.compIn_fresh here fresh f).trans (if_pos (by simpa using bad))

theorem State.compIn_takes (takes : s.takesComp opc m) (f : State → State) : s.compIn opc m f = f s := by
  obtain ⟨here, fresh, unreserved, known⟩ := takes
  exact (State.compIn_fresh here fresh f).trans (if_neg (by simp [unreserved, known]))

end Taking

/-! ### The rows of the messages -/

theorem State.use_of_mem_refillsAsked {s : State} {id member : Nat} {e : Nat × Nat} (asked : e ∈ s.refillsAsked id member) :
    ∃ o ∈ s.peerOut, ∃ line, o.use = .refill e.1 e.2 line := by
  obtain ⟨o, out, use⟩ := List.mem_filterMap.mp (List.mem_eraseDups.mp asked)
  refine ⟨o, out, ?_⟩
  split at use
  case h_1 line refill =>
    obtain ⟨-, ⟨⟩⟩ := Option.ite_none_right_eq_some.mp use
    exact ⟨line, refill⟩
  case h_2 => cases use

theorem State.refilling_of_use {s : State} {o : PeerOut} (out : o ∈ s.peerOut) {p chunk line : Nat} (use : o.use = .refill p chunk line) :
    s.refilling p chunk = true :=
  Bool.or_eq_true_iff.mpr (.inl (List.any_eq_true.mpr ⟨o, out, by simp [use]⟩))

/-- While the requests to other modules stand as they were, the refills asked of a member are under way, and none goes on elsewhere. -/
theorem State.endRefills_asked {s t : State} (out : t.peerOut = s.peerOut) (id member : Nat) : t.endRefills (s.refillsAsked id member) = t := by
  have going : (s.refillsAsked id member).filter (fun e => !t.refilling e.1 e.2) = [] := by
    refine List.filter_eq_nil_iff.mpr fun e asked => ?_
    obtain ⟨o, ho, line, use⟩ := State.use_of_mem_refillsAsked asked
    simp [State.refilling_of_use (out ▸ ho) use]
  rw [State.endRefills, going, List.foldl_nil]

/-- The rows of the compositor messages but QUOIN, each with the opcode of its message. -/
def compRows (m : CompMsg) (carry : Tbl Carry) : List (Instr × Nat) :=
  [(.admitForme m carry, 0x20), (.admitOk m, 0x21), (.admitRefuse m, 0x22), (.install m, 0x23), (.installed m, 0x24), (.switchEpoch m, 0x25),
    (.switched m, 0x26), (.drained m, 0x27), (.move m carry, 0x28), (.moved m, 0x29), (.quoined m, 0x2B), (.release m, 0x2C), (.released m, 0x2D),
    (.memberFailed m, 0x2E), (.abort m, 0x2F), (.aborted m, 0x30), (.msBegin m, 0x31), (.msReady m, 0x32), (.msDone m, 0x33), (.fwd m, 0x34),
    (.ack m, 0x3F)]

/-- Each row takes its message; what MEMBER_FAILED does besides (R273) shows only where requests to other modules have ended. -/
theorem exec_compRow (s : State) (m : CompMsg) (carry : Tbl Carry) : ∀ p ∈ compRows m carry,
    ∃ f g : State → State, exec p.1 s = s.answer (g (s.compIn p.2 m f)) ∧ ∀ t, t.peerOut = s.peerOut → g t = t := by
  have plain {i : Instr} {opc : Nat} {f : State → State} (row : exec i s = s.answer (s.compIn opc m f)) :
      ∃ f g : State → State, exec i s = s.answer (g (s.compIn opc m f)) ∧ ∀ t, t.peerOut = s.peerOut → g t = t := ⟨f, id, row, fun _ _ => rfl⟩
  simp only [compRows, List.forall_mem_cons, List.not_mem_nil, false_imp_iff, implies_true, and_true]
  exact ⟨plain rfl, plain rfl, plain rfl, plain rfl, plain rfl, plain rfl, plain rfl, plain rfl, plain rfl, plain rfl, plain rfl, plain rfl, plain rfl,
    ⟨_, fun t => t.endRefills (s.refillsAsked m.formeId.toNat (bits m.w4.toNat 15 0)), rfl, fun _ asked => State.endRefills_asked asked _ _⟩,
    plain rfl, plain rfl, plain rfl, plain rfl, plain rfl, plain rfl, plain rfl⟩

/-- A row comes to what taking its message comes to, where that leaves the requests to other modules. -/
theorem exec_compRow_eq {s t : State} {m : CompMsg} {carry : Tbl Carry} {p : Instr × Nat} (row : p ∈ compRows m carry)
    (taken : ∀ f, s.compIn p.2 m f = t) (asked : t.peerOut = s.peerOut) : exec p.1 s = s.answer t := by
  obtain ⟨f, g, runs, still⟩ := exec_compRow s m carry p row
  rw [runs, taken f, still t asked]

end Sys2Proof.Machine
end

section
/-! PROOFS. What Switch leaves of the formes (R262): its entries, ceilings and regulators change none, and the forme of the change goes to its
next epoch. -/

namespace Sys2Proof.Machine

/-! ### What leaves the formes as they are -/

theorem State.formes_foldl {α : Type} {f : State → α → State} (keeps : ∀ s a, (f s a).formes = s.formes) (l : List α) (s : State) :
    (l.foldl f s).formes = s.formes := by
  induction l generalizing s with
  | nil => rfl
  | cons a l ih => exact (ih (f s a)).trans (keeps s a)

@[simp] theorem State.record_formes (s : State) (r : Rec) : (s.record r).formes = s.formes := by
  obtain ⟨_, _, _, _, recorded⟩ := s.record_eq r
  rw [recorded]

@[simp] theorem State.bindCores_formes (s : State) (p : Nat) (only : List Nat) : (s.bindCores p only).formes = s.formes := by
  refine State.formes_foldl (fun t v => ?_) _ s
  split
  · exact (apply_ite State.formes _ _ _).trans (ite_self _)
  · rfl

@[simp] theorem State.drawPartKey_formes (s : State) (p : Nat) : (s.drawPartKey p).formes = s.formes := rfl

@[simp] theorem State.switchEntry_formes (s : State) (f : Forme) (e : PlanEntry) : (s.switchEntry f e).formes = s.formes := by
  unfold State.switchEntry
  simp only [apply_ite State.formes, State.bindCores_formes, State.drawPartKey_formes, State.modPart_formes, ite_self]
  split
  · rfl
  · split
    · rfl
    · split <;> rfl

@[simp] theorem State.unswitchEntry_formes (s : State) (f : Forme) (e : PlanEntry) : (s.unswitchEntry f e).formes = s.formes := by
  unfold State.unswitchEntry
  dsimp only
  split
  · rfl
  · split
    · exact (apply_ite State.formes _ _ _).trans (ite_self _)
    · rfl

@[simp] theorem State.modSlot_formes (s : State) (ch p : Nat) (f : Regulator → Regulator) : (s.modSlot ch p f).formes = s.formes := rfl

@[simp] theorem State.missed_formes (s : State) (ch p : Nat) (latency delivery scaled : Bool) :
    (s.missed ch p latency delivery scaled).formes = s.formes := by
  simp only [State.missed, apply_ite State.formes, State.record_formes, State.modSlot_formes, State.modChannel_formes, ite_self]

@[simp] theorem State.scale_formes (s : State) (ch : Nat) : (s.scale ch).formes = s.formes :=
  State.formes_foldl (fun t p => by simp only [apply_ite State.formes, State.missed_formes, State.modSlot_formes, ite_self]) _ _

@[simp] theorem State.commitChannel_formes (s : State) (ch : Nat) : (s.commitChannel ch).formes = s.formes := rfl

@[simp] theorem State.scaleNow_formes (s : State) (ch : Nat) : (s.scaleNow ch).formes = s.formes := by
  simp only [State.scaleNow, apply_ite State.formes, State.modChannel_formes, State.scale_formes, ite_self]

@[simp] theorem State.withdraw_formes (s : State) (c fuel : Nat) : (s.withdraw c fuel).formes = s.formes := by
  induction fuel generalizing s with
  | zero => rfl
  | succ fuel ih => simp only [State.withdraw, apply_ite State.formes, ih, State.modCpower_formes, ite_self]

/-! ### SWITCH -/

/-- A forme in the epoch that a change has installed, or in the one that restores the epoch before it (R262, R275). -/
def Forme.switchedTo (f : Forme) (c : Change) (epoch : Nat) (members : Tbl MemberRec) (now : Nat) : Forme := { f with
  epoch := epoch, draining := some f.epoch, members := members, membersNew := none
  membersOld := if c.switched then f.membersOld else f.members
  peerTimeout := if c.switched ∨ c.hdr.peerTimeout = 0 then f.peerTimeout else c.hdr.peerTimeout
  change := some { c with switched := true, restored := c.switched, switchedAt := now, drainReported := false, moving := false, movedSent := false } }

theorem State.forme_of_formes {s t : State} (kept : t.formes = s.formes) (id : Nat) : t.forme id = s.forme id := by
  rw [State.forme, kept, State.forme]

/-- What Switch does to the entries of this module. -/
def State.switchEntries (s : State) (f : Forme) (c : Change) : State :=
  c.own.foldl (fun s e => if c.switched then s.unswitchEntry f e else s.switchEntry f e) s

@[simp] theorem State.switchEntries_formes (s : State) (f : Forme) (c : Change) : (s.switchEntries f c).formes = s.formes :=
  State.formes_foldl (fun t e => by rw [apply_ite State.formes, State.unswitchEntry_formes, State.switchEntry_formes, ite_self]) _ s

theorem State.switch_takes {s : State} {m : CompMsg} (takes : s.takesComp 0x25 m) {f : Forme} (known : s.forme m.formeId.toNat = some f) {c : Change}
    (change : f.change = some c) {epoch : Nat} {members : Tbl MemberRec} (installed : f.membersNew = some (epoch, members)) :
    ∃ v : State, s.switch m = v.answerComp 0x25 m 0x26 epoch 0 0 ∧
      ∃ now, v.forme m.formeId.toNat = some (f.switchedTo c epoch members now) := by
  have switch : s.switch m = _ := State.compIn_takes takes _
  simp only [known, change, installed] at switch
  refine ⟨_, switch, (s.switchEntries f c).ltime, ?_⟩
  rw [State.forme_of_formes (State.formes_foldl (fun t k => t.withdraw_formes k 20) _ _),
    State.forme_of_formes (State.formes_foldl (f := fun t ch => (t.commitChannel ch).scaleNow ch)
      (fun t ch => by rw [State.scaleNow_formes, State.commitChannel_formes]) _ _),
    State.forme_modForme]
  case keeps => exact fun _ => rfl
  exact congrArg (Option.map _) ((State.forme_of_formes (State.switchEntries_formes s f c) _).trans known)

end Sys2Proof.Machine
end

section
/-! PROOFS. The steps of a change (R260 to R284): what each function that takes a message, or that a module runs by itself, comes to. -/

namespace Sys2Proof.Machine

/-! ### Admission (R261) -/

theorem firstRefusal_eq_none {rs : List (Nat × Nat)} (none : firstRefusal rs = none) : rs = [] := by
  cases rs with
  | nil => rfl
  | cons r rs =>
    unfold firstRefusal at none
    split at none
    · cases none
    · split at none <;> cases none

theorem firstRefusal_eq_some {rs : List (Nat × Nat)} {r : Nat × Nat} (first : firstRefusal rs = some r) : r ∈ rs ∧ ∀ x ∈ rs, r.1 ≤ x.1 := by
  induction rs generalizing r with
  | nil => cases first
  | cons a rs ih =>
    unfold firstRefusal at first
    split at first
    case h_1 none =>
      cases first
      simp [firstRefusal_eq_none none]
    case h_2 q some =>
      obtain ⟨mem, least⟩ := ih some
      split at first
      case isTrue less =>
        cases first
        exact ⟨.tail _ mem, List.forall_mem_cons.mpr ⟨Nat.le_of_lt less, least⟩⟩
      case isFalse more =>
        cases first
        exact ⟨.head _, List.forall_mem_cons.mpr ⟨Nat.le_refl _, fun x hx => Nat.le_trans (Nat.le_of_not_lt more) (least x hx)⟩⟩

theorem State.admissionEnd_eq {s : State} {id : Nat} {c : Change} (change : s.changeOf id = some c) : s.admissionEnd id =
    if s.stepIn id .admission (fun c => c.parts) then
      (firstRefusal c.refusals).elim (s.toInstall id) fun r => s.abortChange id 1 r.2 (some r.1)
    else s := by
  have ends : s.admissionEnd id = if c.step != .admission || !c.allIn c.parts then s else
      (firstRefusal c.refusals).elim (s.toInstall id) fun r => s.abortChange id 1 r.2 (some r.1) := by
    unfold State.changeOf at change
    simp only [State.admissionEnd, change]
    cases firstRefusal c.refusals <;> rfl
  rw [ends, State.not_stepIn_of_changeOf change _ fun c => c.parts]
  cases s.stepIn id .admission fun c => c.parts <;> rfl

/-! ### Switch and Drain (R256, R260, R263) -/

section Switched
variable {s : State} {m : CompMsg} (takes : s.takesComp 0x26 m)
include takes

theorem State.switchedRecovery_waits (unplanned : ∀ f, (s.switchedIn m).forme m.formeId.toNat = some f → f.recStep ≠ .planned) :
    s.switchedRecovery m = s.switchedIn m := by
  refine (State.compIn_takes takes _).trans ?_
  dsimp only
  split
  case h_1 f known => exact if_neg fun h => unplanned f known h.1
  case h_2 => rfl

theorem State.switchedRecovery_resumes {f : Forme} (known : (s.switchedIn m).forme m.formeId.toNat = some f) (planned : f.recStep = .planned)
    (past : (f.change.any fun c => c.recovery && (c.step != .admission && c.step != .install && c.step != .switch && c.step != .aborting)) = true) :
    s.switchedRecovery m = (s.switchedIn m).resumeForme m.formeId.toNat := by
  refine (State.compIn_takes takes _).trans ?_
  simp only [known]
  exact if_pos ⟨planned, past⟩

end Switched

section Draining
variable {s : State} {id : Nat} {f : Forme} {c : Change} {e : Nat} (known : s.forme id = some f) (change : f.change = some c)
  (draining : f.draining = some e)
include known change draining

theorem State.epochDrained_eq : s.epochDrained id = if c.drainReported || s.epochBusy id e then s else
    (s.modChange id fun c => { c with drainReported := true }).sendComp 0x27 (s.compMsg c.master id c.cseq e) := by
  simp only [State.epochDrained, known, change, draining]

theorem State.drainLimitExpiry_rests (quiet : c.drainReported = true ∨ s.epochBusy id e = false) : s.drainLimitExpiry id = s := by
  simp only [State.drainLimitExpiry, known, change, draining]
  exact if_pos (by simpa using quiet)

end Draining

/-! ### Move (R268 to R271) -/

theorem State.moveRecovery_ordinary {s : State} {m : CompMsg} {carry : Tbl Carry} (takes : s.takesComp 0x28 m)
    (ordinary : ∀ d, (s.move m carry).changeOf m.formeId.toNat = some d → d.recovery = false) : s.moveRecovery m carry = s.move m carry := by
  refine (State.compIn_takes takes _).trans ?_
  dsimp only
  split
  case h_1 f known =>
    split
    case h_1 d change =>
      have plain := ordinary d ((State.changeOf_of_forme known).trans change)
      exact if_neg fun h => Bool.eq_false_iff.mp plain h.1
    case h_2 => rfl
  case h_2 => rfl

/-- A state in which no request pulls a chunk. -/
def State.dropPull (s : State) (p chunk : Nat) : State := { s with peerOut := s.peerOut.filter fun o => match o.use with
  | .pull a b _ => !(a == p && b == chunk)
  | _ => true }

/-- The pages of a chunk land, from this module's old layout or from another module. -/
def State.landChunk (s : State) (p chunk : Nat) (landed : Tbl Block) : State :=
  match (s.part p).layOld with
  | some o => (List.range 16).foldl (fun s i => s.landLocal p (chunk * 65536 + 4096 * i) o) s
  | none => (List.range 16).foldl (fun s i => s.landFar p chunk i landed) s

theorem State.landChunk_near {s : State} {p : Nat} {o : Layout} (old : (s.part p).layOld = some o) (chunk : Nat) (landed : Tbl Block) :
    s.landChunk p chunk landed = (List.range 16).foldl (fun s i => s.landLocal p (chunk * 65536 + 4096 * i) o) s := by
  rw [State.landChunk, old]

theorem State.landChunk_far {s : State} {p : Nat} (far : (s.part p).layOld = none) (chunk : Nat) (landed : Tbl Block) :
    s.landChunk p chunk landed = (List.range 16).foldl (fun s i => s.landFar p chunk i landed) s := by
  rw [State.landChunk, far]

/-- A chunk whose pages have landed is HELD, and counted. -/
def State.holdChunk (s : State) (id p chunk : Nat) : State :=
  ((s.setChunk id p chunk .held).modChange id fun c => { c with chunksMoved := c.chunksMoved + 1 }).tryMoved id

/-- The chunk that the sweeper pulls next. -/
def State.nextPull (s : State) (c : Change) : Option (Nat × Nat) :=
  (s.targetsOf c).findSome? fun p => ((s.part p).liveChunks.find? fun k => s.pullable c p k).map fun k => (p, k)

section Chunks
variable {s : State} {id p k : Nat} {c : Change} (change : s.changeOf id = some c)
include change

theorem State.demandPull_eq : s.demandPull id p k = if s.pullable c p k then s.startPull id p k else s := by
  unfold State.changeOf at change
  simp only [State.demandPull, change]

theorem State.sweeper_swept (none : s.nextPull c = none) : s.sweeper id = s.tryMoved id := by
  unfold State.changeOf at change
  unfold State.nextPull at none
  simp only [State.sweeper, change, none]

theorem State.sweeper_pulls (next : s.nextPull c = some (p, k)) : s.sweeper id = s.startPull id p k := by
  unfold State.changeOf at change
  unfold State.nextPull at next
  simp only [State.sweeper, change, next]

theorem State.pullComplete_idle (idle : c.chunk p k ≠ some .pulling) (landed : Tbl Block) : s.pullComplete id p k landed = s := by
  unfold State.changeOf at change
  simp only [State.pullComplete, change]
  exact if_pos (by simpa using idle)

section Pulling
variable (pulling : c.chunk p k = some .pulling)
include pulling

theorem State.pullComplete_freed (freed : s.freedInPull c p k = true) (landed : Tbl Block) :
    s.pullComplete id p k landed = (((s.dropPull p k).freshGalley p k).setChunk id p k .skipped).tryMoved id := by
  unfold State.changeOf at change
  simp only [State.pullComplete, change]
  exact (if_neg (by simp [pulling])).trans (if_pos freed)

variable (live : s.freedInPull c p k = false)
include live

theorem State.pullComplete_lands (landed : Tbl Block) :
    s.pullComplete id p k landed = ((s.dropPull p k).landChunk p k landed).holdChunk id p k := by
  unfold State.changeOf at change
  simp only [State.pullComplete, change]
  exact (if_neg (by simp [pulling])).trans (if_neg (Bool.eq_false_iff.mp live))

end Pulling
end Chunks

/-- The master's state with a MOVED counted: what this module counted as a participant stands in the change already. -/
def State.movedBy (s : State) (m : CompMsg) (rs : List Renumber) (chunks lost : Nat) : State :=
  let a := (s.ackComp 0x29 m).markAnswer m.formeId.toNat m.srcMod.toNat
  a.modChange m.formeId.toNat fun c => { c with
    renumber := c.renumber ++ rs.filter fun r => !c.renumber.contains r
    chunksMoved := if m.srcMod.toNat ≠ a.fabAddr then c.chunksMoved + chunks else c.chunksMoved
    lostCtx := if m.srcMod.toNat ≠ a.fabAddr then c.lostCtx + lost else c.lostCtx }

theorem State.movedIn_takes {s : State} {m : CompMsg} (takes : s.takesComp 0x29 m) {rs : List Renumber} {chunks lost : Nat}
    (data : m.data = .moved rs chunks lost) {f : Forme} (known : (s.movedBy m rs chunks lost).forme m.formeId.toNat = some f) {c : Change}
    (change : f.change = some c) : s.movedIn m =
      let v := s.movedBy m rs chunks lost
      if !v.stepIn m.formeId.toNat .move fun c => c.parts then v
      else if c.undo then v.enterStep m.formeId.toNat .release 0x2C f.epoch false
      else (v.modChange m.formeId.toNat fun c => { c with decided := true }).enterStep m.formeId.toNat .quoin 0x2A f.epoch false := by
  have waits := State.not_stepIn_of_changeOf ((State.changeOf_of_forme known).trans change) .move fun c => c.parts
  unfold State.movedBy at known waits
  refine (State.compIn_takes takes _).trans ?_
  simp only [data, decide_eq_true_eq, known, change, waits, State.movedBy] <;> rfl

/-! ### Quoin (R271) -/

theorem State.quoinMaster_still {s : State} {m : CompMsg} (still : ∀ f, (s.quoin m).forme m.formeId.toNat = some f → f.redirect = none)
    (fences : List (Nat × Nat)) : s.quoinMaster m fences = s.quoin m := by
  unfold State.quoinMaster
  dsimp only
  split
  case h_1 f known => rw [still f known]
  case h_2 => rfl

/-! ### Failures and aborts (R273, R275) -/

/-- The modules that the step under way of a change waits for. -/
def Change.due (c : Change) : List Nat :=
  match c.step with
  | .install | .switch | .aborting => c.mods
  | .drain => c.mods.filter fun m => !c.drained.contains m
  | _ => c.parts

theorem State.compositionTimeout_eq {s : State} {id : Nat} {f : Forme} {c : Change} (known : s.forme id = some f) (change : f.change = some c)
    (mod : Nat) : s.compositionTimeout id mod = if c.master = s.fabAddr ∧ mod ∈ c.alive c.due ∧ mod ∉ c.answered then
      (s.advanceTo (c.stepStart + s.boundOf f c mod + f.peerTimeout * 1000000)).failModule id mod else s := by
  simp only [State.compositionTimeout, known, change, List.contains_iff_mem, Bool.not_eq_true', Bool.eq_false_iff, ne_eq]
  rfl

/-- What a MEMBER_FAILED does outside a change: the member counts as failed, and the requests to it end. -/
def State.endMember (s : State) (m : CompMsg) : State :=
  let failed := bits m.w4.toNat 15 0
  let a := (s.ackComp 0x2E m).modForme m.formeId.toNat fun f => { f with failedMembers := insertSorted failed f.failedMembers }
  (a.peerOut.filter fun o => o.forme == m.formeId.toNat && o.member == failed).foldl (fun s o => s.endPeer o) a

section MemberFailed
variable {s : State} {m : CompMsg} (takes : s.takesComp 0x2E m)
include takes

theorem State.memberFailed_without_change (none : (s.endMember m).changeOf m.formeId.toNat = none) : s.memberFailed m = s.endMember m := by
  refine (State.compIn_takes takes _).trans ?_
  dsimp only
  split
  case h_1 => rfl
  case h_2 f known =>
    rw [(State.changeOf_of_forme known).symm.trans none] <;> rfl

theorem State.memberFailed_change {f : Forme} (known : (s.endMember m).forme m.formeId.toNat = some f) {c : Change} (change : f.change = some c) :
    s.memberFailed m =
      let v := s.endMember m
      let old (u : State) (e : PlanEntry) : Option Nat := (Tbl.find f.membersOld e.member).bind fun r => if r.fab = u.fabAddr then some r.part else none
      let hit := c.own.filter fun e => e.action == actMove && e.member == bits m.w4.toNat 15 0
      let u := if c.restored then v else (hit.filter fun e => e.fab == v.fabAddr).foldl (fun s e => s.sourceLost m.formeId.toNat e.part c) v
      if c.quoined then v else ((hit.filter fun e => e.fab != u.fabAddr).filterMap (old v)).foldl (fun s p => s.targetLost c p) u := by
  unfold State.endMember at known
  refine (State.compIn_takes takes _).trans ?_
  simp only [known, change] <;> rfl

end MemberFailed

section Aborted
variable {s : State} {m : CompMsg} (takes : s.takesComp 0x30 m)
include takes

theorem State.abortedIn_waits (waits : (s.counted 0x2F m).stepIn m.formeId.toNat .aborting (fun c => c.mods) = false) :
    s.abortedIn m = s.counted 0x2F m := by
  refine (State.compIn_takes takes _).trans ?_
  dsimp only
  split
  case h_1 c change =>
    exact if_pos ((State.not_stepIn_of_changeOf change _ fun c => c.mods).trans (congrArg Bool.not waits))
  case h_2 => rfl

theorem State.abortedIn_ends {c : Change} (change : (s.counted 0x2F m).changeOf m.formeId.toNat = some c)
    (all : (s.counted 0x2F m).stepIn m.formeId.toNat .aborting (fun c => c.mods) = true) : s.abortedIn m =
      if c.undo then (s.counted 0x2F m).drainEnd m.formeId.toNat else (s.counted 0x2F m).finishChange m.formeId.toNat := by
  have waits := State.not_stepIn_of_changeOf change .aborting fun c => c.mods
  unfold State.changeOf State.counted at change
  refine (State.compIn_takes takes _).trans ?_
  simp only [change]
  exact if_neg (by rw [waits, all]; decide)

end Aborted
end Sys2Proof.Machine
end

section
/-! PROOFS. The statement on the steps of a change. -/

namespace Sys2Proof.Machine

/-- Settles O57: each message by what taking it comes to, and each step by the last answer that it waits for. -/
theorem stepsOfAChange : Obligations.StepsOfAChange := by
  intro s m id src w4
  subst id src w4
  refine ⟨fun carry p row => ⟨fun away => ?away, fun a here found => ?repeated, fun here fresh bad => ?bad⟩, fun carry h es takes plan => ?admission,
    fun takes => ?admitOk, fun takes => ?admitRefuse, fun t c change => ?admissionEnd, fun es takes data => ?install, fun takes => ?installed,
    fun f c epoch members takes known change new => ?switch, ?switched, fun id f c e known change draining => ?drain,
    fun takes => ?drained, fun carry takes c change => ?move, fun id p k landed c change => ?chunks, fun takes f c rs chunks lost data => ?moved,
    fun takes => ?msBegin, fun takes => ?msReady, fun id tag notes bars c change => ?restore, fun takes => ?msDone,
    fun takes fences c change => ?quoin, fun takes => ?quoined, fun takes f c known change => ?release, fun takes => ?released,
    fun id mod f c known change => ?timeout, fun takes => ?memberFailed, fun takes c change => ?abort, fun takes => ?aborted,
    fun takes => ?fwd, fun takes => ?ack, fun opc dst id => ?again⟩
  case away => exact exec_compRow_eq row (State.compIn_away away) rfl
  case repeated => exact exec_compRow_eq row (State.compIn_repeated here found) rfl
  case bad => exact exec_compRow_eq row (State.compIn_bad here fresh bad) rfl
  case admission =>
    intro f leads r
    subst r leads f
    have plans : s.admitHere m carry = _ := State.compIn_takes takes _
    simp only [plan] at plans
    exact ⟨fun why member refused => exec_eq_answer rfl (plans.trans (by simp only [refused])),
      fun t ok => exec_eq_answer rfl (plans.trans (by simp only [ok] <;> rfl))⟩
  case admitOk => exact exec_eq_answer rfl (State.compIn_takes takes _)
  case admitRefuse => exact exec_eq_answer rfl (State.compIn_takes takes _)
  case admissionEnd =>
    have ends := State.admissionEnd_eq change
    refine ⟨fun waits => by rw [ends, waits]; rfl, fun all none => by rw [ends, all, none]; rfl, fun all some => ?_⟩
    obtain ⟨r, first⟩ := Option.ne_none_iff_exists'.mp fun none => some (firstRefusal_eq_none none)
    obtain ⟨mem, least⟩ := firstRefusal_eq_some first
    exact ⟨r, mem, by rw [ends, all, first]; rfl, least⟩
  case install => exact exec_eq_answer rfl ((State.compIn_takes takes _).trans (by simp only [data] <;> rfl))
  case installed =>
    exact exec_eq_answer rfl ((State.compIn_takes takes _).trans (State.match_stepIn (s.counted 0x23 m) _ _ .install fun c => c.mods))
  case switch =>
    obtain ⟨v, switch, now, switched⟩ := State.switch_takes takes known change new
    refine ⟨v, exec_eq_answer rfl switch, fun g found => ?_⟩
    cases switched.symm.trans found
    exact ⟨rfl, rfl, rfl, rfl, rfl⟩
  case switched =>
    intro v w takes
    have switched : s.switchedIn m = w := State.match_stepIn v _ m.formeId.toNat .switch fun c => c.mods
    rw [← switched]
    exact ⟨fun unplanned => exec_eq_answer rfl (State.switchedRecovery_waits takes unplanned),
      fun f known planned past => exec_eq_answer rfl (State.switchedRecovery_resumes takes known planned past)⟩
  case drain =>
    have drained := State.epochDrained_eq known change draining
    refine ⟨fun busy => exec_eq_next rfl (drained.trans (if_pos (Bool.or_eq_true_iff.mpr busy))) rfl,
      fun unreported quiet => exec_eq_answer rfl (drained.trans (if_neg (by simp [unreported, quiet]))),
      fun quiet => exec_eq_next rfl (State.drainLimitExpiry_rests known change draining quiet) rfl, fun unreported busy => exec_eq_answer rfl ?_⟩
    simp only [State.drainLimitExpiry, known, change, draining]
    exact if_neg (by simp [unreported, busy])
  case drained => exact exec_eq_answer rfl (State.compIn_takes takes _)
  case move =>
    intro a old taken v ordinary
    have moved : s.move m carry = v := by
      unfold State.changeOf at change
      simp only [State.move, change] <;> rfl
    exact exec_eq_answer rfl ((State.moveRecovery_ordinary takes (moved ▸ ordinary)).trans moved)
  case chunks =>
    refine ⟨exec_eq_answer rfl (State.demandPull_eq change), fun idle => exec_eq_next rfl (State.pullComplete_idle change idle landed) rfl,
      fun pulling => ⟨fun freed => exec_eq_answer rfl (State.pullComplete_freed change pulling freed landed), fun o live old => ?_, fun live far => ?_⟩,
      fun none => exec_eq_answer rfl (State.sweeper_swept change none), fun p k next => exec_eq_answer rfl (State.sweeper_pulls change next)⟩
    all_goals have lands := State.pullComplete_lands change pulling live landed
    · rw [State.landChunk_near (s := s.dropPull p.val k.toNat) old] at lands
      exact exec_eq_answer rfl lands
    · rw [State.landChunk_far (s := s.dropPull p.val k.toNat) far] at lands
      exact exec_eq_answer rfl lands
  case moved =>
    intro a v known change
    have moved := State.movedIn_takes takes data known change
    refine ⟨fun waits => exec_eq_answer rfl (moved.trans (if_pos (congrArg Bool.not waits))), fun all undo => ?_, fun all new => ?_⟩
    all_goals have moved := moved.trans (if_neg (Bool.eq_false_iff.mp (congrArg Bool.not all)))
    · exact exec_eq_answer rfl (moved.trans (if_pos undo))
    · exact exec_eq_answer rfl (moved.trans (if_neg (Bool.eq_false_iff.mp new)))
  case msBegin =>
    have begins : s.msBegin m = _ := State.compIn_takes takes _
    have answers {t v : State} (taken : t = v) : t.answerComp 0x31 m 0x32 0 0 m.w4.toNat = v.answerComp 0x31 m 0x32 0 0 m.w4.toNat :=
      taken ▸ rfl
    exact ⟨fun own => exec_eq_answer rfl (begins.trans (answers (if_pos own))),
      fun other => exec_eq_answer rfl (begins.trans (answers (if_neg other)))⟩
  case msReady =>
    intro tag found
    subst tag found
    have ready : s.msReady m = _ := State.compIn_takes takes _
    refine ⟨fun none => exec_eq_next rfl (ready.trans (by simp only [none])) rfl, fun k some => ?_⟩
    simp only [some] at ready
    refine ⟨fun moves => exec_eq_answer rfl (ready.trans (if_pos (congrArg Bool.not moves))), fun rest own => ?_, fun rest other => ?_⟩
    all_goals have ready := ready.trans (if_neg (Bool.eq_false_iff.mp (congrArg Bool.not rest)))
    · exact exec_eq_answer rfl (ready.trans (if_pos own))
    · exact exec_eq_answer rfl (ready.trans (if_neg other))
  case restore =>
    intro found
    subst found
    unfold State.changeOf at change
    exact ⟨fun none => exec_eq_next rfl (by simp only [State.miniRestore, change, none]) rfl,
      fun k some => exec_eq_answer rfl (by simp only [State.miniRestore, change, some])⟩
  case msDone =>
    intro a tag found
    subst found tag a
    have done : s.msDone m = _ := State.compIn_takes takes _
    exact ⟨fun none => exec_eq_answer rfl (done.trans (by simp only [none])), fun k some => exec_eq_answer rfl (done.trans (by simp only [some]))⟩
  case quoin =>
    intro v still
    have quoined : s.quoin m = v := by
      unfold State.changeOf at change
      exact (State.compIn_takes takes _).trans (by simp only [change] <;> rfl)
    exact exec_eq_answer rfl ((State.quoinMaster_still (quoined ▸ still) _).trans quoined)
  case quoined =>
    exact exec_eq_answer rfl ((State.compIn_takes takes _).trans (State.match_stepIn (s.counted 0x2A m) _ _ .quoin fun c => c.parts))
  case release => exact exec_eq_answer rfl ((State.compIn_takes takes _).trans (by simp only [known, change]))
  case released =>
    exact exec_eq_answer rfl ((State.compIn_takes takes _).trans (State.match_stepIn (s.counted 0x2C m) _ _ .release fun c => c.parts))
  case timeout =>
    have timeout := State.compositionTimeout_eq known change mod.toNat
    exact ⟨fun missed => exec_eq_answer rfl (timeout.trans (if_pos missed)), fun met => exec_eq_next rfl (timeout.trans (if_neg met)) rfl⟩
  case memberFailed =>
    intro failed a v gone
    have goes {t : State} (fails : s.memberFailed m = t) : exec (.memberFailed m) s = s.answer (gone t) := exec_eq_answer rfl (congrArg gone fails)
    refine ⟨fun none => goes (State.memberFailed_without_change takes none), fun c change => ?_⟩
    obtain ⟨f, known, change⟩ := State.changeOf_eq_some_iff.mp change
    have fails := State.memberFailed_change takes known change
    refine ⟨fun quoined => goes (fails.trans (if_pos quoined)), fun unquoined => goes ((fails.trans (if_neg (Bool.eq_false_iff.mp unquoined))).trans ?_)⟩
    simp only [known] <;> rfl
  case abort =>
    have abort : s.abortIn m = _ := State.compIn_takes takes _
    unfold State.changeOf at change
    simp only [change] at abort
    exact ⟨fun after => exec_eq_answer rfl (abort.trans (if_pos after)),
      fun before => exec_eq_answer rfl (abort.trans (if_neg (Bool.eq_false_iff.mp before)))⟩
  case aborted =>
    exact ⟨fun waits => exec_eq_answer rfl (State.abortedIn_waits takes waits),
      fun c change all => exec_eq_answer rfl (State.abortedIn_ends takes change all)⟩
  case fwd =>
    have fwd : s.fwd m = _ := State.compIn_takes takes _
    exact ⟨fun v data => exec_eq_answer rfl (fwd.trans (by simp only [data] <;> rfl)),
      fun opc c data => exec_eq_answer rfl (fwd.trans (by simp only [data]))⟩
  case ack => exact exec_eq_answer rfl (State.compIn_takes takes _)
  case again =>
    intro found
    subst found
    exact ⟨fun none => exec_eq_next rfl (by simp only [State.compRepeat, none]) rfl,
      fun u some => exec_eq_answer rfl (by simp only [State.compRepeat, some])⟩

end Sys2Proof.Machine
end

section
/-! PROOFS. Fetching and starting of commands (R292 to R297, R413): the turn of a processor's queues, what a fetched command comes to, and
which command of a queue starts. -/

namespace Sys2Proof.Machine

/-! ### Entries of tables -/

/-- A table reads its default, or an entry that it lists. -/
theorem Tbl.get_eq_or_mem {α : Type} (d : α) (t : Tbl α) (k : Nat) : Tbl.get d t k = d ∨ (k, Tbl.get d t k) ∈ t := by
  induction t with
  | nil => exact .inl rfl
  | cons e r ih =>
    obtain ⟨j, v⟩ := e
    by_cases same : j = k
    · simp [Tbl.get, same]
    · simpa [Tbl.get, same] using ih.imp_right .inr

/-! ### The turn of a processor (R293) -/

section Turn
variable {s : State} {g q i : Nat}

theorem State.fetchable_iff : s.fetchable q = true ↔
    (if q = 0 then s.adminOn = true else (s.queue q).inUse = true ∧ (s.queue q).closing = false) ∧ (s.queue q).error = false ∧
      (s.queue q).markHold = false ∧ (s.queue q).tail ≠ (s.queue q).head ∧ s.queueAway q = false ∧
      (s.cring (s.queue q).cring).waiting.length < 256 := by
  by_cases admin : q = 0 <;> simp [State.fetchable, admin, and_assoc]

/-- The queues of a processor that have entries to fetch, in the order of the table. -/
def State.turns (s : State) (g : Nat) : List Nat := (s.queues.map fun e => e.1).filter fun q => s.serverOf q == g && s.fetchable q

theorem State.nextQueue_eq (s : State) (g : Nat) :
    s.nextQueue g = ((s.turns g).find? fun q => decide (Tbl.get 0 s.fetchTurn g < q)).or (s.turns g).head? := by
  unfold State.nextQueue
  dsimp only
  split
  case h_1 q found => rw [State.turns, found, Option.some_or]
  case h_2 none => rw [State.turns, none, Option.none_or]

theorem State.mem_turns (turn : i ∈ s.turns g) : s.serverOf i = g ∧ s.fetchable i = true := by
  simpa using (List.mem_filter.mp turn).2

theorem State.mem_turns_of_nextQueue (next : s.nextQueue g = some i) : i ∈ s.turns g := by
  rw [State.nextQueue_eq, Option.or_eq_some_iff] at next
  obtain found | ⟨-, first⟩ := next
  · exact List.mem_of_find?_eq_some found
  · exact List.mem_of_head? first

/-- A queue with entries to fetch is listed: a number never given out has none. -/
theorem State.mem_turns_of_fetchable (fetches : s.fetchable q = true) : q ∈ s.turns (s.serverOf q) := by
  refine List.mem_filter.mpr ⟨?listed, by simp [fetches]⟩
  obtain ⟨-, -, -, entries, -⟩ := State.fetchable_iff.mp fetches
  obtain unused | listed := Tbl.get_eq_or_mem Queue.reset s.queues q
  · exact absurd (by rw [State.queue, unused]; rfl) entries
  · exact List.mem_map_of_mem (f := fun e : Nat × Queue => e.1) listed

theorem State.nextQueue_of_alone (fetches : s.fetchable q = true)
    (alone : ∀ i, i ≠ q → s.serverOf i = s.serverOf q → s.fetchable i = false) : s.nextQueue (s.serverOf q) = some q := by
  have some : s.nextQueue (s.serverOf q) ≠ none := by
    rw [State.nextQueue_eq]
    intro none
    obtain ⟨-, empty⟩ := Option.or_eq_none_iff.mp none
    exact List.ne_nil_of_mem (State.mem_turns_of_fetchable fetches) (List.head?_eq_none_iff.mp empty)
  obtain ⟨i, next⟩ := Option.ne_none_iff_exists'.mp some
  obtain ⟨server, fetch⟩ := State.mem_turns (State.mem_turns_of_nextQueue next)
  by_cases same : i = q
  · exact same ▸ next
  · exact absurd fetch (Bool.eq_false_iff.mp (alone i same server))

end Turn

/-! ### Fetching -/

/-- The command whose first entry starts with `w0` and whose entries, opened, are `o`: what the fetch at time `now` notes of it. -/
def Queue.cmdOf (k : Queue) (w0 need now : Nat) (o : Nat × List Word64 × List Word64) : Cmd where
  place := k.nextPlace
  words := o.2.1
  second := o.2.2
  session := o.1
  state := .waiting
  waitMet := !bit w0 10
  fetched := now
  started := 0
  bulk := none
  bulkAsked := false
  asked := false
  notRepro := false
  fallback := false
  run := none
  energy0 := []
  energyFar := []
  silent := false
  conn := k.rungBy need

/-- The queue takes a fetched command in, its HEAD passes the entries, and the lease of its context is renewed. -/
def State.takeCmd (y : State) (q : Nat) (k : Queue) (need : Nat) (c : Cmd) : State :=
  let a := y.modQueue q fun k' => { k'.pass need with nextPlace := k.nextPlace + 1, cmds := k'.cmds ++ [c] }
  if q ≠ 0 ∧ a.holdsLease k.ctx = true then a.renew k.ctx else a

/-- A fetched command that may run is logged, and one that is a HEARTBEAT of the admin queue renews what it names. -/
def State.noteCmd (b : State) (q : Nat) (c : Cmd) : State :=
  if q = 0 ∧ c.opc = 0x07 then (b.logFetch q c).renewAll c.named else b.logFetch q c

/-- What a fetched command comes to: it ends with its status, or it waits for its turn or its fence. -/
def State.admitCmd (b : State) (q : Nat) (c : Cmd) (opened : Bool) : State :=
  match b.fetchStatus q c opened with
  | some st => b.finish q c.place { status := st }
  | none => if c.waitMet then b.noteCmd q c else (b.noteCmd q c).registerWait q c

theorem State.admitCmd_eq (b : State) (q : Nat) (c : Cmd) (opened : Bool) : b.admitCmd q c opened =
    let why := b.fetchStatus q c opened
    let a := if why.isSome then b else b.logFetch q c
    let l := if why.isNone ∧ q = 0 ∧ c.opc = 0x07 then a.renewAll c.named else a
    match why with
    | some st => l.finish q c.place { status := st }
    | none => if c.waitMet then l else l.registerWait q c := by
  unfold State.admitCmd State.noteCmd
  cases b.fetchStatus q c opened <;> simp

section Admit
variable {b : State} {q : Nat} {c : Cmd} {opened : Bool}

theorem State.admitCmd_ends {st : Nat} (why : b.fetchStatus q c opened = some st) : b.admitCmd q c opened = b.finish q c.place { status := st } := by
  simp only [State.admitCmd, why]

theorem State.admitCmd_may (may : b.fetchStatus q c opened = none) :
    b.admitCmd q c opened = if c.waitMet then b.noteCmd q c else (b.noteCmd q c).registerWait q c := by
  simp only [State.admitCmd, may]

end Admit

section Fetch
variable {s : State} {q : Nat}

section Entry
variable {e : List Word64} {v : State} {evs : List Ev} (fetches : s.fetchable q = true)
  (entry : s.ringEntry q (s.queue q).head = some (e, v, evs))
include fetches entry

/-- A command whose entries have not all been rung is left. -/
theorem State.fetchOne_short (short : ((s.queue q).tail + 65536 - (s.queue q).head) % 65536 <
    cmdEntries (bits (e.getD 0 0).toNat 7 0) + b2n (bit (e.getD 0 0).toNat 9)) : s.fetchOne q = s := by
  simp only [State.fetchOne, fetches, entry, Bool.not_true, Bool.false_eq_true, if_false]
  exact if_pos short

/-- A command whose entries have all been rung is taken in as its frame opens, or as it stands. -/
theorem State.fetchOne_whole {es : List (List Word64)} {w : State} {more : List Ev} {o : Option (Nat × List Word64 × List Word64 × State)}
    {h : Nat} {words two : List Word64} {y : State} :
    let k := s.queue q
    let w0 := (e.getD 0 0).toNat
    let body := cmdEntries (bits w0 7 0)
    let need := body + b2n (bit w0 9)
    let first := es.getD 0 []
    let second := if body = 2 then es.getD 1 [] else []
    need ≤ (k.tail + 65536 - k.head) % 65536 → s.ringEntries q k.head need = some (es, w, more) →
    (if bit w0 9 then (w.settle more).openFrame q first second (es.getD body []) else none) = o →
    o.getD (0, first, second, w.settle more) = (h, words, two, y) →
    let c := k.cmdOf w0 need y.ltime (h, words, two)
    s.fetchOne q = (y.takeCmd q k need c).admitCmd q c o.isSome := by
  dsimp only
  intro whole entries opens reads
  simp only [State.fetchOne, fetches, entry, Bool.not_true, Bool.false_eq_true, if_false, if_neg (Nat.not_lt_of_le whole), entries,
    State.admitCmd_eq, opens, reads] <;> rfl

end Entry
end Fetch

/-! ### What may not run (R296, R316, R319) -/

theorem Cmd.knownOpc_of_not_bad {c : Cmd} {admin : Bool} (good : c.bad admin = false) : knownOpc c.opc = true := by
  cases known : knownOpc c.opc with
  | true => rfl
  | false =>
    have bad : c.bad admin = true := by simp only [Cmd.bad, known, Bool.not_false, Bool.true_or]
    exact absurd (good.symm.trans bad) Bool.false_ne_true

/-- A command that may run is known, its frame is open, its queue is one for it, and its context neither is torn down nor, but for its
own DESTROY_CTX, lost. -/
theorem State.may_of_fetchStatus {b : State} {q : Nat} {c : Cmd} {opened : Bool} (may : b.fetchStatus q c opened = none) :
    knownOpc c.opc = true ∧ (bit (c.word 0) 9 = true → opened = true) ∧ (q = 0 → contextOnly c.opc = false) ∧
      (q ≠ 0 → adminOnly c.opc = false ∧ (b.ctx (b.queue q).ctx).state ≠ .tearing ∧
        ((b.ctx (b.queue q).ctx).state = .lost → c.opc = 0x02)) := by
  unfold State.fetchStatus at may
  dsimp only at may
  split at may
  case isTrue => cases may
  split at may
  case isTrue => cases may
  split at may
  case isTrue => cases may
  split at may
  case isTrue => cases may
  split at may
  case isTrue => cases may
  case isFalse frame tearing lost bad queue =>
    have opens : ¬ (bit (c.word 0) 9 = true ∧ opened = false) := fun closed => frame (by simp [closed])
    refine ⟨Cmd.knownOpc_of_not_bad (Bool.eq_false_iff.mpr bad), by simpa using opens, fun admin => ?_, fun context => ⟨?_, ?_, ?_⟩⟩
    · exact Bool.eq_false_iff.mpr fun only => queue (.inl ⟨admin, only⟩)
    · exact Bool.eq_false_iff.mpr fun only => queue (.inr ⟨context, only⟩)
    · exact fun tears => tearing ⟨context, tears⟩
    · exact fun isLost => Decidable.byContradiction fun other => lost ⟨context, isLost, other⟩

/-! ### Which command starts (R294, R295) -/

theorem mayStart_split {c : Cmd} {ds : List Cmd} (may : mayStart c ds = true) :
    ∃ l d r, ds = l ++ d :: r ∧ d.place = c.place ∧ (bit (c.word 0) 8 = false → l = []) ∧
      ∀ x, l.getLast? = some x → x.state ≠ .waiting := by
  induction ds with
  | nil => cases may
  | cons d r ih =>
    unfold mayStart at may
    split at may
    case isTrue own => exact ⟨[], d, r, rfl, own, fun _ => rfl, by simp⟩
    split at may
    case isFalse => cases may
    case isTrue other concurrent =>
      have concurrent {p : Prop} (alone : bit (c.word 0) 8 = false) : p := absurd concurrent (Bool.eq_false_iff.mp alone)
      split at may
      case h_1 => cases may
      case h_2 e r =>
      split at may
      case isTrue next => exact ⟨[d], e, r, rfl, next, concurrent, by simpa using may⟩
      case isFalse later =>
        obtain ⟨l, x, r', split, place, -, last⟩ := ih may
        cases l with
        | nil => 
          cases split
          exact absurd place later
        | cons e' l => 
          refine ⟨d :: e' :: l, x, r', by rw [split]; rfl, place, concurrent, fun y hy => last y ?_⟩
          rwa [List.getLast?_cons_cons] at hy

/-- The command that starts waits, has its fence and its turn. -/
theorem State.next_startable {s : State} {q : Nat} {p : Cmd → Bool} {c : Cmd} (next : s.next q p = some c) :
    p c = true ∧ c.state = .waiting ∧ c.waitMet = true ∧ c ∈ (s.queue q).cmds ∧ mayStart c (s.queue q).cmds = true := by
  have starts := List.find?_some next
  simp only [State.startable, Bool.and_eq_true, beq_iff_eq] at starts
  obtain ⟨⟨⟨⟨⟨-, waiting⟩, met⟩, may⟩, -⟩, takes⟩ := starts
  exact ⟨takes, waiting, met, List.mem_of_find?_eq_some next, may⟩

section Waits
variable {s : State} {q : Nat}

theorem State.waitvSatisfied_none (none : ((s.queue q).cmds.find? fun c => c.state == .waiting && !c.waitMet) = none) :
    s.waitvSatisfied q = s := by
  simp only [State.waitvSatisfied, none]

/-- The wait of a command on a fence of this module, by what its home hub reads of it (R295). -/
theorem State.waitvSatisfied_here {c : Cmd} (waits : ((s.queue q).cmds.find? fun c => c.state == .waiting && !c.waitMet) = some c)
    (here : bits (c.word 1 % 2 ^ 48) 47 32 = s.fabAddr) : s.waitvSatisfied q =
    let r := s.fenceRead (bits (c.word 1 % 2 ^ 48) 31 0) (.ctx (s.queue q).ctx)
    let t := (r.2.2.dropWaits fun w => w == .command q c.place).tellWaiter (bits (c.word 1 % 2 ^ 48) 31 0) r.1 (.command q c.place)
    if r.1 = Sync.ok ∧ r.2.1 < c.word 2 then r.2.2 else t.1.settle t.2 := by
  simp only [State.waitvSatisfied, waits, here, ne_eq, not_true, if_false]
  generalize s.fenceRead (bits (c.word 1 % 2 ^ 48) 31 0) (.ctx (s.queue q).ctx) = r
  by_cases early : r.1 = Sync.ok ∧ r.2.1 < c.word 2
  · rw [if_pos early, if_pos early]
  · rw [if_neg early, if_neg early]

end Waits

/-- A command is told that its wait has ended. -/
theorem State.tellWaiter_command (s : State) (n st q place : Nat) : s.tellWaiter n st (.command q place) =
    if st = Sync.ok then (s.modCmd q place fun c => { c with waitMet := true }, [])
    else if st = Sync.fenceError then s.complete q place { status := St.fenceError }
    else s.complete q place { status := St.refused, detail := st } := rfl

/-! ### Leases (R297) -/

@[simp] theorem State.renew_ltime (s : State) (n : Nat) : (s.renew n).ltime = s.ltime := rfl
@[simp] theorem State.renew_hbIgnored (s : State) (n : Nat) : (s.renew n).hbIgnored = s.hbIgnored := rfl

theorem State.ctx_renew (s : State) (n m : Nat) :
    (s.renew n).ctx m = if m = n then { s.ctx n with leaseStart := s.ltime } else s.ctx m := State.ctx_modCtx _ _ _ _

@[simp] theorem State.holdsLease_renew (s : State) (n m : Nat) : (s.renew n).holdsLease m = s.holdsLease m := by
  have state : ((s.renew n).ctx m).state = (s.ctx m).state := by
    rw [State.ctx_renew]
    split
    case isTrue same => rw [same]
    case isFalse => rfl
  unfold State.holdsLease
  rw [state]

theorem State.renewAll_cons (s : State) (n : Nat) (ns : List Nat) :
    s.renewAll (n :: ns) = (if s.holdsLease n then s.renew n else { s with hbIgnored := s.hbIgnored + 1 }).renewAll ns := rfl

/-- What a HEARTBEAT of the admin queue renews and counts. -/
theorem State.renewAll_spec (names : List Nat) (s : State) :
    (∀ n, (s.renewAll names).ctx n = if n ∈ names ∧ s.holdsLease n = true then { s.ctx n with leaseStart := s.ltime } else s.ctx n) ∧
      (s.renewAll names).hbIgnored = s.hbIgnored + (names.filter fun n => !s.holdsLease n).length := by
  induction names generalizing s with
  | nil => exact ⟨fun n => (if_neg fun h => List.not_mem_nil h.1).symm, rfl⟩
  | cons m ns ih =>
    rw [State.renewAll_cons]
    by_cases holds : s.holdsLease m = true
    · obtain ⟨renewed, ignored⟩ := ih (s.renew m)
      rw [if_pos holds]
      refine ⟨fun n => ?_, by simp [ignored, holds]⟩
      rw [renewed, State.holdsLease_renew, State.ctx_renew]
      by_cases same : n = m
      · simp [same, holds]
      · simp [same]
    · obtain ⟨renewed, ignored⟩ := ih { s with hbIgnored := s.hbIgnored + 1 }
      rw [if_neg holds]
      refine ⟨fun n => (renewed n).trans ?_, ?_⟩
      · have named : (n ∈ m :: ns ∧ s.holdsLease n = true) ↔ (n ∈ ns ∧ s.holdsLease n = true) := by
          rw [List.mem_cons]
          exact ⟨fun ⟨mem, lease⟩ => ⟨mem.resolve_left fun same => holds (same ▸ lease), lease⟩, fun ⟨mem, lease⟩ => ⟨.inr mem, lease⟩⟩
        exact ite_congr (propext named.symm) (fun _ => rfl) fun _ => rfl
      · have counted : ((m :: ns).filter fun n => !s.holdsLease n).length = 1 + (ns.filter fun n => !s.holdsLease n).length := by
          simp [holds, Nat.add_comm]
        rw [counted, ← Nat.add_assoc]
        exact ignored

/-- Settles O52: the turn by the queues that a processor may serve, the fetch by what the command that it takes in comes to, and the start by
what stands before a command in its queue. -/
theorem commandsAreFetchedAndStartInTheirTurn : Obligations.CommandsAreFetchedAndStartInTheirTurn := by
  intro s q k avail
  have fetch (runs : s.fetchQuiesced q = false) (turn : s.nextQueue (s.serverOf q) = some q.val) :
      exec (.commandFetch q) s = s.answer (State.fetchOne { s with fetchTurn := Tbl.set s.fetchTurn (s.serverOf q) q.val } q) :=
    congrArg s.answer ((if_neg (Bool.eq_false_iff.mp runs)).trans (if_pos turn))
  refine ⟨fun idle => ?idle, fun quiet turn => ?quiet, fun g i turn => State.mem_turns (State.mem_turns_of_nextQueue turn),
    State.nextQueue_of_alone, fun e v evs runs turn entry => ?fetch, fun b c o may => State.may_of_fetchStatus may, fun p c next => ?starts,
    fun none => exec_eq_next rfl (State.waitvSatisfied_none none) rfl, fun c waits here => ?waitv,
    fun none => exec_eq_next rfl (State.onCmd_none none _) rfl, fun none => exec_eq_next rfl (State.onCmd_none none _) rfl,
    fun c takes => exec_eq_answer rfl (State.onCmd_takes takes _), fun c takes => exec_eq_answer rfl (State.onCmd_takes takes _),
    fun names => State.renewAll_spec names s⟩
  case idle =>
    refine exec_eq_next (u := if s.fetchQuiesced q then s else s.commandFetch q) rfl ?_ rfl
    obtain hung | waits := idle
    · exact if_pos hung
    · rw [State.commandFetch, if_neg waits, ite_self]
  case quiet =>
    obtain ⟨-, fetches⟩ := State.mem_turns (State.mem_turns_of_nextQueue turn)
    obtain ⟨runs, error, hold, entries, -, room⟩ := State.fetchable_iff.mp fetches
    obtain ⟨admin, off⟩ | ⟨context, gone⟩ | stuck | held | none | full := quiet
    · rw [if_pos admin, off] at runs
      cases runs
    · rw [if_neg context] at runs
      obtain unused | closing := gone
      · exact Bool.false_ne_true (unused.symm.trans runs.1)
      · exact Bool.false_ne_true (runs.2.symm.trans closing)
    · exact Bool.false_ne_true (error.symm.trans stuck)
    · exact Bool.false_ne_true (hold.symm.trans held)
    · exact entries none
    · exact Nat.not_lt_of_le full room
  case fetch =>
    intro body isSealed need
    have fetches : ({ s with fetchTurn := Tbl.set s.fetchTurn (s.serverOf q) q.val } : State).fetchable q = true :=
      (State.mem_turns (State.mem_turns_of_nextQueue turn)).2
    refine ⟨fun short => exec_eq_next (fetch runs turn) (State.fetchOne_short fetches entry short) rfl, fun es w more whole entries => ?_⟩
    intro first second h words two opened y opens c a b
    have read : ∃ o, (if isSealed then (w.settle more).openFrame q first second (es.getD body []) else none) = o ∧ o.isSome = opened ∧
        o.getD (0, first, second, w.settle more) = (h, words, two, y) := by
      obtain ⟨clear, rfl, as⟩ | ⟨framed, rfl, as⟩ | ⟨framed, rfl, fails, as⟩ := opens
      · exact ⟨none, if_neg (Bool.eq_false_iff.mp clear), rfl, as.symm⟩
      · exact ⟨_, (if_pos framed).trans as, rfl, rfl⟩
      · exact ⟨none, (if_pos framed).trans fails, rfl, as.symm⟩
    obtain ⟨o, frame, rfl, reads⟩ := read
    have taken : exec (.commandFetch q) s = s.answer (b.admitCmd q c o.isSome) :=
      exec_eq_answer (fetch runs turn) (State.fetchOne_whole fetches entry whole entries frame reads)
    refine ⟨fun st why => exec_eq_answer taken (State.admitCmd_ends why), fun may met => ?_, fun may unmet => ?_⟩
    · exact exec_eq_answer taken ((State.admitCmd_may may).trans (if_pos met))
    · exact exec_eq_answer taken ((State.admitCmd_may may).trans (if_neg (Bool.eq_false_iff.mp unmet)))
  case starts =>
    obtain ⟨takes, waiting, met, mem, may⟩ := State.next_startable next
    exact ⟨takes, waiting, met, mem, mayStart_split may⟩
  case waitv =>
    intro r v
    have tested := State.waitvSatisfied_here waits here
    have ends (ended : ¬ (r.1 = Sync.ok ∧ r.2.1 < c.word 2)) := tested.trans (if_neg ended)
    simp only [State.tellWaiter_command] at ends
    refine ⟨fun ok early => exec_eq_answer rfl (tested.trans (if_pos ⟨ok, early⟩)), fun ok reached => exec_eq_answer rfl ((ends ?_).trans ?_),
      fun error => exec_eq_answer rfl ((ends ?_).trans ?_), fun gone => exec_eq_answer rfl ((ends ?_).trans ?_)⟩
    · exact fun early => Nat.not_lt_of_le reached early.2
    · rw [if_pos ok]
      exact State.settle_nil _
    · exact fun early => by cases error.symm.trans early.1
    · rw [error]
      rfl
    · exact fun early => by cases gone.symm.trans early.1
    · rw [gone]
      rfl

end Sys2Proof.Machine
end

section
/-! PROOFS. Contexts and queues that come and go (R285, R289, R291, R315 to R319): the numbers given out, what CREATE_CTX grants, what each command
comes to, and what the last step of a teardown leaves. -/

namespace Sys2Proof.Machine

/-! ### Context numbers (R285) -/

theorem State.freeCtxFrom_of_ctxs {s t : State} (same : t.ctxs = s.ctxs) (fuel n : Nat) : t.freeCtxFrom fuel n = s.freeCtxFrom fuel n := by
  induction fuel generalizing n with
  | zero => rfl
  | succ fuel ih =>
    have ctx (m : Nat) : t.ctx m = s.ctx m := by rw [State.ctx, same, State.ctx]
    simp only [State.freeCtxFrom]
    rw [ctx, ih]

@[simp] theorem State.freeCtxFrom_start (s : State) (q : Nat) (c : Cmd) (fuel n : Nat) :
    (s.start q c).freeCtxFrom fuel n = s.freeCtxFrom fuel n := State.freeCtxFrom_of_ctxs (s := s) (t := s.start q c) rfl fuel n

@[simp] theorem State.start_lastCtx (s : State) (q : Nat) (c : Cmd) : (s.start q c).lastCtx = s.lastCtx := rfl

/-- The steps of the search for a context number from `n` round to `m`. -/
def ctxSteps (n m : Nat) : Nat := if n < m then m - n else m + 65535 - n

/-- The search meets a FREE number that it reaches before its fuel ends. -/
theorem State.freeCtxFrom_free {s : State} {m : Nat} (nonzero : m ≠ 0) (bound : m < 65536) (free : (s.ctx m).state = .free) (fuel n : Nat)
    (last : n < 65536) (reaches : ctxSteps n m ≤ fuel) :
    s.freeCtxFrom fuel n ≠ 0 ∧ s.freeCtxFrom fuel n < 65536 ∧ (s.ctx (s.freeCtxFrom fuel n)).state = .free := by
  induction fuel generalizing n with
  | zero => unfold ctxSteps at reaches; split at reaches <;> omega
  | succ fuel ih =>
    simp only [State.freeCtxFrom]
    generalize step : (if (n + 1) % 65536 = 0 then 1 else (n + 1) % 65536) = k
    have next : n = 65535 ∧ k = 1 ∨ n < 65535 ∧ k = n + 1 := by subst step; split <;> omega
    split
    case isTrue found => exact ⟨by omega, by omega, found⟩
    case isFalse used =>
      have other : k ≠ m := fun same => used (same ▸ free)
      refine ih k (by omega) ?_
      unfold ctxSteps at reaches ⊢
      split at reaches <;> split <;> omega

/-! ### Save areas (R311) -/

theorem State.freshen_eq (s : State) (p base n : Nat) : ∃ cs, s.freshen p base n = { s with channels := cs } := by
  refine List.foldlRecOn (motive := fun t : State => ∃ cs, t = { s with channels := cs }) _ _ ⟨s.channels, rfl⟩ fun t ht i _ => ?_
  obtain ⟨cs, rfl⟩ := ht
  split
  · exact ⟨_, rfl⟩
  · exact ⟨cs, rfl⟩

/-- Granting save areas changes channels and partitions, and nothing else. -/
theorem State.grantSaves_eq {s w : State} {n p : Nat} {cls : List Nat} (granted : s.grantSaves n p cls = some w) :
    ∃ cs ps, w = { s with channels := cs, parts := ps } := by
  induction cls generalizing s with
  | nil =>
    cases granted
    exact ⟨_, _, rfl⟩
  | cons cl r ih =>
    simp only [State.grantSaves] at granted
    split at granted
    case h_1 => cases granted
    case h_2 a place =>
      obtain ⟨cs, ps, after⟩ := ih granted
      obtain ⟨fs, fresh⟩ := s.freshen_eq p a (s.saveBytes cl)
      refine ⟨cs, ps, after.trans ?_⟩
      rw [State.grant, fresh]
      rfl

/-! ### CREATE_CTX (R289) -/

/-- The partition in which this module holds a member of a forme. -/
def State.homePart (s : State) (r : CtxParams) : Option Nat :=
  (s.forme r.forme).bind fun f => (Tbl.find f.members r.member).bind fun m => if m.fab = s.fabAddr then some m.part else none

/-- The context that CREATE_CTX makes in partition `p`. -/
def State.newCtx (s : State) (r : CtxParams) (p : Nat) : Context := { Context.reset with
  state := .live, forme := r.forme, member := r.member, part := p, conn := r.conn, job := r.job, asn := r.asn, seed := r.seed,
  leaseMs := r.lease, leaseStart := s.ltime, session := r.session, dedicated := r.dedicated, share := r.share, quotas := r.quotas,
  keySerial := s.keySerial + 1 }

/-- A job is one of the forme's. -/
def State.addJob (s : State) (forme job : Nat) : State :=
  if (s.job forme job).isSome then s else { s with jobs := s.jobs ++ [Job.blank forme job] }

/-- A job stands in the rotation of a forme. -/
def Forme.rotateIn (f : Forme) (job : Nat) : Forme :=
  { f with rotation := if f.rotation.contains job then f.rotation else f.rotation ++ [job] }

/-- A context gets its number, and its job is one of the forme's and stands in its rotation. -/
def State.enterCtx (w : State) (n : Nat) (x : Context) : State :=
  (({ w with ctxs := Tbl.set w.ctxs n x, lastCtx := n, keySerial := x.keySerial } : State).addJob x.forme x.job).modForme x.forme fun f => f.rotateIn x.job

theorem State.createCtx_takes {s : State} {q : Nat} {c : Cmd} (takes : s.takes q 0x01 c) (far : List (Nat × Bool)) : s.createCtx q far =
    let u := s.start q c
    let r := ctxParams c
    let p := (s.homePart r).getD 0
    let n := s.freeCtxFrom 65536 s.lastCtx
    if r.session ≠ 0 ∧ c.session ≠ r.session then u.finish q c.place { status := St.badSeal }
    else match s.createWhy r (s.homePart r) far with
      | some d => u.refuseCmd q c d
      | none => match u.grantSaves n p (if r.dedicated then [] else (s.part p).lay.clusters) with
        | none => u.refuseCmd q c Dt.saveSpace
        | some w => (w.enterCtx n (s.newCtx r p)).okCmd q c [BitVec.ofNat 64 n] := by
  have why (part : Option Nat) : (s.start q c).createWhy (ctxParams c) part far = s.createWhy (ctxParams c) part far := rfl
  rw [State.createCtx, State.onCmd_takes takes]
  simp only [State.homePart, State.forme_start, State.part_start, State.start_lastCtx, State.freeCtxFrom_start, why]
  generalize s.freeCtxFrom 65536 s.lastCtx = n
  cases s.forme (ctxParams c).forme with
  | none => rfl
  | some f =>
    simp only [Option.bind_some]
    cases Tbl.find f.members (ctxParams c).member with
    | none => rfl
    | some m => rfl

section Create
variable {s : State} {q : Nat} {c : Cmd} {far : List (Nat × Bool)} (takes : s.takes q 0x01 c)
  (opened : (ctxParams c).session = 0 ∨ c.session = (ctxParams c).session)
include takes opened

theorem State.createCtx_refused {d : Nat} (why : s.createWhy (ctxParams c) (s.homePart (ctxParams c)) far = some d) :
    s.createCtx q far = (s.start q c).refuseCmd q c d := by
  rw [State.createCtx_takes takes, if_neg fun bad => opened.elim bad.1 bad.2, why]

variable (may : s.createWhy (ctxParams c) (s.homePart (ctxParams c)) far = none)
include may

theorem State.createCtx_unsaved
    (full : (s.start q c).grantSaves (s.freeCtxFrom 65536 s.lastCtx) ((s.homePart (ctxParams c)).getD 0)
      (if (ctxParams c).dedicated then [] else (s.part ((s.homePart (ctxParams c)).getD 0)).lay.clusters) = none) :
    s.createCtx q far = (s.start q c).refuseCmd q c Dt.saveSpace := by
  rw [State.createCtx_takes takes, if_neg fun bad => opened.elim bad.1 bad.2, may]
  simp only [full]

theorem State.createCtx_granted {w : State}
    (granted : (s.start q c).grantSaves (s.freeCtxFrom 65536 s.lastCtx) ((s.homePart (ctxParams c)).getD 0)
      (if (ctxParams c).dedicated then [] else (s.part ((s.homePart (ctxParams c)).getD 0)).lay.clusters) = some w) :
    s.createCtx q far = (w.enterCtx (s.freeCtxFrom 65536 s.lastCtx)
      (s.newCtx (ctxParams c) ((s.homePart (ctxParams c)).getD 0))).okCmd q c [BitVec.ofNat 64 (s.freeCtxFrom 65536 s.lastCtx)] := by
  rw [State.createCtx_takes takes, if_neg fun bad => opened.elim bad.1 bad.2, may]
  simp only [granted]

end Create

/-- Adding a job changes the jobs, and nothing else. -/
theorem State.addJob_eq (s : State) (forme job : Nat) : ∃ js, s.addJob forme job = { s with jobs := js } := by
  unfold State.addJob
  split
  · exact ⟨s.jobs, rfl⟩
  · exact ⟨_, rfl⟩

theorem State.job_addJob (s : State) (forme job : Nat) : ((s.addJob forme job).job forme job).isSome = true := by
  unfold State.addJob
  split
  case isTrue known => exact known
  case isFalse => simp [State.job, Job.blank]

theorem Forme.mem_rotation_rotateIn (f : Forme) (job : Nat) : job ∈ (f.rotateIn job).rotation := by
  unfold Forme.rotateIn
  dsimp only
  split
  case isTrue listed => simpa using listed
  case isFalse => simp

section Entered
variable (w : State) (n : Nat) (x : Context)

/-- Entering a context changes contexts, key serials, jobs and formes, and nothing else. -/
theorem State.enterCtx_eq : ∃ js fs, w.enterCtx n x =
    { w with ctxs := Tbl.set w.ctxs n x, lastCtx := n, keySerial := x.keySerial, jobs := js, formes := fs } := by
  obtain ⟨js, jobs⟩ := State.addJob_eq { w with ctxs := Tbl.set w.ctxs n x, lastCtx := n, keySerial := x.keySerial } x.forme x.job
  exact ⟨js, _, by rw [State.enterCtx, jobs]; rfl⟩

theorem State.ctx_enterCtx (m : Nat) : (w.enterCtx n x).ctx m = if m = n then x else w.ctx m := by
  obtain ⟨js, fs, entered⟩ := w.enterCtx_eq n x
  rw [entered]
  exact Tbl.get_set _ _ _ _ _

theorem State.job_enterCtx : ((w.enterCtx n x).job x.forme x.job).isSome = true := State.job_addJob _ _ _

theorem State.mem_rotation_enterCtx {f : Forme} (known : (w.enterCtx n x).forme x.forme = some f) : x.job ∈ f.rotation := by
  obtain ⟨g, -, rfl⟩ := Option.map_eq_some_iff.mp ((State.forme_modForme _ x.forme (g := fun f => f.rotateIn x.job) fun _ => rfl).symm.trans known)
  exact g.mem_rotation_rotateIn x.job

end Entered

/-! ### A queue and its last command (R296) -/

theorem Queue.leave_last {k : Queue} {place : Nat} (closing : k.closing = true) (last : ∀ d ∈ k.cmds, d.place = place) :
    k.leave place = { Queue.reset with gen := k.gen } := by
  have none : (k.cmds.filter fun d => d.place ≠ place) = [] := by simpa using last
  simp only [Queue.leave, closing, none]
  rfl

theorem Queue.leave_others {k : Queue} {place : Nat} (others : k.closing = false ∨ ∃ d ∈ k.cmds, d.place ≠ place) :
    k.leave place = { k with cmds := k.cmds.filter fun d => d.place ≠ place } := by
  refine if_neg ?_
  obtain stays | ⟨d, mem, other⟩ := others
  · simp [stays]
  · simpa using fun _ => ⟨d, mem, other⟩

theorem State.queue_freeQueue (s : State) (i j : Nat) :
    (s.freeQueue i).queue j = if j = i then { Queue.reset with gen := (s.queue i).gen } else s.queue j := State.queue_modQueue _ _ _ _

/-! ### A lost context (R236) -/

/-- Once a lost context has released its imports, fences keep what they are. -/
theorem Calm.loseCtx {s : State} {n : Nat} (nonzero : n ≠ 0) (live : (s.ctx n).state = .live) :
    Calm ((s.ctx n).imports.foldl (fun s name => s.releaseName n name) s) (s.loseCtx n).1 := by
  unfold State.loseCtx
  dsimp only
  rw [if_pos ⟨nonzero, live⟩]
  exact ((((Calm.modCtx _ _ _).trans (Calm.stopCores _ _)).trans (Calm.stopStreams _ _)).trans (Calm.endCmds _ _ _)).trans
    ((Calm.send _ _).trans (Calm.reschedule _ _ _))

/-- A name of this module is that of the fence it numbers. -/
theorem State.releaseName_here (s : State) (n : Nat) {f : Nat} (fence : f < 2 ^ 32) (fab : s.fabAddr < 2 ^ 16) :
    s.releaseName n (f + s.fabAddr * 2 ^ 32) = s.releaseImport f := by
  have home : bits (f + s.fabAddr * 2 ^ 32) 47 32 = s.fabAddr := by unfold bits; omega
  have number : bits (f + s.fabAddr * 2 ^ 32) 31 0 = f := by unfold bits; omega
  rw [State.releaseName, if_pos home, number]

/-! ### What a finished teardown leaves (R319) -/

@[simp] theorem State.reschedule_ctxs (s : State) (id : Nat) (far : List Nat) : (s.reschedule id far).ctxs = s.ctxs := by
  unfold State.reschedule
  split
  · rfl
  dsimp only
  split
  · rfl
  split
  · exact List.foldlRecOn (motive := fun t : State => t.ctxs = s.ctxs) _ _ rfl fun t ht _ _ => ht
  · rfl

/-- The number of a finished teardown is FREE. -/
theorem State.freeCtx_free (s : State) (n : Nat) : ((s.freeCtx n).ctx n).state = .free := by
  have gone : (s.freeCtx n).ctxs = Tbl.del s.ctxs n := by
    unfold State.freeCtx
    dsimp only
    rw [State.reschedule_ctxs]
    split <;> rfl
  rw [State.ctx, gone, Tbl.get_del, if_pos rfl]
  rfl

/-- The queues of a context go, but the one that holds the command which asked for the teardown. -/
def State.endQueue (x : Context) (s : State) (i : Nat) : State :=
  if x.lastCmd i then s.modQueue i fun k => { k with closing := true } else s.freeQueue i

theorem State.queue_endQueue (x : Context) (s : State) (i j : Nat) : (State.endQueue x s i).queue j =
    if j = i then (if x.lastCmd i then { s.queue i with closing := true } else { Queue.reset with gen := (s.queue i).gen }) else s.queue j := by
  unfold State.endQueue
  split
  · exact State.queue_modQueue _ _ _ _
  · exact State.queue_freeQueue _ _ _

@[simp] theorem State.endQueue_parts (x : Context) (s : State) (i : Nat) : (State.endQueue x s i).parts = s.parts := by
  unfold State.endQueue
  split <;> rfl

/-- After the queues of a list have gone, one that is in use is closing for the last command, or was not in the list. -/
theorem State.queue_endQueues {x : Context} {is : List Nat} {s : State} {i : Nat}
    (used : ((is.foldl (State.endQueue x) s).queue i).inUse = true) :
    (((is.foldl (State.endQueue x) s).queue i).closing = true ∧ x.lastCmd i = true) ∨
      (i ∉ is ∧ (is.foldl (State.endQueue x) s).queue i = s.queue i) := by
  induction is generalizing s with
  | nil => exact .inr ⟨List.not_mem_nil, rfl⟩
  | cons j js ih =>
    rw [List.foldl_cons] at used ⊢
    obtain last | ⟨others, kept⟩ := ih used
    · exact .inl last
    rw [kept, State.queue_endQueue] at used ⊢
    by_cases same : i = j
    · subst same
      rw [if_pos rfl] at used ⊢
      split at used
      case isTrue last => exact .inl ⟨by rw [if_pos last], last⟩
      case isFalse => cases used
    · rw [if_neg same]
      exact .inr ⟨fun mem => (List.mem_cons.mp mem).elim same others, rfl⟩

/-- A queue of a context that is in use is one of its own. -/
theorem State.mem_ownQueues {s : State} {n i : Nat} (nonzero : i ≠ 0) (used : (s.queue i).inUse = true) (own : (s.queue i).ctx = n) :
    i ∈ s.ownQueues n := by
  obtain unused | listed := Tbl.get_eq_or_mem Queue.reset s.queues i
  · rw [State.queue, unused] at used
    cases used
  · exact List.mem_map.mpr ⟨_, List.mem_filter.mpr ⟨listed, by simpa [State.queue] using ⟨⟨used, own⟩, nonzero⟩⟩, rfl⟩

/-- Step 4 of a teardown ends with the regions, the windows and then the queues of the context. -/
theorem State.freeCtxParts_eq (s : State) (n : Nat) : ∃ t : State, s.freeCtxParts n =
    let v := t.modPart (s.ctx n).part fun q => { q with
      regions := q.regions.filter fun g => g.owner ≠ n
      windows := q.windows.filter fun w => w.2.owner ≠ n }
    (v.ownQueues n).foldl (State.endQueue (s.ctx n)) v := ⟨_, rfl⟩

theorem State.freeCtxParts_queue {s : State} {n i : Nat} (nonzero : i ≠ 0) (used : ((s.freeCtxParts n).queue i).inUse = true)
    (own : ((s.freeCtxParts n).queue i).ctx = n) :
    ((s.freeCtxParts n).queue i).closing = true ∧ (s.ctx n).lastCmd i = true := by
  obtain ⟨t, parts⟩ := s.freeCtxParts_eq n
  rw [parts] at used own ⊢
  obtain last | ⟨others, kept⟩ := State.queue_endQueues used
  · exact last
  · rw [kept] at used own
    exact absurd (State.mem_ownQueues nonzero used own) others

/-- No region or window of the context is left in its partition. -/
theorem State.freeCtxParts_part (s : State) (n : Nat) :
    (∀ g ∈ ((s.freeCtxParts n).part (s.ctx n).part).regions, g.owner ≠ n) ∧
      ∀ w ∈ ((s.freeCtxParts n).part (s.ctx n).part).windows, w.2.owner ≠ n := by
  obtain ⟨t, parts⟩ := s.freeCtxParts_eq n
  have kept (x : Context) (is : List Nat) (v : State) : (is.foldl (State.endQueue x) v).parts = v.parts :=
    List.foldlRecOn (motive := fun u : State => u.parts = v.parts) _ _ rfl fun u hu i _ => (State.endQueue_parts x u i).trans hu
  rw [parts, State.part, kept, ← State.part, State.part_modPart, if_pos rfl]
  simp

/-! ### What each command comes to -/

section Commands
variable {s : State} {q : Nat} {c : Cmd}

theorem State.createQueue_status (takes : s.takes q 0x03 c) {st : Nat} (status : s.ctxStatus (bits (c.arg 0) 15 0) = some st) :
    s.createQueue q = (s.start q c).finish q c.place { status := st } := by
  have status : (s.start q c).ctxStatus (bits (c.arg 0) 15 0) = some st := status
  simp only [State.createQueue, State.onCmd_takes takes, status]

theorem State.createQueue_live (takes : s.takes q 0x03 c) (live : s.ctxStatus (bits (c.arg 0) 15 0) = none) : s.createQueue q =
    let u := s.start q c
    let n := bits (c.arg 0) 15 0
    let log := bits (c.arg 0) 19 16
    let base := bits (c.arg 1) 39 0
    let cr := bits (c.arg 2) 15 0
    if log < 6 then u.refuseCmd q c Dt.field
    else if ¬ (base % 4096 = 0 ∧ u.ringLies n base (64 * 2 ^ log) = true ∧ (u.cring cr).defined = true ∧ (u.cring cr).conn = (u.ctx n).conn) then
      u.refuseCmd q c Dt.ring
    else if min (u.queueLimit n) (u.queuesFree n) ≤ u.queuesOf n then u.refuseCmd q c Dt.queueLimit
    else ((rangeFrom 1 8191).find? fun i => !(u.queue i).inUse).elim (u.refuseCmd q c Dt.queueLimit) fun i =>
      let gen := ((u.queue i).gen + 1) % 65536
      ({ u with queues := Tbl.set u.queues i { Queue.reset with
        inUse := true, ctx := n, ringLog := log, ringBase := base, cring := cr, gen := gen } } : State).okCmd q c [BitVec.ofNat 64 (i + gen * 65536)] := by
  have live : (s.start q c).ctxStatus (bits (c.arg 0) 15 0) = none := live
  simp only [State.createQueue, State.onCmd_takes takes, live]
  refine ite_congr rfl (fun _ => rfl) fun _ => ite_congr (propext ?_) (fun _ => rfl) fun _ => ite_congr rfl (fun _ => rfl) fun _ => ?_
  · simp [Decidable.imp_iff_not_or]
  · cases (rangeFrom 1 8191).find? fun i => !((s.start q c).queue i).inUse <;> rfl

theorem State.destroyQueue_takes (takes : s.takes q 0x04 c) : s.destroyQueue q =
    let u := s.start q c
    let i := bits (c.arg 0) 12 0
    if i = 0 ∨ (u.queue i).inUse = false ∨ (u.queue i).closing = true then u.refuseCmd q c Dt.field
    else if (u.queue i).cmds = [] then (u.freeQueue i).okCmd q c
    else (u.modQueue i fun k => { k with closing := true }).okCmd q c := by
  simp [State.destroyQueue, State.onCmd_takes takes]

theorem State.destroyCtx_takes (takes : s.takes q 0x02 c) : s.destroyCtx q =
    let u := s.start q c
    let a := bits (c.arg 0) 15 0
    let own := (s.queue q).ctx
    let n := if q ≠ 0 ∧ a = 0 then own else a
    if q ≠ 0 ∧ n ≠ own then u.refuseCmd q c Dt.field
    else if n = 0 ∨ (s.ctx n).state = .free then u.finish q c.place { status := St.noCtx }
    else if (s.ctx n).state = .tearing then u.finish q c.place { status := St.teardown }
    else u.beginTeardown n (.command q c.place) := by
  simp only [State.destroyCtx, State.onCmd_takes takes, State.queue_start_ctx, State.ctx_start]

end Commands

/-! ### Loss reports (R316) -/

/-- The LIVE contexts of a job on this module are lost, but those of the member whose loss is reported. -/
def State.loseRest (s : State) (forme job member : Nat) : State :=
  (((s.jobCtxs forme job).filter fun e => e.2.member ≠ member && e.2.state == .live).map fun e => e.1).foldl (fun s n => s.settle [.lose n]) s

section Report
variable {s : State} {forme job member : Nat}

theorem State.lossReport_slave (slave : ∀ f, (s.loseRest forme job member).forme forme = some f → (s.loseRest forme job member).isMaster f = false) :
    s.lossReport forme job member = s.loseRest forme job member := by
  unfold State.loseRest at slave ⊢
  unfold State.lossReport
  dsimp only
  split
  case h_1 f known => exact if_neg (Bool.eq_false_iff.mp (slave f known))
  case h_2 => rfl

theorem State.lossReport_master {f : Forme} (known : (s.loseRest forme job member).forme forme = some f)
    (master : (s.loseRest forme job member).isMaster f = true) : s.lossReport forme job member =
      (f.modules.filter fun m => m ≠ (s.loseRest forme job member).fabAddr).foldl (fun s _ => s.send (.loss forme job member))
        (s.loseRest forme job member) := by
  unfold State.loseRest at known master ⊢
  simp only [State.lossReport, known]
  exact if_pos master

end Report

/-! ### The drain of a teardown (R319) -/

/-- The requests of the streams of context `n`, each with its engine. -/
def State.requestsOf (s : State) (n : Nat) : List (Nat × Nat) :=
  (s.engines.map fun (e : Nat × StreamEngine) =>
    ((e.2.ending ++ e.2.active.map fun p => p.2).filter fun t => decide (t.ctx = n)).flatMap fun t => t.reqs.map fun r => (e.1, r.id)).flatten

/-- Whether a request at the host or at another module is of context `n`: of its streams, or for a bulk argument of its queues. -/
def State.endsUse (s : State) (n : Nat) (u : OutUse) : Bool :=
  match u with
  | .stream e r => (s.requestsOf n).contains (e, r)
  | u => s.bulkOf n u

theorem State.endsUse_of_bulkOf {s : State} {n : Nat} {u : OutUse} (bulk : s.bulkOf n u = true) : s.endsUse n u = true := by
  cases u with
  | stream => cases bulk
  | _ => exact bulk

/-- At the bound of the drain the ladder has ended every request of context `n` that was left. -/
def State.drained (s : State) (n : Nat) : State :=
  let t := s.advanceTo ((s.ctx n).tearAt + drainBound)
  { t with
    peerOut := t.peerOut.filter fun o => !s.endsUse n o.use
    rdmaOut := t.rdmaOut.filter fun o => !s.endsUse n o.use
    engines := t.engines.map fun (e : Nat × StreamEngine) =>
      (e.1, { e.2 with ending := e.2.ending.filter fun t => t.ctx ≠ n, active := e.2.active.filter fun p => p.2.ctx ≠ n }) }

theorem State.teardownForced_outstanding {s : State} {n : Nat} (tearing : (s.ctx n).state = .tearing) (out : s.outstandingOf n = true) :
    s.teardownForced n = ((s.drained n).modCtx n fun x => { x with drainForced := true }).finishTeardown n := by
  rw [State.teardownForced, if_pos ⟨tearing, by simp [out]⟩]
  unfold State.drained State.endsUse
  rfl

theorem State.outstandingOf_drained (s : State) (n : Nat) : (s.drained n).outstandingOf n = false := by
  refine Bool.or_eq_false_iff.mpr ⟨List.any_eq_false.mpr fun e mem => ?engine, List.any_eq_false.mpr fun o mem => ?bulk⟩
  case engine =>
    obtain ⟨g, -, rfl⟩ := List.mem_map.mp mem
    simp only [Bool.or_eq_true, List.any_eq_true, List.mem_filter, Bool.and_eq_true, decide_eq_true_eq]
    rintro (⟨t, ⟨-, other⟩, own, -⟩ | ⟨p, ⟨-, other⟩, own, -⟩)
    · exact other own
    · exact other own
  case bulk =>
    have left := (List.mem_filter.mp mem).2
    intro bulk
    have ended : s.endsUse n o.use = true := State.endsUse_of_bulkOf bulk
    rw [ended] at left
    cases left

/-- Settles O53: each command by what it comes to, check by check, and the end of a teardown by what its last steps leave. -/
theorem contextsAndQueuesComeAndGo : Obligations.ContextsAndQueuesComeAndGo := by
  intro s q c far u refused
  refine ⟨?none, fun takes => ?createCtx, fun ⟨m, nonzero, bound, free⟩ last => ?number, fun takes => ?createQueue, fun takes => ?destroyQueue,
    fun k place => Queue.leave_last, fun k place => Queue.leave_others, fun i => ?freeQueue, fun takes => ?destroyCtx, fun n why up => ?begins,
    fun n f nonzero live fence fab imports known => ?lost, fun n => ⟨?unleased, ?leased⟩, fun forme job member => ?loss, fun n => ?drain,
    State.freeCtx_free s, fun n i => State.freeCtxParts_queue, State.freeCtxParts_part s⟩
  case none =>
    have quiet {i : Instr} {opc : Nat} {f : State → Cmd → State} (row : exec i s = s.answer (s.onCmd q opc f)) (none : s.takesNone q opc) :
        exec i s = .next s := exec_eq_next row (State.onCmd_none none f) rfl
    simp only [List.forall_mem_cons, List.not_mem_nil, false_imp_iff, implies_true, and_true]
    exact ⟨quiet rfl, quiet rfl, quiet rfl, quiet rfl⟩
  case createCtx =>
    intro r home p n
    refine ⟨fun sealed other => exec_eq_answer rfl ((State.createCtx_takes takes far).trans (if_pos ⟨sealed, other⟩)), fun opened =>
      ⟨fun d why => exec_eq_answer rfl (State.createCtx_refused takes opened why),
        fun may full => exec_eq_answer rfl (State.createCtx_unsaved takes opened may full), fun w may granted => ?_⟩⟩
    obtain ⟨js, fs, entered⟩ := w.enterCtx_eq n (s.newCtx r p)
    obtain ⟨cs, ps, saved⟩ := State.grantSaves_eq granted
    have kept (m : Nat) : w.ctx m = s.ctx m := by rw [saved]; rfl
    exact ⟨w.enterCtx n (s.newCtx r p), exec_eq_answer rfl (State.createCtx_granted takes opened may granted), by rw [entered], by rw [entered],
      fun m other => ((State.ctx_enterCtx _ _ _ m).trans (if_neg other)).trans (kept m), (State.ctx_enterCtx _ _ _ n).trans (if_pos rfl),
      fun f known => State.mem_rotation_enterCtx w n (s.newCtx r p) known, State.job_enterCtx w n (s.newCtx r p)⟩
  case number => exact State.freeCtxFrom_free nonzero bound free _ _ last (by unfold ctxSteps; split <;> omega)
  case createQueue =>
    intro n log base cr lies held most free
    refine ⟨fun st status => exec_eq_answer rfl (State.createQueue_status takes status), fun live short => ?_, fun live long loose => ?_,
      fun live long fits full => ?_, fun i live long fits room found => ?_⟩
    all_goals have create := State.createQueue_live takes live
    · exact exec_eq_answer rfl (create.trans (if_pos short))
    all_goals have create := create.trans (if_neg (Nat.not_lt_of_le long))
    · exact exec_eq_answer rfl (create.trans (if_pos loose))
    all_goals have create := create.trans (if_neg (not_not_intro fits))
    · obtain most | none := full
      · exact exec_eq_answer rfl (create.trans (if_pos most))
      · by_cases most : most ≤ held
        · exact exec_eq_answer rfl (create.trans (if_pos most))
        · exact exec_eq_answer rfl ((create.trans (if_neg most)).trans (congrArg (Option.elim · _ _) none))
    · exact exec_eq_answer rfl ((create.trans (if_neg (Nat.not_le_of_gt room))).trans (congrArg (Option.elim · _ _) found))
  case destroyQueue =>
    intro i
    have destroy := State.destroyQueue_takes takes
    refine ⟨fun bad => exec_eq_answer rfl (destroy.trans (if_pos bad)), fun nonzero used stays => ?_⟩
    have destroy := destroy.trans (if_neg (not_or_intro nonzero
      (not_or_intro (fun unused => Bool.false_ne_true (unused.symm.trans used)) (Bool.eq_false_iff.mp stays))))
    exact ⟨fun empty => exec_eq_answer rfl (destroy.trans (if_pos empty)), fun runs => exec_eq_answer rfl (destroy.trans (if_neg runs))⟩
  case freeQueue =>
    have same := State.queue_freeQueue s i i
    rw [if_pos rfl] at same
    exact ⟨by rw [same]; rfl, by rw [same]; rfl, by rw [same], fun j other => (State.queue_freeQueue s i j).trans (if_neg other)⟩
  case destroyCtx =>
    intro a own n
    have destroy := State.destroyCtx_takes takes
    have mine (may : q.val = 0 ∨ n = own) := destroy.trans (if_neg fun other => may.elim other.1 other.2)
    refine ⟨fun context other => exec_eq_answer rfl (destroy.trans (if_pos ⟨context, other⟩)),
      fun may none => exec_eq_answer rfl ((mine may).trans (if_pos none)), fun may nonzero tearing => ?_, fun may nonzero up => ?_⟩
    · have used : (s.ctx n).state ≠ .free := by rw [tearing]; decide
      exact exec_eq_answer rfl ((mine may).trans ((if_neg (not_or_intro nonzero used)).trans (if_pos tearing)))
    · have used : (s.ctx n).state ≠ .free ∧ (s.ctx n).state ≠ .tearing := by obtain up | up := up <;> rw [up] <;> decide
      exact exec_eq_answer rfl ((mine may).trans ((if_neg (not_or_intro nonzero used.1)).trans (if_neg used.2)))
  case begins =>
    unfold State.beginTeardown
    obtain live | lost := up
    · rw [live] <;> rfl
    · rw [lost] <;> rfl
  case lost =>
    have calm := Calm.loseCtx nonzero live
    rw [imports, List.foldl_cons, List.foldl_nil, State.releaseName_here s n fence fab] at calm
    have released := State.fence_releaseImport_live known
    exact ⟨(calm.imports f).trans (congrArg Fence.imports released), (calm.state f).trans ((congrArg Fence.state released).trans known)⟩
  case unleased =>
    exact fun gone => exec_eq_next rfl (if_neg (by obtain free | away := gone <;> simp [*])) rfl
  case leased => exact fun lease here => exec_eq_answer rfl (if_pos (by simp [lease, here]))
  case loss =>
    exact ⟨fun slave => exec_eq_answer rfl (State.lossReport_slave slave), fun f known master => exec_eq_answer rfl (State.lossReport_master known master)⟩
  case drain =>
    refine ⟨fun up => ⟨?_, ?_⟩, fun tearing out => ?_, fun tearing none => ⟨?_, ?_⟩, fun tearing out => ?_⟩
    · exact exec_eq_next rfl (if_neg fun drains => up drains.1) rfl
    · exact exec_eq_next rfl (if_neg fun drains => up drains.1) rfl
    · exact exec_eq_next rfl (if_neg (by simp [out])) rfl
    · exact exec_eq_next rfl (if_neg (by simp [none])) rfl
    · exact exec_eq_answer rfl (if_pos ⟨tearing, by simp [none]⟩)
    · exact ⟨s.drained n.toNat, exec_eq_answer rfl (State.teardownForced_outstanding tearing out), State.outstandingOf_drained _ _, rfl, rfl, rfl⟩

end Sys2Proof.Machine
end

section
/-! PROOFS. Writes to the register window (R518 to R522, R527 to R531): the block that takes a word, and what each register with a row of its own
makes of it. -/

namespace Sys2Proof.Machine

/-! ### Fields of a word -/

theorem bits_low (v hi : Nat) : bits v hi 0 = v % 2 ^ (hi + 1) := by simp [bits]

/-- A field at the bottom of a word that is wide enough holds the value. -/
theorem bits_of_lt {v hi : Nat} (fits : v < 2 ^ (hi + 1)) : bits v hi 0 = v := by rw [bits_low, Nat.mod_eq_of_lt fits]

theorem b2n_lt_two (b : Bool) : b2n b < 2 := by cases b <;> decide

theorem bit_zero_b2n_add (b : Bool) (n : Nat) : bit (b2n b + 2 * n) 0 = b := by
  rw [bit, Nat.testBit_zero, Nat.add_mul_mod_self_left]
  cases b <;> rfl

theorem bit_succ_b2n_add (b : Bool) (n i : Nat) : bit (b2n b + 2 * n) (i + 1) = bit n i := by
  have half : (b2n b + 2 * n) / 2 = n := by
    have := b2n_lt_two b
    omega
  rw [bit, Nat.testBit_succ, half, bit]

theorem bits_b2n_add (b : Bool) (n : Nat) : bits (b2n b + 2 * n) 4 1 = n % 16 := by
  have small := b2n_lt_two b
  have half : (b2n b + 2 * n) / 2 = n := by omega
  simp [bits, half]

/-- A word of fields of one width holds in its field `i` the value listed at place `i`. -/
theorem packFields_div_mod (w : Nat) (l : List Nat) (i : Nat) :
    packFields (l.map fun v => (v, w)) / 2 ^ (w * i) % 2 ^ w = l.getD i 0 % 2 ^ w := by
  induction l generalizing i with
  | nil => simp [packFields]
  | cons v l ih =>
    cases i with
    | zero => simp [packFields]
    | succ i =>
      have rest : packFields ((v :: l).map fun v => (v, w)) / 2 ^ w = packFields (l.map fun v => (v, w)) := by
        have positive := Nat.two_pow_pos w
        rw [List.map_cons, packFields, Nat.add_mul_div_left _ _ positive, Nat.div_eq_of_lt (Nat.mod_lt _ positive), Nat.zero_add]
      rw [Nat.mul_succ, Nat.add_comm, Nat.pow_add, ← Nat.div_div_eq_div_mul, rest, ih, List.getD_cons_succ]

/-- Entry `i` of a word of 16-bit entries, as the routing table has them. -/
theorem bits_packFields_range (f : Nat → Nat) {n i : Nat} (inside : i < n) :
    bits (packFields ((List.range n).map fun j => (f j, 16))) (16 * i + 15) (16 * i) = f i % 2 ^ 16 := by
  have width : 16 * i + 15 + 1 - 16 * i = 16 := by omega
  have field := packFields_div_mod 16 ((List.range n).map f) i
  rw [List.map_map] at field
  rw [bits, width]
  simpa [List.getD_eq_getElem?_getD, inside, Function.comp_def] using field

/-! ### Blocks and offsets -/

section Places
variable {ofs o : Nat}

theorem blkOf_cluster {c : Nat} (place : ofs = (Blk.cluster c).base + o) (known : c < 48) (inside : o < 0x10000) :
    blkOf ofs = some (.cluster c, o) := by
  simp only [Blk.base] at place
  have number : (ofs - 0x100000) / 0x10000 = c := by omega
  have rest : ofs % 0x10000 = o := by omega
  rw [blkOf, if_neg (by omega), if_pos (by omega), number, rest]

theorem blkOf_link {l : Nat} (place : ofs = (Blk.link l).base + o) (known : l < 16) (inside : o < 0x10000) :
    blkOf ofs = some (.link l, o) := by
  simp only [Blk.base] at place
  have number : (ofs - 0x400000) / 0x10000 = l := by omega
  have rest : ofs % 0x10000 = o := by omega
  rw [blkOf, if_neg (by omega), if_neg (by omega), if_pos (by omega), number, rest]

theorem blkOf_cringHead {r : Nat} (known : r < 4096) : blkOf (0x560000 + 8 * r) = none := by
  simp only [blkOf, show ∀ n, n ≤ 0x560000 → ¬ 0x560000 + 8 * r < n by omega, Nat.reduceLeDiff, if_false]
  exact if_neg (by omega)

theorem blkOf_doorbell (q : Nat) : blkOf (0x600000 + 8 * q) = none := by
  simp only [blkOf, show ∀ n, n ≤ 0x600000 → ¬ 0x600000 + 8 * q < n by omega, Nat.reduceLeDiff, if_false, and_false]

end Places

/-! ### Where a word goes -/

/-- A write of one word past the header of a block that takes it. -/
def State.blockWrite (s : State) (m : Master) (b : Blk) (o v : Nat) : State × Bool :=
  match b with
  | .module => s.moduleWrite m o v
  | .cluster c => s.clusterWrite m c o v
  | .link l => s.linkWrite m l o v
  | .port p => s.portWrite m p o v
  | .net n => (s.netWrite n o v, false)
  | .fabric d => (s.fabricWrite d o v, false)

section Write
variable {s : State} {m : Master}

/-- While the islands are in reset a write comes to nothing (R32). -/
theorem State.regWrite_down (down : s.windowUp m = false) (ofs v : Nat) : s.regWrite m ofs v = s := by
  simp [State.regWrite, State.regWriteR, down]

theorem State.registerWrite_aligned {ofs : Nat} (aligned : ofs % 8 = 0) (v : Nat) : s.registerWrite m ofs v = s.regWrite m ofs v :=
  if_pos aligned

theorem State.registerWrite_unaligned {ofs : Nat} (unaligned : ofs % 8 ≠ 0) (v : Nat) : s.registerWrite m ofs v = s :=
  if_neg unaligned

theorem State.registerWrite_down (down : s.windowUp m = false) (ofs v : Nat) : s.registerWrite m ofs v = s := by
  rw [State.registerWrite, State.regWrite_down down, ite_self]

theorem State.takeClear_of_not {b : Blk} (none : (s.hdr b).clear = false) : s.takeClear b = s := by
  simp [State.takeClear, none]

section Block
variable {b : Blk} {ofs o : Nat} (place : blkOf ofs = some (b, o))
include place

/-- A write to a clamped block is counted in the header of the module block (R522). -/
theorem State.regWrite_clamped (up : s.windowUp m = true) (clamped : s.blkClamped b = true) (v : Nat) :
    s.regWrite m ofs v = s.refuse 0 ofs Why.clamped m := by
  simp [State.regWrite, State.regWriteR, up, place, clamped, State.refusedAt, Blk.base]

variable (takes : s.takesWrites m b)
include takes

theorem State.regWrite_header (header : o < 0x1000) (other : o ≠ 8) (v : Nat) : s.regWrite m ofs v = s := by
  obtain ⟨up, unclamped, noClear⟩ := takes
  simp [State.regWrite, State.regWriteR, up, place, unclamped, State.takeClear_of_not noClear, header, other]

theorem State.regWrite_page (page : 0x1000 ≤ o) (v : Nat) : s.regWrite m ofs v = (s.blockWrite m b o v).1 := by
  obtain ⟨up, unclamped, noClear⟩ := takes
  have other : o ≠ 8 := by omega
  simp only [State.regWrite, State.regWriteR, up, place, unclamped, State.takeClear_of_not noClear, other, Nat.not_lt.mpr page]
  cases b <;> rfl

end Block

/-- A 0 in the count of refused writes waits to clear it (R527). -/
theorem State.regWrite_clearRefused {b : Blk} {ofs v : Nat} (place : blkOf ofs = some (b, 8)) (takes : s.takesWrites m b) (zero : v % 2 ^ 32 = 0) :
    s.regWrite m ofs v = { s with hdrs := Tbl.mod BlockHeader.reset s.hdrs b.base fun h => { h with clear := true } } := by
  obtain ⟨up, unclamped, noClear⟩ := takes
  have clears : clears v 31 0 = true := by rw [clears, bits_low, zero]; rfl
  simp [State.regWrite, State.regWriteR, up, place, unclamped, State.takeClear_of_not noClear, clears]

section Outside
variable (up : s.windowUp m = true)
include up

theorem State.regWrite_cringHead {r : Nat} (known : r < 4096) (v : Nat) : s.regWrite m (0x560000 + 8 * r) v = s.headWrite r v := by
  have inside : 0x560000 ≤ 0x560000 + 8 * r ∧ 0x560000 + 8 * r < 0x568000 := by omega
  have number : (0x560000 + 8 * r - 0x560000) / 8 = r := by omega
  simp only [State.regWrite, State.regWriteR, up, blkOf_cringHead known, if_pos inside, number]
  rfl

theorem State.regWrite_doorbell {q : Nat} (known : q < 8192) (v : Nat) :
    s.regWrite m (0x600000 + 8 * q) v = s.doorbell q v (s.bellConn m q) := by
  have outside : ¬ (0x560000 ≤ 0x600000 + 8 * q ∧ 0x600000 + 8 * q < 0x568000) := by omega
  have inside : 0x600000 ≤ 0x600000 + 8 * q ∧ 0x600000 + 8 * q < 0x610000 := by omega
  have number : (0x600000 + 8 * q - 0x600000) / 8 = q := by omega
  simp only [State.regWrite, State.regWriteR, up, blkOf_doorbell, if_neg outside, if_pos inside, number]
  rfl

end Outside

/-! ### The module block -/

section Module
variable (takes : s.takesWrites m .module)
include takes

theorem State.regWrite_module {o : Nat} (page : 0x1000 ≤ o) (inside : o < 0x100000) (v : Nat) :
    s.regWrite m o v = (s.moduleWrite m o v).1 := State.regWrite_page (if_pos inside) takes page v

theorem State.capWrite_takes (w : Nat) : s.capWrite m w =
    let x := w % 2 ^ 13
    if x < 2000 ∨ 5000 < x then s.refuse 0 0x4000 Why.range m else { s with power := { s.power with capNext := some x } } := by
  rw [State.capWrite, State.regWrite_module takes (by decide) (by decide)]
  have row : s.moduleWrite m 0x4000 w = s.powerWrite m 0x4000 w := rfl
  rw [row, State.powerWrite, if_pos rfl, bits_low, apply_ite Prod.fst]
  rfl

theorem State.errConsWrite_takes {v : Nat} (word : v < 2 ^ 32) : s.errConsWrite m v =
    if (v + 2 ^ 32 - s.errCons) % 2 ^ 32 ≤ s.errUsed then { s with errCons := v } else s := by
  rw [State.errConsWrite, State.regWrite_module takes (by decide) (by decide)]
  have row : (s.moduleWrite m 0x3008 v).1 = s.recoveryWrite 0x3008 v := rfl
  rw [row, State.recoveryWrite, if_pos rfl, bits_of_lt word]

/-- ADMIN_EN is written with ADMIN_LOG at its present value, which the write takes where it is a size that fits. -/
theorem State.adminEnWrite_takes (en : Bool) (small : 6 ≤ s.adminLog) (large : s.adminLog ≤ 15)
    (fits : s.adminBase + 64 * 2 ^ s.adminLog ≤ adminRegion) : s.adminEnWrite m en = { s with adminEn := en } := by
  rw [State.adminEnWrite, State.regWrite_module takes (by decide) (by decide)]
  have row (v : Nat) : s.moduleWrite m 0x2000 v = s.hostWrite18 m 0x2000 v := rfl
  have log : bits (b2n en + 2 * s.adminLog) 4 1 = s.adminLog := by rw [bits_b2n_add, Nat.mod_eq_of_lt (by omega)]
  have same : ¬ (s.adminLog ≠ s.adminLog ∧ s.adminOn = true) := fun changed => changed.1 rfl
  have range : ¬ (s.adminLog < 6 ∨ 15 < s.adminLog ∨ adminRegion < s.adminBase + 64 * 2 ^ s.adminLog) := by omega
  rw [row, State.hostWrite18, if_pos rfl, log, if_neg same, if_neg range, bit_zero_b2n_add]

theorem State.pmControlWrite_takes (auto start stop : Bool) :
    s.regWrite m 0x5008 (b2n auto + 2 * (b2n start + 2 * b2n stop)) = s.pmWrite auto start stop := by
  have row (v : Nat) : (s.moduleWrite m 0x5008 v).1 = s.pmWrite (bit v 0) (bit v 1) (bit v 2) := rfl
  have last : bit (b2n stop) 0 = stop := bit_zero_b2n_add stop 0
  rw [State.regWrite_module takes (by decide) (by decide), row, bit_zero_b2n_add, bit_succ_b2n_add, bit_zero_b2n_add, bit_succ_b2n_add,
    bit_succ_b2n_add, last]

theorem State.pmStartWrite_takes (v : Bool) : s.pmStartWrite m v = { s with pm := { s.pm with start := s.pm.start || v } } := by
  have write := State.pmControlWrite_takes takes s.pm.auto v false
  simpa [State.pmWrite, State.pmStartWrite, b2n] using write

theorem State.pmStopWrite_takes (v : Bool) : s.pmStopWrite m v =
    if v then { s with pm := { s.pm with start := false, stop := true } } else s := by
  have word : b2n s.pm.auto + 4 * b2n v = b2n s.pm.auto + 2 * (b2n false + 2 * b2n v) := by
    have none : b2n false = 0 := rfl
    omega
  rw [State.pmStopWrite, word, State.pmControlWrite_takes takes]
  cases v <;> simp [State.pmWrite]

theorem State.pmAutoWrite_takes (v : Bool) : s.pmAutoWrite m v = { s with pm := { s.pm with auto := v } } := by
  have write := State.pmControlWrite_takes takes v false false
  simpa [State.pmWrite, State.pmAutoWrite, b2n] using write

end Module

/-! ### Cluster blocks -/

theorem State.clusterWrite_regulator {c o : Nat} (regs : 0xC000 ≤ o) (inside : o < 0xF000) (v : Nat) :
    s.clusterWrite m c o v = s.regulatorWrite m c o v := by
  rw [State.clusterWrite, if_neg (by omega), if_neg (by omega), if_neg (by omega), if_neg (by omega), if_neg (by omega), if_neg (by omega),
    if_pos ⟨regs, inside⟩]

section Cluster
variable {c : ClusterId} (takes : s.takesWrites m (.cluster c))
include takes

theorem State.csmWaysWrite_takes (w : Nat) : s.csmWaysWrite m c w = (s.waysWrite m c w).1 := by
  have place : blkOf (0x108000 + c.val * 0x10000) = some (.cluster c, 0x8000) :=
    blkOf_cluster (by simp only [Blk.base]; omega) c.isLt (by decide)
  rw [State.csmWaysWrite, State.regWrite_page place takes (by decide)]
  rfl

theorem State.commitWrite_takes {ch : Nat} (home : ch / 8 = c) (v : Bool) :
    s.commitWrite m ch v = if v then s.commit ch else s := by
  have place : blkOf (0x100000 + ch / 8 * 0x10000 + 0xE000 + 64 * (ch % 8) + 8) = some (.cluster c, 0xE008 + 64 * (ch % 8)) :=
    blkOf_cluster (by simp only [Blk.base]; omega) c.isLt (by omega)
  have row : s.clusterWrite m c (0xE008 + 64 * (ch % 8)) (b2n v) = s.regulatorWrite m c (0xE008 + 64 * (ch % 8)) (b2n v) :=
    State.clusterWrite_regulator (by omega) (by omega) _
  have channel : 8 * c.val + (0xE008 + 64 * (ch % 8) - 0xE000) / 64 = ch := by omega
  have write : bit (b2n v) 0 = v := bit_zero_b2n_add v 0
  rw [State.commitWrite, State.regWrite_page place takes (by omega), State.blockWrite, row, State.regulatorWrite, if_neg (by omega),
    if_pos (by omega), channel, if_pos (by omega), write]

end Cluster

/-! ### Link blocks -/

section Link
variable {l : LinkId} (takes : s.takesWrites m (.link l))
include takes

theorem State.linkControlWrite_takes (retrain disable : Bool) : s.regWrite m (0x401008 + l * 0x10000) (b2n retrain + 2 * b2n disable) =
    if retrain && !disable then (s.disableLink l disable).retrain l true else s.disableLink l disable := by
  have place : blkOf (0x401008 + l.val * 0x10000) = some (.link l, 0x1008) :=
    blkOf_link (by simp only [Blk.base]; omega) l.isLt (by decide)
  have last : bit (b2n disable) 0 = disable := bit_zero_b2n_add disable 0
  rw [State.regWrite_page place takes (by decide), State.blockWrite, State.linkWrite, if_pos rfl, bit_zero_b2n_add, bit_succ_b2n_add, last]
  simp only [Bool.and_eq_true]

theorem State.retrainWrite_takes (v : Bool) : s.retrainWrite m l v =
    let u := s.disableLink l (s.link l).disable
    if v && !(s.link l).disable then u.retrain l true else u := State.linkControlWrite_takes takes v _

theorem State.disableWrite_takes (v : Bool) : s.disableWrite m l v = s.disableLink l v := by
  have word : 2 * b2n v = b2n false + 2 * b2n v := by simp [b2n]
  rw [State.disableWrite, word, State.linkControlWrite_takes takes]
  rfl

theorem State.walkStartWrite_takes (first : l.val = 0) (v : Bool) : s.walkStartWrite m v = if v then s.walkStart true m else s := by
  have place : blkOf 0x401018 = some (.link l, 0x1018) := by rw [first]; rfl
  rw [State.walkStartWrite, State.regWrite_page place takes (by decide), State.blockWrite, first]
  cases v <;> rfl

end Link

/-! ### The routing table (R468) -/

theorem State.mask_routeWrite (s : State) (a mask d : Nat) : (s.routeWrite a mask).mask d = if d = a then mask % 2 ^ 16 else s.mask d := by
  unfold State.routeWrite State.mask
  split
  case isTrue none => rw [Tbl.get_del, none]
  case isFalse => rw [Tbl.get_set]

/-- The entries of one word of the routing table, written in their order. -/
def State.routeWrites (s : State) (a n : Nat) (f : Nat → Nat) : State := (List.range n).foldl (fun s i => s.routeWrite (a + i) (f i)) s

theorem State.routeWrites_succ (s : State) (a n : Nat) (f : Nat → Nat) :
    s.routeWrites a (n + 1) f = (s.routeWrites a n f).routeWrite (a + n) (f n) := by
  rw [State.routeWrites, List.range_succ, List.foldl_append]
  rfl

theorem State.mask_routeWrites (s : State) (a n : Nat) (f : Nat → Nat) (d : Nat) :
    (s.routeWrites a n f).mask d = if a ≤ d ∧ d < a + n then f (d - a) % 2 ^ 16 else s.mask d := by
  induction n with
  | zero => exact (if_neg (by omega)).symm
  | succ n ih =>
    rw [State.routeWrites_succ, State.mask_routeWrite, ih]
    by_cases last : d = a + n
    · subst last
      rw [if_pos rfl, if_pos (by omega), Nat.add_sub_cancel_left]
    · rw [if_neg last]
      have same : (a ≤ d ∧ d < a + (n + 1)) ↔ (a ≤ d ∧ d < a + n) := by omega
      simp only [same]

/-- Writing entries changes the routing table, and nothing else. -/
theorem State.routeWrites_eq (s : State) (a n : Nat) (f : Nat → Nat) : s.routeWrites a n f = { s with routing := (s.routeWrites a n f).routing } := by
  induction n with
  | zero => rfl
  | succ n ih =>
    rw [State.routeWrites_succ, State.routeWrite, ih]

section Route
variable {l : LinkId} (takes : s.takesWrites m (.link l)) {a : Nat} (home : a / 4096 = l)
include takes home

/-- ROUTING_ENTRY_WRITE writes the four entries of its word: its own anew, and its neighbours at their present values. -/
theorem State.routeRow_takes (mask : Nat) : ∃ f : Nat → Nat, s.routeRow m a mask = s.routeWrites (a / 4 * 4) 4 f ∧
    ∀ i, i < 4 → f i = (if a / 4 * 4 + i = a then mask else s.mask (a / 4 * 4 + i)) % 2 ^ 16 := by
  have place : blkOf (0x408000 + a / 4096 * 0x10000 + a % 4096 * 2 / 8 * 8) = some (.link l, 0x8000 + a % 4096 * 2 / 8 * 8) :=
    blkOf_link (by simp only [Blk.base]; omega) l.isLt (by omega)
  have table : 0x8000 ≤ 0x8000 + a % 4096 * 2 / 8 * 8 ∧ 0x8000 + a % 4096 * 2 / 8 * 8 < 0xA000 := by omega
  have first : 4096 * l.val + (0x8000 + a % 4096 * 2 / 8 * 8 - 0x8000) / 2 = a / 4 * 4 := by omega
  refine ⟨_, ?_, fun i inside => bits_packFields_range (fun i => if a / 4 * 4 + i = a then mask else s.mask (a / 4 * 4 + i)) inside⟩
  rw [State.routeRow, State.regWrite_page place takes (by omega), State.blockWrite, State.linkWrite, if_neg (by omega), if_neg (by omega),
    if_pos table, first]
  rfl

theorem State.mask_routeRow {mask : Nat} (word : mask < 2 ^ 16) : (s.routeRow m a mask).mask a = mask := by
  obtain ⟨f, row, fields⟩ := State.routeRow_takes takes home mask
  have own : a / 4 * 4 + (a - a / 4 * 4) = a := by omega
  rw [row, State.mask_routeWrites, if_pos (by omega), fields _ (by omega), if_pos own, Nat.mod_mod, Nat.mod_eq_of_lt word]

theorem State.mask_routeRow_other (mask : Nat) {d : Nat} (other : d ≠ a) (words : ∀ x, s.mask x < 2 ^ 16) :
    (s.routeRow m a mask).mask d = s.mask d := by
  obtain ⟨f, row, fields⟩ := State.routeRow_takes takes home mask
  rw [row, State.mask_routeWrites]
  by_cases neighbour : a / 4 * 4 ≤ d ∧ d < a / 4 * 4 + 4
  · have place : a / 4 * 4 + (d - a / 4 * 4) = d := by omega
    rw [if_pos neighbour, fields _ (by omega), place, if_neg other, Nat.mod_mod, Nat.mod_eq_of_lt (words d)]
  · rw [if_neg neighbour]

theorem State.routeRow_eq (mask : Nat) : s.routeRow m a mask = { s with routing := (s.routeRow m a mask).routing } := by
  obtain ⟨f, row, -⟩ := State.routeRow_takes takes home mask
  rw [row]
  exact State.routeWrites_eq _ _ _ _

end Route

/-! ### CSM_WAYS (R213, R531) -/

/-- Taking out bytes of other addresses does not change what an address reads. -/
theorem Mem.read_filter (p : Host.Cell → Bool) (a : Nat) (keeps : ∀ b, p (a, b) = true) (m : Mem) : Mem.read (m.filter p) a = Mem.read m a := by
  induction m with
  | nil => rfl
  | cons e r ih =>
    obtain ⟨j, b⟩ := e
    by_cases here : j = a
    · subst here
      simp [keeps, Mem.read]
    · by_cases kept : p (j, b) <;> simp [kept, Mem.read, here, ih]

theorem State.waysWrite_running {c w : Nat} (five : w < 2 ^ 5) (changes : w ≠ (s.cluster c).csmWays) (runs : s.runs (.cluster c) = true) :
    (s.waysWrite m c w).1 = s.refuse (Blk.cluster c).base 0x8000 Why.running m := by
  rw [State.waysWrite, bits_of_lt five, if_pos ⟨changes, runs⟩]
  rfl

theorem State.waysWrite_set {c w : Nat} (known : w ≤ 16) (may : s.runs (.cluster c) = false ∨ w = (s.cluster c).csmWays) :
    (s.waysWrite m c w).1 = s.setWays c w := by
  have five : w < 2 ^ 5 := by omega
  have taken : ¬ (w ≠ (s.cluster c).csmWays ∧ s.runs (.cluster c) = true) := by
    rintro ⟨changes, runs⟩
    obtain idle | same := may
    · exact absurd runs (by simp [idle])
    · exact changes same
  rw [State.waysWrite, bits_of_lt five, if_neg taken, if_neg (Nat.not_lt.mpr known)]

section Ways
variable (s) (c w : Nat)

theorem State.csmWays_setWays : ((s.setWays c w).cluster c).csmWays = w := by
  by_cases same : (s.cluster c).csmWays = w <;> simp [State.setWays, same]

variable {w} (changes : w ≠ (s.cluster c).csmWays)
include changes

theorem State.cache_setWays : ((s.setWays c w).cluster c).cache = [] := by
  simp [State.setWays, changes.symm]

theorem State.read_scratch_setWays {a : Nat} (below : a < (16 - w) * 524288) :
    Mem.read ((s.setWays c w).cluster c).scratch a = Mem.read (s.cluster c).scratch a := by
  have scratch : ((s.setWays c w).cluster c).scratch = (s.cluster c).scratch.filter fun e => decide (e.1 < (16 - w) * 524288) := by
    simp [State.setWays, changes.symm]
  rw [scratch]
  exact Mem.read_filter _ a (fun _ => decide_eq_true below) _

end Ways

/-! ### Heads of completion rings (R494) -/

/-- What writing groups to a ring leaves: the queues, the cores, and the heads of all rings. -/
structure RingWritten (s t : State) : Prop where
  queues : t.queues = s.queues
  cores : t.cores = s.cores
  head : ∀ r, (t.cring r).head = (s.cring r).head

namespace RingWritten

theorem refl (s : State) : RingWritten s s := ⟨rfl, rfl, fun _ => rfl⟩

theorem trans {s t u : State} (a : RingWritten s t) (b : RingWritten t u) : RingWritten s u :=
  ⟨b.queues.trans a.queues, b.cores.trans a.cores, fun r => (b.head r).trans (a.head r)⟩

theorem of_eq {s t : State} (queues : t.queues = s.queues) (cores : t.cores = s.cores) (rings : t.crings = s.crings) : RingWritten s t :=
  ⟨queues, cores, fun r => by rw [State.cring, rings, State.cring]⟩

theorem queue {s t : State} (a : RingWritten s t) (q : Nat) : t.queue q = s.queue q := by rw [State.queue, a.queues, State.queue]

theorem ite {s t u : State} {p : Prop} [Decidable p] (a : RingWritten s t) (b : RingWritten s u) : RingWritten s (if p then t else u) := by
  split
  · exact a
  · exact b

theorem modCring (s : State) (r : Nat) (f : CRing → CRing) (keeps : (f (s.cring r)).head = (s.cring r).head) : RingWritten s (s.modCring r f) := by
  refine ⟨rfl, rfl, fun i => ?_⟩
  rw [State.cring_modCring]
  split
  case isTrue same => rw [keeps, same]
  case isFalse => rfl

theorem startRdma (s : State) (o : RdmaOut) : RingWritten s (s.startRdma o) := .ite (.of_eq rfl rfl rfl) (.of_eq rfl rfl rfl)

theorem startNumbered (s : State) (o : RdmaOut) : RingWritten s (s.number.2.startRdma o) :=
  .trans (t := s.number.2) (.of_eq rfl rfl rfl) (.startRdma _ _)

theorem writeEntries (s : State) (r i : Nat) (es : List (List Word64)) : RingWritten s (s.writeEntries r i es) :=
  .ite (.startNumbered _ _) (.of_eq rfl rfl rfl)

theorem notifyHost (s : State) (r : Nat) : RingWritten s (s.notifyHost r) := .ite (.startNumbered _ _) (.of_eq rfl rfl rfl)

/-- The count of a sealed group enters the session and its key. -/
theorem sealed (s : State) (p : Prop) [Decidable p] (sessions : Tbl Session) (keys : Tbl KeyEntry) :
    RingWritten s (if p then { s with sessions := sessions, keys := keys } else s) := .ite (.of_eq rfl rfl rfl) (.refl _)

theorem writeGroup (s : State) (r : Nat) (g : CGroup) : RingWritten s (s.writeGroup r g) := by
  unfold State.writeGroup
  dsimp only
  refine .trans ?_ (.ite (.notifyHost _ _) (.refl _))
  refine .trans ?_ (.modCring _ _ _ rfl)
  refine .trans ?_ (.sealed _ _ _ _)
  exact .trans (.ite (.refl _) (.writeEntries _ _ _ _)) (.writeEntries _ _ _ _)

theorem flushGroups (s : State) (r : Nat) (gs : List CGroup) : RingWritten s (s.flushGroups r gs) := by
  induction gs generalizing s with
  | nil => exact .modCring _ _ _ rfl
  | cons g gs ih => exact .ite (.trans (.writeGroup _ _ _) (ih _)) (.modCring _ _ _ rfl)

theorem flushRing (s : State) (r : Nat) : RingWritten s (s.flushRing r) := .flushGroups _ _ _

end RingWritten

theorem State.headWrite_undefined {r : Nat} (undefined : (s.cring r).defined = false) (v : Nat) : s.headWrite r v = s := by
  simp [State.headWrite, undefined]

section Head
variable {r h : Nat} (defined : (s.cring r).defined = true) {notify : Bool} {v : Nat} (head : bits v 16 0 = h)
include defined head

theorem State.headWrite_returns (notifies : bit v 17 = notify)
    (upTo : (h + 2 ^ 17 - (s.cring r).head) % 2 ^ 17 ≤ ((s.cring r).tail + 2 ^ 17 - (s.cring r).head) % 2 ^ 17) :
    s.headWrite r v = (s.modCring r fun k => { k with head := h, notify := notify }).flushRing r := by
  rw [State.headWrite, defined, head, notifies]
  simp only [decide_eq_true upTo, if_true, Bool.not_true, Bool.false_eq_true, if_false]

/-- A HEAD beyond TAIL leaves the one that stands. -/
theorem State.headWrite_beyond
    (beyond : ((s.cring r).tail + 2 ^ 17 - (s.cring r).head) % 2 ^ 17 < (h + 2 ^ 17 - (s.cring r).head) % 2 ^ 17) :
    RingWritten s (s.headWrite r v) := by
  have refused : ¬ (h + 2 ^ 17 - (s.cring r).head) % 2 ^ 17 ≤ ((s.cring r).tail + 2 ^ 17 - (s.cring r).head) % 2 ^ 17 := Nat.not_le.mpr beyond
  rw [State.headWrite, defined, head]
  simp only [decide_eq_false refused, if_false, Bool.not_true, Bool.false_eq_true]
  refine .trans ?_ (.flushRing _ _)
  refine .trans ?_ (.modCring _ _ _ rfl)
  exact .of_eq rfl rfl rfl

end Head

/-- The word that HEAD writes: the index, and the bit that arms a notification clear. -/
theorem fields_of_head {h : Nat} (word : h < 2 ^ 17) : bits (h % 2 ^ 17) 16 0 = h ∧ bit (h % 2 ^ 17) 17 = false := by
  rw [Nat.mod_eq_of_lt word]
  exact ⟨bits_of_lt word, Nat.testBit_lt_two_pow word⟩

/-- The word that NOTIFY writes: the index, and that bit set. -/
theorem fields_of_notify {h : Nat} (word : h < 2 ^ 17) : bits (h % 2 ^ 17 + 2 ^ 17) 16 0 = h ∧ bit (h % 2 ^ 17 + 2 ^ 17) 17 = true := by
  rw [Nat.mod_eq_of_lt word]
  refine ⟨by rw [bits_low]; omega, ?_⟩
  rw [bit, Nat.add_comm, Nat.testBit_two_pow_add_eq, Nat.testBit_lt_two_pow word]
  rfl

/-! ### ADMIN_EN and the doorbells of queue 0 (R290, R292) -/

/-- What every doorbell of queue 0 does first: a clear that waits and ADMIN_EN take effect. -/
def State.bellTaken (s : State) : State :=
  let t := if s.staleClear then { s with staleDb := 0, staleClear := false } else s
  { t with adminOn := t.adminEn }

theorem State.ring_zero (s : State) (v conn : Nat) : s.ring 0 v conn =
    let t := s.bellTaken
    let k := t.queue 0
    if t.adminOn = false then t
    else if bits v 31 16 ≠ k.gen then t.stale
    else if k.error then t
    else if 2 ^ t.ringLogOf 0 < (bits v 15 0 + 65536 - k.head) % 65536 then t.modQueue 0 fun k => { k with error := true }
    else t.modQueue 0 fun k => { k with tail := bits v 15 0, conn := conn, rings := k.rung (bits v 15 0) conn } := by
  rw [State.ring]
  simp only [if_true, true_and, ne_eq, not_true_eq_false, false_and, false_or, Bool.not_eq_true']
  rfl

theorem State.adminOn_bellTaken (s : State) : s.bellTaken.adminOn = s.adminEn := (apply_ite State.adminEn _ _ _).trans (ite_self _)

theorem State.queue_bellTaken (s : State) (q : Nat) : s.bellTaken.queue q = s.queue q := (apply_ite (State.queue · q) _ _ _).trans (ite_self _)

theorem State.adminOn_ring (s : State) (v conn : Nat) : (s.ring 0 v conn).adminOn = s.adminEn := by
  rw [State.ring_zero]
  dsimp only
  repeat' split
  all_goals exact s.adminOn_bellTaken

theorem State.queue_ring_of_off (s : State) (v conn : Nat) (off : s.adminEn = false) : (s.ring 0 v conn).queue 0 = s.queue 0 := by
  rw [State.ring_zero]
  dsimp only
  rw [if_pos (s.adminOn_bellTaken.trans off), State.queue_bellTaken]

end Write

/-! ### The rows -/

/-- Settles O45: each row writes one word, the block that holds its offset takes it, and the register at that place gives it its meaning. -/
theorem registerWritesTakeEffectOrAreRefused : Obligations.RegisterWritesTakeEffectOrAreRefused := by
  intro s m
  refine ⟨?unaligned, ?down, ?clamped, ?header, ?clearRefused, ?module, ?cluster, ?link, ?rings, ?undefined, ?doorbells,
    fun v conn => ⟨s.adminOn_ring v conn, s.queue_ring_of_off v conn⟩⟩
  case unaligned => exact fun ofs v unaligned => exec_eq_next rfl (State.registerWrite_unaligned unaligned _) rfl
  case down => exact fun ofs v down => exec_eq_next rfl (State.registerWrite_down down _ _) rfl
  case clamped =>
    exact fun ofs v b o up aligned place clamped =>
      exec_eq_answer rfl ((State.registerWrite_aligned aligned _).trans (State.regWrite_clamped place up clamped _))
  case header =>
    exact fun ofs v b o aligned place takes header other =>
      exec_eq_next rfl ((State.registerWrite_aligned aligned _).trans (State.regWrite_header place takes header other _)) rfl
  case clearRefused =>
    exact fun ofs v b aligned place takes zero =>
      exec_eq_next rfl ((State.registerWrite_aligned aligned _).trans (State.regWrite_clearRefused place takes zero)) rfl
  case module =>
    intro takes
    refine ⟨fun w low high => ?_, fun w range => ?_, fun v within => ?_, fun v beyond => ?_, fun en small large fits => ?_, fun v => ?_, ?_, ?_,
      fun v => ?_⟩
    · exact exec_eq_next rfl ((State.capWrite_takes takes _).trans (if_neg (by omega))) rfl
    · exact exec_eq_answer rfl ((State.capWrite_takes takes _).trans (if_pos range))
    · exact exec_eq_next rfl ((State.errConsWrite_takes takes v.isLt).trans (if_pos within)) rfl
    · exact exec_eq_next rfl ((State.errConsWrite_takes takes v.isLt).trans (if_neg (Nat.not_le.mpr beyond))) rfl
    · exact exec_eq_next rfl (State.adminEnWrite_takes takes en small large fits) rfl
    · exact exec_eq_next rfl (State.pmStartWrite_takes takes v) rfl
    · exact exec_eq_next rfl (State.pmStopWrite_takes takes true) rfl
    · exact exec_eq_next rfl (State.pmStopWrite_takes takes false) rfl
    · exact exec_eq_next rfl (State.pmAutoWrite_takes takes v) rfl
  case cluster =>
    intro c takes
    refine ⟨fun w known may => ⟨?_, s.csmWays_setWays c _, fun changes => ⟨s.cache_setWays c changes, fun a => s.read_scratch_setWays c changes⟩⟩,
      fun w changes runs => ?_, fun ch home => ⟨?_, ?_⟩⟩
    · exact exec_eq_answer rfl ((State.csmWaysWrite_takes takes _).trans (State.waysWrite_set known may))
    · exact exec_eq_answer rfl ((State.csmWaysWrite_takes takes _).trans (State.waysWrite_running w.isLt changes runs))
    · exact exec_eq_next rfl (State.commitWrite_takes takes home true) rfl
    · exact exec_eq_next rfl (State.commitWrite_takes takes home false) rfl
  case link =>
    intro l takes
    refine ⟨fun v => ?_, fun v => ?_, fun first => ⟨?_, ?_⟩, fun a mask home => ?route⟩
    · exact exec_eq_answer rfl (State.retrainWrite_takes takes v)
    · exact exec_eq_answer rfl (State.disableWrite_takes takes v)
    · exact exec_eq_answer rfl (State.walkStartWrite_takes takes first true)
    · exact exec_eq_next rfl (State.walkStartWrite_takes takes first false) rfl
    case route =>
      have row := State.routeRow_eq takes home mask.toNat
      exact ⟨s.routeRow m a.toNat mask.toNat, exec_eq_next rfl rfl (congrArg State.pending row :), State.mask_routeRow takes home mask.isLt,
        fun d other words => State.mask_routeRow_other takes home _ other words, row⟩
  case rings =>
    intro r h up defined
    obtain ⟨headField, headBit⟩ := fields_of_head h.isLt
    obtain ⟨notifyField, notifyBit⟩ := fields_of_notify h.isLt
    refine ⟨fun upTo => ⟨?_, ?_⟩, fun beyond => ?beyond⟩
    · exact exec_eq_answer rfl ((State.regWrite_cringHead up r.isLt _).trans (State.headWrite_returns defined headField headBit upTo))
    · exact exec_eq_answer rfl ((State.regWrite_cringHead up r.isLt _).trans (State.headWrite_returns defined notifyField notifyBit upTo))
    case beyond =>
      have written := State.headWrite_beyond defined headField beyond
      exact ⟨_, exec_eq_answer rfl (State.regWrite_cringHead up r.isLt _), written.head r, written.queue, written.cores⟩
  case undefined =>
    intro r h undefined
    have still (v : Nat) : s.regWrite m (0x560000 + 8 * r) v = s := by
      cases up : s.windowUp m with
      | false => exact State.regWrite_down up _ _
      | true => rw [State.regWrite_cringHead up r.isLt, State.headWrite_undefined undefined]
    exact ⟨exec_eq_next rfl (still _) rfl, exec_eq_next rfl (still _) rfl⟩
  case doorbells => exact fun q v up => exec_eq_answer rfl (State.regWrite_doorbell up q.isLt _)

end Sys2Proof.Machine
end

section
/-! PROOFS. The queue of commands: every command answers a next state that keeps what waits, so that a step takes the front of the queue
and nothing else, and commands run first in, first out. -/

namespace Sys2Proof.Machine

/-! ### Commands keep the queue -/

/-- Whatever a command does, it answers a next state. -/
theorem exec_answers (i : Instr) (s : State) : ∃ t, exec i s = s.answer t := by
  cases i <;> exact ⟨_, rfl⟩

/-- Settles O3: an answer carries the queue over. -/
theorem everyCommandAnswersAndKeepsTheQueue : Obligations.EveryCommandAnswersAndKeepsTheQueue := by
  intro i s
  obtain ⟨t, answers⟩ := exec_answers i s
  exact ⟨s.keepQueue t, answers, rfl⟩

/-! ### Steps -/

/-- Settles O1. -/
theorem stepRunsTheFrontCommand : Obligations.StepRunsTheFrontCommand := fun _ _ => rfl

theorem step_of_pending {s : State} {i : Instr} {r : List Instr} (front : s.pending = i :: r) : step s = exec i { s with pending := r } := by
  rw [step, front]

theorem step_of_empty {s : State} (empty : s.pending = []) : step s = .next s := by
  rw [step, empty]

/-- Settles O2. -/
theorem anEmptyQueueIdles : Obligations.AnEmptyQueueIdles := fun _ => step_of_empty

/-- A step on a queue that is not empty leaves its rest. -/
theorem step_next_of_pending {s : State} {i : Instr} {r : List Instr} (front : s.pending = i :: r) :
    ∃ t, step s = .next t ∧ t.pending = r := by
  obtain ⟨t, answers, kept⟩ := everyCommandAnswersAndKeepsTheQueue i { s with pending := r }
  exact ⟨t, (step_of_pending front).trans answers, kept⟩

/-- A step leaves the rest of the queue. -/
theorem step_pending {s t : State} (run : step s = .next t) : t.pending = s.pending.tail := by
  cases queue : s.pending with
  | nil =>
    cases (step_of_empty queue).symm.trans run
    rw [queue, List.tail_nil]
  | cons i r =>
    obtain ⟨u, answers, kept⟩ := step_next_of_pending queue
    cases answers.symm.trans run
    rw [kept, List.tail_cons]

/-- Settles O5: what waits after a step waited before it. -/
theorem aStepKeepsTheQueueWellFormed : Obligations.AStepKeepsTheQueueWellFormed := by
  intro s t wf run
  have rest := step_pending run
  refine ⟨?_, rest⟩
  rw [State.queueWf, List.all_eq_true] at wf ⊢
  exact fun i waits => wf i (List.mem_of_mem_tail (rest ▸ waits))

/-- Settles O4, by induction on the commands before `i`. -/
theorem commandsRunFirstInFirstOut : Obligations.CommandsRunFirstInFirstOut := by
  intro a r i s queue
  induction a generalizing s with
  | nil => exact ⟨s, rfl, queue, step_of_pending queue⟩
  | cons j a ih =>
    obtain ⟨u, run, rest⟩ := step_next_of_pending queue
    obtain ⟨t, steps, front, runs⟩ := ih u rest
    exact ⟨t, ⟨u, run, steps⟩, front, runs⟩

/-! ### Reset -/

/-- Settles O6: a part of which a table lists nothing is at its own reset value. -/
theorem resetValuesOfTheTables : Obligations.ResetValuesOfTheTables := by
  unfold Obligations.ResetValuesOfTheTables
  simp only
  refine ⟨rfl, rfl, rfl, rfl, rfl, rfl, rfl, rfl, rfl, rfl, rfl, rfl, rfl, rfl, rfl, rfl, rfl, rfl, rfl, rfl, rfl, rfl, rfl, rfl, rfl, rfl,
    rfl, rfl, rfl, rfl, ?cores, ?channels, ?clusters, ?keys, ?fences, ?links, rfl, rfl, rfl, rfl, ?masks, ?ports⟩
  case cores => exact fun c => ⟨rfl, rfl, fun t => rfl⟩
  case channels => exact fun c => ⟨rfl, rfl, rfl, rfl, rfl, rfl, rfl⟩
  case clusters => exact fun c => ⟨rfl, rfl⟩
  case keys => exact fun h => ⟨rfl, rfl, rfl, rfl, rfl⟩
  case fences => exact fun n => rfl
  case links => exact fun l => ⟨rfl, rfl, rfl, rfl⟩
  case masks => exact fun d => rfl
  case ports => exact fun p => ⟨rfl, rfl, rfl, rfl, rfl, rfl, rfl⟩

end Sys2Proof.Machine
end

section
/-! PROOFS. Grants of current: what a slot of a die gives, and what stands of the module's power while grants change (R434 to R438). -/

namespace Sys2Proof.Machine

/-! ### What the fit of grants rests on -/

/-- Everything that the estimate and the ceiling of a cluster rest on beside its grants is as it was (R434 to R439). -/
structure FitKept (s t : State) : Prop where
  cores : t.cores = s.cores
  parts : t.parts = s.parts
  sec : t.sec = s.sec
  ltime : t.ltime = s.ltime
  vop : t.power.vop = s.power.vop
  cap : t.power.cap = s.power.cap
  emergency : t.power.emergency = s.power.emergency
  backSteps : t.power.backSteps = s.power.backSteps
  temp : ∀ c, (t.cpower c).temp = (s.cpower c).temp
  nT : ∀ c, (t.cpower c).nT = (s.cpower c).nT

namespace FitKept

theorem refl (s : State) : FitKept s s := ⟨rfl, rfl, rfl, rfl, rfl, rfl, rfl, rfl, fun _ => rfl, fun _ => rfl⟩

section
variable {s t u : State} (h : FitKept s t)
include h

theorem trans (g : FitKept t u) : FitKept s u :=
  ⟨g.cores.trans h.cores, g.parts.trans h.parts, g.sec.trans h.sec, g.ltime.trans h.ltime, g.vop.trans h.vop, g.cap.trans h.cap,
    g.emergency.trans h.emergency, g.backSteps.trans h.backSteps, fun c => (g.temp c).trans (h.temp c), fun c => (g.nT c).trans (h.nT c)⟩

theorem clusterUnits (c : Nat) : t.clusterUnits c = s.clusterUnits c := by
  have units : t.coreUnits = s.coreUnits := by
    funext k
    rw [State.coreUnits, State.core, h.cores]
    rfl
  rw [State.clusterUnits, units]
  rfl

theorem partOfCluster (c : Nat) : t.partOfCluster c = s.partOfCluster c := by
  simp only [State.partOfCluster, h.parts]

theorem stepOf (c : Nat) : t.stepOf c = s.stepOf c := by
  simp only [State.stepOf, State.stepWith, State.ngOf, h.partOfCluster, State.part, h.parts, h.emergency, h.backSteps, h.nT]

theorem grantsFit (c step : Nat) (g : List Nat) : t.grantsFit c step g = s.grantsFit c step g := by
  simp only [State.grantsFit, h.partOfCluster, State.estimate20, State.staticMw, State.vopMv, State.ceiling, State.part, h.parts, h.sec,
    h.vop, h.cap, h.temp]

end

/-- Changing what a cluster's power holds beside temperature and thermal step. -/
theorem modCpower (s : State) (c : Nat) {f : ClusterPower → ClusterPower} (temp : ∀ k, (f k).temp = k.temp) (nT : ∀ k, (f k).nT = k.nT) :
    FitKept s (s.modCpower c f) := by
  refine ⟨rfl, rfl, rfl, rfl, rfl, rfl, rfl, rfl, fun e => ?_, fun e => ?_⟩
  · rw [State.cpower_modCpower]; split <;> simp [*]
  · rw [State.cpower_modCpower]; split <;> simp [*]

end FitKept

/-- Grants are as they were too. -/
structure GrantsKept (s t : State) : Prop extends FitKept s t where
  grants : ∀ c, (t.cpower c).grants = (s.cpower c).grants

namespace GrantsKept

theorem refl (s : State) : GrantsKept s s := ⟨.refl s, fun _ => rfl⟩

theorem trans {s t u : State} (h : GrantsKept s t) (g : GrantsKept t u) : GrantsKept s u :=
  ⟨h.toFitKept.trans g.toFitKept, fun c => (g.grants c).trans (h.grants c)⟩

theorem modCpower (s : State) (c : Nat) {f : ClusterPower → ClusterPower} (temp : ∀ k, (f k).temp = k.temp) (nT : ∀ k, (f k).nT = k.nT)
    (grants : ∀ k, (f k).grants = k.grants) : GrantsKept s (s.modCpower c f) := by
  refine ⟨FitKept.modCpower s c temp nT, fun e => ?_⟩
  rw [State.cpower_modCpower]; split <;> simp [*]

/-- Counters cleared at a slot. -/
theorem slotClears (s : State) (c : Nat) : GrantsKept s (s.slotClears c) := by
  unfold State.slotClears
  split
  · exact modCpower s c (fun _ => rfl) (fun _ => rfl) fun _ => rfl
  · exact refl s

/-- A refused grant that a cluster waits for is counted. -/
theorem countHold (s : State) (c slot : Nat) : GrantsKept s (s.countHold c slot) := by
  have counted : GrantsKept s (s.modCpower c fun k => { k with hold := min (k.hold + 1) (2 ^ 32 - 1) }) :=
    modCpower s c (fun _ => rfl) (fun _ => rfl) fun _ => rfl
  unfold State.countHold
  dsimp only
  split
  · exact counted
  · split
    · exact counted
    · exact counted.trans ⟨⟨rfl, rfl, rfl, rfl, rfl, rfl, rfl, rfl, fun _ => rfl, fun _ => rfl⟩, fun _ => rfl⟩

end GrantsKept

/-! ### Slots (R437) -/

/-- `g` are the grants of cluster `c` with one more, of a unit that asks and fits. -/
def State.GrantsOne (s : State) (c : Nat) (g : List Nat) : Prop :=
  ∃ u, g = (s.cpower c).grants ++ [u] ∧ u ∈ s.clusterUnits c ∧ u ∉ (s.cpower c).grants ∧
    s.grantsFit c (s.stepOf c) (u :: (s.cpower c).grants) = true

/-- Cluster `c` receives unit `u`, and is the one served last on its die. -/
def State.grantTo (s : State) (c u : Nat) : State :=
  let t := s.modCpower c fun k => { k with grants := k.grants ++ [u] }
  { t with power := { t.power with served := Tbl.set t.power.served (dieOf c) c } }

theorem FitKept.grantTo (s : State) (c u : Nat) : FitKept s (s.grantTo c u) :=
  (FitKept.modCpower s c (f := fun k => { k with grants := k.grants ++ [u] }) (fun _ => rfl) fun _ => rfl).trans
    ⟨rfl, rfl, rfl, rfl, rfl, rfl, rfl, rfl, fun _ => rfl, fun _ => rfl⟩

theorem State.grants_grantTo (s : State) (c u e : Nat) :
    ((s.grantTo c u).cpower e).grants = if e = c then (s.cpower c).grants ++ [u] else (s.cpower e).grants := by
  have power : (s.grantTo c u).cpower e = (s.modCpower c fun k => { k with grants := k.grants ++ [u] }).cpower e := rfl
  rw [power, State.cpower_modCpower]
  split <;> rfl

/-- The units that a cluster asks for and does not hold. -/
def State.asksFor (s : State) (c : Nat) : List Nat := (s.clusterUnits c).filter fun u => !(s.cpower c).grants.contains u

/-- Whether one more unit fits. -/
def State.fitsOneMore (s : State) (c u : Nat) : Bool := s.grantsFit c (s.stepOf c) (u :: (s.cpower c).grants)

/-- A cluster before its turn: cleared counters, and the count of a refused grant. -/
def State.slotReady (s : State) (c slot : Nat) : State :=
  let t := s.slotClears c
  if (t.asksFor c).all (t.fitsOneMore c) then t else t.countHold c slot

theorem GrantsKept.slotReady (s : State) (c slot : Nat) : GrantsKept s (s.slotReady c slot) := by
  unfold State.slotReady
  dsimp only
  split
  · exact .slotClears s c
  · exact (GrantsKept.slotClears s c).trans (.countHold _ c slot)

/-- The unit that a cluster would receive in its turn. -/
def State.nextUnit (s : State) (c : Nat) : Option Nat := ((s.slotClears c).asksFor c).find? ((s.slotClears c).fitsOneMore c)

theorem State.slotAt_cons (s : State) (slot left c : Nat) (r : List Nat) : s.slotAt slot left (c :: r) =
    match left, s.nextUnit c with
    | n + 1, some u => ((s.slotReady c slot).grantTo c u).slotAt slot n r
    | left, _ => (s.slotReady c slot).slotAt slot left r := by
  cases left <;> rfl

theorem State.grantsOne_nextUnit {s : State} {c u : Nat} (next : s.nextUnit c = some u) : s.GrantsOne c ((s.cpower c).grants ++ [u]) := by
  have cleared := GrantsKept.slotClears s c
  have fits := List.find?_some next
  have wanted := List.mem_filter.mp (List.mem_of_find?_eq_some next)
  rw [State.fitsOneMore, cleared.grantsFit, cleared.stepOf, cleared.grants] at fits
  rw [cleared.clusterUnits, cleared.grants] at wanted
  exact ⟨u, rfl, wanted.1, by simpa using wanted.2, fits⟩

theorem FitKept.grantsOne {s t : State} (h : FitKept s t) {c : Nat} {g : List Nat} (grants : (t.cpower c).grants = (s.cpower c).grants)
    (one : t.GrantsOne c g) : s.GrantsOne c g := by
  obtain ⟨u, is, asks, new, fits⟩ := one
  rw [grants] at is new fits
  rw [h.clusterUnits] at asks
  rw [h.grantsFit, h.stepOf] at fits
  exact ⟨u, is, asks, new, fits⟩

/-- Of the clusters of a slot at most `left` receive one grant each, and the others keep what they have. -/
theorem State.slotAt_grants (slot : Nat) (l : List Nat) (once : l.Nodup) (left : Nat) (s : State) :
    FitKept s (s.slotAt slot left l) ∧ ∃ given : List Nat, given.length ≤ left ∧ given ⊆ l ∧ ∀ c,
      (c ∉ given → ((s.slotAt slot left l).cpower c).grants = (s.cpower c).grants) ∧
        (c ∈ given → s.GrantsOne c ((s.slotAt slot left l).cpower c).grants) := by
  induction l generalizing left s with
  | nil => exact ⟨.refl s, [], Nat.zero_le _, List.nil_subset _, fun c => ⟨fun _ => rfl, fun h => absurd h List.not_mem_nil⟩⟩
  | cons c r ih =>
    obtain ⟨notLater, once⟩ := List.nodup_cons.mp once
    have ready := GrantsKept.slotReady s c slot
    have passes (left : Nat) (is : s.slotAt slot left (c :: r) = (s.slotReady c slot).slotAt slot left r) :
        FitKept s (s.slotAt slot left (c :: r)) ∧ ∃ given : List Nat, given.length ≤ left ∧ given ⊆ c :: r ∧ ∀ e,
          (e ∉ given → ((s.slotAt slot left (c :: r)).cpower e).grants = (s.cpower e).grants) ∧
            (e ∈ given → s.GrantsOne e ((s.slotAt slot left (c :: r)).cpower e).grants) := by
      obtain ⟨kept, given, few, among, each⟩ := ih once left (s.slotReady c slot)
      rw [is]
      exact ⟨ready.toFitKept.trans kept, given, few, fun e h => List.mem_cons_of_mem c (among h), fun e =>
        ⟨fun other => ((each e).1 other).trans (ready.grants e), fun h => ready.toFitKept.grantsOne (ready.grants e) ((each e).2 h)⟩⟩
    cases next : s.nextUnit c with
    | none => exact passes left (by rw [State.slotAt_cons, next]; cases left <;> rfl)
    | some u =>
      cases left with
      | zero => exact passes 0 (by rw [State.slotAt_cons])
      | succ n =>
        have is : s.slotAt slot (n + 1) (c :: r) = ((s.slotReady c slot).grantTo c u).slotAt slot n r := by rw [State.slotAt_cons, next]
        have granted := ready.toFitKept.trans (.grantTo _ c u)
        have grants (e : Nat) : (((s.slotReady c slot).grantTo c u).cpower e).grants = if e = c then (s.cpower c).grants ++ [u] else (s.cpower e).grants := by
          rw [State.grants_grantTo, ready.grants, ready.grants]
        obtain ⟨kept, given, few, among, each⟩ := ih once n ((s.slotReady c slot).grantTo c u)
        rw [is]
        refine ⟨granted.trans kept, c :: given, by simpa using few, List.cons_subset_cons c among, fun e => ⟨fun other => ?_, fun h => ?_⟩⟩
        · obtain ⟨notC, notGiven⟩ := not_or.mp (List.mem_cons.not.mp other)
          rw [(each e).1 notGiven, grants, if_neg notC]
        · by_cases same : e = c
          · subst same
            rw [(each e).1 fun h => notLater (among h), grants, if_pos rfl]
            exact State.grantsOne_nextUnit next
          · refine granted.grantsOne ?_ ((each e).2 ((List.mem_cons.mp h).resolve_left same))
            rw [grants, if_neg same]

/-- The clusters of a die in the order of serving: each once. -/
theorem nodup_dieOrder (d last : Nat) : ((rangeFrom (last + 1) 12).map fun i => 12 * d + i % 12).Nodup := by
  rw [rangeFrom_eq_range']
  refine List.Nodup.map_on ?_ List.nodup_range'
  intro i hi j hj same
  rw [List.mem_range'_1] at hi hj
  omega

theorem dieOrder_die {d last c : Nat} (h : c ∈ (rangeFrom (last + 1) 12).map fun i => 12 * d + i % 12) : c / 12 = d := by
  obtain ⟨i, -, rfl⟩ := List.mem_map.mp h
  omega

/-- The time of the next slot of a die. -/
def State.slotTime (s : State) (d : Nat) : Nat :=
  max (Tbl.get 0 s.power.slotAt d + 125) (max s.ltime (Tbl.get 0 s.power.slotAt d + 125) / 125 * 125)

/-- A die at its next slot. -/
def State.atSlot (s : State) (d : Nat) : State :=
  { s with ltime := max s.ltime (Tbl.get 0 s.power.slotAt d + 125), power := { s.power with slotAt := Tbl.set s.power.slotAt d (s.slotTime d) } }

theorem State.grantSlot_eq (s : State) (d : Nat) : s.grantSlot d = (s.atSlot d).slotAt (s.slotTime d) 4
    ((rangeFrom ((Tbl.find s.power.served d).getD (12 * d + 11) + 1) 12).map fun i => 12 * d + i % 12) := rfl

/-- What the slot of a die comes to: the clusters of one list, each once, are served. -/
theorem State.grantSlot_grants (s : State) (d : Nat) : ∃ given : List Nat, given.length ≤ 4 ∧ (∀ c ∈ given, c / 12 = d) ∧
    (s.grantSlot d).cores = s.cores ∧ (s.grantSlot d).parts = s.parts ∧ s.ltime ≤ (s.grantSlot d).ltime ∧ ∀ c,
      (c ∉ given → ((s.grantSlot d).cpower c).grants = (s.cpower c).grants) ∧ (c ∈ given → s.GrantsOne c ((s.grantSlot d).cpower c).grants) := by
  have same : GrantsKept { s with ltime := (s.atSlot d).ltime } (s.atSlot d) :=
    ⟨⟨rfl, rfl, rfl, rfl, rfl, rfl, rfl, rfl, fun _ => rfl, fun _ => rfl⟩, fun _ => rfl⟩
  obtain ⟨kept, given, few, among, each⟩ := State.slotAt_grants (s.slotTime d) _
    (nodup_dieOrder d ((Tbl.find s.power.served d).getD (12 * d + 11))) 4 (s.atSlot d)
  rw [State.grantSlot_eq]
  exact ⟨given, few, fun c h => dieOrder_die (among h), kept.cores.trans same.cores, kept.parts.trans same.parts,
    kept.ltime ▸ Nat.le_max_left _ _, fun c => ⟨fun other => ((each c).1 other).trans (same.grants c),
      fun h => same.toFitKept.grantsOne (same.grants c) ((each c).2 h)⟩⟩

/-! ### The statement -/

/-- A row of an island that VDD_AO does not supply, while the module runs (R28). -/
theorem exec_powered {i : Instr} {s : State} {f : State → State} (row : exec i s = s.answer (s.powered f)) (runs : s.running = true) :
    exec i s = s.answer (f s) := by
  rw [row, State.powered, if_pos runs]

/-- A command that answers `t` completes with what `t` is beside the queue. -/
theorem completes_of_answer {i : Instr} {s t : State} {P : State → Prop} (row : exec i s = s.answer t) (holds : P (s.keepQueue t)) :
    Completes i s P := ⟨s.keepQueue t, row, holds⟩

theorem State.grants_grantRelease {s : State} {c u : Nat} (idle : (s.clusterUnits c).contains u = false) (x : Nat) :
    x ∈ ((s.grantRelease c u).cpower c).grants ↔ x ∈ (s.cpower c).grants ∧ x ≠ u := by
  simp only [State.grantRelease, idle, Bool.false_eq_true, if_false]
  split
  · simp
  · next lacks =>
    have other (held : x ∈ (s.cpower c).grants) : x ≠ u := fun same => lacks (by simpa using same ▸ held)
    exact ⟨fun held => ⟨held, other held⟩, And.left⟩

theorem State.cpower_grantRelease (s : State) {c u e : Nat} (other : e ≠ c) : (s.grantRelease c u).cpower e = s.cpower e := by
  unfold State.grantRelease
  split
  · rfl
  · split
    · rw [State.cpower_modCpower, if_neg other]
    · rfl

/-- Settles O48: a slot gives at most four clusters one fitting grant each, and a release takes away the one that is named. -/
theorem grantsKeepTheCeilingAndTheSlope : Obligations.GrantsKeepTheCeilingAndTheSlope := by
  intro s runs
  refine ⟨?slot, ?release, ?fits, ?arrays, ?vectors, ?ceiling⟩
  case slot =>
    intro d
    obtain ⟨given, few, onDie, cores, parts, later, each⟩ := s.grantSlot_grants d.val
    refine completes_of_answer (exec_powered rfl runs) ⟨fun c => ?_, ?_, cores, parts, later⟩
    · by_cases h : c ∈ given
      · exact .inr ⟨onDie c h, (each c).2 h⟩
      · exact .inl ((each c).1 h)
    · have changed : ((rangeFrom (12 * d.val) 12).filter fun c => ((s.grantSlot d.val).cpower c).grants != (s.cpower c).grants) ⊆ given := by
        intro c h
        by_contra other
        have moved := (List.mem_filter.mp h).2
        rw [(each c).1 other] at moved
        simp at moved
      have once : (rangeFrom (12 * d.val) 12).Nodup := rangeFrom_eq_range' .. ▸ List.nodup_range'
      exact (List.subperm_of_subset (once.filter _) changed).length_le.trans few
  case release =>
    intro c u
    refine ⟨fun works => exec_eq_next (exec_powered rfl runs) (if_pos works) rfl, fun idle => ?_⟩
    exact completes_of_answer (exec_powered rfl runs) ⟨State.grants_grantRelease idle, fun e other => State.cpower_grantRelease s other⟩
  case fits =>
    intro c step grants p home
    rw [State.grantsFit, home]
    exact decide_eq_true_iff
  case arrays => exact fun u low => if_pos low
  case vectors => exact fun u high => if_neg (Nat.not_lt.mpr high)
  case ceiling => exact fun p d => Nat.min_le_left _ _

end Sys2Proof.Machine
end

section
/-! PROOFS. The governor, the backstops, droop, temperature and energy (R435 to R447). -/

namespace Sys2Proof.Machine

/-! ### Withdrawing grants (R435) -/

/-- The grants of a cluster are none, or fit at the step in force. -/
def State.Settled (s : State) (c : Nat) : Prop := (s.cpower c).grants = [] ∨ s.grantsFit c (s.stepOf c) (s.cpower c).grants = true

/-- Grants have been withdrawn, the last first, and nothing else has changed. -/
structure Withdrawn (s t : State) : Prop extends FitKept s t where
  power : t.power = s.power
  grants : ∀ c, (t.cpower c).grants <+: (s.cpower c).grants

namespace Withdrawn

theorem refl (s : State) : Withdrawn s s := ⟨.refl s, rfl, fun _ => List.prefix_rfl⟩

theorem trans {s t u : State} (h : Withdrawn s t) (g : Withdrawn t u) : Withdrawn s u :=
  ⟨h.toFitKept.trans g.toFitKept, g.power.trans h.power, fun c => (g.grants c).trans (h.grants c)⟩

theorem dropLast (s : State) (c : Nat) : Withdrawn s (s.modCpower c fun k => { k with grants := k.grants.dropLast }) := by
  refine ⟨.modCpower s c (fun _ => rfl) fun _ => rfl, rfl, fun e => ?_⟩
  rw [State.cpower_modCpower]
  split
  · next same => exact same ▸ List.dropLast_prefix _
  · exact List.prefix_rfl

/-- What is settled by its own grants alone stays so. -/
theorem settled {s t : State} (h : FitKept s t) {c : Nat} (same : t.cpower c = s.cpower c) (done : s.Settled c) : t.Settled c := by
  rw [State.Settled, same, h.grantsFit, h.stepOf]
  exact done

end Withdrawn

theorem State.withdraw_settled {s : State} {c : Nat} (done : s.Settled c) (fuel : Nat) : s.withdraw c fuel = s := by
  cases fuel with
  | zero => rfl
  | succ fuel => exact if_pos (done.imp (fun none => by rw [none, List.isEmpty_nil]) id)

theorem State.withdraw_unsettled {s : State} {c : Nat} (unsettled : ¬ s.Settled c) (fuel : Nat) :
    s.withdraw c (fuel + 1) = (s.modCpower c fun k => { k with grants := k.grants.dropLast }).withdraw c fuel :=
  if_neg fun done => unsettled (done.imp List.isEmpty_iff.mp id)

theorem Withdrawn.withdraw (s : State) (c fuel : Nat) : Withdrawn s (s.withdraw c fuel) := by
  induction fuel generalizing s with
  | zero => exact .refl s
  | succ fuel ih =>
    by_cases done : s.Settled c
    · rw [State.withdraw_settled done]
      exact .refl s
    · rw [State.withdraw_unsettled done]
      exact (Withdrawn.dropLast s c).trans (ih _)

theorem State.cpower_withdraw {s : State} {c e : Nat} (other : e ≠ c) (fuel : Nat) : (s.withdraw c fuel).cpower e = s.cpower e := by
  induction fuel generalizing s with
  | zero => rfl
  | succ fuel ih =>
    by_cases done : s.Settled c
    · rw [State.withdraw_settled done]
    · rw [State.withdraw_unsettled done, ih, State.cpower_modCpower, if_neg other]

/-- Fuel for every grant leaves a cluster settled. -/
theorem State.settled_withdraw {s : State} {c fuel : Nat} (enough : (s.cpower c).grants.length ≤ fuel) : (s.withdraw c fuel).Settled c := by
  induction fuel generalizing s with
  | zero => exact .inl (List.eq_nil_of_length_eq_zero (Nat.le_zero.mp enough))
  | succ fuel ih =>
    by_cases done : s.Settled c
    · rwa [State.withdraw_settled done]
    · rw [State.withdraw_unsettled done]
      refine ih ?_
      rw [State.cpower_modCpower, if_pos rfl, List.length_dropLast]
      omega

/-- The clusters of a list are settled one after another. -/
theorem State.settled_withdraws {fuel : Nat} {cs : List Nat} {s : State} (enough : ∀ c, (s.cpower c).grants.length ≤ fuel) :
    let t := cs.foldl (fun s c => s.withdraw c fuel) s
    Withdrawn s t ∧ (∀ c, c ∉ cs → t.cpower c = s.cpower c) ∧ ∀ c ∈ cs, t.Settled c := by
  induction cs generalizing s with
  | nil => exact ⟨.refl s, fun _ _ => rfl, fun _ h => absurd h List.not_mem_nil⟩
  | cons c r ih =>
    have first := Withdrawn.withdraw s c fuel
    obtain ⟨rest, others, done⟩ := ih fun e => ((first.grants e).length_le).trans (enough e)
    refine ⟨first.trans rest, fun e other => ?_, fun e h => ?_⟩
    · obtain ⟨notC, notR⟩ := not_or.mp (List.mem_cons.not.mp other)
      exact (others e notR).trans (State.cpower_withdraw notC fuel)
    · by_cases later : e ∈ r
      · exact done e later
      · obtain rfl := (List.mem_cons.mp h).resolve_right later
        exact Withdrawn.settled rest.toFitKept (others e later) (State.settled_withdraw (enough e))

/-! ### The governor (R440) -/

/-- The step that a tick gives a partition. -/
def State.tickStep (s : State) (p : Nat) : Nat :=
  let n := (s.part p).clockStep
  if s.power.backSteps ≠ 0 then n
  else if 80 < Tbl.get 0 s.power.waitSlots p then min 19 (n + 1)
  else if n ≠ 0 ∧ (s.part p).lay.clusters.all (fun c => s.grantsFit c (s.stepWith c (n - 1)) (s.cpower c).grants) then n - 1
  else n

/-- A partition at its tick, before grants are withdrawn. -/
def State.ticked (s : State) (p : Nat) : State :=
  ({ s with power := { s.power with waitSlots := Tbl.del s.power.waitSlots p } } : State).modPart p fun q => { q with clockStep := s.tickStep p }

theorem State.governorTick_inUse {s : State} {p : Nat} (used : (s.part p).inUse = true) :
    s.governorTick p = (s.part p).lay.clusters.foldl (fun s c => s.withdraw c 20) (s.tickEffects.ticked p) := if_pos used

theorem State.tickStep_up {s : State} {p : Nat} (calm : s.power.backSteps = 0) (waits : 80 < Tbl.get 0 s.power.waitSlots p) :
    s.tickStep p = min 19 ((s.part p).clockStep + 1) := by
  rw [State.tickStep, if_neg (not_not.mpr calm), if_pos waits]

theorem State.tickStep_down {s : State} {p : Nat} (calm : s.power.backSteps = 0) (few : Tbl.get 0 s.power.waitSlots p ≤ 80) :
    s.tickStep p = (s.part p).clockStep ∨ s.tickStep p + 1 = (s.part p).clockStep := by
  rw [State.tickStep, if_neg (not_not.mpr calm), if_neg (Nat.not_lt.mpr few)]
  split
  case isTrue down => exact .inr (Nat.succ_pred_eq_of_ne_zero down.1)
  case isFalse => exact .inl rfl

theorem State.part_ticked (s : State) (p : Nat) : (s.ticked p).part p = { s.part p with clockStep := s.tickStep p } :=
  (State.part_modPart _ _ _ _).trans (if_pos rfl)

/-! ### Backstops and droop (R441, R442) -/

/-- A POWER record changes the error ring, its counts and the ladders, and nothing else. -/
theorem State.powerRecord_eq (s : State) (ev severity what reading : Nat) (cluster : Option Nat) :
    ∃ r p o l, s.powerRecord ev severity what reading cluster = { s with errRing := r, errProd := p, errOvf := o, ladders := l } :=
  State.record_eq s _

theorem State.railBackstop_low {s : State} {d reading : Nat} (low : reading < 6240) : s.railBackstop d reading = s := if_pos low

theorem State.railBackstop_high {s : State} {d reading : Nat} (high : 6240 ≤ reading) : ∃ r p o l, s.railBackstop d reading =
    { s with errRing := r, errProd := p, errOvf := o, ladders := l, power := { s.power with
      backstop := min (s.power.backstop + 1) (2 ^ 32 - 1), halved := Tbl.set s.power.halved d (s.ltime + 10000) } } := by
  obtain ⟨r, p, o, l, recorded⟩ := s.countBackstop.powerRecord_eq PowerEvent.railBackstop 0 d reading none
  exact ⟨r, p, o, l, by rw [State.railBackstop, if_neg (Nat.not_lt.mpr high), recorded]; rfl⟩

section Input
variable {s : State} {reading : Nat}

theorem State.inputBackstop_acts (high : 10950 ≤ reading) : ∃ r p o l, s.inputBackstop reading =
    { s with errRing := r, errProd := p, errOvf := o, ladders := l, power := { s.power with
      inA := reading, backstop := min (s.power.backstop + 1) (2 ^ 32 - 1), backSteps := min 19 (s.power.backSteps + 1), backResume := none } } := by
  obtain ⟨r, p, o, l, recorded⟩ := ({ s with power := { s.power with inA := reading } } : State).powerRecord_eq PowerEvent.inputBackstop 0 0 (reading / 25) none
  rw [State.inputBackstop, if_pos (.inl high)]
  dsimp only
  split
  · exact ⟨s.errRing, s.errProd, s.errOvf, s.ladders, rfl⟩
  · exact ⟨r, p, o, l, by rw [recorded]; rfl⟩

/-- The backstop of the input is in action, and its end has not been set. -/
theorem State.inputBackstop_ends (low : reading < 10500) (acting : s.power.backSteps ≠ 0) (unset : s.power.backResume = none) :
    s.inputBackstop reading = { s with power := { s.power with inA := reading, backResume := some (s.ltime + 1000000) } } := by
  have active : (decide (s.power.backSteps ≠ 0) && s.power.backResume.isNone) = true := by simp [acting, unset]
  simp only [State.inputBackstop, active]
  rw [if_neg (by omega), if_pos trivial]

theorem State.inputBackstop_idle (low : reading < 10950) (idle : s.power.backSteps = 0) :
    s.inputBackstop reading = { s with power := { s.power with inA := reading } } := by
  have inactive : (decide (s.power.backSteps ≠ 0) && s.power.backResume.isNone) = false := by simp [idle]
  simp only [State.inputBackstop, inactive, Bool.false_eq_true, false_and, or_false, if_false]
  rw [if_neg (Nat.not_le.mpr low)]

end Input

/-- The power of a cluster once its clock has been stretched. -/
def ClusterPower.stretch (k : ClusterPower) (now : Nat) : ClusterPower := { k with
  stretched := true
  droop := min (k.droop + 1) (2 ^ 32 - 1)
  droopAt := (k.droopAt.filter fun t => decide (now < t + 1000000)) ++ [now] }

/-- A stretch is noted in the power of its cluster, and where there are many a storm is recorded. -/
theorem State.droop_free {s : State} {c : Nat} (free : (s.cpower c).stretched = false) :
    let t := s.modCpower c fun k => k.stretch s.ltime
    s.droop c = (t.powerRecord PowerEvent.droopStorm 0 c 0 (some c)).modCpower c (fun k => { k with stormAt := some s.ltime }) ∨ s.droop c = t := by
  rw [State.droop, if_neg (Bool.eq_false_iff.mp free)]
  exact ite_eq_or_eq _ _ _

theorem State.cpower_droop {s : State} {c : Nat} (free : (s.cpower c).stretched = false) :
    ∃ storm, (s.droop c).cpower c = { (s.cpower c).stretch s.ltime with stormAt := storm } := by
  have stretched : (s.modCpower c fun k => k.stretch s.ltime).cpower c = (s.cpower c).stretch s.ltime :=
    (State.cpower_modCpower _ _ _ _).trans (if_pos rfl)
  obtain storm | calm := State.droop_free free
  · obtain ⟨r, p, o, l, recorded⟩ := (s.modCpower c fun k => k.stretch s.ltime).powerRecord_eq PowerEvent.droopStorm 0 c 0 (some c)
    refine ⟨some s.ltime, ?_⟩
    rw [storm, recorded, State.cpower_modCpower, if_pos rfl]
    exact congrArg (fun k => ({ k with stormAt := some s.ltime } : ClusterPower)) stretched
  · exact ⟨_, calm ▸ stretched⟩

theorem State.droop_stretched {s : State} {c : Nat} (held : (s.cpower c).stretched = true) : s.droop c = s := if_pos held

/-! ### Temperature (R443) -/

/-- The thermal step of a cluster beside a stack of temperature `stack`, at a reading (Table 14-3). -/
def ClusterPower.nextThermal (k : ClusterPower) (stack now : Nat) : Nat :=
  if 95 ≤ k.temp ∨ 95 ≤ stack then if k.nT = 0 ∨ k.nTAt + 100000 ≤ now then min 19 (k.nT + 1) else k.nT
  else if k.temp < 92 ∧ stack < 92 ∧ k.nT ≠ 0 ∧ k.nTAt + 1000000 ≤ now then k.nT - 1 else k.nT

section Next
variable {k : ClusterPower} {stack now : Nat}

theorem ClusterPower.nextThermal_rises (hot : 95 ≤ k.temp ∨ 95 ≤ stack) (due : k.nT = 0 ∨ k.nTAt + 100000 ≤ now) :
    k.nextThermal stack now = min 19 (k.nT + 1) := by
  rw [ClusterPower.nextThermal, if_pos hot, if_pos due]

theorem ClusterPower.nextThermal_waits (hot : 95 ≤ k.temp ∨ 95 ≤ stack) (risen : k.nT ≠ 0) (early : now < k.nTAt + 100000) :
    k.nextThermal stack now = k.nT := by
  rw [ClusterPower.nextThermal, if_pos hot, if_neg fun due => due.elim risen (Nat.not_le.mpr early)]

theorem ClusterPower.nextThermal_falls (cold : k.temp < 92) (coldStack : stack < 92) (risen : k.nT ≠ 0) (due : k.nTAt + 1000000 ≤ now) :
    k.nextThermal stack now = k.nT - 1 := by
  rw [ClusterPower.nextThermal, if_neg (by omega), if_pos ⟨cold, coldStack, risen, due⟩]

end Next

/-- The thermal step that a reading gives cluster `c`. -/
def State.nextThermal (s : State) (c : Nat) : Nat := (s.cpower c).nextThermal (Tbl.get 0 s.power.stackTemp (c / 4)) s.ltime

/-- A reading changes, beside records, only the thermal step of its cluster and the time of it. -/
theorem State.thermalStep_eq (s : State) (c : Nat) :
    s.thermalStep c = s ∧ s.nextThermal c = (s.cpower c).nT ∨
    ∃ r p o l at_, s.thermalStep c = ({ s with errRing := r, errProd := p, errOvf := o, ladders := l } : State).modCpower c
      fun k => { k with nT := s.nextThermal c, nTAt := at_ } := by
  unfold State.thermalStep State.nextThermal ClusterPower.nextThermal
  dsimp only
  split
  · split
    · refine .inr ?_
      split
      · obtain ⟨r, p, o, l, recorded⟩ := s.powerRecord_eq PowerEvent.thermalThrottle 0 c
          (max (s.cpower c).temp (Tbl.get 0 s.power.stackTemp (c / 4))) (some c)
        rw [recorded]
        exact ⟨r, p, o, l, s.ltime, rfl⟩
      · exact ⟨s.errRing, s.errProd, s.errOvf, s.ladders, s.ltime, rfl⟩
    · exact .inl ⟨rfl, rfl⟩
  · split
    · exact .inr ⟨s.errRing, s.errProd, s.errOvf, s.ladders, s.ltime, rfl⟩
    · exact .inl ⟨rfl, rfl⟩

section Step
variable (s : State) (c : Nat)

/-- The thermal step of a cluster leaves power, the always-on island and local time. -/
theorem State.thermalStep_keeps : (s.thermalStep c).power = s.power ∧ (s.thermalStep c).pm = s.pm ∧ (s.thermalStep c).ltime = s.ltime := by
  obtain ⟨same, -⟩ | ⟨r, p, o, l, at_, is⟩ := s.thermalStep_eq c
  · rw [same]; exact ⟨rfl, rfl, rfl⟩
  · rw [is]; exact ⟨rfl, rfl, rfl⟩

theorem State.cpower_thermalStep : ((s.thermalStep c).cpower c).nT = s.nextThermal c ∧ ((s.thermalStep c).cpower c).temp = (s.cpower c).temp := by
  obtain ⟨same, kept⟩ | ⟨r, p, o, l, at_, is⟩ := s.thermalStep_eq c
  · rw [same]; exact ⟨kept.symm, rfl⟩
  · rw [is, State.cpower_modCpower, if_pos rfl]; exact ⟨rfl, rfl⟩

theorem State.cpower_thermalStep_other {e : Nat} (other : e ≠ c) : (s.thermalStep c).cpower e = s.cpower e := by
  obtain ⟨same, -⟩ | ⟨r, p, o, l, at_, is⟩ := s.thermalStep_eq c
  · rw [same]
  · rw [is, State.cpower_modCpower, if_neg other]; rfl

end Step

/-- Die `d` is held at step 19 after a reading, where it was held before or was not (Table 14-3). -/
def State.Emergency (s : State) (d : Nat) : Prop := if d ∈ s.power.emergency then 100 ≤ s.dieTemp d else 105 ≤ s.dieTemp d

/-- A reading changes, beside records, only the dies in emergency, and of them only its own. -/
theorem State.thermalEmergency_eq (s : State) (d : Nat) : ∃ r p o l ds,
    s.thermalEmergency d = { s with errRing := r, errProd := p, errOvf := o, ladders := l, power := { s.power with emergency := ds } } ∧
      (d ∈ ds ↔ s.Emergency d) ∧ ∀ e, e ≠ d → (e ∈ ds ↔ e ∈ s.power.emergency) := by
  unfold State.thermalEmergency State.Emergency
  dsimp only
  by_cases held : d ∈ s.power.emergency
  · rw [if_pos (List.contains_iff_mem.mpr held), if_pos held]
    split
    case isTrue cool =>
      refine ⟨s.errRing, s.errProd, s.errOvf, s.ladders, _, rfl, ?_, fun e other => ?_⟩
      · simpa using cool
      · simp [other]
    case isFalse warm => exact ⟨s.errRing, s.errProd, s.errOvf, s.ladders, _, rfl, iff_of_true held (Nat.not_lt.mp warm), fun _ _ => Iff.rfl⟩
  · rw [if_neg (List.contains_iff_mem.not.mpr held), if_neg held]
    split
    case isTrue hot =>
      obtain ⟨r, p, o, l, recorded⟩ := s.powerRecord_eq PowerEvent.thermalEmergency 0 d (s.dieTemp d) none
      refine ⟨r, p, o, l, s.power.emergency ++ [d], ?_, iff_of_true (by simp) hot, fun e other => by simp [other]⟩
      rw [recorded]
    case isFalse cool => exact ⟨s.errRing, s.errProd, s.errOvf, s.ladders, _, rfl, iff_of_false held cool, fun _ _ => Iff.rfl⟩

/-- The dies of a list are read one after another. -/
theorem State.thermalEmergencies_eq {ds : List Nat} (once : ds.Nodup) (s : State) : ∃ r p o l es,
    ds.foldl (fun s d => s.thermalEmergency d) s =
      { s with errRing := r, errProd := p, errOvf := o, ladders := l, power := { s.power with emergency := es } } ∧
      ∀ e, e ∈ es ↔ if e ∈ ds then s.Emergency e else e ∈ s.power.emergency := by
  induction ds generalizing s with
  | nil => exact ⟨s.errRing, s.errProd, s.errOvf, s.ladders, s.power.emergency, rfl, fun e => by simp⟩
  | cons d ds ih =>
    obtain ⟨notLater, once⟩ := List.nodup_cons.mp once
    obtain ⟨r, p, o, l, es, first, own, others⟩ := s.thermalEmergency_eq d
    obtain ⟨r', p', o', l', fs, rest, each⟩ := ih once (s.thermalEmergency d)
    refine ⟨r', p', o', l', fs, ?_, fun e => ?_⟩
    · rw [List.foldl_cons, rest, first]
    · have state : (s.thermalEmergency d).power.emergency = es := by rw [first]
      rw [each e]
      by_cases same : e = d
      · subst same
        rw [if_neg notLater, if_pos List.mem_cons_self, state, own]
      · have temp : (s.thermalEmergency d).dieTemp e = s.dieTemp e := by rw [first]; rfl
        simp only [List.mem_cons, same, false_or, State.Emergency, state, others e same, temp]

/-- The states that the readings of junctions, fabrics and stacks start from. -/
def State.readings (s : State) (clusters fabrics hbms : Tbl Nat) : State :=
  let t := clusters.foldl (fun (s : State) (e : Nat × Nat) => s.modCpower e.1 fun k => { k with temp := e.2 }) s
  { t with power := { t.power with
    fabricTemp := fabrics.foldl (fun (t : Tbl Nat) (e : Nat × Nat) => Tbl.set t e.1 e.2) t.power.fabricTemp
    stackTemp := hbms.foldl (fun (t : Tbl Nat) (e : Nat × Nat) => Tbl.set t e.1 e.2) t.power.stackTemp } }

theorem State.sensorRead_eq (s : State) (clusters fabrics hbms : Tbl Nat) : s.sensorRead clusters fabrics hbms =
    (List.range 4).foldl (fun s d => s.thermalEmergency d)
      (((List.range 48).filter fun c => (Tbl.find clusters c).isSome || (Tbl.find hbms (c / 4)).isSome).foldl (fun s c => s.thermalStep c)
        (s.readings clusters fabrics hbms)) := rfl

/-- Readings leave the always-on island and local time. -/
theorem State.sensorRead_keeps (s : State) (clusters fabrics hbms : Tbl Nat) :
    (s.sensorRead clusters fabrics hbms).pm = s.pm ∧ (s.sensorRead clusters fabrics hbms).ltime = s.ltime := by
  obtain ⟨r, p, o, l, es, emergencies, -⟩ := State.thermalEmergencies_eq List.nodup_range
    (((List.range 48).filter fun c => (Tbl.find clusters c).isSome || (Tbl.find hbms (c / 4)).isSome).foldl (fun s c => s.thermalStep c)
        (s.readings clusters fabrics hbms))
  rw [State.sensorRead_eq, emergencies]
  refine List.foldlRecOn (motive := fun t : State => t.pm = s.pm ∧ t.ltime = s.ltime) _ _ ?_ fun t kept c _ => ?_
  · exact List.foldlRecOn (motive := fun t : State => t.pm = s.pm ∧ t.ltime = s.ltime) _ _ ⟨rfl, rfl⟩ fun t kept _ _ => kept
  · obtain ⟨-, pm, ltime⟩ := t.thermalStep_keeps c
    exact ⟨pm.trans kept.1, ltime.trans kept.2⟩

/-- The reading of one junction. -/
theorem State.sensorRead_one (s : State) {c T : Nat} (cluster : c < 48) : s.sensorRead [(c, T)] [] [] =
    (List.range 4).foldl (fun s d => s.thermalEmergency d) ((s.modCpower c fun k => { k with temp := T }).thermalStep c) := by
  have one : ((List.range 48).filter fun e => (Tbl.find [(c, T)] e).isSome || (Tbl.find ([] : Tbl Nat) (e / 4)).isSome) = [c] := by
    have only (e : Nat) : ((Tbl.find [(c, T)] e).isSome || (Tbl.find ([] : Tbl Nat) (e / 4)).isSome) = (e == c) := by
      by_cases same : c = e
      · simp [Tbl.find, same]
      · simp [Tbl.find, same, Ne.symm same]
    simp only [only, List.filter_beq, List.count_eq_one_of_mem List.nodup_range (List.mem_range.mpr cluster)]
    rfl
  rw [State.sensorRead_eq, one]
  rfl

/-! ### Shutdown (R443) -/

/-- What the comparators leave where they act. -/
theorem State.thermalShutdown_acts {s : State} {what reading : Nat} (runs : s.running = true) (hot : 115 ≤ reading) :
    ∃ r p o l, s.thermalShutdown what reading =
      let t := ({ s with errRing := r, errProd := p, errOvf := o, ladders := l } : State).afterReset
      { t with pm := { t.pm.enter .standby with
        step := 0, cause := .thermal, start := false, stop := false, thermalAt := some s.ltime, edge := false } } := by
  obtain ⟨r, p, o, l, recorded⟩ := s.powerRecord_eq PowerEvent.thermalShutdown 4 what reading none
  refine ⟨r, p, o, l, ?_⟩
  rw [State.thermalShutdown, if_pos ⟨runs, hot⟩]
  dsimp only
  rw [recorded, State.stopModule, if_pos (show State.running { s with errRing := r, errProd := p, errOvf := o, ladders := l } = true from runs)]
  rfl

theorem State.running_of_pm {s t : State} (pm : t.pm = s.pm) : t.running = s.running := by rw [State.running, State.running, pm]

/-! ### Energy (R446, R447) -/

/-- Without a gang switch of its forme a context shares its energy with no other. -/
theorem State.switchPartner_none {s : State} {n : Nat} (still : ∀ f, s.forme (s.ctx n).forme = some f → f.switching = none) :
    s.switchPartner n = none := by
  unfold State.switchPartner
  dsimp only
  split
  · rfl
  · next f known => rw [still f known]

/-- During a gang switch the context of the incoming job on the same partition shares. -/
theorem State.switchPartner_incoming {s : State} {n m to_ from_ : Nat} {f : Forme} {x : Context} (known : s.forme (s.ctx n).forme = some f)
    (switching : f.switching.map (fun w => w.1) = some to_) (running : f.running = some from_) (change : to_ ≠ from_)
    (outgoing : (s.ctx n).job = from_) (beside : ((s.jobCtxs (s.ctx n).forme to_).find? fun e => e.2.part == (s.ctx n).part) = some (m, x)) :
    s.switchPartner n = some m := by
  obtain ⟨⟨j, w⟩, is, rfl⟩ := Option.map_eq_some_iff.mp switching
  simp only [State.switchPartner, known, is, running, outgoing, if_neg change, if_neg (Ne.symm change), if_true, Option.bind_some, beside,
    Option.map_some]

section Energy
variable {s : State} {n : Nat} (e : Nat)

theorem State.addEnergy_unattributed : s.addEnergy 0 e = { s with power := { s.power with unattr := s.power.unattr + e } } := if_pos (.inl rfl)

variable (nonzero : n ≠ 0) (used : (s.ctx n).state ≠ .free)
include nonzero used

theorem State.addEnergy_ctx : ∃ ps, s.addEnergy n e =
    { s.modCtx n (fun c => { c with energy := c.energy + e }) with power := { s.power with partEnergy := ps } } :=
  ⟨_, if_neg fun none => none.elim nonzero used⟩

theorem State.ctx_addEnergy (m : Nat) :
    (s.addEnergy n e).ctx m = if m = n then { s.ctx n with energy := (s.ctx n).energy + e } else s.ctx m := by
  obtain ⟨ps, added⟩ := State.addEnergy_ctx e nonzero used
  rw [added]
  exact State.ctx_modCtx s n m fun c => { c with energy := c.energy + e }

/-- Adding energy leaves what other energies and shares rest on. -/
theorem State.addEnergy_keeps : (s.addEnergy n e).power.unattr = s.power.unattr ∧ (s.addEnergy n e).formes = s.formes ∧
    ∀ a, (s.addEnergy n e).actEnergy a = s.actEnergy a := by
  obtain ⟨ps, added⟩ := State.addEnergy_ctx e nonzero used
  rw [added]
  exact ⟨rfl, rfl, fun a => rfl⟩

end Energy

theorem State.energyFold_cons (s : State) (a : EnergyAct) (acts : List EnergyAct) : s.energyFold (a :: acts) = (s.energyFold [a]).energyFold acts := rfl

/-- One activity without a partner goes to its context. -/
theorem State.energyFold_alone {s : State} {a : EnergyAct} (alone : s.switchPartner a.ctx.toNat = none) :
    s.energyFold [a] = s.addEnergy a.ctx.toNat (s.actEnergy a) := by
  simp only [State.energyFold, List.foldl_cons, List.foldl_nil, alone]

theorem State.energyFold_shared {s : State} {a : EnergyAct} {m : Nat} (partner : s.switchPartner a.ctx.toNat = some m) :
    s.energyFold [a] = (s.addEnergy a.ctx.toNat (s.actEnergy a / 2)).addEnergy m (s.actEnergy a - s.actEnergy a / 2) := by
  simp only [State.energyFold, List.foldl_cons, List.foldl_nil, partner]

/-- Activities of one context whose forme makes no gang switch add up in it. -/
theorem State.energyFold_ctx {n : Nat} (nonzero : n ≠ 0) {acts : List EnergyAct} (own : ∀ a ∈ acts, a.ctx.toNat = n) {s : State}
    (used : (s.ctx n).state ≠ .free) (still : ∀ f, s.forme (s.ctx n).forme = some f → f.switching = none) :
    ((s.energyFold acts).ctx n).energy = (s.ctx n).energy + (acts.map fun a => s.actEnergy a).foldl (· + ·) 0 ∧
      (s.energyFold acts).power.unattr = s.power.unattr ∧ ∀ m, m ≠ n → (s.energyFold acts).ctx m = s.ctx m := by
  induction acts generalizing s with
  | nil => exact ⟨rfl, rfl, fun _ _ => rfl⟩
  | cons a acts ih =>
    have ofA := own a List.mem_cons_self
    have first : s.energyFold [a] = s.addEnergy n (s.actEnergy a) := by
      rw [State.energyFold_alone (ofA.symm ▸ State.switchPartner_none still), ofA]
    have ctx := State.ctx_addEnergy (s.actEnergy a) nonzero used
    obtain ⟨unattr, formes, same⟩ := State.addEnergy_keeps (s.actEnergy a) nonzero used
    obtain ⟨energy, rest, others⟩ := ih (fun b h => own b (List.mem_cons_of_mem a h)) (s := s.addEnergy n (s.actEnergy a))
      (by rw [ctx, if_pos rfl]; exact used) (by rw [ctx, if_pos rfl, State.forme, formes]; exact still)
    rw [State.energyFold_cons, first]
    refine ⟨?_, rest.trans unattr, fun m other => by rw [others m other, ctx, if_neg other]⟩
    rw [energy, ctx, if_pos rfl, List.map_cons, List.foldl_cons, Nat.add_comm 0, List.foldl_assoc, Nat.add_assoc]
    simp only [same]

/-! ### The statement -/

/-- Settles O49: each part by what its row comes to. -/
theorem governorBackstopsAndEnergy : Obligations.GovernorBackstopsAndEnergy := by
  intro s runs
  refine ⟨?tick, ?tickIdle, ?railLow, ?railHigh, ?inputActs, ?inputEnds, ?inputIdle, ?droop, ?droopHeld, ?droopEnd, ?droopEndFree,
    ?sensor, ?shutdown, ?emergency, ?energy, ?shared, ?unattributed⟩
  case tick =>
    intro p used bounded
    obtain ⟨withdrawn, others, settled⟩ := State.settled_withdraws (cs := (s.part p).lay.clusters) (s := s.tickEffects.ticked p) bounded
    have row := exec_powered (i := .governorTick p) rfl runs
    rw [State.governorTick_inUse used] at row
    have part : ((s.keepQueue ((s.part p).lay.clusters.foldl (fun s c => s.withdraw c 20) (s.tickEffects.ticked p))).part p).clockStep =
        s.tickEffects.tickStep p := by
      rw [State.keepQueue_get_part, State.part, withdrawn.parts, ← State.part, State.part_ticked]
    refine completes_of_answer row ⟨congrArg PowerCtl.cap withdrawn.power, congrArg PowerCtl.capNext withdrawn.power, withdrawn.grants, others,
      settled, fun calm waits => ?_, fun calm few => ?_⟩
    · rw [part]
      exact State.tickStep_up calm waits
    · rw [part]
      exact State.tickStep_down calm few
  case tickIdle => exact fun p idle => (exec_powered rfl runs).trans (congrArg s.answer (if_neg (Bool.eq_false_iff.mp idle)))
  case railLow => exact fun d r low => exec_eq_next (exec_powered rfl runs) (State.railBackstop_low low) rfl
  case railHigh =>
    intro d r high
    obtain ⟨e, p, o, l, is⟩ := State.railBackstop_high (s := s) (d := d.val) high
    exact completes_of_answer (exec_eq_answer (exec_powered rfl runs) is) ⟨rfl, Tbl.get_set_same _ _ _ _, rfl⟩
  case inputActs =>
    intro r high
    obtain ⟨e, p, o, l, is⟩ := State.inputBackstop_acts (s := s) high
    exact completes_of_answer (exec_eq_answer (exec_powered rfl runs) is) ⟨rfl, rfl, rfl, rfl⟩
  case inputEnds => exact fun r low acting unset => exec_eq_next (exec_powered rfl runs) (State.inputBackstop_ends low acting unset) rfl
  case inputIdle => exact fun r low idle => exec_eq_next (exec_powered rfl runs) (State.inputBackstop_idle low idle) rfl
  case droop =>
    intro c free
    obtain ⟨storm, is⟩ := State.cpower_droop free
    refine completes_of_answer (exec_powered rfl runs) ?_
    rw [State.keepQueue_get_cpower, is]
    exact ⟨rfl, rfl, rfl, rfl⟩
  case droopHeld => exact fun c held => exec_eq_next (exec_powered rfl runs) (State.droop_stretched held) rfl
  case droopEnd => exact fun c held => exec_eq_next (exec_powered rfl runs) (if_pos held) rfl
  case droopEndFree => exact fun c free => exec_eq_next (exec_powered rfl runs) (if_neg (Bool.eq_false_iff.mp free)) rfl
  case sensor =>
    intro c cluster T cool
    have quiet : s.sensorsRead [(c, T)] [] [] = s.sensorRead [(c, T)] [] [] := by
      have none : hottest ([(c, T)] ++ [] ++ []) = none := List.find?_cons_of_neg (by simpa using cool)
      rw [State.sensorsRead, none]
    obtain ⟨r, p, o, l, es, read, emergency⟩ := State.thermalEmergencies_eq List.nodup_range ((s.modCpower c fun k => { k with temp := T }).thermalStep c)
    have row := exec_eq_answer (i := .thermalSensorRead [(c, T)] [] []) (exec_powered rfl runs) (quiet.trans ((s.sensorRead_one cluster).trans read))
    obtain ⟨power, -, -⟩ := (s.modCpower c fun k => { k with temp := T }).thermalStep_keeps c
    obtain ⟨nT, temp⟩ := (s.modCpower c fun k => { k with temp := T }).cpower_thermalStep c
    have junction : (s.modCpower c fun k => { k with temp := T }).cpower c = { s.cpower c with temp := T } :=
      (State.cpower_modCpower _ _ _ _).trans (if_pos rfl)
    rw [State.nextThermal, junction] at nT
    rw [junction] at temp
    refine completes_of_answer row ⟨temp, fun hot due => nT.trans (ClusterPower.nextThermal_rises hot due),
      fun hot risen early => nT.trans (ClusterPower.nextThermal_waits hot risen early),
      fun cold coldStack risen due => nT.trans (ClusterPower.nextThermal_falls cold coldStack risen due), fun d die => ?_, fun e other => ?_⟩
    · have held := emergency d
      rw [if_pos (List.mem_range.mpr die), State.Emergency, power] at held
      exact held
    · exact (State.cpower_thermalStep_other _ c other).trans ((State.cpower_modCpower _ _ _ _).trans (if_neg other))
  case shutdown =>
    intro c T hot
    obtain ⟨pm, ltime⟩ := s.sensorRead_keeps [(c, T)] [] []
    have stops : s.sensorsRead [(c, T)] [] [] = (s.sensorRead [(c, T)] [] []).thermalShutdown c T := by
      have first : hottest ([(c, T)] ++ [] ++ []) = some (c, T) := List.find?_cons_of_pos (decide_eq_true hot)
      rw [State.sensorsRead, first]
    obtain ⟨r, p, o, l, acts⟩ := State.thermalShutdown_acts (what := c) ((State.running_of_pm pm).trans runs) hot
    exact completes_of_answer (exec_eq_answer (exec_powered rfl runs) (stops.trans acts)) ⟨rfl, rfl, rfl, congrArg some ltime⟩
  case emergency => exact fun c held => if_pos (List.contains_iff_mem.mpr held)
  case energy =>
    intro acts n nonzero used own still
    have number : n.toNat ≠ 0 := fun zero => nonzero (BitVec.eq_of_toNat_eq zero)
    exact completes_of_answer (exec_powered rfl runs) (State.energyFold_ctx number (fun a h => congrArg _ (own a h)) used still)
  case shared =>
    intro a f to_ from_ m used nonzero known switching running change outgoing other numbered beside
    have number : a.ctx.toNat ≠ 0 := fun zero => nonzero (BitVec.eq_of_toNat_eq zero)
    have partner := State.switchPartner_incoming known switching running change outgoing beside
    have usedM : (s.ctx m).state ≠ .free := by
      have listed := List.mem_of_find?_eq_some beside
      simp only [State.jobCtxs, List.mem_filter, Bool.and_eq_true] at listed
      obtain ⟨-, ⟨used, -⟩, -⟩ := listed
      exact bne_iff_ne.mp used
    have ctx := State.ctx_addEnergy (s.actEnergy a / 2) number used
    obtain ⟨unattr, -, -⟩ := State.addEnergy_keeps (s.actEnergy a / 2) number used
    have same : (s.addEnergy a.ctx.toNat (s.actEnergy a / 2)).ctx m = s.ctx m := by rw [ctx, if_neg other]
    have ctxM := State.ctx_addEnergy (s.actEnergy a - s.actEnergy a / 2) numbered (same.symm ▸ usedM)
    obtain ⟨unattrM, -, -⟩ := State.addEnergy_keeps (s.actEnergy a - s.actEnergy a / 2) numbered (same.symm ▸ usedM)
    refine completes_of_answer (exec_eq_answer (exec_powered rfl runs) (State.energyFold_shared partner)) ⟨?_, ?_, unattrM.trans unattr⟩
    · rw [State.keepQueue_get_ctx, ctxM, if_neg (Ne.symm other), ctx, if_pos rfl]
    · rw [State.keepQueue_get_ctx, ctxM, if_pos rfl, same]
  case unattributed =>
    intro a none still
    have zero : a.ctx.toNat = 0 := congrArg BitVec.toNat none
    refine exec_eq_next (exec_powered rfl runs) ?_ rfl
    rw [State.energyFold_alone (zero.symm ▸ State.switchPartner_none still), zero, State.addEnergy_unattributed]

end Sys2Proof.Machine
end

section
/-! PROOFS. Input power, the samples of MOD_EN_N, the bounds of the boot, rails and the thermal shutdown (R354, R430, R443, R500 to R505). -/

namespace Sys2Proof.Machine

/-! ### What a reset, a stop and the failed state leave -/

/-- What every reset of the compute islands takes away. -/
structure Emptied (t : State) : Prop where
  cores : t.cores = []
  ctxs : t.ctxs = []
  queues : t.queues = []
  fences : t.fences = []
  formes : t.formes = []
  parts : t.parts = []

theorem State.emptied_afterReset (s : State) : Emptied s.afterReset := ⟨rfl, rfl, rfl, rfl, rfl, rfl⟩

@[simp] theorem Pm.cutUpdate_pref (k : Pm) : k.cutUpdate.pref = k.pref := by
  unfold Pm.cutUpdate
  split
  · split <;> rfl
  · rfl

/-- The always-on island once the main rails are off. -/
def Pm.stopped (k : Pm) (cause : PmCause) : Pm :=
  { ({ k.cutUpdate with placed := false } : Pm).enter .standby with step := 0, cause := cause, start := false, stop := false }

theorem State.stopModule_running {s : State} (runs : s.running = true) (cause : PmCause) :
    s.stopModule cause = { s.afterReset with pm := s.pm.stopped cause } := if_pos runs

theorem State.stopModule_off {s : State} (off : s.running = false) (cause : PmCause) : s.stopModule cause = s :=
  if_neg (Bool.eq_false_iff.mp off)

theorem State.running_of_booting {s : State} (booting : s.pm.st = .booting) : s.running = true := by rw [State.running, booting]; rfl

/-! ### Samples of MOD_EN_N (R503, R504) -/

/-- A sample: local time, the input measured, and the pin with its edge after a THERMAL stop. -/
def State.sampled (s : State) (pin : Bool) (input : Nat × Nat × Nat) : State :=
  let t := s.advanceTo ((s.ltime / 1000000 + 1) * 1000000)
  { t with
    power := { s.power with inW := input.1, inV := input.2.1, inA := input.2.2 }
    pm := { s.pm with modEn := pin, edge := s.pm.edge || (s.pm.thermalAt.isSome && s.pm.modEn && !pin), start := false, stop := false } }

section Sample
variable {s : State} {pin : Bool} {input : Nat × Nat × Nat} {steps : List BootStep}

theorem State.modEnSample_off (off : s.pm.st = .off) : s.modEnSample pin input steps = s := if_pos off

theorem State.modEnSample_eq (on : s.pm.st ≠ .off) : s.modEnSample pin input steps =
    let t := s.sampled pin input
    if t.running ∧ (s.pm.stop ∨ (pin ∧ !s.pm.modEn)) then t.stopModule (if s.pm.stop then .stop else .modEn)
    else if s.pm.st = .booting then t.bootSteps steps
    else if s.pm.st = .standby ∧ !pin ∧ !s.pm.stop ∧ !s.pm.inputBad ∧ t.mayLeave s.pm.start t.pm.edge then t.bootBegin.bootSteps steps
    else t := if_neg on

theorem State.modEnSample_stops (runs : s.running = true) (stop : s.pm.stop = true ∨ (pin = true ∧ s.pm.modEn = false)) :
    s.modEnSample pin input steps = (s.sampled pin input).stopModule (if s.pm.stop then .stop else .modEn) := by
  have on : s.pm.st ≠ .off := fun off => by rw [State.running, off] at runs; cases runs
  rw [State.modEnSample_eq on]
  exact if_pos ⟨runs, stop.imp id fun ⟨high, low⟩ => ⟨high, by rw [low]; rfl⟩⟩

/-- A sample in STANDBY either begins the boot or only notes what it has read. -/
theorem State.modEnSample_standby (standby : s.pm.st = .standby) : s.modEnSample pin input steps =
    if pin = false ∧ s.pm.stop = false ∧ s.pm.inputBad = false ∧ (s.sampled pin input).mayLeave s.pm.start (s.sampled pin input).pm.edge = true then
      (s.sampled pin input).bootBegin.bootSteps steps
    else s.sampled pin input := by
  have still : (s.sampled pin input).running = false := by rw [State.running, show (s.sampled pin input).pm.st = .standby from standby]; rfl
  rw [State.modEnSample_eq (by rw [standby]; decide)]
  simp only [still, standby]
  simp

theorem State.modEnSample_ready (ready : s.pm.st = .ready) (goes : s.pm.stop = false) (pinOk : pin = false ∨ s.pm.modEn = true) :
    s.modEnSample pin input steps = s.sampled pin input := by
  rw [State.modEnSample_eq (by rw [ready]; decide)]
  have noStop : ¬ (s.pm.stop = true ∨ (pin = true ∧ (!s.pm.modEn) = true)) := by
    rw [goes]
    obtain low | held := pinOk
    · simp [low]
    · simp [held]
  dsimp only
  rw [if_neg fun both => noStop both.2, if_neg (by rw [ready]; decide), if_neg (by rw [ready]; simp)]

end Sample

section Leave
variable {s : State} (start edge : Bool)

/-- After a THERMAL stop PM_START or an edge ends STANDBY, and only after 60 s. -/
theorem State.mayLeave_thermal {t : Nat} (thermal : s.pm.thermalAt = some t) :
    s.mayLeave start edge = true ↔ (start = true ∨ edge = true) ∧ t + 60000000000 ≤ s.ltime := by
  simp [State.mayLeave, thermal]

theorem State.mayLeave_plain (notThermal : s.pm.thermalAt = none)
    (cause : s.pm.cause ∈ [PmCause.none, .modEn, .stop, .undervolt, .overvolt, .thermal]) :
    s.mayLeave start edge = true ↔ s.pm.auto = true ∨ start = true := by
  simp only [List.mem_cons, List.not_mem_nil, or_false] at cause
  unfold State.mayLeave
  rw [notThermal]
  rcases cause with h | h | h | h | h | h <;> simp [h]

theorem State.mayLeave_scrap (notThermal : s.pm.thermalAt = none) (cause : s.pm.cause = .scrap) : s.mayLeave start edge = false := by
  simp [State.mayLeave, notThermal, cause]

end Leave

/-! ### Bounds of the boot (R505) -/

/-- A security record leaves the always-on island. -/
theorem State.secRecord_eq (s : State) (ev severity handle ctx : Nat) :
    ∃ r p o l, s.secRecord ev severity handle ctx = { s with errRing := r, errProd := p, errOvf := o, ladders := l } := by
  rw [State.secRecord]
  exact State.record_eq s _

section Overrun
variable {s : State} {steps : List BootStep}

theorem State.bootOverrun_idle (idle : s.pm.st ≠ .booting) : s.bootOverrun steps = s := if_pos idle

/-- The state at the bound of the step in progress. -/
def State.atBound (s : State) : State := s.advanceTo (s.pm.stepAt + 1000000 * bootBound s.pm.step)

variable (booting : s.pm.st = .booting)
include booting

theorem State.bootOverrun_rom (rom : s.pm.step = 4) : s.bootOverrun steps = s.atBound.bootFails :=
  (if_neg (not_not.mpr booting)).trans (if_pos rom)

theorem State.bootOverrun_fails (notRom : s.pm.step ≠ 4) (notTest : s.pm.step ≠ 7) : s.bootOverrun steps = s.atBound.fail .notReady :=
  (if_neg (not_not.mpr booting)).trans ((if_neg notRom).trans (if_neg notTest))

theorem State.bootOverrun_test (test : s.pm.step = 7) : s.bootOverrun [] = { s.atBound with pm := { s.pm with step := 8 } } :=
  (if_neg (not_not.mpr booting)).trans ((if_neg fun rom => absurd (test.symm.trans rom) (by decide)).trans
    ((if_pos test).trans (if_pos ⟨booting, test⟩)))

end Overrun

/-! ### Rails and temperature (R430, R443) -/

section Rails
variable {s : State} {rail reading : Nat}

theorem State.railFault_off (off : s.pm.st = .off ∨ (rail ≠ 37 ∧ s.running = false)) : s.railFault rail reading = s :=
  if_pos (off.imp id fun ⟨other, still⟩ => ⟨other, by rw [still]; rfl⟩)

/-- The record of a rail fault. -/
def State.railRecord (s : State) (rail reading : Nat) : State :=
  s.powerRecord PowerEvent.railFault (if rail = 0 ∨ rail = 4 ∨ rail = 37 then 4 else 3) rail reading

/-- A rail of links or ports is noted as off. -/
def State.railOff (s : State) (rail : Nat) : State := { s with power := { s.power with railsOff := insertSorted rail s.power.railsOff } }

theorem State.railFault_on (on : s.pm.st ≠ .off) (runs : rail = 37 ∨ s.running = true) : s.railFault rail reading =
    let u := s.railRecord rail reading
    if rail < 8 then u.dieRail (rail % 4)
    else if rail < 24 then
      let t := u.fenceMany 0 (rangeFrom (96 * (rail % 4)) 96)
      t.1.settle t.2
    else if rail < 32 then (rangeFrom (4 * (rail % 4)) 4).foldl (fun s l => s.linkDown l) (u.railOff rail)
    else if rail < 36 then (rangeFrom (4 * (rail % 2)) 4).foldl (fun s p => s.portDown p) (u.railOff rail)
    else if rail = 36 then { u with pm := { u.pm with noFlash := true, update := u.pm.update.map fun (w : Update) => { w with ended := true } } }
    else u.fail .level5 :=
  if_neg fun bad => bad.elim on fun ⟨other, still⟩ => runs.elim other fun r => by rw [r] at still; cases still

/-- Without the rail of the boot flash nothing can be read from it, and an update ends. -/
theorem State.railFault_flash (on : s.pm.st ≠ .off) (runs : rail = 37 ∨ s.running = true) (flash : rail = 36) :
    ∃ r p o l, s.railFault rail reading = { s with errRing := r, errProd := p, errOvf := o, ladders := l, pm := { s.pm with
      noFlash := true, update := s.pm.update.map fun (w : Update) => { w with ended := true } } } := by
  obtain ⟨r, p, o, l, recorded⟩ := s.powerRecord_eq PowerEvent.railFault (if rail = 0 ∨ rail = 4 ∨ rail = 37 then 4 else 3) rail reading none
  refine ⟨r, p, o, l, (State.railFault_on on runs).trans ?_⟩
  subst flash
  rw [State.railRecord, recorded]
  rfl

/-- Without VDD_AO's own rail the module has failed. -/
theorem State.railFault_always (on : s.pm.st ≠ .off) (always : rail = 37) :
    ∃ r p o l, s.railFault rail reading = ({ s with errRing := r, errProd := p, errOvf := o, ladders := l } : State).fail .level5 := by
  obtain ⟨r, p, o, l, recorded⟩ := s.powerRecord_eq PowerEvent.railFault (if rail = 0 ∨ rail = 4 ∨ rail = 37 then 4 else 3) rail reading none
  refine ⟨r, p, o, l, (State.railFault_on on (.inl always)).trans ?_⟩
  subst always
  rw [State.railRecord, recorded]
  rfl

end Rails

theorem State.thermalShutdown_idle {s : State} {what reading : Nat} (idle : s.running = false ∨ reading < 115) :
    s.thermalShutdown what reading = s :=
  if_neg fun ⟨runs, hot⟩ => idle.elim (fun off => by rw [off] at runs; cases runs) (Nat.not_lt.mpr hot)

/-! ### The statement -/

/-- Settles O47: each part by what its row comes to. -/
theorem inputPowerAndStops : Obligations.InputPowerAndStops := by
  intro s high w v a steps reading lost tick
  refine ⟨?rise, ?risen, ?off, ?fails, ?loss, rfl, ?stop, ?begin, ?stays, ?ready, ?leave, ?overrun, ?rom, ?test, ?notBooting, ?railOff, ?rail,
    ?shutdown, ?noShutdown⟩
  case rise =>
    intro root off
    exact completes_of_answer (exec_eq_answer rfl (if_pos off)) ⟨rfl, rfl, rfl, rfl, rfl, rfl, rfl, rfl⟩
  case risen => exact fun root on => exec_eq_next rfl (if_neg on) rfl
  case off =>
    intro off
    simp only [List.forall_mem_cons, List.not_mem_nil, false_implies, implies_true, and_true]
    exact ⟨exec_eq_next rfl (if_pos off) rfl, exec_eq_next rfl (if_pos off) rfl, exec_eq_next rfl (if_pos off) rfl,
      exec_eq_next rfl (State.modEnSample_off off) rfl⟩
  case fails =>
    have failed (cause : PmCause) (on : s.pm.st ≠ .off) : let t := s.keepQueue (s.inputFails cause)
        t.pm.inputBad = true ∧ t.running = false ∧ t.errRing = s.errRing ∧ t.errProd = s.errProd ∧
          (s.running = true → t.pm.st = .standby ∧ t.pm.cause = cause ∧ lost t) := by
      rw [State.inputFails, if_neg on]
      cases runs : s.running with
      | true => 
        rw [State.stopModule_running runs]
        exact ⟨rfl, rfl, rfl, rfl, fun _ => ⟨rfl, rfl, rfl, rfl, rfl, rfl, rfl, rfl⟩⟩
      | false =>
        rw [State.stopModule_off runs]
        exact ⟨rfl, runs, rfl, rfl, nofun⟩
    simp only [List.forall_mem_cons, List.not_mem_nil, false_implies, implies_true, and_true]
    exact ⟨fun on => completes_of_answer rfl (failed .undervolt on), fun on => completes_of_answer rfl (failed .overvolt on)⟩
  case loss =>
    intro on
    exact completes_of_answer (exec_eq_answer rfl (if_neg on)) ⟨rfl, rfl, Pm.cutUpdate_pref _, rfl, rfl, rfl, rfl, rfl, rfl⟩
  case stop =>
    intro runs stop
    exact completes_of_answer (exec_eq_answer rfl ((State.modEnSample_stops runs stop).trans (State.stopModule_running (s := s.sampled high (w, v, a)) runs _)))
      ⟨rfl, rfl, rfl, ⟨rfl, rfl, rfl, rfl, rfl, rfl⟩, rfl, rfl⟩
  case begin =>
    intro standby low noStop good may
    have edge : (s.sampled high (w, v, a)).pm.edge = (s.pm.edge || (s.pm.thermalAt.isSome && s.pm.modEn)) := by
      simp [State.sampled, low]
    exact completes_of_answer (exec_eq_answer rfl ((State.modEnSample_standby standby).trans (if_pos ⟨low, noStop, good, edge.symm ▸ may⟩)))
      ⟨rfl, rfl, rfl, rfl⟩
  case stays =>
    intro standby held
    have notBegin (may : Prop) : ¬ (high = false ∧ s.pm.stop = false ∧ s.pm.inputBad = false ∧ may) := by
      rintro ⟨low, noStop, good, -⟩
      simp [low, noStop, good] at held
    exact completes_of_answer (exec_eq_answer rfl ((State.modEnSample_standby standby).trans (if_neg (notBegin _)))) ⟨standby, rfl, rfl, rfl⟩
  case ready =>
    intro ready goes pinOk
    exact completes_of_answer (exec_eq_answer rfl (State.modEnSample_ready ready goes pinOk)) ⟨ready, rfl, rfl, rfl, rfl⟩
  case leave =>
    exact fun start edge => ⟨fun x thermal => State.mayLeave_thermal start edge thermal, State.mayLeave_plain start edge,
      State.mayLeave_scrap start edge⟩
  case overrun =>
    intro booting notRom notTest
    exact completes_of_answer (exec_eq_answer rfl (State.bootOverrun_fails booting notRom notTest)) ⟨rfl, rfl, rfl, rfl, rfl, rfl, rfl, rfl⟩
  case rom =>
    intro booting rom
    obtain ⟨r, p, o, l, recorded⟩ := s.atBound.secRecord_eq 0x05 4 0 0
    have stopped := State.stopModule_running (s := { s.atBound with errRing := r, errProd := p, errOvf := o, ladders := l })
      (State.running_of_booting booting) .bootVerify
    refine completes_of_answer (exec_eq_answer rfl (State.bootOverrun_rom booting rom)) ?_
    rw [State.bootFails, recorded, State.abandonBoot, stopped]
    exact ⟨rfl, rfl, rfl⟩
  case test =>
    intro booting test
    exact completes_of_answer (exec_eq_answer rfl (State.bootOverrun_test booting test)) ⟨booting, rfl, rfl⟩
  case notBooting => exact fun idle => exec_eq_next rfl (State.bootOverrun_idle idle) rfl
  case railOff =>
    exact fun rail off => exec_eq_next rfl (State.railFault_off (off.imp id fun ⟨other, still⟩ => ⟨Fin.val_ne_of_ne other, still⟩)) rfl
  case rail =>
    intro rail on runs
    have acts := State.railFault_on (reading := reading.toNat) on (runs.imp (congrArg Fin.val) id)
    refine ⟨fun die => exec_eq_answer rfl (acts.trans (if_pos die)), fun low high => exec_eq_answer rfl (acts.trans ?links),
      fun low high => exec_eq_answer rfl (acts.trans ?ports), fun flash => ?flash, fun always => ?always⟩
    case links => exact (if_neg (by omega)).trans ((if_neg (by omega)).trans (if_pos high))
    case ports => exact (if_neg (by omega)).trans ((if_neg (by omega)).trans ((if_neg (by omega)).trans (if_pos high)))
    case flash =>
      obtain ⟨r, p, o, l, is⟩ := State.railFault_flash (reading := reading.toNat) on (runs.imp (congrArg Fin.val) id) flash
      exact completes_of_answer (exec_eq_answer rfl is) ⟨rfl, rfl, rfl⟩
    case always =>
      obtain ⟨r, p, o, l, is⟩ := State.railFault_always (reading := reading.toNat) on always
      exact completes_of_answer (exec_eq_answer rfl is) ⟨rfl, rfl, rfl, rfl, rfl, rfl, rfl, rfl⟩
  case shutdown =>
    intro what runs hot
    obtain ⟨r, p, o, l, acts⟩ := State.thermalShutdown_acts (what := what) runs hot
    exact completes_of_answer (exec_eq_answer rfl acts) ⟨rfl, rfl, rfl, rfl, rfl, rfl, rfl, rfl, rfl⟩
  case noShutdown => exact fun what idle => exec_eq_next rfl (State.thermalShutdown_idle idle) rfl

end Sys2Proof.Machine
end

section
/-! PROOFS. Share lists, windows, attestation, the life cycle, the version floor and sealing (R388, R389, R399, R406, R407, R419, R425, R427, R463). -/

namespace Sys2Proof.Machine

/-! ### The state in which a command has started -/

section Start
variable (s : State) (q : Nat) (c : Cmd)

@[simp] theorem State.key_start (h : Nat) : (s.start q c).key h = s.key h := rfl
@[simp] theorem State.shares_start : (s.start q c).shares = s.shares := rfl
@[simp] theorem State.sec_start : (s.start q c).sec = s.sec := rfl
@[simp] theorem State.keyRefusal_start (n h : Nat) : (s.start q c).keyRefusal n h = s.keyRefusal n h := rfl
@[simp] theorem State.windowRefusal_start (n keyh base len : Nat) : (s.start q c).windowRefusal n keyh base len = s.windowRefusal n keyh base len := rfl
@[simp] theorem State.actsOn_start (forme job member : Nat) : (s.start q c).actsOn forme job member = s.actsOn forme job member := rfl

end Start

/-! ### SHARE_SET (R399, R415) -/

theorem mem_onceEach (l : List Nat) (x : Nat) : x ∈ onceEach l ↔ x ∈ l := by
  induction l with
  | nil => exact Iff.rfl
  | cons a r ih =>
    by_cases same : x = a
    · simp [onceEach, same]
    · simp [onceEach, same, ih]

theorem nodup_onceEach (l : List Nat) : (onceEach l).Nodup := by
  induction l with
  | nil => exact List.nodup_nil
  | cons a r ih => exact List.nodup_cons.mpr ⟨by simp, ih.filter _⟩

theorem State.keyRefusal_ne_zero {s : State} {n h : Nat} (refused : s.keyRefusal n h ≠ 0) : s.keyRefusal n h = Kd.keyOwner := by
  unfold State.keyRefusal at refused ⊢
  exact if_neg fun owner => refused (if_pos owner)

section Share
variable {s : State} {q op : Nat} {f : List Nat → List Nat → List Nat}

theorem State.shareSet_none (none : (s.next q fun d => d.opc == 0x54 && decide (bits (d.arg 0) 13 12 = op)) = none) : s.shareSet q op f = s := by
  rw [State.shareSet, none]

variable {c : Cmd}

theorem State.shareSet_takes (takes : (s.next q fun d => d.opc == 0x54 && decide (bits (d.arg 0) 13 12 = op)) = some c) : s.shareSet q op f =
    let u := s.start q c
    let h := bits (c.arg 0) 11 0
    let ps := sharePrincipals c
    let l := (s.key h).share
    let now := f (Tbl.get (⟨0, []⟩ : ShareList) s.shares l).members ps
    if c.session = 0 then u.finish q c.place { status := St.badSeal }
    else if ps.isEmpty ∨ 16 < ps.length ∨ (ps.any fun x => decide (2 ^ 17 ≤ x)) then u.refuseCmd q c Dt.field
    else if s.keyRefusal (s.queue q).ctx h ≠ 0 then u.refuseCmd q c (s.keyRefusal (s.queue q).ctx h)
    else if 64 < now.length then u.refuseCmd q c Kd.shareFull
    else ({ u with shares := Tbl.set u.shares l ⟨h, now⟩ } : State).okCmd q c := by
  rw [State.shareSet, takes]
  simp only [State.queue_start_ctx, State.keyRefusal_start, State.key_start, State.shares_start]
  rfl

/-- A sealed SHARE_SET that names one to sixteen principals. -/
theorem State.shareSet_named (takes : (s.next q fun d => d.opc == 0x54 && decide (bits (d.arg 0) 13 12 = op)) = some c) (isSealed : c.session ≠ 0)
    (named : sharePrincipals c ≠ []) (few : (sharePrincipals c).length ≤ 16) (known : ∀ x ∈ sharePrincipals c, x < 2 ^ 17) : s.shareSet q op f =
    let u := s.start q c
    let h := bits (c.arg 0) 11 0
    let l := (s.key h).share
    let now := f (Tbl.get (⟨0, []⟩ : ShareList) s.shares l).members (sharePrincipals c)
    if s.keyRefusal (s.queue q).ctx h ≠ 0 then u.refuseCmd q c (s.keyRefusal (s.queue q).ctx h)
    else if 64 < now.length then u.refuseCmd q c Kd.shareFull
    else ({ u with shares := Tbl.set u.shares l ⟨h, now⟩ } : State).okCmd q c := by
  refine (State.shareSet_takes takes).trans ((if_neg isSealed).trans (if_neg ?_))
  rintro (none | many | unknown)
  · exact named (List.isEmpty_iff.mp none)
  · exact Nat.not_lt.mpr few many
  · obtain ⟨x, mem, large⟩ := List.any_eq_true.mp unknown
    exact absurd (known x mem) (Nat.not_lt.mpr (of_decide_eq_true large))

/-- What a SHARE_SET with one of its operations comes to. -/
theorem shareSet_row {i : Instr} {q : QueueId} (row : exec i s = s.answer (s.shareSet q op f)) :
    let ps := sharePrincipals c
    let h := bits (c.arg 0) 11 0
    let u := s.start q c
    let l := (s.key h).share
    let now := f (Tbl.get (⟨0, []⟩ : ShareList) s.shares l).members ps
    ((s.next q fun d => d.opc == 0x54 && decide (bits (d.arg 0) 13 12 = op)) = none → exec i s = .next s) ∧
    ((s.next q fun d => d.opc == 0x54 && decide (bits (d.arg 0) 13 12 = op)) = some c →
      (c.session = 0 → exec i s = s.answer (u.finish q c.place { status := St.badSeal })) ∧
      (c.session ≠ 0 → ps ≠ [] → ps.length ≤ 16 → (∀ x ∈ ps, x < 2 ^ 17) →
        (s.keyRefusal (s.queue q).ctx h ≠ 0 → exec i s = s.answer (u.refuseCmd q c Kd.keyOwner)) ∧
        (s.keyRefusal (s.queue q).ctx h = 0 → 64 < now.length → exec i s = s.answer (u.refuseCmd q c Kd.shareFull)) ∧
        (s.keyRefusal (s.queue q).ctx h = 0 → now.length ≤ 64 →
          exec i s = s.answer (({ u with shares := Tbl.set u.shares l ⟨h, now⟩ } : State).okCmd q c)))) := by
  refine ⟨fun none => exec_eq_next row (State.shareSet_none none) rfl, fun takes => ⟨fun unsealed => ?_, fun isSealed named few known => ?_⟩⟩
  · exact exec_eq_answer row ((State.shareSet_takes takes).trans (if_pos unsealed))
  · have set := State.shareSet_named (f := f) takes isSealed named few known
    refine ⟨fun refused => exec_eq_answer row ?_, fun owner full => exec_eq_answer row ?_, fun owner room => exec_eq_answer row ?_⟩
    · exact set.trans ((if_pos refused).trans (congrArg _ (State.keyRefusal_ne_zero refused)))
    · exact set.trans ((if_neg (not_not.mpr owner)).trans (if_pos full))
    · exact set.trans ((if_neg (not_not.mpr owner)).trans (if_neg (Nat.not_lt.mpr room)))

end Share

/-! ### WINDOW (R406, R407) -/

/-- A command of a queue that may start and acts for a context of this module, by what it did there. -/
theorem State.onMember_here {s t : State} {q : QueueId} {opc m d v : Nat} {sub : Cmd → Bool} {memberOf : Cmd → Nat} {c : Cmd}
    {act : State → Nat → List Word64 → Did} (result : Nat → List Word64)
    (takes : (s.next q fun d => d.opc == opc && sub d) = some c)
    (here : s.actsOn (s.ctx (s.queue q).ctx).forme (s.ctx (s.queue q).ctx).job (memberOf c) = .here m)
    (did : act (s.start q c) m (c.words.drop 5 ++ c.second) = (d, v, t)) :
    s.onMember (.queue q none) opc sub memberOf act result = if d = 0 then t.okCmd q c (result v) else t.refuseCmd q c d := by
  simp only [State.onMember, takes, State.queue_start_ctx, State.ctx_start, State.actsOn_start, here, did]

/-- What WINDOW install does for context `n` by the argument words `a`. -/
def State.installWindow (s : State) (n : Nat) (a : List Word64) : Did :=
  let p := (s.ctx n).part
  let i := bits (argAt a 0) 5 0
  let why := s.windowRefusal n (bits (argAt a 0) 19 8) (bits (argAt a 1) 39 0) (bits (argAt a 2) 39 0)
  if (Tbl.find (s.part p).windows i).isSome then (Dt.field, 0, s)
  else if why ≠ 0 then (why, 0, s)
  else (0, 0, (s.keepTables p).modPart p fun q => { q with
    windows := Tbl.set q.windows i ⟨bits (argAt a 1) 39 0, bits (argAt a 2) 39 0, bits (argAt a 0) 19 8, n⟩ })

/-- What WINDOW remove does. -/
def State.removeWindow (s : State) (n : Nat) (a : List Word64) : Did :=
  let p := (s.ctx n).part
  let i := bits (argAt a 0) 5 0
  match Tbl.find (s.part p).windows i with
  | some w => if w.owner = n then (0, 0, (s.keepTables p).modPart p fun q => { q with windows := Tbl.del q.windows i }) else (Kd.keyOwner, 0, s)
  | none => (Kd.keyOwner, 0, s)

theorem State.windowInstall_eq (s : State) (src : CmdSource) : s.windowInstall src = s.windowCmd src 0 State.installWindow := rfl
theorem State.windowRemove_eq (s : State) (src : CmdSource) : s.windowRemove src = s.windowCmd src 1 State.removeWindow := rfl

section Window
variable {s : State} {n : Nat} {a : List Word64}

theorem State.installWindow_used (used : (Tbl.find (s.part (s.ctx n).part).windows (bits (argAt a 0) 5 0)).isSome = true) :
    s.installWindow n a = (Dt.field, 0, s) := if_pos used

theorem State.installWindow_refused (free : ¬ (Tbl.find (s.part (s.ctx n).part).windows (bits (argAt a 0) 5 0)).isSome = true)
    (why : s.windowRefusal n (bits (argAt a 0) 19 8) (bits (argAt a 1) 39 0) (bits (argAt a 2) 39 0) ≠ 0) :
    s.installWindow n a = (s.windowRefusal n (bits (argAt a 0) 19 8) (bits (argAt a 1) 39 0) (bits (argAt a 2) 39 0), 0, s) :=
  (if_neg free).trans (if_pos why)

theorem State.installWindow_ok (free : ¬ (Tbl.find (s.part (s.ctx n).part).windows (bits (argAt a 0) 5 0)).isSome = true)
    (ok : s.windowRefusal n (bits (argAt a 0) 19 8) (bits (argAt a 1) 39 0) (bits (argAt a 2) 39 0) = 0) :
    s.installWindow n a = (0, 0, (s.keepTables (s.ctx n).part).modPart (s.ctx n).part fun q => { q with
      windows := Tbl.set q.windows (bits (argAt a 0) 5 0) ⟨bits (argAt a 1) 39 0, bits (argAt a 2) 39 0, bits (argAt a 0) 19 8, n⟩ }) :=
  (if_neg free).trans (if_neg (not_not.mpr ok))

theorem State.removeWindow_owner {w : KeyWindow} (owner : w.owner = n)
    (found : Tbl.find (s.part (s.ctx n).part).windows (bits (argAt a 0) 5 0) = some w) :
    s.removeWindow n a = (0, 0, (s.keepTables (s.ctx n).part).modPart (s.ctx n).part fun q => { q with
      windows := Tbl.del q.windows (bits (argAt a 0) 5 0) }) := by
  simp only [State.removeWindow, found, if_pos owner]

theorem State.removeWindow_other (other : ∀ w, Tbl.find (s.part (s.ctx n).part).windows (bits (argAt a 0) 5 0) = some w → w.owner ≠ n) :
    s.removeWindow n a = (Kd.keyOwner, 0, s) := by
  unfold State.removeWindow
  dsimp only
  split
  case h_1 w found => exact if_neg (other w found)
  case h_2 => rfl

end Window

section Row
variable {s t : State} {q : QueueId} {c : Cmd} {i : Instr} {m op d v : Nat} {act : State → Nat → List Word64 → Did}
  (row : exec i s = s.answer (s.windowCmd (.queue q none) op act))
  (here : s.actsOn (s.ctx (s.queue q).ctx).forme (s.ctx (s.queue q).ctx).job (bits (c.arg 0) 35 20) = .here m)
  (takes : (s.next q fun d => d.opc == 0x55 && decide (bits (d.arg 0) 7 6 = op)) = some c)
  (did : act (s.start q c) m (c.words.drop 5 ++ c.second) = (d, v, t))
include row here takes did

/-- A WINDOW command of a queue ends with what its operation did on this module. -/
theorem windowRow_refused (refused : d ≠ 0) : exec i s = s.answer (t.refuseCmd q c d) :=
  exec_eq_answer row ((State.onMember_here (memberOf := fun c => bits (c.arg 0) 35 20) (fun _ => []) takes here did).trans (if_neg refused))

theorem windowRow_ok (ok : d = 0) : exec i s = s.answer (t.okCmd q c) :=
  exec_eq_answer row ((State.onMember_here (memberOf := fun c => bits (c.arg 0) 35 20) (fun _ => []) takes here did).trans (if_pos ok))

end Row

/-- A window that is not refused: its key, its range and the windows beside it (R407). -/
theorem State.windowRefusal_zero {s : State} {m keyh base len : Nat} (ok : s.windowRefusal m keyh base len = 0) :
    (∀ w ∈ (s.part (s.ctx m).part).windows, base + len ≤ w.2.base ∨ w.2.base + w.2.length ≤ base) ∧
      base % 4096 = 0 ∧ len % 4096 = 0 ∧ 0 < len ∧ (s.key keyh).type = .mem ∧ (s.key keyh).valid = true := by
  unfold State.windowRefusal at ok
  dsimp only at ok
  split at ok
  case isTrue => cases ok
  case isFalse keyOk =>
    split at ok
    case isTrue => cases ok
    case isFalse rangeOk =>
      split at ok
      case isTrue => cases ok
      case isFalse apart =>
        simp only [not_or, not_not] at keyOk rangeOk apart
        obtain ⟨type, valid, -⟩ := keyOk
        obtain ⟨baseAligned, lenAligned, nonzero, -⟩ := rangeOk
        refine ⟨fun w listed => ?_, baseAligned, lenAligned, Nat.pos_of_ne_zero nonzero, type, by simpa using valid⟩
        have clear := apart.1
        simp only [List.any_eq_true, not_exists, not_and] at clear
        have clear := clear w listed
        simp only [meet, Bool.and_eq_true, decide_eq_true_eq] at clear
        omega

/-! ### ATTEST (R427) -/

theorem length_fieldBytes (n : Nat) (l : List Byte) : (fieldBytes n l).length = n := by
  simp [fieldBytes]

theorem State.length_drawBytes (s : State) (n : Nat) : (s.drawBytes n).1.length = n := leBytes_length _ _

/-- Drawing bytes moves on the model's own counter, and nothing else. -/
theorem State.drawBytes_eq (s : State) (n : Nat) : (s.drawBytes n).2 = { s with freeIx := s.freeIx + 1 } := rfl

theorem State.length_colophon (s : State) (nonce transcript : List Byte) : (s.colophon nonce transcript).1.length = 1932 := by
  unfold State.colophon
  dsimp only
  rw [List.length_append, State.length_drawBytes]
  simp only [List.length_append, leBytes_length, length_fieldBytes]

theorem Security.length_identityCert (k : Security) (g : Nat) {keys sigs : List Byte} : (k.identityCert g keys sigs).length = 2108 := by
  simp only [Security.identityCert, List.length_append, leBytes_length, length_fieldBytes]

theorem State.length_idCertificates (s : State) : s.idCertificates.1.length = 4216 := by
  unfold State.idCertificates
  split
  · simp only [List.length_append, length_fieldBytes]
  · simp only [List.length_append, Security.length_identityCert, State.length_drawBytes]

theorem State.length_certificates (s : State) : s.certificates.1.length = 6164 := by
  unfold State.certificates
  dsimp only
  simp only [List.length_append, leBytes_length, State.length_drawBytes, State.length_idCertificates]

/-- The certificates move on the model's own counter, and nothing else. -/
theorem State.certificates_eq (s : State) : ∃ n, s.certificates.2 = { s with freeIx := n } := by
  have ids (t : State) : ∃ n, t.idCertificates.2 = { t with freeIx := n } := by
    unfold State.idCertificates
    split
    · exact ⟨t.freeIx, rfl⟩
    · exact ⟨_, rfl⟩
  exact ids _

section Attest
variable {s : State} {q : Nat} {c : Cmd} {b : List Byte} (takes : s.takes q 0x56 c) (read : c.bulk = some b) (long : 48 ≤ b.length)
include takes read long

theorem State.attest_refused (spent : s.sec.canAttest = false) : s.attest q = (s.start q c).refuseCmd q c Kd.attLeaves := by
  rw [State.attest, State.onBulk_read takes read, if_neg (Nat.not_lt.mpr long), State.sec_start, spent]
  rfl

theorem State.attest_signs (able : s.sec.canAttest = true) : ∃ (v : State) (r : List Byte), s.attest q = (v.writeAnswer c r).okCmd q c ∧
    v.sec.colophons = s.sec.colophons + 1 ∧ r.length = 8096 ∧ v.keys = s.keys := by
  obtain ⟨n, certified⟩ := State.certificates_eq ((s.start q c).colophon (b.take 48) []).2
  refine ⟨((s.start q c).colophon (b.take 48) []).2.certificates.2,
    ((s.start q c).colophon (b.take 48) []).1 ++ ((s.start q c).colophon (b.take 48) []).2.certificates.1, ?_, ?_, ?_, ?_⟩
  · rw [State.attest, State.onBulk_read takes read, if_neg (Nat.not_lt.mpr long), State.sec_start, able]
    rfl
  · rw [certified]; rfl
  · rw [List.length_append, State.length_colophon, State.length_certificates]
  · rw [certified]; rfl

end Attest

/-! ### LIFECYCLE (R388, R389) -/

/-- The state from which a transition is taken: the command has completed, and the record of it stands. -/
def State.lifeStart (s : State) (q : Nat) (c : Cmd) : State := ((s.start q c).okCmd q c).secRecord 0x07 0

section Life
variable {s : State} {q op : Nat} {sigs : Bool} {act : State → List Byte → Option State} {c : Cmd} {b : List Byte} {i : Instr}
  (row : exec i s = s.answer (s.lifecycle q op sigs act)) (takes : (s.next q fun d => d.isLife op) = some c) (read : c.bulk = some b)
include row takes read

/-- A good token whose transition the present state has. -/
theorem lifeRow_acts {t : State} (good : (s.start q c).tokenGood op sigs b = true)
    (acts : act (s.lifeStart q c) b = some t) : exec i s = s.answer t := by
  have acts : act (((s.start q c).okCmd q c).secRecord 0x07 0) b = some t := acts
  refine exec_eq_answer row ?_
  simp only [State.lifecycle, takes, read, good, if_true, acts]

/-- A token that is not good, or has no transition in the present state. -/
theorem lifeRow_refused
    (bad : (s.start q c).tokenGood op sigs b = false ∨ act (s.lifeStart q c) b = none) :
    exec i s = s.answer ((s.start q c).refuseCmd q c Kd.token) := by
  refine exec_eq_answer row ?_
  obtain token | none := bad
  · simp only [State.lifecycle, takes, read, token, Bool.false_eq_true, if_false]
  · have none : act (((s.start q c).okCmd q c).secRecord 0x07 0) b = .none := none
    simp only [State.lifecycle, takes, read, none, ite_self]

end Life

/-! The transition of each operation. -/

def State.provisionLife (s : State) (b : List Byte) : Option State :=
  if s.sec.lc = 0 then some (({ s with sec := { s.sec.toLife 1 with gen0Cert := true } } : State).certify 0 b) else none

def State.claimLife (s : State) (b : List Byte) : Option State :=
  if s.sec.lc = 1 then some { s with sec := (({ s.sec.toLife 2 with
    ownerEc := Config.sha384 ((b.drop 24).take 96), ownerLms := Config.sha384 ((b.drop 120).take 56) } : Security).seal 4).seal 5 } else none

def State.returnLife (s : State) (b : List Byte) : Option State :=
  if s.sec.lc = 2 ∧ s.ownersMatch b = true then some (s.moduleReset.setLife 3) else none

def State.scrapLife (s : State) (b : List Byte) : Option State :=
  if s.sec.lc = 2 ∧ s.ownersMatch b = true then some (s.moduleReset.setLife 4)
  else if s.sec.lc = 3 then some (s.setLife 4) else none

def State.reprovisionLife (s : State) (b : List Byte) : Option State :=
  if s.sec.lc = 2 then some (({ s with sec := { s.sec with gen1 := true, gen1Cert := true } } : State).certify 1 b) else none

section Transitions
variable {r : State} (b : List Byte)

theorem State.provisionLife_blank (blank : r.sec.lc = 0) :
    r.provisionLife b = some (({ r with sec := { r.sec.toLife 1 with gen0Cert := true } } : State).certify 0 b) := if_pos blank

theorem State.provisionLife_none (other : r.sec.lc ≠ 0) : r.provisionLife b = none := if_neg other

theorem State.claimLife_provisioned (provisioned : r.sec.lc = 1) : r.claimLife b = some { r with sec := (({ r.sec.toLife 2 with
    ownerEc := Config.sha384 ((b.drop 24).take 96), ownerLms := Config.sha384 ((b.drop 120).take 56) } : Security).seal 4).seal 5 } :=
  if_pos provisioned

theorem State.claimLife_none (other : r.sec.lc ≠ 1) : r.claimLife b = none := if_neg other

theorem State.returnLife_field (field : r.sec.lc = 2) (owners : r.ownersMatch b = true) : r.returnLife b = some (r.moduleReset.setLife 3) :=
  if_pos ⟨field, owners⟩

theorem State.returnLife_none (other : r.sec.lc ≠ 2 ∨ r.ownersMatch b = false) : r.returnLife b = none :=
  if_neg fun yes => other.elim (absurd yes.1) fun others => Bool.false_ne_true (others.symm.trans yes.2)

theorem State.scrapLife_field (field : r.sec.lc = 2) (owners : r.ownersMatch b = true) : r.scrapLife b = some (r.moduleReset.setLife 4) :=
  if_pos ⟨field, owners⟩

theorem State.scrapLife_returned (returned : r.sec.lc = 3) : r.scrapLife b = some (r.setLife 4) :=
  (if_neg fun field => absurd (returned.symm.trans field.1) (by decide)).trans (if_pos returned)

theorem State.scrapLife_none (other : r.sec.lc ≠ 2 ∧ r.sec.lc ≠ 3) : r.scrapLife b = none :=
  (if_neg fun field => other.1 field.1).trans (if_neg other.2)

theorem State.reprovisionLife_field (field : r.sec.lc = 2) :
    r.reprovisionLife b = some (({ r with sec := { r.sec with gen1 := true, gen1Cert := true } } : State).certify 1 b) := if_pos field

theorem State.reprovisionLife_none (other : r.sec.lc ≠ 2) : r.reprovisionLife b = none := if_neg other

end Transitions

section Rows
variable {s : State} {q : QueueId} {c : Cmd} {b : List Byte} (read : c.bulk = some b) (sigs : Bool)
include read

theorem provision_row (takes : (s.next q fun d => d.isLife 1) = some c) :
    let r := s.lifeStart q c
    ((s.start q c).tokenGood 1 sigs b = false ∨ r.sec.lc ≠ 0 → exec (.provision q sigs) s = s.answer ((s.start q c).refuseCmd q c Kd.token)) ∧
    ((s.start q c).tokenGood 1 sigs b = true → r.sec.lc = 0 → exec (.provision q sigs) s =
      s.answer (({ r with sec := { r.sec.toLife 1 with gen0Cert := true } } : State).certify 0 b)) :=
  ⟨fun bad => lifeRow_refused (act := State.provisionLife) rfl takes read (bad.imp_right (State.provisionLife_none b)),
    fun good blank => lifeRow_acts (act := State.provisionLife) rfl takes read good (State.provisionLife_blank b blank)⟩

theorem claim_row (takes : (s.next q fun d => d.isLife 2) = some c) :
    let r := s.lifeStart q c
    ((s.start q c).tokenGood 2 sigs b = false ∨ r.sec.lc ≠ 1 → exec (.claim q sigs) s = s.answer ((s.start q c).refuseCmd q c Kd.token)) ∧
    ((s.start q c).tokenGood 2 sigs b = true → r.sec.lc = 1 → exec (.claim q sigs) s = s.answer { r with sec := (({ r.sec.toLife 2 with
      ownerEc := Config.sha384 ((b.drop 24).take 96), ownerLms := Config.sha384 ((b.drop 120).take 56) } : Security).seal 4).seal 5 }) :=
  ⟨fun bad => lifeRow_refused (act := State.claimLife) rfl takes read (bad.imp_right (State.claimLife_none b)),
    fun good provisioned => lifeRow_acts (act := State.claimLife) rfl takes read good (State.claimLife_provisioned b provisioned)⟩

theorem returnDevice_row (takes : (s.next q fun d => d.isLife 3) = some c) :
    let r := s.lifeStart q c
    ((s.start q c).tokenGood 3 sigs b = false ∨ r.sec.lc ≠ 2 ∨ r.ownersMatch b = false →
      exec (.returnDevice q sigs) s = s.answer ((s.start q c).refuseCmd q c Kd.token)) ∧
    ((s.start q c).tokenGood 3 sigs b = true → r.sec.lc = 2 → r.ownersMatch b = true →
      exec (.returnDevice q sigs) s = s.answer (r.moduleReset.setLife 3)) :=
  ⟨fun bad => lifeRow_refused (act := State.returnLife) rfl takes read (bad.imp_right (State.returnLife_none b)),
    fun good field owners => lifeRow_acts (act := State.returnLife) rfl takes read good (State.returnLife_field b field owners)⟩

theorem scrap_row (takes : (s.next q fun d => d.isLife 4) = some c) :
    let r := s.lifeStart q c
    ((s.start q c).tokenGood 4 sigs b = true → r.sec.lc = 2 → r.ownersMatch b = true → exec (.scrap q sigs) s = s.answer (r.moduleReset.setLife 4)) ∧
    ((s.start q c).tokenGood 4 sigs b = true → r.sec.lc = 3 → exec (.scrap q sigs) s = s.answer (r.setLife 4)) ∧
    ((s.start q c).tokenGood 4 sigs b = false ∨ (r.sec.lc ≠ 2 ∧ r.sec.lc ≠ 3) →
      exec (.scrap q sigs) s = s.answer ((s.start q c).refuseCmd q c Kd.token)) :=
  ⟨fun good field owners => lifeRow_acts (act := State.scrapLife) rfl takes read good (State.scrapLife_field b field owners),
    fun good returned => lifeRow_acts (act := State.scrapLife) rfl takes read good (State.scrapLife_returned b returned),
    fun bad => lifeRow_refused (act := State.scrapLife) rfl takes read (bad.imp_right (State.scrapLife_none b))⟩

theorem reprovision_row (takes : (s.next q fun d => d.isLife 5) = some c) :
    let r := s.lifeStart q c
    ((s.start q c).tokenGood 5 sigs b = false ∨ r.sec.lc ≠ 2 → exec (.reprovision q sigs) s = s.answer ((s.start q c).refuseCmd q c Kd.token)) ∧
    ((s.start q c).tokenGood 5 sigs b = true → r.sec.lc = 2 → exec (.reprovision q sigs) s =
      s.answer (({ r with sec := { r.sec with gen1 := true, gen1Cert := true } } : State).certify 1 b)) :=
  ⟨fun bad => lifeRow_refused (act := State.reprovisionLife) rfl takes read (bad.imp_right (State.reprovisionLife_none b)),
    fun good field => lifeRow_acts (act := State.reprovisionLife) rfl takes read good (State.reprovisionLife_field b field)⟩

end Rows

theorem State.tokenGood_sound {s : State} {op : Nat} {sigs : Bool} {b : List Byte} (good : s.tokenGood op sigs b = true) :
    sigs = true ∧ atBytes b 8 14 = s.sec.serial := by
  simp only [State.tokenGood, Bool.and_eq_true, decide_eq_true_eq] at good
  obtain ⟨⟨-, serial⟩, signed⟩ := good
  exact ⟨signed, serial⟩

/-! ### SVN_COMMIT (R425) -/

theorem State.svnCommit_takes {s : State} {q : Nat} {c : Cmd} (takes : s.takes q 0x58 c) : s.svnCommit q =
    let u := s.start q c
    if min s.sec.svnRun 256 ≤ s.sec.svn then u.refuseCmd q c Kd.svnNone
    else ({ u with sec := { u.sec with svn := min s.sec.svnRun 256 } } : State).okCmd q c [BitVec.ofNat 64 (min s.sec.svnRun 256)] :=
  State.onCmd_takes takes _

/-! ### PACKET_SEAL (R419, R463) -/

theorem State.packetSeal_empty {s : State} (empty : s.egress = []) : s.packetSeal = s := by
  rw [State.packetSeal, empty]

theorem State.packetSeal_key {s : State} {m h : Nat} {msg : Sent} {rest : List (Nat × Sent)} (waits : s.egress = (m, msg) :: rest)
    (current : s.linkKey m msg.lane = some h) : s.packetSeal =
      let v : State := { s with egress := rest }
      if 2 ^ (s.key h).limitLog ≤ (s.key h).uses then
        match v.otherLinkKey m h with
        | some g => (v.moveCurrent h g).leaveSealed m g msg
        | none => v.endUnsealable m msg
      else v.leaveSealed m h msg := by
  have current : ({ s with egress := rest } : State).linkKey m msg.lane = some h := current
  simp only [State.packetSeal, waits, current]
  rfl

/-! ### The statement -/

/-- Settles O51: each command by what it comes to. -/
theorem shareWindowAndLifeCycleCommands : Obligations.ShareWindowAndLifeCycleCommands := by
  intro s q c u a n done refused
  refine ⟨?share, ?window, fun m keyh base len => State.windowRefusal_zero, ?attest, ?attestRefused, ?life, fun sigs b => State.tokenGood_sound,
    ?svn, fun empty => exec_eq_next rfl (State.packetSeal_empty empty) rfl, ?egress⟩
  case share =>
    have once := fun l => And.intro (nodup_onceEach l) (mem_onceEach l)
    have operation {i : Instr} {op : Nat} {f : List Nat → List Nat → List Nat} (row : exec i s = s.answer (s.shareSet q op f)) :=
      shareSet_row (c := c) row
    refine List.forall_mem_cons.mpr ⟨?_, List.forall_mem_cons.mpr ⟨?_, List.forall_mem_singleton.mpr ?_⟩⟩
    · exact ⟨(operation rfl).1, (operation rfl).2, once⟩
    · exact ⟨(operation rfl).1, (operation rfl).2, once⟩
    · exact ⟨(operation rfl).1, (operation rfl).2, once⟩
  case window =>
    intro m here
    have full {i : Nat} (used : Tbl.find (s.part (s.ctx m).part).windows i ≠ none) : (Tbl.find (s.part (s.ctx m).part).windows i).isSome = true :=
      Option.isSome_iff_ne_none.mpr used
    have room {i : Nat} (free : Tbl.find (s.part (s.ctx m).part).windows i = none) : ¬ (Tbl.find (s.part (s.ctx m).part).windows i).isSome = true :=
      fun used => Option.isSome_iff_ne_none.mp used free
    refine ⟨fun takes => ⟨fun used => ?_, fun free why => ?_, fun free why => ?_⟩, fun takes => ⟨fun w found owner => ?_, fun other => ?_⟩⟩
    · exact windowRow_refused rfl here takes (State.installWindow_used (s := s.start q c) (full used)) (by decide)
    · exact windowRow_refused rfl here takes (State.installWindow_refused (s := s.start q c) (room free) why) why
    · exact windowRow_ok rfl here takes (State.installWindow_ok (s := s.start q c) (room free) why) rfl
    · exact windowRow_ok rfl here takes (State.removeWindow_owner (s := s.start q c) owner found) rfl
    · exact windowRow_refused rfl here takes (State.removeWindow_other (s := s.start q c) other) (by decide)
  case attest =>
    intro b takes read long able
    obtain ⟨v, r, is, rest⟩ := State.attest_signs takes read long able
    exact ⟨v, r, exec_eq_answer rfl is, rest⟩
  case attestRefused => exact fun b takes read long spent => exec_eq_answer rfl (State.attest_refused takes read long spent)
  case life =>
    exact fun b read => ⟨fun sigs takes => provision_row read sigs takes, fun sigs takes => claim_row read sigs takes,
      fun sigs takes => returnDevice_row read sigs takes, fun sigs takes => scrap_row read sigs takes,
      fun sigs takes => reprovision_row read sigs takes⟩
  case svn =>
    intro takes
    have is := State.svnCommit_takes takes
    exact ⟨fun none => exec_eq_answer rfl (is.trans (if_pos none)), fun raises => exec_eq_answer rfl (is.trans (if_neg (Nat.not_le.mpr raises)))⟩
  case egress =>
    intro m msg rest h waits current v
    have is := State.packetSeal_key waits current
    refine ⟨fun room => exec_eq_answer rfl (is.trans (if_neg (Nat.not_le.mpr room))), fun spent none => exec_eq_answer rfl (is.trans ((if_pos spent).trans ?_)),
      fun g spent other => exec_eq_answer rfl (is.trans ((if_pos spent).trans ?_))⟩
    · rw [none]
    · rw [other]

end Sys2Proof.Machine
end

section
/-! PROOFS. Hangs, the ladder, epochs, failed members and poisoned blocks (R345 to R382). -/

namespace Sys2Proof.Machine

/-! ### Folds that keep a part of the state -/

/-- What every step of a fold keeps, the fold keeps. -/
theorem foldl_keeps {α β γ : Type} (view : β → γ) {step : β → α → β} (keeps : ∀ b a, view (step b a) = view b) (l : List α) (b : β) :
    view (l.foldl step b) = view b := by
  induction l generalizing b with
  | nil => rfl
  | cons a r ih => exact (ih _).trans (keeps b a)

/-! ### Commands that another member may carry out (R298) -/

section OnMember
variable {s : State} {i : CmdSource → Instr} {opc : Nat} {sub : Cmd → Bool} {memberOf : Cmd → Nat} {act : State → Nat → List Word64 → Did}
  {result : Nat → List Word64}

/-- With no answer that a started command waits for, the next command of the queue is taken. -/
theorem State.onMember_starts {q : QueueId} {r : Option (BitVec 64)} : (r = none ∨ s.awaiting q (fun c => c.opc == opc && sub c) = none) →
    s.onMember (.queue q r) opc sub memberOf act result =
      match s.next q fun c => c.opc == opc && sub c with
      | none => s
      | some c =>
        let u := s.start q c
        let x := s.ctx (s.queue q).ctx
        let args := c.words.drop 5 ++ c.second
        match s.actsOn x.forme x.job (memberOf c) with
        | .nobody => u.refuseCmd q c Dt.badMember
        | .here n => if (act u n args).1 = 0 then (act u n args).2.2.okCmd q c (result (act u n args).2.1) else (act u n args).2.2.refuseCmd q c (act u n args).1
        | .far =>
          let far := (u.send (.memberOrder ⟨x.forme, x.job, memberOf c, opc, args, [], 0⟩)).ordered q c
          match r with
          | none => far
          | some w => if bits w.toNat 15 0 = 0 then far.okCmd q c (result (bits w.toNat 63 16)) else far.refuseCmd q c (bits w.toNat 15 0) := by
  intro no
  unfold State.onMember
  simp only [State.queue_start_ctx, State.ctx_start, State.actsOn_start]
  cases r with
  | none => rfl
  | some w => rw [no.resolve_left (Option.some_ne_none w)] <;> rfl

/-- A row that runs `State.onMember` does what R298 says of commands that name a member. -/
theorem onMember_row (row : ∀ src, exec (i src) s = s.answer (s.onMember src opc sub memberOf act result)) :
    OnMember s i opc sub memberOf act result := by
  refine ⟨fun q w c awaits => exec_eq_answer (row _) ?_, fun q r no => ⟨fun none => exec_eq_next (row _) ?_ rfl, fun c takes => ⟨fun nobody => ?_, fun n here => ⟨fun ok => ?_, fun bad => ?_⟩, fun far => ?_⟩⟩,
    fun o of => ⟨fun n here => exec_eq_answer (row _) ?_, fun away => exec_eq_answer (row _) ?_⟩⟩
  · simp only [State.onMember, awaits]
  · rw [State.onMember_starts no, none]
  · exact exec_eq_answer (row _) (by simp only [State.onMember_starts no, takes, nobody])
  · refine exec_eq_answer (row _) ?_
    simp only [State.onMember_starts no, takes, here]
    exact if_pos ok
  · refine exec_eq_answer (row _) ?_
    simp only [State.onMember_starts no, takes, here]
    exact if_neg bad
  · have is := State.onMember_starts (memberOf := memberOf) (act := act) (result := result) no
    simp only [takes, far] at is
    exact ⟨fun none => exec_eq_answer (row _) (by subst none; exact is), fun w some => exec_eq_answer (row _) (by subst some; exact is)⟩
  · simp only [State.onMember, of, ne_eq, not_true_eq_false, if_false, here]
  · simp only [State.onMember, of, ne_eq, not_true_eq_false, if_false]

end OnMember

/-! ### HANG (R345) -/

/-- The suspect that a search of the unit's culprit tests. -/
def State.hangTest (s : State) (u : HangUnit) : Option Nat := (s.culprits.find? fun k => k.unit == u).bind fun k => k.testing

/-- The partition whose recovery a hang escalates (R356). -/
def State.hangBusy (s : State) (u : HangUnit) : Option Nat :=
  match s.unitPart u with
  | some p => if (s.part p).recovering ≠ 0 ∧ (s.hangTest u).isNone then some p else none
  | none => none

/-- The state in which the records of a hang are written. -/
def State.hangNoted (s : State) (u : HangUnit) : State :=
  let ctx := match u with
    | .issuer c _ => (s.core c.val).ctx
    | _ => 0
  let cl : Option Nat := match u with
    | .issuer _ _ | .stream _ _ | .hub _ | .clusterCp _ => (unitClusters u).head?
    | _ => none
  let ch : Option Nat := match u with
    | .channel c => some c.val
    | _ => none
  let t := s.advanceTo (s.ltime + s.hangLimit u)
  let a := t.record { t.recOfCtx ctx { cause := 0x20, severity := 1, nested := (s.hangBusy u).isSome, island := unitIsland u,
                                       cluster := cl, channel := ch, d5 := hangRow u } with part := s.unitPart u }
  match u with
  | .bridge i j => a.record { cause := 0x23, severity := 3, island := unitIsland u, d5 := (2 ^ i.val) ||| (2 ^ j.val) }
  | _ => a

/-- The ladder that a hang of the unit starts. -/
def State.hangLadder (s : State) (u : HangUnit) (named : List Nat) : Ladder :=
  let v := s.hangNoted u
  let sus := match s.hangTest u with
    | some n => [n]
    | none => v.suspectsOf u named
  ⟨.unit u, some u, startLevel u, v.ltime, s.unitPart u, sus, [], false, (s.hangTest u).isSome, false⟩

section Hang
variable {s : State} {u : HangUnit} {named : List Nat}

theorem State.hang_cannot (cannot : s.canHang u = false) : s.hang u named = s :=
  if_pos (show (!s.canHang u) = true by rw [cannot]; rfl)

theorem State.hang_eq (can : s.canHang u = true) : s.hang u named =
    match s.hangBusy u with
    | some p => (s.hangNoted u).markEscalate p
    | none => (s.hangNoted u).startLadder (s.hangLadder u named) (startLevel u) :=
  if_neg (show ¬ (!s.canHang u) = true by rw [can]; decide)

theorem State.hang_busy (can : s.canHang u = true) {p : Nat} (busy : s.hangBusy u = some p) : s.hang u named = (s.hangNoted u).markEscalate p := by
  rw [State.hang_eq can, busy]

theorem State.hang_starts (can : s.canHang u = true) (idle : s.hangBusy u = none) :
    s.hang u named = (s.hangNoted u).startLadder (s.hangLadder u named) (startLevel u) := by
  rw [State.hang_eq can, idle]

end Hang

/-! ### The ladder (R347 to R353) -/

/-- What the end of a level within its bound does, before the ladder goes on. -/
def State.levelEnds (s : State) (r : Resource) (l : Ladder) (bad : List Nat) : State :=
  let a := if l.level = 1 then s.advanceTo (l.start + 100000) else s
  match l.level, r, l.part with
  | 1, .unit h, _ => a.endQuiesce l h
  | 2, _, some p =>
    if l.escalate then a
    else match l.unit with
      | some (.channel ch) => ((a.releaseHeld p).fenceChannel ch.val 0).1.settle ((a.releaseHeld p).fenceChannel ch.val 0).2
      | _ => a.releaseHeld p
  | 3, _, some p => if l.escalate then a else a.endFenceOff l p bad
  | _, _, _ => a

section Ladder
variable {s : State} {r : Resource} {l : Ladder} {bad : List Nat} {views : List ModuleView}

theorem State.levelOverrun_none (none : s.ladderOf r = none) : s.levelOverrun r = s := by
  rw [State.levelOverrun, none]

theorem State.levelOverrun_some (found : s.ladderOf r = some l) :
    s.levelOverrun r = (s.advanceTo (l.start + levelBound l.level)).beginLevel l (l.level + 1) true := by
  rw [State.levelOverrun, found]

theorem State.levelComplete_none (none : s.ladderOf r = none) : s.levelComplete r bad views = s := by
  rw [State.levelComplete, none]

theorem State.levelComplete_some (found : s.ladderOf r = some l) : s.levelComplete r bad views =
    match (s.levelEnds r l bad).ladderOf r with
    | none => s.levelEnds r l bad
    | some k => if k.escalate then (s.levelEnds r l bad).beginLevel k (k.level + 1) false else (s.levelEnds r l bad).endLadder r views := by
  rw [State.levelComplete, found]
  rfl

theorem State.levelComplete_over (found : s.ladderOf r = some l) (none : (s.levelEnds r l bad).ladderOf r = none) :
    s.levelComplete r bad views = s.levelEnds r l bad := by
  rw [State.levelComplete_some found, none]

theorem State.levelComplete_stands {k : Ladder} (found : s.ladderOf r = some l) (stands : (s.levelEnds r l bad).ladderOf r = some k) :
    s.levelComplete r bad views =
      if k.escalate then (s.levelEnds r l bad).beginLevel k (k.level + 1) false else (s.levelEnds r l bad).endLadder r views := by
  rw [State.levelComplete_some found, stands]

end Ladder

section Culprit
variable {s : State} {u : HangUnit} {k : Culprit}

theorem State.culpritTest_none (none : (s.culprits.find? fun k => k.unit == u) = none) (passed : Bool) : s.culpritTest u passed = s := by
  rw [State.culpritTest, none]

theorem State.culpritTest_idle (found : (s.culprits.find? fun k => k.unit == u) = some k) (idle : k.testing = none) (passed : Bool) :
    s.culpritTest u passed = if passed then s else s.nextTest u := by
  rw [State.culpritTest, found]
  dsimp only
  rw [idle]
  cases passed <;> rfl

theorem State.culpritTest_testing (found : (s.culprits.find? fun k => k.unit == u) = some k) (testing : k.testing ≠ none) (passed : Bool) :
    s.culpritTest u passed = if passed then
      ({ s with culprits := s.culprits.map fun (k : Culprit) => if k.unit = u then { k with testing := none } else k } : State).nextTest u else s := by
  obtain ⟨n, tests⟩ := Option.ne_none_iff_exists'.mp testing
  rw [State.culpritTest, found]
  dsimp only
  rw [tests]
  cases passed <;> rfl

end Culprit

/-! ### EPOCH_CONFIG and EPOCH_MARK (R362, R365) -/

section Epoch
variable {s : State} {q : Nat} {c : Cmd} {x : Context} {reply : Option (BitVec 64)} {act : State → Nat → Nat → List Word64 → Nat × State}
  {result : List Word64}

/-- The orders of a command of the anchor context to the modules `ms`. -/
def State.orderAll (s : State) (ms : List Nat) (forme job opc : Nat) (args : List Word64) : State :=
  ms.foldl (fun s m => s.send (.memberOrder ⟨forme, job, m, opc, args, [], 0⟩)) s

theorem State.onForme_eq (of : s.ctx (s.queue q).ctx = x) : s.onForme q c reply act result =
    let d := act s x.forme x.job (c.words.drop 5)
    let v := d.2.orderAll (s.farModules x.forme) x.forme x.job c.opc (c.words.drop 5)
    if x.member ≠ 0 then s.finish q c.place { status := St.wrongQueue }
    else if d.1 ≠ 0 then s.refuseCmd q c d.1
    else match s.farModules x.forme, reply with
      | [], _ => v.okCmd q c result
      | _, none => v
      | _, some r => if bits r.toNat 15 0 = 0 then v.okCmd q c result else s.refuseCmd q c (bits r.toNat 15 0) := by
  subst of; rfl

/-- An order of the anchor context that its own module carries out. -/
theorem State.onForme_acts (of : s.ctx (s.queue q).ctx = x) (anchor : x.member = 0) (ok : (act s x.forme x.job (c.words.drop 5)).1 = 0) :
    s.onForme q c reply act result =
      let v := (act s x.forme x.job (c.words.drop 5)).2.orderAll (s.farModules x.forme) x.forme x.job c.opc (c.words.drop 5)
      match s.farModules x.forme, reply with
      | [], _ => v.okCmd q c result
      | _, none => v
      | _, some r => if bits r.toNat 15 0 = 0 then v.okCmd q c result else s.refuseCmd q c (bits r.toNat 15 0) :=
  (State.onForme_eq of).trans ((if_neg (not_not.mpr anchor)).trans (if_neg (not_not.mpr ok)))

theorem State.onForme_alone (of : s.ctx (s.queue q).ctx = x) (anchor : x.member = 0) (ok : (act s x.forme x.job (c.words.drop 5)).1 = 0)
    (alone : s.farModules x.forme = []) : s.onForme q c reply act result =
      ((act s x.forme x.job (c.words.drop 5)).2.orderAll (s.farModules x.forme) x.forme x.job c.opc (c.words.drop 5)).okCmd q c result := by
  rw [State.onForme_acts of anchor ok, alone]

theorem State.onForme_waits (of : s.ctx (s.queue q).ctx = x) (anchor : x.member = 0) (ok : (act s x.forme x.job (c.words.drop 5)).1 = 0)
    (far : s.farModules x.forme ≠ []) : s.onForme q c none act result =
      (act s x.forme x.job (c.words.drop 5)).2.orderAll (s.farModules x.forme) x.forme x.job c.opc (c.words.drop 5) := by
  obtain ⟨m, ms, is⟩ := List.exists_cons_of_ne_nil far
  rw [State.onForme_acts of anchor ok, is]

theorem State.onForme_answered (of : s.ctx (s.queue q).ctx = x) (anchor : x.member = 0) (ok : (act s x.forme x.job (c.words.drop 5)).1 = 0)
    (far : s.farModules x.forme ≠ []) (w : BitVec 64) : s.onForme q c (some w) act result =
      if bits w.toNat 15 0 = 0 then
        ((act s x.forme x.job (c.words.drop 5)).2.orderAll (s.farModules x.forme) x.forme x.job c.opc (c.words.drop 5)).okCmd q c result
      else s.refuseCmd q c (bits w.toNat 15 0) := by
  obtain ⟨m, ms, is⟩ := List.exists_cons_of_ne_nil far
  rw [State.onForme_acts of anchor ok, is]

/-- Holding a job's queues changes its queues alone. -/
theorem State.farModules_holdQueues (s : State) (forme job : Nat) (held : Bool) (id : Nat) :
    (s.holdQueues forme job held).farModules id = s.farModules id := by
  have formes : (s.holdQueues forme job held).formes = s.formes := foldl_keeps State.formes (fun _ _ => by rfl) _ s
  have fabAddr : (s.holdQueues forme job held).fabAddr = s.fabAddr := foldl_keeps State.fabAddr (fun _ _ => by rfl) _ s
  rw [State.farModules, State.forme, formes, fabAddr]
  rfl

theorem State.job_tellDeputy (s : State) (forme job : Nat) (logs : List (Nat × Nat × List Word64)) (f j : Nat) :
    (s.tellDeputy forme job logs).job f j = s.job f j := by
  unfold State.tellDeputy
  split <;> rfl

/-- The state in which EPOCH_MARK of this module ends the epoch, with the orders sent and the deputy told. -/
def State.marked (s : State) (forme job : Nat) : State := (s.commitEpoch forme job).tellDeputy forme job (s.epochLogs forme job)

section Mark
variable (of : s.ctx (s.queue q).ctx = x) (anchor : x.member = 0) {a : State} (holds : s.holdQueues x.forme x.job true = a)
include of anchor holds

/-- EPOCH_MARK of the anchor's queue. -/
theorem State.markOf_anchor : s.markOf q c reply =
    let v := a.orderAll (s.farModules x.forme) x.forme x.job 0x41 []
    let t := v.marked x.forme x.job
    if a.markWaits x.forme x.job q c.place then a
    else match s.farModules x.forme, reply with
      | _ :: _, none => v
      | _, _ => t.okCmd q c [BitVec.ofNat 64 (((t.job x.forme x.job).map fun j => j.mark).getD 0)] := by
  subst of holds
  exact if_neg (not_not.mpr anchor)

theorem State.markOf_waits (waits : a.markWaits x.forme x.job q c.place = true) : s.markOf q c reply = a :=
  (State.markOf_anchor of anchor holds).trans (if_pos waits)

variable (alone : a.markWaits x.forme x.job q c.place = false)
include alone

theorem State.markOf_orders (far : a.farModules x.forme ≠ []) : s.markOf q c none = a.orderAll (a.farModules x.forme) x.forme x.job 0x41 [] := by
  have same : a.farModules x.forme = s.farModules x.forme := holds ▸ State.farModules_holdQueues ..
  obtain ⟨m, ms, is⟩ := List.exists_cons_of_ne_nil far
  refine (State.markOf_anchor of anchor holds).trans ((if_neg (Bool.eq_false_iff.mp alone)).trans ?_)
  rw [← same, is]

theorem State.markOf_marks (told : a.farModules x.forme = [] ∨ reply ≠ none) : s.markOf q c reply =
    let v := a.orderAll (a.farModules x.forme) x.forme x.job 0x41 []
    (v.marked x.forme x.job).okCmd q c [BitVec.ofNat 64 ((((v.commitEpoch x.forme x.job).job x.forme x.job).map fun j => j.mark).getD 0)] := by
  have same : a.farModules x.forme = s.farModules x.forme := holds ▸ State.farModules_holdQueues ..
  refine (State.markOf_anchor of anchor holds).trans ((if_neg (Bool.eq_false_iff.mp alone)).trans ?_)
  rw [← same, State.marked, State.job_tellDeputy]
  rcases told with none | some
  · rw [none]; rfl
  · obtain ⟨w, rfl⟩ := Option.ne_none_iff_exists'.mp some
    cases a.farModules x.forme <;> rfl

end Mark

end Epoch

/-- An order of EPOCH_CONFIG. -/
theorem State.epochConfig_order {s : State} {o : MemberOrder} (opc : o.opc = 0x40) : s.epochConfig (.order o) =
    (s.configHere o.forme o.job o.args).2.send (.orderDone o.forme o.job o.member 0x40 (s.configHere o.forme o.job o.args).1 0) :=
  if_neg (not_not.mpr opc)

/-- An order of EPOCH_MARK. -/
theorem State.epochMark_order {s : State} {o : MemberOrder} (opc : o.opc = 0x41) : s.epochMark (.order o) =
    let a := s.holdQueues o.forme o.job true
    if a.markWaits o.forme o.job 0 0 then a
    else (a.commitEpoch o.forme o.job).send (.orderDone o.forme o.job o.member 0x41 0 0) :=
  if_neg (not_not.mpr opc)

/-- With no EPOCH_MARK that runs, the next one of the queue is taken. -/
theorem State.epochMark_takes {s : State} {q : QueueId} {c : Cmd} {reply : Option (BitVec 64)}
    (idle : ((s.queue q).cmds.find? fun c => c.opc == 0x41 && c.state == .running) = none) (takes : s.takes q 0x41 c) :
    s.epochMark (.queue q reply) = (s.start q c).markOf q c reply := by
  simp only [State.epochMark, idle]
  exact State.onCmd_takes takes _

/-! ### What a mark does to its job -/

/-- A job as its next mark leaves it, with the shadows, fences, allocations and cores of that mark. -/
def Job.atMark (j : Job) (shadows : List (Nat × Shadow)) (vals : List (Nat × Nat)) (heaps : List (Nat × List Alloc)) (cores : Tbl CoreSave) : Job :=
  let c := j.pendCfg.getD (j.budget, j.logCap, j.coreState)
  { j with
    before := some (j.standing shadows), budget := c.1, logCap := c.2.1, coreState := c.2.2, pendCfg := none, active := decide (c.1 ≠ 0)
    mark := (j.mark + 1) % 2 ^ 32, impure := false, unprotected := false, log := [], fenceSnap := vals, allocSnap := heaps
    checkpoint := if c.2.2 then cores else [], markSeq := j.runSeq, markRan := j.ran }

theorem Job.budget_atMark (j : Job) (shadows : List (Nat × Shadow)) (vals : List (Nat × Nat)) (heaps : List (Nat × List Alloc)) (cores : Tbl CoreSave) :
    (j.atMark shadows vals heaps cores).budget = (j.pendCfg.map fun c => c.1).getD j.budget := by
  cases declared : j.pendCfg <;> simp [Job.atMark, declared]

theorem State.job_modJob {s : State} {forme id : Nat} {j : Job} (found : s.job forme id = some j) {g : Job → Job} (names : ∀ j, (g j).forme = j.forme ∧ (g j).id = j.id) :
    (s.modJob forme id g).job forme id = some (g j) := by
  obtain ⟨isForme, isId⟩ : j.forme = forme ∧ j.id = id := by simpa using List.find?_some found
  have pred : ((fun k : Job => k.forme == forme && k.id == id) ∘ fun j => if j.forme = forme ∧ j.id = id then g j else j) =
      fun k => k.forme == forme && k.id == id := by
    funext k
    dsimp only [Function.comp]
    split
    · rw [(names k).1, (names k).2]
    · rfl
  have found : (s.jobs.find? fun j => j.forme == forme && j.id == id) = some j := found
  rw [State.job, State.modJob, List.find?_map, pred, found, Option.map_some, if_pos ⟨isForme, isId⟩]

/-- The shadows of a job are committed: none stands any more. -/
def State.unshadowed (s : State) (forme job : Nat) : State :=
  (s.jobCtxs forme job).foldl (fun s e => s.modPart e.2.part fun q => { q with shadows := q.shadows.filter fun h => h.job ≠ job }) s

/-- The job of a mark that is committed. -/
theorem State.job_commitEpoch {s : State} {forme id : Nat} {j : Job} (found : s.job forme id = some j) :
    let t := s.unshadowed forme id
    let ns := s.jobCtxs forme id
    (s.commitEpoch forme id).job forme id = some (j.atMark (s.jobShadows forme id)
      (ns.flatMap fun e => (t.ownedFences e.1).map fun n => (n, (t.fence n).value)) (t.heapsOf forme id) (ns.flatMap fun e => t.persistentOf e.1)) := by
  have reserve (t : State) (ps : List Nat) : (t.reserveBudgets ps).jobs = t.jobs := foldl_keeps State.jobs (fun _ _ => by rfl) ps t
  have hold (t : State) : (t.holdQueues forme id false).jobs = t.jobs := foldl_keeps State.jobs (fun _ _ => by rfl) _ t
  have drop : (s.unshadowed forme id).jobs = s.jobs := foldl_keeps State.jobs (fun _ _ => by rfl) _ s
  have stands (t u : State) (jobs : t.jobs = u.jobs) : t.job forme id = u.job forme id := by
    rw [State.job, jobs]; rfl
  refine (stands _ _ ((hold _).trans (reserve _ _))).trans ?_
  exact State.job_modJob ((stands _ _ drop).trans found) (g := fun j => j.atMark _ _ _ _) fun _ => ⟨rfl, rfl⟩

/-! ### REFILL_SET and MIRROR_RESOLVE (R379, R382) -/

/-- What REFILL_SET does for context `n` by the argument words `a`. -/
def State.setRefill (s : State) (n : Nat) (a : List Word64) : Did :=
  match s.namedRegion n (bits (argAt a 0) 39 0) with
  | .error d => (d, 0, s)
  | .ok g =>
    let r : Option (Bool × Nat × Nat) := match bits (argAt a 1) 1 0 with
      | 1 => some (true, bits (argAt a 2) 55 40, bits (argAt a 2) 39 0)
      | 2 => some (false, 0, bits (argAt a 2) 56 0)
      | _ => none
    (0, 0, s.setRegion (s.ctx n).part g { g with refill := r })

/-- What MIRROR_RESOLVE does, keeping 0 the primary copy, 1 the secondary, 2 neither. -/
def State.resolveMirror (keep : Nat) (s : State) (n : Nat) (a : List Word64) : Did :=
  match s.namedRegion n (bits (argAt a 0) 39 0) with
  | .error d => (d, 0, s)
  | .ok r =>
    let p := (s.ctx n).part
    if !r.mirror then (Dt.regionCheck, 0, s)
    else
      let bs := s.mirrorBlocks p r
      let s := if keep = 0 then bs.foldl (fun s e => s.rewrite e.1 e.2) s
        else if keep = 1 then bs.foldl (fun s e => s.rewrite e.2 e.1) s
        else bs.foldl (fun s e => [e.1, e.2].foldl (fun s b =>
          (s.modChannel b.1 fun k => if k.fresh (b.2 / 8) then { k with used := insertSorted (b.2 / 8) k.used } else k).poison b) s) s
      (0, 0, s.unsuspect p r)

theorem State.refillSet_eq (s : State) (src : CmdSource) :
    s.refillSet src = s.onMember src 0x42 (fun _ => true) (fun c => bits (c.arg 0) 55 40) State.setRefill fun _ => [] := rfl

theorem State.mirrorResolve_eq (s : State) (src : CmdSource) (keep : Nat) : s.mirrorResolve src keep =
    s.onMember src 0x43 (fun c => decide (bits (c.arg 1) 1 0 = keep)) (fun c => bits (c.arg 0) 55 40) (State.resolveMirror keep) fun _ => [] := rfl

section Region
variable {s : State} {n d : Nat} {a : List Word64} {g : Region}

theorem State.setRefill_error (bad : s.namedRegion n (bits (argAt a 0) 39 0) = .error d) : s.setRefill n a = (d, 0, s) := by
  rw [State.setRefill, bad]

theorem State.setRefill_ok (named : s.namedRegion n (bits (argAt a 0) 39 0) = .ok g) :
    s.setRefill n a = (0, 0, s.setRegion (s.ctx n).part g { g with refill := (match bits (argAt a 1) 1 0 with
      | 1 => some (true, bits (argAt a 2) 55 40, bits (argAt a 2) 39 0)
      | 2 => some (false, 0, bits (argAt a 2) 56 0)
      | _ => none) }) := by
  rw [State.setRefill, named]

theorem State.resolveMirror_error (bad : s.namedRegion n (bits (argAt a 0) 39 0) = .error d) (keep : Nat) : s.resolveMirror keep n a = (d, 0, s) := by
  rw [State.resolveMirror, bad]

theorem State.resolveMirror_single (named : s.namedRegion n (bits (argAt a 0) 39 0) = .ok g) (single : g.mirror = false) (keep : Nat) :
    s.resolveMirror keep n a = (Dt.regionCheck, 0, s) := by
  simp only [State.resolveMirror, named, single, Bool.not_false, if_true]

theorem State.resolveMirror_both (named : s.namedRegion n (bits (argAt a 0) 39 0) = .ok g) (mirror : g.mirror = true) (keep : Nat) :
    s.resolveMirror keep n a = (0, 0, (let bs := s.mirrorBlocks (s.ctx n).part g
      if keep = 0 then bs.foldl (fun s e => s.rewrite e.1 e.2) s
      else if keep = 1 then bs.foldl (fun s e => s.rewrite e.2 e.1) s
      else bs.foldl (fun s e => [e.1, e.2].foldl (fun s b =>
        (s.modChannel b.1 fun k => if k.fresh (b.2 / 8) then { k with used := insertSorted (b.2 / 8) k.used } else k).poison b) s) s : State).unsuspect (s.ctx n).part g) := by
  simp only [State.resolveMirror, named, mirror, Bool.not_true, Bool.false_eq_true, if_false]

end Region

/-! ### RESERVE and the commands that start a reset or a fence-off (R350 to R353, R373) -/

section Reserve
variable {s : State} {q : Nat} {c : Cmd} {b : List Byte} (takes : s.takes q 0x44 c) (read : c.bulk = some b)
include takes read

theorem State.reserve_unknown (unknown : s.forme (atBytes b 0 4) = none) : s.reserve q = (s.start q c).refuseCmd q c Dt.badMember := by
  have unknown : (s.start q c).forme (atBytes b 0 4) = none := unknown
  rw [State.reserve, State.onBulk_read takes read]
  dsimp only
  rw [unknown]

theorem State.reserve_forme {f : Forme} (found : s.forme (atBytes b 0 4) = some f) : s.reserve q =
    let u := s.start q c
    let n := (b.length - 8) / 8
    if !s.isMaster f then u.refuseCmd q c Dt.notMaster
    else if b.length < 8 ∨ b.length % 8 ≠ 0 ∨ 4096 < n then u.refuseCmd q c Dt.field
    else (u.modForme (atBytes b 0 4) fun f => { f with
      reserves := (List.range n).map fun i => (⟨bits (atBytes b (8 + 8 * i) 8) 15 0, BitVec.ofNat 48 (bits (atBytes b (8 + 8 * i) 8) 63 16)⟩ : Reserve) }).okCmd q c := by
  have found : (s.start q c).forme (atBytes b 0 4) = some f := found
  rw [State.reserve, State.onBulk_read takes read]
  dsimp only
  rw [found]
  rfl

end Reserve

section FenceOff
variable {s : State} {q kind limit : Nat} {act : State → Nat → State} {c : Cmd}

theorem State.fenceOffCmd_none (none : (s.next q fun c => c.opc == 0x46 && bits (c.arg 0) 1 0 == kind) = none) : s.fenceOffCmd q kind limit act = s := by
  rw [State.fenceOffCmd, none]

theorem State.fenceOffCmd_takes (takes : (s.next q fun c => c.opc == 0x46 && bits (c.arg 0) 1 0 == kind) = some c) : s.fenceOffCmd q kind limit act =
    if limit ≤ bits (c.arg 0) 10 2 then (s.start q c).refuseCmd q c Dt.field else act ((s.start q c).okCmd q c) (bits (c.arg 0) 10 2) := by
  rw [State.fenceOffCmd, takes]

/-- A row that runs a FENCE_OFF command of one kind. -/
theorem fenceOff_row {i : Instr} (row : exec i s = s.answer (s.fenceOffCmd q kind limit act)) :
    ((s.next q fun c => c.opc == 0x46 && bits (c.arg 0) 1 0 == kind) = none → exec i s = .next s) ∧
    ((s.next q fun c => c.opc == 0x46 && bits (c.arg 0) 1 0 == kind) = some c →
      (limit ≤ bits (c.arg 0) 10 2 → exec i s = s.answer ((s.start q c).refuseCmd q c Dt.field)) ∧
      (bits (c.arg 0) 10 2 < limit → exec i s = s.answer (act ((s.start q c).okCmd q c) (bits (c.arg 0) 10 2)))) :=
  ⟨fun none => exec_eq_next row (State.fenceOffCmd_none none) rfl, fun takes =>
    ⟨fun bad => exec_eq_answer row ((State.fenceOffCmd_takes takes).trans (if_pos bad)),
      fun good => exec_eq_answer row ((State.fenceOffCmd_takes takes).trans (if_neg (Nat.not_le.mpr good)))⟩⟩

end FenceOff

/-! ### Messages of recovery (R370 to R376) -/

section Message
variable {s : State} {opc : Nat} {m : RecMsg} {f : State → Forme → State}

theorem State.recIn_far (far : m.dstMod.toNat ≠ s.fabAddr) : s.recIn opc m f = s.emit (.recov opc m) := if_pos far

theorem State.recIn_here (here : m.dstMod.toNat = s.fabAddr) : s.recIn opc m f =
    if m.status ≠ 0 ∧ ¬(opc = 0x08 ∧ m.status = 1) then s.synCount s.lowestCluster .badmsg
    else match s.forme m.formeId.toNat with
      | none => s
      | some g => f s g := if_neg (not_not.mpr here)

theorem State.recIn_bad (here : m.dstMod.toNat = s.fabAddr) (bad : ¬ s.takesRec opc m) :
    s.recIn opc m f = s.synCount s.lowestCluster .badmsg :=
  (State.recIn_here here).trans (if_pos (not_or.mp fun good => bad ⟨here, good⟩))

theorem State.recIn_takes (takes : s.takesRec opc m) : s.recIn opc m f =
    match s.forme m.formeId.toNat with
    | none => s
    | some g => f s g :=
  (State.recIn_here takes.1).trans (if_neg fun bad => (not_or.mpr bad) takes.2)

theorem State.recIn_unknown (takes : s.takesRec opc m) (unknown : s.forme m.formeId.toNat = none) : s.recIn opc m f = s := by
  rw [State.recIn_takes takes, unknown]

theorem State.recIn_forme (takes : s.takesRec opc m) {g : Forme} (found : s.forme m.formeId.toNat = some g) : s.recIn opc m f = f s g := by
  rw [State.recIn_takes takes, found]

/-- What every row of a recovery message does with one that is not acted on. -/
theorem recov_row {i : Instr} (row : exec i s = s.answer (s.recIn opc m f)) :
    (m.dstMod.toNat ≠ s.fabAddr → exec i s = s.answer (s.emit (.recov opc m))) ∧
    (m.dstMod.toNat = s.fabAddr → ¬ s.takesRec opc m → exec i s = s.answer (s.synCount s.lowestCluster .badmsg)) ∧
    (s.takesRec opc m → s.forme m.formeId.toNat = none → exec i s = .next s) :=
  ⟨fun far => exec_eq_answer row (State.recIn_far far), fun here bad => exec_eq_answer row (State.recIn_bad here bad),
    fun takes unknown => exec_eq_next row (State.recIn_unknown takes unknown) rfl⟩

end Message

theorem State.pulseSend_recovering {s : State} {id member : Nat} {f : Forme} {p : Nat} (forme : s.forme id = some f) (here : s.partHere id member = some p)
    (recovers : 2 ≤ (s.part p).recovering) : s.pulseSend id member = s := by
  simp only [State.pulseSend, forme, here]
  exact if_pos recovers

theorem State.pulseSend_sends {s : State} {id member : Nat} {f : Forme} {p k : Nat} (forme : s.forme id = some f) (here : s.partHere id member = some p)
    (serves : (s.part p).recovering < 2) (master : f.masterMod = some k) :
    s.pulseSend id member = s.emit (.recov 0x01 (s.recMsg k id (member := member) (rseq := f.rseq))) := by
  simp only [State.pulseSend, forme, here, master]
  exact if_neg (Nat.not_le.mpr serves)

section Taken
variable {s : State} {m : RecMsg} {f : Forme} (found : s.forme m.formeId.toNat = some f)
include found

theorem State.pulseIn_takes (takes : s.takesRec 0x01 m) : s.pulseIn m =
    if !s.isMaster f then s
    else (s.modForme f.id fun f => { f with lastPulse := Tbl.set f.lastPulse m.member.toNat s.ltime }).emit
      (.recov 0x02 { s.recMsg m.srcMod.toNat f.id (member := m.member.toNat) with rseq := m.rseq }) :=
  State.recIn_forme takes found

theorem State.pulseAns_takes (takes : s.takesRec 0x02 m) :
    s.pulseAns m = s.modForme f.id fun f => { f with lastPulseAns := Tbl.set f.lastPulseAns m.member.toNat s.ltime } :=
  State.recIn_forme takes found

theorem State.suspectIn_takes (takes : s.takesRec 0x03 m) {r : MemberRec} (named : Tbl.find f.members m.member.toNat = some r) : s.suspectIn m =
    let a := s.modForme f.id fun f => { f with askers := insertSorted m.srcMod.toNat f.askers }
    match f.probe with
    | some _ => a
    | none => (a.modForme f.id fun f => { f with probe := some (m.member.toNat, s.ltime) }).emit
        (.recov 0x04 (s.recMsg r.fab f.id (member := m.member.toNat) (rseq := f.rseq))) := by
  refine (State.recIn_forme takes found).trans ?_
  dsimp only
  rw [named]
  rfl

theorem State.probeIn_takes (takes : s.takesRec 0x04 m) : s.probeIn m =
    if (s.partHere f.id m.member.toNat).isSome then
      s.emit (.recov 0x05 { s.recMsg m.srcMod.toNat f.id (member := m.member.toNat) with rseq := m.rseq })
    else s :=
  State.recIn_forme takes found

theorem State.probeAns_takes (takes : s.takesRec 0x05 m) {t : Nat} (probed : f.probe = some (m.member.toNat, t)) : s.probeAns m =
    if t + 2000000 < s.ltime then s
    else f.askers.foldl (fun s a => s.emit (.recov 0x06 (s.recMsg a f.id (member := m.member.toNat) (rseq := f.rseq))))
      (s.modForme f.id fun f => { f with probe := none, askers := [] }) := by
  refine (State.recIn_forme takes found).trans ?_
  simp only [probed, ne_eq, not_true_eq_false, false_or]

theorem State.thawIn_takes (takes : s.takesRec 0x06 m) : s.thawIn m = s.thaw f.id := State.recIn_forme takes found

theorem State.rollbackIn_takes (takes : s.takesRec 0x07 m) : s.rollbackIn m =
    let r := (s.unmark f.id m.jobId.toNat m.epochNo.toNat).rollbackHere f.id m.jobId.toNat
    r.2.emit (.recov 0x08 { r.2.recMsg m.srcMod.toNat f.id (job := m.jobId.toNat) (status := b2n r.1) with epochNo := m.epochNo, rseq := m.rseq }) :=
  State.recIn_forme takes found

theorem State.rolledBackIn_takes (takes : s.takesRec 0x08 m) (views : List ModuleView) : s.rolledBackIn m views =
    let job := m.jobId.toNat
    let src := m.srcMod.toNat
    let a := s.modForme f.id fun f => { f with
      rollbackWait := f.rollbackWait.filter fun e => e ≠ (job, src)
      rolledJobs := if f.rolledJobs.contains job ∨ f.lostJobs.contains job then f.rolledJobs else f.rolledJobs ++ [job] }
    if !f.rollbackWait.contains (job, src) then s
    else (if m.status = 1 then a.loseJob f job else a).recoveryGoesOn f.id views :=
  State.recIn_forme takes found

theorem State.resumeIn_takes (takes : s.takesRec 0x09 m) : s.resumeIn m = ((s.replayHere f.id m.jobId.toNat).thaw f.id).recovered f.id :=
  State.recIn_forme takes found

theorem State.masterClaim_takes (takes : s.takesRec 0x0A m) {k : Nat} {r : MemberRec} {rest : Tbl MemberRec} (first : f.members = (k, r) :: rest)
    (numbers : List Nat) : s.masterClaim m numbers =
      (s.modForme f.id fun g => { g with redirect := some (r.fab, m.srcMod.toNat), change := g.change.map fun c =>
        if c.master = r.fab then { c with master := m.srcMod.toNat, drainReported := c.drainReported && f.draining.isNone } else c }).dropImports
          f.id r.fab numbers := by
  refine (State.recIn_forme takes found).trans ?_
  dsimp only
  rw [first]

theorem State.logIn_takes (takes : s.takesRec 0x0B m) : s.logIn m =
    let job := m.jobId.toNat
    let k := m.queue.toNat
    if s.isMaster f then s.modForme f.id fun f => { f with logCopies := f.logCopies ++ [(m.member.toNat, job, k, m.entry)] }
    else (s.modJob f.id job fun j => { j with log := j.log ++ [⟨k, (s.queue k).nextPlace, m.entry, false, false⟩] }).modQueue k
      fun p => { p with nextPlace := (s.queue k).nextPlace + 1 } :=
  State.recIn_forme takes found

end Taken

/-- A job that no mark protects is lost by a rollback. -/
theorem State.rollbackHere_lost {s : State} {forme id : Nat} {j : Job} (found : s.job forme id = some j)
    (lost : j.active = false ∨ j.impure = true ∨ j.unprotected = true) : (s.rollbackHere forme id).1 = true := by
  have lost : (!j.active || j.impure || j.unprotected) = true := by
    rcases lost with h | h | h <;> simp [h]
  rw [State.rollbackHere, found]
  exact congrArg Prod.fst (if_pos lost)

/-! ### Timeouts (R370, R371) -/

/-- An entry that is listed is the one read. -/
theorem Tbl.get_of_find {α : Type} {d v : α} {t : Tbl α} {k : Nat} (found : t.find k = some v) : Tbl.get d t k = v := by
  induction t with
  | nil => cases found
  | cons e r ih =>
    rw [Tbl.find] at found
    rw [Tbl.get]
    split at found
    case isTrue same => rw [if_pos same]; exact Option.some.inj found
    case isFalse other => rw [if_neg other]; exact ih found

/-- Whether a member here leads its forme: it is the first member of the master's module. -/
def State.leads (s : State) (f : Forme) (observer : Nat) : Bool :=
  s.isMaster f && decide (observer = ((f.members.head?).map fun e => e.1).getD 0)

/-- From when the timeouts of a member that has not answered run. -/
def State.waitedSince (s : State) (f : Forme) (observer named : Nat) : List Nat :=
  (if s.leads f observer then [Tbl.get 0 f.lastPulse named]
    else if named = ((f.members.head?).map fun e => e.1).getD 0 then [Tbl.get 0 f.lastPulseAns observer] else []) ++ s.sentTo f named

/-- The state in which a timeout that has run since `t` is noted. -/
def State.timeoutNoted (s : State) (f : Forme) (p observer named t : Nat) : State :=
  (s.advanceTo (t + f.peerTimeout * 1000000)).record { cause := 0x30, severity := 1, part := some p, member := some observer, d5 := named }

section Timeout
variable {s : State} {id observer named : Nat} {copy : DeputyCopy} {views : List ModuleView} {f : Forme} {p : Nat} {r : MemberRec}
  (forme : s.forme id = some f) (here : s.partHere id observer = some p) (member : Tbl.find f.members named = some r)
include forme here member

theorem State.peerTimeout_eq : s.peerTimeout id observer named copy views =
    match (s.waitedSince f observer named).min? with
    | some t =>
      let v := s.timeoutNoted f p observer named t
      if named = observer ∨ f.failedMembers.contains named then s
      else if s.leads f observer then v.declareFailed id named copy views
      else match if some r.fab = f.masterMod then f.deputyMod else f.masterMod with
        | some k => (v.freeze id).emit (.recov 0x03 ((v.freeze id).recMsg k id (member := named) (rseq := f.rseq)))
        | none => v.freeze id
    | none => s := by
  have get : Tbl.get (⟨0, 0, false⟩ : MemberRec) f.members named = r := Tbl.get_of_find member
  simp only [State.peerTimeout, forme, here, member, get]
  unfold State.waitedSince State.leads
  cases List.min? (α := Nat) _ <;> rfl

theorem State.peerTimeout_none (none : s.waitedSince f observer named = []) : s.peerTimeout id observer named copy views = s := by
  rw [State.peerTimeout_eq forme here member, none]
  rfl

theorem State.peerTimeout_some {t : Nat} (least : (s.waitedSince f observer named).min? = some t) (other : named ≠ observer)
    (serves : named ∉ f.failedMembers) : s.peerTimeout id observer named copy views =
      let v := s.timeoutNoted f p observer named t
      if s.leads f observer then v.declareFailed id named copy views
      else match if some r.fab = f.masterMod then f.deputyMod else f.masterMod with
        | some k => (v.freeze id).emit (.recov 0x03 ((v.freeze id).recMsg k id (member := named) (rseq := f.rseq)))
        | none => v.freeze id := by
  rw [State.peerTimeout_eq forme here member, least]
  exact if_neg (not_or.mpr ⟨other, by simpa using serves⟩)

end Timeout

theorem State.probeTimeout_none {s : State} {id : Nat} {f : Forme} (forme : s.forme id = some f) (none : f.probe = none) (copy : DeputyCopy)
    (views : List ModuleView) : s.probeTimeout id copy views = s := by
  simp only [State.probeTimeout, forme, none]

theorem State.probeTimeout_some {s : State} {id : Nat} {f : Forme} (forme : s.forme id = some f) {k t : Nat} (probed : f.probe = some (k, t))
    (copy : DeputyCopy) (views : List ModuleView) : s.probeTimeout id copy views = (s.advanceTo (t + 2000000)).declareFailed id k copy views := by
  simp only [State.probeTimeout, forme, probed]

/-! ### POISON_RESTORE (R379) -/

section Poison
variable {s : State} {p addr : Nat} {b : Loc}

theorem State.poisonRestore_nowhere (nowhere : s.locIn (s.part p).lay (addr / 512 * 512) = none) : s.poisonRestore p addr = s := by
  simp only [State.poisonRestore, nowhere]

theorem State.poisonRestore_at (found : s.locIn (s.part p).lay (addr / 512 * 512) = some b) : s.poisonRestore p addr =
    let a := addr / 512 * 512
    if !(s.blockAt b).poison || (s.blockAt b).told || !(s.part p).inUse then s
    else match s.otherCopy p a with
      | some (_, prim, o) =>
        if !(s.channel o.1).fenced && (s.blockAt o).intact (s.sealFor p a) then (s.repair p prim o b).poisonOver p a b 1 false
        else s.restoreSecond p a b
      | none => s.restoreSecond p a b := by
  simp only [State.poisonRestore, found] <;> rfl

theorem State.poisonRestore_done (found : s.locIn (s.part p).lay (addr / 512 * 512) = some b)
    (done : (s.blockAt b).poison = false ∨ (s.blockAt b).told = true ∨ (s.part p).inUse = false) : s.poisonRestore p addr = s := by
  refine (State.poisonRestore_at found).trans (if_pos ?_)
  rcases done with h | h | h <;> simp [h]

section Poisoned
variable (found : s.locIn (s.part p).lay (addr / 512 * 512) = some b) (poison : (s.blockAt b).poison = true) (told : (s.blockAt b).told = false)
  (inUse : (s.part p).inUse = true)
include found poison told inUse

/-- The first source of a poisoned block that has not been dealt with. -/
theorem State.poisonRestore_poisoned : s.poisonRestore p addr =
    let a := addr / 512 * 512
    match s.otherCopy p a with
    | some (_, prim, o) =>
      if !(s.channel o.1).fenced && (s.blockAt o).intact (s.sealFor p a) then (s.repair p prim o b).poisonOver p a b 1 false
      else s.restoreSecond p a b
    | none => s.restoreSecond p a b :=
  (State.poisonRestore_at found).trans (if_neg (by simp [poison, told, inUse]))

theorem State.poisonRestore_mirror {r : Bool} {prim : Nat} {o : Loc} (copy : s.otherCopy p (addr / 512 * 512) = some (r, prim, o))
    (good : (!(s.channel o.1).fenced && (s.blockAt o).intact (s.sealFor p (addr / 512 * 512))) = true) :
    s.poisonRestore p addr = (s.repair p prim o b).poisonOver p (addr / 512 * 512) b 1 false := by
  refine (State.poisonRestore_poisoned found poison told inUse).trans ?_
  dsimp only
  rw [copy]
  exact if_pos good

theorem State.poisonRestore_second (none : s.otherCopy p (addr / 512 * 512) = none ∨ ∃ r prim o, s.otherCopy p (addr / 512 * 512) = some (r, prim, o) ∧
    (!(s.channel o.1).fenced && (s.blockAt o).intact (s.sealFor p (addr / 512 * 512))) = false) :
    s.poisonRestore p addr = s.restoreSecond p (addr / 512 * 512) b := by
  refine (State.poisonRestore_poisoned found poison told inUse).trans ?_
  dsimp only
  rcases none with none | ⟨r, prim, o, copy, bad⟩
  · rw [none]
  · rw [copy]
    exact if_neg (Bool.eq_false_iff.mp bad)

end Poisoned

variable {a : Nat}

theorem State.restoreSecond_rest (noSource : ∀ r, (s.part p).regionOf a = some r → r.refill = none) : s.restoreSecond p a b = s.restoreRest p a b := by
  cases region : (s.part p).regionOf a with
  | none => simp only [State.restoreSecond, region]
  | some r => simp only [State.restoreSecond, region, noSource r region]

theorem State.restoreRest_rollback {h : Shadow} (shadowed : ((s.part p).shadows.find? fun h => decide (h.chunk = a / 65536)) = some h) :
    s.restoreRest p a b = ((((s.modBlock b fun k => { k with told := true }).dropHeld b p a).poisonRecord p a b 3 false false).modJob (s.part p).forme h.job
      fun x => { x with affected := true }).rollbackJob (s.part p).forme h.job := by
  rw [State.restoreRest, shadowed]
  rfl

theorem State.restoreRest_unshadowed (none : ((s.part p).shadows.find? fun h => decide (h.chunk = a / 65536)) = none) : s.restoreRest p a b =
    if ((s.part p).allocOf a).isNone then (s.modChannel b.1 fun k => k.setFresh (b.2 / 8) true).poisonOver p a b 0 true else s.poisonLost p a b := by
  rw [State.restoreRest, none]
  rfl

end Poison

/-! ### The statement -/

/-- Settles O58: each row by what it runs. -/
theorem hiddenRecovery : Obligations.HiddenRecovery := by
  intro s q c m u x refused job src
  have of : u.ctx (u.queue q).ctx = x := by rw [State.queue_start_ctx, State.ctx_start]
  refine ⟨?hang, ?ladder, ?culprit, ?config, ?configOrder, ?mark, ?markOrder, ?commit, ?region, ?noneTaken, ?reserve, ?reset, ?fenceOff, ?messages,
    ?pulseSend, ?taken, fun forme id j => State.rollbackHere_lost, ?peer, ?probe, ?poison, ?restore⟩
  case hang =>
    intro h named part test busy ctx cl ch s' a v sus
    exact ⟨fun cannot => exec_eq_next rfl (State.hang_cannot cannot) rfl, fun p can busy => exec_eq_answer rfl (State.hang_busy can busy),
      fun can idle => exec_eq_answer rfl (State.hang_starts can idle)⟩
  case ladder =>
    intro r bad views
    refine ⟨fun none => ⟨exec_eq_next rfl (State.levelOverrun_none none) rfl, exec_eq_next rfl (State.levelComplete_none none) rfl⟩,
      fun l found => ⟨exec_eq_answer rfl (State.levelOverrun_some found), fun ended => ?_, fun k stands => ?_⟩⟩
    · exact exec_eq_answer rfl (State.levelComplete_over found ended)
    · exact exec_eq_answer rfl (State.levelComplete_stands found stands)
  case culprit =>
    refine fun h => ⟨fun none => ?_, fun k found => ⟨fun idle => ?_, fun testing => ?_⟩⟩
    · exact ⟨exec_eq_next rfl (State.culpritTest_none none false) rfl, exec_eq_next rfl (State.culpritTest_none none true) rfl⟩
    · exact ⟨exec_eq_answer rfl (State.culpritTest_idle found idle false), exec_eq_next rfl (State.culpritTest_idle found idle true) rfl⟩
    · exact ⟨exec_eq_next rfl (State.culpritTest_testing found testing false) rfl, exec_eq_answer rfl (State.culpritTest_testing found testing true)⟩
  case config =>
    intro reply takes row args d v
    have is : s.epochConfig (.queue q reply) = u.onForme q c reply State.configHere [] :=
      State.onCmd_takes takes fun s c => s.onForme q c reply State.configHere []
    refine ⟨fun other => exec_eq_answer rfl (is.trans ((State.onForme_eq of).trans (if_pos other))),
      fun anchor bad => exec_eq_answer rfl (is.trans ((State.onForme_eq of).trans ((if_neg (not_not.mpr anchor)).trans (if_pos bad)))),
      fun anchor ok alone => exec_eq_answer rfl (is.trans (State.onForme_alone of anchor ok alone)), fun anchor ok far none => ?_,
      fun w anchor ok far some => ?_⟩
    · subst none
      exact exec_eq_answer rfl (is.trans (State.onForme_waits of anchor ok far))
    · subst some
      exact exec_eq_answer rfl (is.trans (State.onForme_answered of anchor ok far w))
  case configOrder => exact fun o opc => exec_eq_answer rfl (State.epochConfig_order opc)
  case mark =>
    intro reply idle takes anchor row a far v
    have is := State.epochMark_takes (reply := reply) idle takes
    refine ⟨fun waits => exec_eq_answer rfl (is.trans (State.markOf_waits of anchor rfl waits)), fun alone far none => ?_,
      fun alone told => exec_eq_answer rfl (is.trans (State.markOf_marks of anchor rfl alone told))⟩
    subst none
    exact exec_eq_answer rfl (is.trans (State.markOf_orders of anchor rfl alone far))
  case markOrder => exact fun o opc => exec_eq_answer rfl (State.epochMark_order opc)
  case commit =>
    exact fun forme id j found => ⟨_, State.job_commitEpoch found, rfl, rfl, rfl, rfl, rfl, rfl, rfl, j.budget_atMark ..⟩
  case region =>
    refine ⟨State.setRefill, State.resolveMirror 0, State.resolveMirror 1, State.resolveMirror 2, onMember_row fun _ => rfl, ?_, fun s n a =>
      ⟨fun d bad => ⟨State.setRefill_error bad, State.resolveMirror_error bad 0, State.resolveMirror_error bad 1, State.resolveMirror_error bad 2⟩,
        fun g named => ⟨State.setRefill_ok named, fun single => ?_, fun mirror => ?_⟩⟩⟩
    · refine List.forall_mem_cons.mpr ⟨?_, List.forall_mem_cons.mpr ⟨?_, List.forall_mem_singleton.mpr ?_⟩⟩
      · exact onMember_row fun _ => rfl
      · exact onMember_row fun _ => rfl
      · exact onMember_row fun _ => rfl
    · exact ⟨State.resolveMirror_single named single 0, State.resolveMirror_single named single 1, State.resolveMirror_single named single 2⟩
    · exact ⟨State.resolveMirror_both named mirror 0, State.resolveMirror_both named mirror 1, State.resolveMirror_both named mirror 2⟩
  case noneTaken =>
    exact List.forall_mem_cons.mpr ⟨fun none => exec_eq_next rfl (State.onBulk_none none _) rfl,
      List.forall_mem_singleton.mpr fun none => exec_eq_next rfl (State.onCmd_none none _) rfl⟩
  case reserve =>
    intro b takes read id n good
    refine ⟨fun unknown => exec_eq_answer rfl (State.reserve_unknown takes read unknown), fun f found => ?_⟩
    have is := State.reserve_forme takes read found
    refine ⟨fun other => exec_eq_answer rfl (is.trans (if_pos ?_)), fun master bad => exec_eq_answer rfl (is.trans ((if_neg ?_).trans (if_pos ?_))),
      fun master ok => exec_eq_answer rfl (is.trans ((if_neg ?_).trans (if_neg ?_)))⟩
    · rw [other]; rfl
    · rw [master]; decide
    · have bad : ¬ (8 ≤ b.length ∧ b.length % 8 = 0 ∧ n ≤ 4096) := bad
      omega
    · rw [master]; decide
    · have ok : 8 ≤ b.length ∧ b.length % 8 = 0 ∧ n ≤ 4096 := ok
      omega
  case reset =>
    intro takes p v
    have is : s.resetPartition q = if 48 ≤ p ∨ !(s.part p).inUse then refused Dt.field
        else v.startLadder ⟨.part (Fin.ofNat 48 p), none, 2, v.ltime, some p, [], [], false, false, false⟩ 2 := State.onCmd_takes takes _
    refine ⟨fun bad => exec_eq_answer rfl (is.trans (if_pos ?_)), fun known inUse => exec_eq_answer rfl (is.trans (if_neg ?_))⟩
    · simpa using bad
    · simpa [inUse] using known
  case fenceOff =>
    refine fun views => List.forall_mem_cons.mpr ⟨fenceOff_row rfl, List.forall_mem_cons.mpr ⟨fenceOff_row rfl, List.forall_mem_singleton.mpr (fenceOff_row rfl)⟩⟩
  case messages =>
    intro views numbers
    simp only [List.forall_mem_cons]
    exact ⟨recov_row rfl, recov_row rfl, recov_row rfl, recov_row rfl, recov_row rfl, recov_row rfl, recov_row rfl, recov_row rfl, recov_row rfl,
      recov_row rfl, recov_row rfl, List.forall_mem_nil _⟩
  case pulseSend =>
    exact fun id member f p forme here => ⟨fun recovers => exec_eq_next rfl (State.pulseSend_recovering forme here recovers) rfl,
      fun k serves master => exec_eq_answer rfl (State.pulseSend_sends forme here serves master)⟩
  case taken =>
    intro f found
    refine ⟨fun takes other => exec_eq_next rfl ((State.pulseIn_takes found takes).trans (if_pos ?_)) rfl,
      fun takes master => exec_eq_answer rfl ((State.pulseIn_takes found takes).trans (if_neg ?_)),
      fun takes => exec_eq_answer rfl (State.pulseAns_takes found takes), fun r takes named => ⟨fun asked => ?_, fun new => ?_⟩,
      fun takes => ⟨fun away => exec_eq_next rfl ((State.probeIn_takes found takes).trans (if_neg ?_)) rfl,
        fun p here => exec_eq_answer rfl ((State.probeIn_takes found takes).trans (if_pos ?_))⟩,
      fun t takes probed late => exec_eq_next rfl ((State.probeAns_takes found takes probed).trans (if_pos late)) rfl,
      fun t takes probed soon => exec_eq_answer rfl ((State.probeAns_takes found takes probed).trans (if_neg (Nat.not_lt.mpr soon))),
      fun takes => exec_eq_answer rfl (State.thawIn_takes found takes), fun takes => exec_eq_answer rfl (State.rollbackIn_takes found takes),
      fun views takes => ⟨fun unasked => exec_eq_next rfl ((State.rolledBackIn_takes found takes views).trans (if_pos ?_)) rfl,
        fun asked => exec_eq_answer rfl ((State.rolledBackIn_takes found takes views).trans (if_neg ?_))⟩,
      fun takes => exec_eq_answer rfl (State.resumeIn_takes found takes),
      fun numbers k r rest takes first => exec_eq_answer rfl (State.masterClaim_takes found takes first _),
      fun takes => ⟨fun master => exec_eq_answer rfl ((State.logIn_takes found takes).trans (if_pos master)),
        fun other => exec_eq_answer rfl ((State.logIn_takes found takes).trans (if_neg (Bool.eq_false_iff.mp other)))⟩⟩
    · rw [other]; rfl
    · rw [master]; decide
    · obtain ⟨w, is⟩ := Option.ne_none_iff_exists'.mp asked
      refine exec_eq_answer rfl ((State.suspectIn_takes found takes named).trans ?_)
      rw [is]
    · refine exec_eq_answer rfl ((State.suspectIn_takes found takes named).trans ?_)
      rw [new]
    · rw [away]; decide
    · rw [here]; rfl
    · simpa using unasked
    · simpa using asked
  case peer =>
    intro id observer named copy views f p r forme here member other serves first leads row noted since
    have least_min? {t : Nat} (mem : t ∈ since) (least : ∀ u ∈ since, t ≤ u) : since.min? = some t := List.min?_eq_some_iff.mpr ⟨mem, least⟩
    have other : named.toNat ≠ observer.toNat := fun same => other (BitVec.eq_of_toNat_eq same)
    refine ⟨fun t mem least leads => exec_eq_answer rfl ?_, fun t mem least k follows dest => exec_eq_answer rfl ?_,
      fun none => exec_eq_next rfl (State.peerTimeout_none forme here member none) rfl⟩
    · exact (State.peerTimeout_some forme here member (least_min? mem least) other serves).trans (if_pos leads)
    · refine (State.peerTimeout_some forme here member (least_min? mem least) other serves).trans ((if_neg (Bool.eq_false_iff.mp follows)).trans ?_)
      rw [dest]
      rfl
  case probe =>
    exact fun id copy views f forme => ⟨fun none => exec_eq_next rfl (State.probeTimeout_none forme none copy views) rfl,
      fun k t probed => exec_eq_answer rfl (State.probeTimeout_some forme probed copy views)⟩
  case poison =>
    intro p addr a
    refine ⟨fun nowhere => exec_eq_next rfl (State.poisonRestore_nowhere nowhere) rfl, fun b found =>
      ⟨fun done => exec_eq_next rfl (State.poisonRestore_done found done) rfl, fun poison told inUse => ⟨fun r prim o copy intact => ?_, fun none => ?_⟩⟩⟩
    · exact exec_eq_answer rfl (State.poisonRestore_mirror found poison told inUse copy intact)
    · exact exec_eq_answer rfl (State.poisonRestore_second found poison told inUse none)
  case restore =>
    refine fun p a b => ⟨State.restoreSecond_rest, fun h => State.restoreRest_rollback, fun none free => ?_, fun none allocated => ?_⟩
    · exact (State.restoreRest_unshadowed none).trans (if_pos (Option.isNone_iff_eq_none.mpr free))
    · exact (State.restoreRest_unshadowed none).trans (if_neg fun free => allocated (Option.isNone_iff_eq_none.mp free))

end Sys2Proof.Machine
end

section
/-! PROOFS. Mbamar links: training, going down, flits and routing (R454 to R458, R466, R469). -/

namespace Sys2Proof.Machine

/-! ### Training (R454, R459, R460) -/

section Training
variable {s : State} {l : Nat}

theorem State.link_linkRecord (s : State) (l event sev count i : Nat) : (s.linkRecord l event sev count).link i = s.link i := by
  obtain ⟨r, p, o, ladders, is⟩ := s.record_eq _
  rw [State.linkRecord, is]
  rfl

theorem State.ltime_linkRecord (s : State) (l event sev count : Nat) : (s.linkRecord l event sev count).ltime = s.ltime := by
  obtain ⟨r, p, o, ladders, is⟩ := s.record_eq _
  rw [State.linkRecord, is]

/-- When a link may not train. -/
theorem State.mayNotTrain : (!s.mayTrain l) = true ↔
    ¬(s.pm.st = .ready ∨ (s.pm.st = .booting ∧ (s.pm.byReset = true ∨ 6 < s.pm.step))) ∨ s.dieFenced.contains (l / 4) = true ∨
      s.power.railsOff.any (fun r => decide (r < 32 ∧ r % 4 = l / 4)) = true := by
  have runs : s.linksRun = true ↔ (s.pm.st = .ready ∨ (s.pm.st = .booting ∧ (s.pm.byReset = true ∨ 6 < s.pm.step))) := by
    simp [State.linksRun]
  rw [← runs, State.mayTrain]
  simp only [Bool.not_and, Bool.not_not, Bool.or_eq_true, Bool.not_eq_true', Bool.not_eq_true, or_assoc]

theorem State.linkTraining_down (down : (s.link l).state = .down) : s.linkTraining l =
    if (s.link l).disable = true ∨ (s.link l).waits = true ∨
        ¬(s.pm.st = .ready ∨ (s.pm.st = .booting ∧ (s.pm.byReset = true ∨ 6 < s.pm.step))) ∨ s.dieFenced.contains (l / 4) = true ∨
          s.power.railsOff.any (fun r => decide (r < 32 ∧ r % 4 = l / 4)) = true then s
    else
      let t := match (s.link l).downAt with
        | some t => s.advanceTo (t + 1000000)
        | none => s
      t.modLink l fun k => k.train t.ltime := by
  have runs : s.linkTraining l =
      if (s.link l).disable ∨ (s.link l).waits ∨ !s.mayTrain l then s
      else
        let t := match (s.link l).downAt with
          | some t => s.advanceTo (t + 1000000)
          | none => s
        t.modLink l fun k => k.train t.ltime := by
    simp only [State.linkTraining, down] <;> rfl
  exact runs.trans (if_congr (or_congr_right (or_congr_right State.mayNotTrain)) rfl rfl)

theorem State.linkTraining_training {n : Nat} (training : (s.link l).state = .training n) : s.linkTraining l =
    if n < 3 then s.modLink l fun k => { k with state := .training (n + 1), stepAt := s.ltime }
    else if n = 3 then (s.modLink l fun k => { k with state := .training 4, stepAt := s.ltime }).emit (.train l s.fabAddr s.fabV (s.link l).epoch)
    else s := by
  simp only [State.linkTraining, training]

theorem State.linkTraining_proved (proved : (s.link l).state = .guarding true) : s.linkTraining l =
    (s.modLink l fun k => { k with
      state := .up, credits := initialCredits, nextPos := 0, acked := 0, retry := [], replays := 0, rxPos := 0, nakSent := false
      granted := [], rxCredits := initialCredits }).linkRecord l LinkEvent.up 0 := by
  simp only [State.linkTraining, proved]

theorem State.linkTraining_other (notDown : (s.link l).state ≠ .down) (notTraining : ∀ n, (s.link l).state ≠ .training n)
    (unproved : (s.link l).state ≠ .guarding true) : s.linkTraining l = s := by
  cases st : (s.link l).state with
  | down => exact absurd st notDown
  | training n => exact absurd st (notTraining n)
  | guarding b =>
    cases b with
    | true => exact absurd st unproved
    | false => simp only [State.linkTraining, st]
  | up => simp only [State.linkTraining, st]
  | rejected => simp only [State.linkTraining, st]

/-- What a step of training that has overrun its bound comes to, with the failures within 1 s. -/
def State.trainingFails (s : State) (l : Nat) (failed : List Nat) : State :=
  if 3 ≤ failed.length then
    (s.modLink l fun k => { k with state := .down, downAt := some s.ltime, waits := true, failed := [], hello := false }).linkRecord l 0x03 3
  else s.modLink l fun k => { k with state := .training 1, hello := false, stepAt := s.ltime, failed := failed }

/-- The failures of a link that count at local time `now`. -/
def Link.failures (k : Link) (now : Nat) : List Nat := (k.failed.filter fun t => decide (now < t + 1000000000)) ++ [now]

theorem LinkState.bound_training (n : Nat) : (LinkState.training n).bound ≠ 0 := by
  match n with
  | 0 | 1 | 2 | 3 => decide
  | n + 4 => exact (by decide : 100000 ≠ 0)

theorem State.trainOverrun_training {n : Nat} (training : (s.link l).state = .training n) : s.trainOverrun l =
    let t := s.advanceTo ((s.link l).stepAt + (s.link l).state.bound)
    t.trainingFails l ((s.link l).failures t.ltime) := by
  simp only [State.trainOverrun, training, if_neg (LinkState.bound_training n)]
  rfl

theorem State.trainOverrun_guarding {proved : Bool} (guarding : (s.link l).state = .guarding proved) : s.trainOverrun l =
    let t := s.advanceTo ((s.link l).stepAt + (s.link l).state.bound)
    t.trainingFails l ((s.link l).failures t.ltime) := by
  have bounded : (LinkState.guarding proved).bound ≠ 0 := by cases proved <;> decide
  simp only [State.trainOverrun, guarding, if_neg bounded]
  rfl

theorem State.trainOverrun_other (notTraining : ∀ n, (s.link l).state ≠ .training n) (notGuarding : ∀ b, (s.link l).state ≠ .guarding b) :
    s.trainOverrun l = s := by
  cases st : (s.link l).state with
  | down => simp only [State.trainOverrun, st]; rfl
  | training n => exact absurd st (notTraining n)
  | guarding b => exact absurd st (notGuarding b)
  | up => simp only [State.trainOverrun, st]; rfl
  | rejected => simp only [State.trainOverrun, st]; rfl

section Identity
variable {serial plink fab : Nat} {fabV : Bool} {epoch rtt : Nat}

theorem State.trainReceived_identifies (step : (s.link l).state = .training 4) : s.trainReceived l serial plink fab fabV epoch rtt =
    (s.modLink l fun k => { k with
      partnerSerial := serial, partnerLink := plink, partnerMod := if fabV then fab else 0, partnerV := fabV
      epoch := (max k.epoch epoch + 1) % 2 ^ 16, rtt := min rtt 1023, state := .guarding false, hello := false, stepAt := s.ltime }).emit
        (.guard l false) := by
  simp only [State.trainReceived, step]

theorem State.trainReceived_other (other : (s.link l).state ≠ .training 4) : s.trainReceived l serial plink fab fabV epoch rtt = s := by
  unfold State.trainReceived
  dsimp only
  split
  case h_1 step => exact absurd step other
  case h_2 => rfl

end Identity

theorem State.helloReceived_guarding (guarding : (s.link l).state = .guarding false) : s.helloReceived l =
    if (s.link l).hello then s else (s.modLink l fun k => { k with hello := true }).emit (.guard l true) := by
  simp only [State.helloReceived, guarding]

theorem State.helloReceived_other (other : (s.link l).state ≠ .guarding false) : s.helloReceived l = s := by
  unfold State.helloReceived
  dsimp only
  split
  case h_1 guarding => exact absurd guarding other
  case h_2 => rfl

section Proof
variable {sigs nonce : Bool} {state : Nat} {config : BitVec 384}

theorem State.proofReceived_other (other : (s.link l).state ≠ .guarding false) : s.proofReceived l sigs nonce state config = s := by
  unfold State.proofReceived
  dsimp only
  split
  case h_1 guarding => exact absurd guarding other
  case h_2 => rfl

theorem State.proofReceived_early (guarding : (s.link l).state = .guarding false) (early : (s.link l).hello = false) :
    s.proofReceived l sigs nonce state config = s := by
  simp only [State.proofReceived, guarding, early, Bool.not_false, if_true]

theorem State.proofReceived_judged (guarding : (s.link l).state = .guarding false) (hello : (s.link l).hello = true) :
    s.proofReceived l sigs nonce state config =
      if sigs = true ∧ nonce = true ∧ state = s.sec.lc ∧ config = s.sec.config ∧ (s.sec.lc = 1 ∨ s.sec.lc = 2) then
        s.modLink l fun k => { k with state := .guarding true, stepAt := s.ltime }
      else (s.modLink l fun k => { k with state := .rejected }).linkRecord l 0x04 3 := by
  simp only [State.proofReceived, guarding, hello, Bool.not_true, Bool.false_eq_true, if_false, Bool.and_eq_true, decide_eq_true_eq, and_assoc]
  rfl

end Proof

end Training

/-! ### Going down (R458, R469) -/

section Down
variable {s : State} {l : Nat}

/-- One packet of a lost link leaves as a detour, or by the links that remain. -/
def State.detourOne (s : State) (l : Nat) (e : Option Nat × Packet) : State :=
  match s.detourBy l e.2 e.1 with
  | (t, true) => t
  | (_, false) => match (s.clearLink l).launch e.2 with
    | .gone t => t
    | .unreachable t => t.drop l e.2 5

/-- Where a packet cannot leave as a detour the state is as it was. -/
theorem State.detourBy_none {p : Packet} {fseq : Option Nat} (none : (s.detourBy l p fseq).2 = false) : s.detourBy l p fseq = (s, false) := by
  unfold State.detourBy at none ⊢
  dsimp only at none ⊢
  split at none
  case isTrue no => exact if_pos no
  case isFalse => cases none

theorem State.detourAll_cons (s : State) (l : Nat) (e : Option Nat × Packet) (r : List (Option Nat × Packet)) :
    s.detourAll l (e :: r) = (s.detourOne l e).detourAll l r := by
  obtain ⟨fseq, p⟩ := e
  rw [State.detourAll]
  refine congrArg (fun t : State => t.detourAll l r) ?_
  cases by_ : s.detourBy l p fseq with
  | mk t left =>
    cases left with
    | true => simp only [State.detourOne, by_]
    | false =>
      have same : (s, false) = (t, false) := (State.detourBy_none (by rw [by_])).symm.trans by_
      obtain rfl : s = t := congrArg Prod.fst same
      simp only [State.detourOne, by_] <;> rfl

theorem State.detourAll_eq_foldl (s : State) (l : Nat) (lost : List (Option Nat × Packet)) :
    s.detourAll l lost = lost.foldl (fun s e => s.detourOne l e) s := by
  induction lost generalizing s with
  | nil => rfl
  | cons e r ih => exact (State.detourAll_cons s l e r).trans (ih _)

theorem State.linkDown_down (down : (s.link l).state = .down) : s.linkDown l = s := if_pos down

/-- What was buffered for the packets that wait at a lost link is freed, and the link leaves the masks of its partner. -/
def State.unmasked (s : State) (l : Nat) (k : Link) : State :=
  let b := k.waiting.foldl (fun s p => s.freeBuffered p) s
  { b with routing := b.routing.map fun (e : Nat × Nat) => (e.1, if k.partnerV && e.1 == k.partnerMod && e.2.testBit l then e.2 - 2 ^ l else e.2) }

/-- A link that goes down at local time `now`. -/
def Link.wentDown (k : Link) (now : Nat) : Link :=
  { k with
    state := .down, downAt := some now, waits := k.waits || decide (k.state = .rejected), hello := false, nextPos := 0, acked := 0, retry := [], replays := 0, rxPos := 0
    nakSent := false, uncorrAt := [], credits := [], waiting := [], granted := [], rxCredits := [], buffered := [], arb := LinkArb.reset
    record := if k.state = .up then some ⟨k.epoch, if k.rxPos = 0 then none else some ((k.rxPos + 4095) % 4096), now⟩ else k.record }

/-- The state in which a link has gone down. -/
def State.leftDown (s : State) (l : Nat) : State :=
  ((((s.emit (.flit l .down (((s.link l).rxPos + 4095) % 4096))).linkRecord l 0x01 3).modLink l fun k => k.wentDown s.ltime)).unmasked l (s.link l)

/-- The packets that a link that goes down has not seen acknowledged, with the FSEQ of those that were sent. -/
def Link.lost (k : Link) : List (Option Nat × Packet) :=
  (k.retry.filterMap fun e => match e.2 with
    | .packet p => some (some (e.1 % 4096), p)
    | .nak _ => none) ++ k.waiting.map fun p => (none, p)

theorem State.modLink_congr (s : State) {l : Nat} {f g : Link → Link} (same : f (s.link l) = g (s.link l)) : s.modLink l f = s.modLink l g := by
  rw [State.modLink, same]; rfl

theorem State.linkDown_goes (goes : (s.link l).state ≠ .down) : s.linkDown l = (s.link l).lost.foldl (fun s e => s.detourOne l e) (s.leftDown l) := by
  rw [← State.detourAll_eq_foldl]
  refine (if_neg goes).trans (congrArg (fun t : State => (t.unmasked l (s.link l)).detourAll l (s.link l).lost) (State.modLink_congr _ ?_))
  rw [State.link_linkRecord, State.ltime_linkRecord]
  rfl

theorem State.detourExpiry_none (none : (s.link l).record = none) : s.detourExpiry l = s := by
  rw [State.detourExpiry, none]

theorem State.detourExpiry_some {r : DetourRec} (some : (s.link l).record = some r) :
    s.detourExpiry l = (s.advanceTo (r.at_ + 1000000)).modLink l fun k => { k with record := none } := by
  rw [State.detourExpiry, some]

end Down

/-! ### Flits (R457, R458) -/

section Flit
variable {s : State} {l : Nat}

theorem Link.replay_ackTo (k : Link) (a : Nat) : (k.ackTo a).replay = k.replay := by
  unfold Link.ackTo
  dsimp only
  split <;> rfl

theorem State.nakReceived_notUp (notUp : (s.link l).state ≠ .up) (a : Nat) : s.nakReceived l a = s := if_neg notUp

/-- A replay is counted. -/
def State.replayed (s : State) (l a : Nat) : State :=
  s.modLink l fun k => { k.ackTo a with replay := min (k.replay + 1) 0xFFFF, replays := (k.ackTo a).replays + 1 }

theorem State.nakReceived_up (up : (s.link l).state = .up) (a : Nat) : s.nakReceived l a =
    if 8 ≤ ((s.replayed l a).link l).replays then (s.replayed l a).linkDown l else (s.replayed l a).resendAll l ((s.replayed l a).link l).retry := by
  have counts : (s.modLink l fun k => { k.ackTo a with replay := count16 (k.ackTo a).replay, replays := (k.ackTo a).replays + 1 }) = s.replayed l a :=
    State.modLink_congr s (by rw [Link.replay_ackTo]; rfl)
  rw [← counts]
  exact if_pos up

theorem State.packetsIn_eq_foldl (s : State) (l : Nat) (t : Told) (ps : List Packet) :
    s.packetsIn l t ps = ps.foldl (fun s p => (s.packetIn l p t).settleSlots l p s) s := by
  induction ps generalizing s with
  | nil => rfl
  | cons p r ih => exact ih _

theorem State.flitReceive_notUp {f : Flit} {t : Told} (notUp : (s.link l).state ≠ .up) : s.flitReceive l f t = s := if_pos notUp

theorem State.flitReceive_up {f : Flit} {t : Told} (up : (s.link l).state = .up) : s.flitReceive l f t =
    let a := s.modLink l Link.takeClears
    let c := a.modLink l fun k => { k with fecCorr := min (k.fecCorr + f.corrected.toNat) (2 ^ 32 - 1) }
    if !f.decoded then a.blockFailed l
    else if !f.check then (c.modLink l fun k => { k with guardFail := count16 k.guardFail }).flitFailed l
    else if f.fseq.toNat ≠ (c.link l).rxPos % 4096 then c.flitFailed l
    else c.flitAccepted l f t := if_neg (not_not.mpr up)

/-- A block that does not decode is counted. -/
def State.blockLost (s : State) (l : Nat) : State :=
  s.modLink l fun k => { k with fecUncorr := min (k.fecUncorr + 1) (2 ^ 32 - 1), uncorrAt := (k.uncorrAt.filter fun t => decide (s.ltime < t + 1000000)) ++ [s.ltime] }

theorem State.blockFailed_eq (s : State) (l : Nat) : s.blockFailed l =
    if 1000 < ((s.blockLost l).link l).uncorrAt.length then (s.blockLost l).linkDown l else (s.blockLost l).flitFailed l := rfl

/-- A flit is refused by one NAK that names the last flit accepted. -/
theorem State.flitFailed_eq (s : State) (l : Nat) : s.flitFailed l =
    if (s.link l).nakSent then s
    else (s.modLink l fun k => { k with
      nakSent := true, retry := k.retry ++ [(k.nextPos, .nak ((k.rxPos + 4095) % 4096))], nextPos := k.nextPos + 1 }).emit
        (.flit l .nak (((s.link l).rxPos + 4095) % 4096)) := by
  have named : (s.modLink l fun k => { k with
      nakSent := true, retry := k.retry ++ [(k.nextPos, .nak (((s.link l).rxPos + 4095) % 4096))], nextPos := k.nextPos + 1 }) =
      s.modLink l fun k => { k with
        nakSent := true, retry := k.retry ++ [(k.nextPos, .nak ((k.rxPos + 4095) % 4096))], nextPos := k.nextPos + 1 } := State.modLink_congr s rfl
  rw [← named]
  rfl

section Block
variable {t : State} (counted : s.blockLost l = t)
include counted

theorem State.blockFailed_many (many : 1000 < (t.link l).uncorrAt.length) : s.blockFailed l = t.linkDown l := by
  subst counted
  exact (State.blockFailed_eq s l).trans (if_pos many)

theorem State.blockFailed_few (few : (t.link l).uncorrAt.length ≤ 1000) : s.blockFailed l = t.flitFailed l := by
  subst counted
  exact (State.blockFailed_eq s l).trans (if_neg (Nat.not_lt.mpr few))

end Block

theorem State.flitAccepted_eq (s : State) (l : Nat) (f : Flit) (t : Told) : s.flitAccepted l f t =
    let d := s.modLink l fun k => { k.ackTo f.ackSeq.toNat with
      rxPos := (k.ackTo f.ackSeq.toNat).rxPos + 1, nakSent := false, credits := Tbl.mod 0 (k.ackTo f.ackSeq.toNat).credits f.crSub.toNat fun c => c + f.crSlots.toNat }
    match f.kind with
    | .idle => d.retryWaiting l
    | .nak => (d.retryWaiting l).nakReceived l f.ackSeq.toNat
    | .down => d.linkDown l
    | .data => f.packets.foldl (fun s p => (s.packetIn l p t).settleSlots l p s) (d.retryWaiting l) := by
  simp only [← State.packetsIn_eq_foldl]
  rfl

end Flit

/-! ### Routing (R466, R469) -/

section Launch
variable {s : State} {p : Packet}

theorem State.launch_unreachable (none : linksOf (s.mask p.target) = []) : s.launch p = .unreachable s := by
  have none : (linksOf (s.mask p.target)).isEmpty = true := by rw [none]; rfl
  exact if_pos none

theorem State.launch_eq (some : linksOf (s.mask p.target) ≠ []) : s.launch p =
    let o := (linksOf (s.mask p.target)).getD (p.hash % (linksOf (s.mask p.target)).length) 0
    if (s.link o).state = .up then .gone (s.offer o p)
    else match s.detourBy o p none with
      | (t, true) => .gone t
      | (t, false) => State.launchFuel (t.clearLink o) 16 p :=
  if_neg (List.isEmpty_iff.not.mpr some)

theorem State.offer_eq (s : State) (o : Nat) (p : Packet) : s.offer o p =
    if (s.link o).takes p ∧ ∀ q ∈ (s.link o).waiting, q.sub ≠ p.sub then
      (s.modLink o fun k => { k with credits := Tbl.mod 0 k.credits p.sub fun c => c - p.slots, nextPos := k.nextPos + p.flits, retry := k.retry ++ [(k.nextPos + p.flits - 1, .packet p)], arb := k.arb.meter s.ltime p }).emit (.packet o p)
    else s.modLink o fun k => { k with waiting := k.waiting ++ [p] } := by
  refine if_congr ?_ rfl rfl
  simp

variable {o : Nat} (some : linksOf (s.mask p.target) ≠ []) (out : (linksOf (s.mask p.target)).getD (p.hash % (linksOf (s.mask p.target)).length) 0 = o)
include some out

theorem State.launch_up (up : (s.link o).state = .up) : s.launch p = .gone (s.offer o p) := by
  subst out
  exact (State.launch_eq some).trans (if_pos up)

theorem State.launch_detour (lost : (s.link o).state ≠ .up) (leaves : (s.detourBy o p none).2 = true) : s.launch p = .gone (s.detourBy o p none).1 := by
  subst out
  refine (State.launch_eq some).trans ((if_neg lost).trans ?_)
  cases is : s.detourBy _ p none with
  | mk t left =>
    rw [is] at leaves
    obtain rfl : left = true := leaves
    rfl

end Launch

end Sys2Proof.Machine
end

section
/-! PROOFS. Packets of links: arrival, transit, opening, peer requests and their answers (R203, R284, R462 to R470). -/

namespace Sys2Proof.Machine

/-! ### Arrival (R466, R469, R470) -/

section Arrival
variable {s : State} {l : Nat} {p : Packet} {t : Told}

theorem State.packetIn_reserved (rsv : p.rsv = true) : s.packetIn l p t = s.modLink l fun k => { k with hopsDrop := min (k.hopsDrop + 1) 0xFFFF } :=
  if_pos (by rw [rsv]; rfl)

/-- Which types a row of single packets is for: those of Table 15-6 but WALK and GUARD. -/
def rowType (t : Nat) : Bool := [0x01, 0x02, 0x03, 0x04, 0x05, 0x06, 0x10, 0x11, 0x12].contains t

theorem rowType_known {t : Nat} (row : rowType t = true) : knownType t = true ∧ t ≠ PT.walk ∧ t ≠ PT.guard := by
  have all : ∀ t ∈ [0x01, 0x02, 0x03, 0x04, 0x05, 0x06, 0x10, 0x11, 0x12], knownType t = true ∧ t ≠ PT.walk ∧ t ≠ PT.guard := by decide
  exact all t (List.contains_iff_mem.mp row)

section Known
variable (known : rowType p.kind = true) (clean : p.rsv = false)
include known

theorem State.routePacket_row : s.routePacket l p t = if p.target = s.fabAddr then s.deliverPacket l p t else s.forwardPacket l p :=
  (if_neg (rowType_known known).2.1).trans (if_neg (rowType_known known).2.2)

include clean

theorem State.packetIn_clean : s.packetIn l p t =
    match p.detour with
    | none => s.routePacket l p t
    | some d =>
      if d.viaMod.toNat ≠ s.fabAddr then s.routePacket l p t
      else
        let v := d.viaLink.toNat
        let had := match (s.link v).record with
          | some r => r.had d
          | none => false
        if had then s.modLink v fun k => { k with detourDup := count16 k.detourDup }
        else s.routePacket v { p with detour := none } t :=
  if_neg (by rw [clean, (rowType_known known).1]; decide)

section Direct
variable (direct : p.detour = none)
include direct

theorem State.packetIn_transit (away : p.dstMod.toNat ≠ s.fabAddr) : s.packetIn l p t = s.forwardPacket l p := by
  have target : p.target = p.dstMod.toNat := by rw [Packet.target, direct]
  refine (State.packetIn_clean known clean).trans ?_
  rw [direct]
  exact (State.routePacket_row known).trans (if_neg (target ▸ away))

theorem State.packetIn_here (here : p.dstMod.toNat = s.fabAddr) : s.packetIn l p t = s.deliverPacket l p t := by
  have target : p.target = p.dstMod.toNat := by rw [Packet.target, direct]
  refine (State.packetIn_clean known clean).trans ?_
  rw [direct]
  exact (State.routePacket_row known).trans (if_pos (target ▸ here))

end Direct

variable {d : DetourSlot} (detour : p.detour = some d) (via : d.viaMod.toNat = s.fabAddr)
include detour via

theorem State.packetIn_detour : s.packetIn l p t =
    let v := d.viaLink.toNat
    let had := match (s.link v).record with
      | some r => r.had d
      | none => false
    if had then s.modLink v fun k => { k with detourDup := count16 k.detourDup }
    else s.routePacket v { p with detour := none } t := by
  refine (State.packetIn_clean known clean).trans ?_
  rw [detour]
  exact if_neg (not_not.mpr via)

theorem State.packetIn_again (again : ∃ v, (s.link d.viaLink.toNat).record = some v ∧ v.had d = true) :
    s.packetIn l p t = s.modLink d.viaLink.toNat fun k => { k with detourDup := min (k.detourDup + 1) 0xFFFF } := by
  obtain ⟨v, record, had⟩ := again
  refine (State.packetIn_detour known clean detour via).trans (if_pos ?_)
  rw [record]
  exact had

theorem State.packetIn_onward (new : ∀ v, (s.link d.viaLink.toNat).record = some v → v.had d = false) :
    s.packetIn l p t = s.routePacket d.viaLink.toNat { p with detour := none } t := by
  refine (State.packetIn_detour known clean detour via).trans (if_neg ?_)
  cases record : (s.link d.viaLink.toNat).record with
  | none => exact Bool.false_ne_true
  | some v => exact Bool.eq_false_iff.mp (new v record)

end Known

theorem State.forwardPacket_spent (spent : p.hops.toNat ≤ 1) : s.forwardPacket l p = s.drop l p 7 := if_pos spent

/-- The packet as it goes on, one hop nearer. -/
def onHop (p : Packet) : Packet := { p with hops := p.hops - 1 }

theorem State.forwardPacket_hops (hops : 1 < p.hops.toNat) : s.forwardPacket l p =
    if ¬ (∀ o, s.firstLink (onHop p) = some o → o / 4 = l / 4) ∧ s.pm.st ≠ .ready then s.drop l p 5
    else match s.launch (onHop p) with
      | .gone s => s
      | .unreachable s => s.drop l p 5 := by
  refine (if_neg (Nat.not_le.mpr hops)).trans (if_congr ?_ rfl rfl)
  change (match s.firstLink (onHop p) with | some o => o / 4 != l / 4 | none => false) && s.pm.st != .ready ↔ _
  cases s.firstLink (onHop p) <;> simp

theorem State.deliverPacket_notReady (notReady : s.pm.st ≠ .ready) : s.deliverPacket l p t = s.drop l p 5 := if_pos notReady

end Arrival

/-- What the rows of single packets do with one that is not of their type, not well formed, or not for this module. -/
theorem packet_row {s : State} {l kind : Nat} {p : Packet} {t : Told} {i : Instr} (known : rowType kind = true)
    (other : p.kind ≠ kind → exec i s = .next s)
    (arrives : p.kind = kind → (∀ e ∈ s.inbox, ¬ (e.1 = l ∧ e.2.2.2 = p)) → exec i s = s.answer (s.packetIn l p t)) :
    (p.kind ≠ kind → exec i s = .next s) ∧
    (p.kind = kind → (∀ e ∈ s.inbox, ¬ (e.1 = l ∧ e.2.2.2 = p)) →
      (p.rsv = true → exec i s = s.answer (s.modLink l fun k => { k with hopsDrop := min (k.hopsDrop + 1) 0xFFFF })) ∧
      (p.rsv = false → p.detour = none → p.dstMod.toNat ≠ s.fabAddr →
        let q := { p with hops := p.hops - 1 }
        let stays := ∀ o, s.firstLink q = some o → o / 4 = l / 4
        (p.hops.toNat ≤ 1 → exec i s = s.answer (s.drop l p 7)) ∧
        (1 < p.hops.toNat → ¬ stays → s.pm.st ≠ .ready → exec i s = s.answer (s.drop l p 5)) ∧
        (1 < p.hops.toNat → stays ∨ s.pm.st = .ready → exec i s = s.answer (match s.launch q with
          | .gone s => s
          | .unreachable s => s.drop l p 5))) ∧
      (p.rsv = false → p.detour = none → p.dstMod.toNat = s.fabAddr → s.pm.st ≠ .ready → exec i s = s.answer (s.drop l p 5)) ∧
      (∀ d, p.rsv = false → p.detour = some d → d.viaMod.toNat = s.fabAddr →
        ((∃ v, (s.link d.viaLink.toNat).record = some v ∧ v.had d = true) →
          exec i s = s.answer (s.modLink d.viaLink.toNat fun k => { k with detourDup := min (k.detourDup + 1) 0xFFFF })) ∧
        ((∀ v, (s.link d.viaLink.toNat).record = some v → v.had d = false) →
          exec i s = s.answer (s.routePacket d.viaLink.toNat { p with detour := none } t)))) := by
  refine ⟨other, fun is new => ?_⟩
  have row := arrives is new
  have known : rowType p.kind = true := is ▸ known
  refine ⟨fun rsv => exec_eq_answer row (State.packetIn_reserved rsv), fun clean direct away => ?_, fun clean direct here notReady => ?_,
    fun d clean detour via => ⟨fun again => ?_, fun fresh => ?_⟩⟩
  · have onward := State.packetIn_transit (l := l) (t := t) known clean direct away
    refine ⟨fun spent => exec_eq_answer row (onward.trans (State.forwardPacket_spent spent)),
      fun hops crosses notReady => exec_eq_answer row (onward.trans ((State.forwardPacket_hops hops).trans (if_pos ⟨crosses, notReady⟩))),
      fun hops may => exec_eq_answer row (onward.trans ((State.forwardPacket_hops hops).trans (if_neg ?_)))⟩
    rintro ⟨crosses, notReady⟩
    exact may.elim crosses notReady
  · exact exec_eq_answer row ((State.packetIn_here known clean direct here).trans (State.deliverPacket_notReady notReady))
  · exact exec_eq_answer row (State.packetIn_again known clean detour via again)
  · exact exec_eq_answer row (State.packetIn_onward known clean detour via fresh)

section Rows
variable {s : State} {l kind : Nat} {p : Packet} {t : Told} {i : Instr}

theorem packetRow_other (row : exec i s = s.answer (s.packetRow l kind p t)) (other : p.kind ≠ kind) : exec i s = .next s :=
  exec_eq_next row (if_pos other) rfl

theorem packetRow_arrives (row : exec i s = s.answer (s.packetRow l kind p t)) (is : p.kind = kind) : exec i s = s.answer (s.packetIn l p t) :=
  exec_eq_answer row (if_neg (not_not.mpr is))

theorem peerRow_other (row : exec i s = s.answer (s.peerRow l kind p)) (other : p.kind ≠ kind) : exec i s = .next s :=
  exec_eq_next row (if_pos other) rfl

theorem peerRow_arrives (row : exec i s = s.answer (s.peerRow l kind p)) (is : p.kind = kind)
    (new : ∀ e ∈ s.inbox, ¬ (e.1 = l ∧ e.2.2.2 = p)) : exec i s = s.answer (s.packetIn l p Told.none) := by
  refine exec_eq_answer row ((if_neg (not_not.mpr is)).trans (if_neg ?_))
  intro listed
  obtain ⟨e, mem, same⟩ := List.any_eq_true.mp listed
  exact new e mem (by simpa using same)

/-- A request that waits is tried again, unless an earlier one for the same lines waits. -/
theorem peerRow_again (row : exec i s = s.answer (s.peerRow l kind p)) (is : p.kind = kind) {e : Nat × Principal × Option Nat × Packet}
    (waits : (s.inbox.find? fun e => e.1 == l && e.2.2.2 == p) = some e) :
    let earlier := ∃ b ∈ s.inbox.takeWhile fun e => !(e.1 == l && e.2.2.2 == p), samePlace b.2.2.2 p = true
    (earlier → exec i s = .next s) ∧
    (¬ earlier → exec i s = s.answer (match s.tryPeer l e.2.1 e.2.2.1 p with
      | (true, s) => { s with inbox := s.inbox.erase e }
      | (false, s) => s)) := by
  intro earlier
  have holds := List.find?_some waits
  have listed : (s.inbox.any fun e => e.1 == l && e.2.2.2 == p) = true := List.any_eq_true.mpr ⟨e, List.mem_of_find?_eq_some waits, holds⟩
  have again : s.peerRow l kind p = s.peerAgain l p := (if_neg (not_not.mpr is)).trans (if_pos listed)
  have runs : s.peerAgain l p = if (s.inbox.takeWhile fun e => !(e.1 == l && e.2.2.2 == p)).any fun b => samePlace b.2.2.2 p then s
      else match s.tryPeer l e.2.1 e.2.2.1 p with
        | (true, s) => { s with inbox := s.inbox.erase e }
        | (false, s) => s := by
    simp only [State.peerAgain, waits] <;> rfl
  have iff : ((s.inbox.takeWhile fun e => !(e.1 == l && e.2.2.2 == p)).any fun b => samePlace b.2.2.2 p) = true ↔ earlier := List.any_eq_true
  exact ⟨fun first => exec_eq_next row (again.trans (runs.trans (if_pos (iff.mpr first)))) rfl,
    fun first => exec_eq_answer row (again.trans (runs.trans (if_neg (iff.not.mpr first))))⟩

end Rows

/-! ### Opening (R417, R418, R463) -/

section Open
variable {s : State} {l : Nat} {p : Packet}

theorem State.openPacket_unsealed (unsealed : p.sealedBy = none) : s.openPacket l p = (some (0, none), s) := by
  rw [State.openPacket, unsealed]

theorem State.openPacket_eq (isSealed : p.sealedBy ≠ none) : s.openPacket l p =
    if s.opens p then (some ((s.key p.keyh.toNat).owner, some p.keyh.toNat), s.modKey p.keyh.toNat fun k => k.acceptCtr p.srcMod.toNat p.seng.toNat p.ctr.toNat)
    else (none, s.authFailed l) := by
  obtain ⟨k, is⟩ := Option.ne_none_iff_exists'.mp isSealed
  rw [State.openPacket, is]

theorem State.authFailed_eq (s : State) (l : Nat) : s.authFailed l =
    let a := s.modLink l fun k => { k with authFail := min (k.authFail + 1) 0xFFFF }
    if ∀ t, (s.link l).authRecAt = some t → t + 1000000 ≤ s.ltime then (a.linkRecord l 0x05 0).modLink l fun k => { k with authRecAt := some s.ltime } else a := by
  refine if_congr ?_ rfl rfl
  rw [State.link_modLink, if_pos rfl]
  cases (s.link l).authRecAt with
  | none => simp
  | some t => exact decide_eq_true_iff.trans ⟨fun due u is => Option.some.inj is ▸ due, fun due => due t rfl⟩

theorem State.opens_iff (s : State) (p : Packet) : s.opens p = true ↔
    let k := s.key p.keyh.toNat
    k.valid = true ∧ k.type = .link ∧ k.engines.toNat.testBit ((if p.kind = 0x10 ∨ p.kind = 0x12 ∨ p.cls = 7 then 9 else 8) - 7) = true ∧
      p.sealedBy = some k.key ∧ k.takesCtr p.srcMod.toNat p.seng.toNat p.ctr.toNat = true := by
  have lane : packetLane p = if p.kind = 0x10 ∨ p.kind = 0x12 ∨ p.cls = 7 then 9 else 8 := rfl
  simp only [State.opens, lane, Bool.and_eq_true, beq_iff_eq, and_assoc]

end Open

/-! ### Delivery (R203, R466) -/

section Deliver
variable {s : State} {l : Nat} {p : Packet} {t : Told} (ready : s.pm.st = .ready)
include ready

theorem State.deliverPacket_recov (kind : p.kind = 0x11) : s.deliverPacket l p t = s.recovPacket p t :=
  (if_neg (not_not.mpr ready)).trans (if_pos kind)

variable (notRecov : p.kind ≠ 0x11)
include notRecov

theorem State.deliverPacket_opened : s.deliverPacket l p t =
    match s.openPacket l p with
    | (none, s) => s
    | (some (n, h), s) =>
      if p.kind = PT.read ∨ p.kind = PT.write ∨ p.kind = PT.memop then s.peerArrive l p n h
      else if p.kind = PT.readResp then s.readRespIn p
      else if p.kind = PT.ack then s.ackIn p
      else if p.kind = PT.nack then s.nackIn p
      else if p.kind = PT.ctrl then s.ctrlPacket p n
      else match s.stateIn p with
        | some s => s.sendAnswer h (s.response p PT.ack 0 [])
        | none => s :=
  (if_neg (not_not.mpr ready)).trans (if_neg notRecov)

theorem State.deliverPacket_unopened {v : State} (unopened : s.openPacket l p = (none, v)) : s.deliverPacket l p t = v := by
  rw [State.deliverPacket_opened ready notRecov, unopened]

end Deliver

section Delivered
variable {s v : State} {l n : Nat} {h : Option Nat} {p : Packet} {t : Told} (ready : s.pm.st = .ready) (opened : s.openPacket l p = (some (n, h), v))
include ready opened

theorem State.deliverPacket_request (kind : p.kind = 0x01 ∨ p.kind = 0x02 ∨ p.kind = 0x03) : s.deliverPacket l p t = v.peerArrive l p n h := by
  have notRecov : p.kind ≠ 0x11 := by omega
  rw [State.deliverPacket_opened ready notRecov, opened]
  exact if_pos kind

theorem State.deliverPacket_readResp (kind : p.kind = 0x04) : s.deliverPacket l p t = v.readRespIn p := by
  have notRecov : p.kind ≠ 0x11 := by omega
  rw [State.deliverPacket_opened ready notRecov, opened]
  simp only [kind]
  rfl

theorem State.deliverPacket_ack (kind : p.kind = 0x05) : s.deliverPacket l p t = v.ackIn p := by
  have notRecov : p.kind ≠ 0x11 := by omega
  rw [State.deliverPacket_opened ready notRecov, opened]
  simp only [kind]
  rfl

theorem State.deliverPacket_nack (kind : p.kind = 0x06) : s.deliverPacket l p t = v.nackIn p := by
  have notRecov : p.kind ≠ 0x11 := by omega
  rw [State.deliverPacket_opened ready notRecov, opened]
  simp only [kind]
  rfl

theorem State.deliverPacket_ctrl (kind : p.kind = 0x10) : s.deliverPacket l p t = v.ctrlPacket p n := by
  have notRecov : p.kind ≠ 0x11 := by omega
  rw [State.deliverPacket_opened ready notRecov, opened]
  simp only [kind]
  rfl

theorem State.deliverPacket_state (kind : p.kind = 0x12) : s.deliverPacket l p t = match v.stateIn p with
    | some s => s.sendAnswer h (s.response p 0x05 0 [])
    | none => v := by
  have notRecov : p.kind ≠ 0x11 := by omega
  rw [State.deliverPacket_opened ready notRecov, opened]
  simp only [kind]
  rfl

end Delivered

/-- A well-formed packet for this module, that is no detour, is delivered. -/
theorem packetRow_delivers {s : State} {l kind : Nat} {p : Packet} {t : Told} {i : Instr} (row : exec i s = s.answer (s.packetRow l kind p t))
    (known : rowType kind = true) (clean : p.rsv = false) (direct : p.detour = none) (here : p.dstMod.toNat = s.fabAddr) (is : p.kind = kind) :
    exec i s = s.answer (s.deliverPacket l p t) :=
  exec_eq_answer (packetRow_arrives row is) (State.packetIn_here (is ▸ known) clean direct here)

/-- A well-formed request for this module, that is no detour and does not wait, is delivered. -/
theorem peerRow_delivers {s : State} {l kind : Nat} {p : Packet} {i : Instr} (row : exec i s = s.answer (s.peerRow l kind p))
    (known : rowType kind = true) (clean : p.rsv = false) (direct : p.detour = none) (here : p.dstMod.toNat = s.fabAddr) (is : p.kind = kind)
    (new : ∀ e ∈ s.inbox, ¬ (e.1 = l ∧ e.2.2.2 = p)) : exec i s = s.answer (s.deliverPacket l p Told.none) :=
  exec_eq_answer (peerRow_arrives row is new) (State.packetIn_here (is ▸ known) clean direct here)

/-! ### Peer requests (R203, R264, R269) -/

section Request
variable {v : State} {l n : Nat} {h : Option Nat} {p : Packet}

theorem State.peerArrive_behind (behind : ∃ e ∈ v.inbox, samePlace e.2.2.2 p = true) :
    v.peerArrive l p n h = { v with inbox := v.inbox ++ [(l, requester p n, h, p)] } :=
  if_pos (List.any_eq_true.mpr behind)

/-- The answer to a request that is served or refused at once. -/
def State.peerReply (v : State) (h : Option Nat) (p : Packet) (st : Nat) (lines : List (BitVec 512)) (e : Bool) : State :=
  v.sendAnswer h { v.response p (if p.kind = 0x01 then 0x04 else 0x05) st lines with epochBit := e && p.kind == 0x03 }

section First
variable (first : ∀ e ∈ v.inbox, samePlace e.2.2.2 p = false)
include first

theorem State.peerArrive_first : v.peerArrive l p n h =
    match v.tryPeer l (requester p n) h p with
    | (true, s) => s
    | (false, s) => { s with inbox := s.inbox ++ [(l, requester p n, h, p)] } := by
  refine if_neg fun behind => ?_
  obtain ⟨e, listed, same⟩ := List.any_eq_true.mp behind
  exact Bool.eq_false_iff.mp (first e listed) same

theorem State.peerArrive_nowhere (nowhere : v.partHere p.formeId.toNat p.member.toNat = none) : v.peerArrive l p n h =
    (v.record { cause := 0x04, severity := 0, addr := p.addr.toNat / 64 * 64, d5 := p.epoch.toNat }).peerReply h p 6 [] false := by
  have nowhere : v.destination p = none := nowhere
  rw [State.peerArrive_first first, State.tryPeer, nowhere]
  simp only [State.answerServed, ite_self]
  rfl

variable {part : Nat} (here : v.partHere p.formeId.toNat p.member.toNat = some part) {served : Served}
  (serves : v.servePacket (requester p n) h.isSome part l p = served)
include here serves

theorem State.peerArrive_hold (hold : served.status = .hold) : v.peerArrive l p n h = { v with inbox := v.inbox ++ [(l, requester p n, h, p)] } := by
  have here : v.destination p = some part := here
  rw [State.peerArrive_first first, State.tryPeer, here]
  dsimp only
  rw [serves, if_pos hold]

theorem State.peerArrive_served (done : served.status ≠ .hold) : v.peerArrive l p n h = (served.s.settle served.evs).answerServed p h served := by
  have here : v.destination p = some part := here
  rw [State.peerArrive_first first, State.tryPeer, here]
  dsimp only
  rw [serves, if_neg done]

end First

/-- The lines that an answer returns. -/
def Served.answers (r : Served) (p : Packet) : List (BitVec 512) :=
  if p.kind = 0x01 ∧ (r.status = .ok ∨ r.status = .nokey ∨ r.status = .deadkey) then r.lines else []

theorem State.answerServed_now {r : Served} (none : r.tags = []) :
    v.answerServed p h r = v.peerReply h p r.status.packetStatus (r.answers p) r.epochBit :=
  if_pos (by rw [none]; rfl)

theorem State.answerServed_late {r : Served} (some : r.tags ≠ []) : v.answerServed p h r =
    { v with lateAcks := v.lateAcks ++ [⟨r.tags, none, h, Option.some
      { v.response p (if p.kind = 0x01 then 0x04 else 0x05) r.status.packetStatus (r.answers p) with epochBit := r.epochBit && p.kind == 0x03 }⟩] } :=
  if_neg (List.isEmpty_iff.not.mpr some)

end Request

/-! ### Answers at their issuer (R256, R269, R379, R466) -/

section Answer
variable {v : State} {p : Packet} {o : PeerOut}

theorem State.readRespIn_unasked (unasked : v.answeredBy p = none) : v.readRespIn p = v := by
  rw [State.readRespIn, unasked]

theorem State.ackIn_unasked (unasked : v.answeredBy p = none) : v.ackIn p = v := by
  rw [State.ackIn, unasked]

/-- A status as a packet carries it. -/
theorem status_iff {n : Nat} (small : n < 256) : p.status.toNat = n ↔ p.status = BitVec.ofNat 8 n := by
  rw [← BitVec.toNat_inj, BitVec.toNat_ofNat, Nat.mod_eq_of_lt small]

section Asked
variable (asked : v.answeredBy p = some o)
include asked

theorem State.readRespIn_ended (ended : p.status = 5 ∨ p.status = 7) : v.readRespIn p = v.endOut o := by
  rw [State.readRespIn, asked]
  exact if_pos (ended.imp (status_iff (by decide)).mpr (status_iff (by decide)).mpr)

theorem State.ackIn_ended (ended : p.status = 5 ∨ p.status = 7) : v.ackIn p = v.endOut o := by
  rw [State.ackIn, asked]
  exact if_pos (ended.imp (status_iff (by decide)).mpr (status_iff (by decide)).mpr)

section Useful
variable (not5 : p.status ≠ 5) (not7 : p.status ≠ 7)
include not5 not7

theorem State.readRespIn_use : v.readRespIn p =
    let s := v.dropPeer o
    match o.use with
    | .stream e r =>
      if p.status.toNat = 2 then s.streamPoison e r p.addr.toNat
      else
        let s := match (s.engine e).ofReq r, decide (p.status.toNat = 0) with
          | some (_, t), true => s.peerFill (e / 4) o.forme o.member t.ctx p.addr.toNat (p.lines.getD 0 0)
          | _, _ => s
        s.readReturned e r (p.lines.getD 0 0)
    | .refill part chunk line => if p.status.toNat = 0 then s.refillLanded part chunk line p.lines else s.refillFailed part chunk
    | _ => s := by
  rw [State.readRespIn, asked]
  exact if_neg (not_or.mpr ⟨(status_iff (by decide)).not.mpr not5, (status_iff (by decide)).not.mpr not7⟩)

theorem State.ackIn_use : v.ackIn p =
    let s := v.dropPeer o
    match o.use with
    | .stream e r =>
      let s := match (s.engine e).ofReq r with
        | some (_, t) => if (SDesc.of t.desc).mop ≠ 0 ∧ p.status.toNat = 0 then s.opAcked t.ctx p.epochBit else s
        | none => s
      s.writeReturned e r
    | .through _ _ => s.throughDone o.tag
    | _ => s := by
  rw [State.ackIn, asked]
  exact if_neg (not_or.mpr ⟨(status_iff (by decide)).not.mpr not5, (status_iff (by decide)).not.mpr not7⟩)

section Stream
variable {e r : Nat} (use : o.use = .stream e r)
include use

theorem State.readRespIn_poison (poison : p.status = 2) : v.readRespIn p = (v.dropPeer o).streamPoison e r p.addr.toNat := by
  refine (State.readRespIn_use asked not5 not7).trans ?_
  dsimp only
  rw [use]
  exact if_pos ((status_iff (by decide)).mpr poison)

theorem State.readRespIn_returned (clean : p.status ≠ 2) (noFill : p.status ≠ 0 ∨ ((v.dropPeer o).engine e).ofReq r = none) :
    v.readRespIn p = (v.dropPeer o).readReturned e r (p.lines.getD 0 0) := by
  refine (State.readRespIn_use asked not5 not7).trans ?_
  dsimp only
  rw [use]
  refine (if_neg ((status_iff (by decide)).not.mpr clean)).trans ?_
  rcases noFill with failed | gone
  · rw [decide_eq_false ((status_iff (by decide)).not.mpr failed)]
    cases ((v.dropPeer o).engine e).ofReq r <;> rfl
  · rw [gone]

theorem State.readRespIn_fills (ok : p.status = 0) {i : Option Nat} {t : Stream} (waits : ((v.dropPeer o).engine e).ofReq r = some (i, t)) :
    v.readRespIn p = ((v.dropPeer o).peerFill (e / 4) o.forme o.member t.ctx p.addr.toNat (p.lines.getD 0 0)).readReturned e r (p.lines.getD 0 0) := by
  refine (State.readRespIn_use asked not5 not7).trans ?_
  have zero : p.status.toNat = 0 := (status_iff (by decide)).mpr ok
  dsimp only
  rw [use]
  refine (if_neg (by rw [zero]; decide)).trans ?_
  rw [waits, decide_eq_true zero]

theorem State.ackIn_written (plain : ∀ i t, ((v.dropPeer o).engine e).ofReq r = some (i, t) → (SDesc.of t.desc).mop = 0 ∨ p.status ≠ 0) :
    v.ackIn p = (v.dropPeer o).writeReturned e r := by
  refine (State.ackIn_use asked not5 not7).trans ?_
  dsimp only
  rw [use]
  cases waits : ((v.dropPeer o).engine e).ofReq r with
  | none => dsimp only; rw [waits]
  | some x =>
    dsimp only
    rw [waits]
    refine congrArg (fun s : State => s.writeReturned e r) (if_neg ?_)
    rintro ⟨op, ok⟩
    exact (plain x.1 x.2 waits).elim op fun bad => bad ((status_iff (by decide)).mp ok)

theorem State.ackIn_op {i : Option Nat} {t : Stream} (waits : ((v.dropPeer o).engine e).ofReq r = some (i, t)) (op : (SDesc.of t.desc).mop ≠ 0)
    (ok : p.status = 0) : v.ackIn p = ((v.dropPeer o).opAcked t.ctx p.epochBit).writeReturned e r := by
  refine (State.ackIn_use asked not5 not7).trans ?_
  rw [use]
  dsimp only
  rw [waits]
  exact congrArg (fun s : State => s.writeReturned e r) (if_pos ⟨op, (status_iff (by decide)).mpr ok⟩)

end Stream

theorem State.readRespIn_refill {part chunk line : Nat} (use : o.use = .refill part chunk line) : v.readRespIn p =
    if p.status = 0 then (v.dropPeer o).refillLanded part chunk line p.lines else (v.dropPeer o).refillFailed part chunk := by
  refine (State.readRespIn_use asked not5 not7).trans ?_
  dsimp only
  rw [use]
  exact if_congr (status_iff (by decide)) rfl rfl

theorem State.ackIn_through {part a : Nat} (use : o.use = .through part a) : v.ackIn p = (v.dropPeer o).throughDone o.tag := by
  refine (State.ackIn_use asked not5 not7).trans ?_
  dsimp only
  rw [use]

end Useful

theorem State.nackIn_asked : v.nackIn p = (v.endDetours o.mod).endOut o := by
  rw [State.nackIn, asked]

end Asked

theorem State.nackIn_unknown (unknown : ∀ o ∈ v.peerOut, ¬ (o.clu = p.srcClu.toNat ∧ o.tag = p.tag.toNat)) : v.nackIn p =
    if p.cls = 7 then v else v.modHub p.srcClu.toNat fun k => { k with cnt := { k.cnt with unreach := min (k.cnt.unreach + 1) 255 } } := by
  have unasked : v.answeredBy p = none := by
    refine List.find?_eq_none.mpr fun o listed same => unknown o listed ?_
    simp only [Bool.and_eq_true, beq_iff_eq] at same
    exact ⟨same.1.1, same.1.2⟩
  have unnamed : (v.peerOut.find? fun o => o.clu == p.srcClu.toNat && o.tag == p.tag.toNat && o.forme == p.formeId.toNat &&
      o.member == p.member.toNat) = none := by
    refine List.find?_eq_none.mpr fun o listed same => unknown o listed ?_
    simp only [Bool.and_eq_true, beq_iff_eq] at same
    exact ⟨same.1.1.1, same.1.1.2⟩
  rw [State.nackIn, unasked, unnamed]

theorem State.endOut_refill {part chunk line : Nat} (use : o.use = .refill part chunk line) :
    v.endOut o = (v.dropPeer o).refillFailed part chunk := by
  rw [State.endOut, use]

theorem State.endOut_other (other : ∀ part chunk line, o.use ≠ .refill part chunk line) : v.endOut o = v.endPeer o := by
  unfold State.endOut
  split
  case h_1 part chunk line use => exact absurd use (other part chunk line)
  case h_2 => rfl

end Answer

theorem State.ctrlPacket_eq (v : State) (p : Packet) (n : Nat) : v.ctrlPacket p n = match ctrlOfLine (p.lines.getD 0 0) n with
    | none => v.synCount v.lowestCluster .badmsg
    | some (opc, m) => v.ctrlArrive opc m := rfl

end Sys2Proof.Machine
end

section
/-! PROOFS. The addressing walk (R471 to R473), and the statement about links, packets and the walk. -/

namespace Sys2Proof.Machine

/-! ### The walk at a module (R471, R472) -/

section Module
variable {s : State} {l : Nat} {b : WalkBody} {routes : Bool}

/-- A WALK request with its arrival link noted, one hop on. -/
def notedHop (b : WalkBody) (l : Nat) : WalkBody := { b with ret := setHop b.ret b.hop.toNat l, hop := b.hop + 1 }

theorem State.walkQuery_onward (on : b.hop.toNat + 1 < b.nhops.toNat) :
    s.walkQuery l b = s.sendWalk (hopLink b.route (b.hop.toNat + 1)) 1 (notedHop b l) false := by
  have is : s.walkOnward l 1 b false = (none, s.sendWalk (hopLink b.route (b.hop.toNat + 1)) 1 (notedHop b l) false) := if_pos on
  rw [State.walkQuery, is]

theorem State.walkAssigned_onward (on : b.hop.toNat + 1 < b.nhops.toNat) :
    s.walkAssigned l b routes = s.sendWalk (hopLink b.route (b.hop.toNat + 1)) 3 (notedHop b l) routes := by
  have is : s.walkOnward l 3 b routes = (none, s.sendWalk (hopLink b.route (b.hop.toNat + 1)) 3 (notedHop b l) routes) := if_pos on
  rw [State.walkAssigned, is]

/-- A root that another asks stops its walk. -/
def State.yielding (s : State) (b : WalkBody) : State :=
  if s.isRoot = true ∧ ¬ (s.walk.wstatus = 1 ∧ b.walkId.toNat = s.walk.walkId) then s.walkConflict else s

theorem State.walkQuery_here (here : b.nhops.toNat ≤ b.hop.toNat + 1) : s.walkQuery l b =
    (s.yielding b).walkAnswer 2 { notedHop b l with
      addr := BitVec.ofNat 16 (s.yielding b).fabAddr, addrV := (s.yielding b).fabV, root := (s.yielding b).isRoot, up := BitVec.ofNat 16 (s.yielding b).upMask
      serial := BitVec.ofNat 112 (s.yielding b).sec.serial } := by
  have is : s.walkOnward l 1 b false = (some (notedHop b l), s) := if_neg (Nat.not_lt.mpr here)
  have conflict : (if s.isRoot && !(s.isRoot && s.walk.wstatus == 1 && decide (b.walkId.toNat = s.walk.walkId)) then s.walkConflict else s) = s.yielding b := by
    refine if_congr ?_ rfl rfl
    cases s.isRoot <;> simp [imp_iff_not_or]
  rw [State.walkQuery, is, ← conflict]
  rfl

theorem State.walkAssigned_here (here : b.nhops.toNat ≤ b.hop.toNat + 1) : s.walkAssigned l b routes =
    ({ s with
      fabAddr := b.addr.toNat, fabV := true
      routing := if routes then treeRoutes b.addr.toNat ((linksOf b.child.toNat).map fun i => (i, (b.ends.getD i 0).toNat)) (some b.parentLink.toNat)
        else s.routing } : State).walkAnswer 4 { notedHop b l with addrV := true, root := s.isRoot } := by
  have is : s.walkOnward l 3 b routes = (some (notedHop b l), s) := if_neg (Nat.not_lt.mpr here)
  rw [State.walkAssigned, is]
  rfl

end Module

/-! ### The walk at the root (R471, R472) -/

section Root
variable {s : State} {b : WalkBody}

theorem State.walkQueryAns_back (away : b.hop.toNat ≠ 0) :
    s.walkQueryAns b = s.sendWalk (hopLink b.ret (b.hop.toNat - 1)) 2 { b with hop := b.hop - 1 } false := by
  have is : s.walkBack 2 b = (false, s.sendWalk (hopLink b.ret (b.hop.toNat - 1)) 2 { b with hop := b.hop - 1 } false) := if_neg away
  rw [State.walkQueryAns, is]

theorem State.walkAssignAck_back (away : b.hop.toNat ≠ 0) :
    s.walkAssignAck b = s.sendWalk (hopLink b.ret (b.hop.toNat - 1)) 4 { b with hop := b.hop - 1 } false := by
  have is : s.walkBack 4 b = (false, s.sendWalk (hopLink b.ret (b.hop.toNat - 1)) 4 { b with hop := b.hop - 1 } false) := if_neg away
  rw [State.walkAssignAck, is]

variable (back : b.hop.toNat = 0)
include back

/-- An ASSIGN_ACK of the walk under way takes its node from those that are waited for. -/
theorem State.walkAssignAck_root : s.walkAssignAck b =
    if s.walk.wstatus = 1 ∧ b.walkId.toNat = s.walk.walkId then
      ({ s with walk := { s.walk with assigns := s.walk.assigns.filter fun i => match s.walk.nodes[i]? with
        | some n => n.route != hopsOf b.route b.nhops.toNat
        | none => true } } : State).walkDone
    else s := by
  have is : s.walkBack 4 b = (true, s) := if_pos back
  have waits : (fun (i : Nat) => !(match s.walk.nodes[i]? with
      | some n => n.route == hopsOf b.route b.nhops.toNat
      | none => false)) = fun (i : Nat) => match s.walk.nodes[i]? with
      | some n => n.route != hopsOf b.route b.nhops.toNat
      | none => true := by
    funext i
    cases s.walk.nodes[i]? <;> rfl
  rw [State.walkAssignAck, is, ← waits] <;> rfl

/-- The query of a route that is outstanding. -/
def Walk.queryOf (w : Walk) (route : List Nat) : Option WalkQuery := w.queries.find? fun q => q.route == route && decide (q.tries ≠ 0)

omit back in
theorem Walk.queryOf_none {w : Walk} {route : List Nat} (none : ∀ q ∈ w.queries, q.route = route → q.tries = 0) : w.queryOf route = Option.none := by
  refine List.find?_eq_none.mpr fun q listed same => ?_
  simp only [Bool.and_eq_true, beq_iff_eq, decide_eq_true_eq] at same
  exact same.2 (none q listed same.1)

theorem State.walkQueryAns_other (other : s.walk.wstatus ≠ 1 ∨ b.walkId.toNat ≠ s.walk.walkId) : s.walkQueryAns b = s := by
  have is : s.walkBack 2 b = (true, s) := if_pos back
  rw [State.walkQueryAns, is]
  exact if_pos other

/-- What an answer to a query that is outstanding comes to. -/
def State.walkJoins (s : State) (b : WalkBody) (q : WalkQuery) : State :=
  let route := hopsOf b.route b.nhops.toNat
  let w := s.walk
  let qs := w.queries.filter fun p => p.route ≠ route
  let ret := hopsOf b.ret b.nhops.toNat
  let n : WalkNode := ⟨b.serial.toNat, route, ret, q.parent, route.getLastD 0, b.up.toNat, if b.addrV then some b.addr.toNat else none, false⟩
  let more := n.extend w.nodes.length ret.getLast?
  if w.nodes.any fun n => n.serial == b.serial.toNat then ({ s with walk := { w with queries := qs } } : State).walkGoOn
  else if b.root then s.walkConflict
  else if 65536 ≤ w.nodes.length then ({ s with walk := { w with queries := qs, beyond := w.beyond + 1 } } : State).walkGoOn
  else ({ s with walk := { w with
    nodes := w.nodes ++ [n], queries := if 16 ≤ route.length then qs else qs ++ more
    beyond := if 16 ≤ route.length then w.beyond + more.length else w.beyond } } : State).walkGoOn

variable (runs : s.walk.wstatus = 1) (own : b.walkId.toNat = s.walk.walkId)
include runs own

theorem State.walkQueryAns_root : s.walkQueryAns b = match s.walk.queryOf (hopsOf b.route b.nhops.toNat) with
    | none => s
    | some q => s.walkJoins b q := by
  have is : s.walkBack 2 b = (true, s) := if_pos back
  have goes : ¬ (s.walk.wstatus ≠ 1 ∨ b.walkId.toNat ≠ s.walk.walkId) := fun other => other.elim (fun h => h runs) fun h => h own
  rw [State.walkQueryAns, is]
  exact if_neg goes

end Root

section Joins
variable {s : State} {b : WalkBody} {q : WalkQuery}

theorem State.walkJoins_known (known : ∃ n ∈ s.walk.nodes, n.serial = b.serial.toNat) : s.walkJoins b q =
    ({ s with walk := { s.walk with queries := s.walk.queries.filter fun p => p.route ≠ hopsOf b.route b.nhops.toNat } } : State).walkGoOn :=
  if_pos (by simpa using known)

variable (new : ¬ ∃ n ∈ s.walk.nodes, n.serial = b.serial.toNat)
include new

theorem State.walkJoins_root (root : b.root = true) : s.walkJoins b q = s.walkConflict :=
  (if_neg (by simpa using new)).trans (if_pos root)

theorem State.walkJoins_full (root : b.root = false) (full : 65536 ≤ s.walk.nodes.length) : s.walkJoins b q =
    ({ s with walk := { s.walk with queries := s.walk.queries.filter fun p => p.route ≠ hopsOf b.route b.nhops.toNat, beyond := s.walk.beyond + 1 } } : State).walkGoOn :=
  (if_neg (by simpa using new)).trans ((if_neg (Bool.eq_false_iff.mp root)).trans (if_pos full))

theorem State.walkJoins_new (root : b.root = false) (room : s.walk.nodes.length < 65536) : s.walkJoins b q =
    let route := hopsOf b.route b.nhops.toNat
    let w := s.walk
    let qs := w.queries.filter fun p => p.route ≠ route
    let ret := hopsOf b.ret b.nhops.toNat
    let n : WalkNode := ⟨b.serial.toNat, route, ret, q.parent, route.getLastD 0, b.up.toNat, if b.addrV then some b.addr.toNat else none, false⟩
    let more := n.extend w.nodes.length ret.getLast?
    ({ s with walk := { w with
      nodes := w.nodes ++ [n], queries := if 16 ≤ route.length then qs else qs ++ more
      beyond := if 16 ≤ route.length then w.beyond + more.length else w.beyond } } : State).walkGoOn :=
  (if_neg (by simpa using new)).trans ((if_neg (Bool.eq_false_iff.mp root)).trans (if_neg (Nat.not_le.mpr room)))

end Joins

section Timeout
variable {s : State} {route : List Nat}

theorem State.walkQueryTimeout_none (none : s.walk.queryOf route = none) : s.walkQueryTimeout route = s := by
  have none : (s.walk.queries.find? fun q => q.route == route && decide (q.tries ≠ 0)) = Option.none := none
  rw [State.walkQueryTimeout, none]

theorem State.walkQueryTimeout_some {q : WalkQuery} (found : s.walk.queryOf route = some q) : s.walkQueryTimeout route =
    let a := s.advanceTo (q.sentAt + 1000000)
    let b := a.sendWalk (route.headD 0) 1 (a.queryBody route) false
    if q.tries < 3 then
      { b with walk := { b.walk with queries := b.walk.queries.map fun p => if p.route = route then { p with tries := p.tries + 1, sentAt := b.ltime } else p } }
    else ({ a with walk := { a.walk with queries := a.walk.queries.filter fun p => p.route ≠ route } } : State).walkGoOn := by
  have found : (s.walk.queries.find? fun q => q.route == route && decide (q.tries ≠ 0)) = some q := found
  rw [State.walkQueryTimeout, found]

end Timeout

/-! ### The statement -/

/-- Settles O59: each row by what it runs. -/
theorem linksPacketsAndTheWalk : Obligations.LinksPacketsAndTheWalk := by
  intro s link p l k
  refine ⟨?training, ?overrun, ?train, ?hello, ?noHello, ?proof, ?down, fun none => exec_eq_next rfl (State.detourExpiry_none none) rfl,
    fun r some => exec_eq_answer rfl (State.detourExpiry_some some), ?nak, ?flit, ?launch, State.launch_unreachable, ?rows, ?again,
    State.openPacket_unsealed, ?isSealed, ?delivered, ?walkModule, ?walkBack, ?walkRoot, ?timeout⟩
  case training =>
    cases st : k.state with
    | down =>
      have down := State.linkTraining_down st
      dsimp only
      split
      case isTrue stays => exact exec_eq_next rfl (down.trans (if_pos stays)) rfl
      case isFalse trains =>
        refine exec_eq_answer rfl ((down.trans (if_neg trains)).trans ?_)
        cases since : k.downAt with
        | none =>
          refine State.modLink_congr s (congrArg (s.link l).train ?_)
          rw [show (s.link l).downAt = none from since]
        | some t =>
          refine State.modLink_congr (s.advanceTo (t + 1000000)) (congrArg (s.link l).train ?_)
          rw [show ((s.advanceTo (t + 1000000)).link l).downAt = some t from since]
          rfl
    | training n =>
      have training := State.linkTraining_training st
      dsimp only
      split
      case isTrue early => exact exec_eq_answer rfl (training.trans (if_pos early))
      case isFalse late =>
        split
        case isTrue third => exact exec_eq_answer rfl (training.trans ((if_neg late).trans (if_pos third)))
        case isFalse other => exact exec_eq_next rfl (training.trans ((if_neg late).trans (if_neg other))) rfl
    | guarding proved =>
      cases proved with
      | true => exact exec_eq_answer rfl (State.linkTraining_proved st)
      | false => exact exec_eq_next rfl (State.linkTraining_other (by rw [st]; nofun) (by rw [st]; nofun) (by rw [st]; nofun)) rfl
    | up => exact exec_eq_next rfl (State.linkTraining_other (by rw [st]; nofun) (by rw [st]; nofun) (by rw [st]; nofun)) rfl
    | rejected => exact exec_eq_next rfl (State.linkTraining_other (by rw [st]; nofun) (by rw [st]; nofun) (by rw [st]; nofun)) rfl
  case overrun =>
    cases st : k.state with
    | training n =>
      intro bound is s' failed failures
      have same : k.state.bound = bound := by
        rw [is, st]
        match n with
        | 0 | 1 | 2 | 3 => rfl
        | n + 4 => rfl
      have fails := State.trainOverrun_training st
      rw [show (s.link l).state.bound = bound from same] at fails
      subst failures
      exact (exec_eq_answer rfl fails).trans (apply_ite s.answer _ _ _)
    | guarding proved =>
      intro bound is s' failed failures
      have same : k.state.bound = bound := by
        rw [is, st]
        cases proved <;> rfl
      have fails := State.trainOverrun_guarding st
      rw [show (s.link l).state.bound = bound from same] at fails
      subst failures
      exact (exec_eq_answer rfl fails).trans (apply_ite s.answer _ _ _)
    | down => exact fun _ _ _ _ => exec_eq_next rfl (State.trainOverrun_other (by rw [st]; nofun) (by rw [st]; nofun)) rfl
    | up => exact fun _ _ _ _ => exec_eq_next rfl (State.trainOverrun_other (by rw [st]; nofun) (by rw [st]; nofun)) rfl
    | rejected => exact fun _ _ _ _ => exec_eq_next rfl (State.trainOverrun_other (by rw [st]; nofun) (by rw [st]; nofun)) rfl
  case train =>
    exact fun serial plink fab fabV epoch rtt => ⟨fun step => exec_eq_answer rfl (State.trainReceived_identifies step),
      fun other => exec_eq_next rfl (State.trainReceived_other other) rfl⟩
  case hello => exact fun guarding new => exec_eq_answer rfl ((State.helloReceived_guarding guarding).trans (if_neg (Bool.eq_false_iff.mp new)))
  case noHello =>
    intro no
    by_cases guarding : k.state = .guarding false
    · have said : k.hello = true := no.resolve_left (not_not.mpr guarding)
      exact exec_eq_next rfl ((State.helloReceived_guarding guarding).trans (if_pos said)) rfl
    · exact exec_eq_next rfl (State.helloReceived_other guarding) rfl
  case proof =>
    intro sigs nonce st config
    refine ⟨fun no => ?_, fun guarding hello => ⟨fun good => ?_, fun bad => ?_⟩⟩
    · by_cases guarding : k.state = .guarding false
      · exact exec_eq_next rfl (State.proofReceived_early guarding (no.resolve_left (not_not.mpr guarding))) rfl
      · exact exec_eq_next rfl (State.proofReceived_other guarding) rfl
    · exact exec_eq_answer rfl ((State.proofReceived_judged guarding hello).trans (if_pos good))
    · exact exec_eq_answer rfl ((State.proofReceived_judged guarding hello).trans (if_neg bad))
  case down =>
    refine List.forall_mem_cons.mpr ⟨?_, List.forall_mem_singleton.mpr ?_⟩
    · exact ⟨fun down => exec_eq_next rfl (State.linkDown_down down) rfl, fun goes => exec_eq_answer rfl (State.linkDown_goes goes)⟩
    · exact ⟨fun down => exec_eq_next rfl (State.linkDown_down down) rfl, fun goes => exec_eq_answer rfl (State.linkDown_goes goes)⟩
  case nak =>
    intro a
    refine ⟨fun notUp => exec_eq_next rfl (State.nakReceived_notUp notUp _) rfl, fun up => ?_⟩
    have is := State.nakReceived_up up a.toNat
    exact ⟨fun many => exec_eq_answer rfl (is.trans (if_pos many)), fun few => exec_eq_answer rfl (is.trans (if_neg (Nat.not_le.mpr few)))⟩
  case flit =>
    intro f told
    refine ⟨fun notUp => exec_eq_next rfl (State.flitReceive_notUp notUp) rfl, fun up => ?_⟩
    intro a b c refused d
    have is := State.flitReceive_up (f := f) (t := told) up
    have fails (t : State) : t.flitFailed l = refused t := State.flitFailed_eq t l
    have lost (undecoded : f.decoded = false) := is.trans (if_pos (by rw [undecoded]; rfl))
    have read (decoded : f.decoded = true) := is.trans (if_neg (by rw [decoded]; decide))
    have whole (decoded : f.decoded = true) (check : f.check = true) := (read decoded).trans (if_neg (by rw [check]; decide))
    refine ⟨fun undecoded many => exec_eq_answer rfl ((lost undecoded).trans (State.blockFailed_many (t := b) rfl many)),
      fun undecoded few => exec_eq_answer rfl ((lost undecoded).trans ((State.blockFailed_few (t := b) rfl few).trans (fails b))),
      fun decoded check => exec_eq_answer rfl ((read decoded).trans ((if_pos (by rw [check]; rfl)).trans (fails _))),
      fun decoded check gap => exec_eq_answer rfl ((whole decoded check).trans ((if_pos gap).trans (fails c))),
      fun decoded check next => exec_eq_answer rfl ((whole decoded check).trans ((if_neg (not_not.mpr next)).trans (State.flitAccepted_eq c l f told)))⟩
  case launch =>
    exact fun o some out => ⟨fun up => (State.launch_up some out up).trans (congrArg Launched.gone (State.offer_eq s o p)),
      fun lost leaves => State.launch_detour some out lost leaves⟩
  case rows =>
    intro told
    have packet {i : Instr} {kind : Nat} {t : Told} (known : rowType kind = true) (row : exec i s = s.answer (s.packetRow l kind p t)) :=
      packet_row known (packetRow_other row) fun is _ => packetRow_arrives row is
    have request {i : Instr} {kind : Nat} (known : rowType kind = true) (row : exec i s = s.answer (s.peerRow l kind p)) :=
      packet_row known (peerRow_other row) (peerRow_arrives row)
    simp only [List.forall_mem_cons]
    exact ⟨packet (by decide) rfl, packet (by decide) rfl, packet (by decide) rfl, packet (by decide) rfl, packet (by decide) rfl, packet (by decide) rfl,
      request (by decide) rfl, request (by decide) rfl, request (by decide) rfl, List.forall_mem_nil _⟩
  case again =>
    intro e waits earlier
    exact List.forall_mem_cons.mpr ⟨fun is => peerRow_again rfl is waits, List.forall_mem_cons.mpr ⟨fun is => peerRow_again rfl is waits,
      List.forall_mem_singleton.mpr fun is => peerRow_again rfl is waits⟩⟩
  case isSealed =>
    intro isSealed h
    have is := State.openPacket_eq (s := s) (l := l) isSealed
    exact ⟨fun opens => is.trans (if_pos opens), fun no => is.trans ((if_neg (Bool.eq_false_iff.mp no)).trans (congrArg (Prod.mk none) (State.authFailed_eq s l))),
      State.opens_iff s p⟩
  case delivered =>
    intro clean direct here ready
    have delivers {i : Instr} {kind : Nat} {t : Told} (row : exec i s = s.answer (s.packetRow l kind p t)) (known : rowType kind = true) :=
      packetRow_delivers row known clean direct here
    refine ⟨fun told is => exec_eq_answer (delivers rfl (by decide) is) (State.deliverPacket_recov ready is), fun v unopened => ?unopened,
      fun n h v opened => ⟨?requests, ?answers, fun o asked => ⟨?ended, fun not5 not7 => ?use, ?nack⟩, ?unknown, ?ctrl, ?state⟩⟩
    case unopened =>
      have gone {i : Instr} {kind : Nat} {t : Told} (row : exec i s = s.answer (s.packetRow l kind p t)) (known : rowType kind = true) (other : kind ≠ 0x11)
          (is : p.kind = kind) : exec i s = s.answer v :=
        exec_eq_answer (delivers row known is) (State.deliverPacket_unopened ready (is ▸ other) unopened)
      exact ⟨gone rfl (by decide) (by decide), gone rfl (by decide) (by decide), gone rfl (by decide) (by decide), gone rfl (by decide) (by decide),
        gone rfl (by decide) (by decide)⟩
    case requests =>
      intro r listed is new who waits at_ reply
      have row : exec r.1 s = s.answer (v.peerArrive l p n h) := by
        simp only [List.mem_cons, List.not_mem_nil, or_false] at listed
        rcases listed with rfl | rfl | rfl
        · exact exec_eq_answer (peerRow_delivers rfl (by decide) clean direct here is new) (State.deliverPacket_request ready opened (.inl is))
        · exact exec_eq_answer (peerRow_delivers rfl (by decide) clean direct here is new) (State.deliverPacket_request ready opened (.inr (.inl is)))
        · exact exec_eq_answer (peerRow_delivers rfl (by decide) clean direct here is new) (State.deliverPacket_request ready opened (.inr (.inr is)))
      refine ⟨fun behind => exec_eq_answer row (State.peerArrive_behind behind), fun first =>
        ⟨fun nowhere => exec_eq_answer row (State.peerArrive_nowhere first nowhere), fun part placed =>
          ⟨fun hold => exec_eq_answer row (State.peerArrive_hold first placed rfl hold), fun done now => ?_, fun done late => ?_⟩⟩⟩
      · exact exec_eq_answer row ((State.peerArrive_served first placed rfl done).trans (State.answerServed_now now))
      · exact exec_eq_answer row ((State.peerArrive_served first placed rfl done).trans (State.answerServed_late late))
    case answers =>
      exact List.forall_mem_cons.mpr
        ⟨fun is unasked => exec_eq_answer (delivers rfl (by decide) is) ((State.deliverPacket_readResp ready opened is).trans (State.readRespIn_unasked unasked)),
          List.forall_mem_singleton.mpr fun is unasked =>
            exec_eq_answer (delivers rfl (by decide) is) ((State.deliverPacket_ack ready opened is).trans (State.ackIn_unasked unasked))⟩
    case ended =>
      exact List.forall_mem_cons.mpr
        ⟨fun is ended => exec_eq_answer (delivers rfl (by decide) is) ((State.deliverPacket_readResp ready opened is).trans (State.readRespIn_ended asked ended)),
          List.forall_mem_singleton.mpr fun is ended =>
            exec_eq_answer (delivers rfl (by decide) is) ((State.deliverPacket_ack ready opened is).trans (State.ackIn_ended asked ended))⟩
    case use =>
      have resp (is : p.kind = 0x04) {t : State} (runs : v.readRespIn p = t) : exec (.readResp link p) s = s.answer t :=
        exec_eq_answer (delivers rfl (by decide) is) ((State.deliverPacket_readResp ready opened is).trans runs)
      have ack (is : p.kind = 0x05) {t : State} (runs : v.ackIn p = t) : exec (.packetAck link p) s = s.answer t :=
        exec_eq_answer (delivers rfl (by decide) is) ((State.deliverPacket_ack ready opened is).trans runs)
      exact ⟨fun is e r use => ⟨fun poison => resp is (State.readRespIn_poison asked not5 not7 use poison),
          fun clean noFill => resp is (State.readRespIn_returned asked not5 not7 use clean noFill),
          fun ok i t waits => resp is (State.readRespIn_fills asked not5 not7 use ok waits)⟩,
        fun is part c i use => resp is (State.readRespIn_refill asked not5 not7 use),
        fun is e r use plain => ack is (State.ackIn_written asked not5 not7 use plain),
        fun is e r i t use waits op ok => ack is (State.ackIn_op asked not5 not7 use waits op ok),
        fun is part a use => ack is (State.ackIn_through asked not5 not7 use)⟩
    case nack =>
      intro is w
      have ends := (State.deliverPacket_nack (t := Told.none) ready opened is).trans (State.nackIn_asked asked)
      exact ⟨fun part c i use => exec_eq_answer (delivers rfl (by decide) is) (ends.trans (State.endOut_refill use)),
        fun other => exec_eq_answer (delivers rfl (by decide) is) (ends.trans (State.endOut_other other))⟩
    case unknown =>
      exact fun is unknown => exec_eq_answer (delivers rfl (by decide) is) ((State.deliverPacket_nack ready opened is).trans (State.nackIn_unknown unknown))
    case ctrl =>
      exact fun is => exec_eq_answer (delivers rfl (by decide) is) ((State.deliverPacket_ctrl ready opened is).trans (State.ctrlPacket_eq v p n))
    case state =>
      intro is
      have runs := State.deliverPacket_state (t := Told.none) ready opened is
      refine ⟨fun none => exec_eq_answer (delivers rfl (by decide) is) (runs.trans ?_), fun w some => exec_eq_answer (delivers rfl (by decide) is) (runs.trans ?_)⟩
      · rw [none]
      · rw [some]
  case walkModule =>
    intro b routes noted send back
    refine ⟨fun on => ⟨exec_eq_answer rfl (State.walkQuery_onward on), exec_eq_answer rfl (State.walkAssigned_onward on)⟩,
      fun here => ⟨exec_eq_answer rfl (State.walkQuery_here here), exec_eq_answer rfl (State.walkAssigned_here here)⟩⟩
  case walkBack =>
    exact fun b away => List.forall_mem_cons.mpr ⟨exec_eq_answer rfl (State.walkQueryAns_back away),
      List.forall_mem_singleton.mpr (exec_eq_answer rfl (State.walkAssignAck_back away))⟩
  case walkRoot =>
    intro b back route w qs next
    refine ⟨fun other => ⟨exec_eq_next rfl (State.walkQueryAns_other back other) rfl, exec_eq_next rfl ((State.walkAssignAck_root back).trans (if_neg ?_)) rfl⟩,
      fun runs own => ⟨exec_eq_answer rfl ((State.walkAssignAck_root back).trans (if_pos ⟨runs, own⟩)), fun none => exec_eq_next rfl ?_ rfl, fun q found => ?_⟩⟩
    · exact fun ours => other.elim (fun h => h ours.1) fun h => h ours.2
    · rw [State.walkQueryAns_root back runs own, Walk.queryOf_none none]
    · have joins : s.walkQueryAns b = s.walkJoins b q := by
        have found : s.walk.queryOf route = some q := found
        rw [State.walkQueryAns_root back runs own, found]
      refine ⟨fun known => exec_eq_answer rfl (joins.trans (State.walkJoins_known known)),
        fun new root => exec_eq_answer rfl (joins.trans (State.walkJoins_root new root)),
        fun new root full => exec_eq_answer rfl (joins.trans (State.walkJoins_full new root full)), fun new root room far => ?_, fun new root room near => ?_⟩
      · refine exec_eq_answer rfl (joins.trans ((State.walkJoins_new new root room).trans ?_))
        simp only [if_pos (show 16 ≤ (hopsOf b.route b.nhops.toNat).length from far)]
        rfl
      · refine exec_eq_answer rfl (joins.trans ((State.walkJoins_new new root room).trans ?_))
        simp only [if_neg (show ¬ 16 ≤ (hopsOf b.route b.nhops.toNat).length from Nat.not_le.mpr near)]
        rfl
  case timeout =>
    intro route r
    refine ⟨fun none => exec_eq_next rfl (State.walkQueryTimeout_none (Walk.queryOf_none none)) rfl, fun q found => ?_⟩
    have is := State.walkQueryTimeout_some (s := s) (route := r) (q := q) found
    exact ⟨fun few => exec_eq_answer rfl (is.trans (if_pos few)), fun many => exec_eq_answer rfl (is.trans (if_neg (Nat.not_lt.mpr many)))⟩

end Sys2Proof.Machine
end

section
/-! PROOFS. The control slot's instructions leave memory and fences alone: what each shared operation of the control unit is gentle to, and
the stores, which write the local memory of their own core alone (R56, R226 to R228). -/

namespace Sys2Proof.Machine

/-! ### Ending, transferring and blocking -/

theorem Gentle.keepQueue (s t : State) : Gentle t (s.keepQueue t) := Calm.gentle (t := s.keepQueue t) (Calm.of_eq rfl rfl rfl rfl rfl)

/-- Writing a core that has the local memory of the one it replaces. -/
theorem Calm.setCore (s : State) (c : Nat) (k : Core) (same : k.lm = (s.core c).lm) : Calm s (s.setCore c k) :=
  Calm.modCore s c (fun _ => k) same

theorem Gentle.finishCtl (s : State) (c : Nat) (h : Hdr) (pc : Nat) {f : Core → Core} (same : (f (s.core c)).lm = (s.core c).lm) :
    Gentle s (s.finishCtl c h pc f) :=
  (Calm.modCore s c (fun k => (f k).pass pc) same).gentle.trans (Gentle.postHdr _ _ _ _ _)

theorem Core.setX_lm (k : Core) (r : Fin 32) (v : Word64) : (k.setX r v).lm = k.lm := by unfold Core.setX; split <;> rfl

theorem Gentle.finishReg (s : State) (c : Nat) (h : Hdr) (pc : Nat) (xd : Fin 32) (v : Word64) : Gentle s (s.finishReg c h pc xd v) :=
  Gentle.finishCtl s c h pc (Core.setX_lm _ _ _)

theorem Core.transfer_lm {k k' : Core} {t : Nat} (goes : k.transfer t = some k') : k'.lm = k.lm := by
  unfold Core.transfer at goes
  split at goes
  · cases goes; rfl
  · cases goes

theorem Gentle.finishTransfer (s : State) (c : Nat) (h : Hdr) (pc t : Nat) {f : Core → Core} (same : ∀ k, (f k).lm = k.lm) :
    Gentle s (s.finishTransfer c h pc t f) := by
  unfold State.finishTransfer
  split
  · exact Gentle.fault _ _ _ _ _
  · rename_i goes
    exact (Calm.setCore _ _ _ ((same _).trans (Core.transfer_lm goes))).gentle.trans (Gentle.postHdr _ _ _ _ _)

theorem Gentle.setCore_postHdr (s : State) (c : Nat) (k : Core) (h : Hdr) (pc slot : Nat) (same : k.lm = (s.core c).lm) :
    Gentle s ((s.setCore c k).postHdr c h pc slot) :=
  (Calm.setCore s c k same).gentle.trans (Gentle.postHdr _ _ _ _ _)

theorem Calm.block (s : State) (c : Nat) (h : Hdr) (op : CtlOp) (d : Option Nat) : Calm s (s.block c h op d) := Calm.modCore _ _ _ rfl

theorem Calm.startRemote (s : State) (c mod number target : Nat) (isRead : Bool) : Calm s (s.startRemote c mod number target isRead) := by
  unfold State.startRemote
  exact (Calm.modHub _ _ _).trans (Calm.send _ _)

theorem Calm.armFence (s : State) (c pc : Nat) (t : Fin 16) (n target : Nat) : Calm s (s.armFence c pc t n target).1 := by
  have waits := Calm.fenceWait s n target (.ctx (s.core c).ctx) (.arm c t pc)
  unfold State.armFence
  split
  · rename_i is; rw [is] at waits; exact waits
  · rename_i is
    rw [is] at waits
    split <;> exact waits

theorem Calm.barWaitAt (s : State) (c i : Nat) (w : Waiter) (at_ : Option Nat) : Calm s (s.barWait c i w at_).2 := by
  unfold State.barWait
  dsimp only
  split
  · split
    · exact (Calm.hubMessage _ _).trans (Calm.of_eq rfl rfl rfl rfl rfl)
    · exact Calm.hubMessage _ _
  · exact (Calm.hubMessage _ _).trans (Calm.synCount _ _ _)

theorem Calm.armBar (s : State) (c pc : Nat) (t : Fin 16) (inst : Nat) (at_ : Option Nat) : Calm s (s.armBar c pc t inst at_).1 := by
  have waits := Calm.barWaitAt s c inst (.arm c t pc) at_
  unfold State.armBar
  split
  · rename_i is; rw [is] at waits; exact waits
  · rename_i is
    rw [is] at waits
    split <;> exact waits

/-! ### The instructions -/

theorem Gentle.ctlWait (s : State) (c : Nat) (h : Hdr) (op : CtlOp) (xd : Fin 32) (n target : Nat) (imm : BitVec 31) :
    Gentle s (s.ctlWait c h op xd n target imm) := by
  have waits := (Calm.fenceWait s n target (.ctx (s.core c).ctx) (.core c)).gentle
  unfold State.ctlWait
  split
  · rename_i is; rw [is] at waits; exact waits.trans (Gentle.finishReg _ _ _ _ _ _)
  · rename_i is; rw [is] at waits; exact waits.trans (Calm.block _ _ _ _ _).gentle

theorem Gentle.ctlLoad (s : State) (c : Nat) (h : Hdr) (a n : Nat) {f : Nat → Core → Core} (same : ∀ v k, (f v k).lm = k.lm) :
    Gentle s (s.ctlLoad c h a n f) := by
  unfold State.ctlLoad
  dsimp only
  split
  · exact Gentle.fault _ _ _ _ _
  · split
    · exact Gentle.fault _ _ _ _ _
    · refine Gentle.finishCtl s c h _ ?_
      split <;> exact same _ _

theorem Gentle.ctlCall (s : State) (c : Nat) (h : Hdr) (t : Nat) : Gentle s (s.ctlCall c h t) := by
  unfold State.ctlCall
  split
  · exact Gentle.fault _ _ _ _ _
  · exact Gentle.finishTransfer _ _ _ _ _ fun _ => rfl

theorem Gentle.ctlRet (s : State) (c : Nat) (h : Hdr) : Gentle s (s.ctlRet c h) := by
  unfold State.ctlRet
  dsimp only
  split
  · exact Gentle.fault _ _ _ _ _
  · split
    · exact Gentle.setCore_postHdr _ _ _ _ _ _ rfl
    · exact Gentle.fault _ _ _ _ _

theorem Gentle.ctlJr (s : State) (c : Nat) (h : Hdr) (xa : Fin 32) : Gentle s (s.ctlJr c h xa) := by
  unfold State.ctlJr
  dsimp only
  split
  · exact Gentle.fault _ _ _ _ _
  · exact Gentle.finishTransfer _ _ _ _ _ fun _ => rfl

theorem Gentle.ctlLoop (s : State) (c : Nat) (h : Hdr) (xa : Fin 32) (t : Nat) : Gentle s (s.ctlLoop c h xa t) := by
  unfold State.ctlLoop
  dsimp only
  split
  · exact Gentle.fault _ _ _ _ _
  split
  · exact Gentle.fault _ _ _ _ _
  split
  · split
    · exact Gentle.fault _ _ _ _ _
    · exact Gentle.setCore_postHdr _ _ _ _ _ _ rfl
  · exact Gentle.setCore_postHdr _ _ _ _ _ _ rfl

theorem Core.csrWrite_lm {k k' : Core} {n : Nat} {how : CsrHow} {v : Word64} (writes : k.csrWrite n how v = some k') : k'.lm = k.lm := by
  unfold Core.csrWrite at writes
  dsimp only at writes
  split at writes
  · cases writes; rfl
  split at writes
  · cases writes; rfl
  split at writes
  · cases writes; rfl
  · cases writes

theorem Gentle.ctlCsrw (s : State) (c : Nat) (h : Hdr) (xa : Fin 32) (imm : BitVec 36) (how : CsrHow) : Gentle s (s.ctlCsrw c h xa imm how) := by
  unfold State.ctlCsrw
  dsimp only
  split
  · exact Gentle.fault _ _ _ _ _
  · rename_i writes
    exact Gentle.finishCtl s c h _ (Core.csrWrite_lm writes)

theorem Gentle.ctlRemote (s : State) (c : Nat) (h : Hdr) (xd xa xb : Fin 32) (add : Bool) : Gentle s (s.ctlRemote c h xd xa xb add) := by
  unfold State.ctlRemote
  refine Gentle.trans ?_ (Gentle.finishReg _ _ _ _ _ _)
  split
  · refine Gentle.trans ?_ (Gentle.settle _ _)
    split
    · exact Gentle.fenceAdd _ _ _ _ _
    · exact Gentle.fenceSignal _ _ _ _ _
  · exact (Calm.send _ _).gentle

/-- A call to the allocator of a cluster leaves its scratch. -/
theorem Calm.queueCall (s : State) (g : Nat) (a : AllocCall) : Calm s (s.modCluster g fun k => { k with calls := k.calls ++ [a] }) := by
  refine ⟨⟨fun _ => rfl, fun i => ?_, rfl, rfl⟩, fun _ => rfl⟩
  rw [State.cluster_modCluster]
  split
  · rename_i is; rw [is]
  · rfl

/-- Every instruction of the control slot but ST and TDST is gentle. -/
theorem Gentle.controlOther (s : State) (c : Nat) (h : Hdr) (op : CtlOp) (noStore : ∀ xd xa imm, op ≠ .st xd xa imm ∧ op ≠ .tdst xd xa imm) :
    Gentle s (s.controlOther c h op) := by
  cases op
  case st xd xa imm => exact absurd rfl (noStore xd xa imm).1
  case tdst xd xa imm => exact absurd rfl (noStore xd xa imm).2
  case ld => exact Gentle.ctlLoad s c h _ 8 fun _ _ => Core.setX_lm _ _ _
  case tdld xd _ _ => exact Gentle.ctlLoad s c h _ 32 (f := fun v k => k.loadTd xd v) fun _ _ => rfl
  case call => exact Gentle.ctlCall _ _ _ _
  case ret => exact Gentle.ctlRet _ _ _
  case jr => exact Gentle.ctlJr _ _ _ _
  case loop => exact Gentle.ctlLoop _ _ _ _ _
  case halt => exact Gentle.trans (Calm.modCore s c (fun k => { k with ctl := .halting }) rfl).gentle (Gentle.postHdr _ _ _ _ _)
  case csrr =>
    rw [State.controlOther_csrr]
    dsimp only
    split
    · exact Gentle.fault _ _ _ _ _
    · exact Gentle.finishReg _ _ _ _ _ _
  case csrw => exact Gentle.ctlCsrw _ _ _ _ _ _
  case csrs => exact Gentle.ctlCsrw _ _ _ _ _ _
  case csrc => exact Gentle.ctlCsrw _ _ _ _ _ _
  case alloc => exact ((Calm.queueCall s _ _).trans (Calm.block _ _ _ _ _)).gentle
  case free => exact ((Calm.queueCall s _ _).trans (Calm.block _ _ _ _ _)).gentle
  case fsig => exact (Calm.block _ _ _ _ _).gentle
  case fadd => exact (Calm.block _ _ _ _ _).gentle
  case fread => exact (Calm.block _ _ _ _ _).gentle
  case fwait => exact Gentle.ctlWait _ _ _ _ _ _ _ _
  case rfsig => exact Gentle.ctlRemote _ _ _ _ _ _ _
  case rfadd => exact Gentle.ctlRemote _ _ _ _ _ _ _
  case ftok =>
    rw [State.controlOther_ftok]
    dsimp only
    split
    · exact Gentle.fault _ _ _ _ _
    · exact ((Gentle.finishCtl s c h _ rfl).trans (Calm.armFence _ _ _ _ _ _).gentle).trans (Gentle.settle _ _)
  case bart =>
    rw [State.controlOther_bart]
    dsimp only
    split
    · exact Gentle.fault _ _ _ _ _
    · exact ((Gentle.finishCtl s c h _ rfl).trans (Calm.armBar _ _ _ _ _ _).gentle).trans (Gentle.settle _ _)
  case bara => exact ((Calm.barArriveCore _ _ _ _ _).gentle.trans (Gentle.finishCtl _ c h _ rfl)).trans (Gentle.settle _ _)
  case barw xd xa xb imm =>
    rw [State.controlOther_barw]
    have waits := (Calm.barWait s c (((s.core c).xr xa).toNat % 2 ^ 8) (.core c)).gentle
    dsimp only
    split
    · rename_i is; rw [is] at waits; exact waits.trans (Gentle.finishReg _ _ _ _ _ _)
    · rename_i is; rw [is] at waits; exact waits.trans (Calm.block _ _ _ _ _).gentle
  case rfwait =>
    rw [State.controlOther_rfwait]
    dsimp only
    split
    · exact Gentle.ctlWait _ _ _ _ _ _ _ _
    · exact ((Calm.startRemote _ _ _ _ _ _).trans (Calm.block _ _ _ _ _)).gentle
  case rfread =>
    rw [State.controlOther_rfread]
    dsimp only
    split
    · exact (Calm.block _ _ _ _ _).gentle
    · exact ((Calm.startRemote _ _ _ _ _ _).trans (Calm.block _ _ _ _ _)).gentle
  all_goals exact Gentle.finishCtl s c h _ rfl

/-! ### From what the control unit executes to the command -/

/-- A relation that holds of what the other instructions, a register result and a transfer make of a state holds of every instruction. -/
theorem State.control_rel {R : State → State → Prop} (gentle : ∀ s t, Gentle s t → R s t) (s : State) (c : Nat) (h : Hdr) (op : CtlOp)
    (other : R s (s.controlOther c h op)) : R s (s.control c h op) := by
  unfold State.control
  dsimp only
  split
  · exact gentle _ _ (Gentle.finishReg _ _ _ _ _ _)
  · split
    · split
      · exact gentle _ _ (Gentle.finishTransfer _ _ _ _ _ fun _ => rfl)
      · exact gentle _ _ (Gentle.finishCtl s c h _ rfl)
    · exact other

/-- A control-slot command whose instruction, once its token wait has been consumed, is in a relation that gentle changes are in. -/
theorem State.issueControl_rel {R : State → State → Prop} (gentle : ∀ s t, Gentle s t → R s t) (trans : ∀ s t u, R s t → R t u → R s u)
    (c : Nat) (h : Hdr) (op : CtlOp) (other : ∀ s, R s (s.controlOther c h op)) (s : State) : R s (s.issueControl c h op) := by
  unfold State.issueControl
  dsimp only
  split
  · split
    · exact gentle _ _ (Gentle.fault _ _ _ _ _)
    · split
      · refine trans _ _ _ (gentle _ _ (Calm.modCore s c (fun k => k.consume h) (Core.consume_lm _ _)).gentle) ?_
        exact State.control_rel gentle _ _ _ _ (other _)
      · exact gentle _ _ (Gentle.refl s)
  · exact gentle _ _ (Gentle.refl s)

/-! ### Stores -/

/-- What a store of core `c` respects: no memory changes but the local memory of `c`, whose canonical form stays, and no fence falls. -/
structure WritesOwnLm (c : Nat) (s t : State) : Prop where
  rise : FencesRise s t
  others : ∀ d, d ≠ c → (t.core d).lm = (s.core d).lm
  scratch : ∀ g, (t.cluster g).scratch = (s.cluster g).scratch
  channels : t.channels = s.channels
  area : t.recordArea = s.recordArea
  wf : (s.core c).lm.wf = true → (t.core c).lm.wf = true

theorem Gentle.writesOwnLm {c : Nat} {s t : State} (g : Gentle s t) : WritesOwnLm c s t := by
  obtain ⟨⟨lm, scratch, channels, area⟩, rise⟩ := g
  exact ⟨rise, fun d _ => lm d, scratch, channels, area, fun wf => by rwa [lm c]⟩

theorem WritesOwnLm.trans {c : Nat} {s t u : State} (a : WritesOwnLm c s t) (b : WritesOwnLm c t u) : WritesOwnLm c s u :=
  ⟨a.rise.trans b.rise, fun d other => (b.others d other).trans (a.others d other), fun g => (b.scratch g).trans (a.scratch g),
    b.channels.trans a.channels, b.area.trans a.area, fun wf => b.wf (a.wf wf)⟩

theorem WritesOwnLm.modCore (s : State) (c : Nat) {f : Core → Core} (wf : (s.core c).lm.wf = true → (f (s.core c)).lm.wf = true) :
    WritesOwnLm c s (s.modCore c f) :=
  ⟨FencesRise.of_state (fun _ => rfl) fun _ => Nat.le_refl _, fun d other => by rw [State.core_modCore, if_neg other], fun _ => rfl, rfl, rfl,
    fun was => by rw [State.core_modCore, if_pos rfl]; exact wf was⟩

theorem WritesOwnLm.ctlStore (s : State) (c : Nat) (h : Hdr) (a n v : Nat) : WritesOwnLm c s (s.ctlStore c h a n v) := by
  unfold State.ctlStore
  split
  · exact (Gentle.fault _ _ _ _ _).writesOwnLm
  · refine (WritesOwnLm.modCore s c fun wf => ?_).trans (Gentle.postHdr _ _ _ _ _).writesOwnLm
    rw [Core.pass_lm, Core.lmWrite_lm]
    exact Mem.wf_writeBytes _ _ _ wf

theorem WritesOwnLm.controlOther (s : State) (c : Nat) (h : Hdr) (op : CtlOp) : WritesOwnLm c s (s.controlOther c h op) := by
  by_cases store : ∃ xd xa imm, op = .st xd xa imm ∨ op = .tdst xd xa imm
  · obtain ⟨xd, xa, imm, rfl | rfl⟩ := store
    · exact WritesOwnLm.ctlStore _ _ _ _ _ _
    · exact WritesOwnLm.ctlStore _ _ _ _ _ _
  · exact (Gentle.controlOther s c h op fun xd xa imm =>
      ⟨fun is => store ⟨xd, xa, imm, .inl is⟩, fun is => store ⟨xd, xa, imm, .inr is⟩⟩).writesOwnLm

/-- Settles O17: every way in which an instruction other than a store ends is gentle, and a store writes the local memory of its core alone. -/
theorem controlSlotKeepsMemoryAndFences : Obligations.ControlSlotKeepsMemoryAndFences := by
  intro c h op s t ends
  obtain rfl : s.keepQueue (s.issueControl c h op) = t := Host.Outcome.next.inj ((exec_ofCtl c h op s).symm.trans ends)
  obtain ⟨rise, others, scratch, channels, area, wf⟩ : WritesOwnLm c s (s.keepQueue (s.issueControl c h op)) :=
    (State.issueControl_rel (fun _ _ => Gentle.writesOwnLm) (fun _ _ _ => WritesOwnLm.trans) c h op
      (fun s => WritesOwnLm.controlOther s c h op) s).trans (Gentle.keepQueue _ _).writesOwnLm
  refine ⟨rise, fun noStore => ?_, others, scratch, channels, area, wf⟩
  exact ((State.issueControl_rel (fun _ _ => id) (fun _ _ _ => Gentle.trans) c h op (fun s => Gentle.controlOther s c h op noStore) s).trans
    (Gentle.keepQueue _ _)).mem

end Sys2Proof.Machine
end

section
/-! PROOFS. The control slot's instructions: what each comes to on a core that issues (R41, R44 to R47, R56 to R64), and a core fault (R84). -/

namespace Sys2Proof.Machine

/-! ### Registers and loops -/

theorem Core.xr_zero (k : Core) : k.xr 0 = 0 := rfl

theorem Core.setX_zero (k : Core) (v : Word64) : k.setX 0 v = k := rfl

theorem Core.xr_setX_same (k : Core) {r : Fin 32} (writable : r ≠ 0) (v : Word64) : (k.setX r v).xr r = v := by
  simp [Core.xr, Core.setX, writable]

theorem Core.xr_setX_other (k : Core) {r q : Fin 32} (other : q ≠ r) (v : Word64) : (k.setX r v).xr q = k.xr q := by
  have apart : (q : Nat) ≠ r := fun same => other (Fin.ext same)
  by_cases zero : r = 0 <;> simp [Core.xr, Core.setX, zero, apart]

theorem Core.setX_eq (k : Core) (r : Fin 32) (v : Word64) : k.setX r v = { k with x := (k.setX r v).x } := by
  unfold Core.setX
  split <;> rfl

/-- Settles O8. -/
theorem registerZeroIsHardwired : Obligations.RegisterZeroIsHardwired := fun k r _ v =>
  ⟨k.xr_zero, k.setX_zero v, fun writable => k.xr_setX_same writable v, fun other => k.xr_setX_other other v, k.setX_eq r v⟩

/-- Settles O11, by whether the bundle is the innermost loop's target, and whether passes remain. -/
theorem loopEndTest : Obligations.LoopEndTest := by
  intro pc l ls
  refine ⟨rfl, fun other => if_neg other, fun target more => ?_, fun target last => ?_⟩
  · simp only [passLoops, if_pos target, if_pos more]
  · simp only [passLoops, if_pos target, if_neg (Nat.not_lt.mpr last)]

/-! ### Fields that consuming a token leaves -/

@[simp] theorem Core.consume_codeLen (k : Core) (h : Hdr) : (k.consume h).codeLen = k.codeLen := by unfold Core.consume; split <;> rfl
@[simp] theorem Core.consume_loops (k : Core) (h : Hdr) : (k.consume h).loops = k.loops := by unfold Core.consume; split <;> rfl
@[simp] theorem Core.consume_ret (k : Core) (h : Hdr) : (k.consume h).ret = k.ret := by unfold Core.consume; split <;> rfl
@[simp] theorem Core.consume_ctx (k : Core) (h : Hdr) : (k.consume h).ctx = k.ctx := by unfold Core.consume; split <;> rfl
@[simp] theorem Core.consume_part (k : Core) (h : Hdr) : (k.consume h).part = k.part := by unfold Core.consume; split <;> rfl
@[simp] theorem Core.consume_vcore (k : Core) (h : Hdr) : (k.consume h).vcore = k.vcore := by unfold Core.consume; split <;> rfl
@[simp] theorem Core.consume_step (k : Core) (h : Hdr) : (k.consume h).step = k.step := by unfold Core.consume; split <;> rfl
@[simp] theorem Core.consume_seed (k : Core) (h : Hdr) : (k.consume h).seed = k.seed := by unfold Core.consume; split <;> rfl
@[simp] theorem Core.consume_cls (k : Core) (h : Hdr) : (k.consume h).cls = k.cls := by unfold Core.consume; split <;> rfl
@[simp] theorem Core.consume_mflags (k : Core) (h : Hdr) : (k.consume h).mflags = k.mflags := by unfold Core.consume; split <;> rfl

theorem CtlOp.result_consume (k : Core) (h : Hdr) (op : CtlOp) : op.result (k.consume h) = op.result k := by
  cases op <;> simp [CtlOp.result]

theorem CtlOp.branch_consume (k : Core) (h : Hdr) (op : CtlOp) : op.branch (k.consume h) = op.branch k := by
  cases op <;> simp [CtlOp.branch]

/-- Only loads are held on a poisoned granule, and neither a register result nor a branch comes of a load. -/
theorem CtlOp.onPoison_of_result {k : Core} {op : CtlOp} (result : op.result k ≠ none) : op.onPoison k = false := by
  cases op <;> first | rfl | exact absurd rfl result

theorem CtlOp.onPoison_of_branch {k : Core} {op : CtlOp} (branch : op.branch k ≠ none) : op.onPoison k = false := by
  cases op <;> first | rfl | exact absurd rfl branch

theorem CtlOp.clean_of_branch {k : Core} {op : CtlOp} (branch : op.branch k ≠ none) : op.clean = true := by
  cases op <;> first | rfl | exact absurd rfl branch

theorem CtlOp.result_of_branch {k : Core} {op : CtlOp} (branch : op.branch k ≠ none) : op.result k = none := by
  cases op <;> first | rfl | exact absurd rfl branch

section Issues
variable {s : State} {c : CoreId} {h : Hdr} (i : s.issues c h)
include i

/-! ### Register instructions (Table 02-4) -/

/-- A result in XD on an issuing core, whatever made it. -/
theorem State.finishReg_issues (xd : Fin 32) (v : Word64) :
    (s.setCore c ((s.core c).consume h)).finishReg c h (s.core c).pc xd v = s.passed c h fun k => k.setX xd v :=
  State.finishCtl_issues i (Core.setX_ctl _ _ _) (Core.setX_token _ _ _)

/-- A register instruction that issues writes its result and passes its bundle. -/
theorem exec_result {op : CtlOp} {xd : Fin 32} {v : Word64} (clean : op.clean = true) (result : op.result (s.core c) = some (xd, v)) :
    exec (Instr.ofCtl c h op) s = .next (s.passed c h fun k => k.setX xd v) := by
  have unheld : op.onPoison (s.core c) = false := CtlOp.onPoison_of_result (by rw [result]; exact Option.some_ne_none _)
  rw [exec_ofCtl, State.issueControl_issues s c h op i clean unheld, State.control_result _ _ _ _ xd v, State.core_setCore, if_pos rfl,
    Core.consume_pc, State.finishReg_issues i, State.answer_passed]
  rw [State.core_setCore, if_pos rfl, CtlOp.result_consume, result]

/-! ### Transfers (R47, R58) -/

/-- A transfer to a bundle of the code, as it stands at the end of an instruction that issues. -/
theorem State.finishTransfer_issues {t : Nat} (within : t < (s.core c).codeLen) {f : Core → Core}
    (ctl : ∀ k, (f k).ctl = k.ctl) (tokens : ∀ k t, (f k).token t = k.token t) :
    (s.setCore c ((s.core c).consume h)).finishTransfer c h (s.core c).pc t f =
      s.jumped c h t ((s.core c).loops.filter fun l => l.has t || !l.has (s.core c).pc) f := by
  obtain ⟨running, -, room⟩ := i
  have goes : ((s.core c).consume h).transfer t =
      some { (s.core c).consume h with pc := t, loops := (s.core c).loops.filter fun l => l.has t || !l.has (s.core c).pc } := by
    rw [Core.transfer, if_pos (by rwa [Core.consume_codeLen]), Core.consume_loops, Core.consume_pc]
  simp only [State.finishTransfer, State.core_setCore, if_true, goes, State.setCore_setCore]
  refine State.postHdr_setCore s c _ h _ 0 ?live ?space
  case live => simp [ctl, running, CtlState.live]
  case space => exact fun t ht => (tokens _ t).symm ▸ room t ht

theorem exec_branch {op : CtlOp} {b : Bool} {t : Nat} (branch : op.branch (s.core c) = some (b, t)) :
    exec (Instr.ofCtl c h op) s =
      s.answer (if b then (s.setCore c ((s.core c).consume h)).finishTransfer c h (s.core c).pc t id
        else (s.setCore c ((s.core c).consume h)).finishCtl c h (s.core c).pc id) := by
  have branches : op.branch (s.core c) ≠ none := by rw [branch]; exact Option.some_ne_none _
  rw [exec_ofCtl, State.issueControl_issues s c h op i (CtlOp.clean_of_branch branches) (CtlOp.onPoison_of_branch branches),
    State.control_branch _ _ _ _ b t, State.core_setCore, if_pos rfl, Core.consume_pc]
  · rw [State.core_setCore, if_pos rfl, CtlOp.result_consume, CtlOp.result_of_branch branches]
  · rw [State.core_setCore, if_pos rfl, CtlOp.branch_consume, branch]

theorem exec_branch_not_taken {op : CtlOp} {t : Nat} (branch : op.branch (s.core c) = some (false, t)) :
    exec (Instr.ofCtl c h op) s = .next (s.passed c h id) := by
  rw [exec_branch i branch, if_neg Bool.false_ne_true, State.finishCtl_issues i rfl fun _ => rfl, State.answer_passed]

theorem exec_branch_taken {op : CtlOp} {t : Nat} (branch : op.branch (s.core c) = some (true, t)) (within : t < (s.core c).codeLen) :
    exec (Instr.ofCtl c h op) s =
      .next (s.jumped c h t ((s.core c).loops.filter fun l => l.has t || !l.has (s.core c).pc) id) := by
  rw [exec_branch i branch, if_pos rfl, State.finishTransfer_issues i within (f := id) (fun _ => rfl) fun _ _ => rfl]
  exact State.answer_same _ _ rfl

/-! ### The other instructions -/

/-- An instruction that issues and is neither a register instruction nor a branch, by what the control unit makes of the state. -/
theorem exec_ofCtl_answer (op : CtlOp) {u : State} (comes : (s.setCore c ((s.core c).consume h)).controlOther c h op = u)
    (clean : op.clean = true := by rfl) (unheld : op.onPoison (s.core c) = false := by rfl)
    (noResult : ∀ k, op.result k = none := by exact fun _ => rfl) (noBranch : ∀ k, op.branch k = none := by exact fun _ => rfl) :
    exec (Instr.ofCtl c h op) s = s.answer u :=
  (exec_ofCtl_other i clean unheld noResult noBranch).trans (congrArg s.answer comes)

theorem exec_ofCtl_next (op : CtlOp) {u : State} (comes : (s.setCore c ((s.core c).consume h)).controlOther c h op = u)
    (queue : u.pending = s.pending := by rfl) (clean : op.clean = true := by rfl) (unheld : op.onPoison (s.core c) = false := by rfl)
    (noResult : ∀ k, op.result k = none := by exact fun _ => rfl) (noBranch : ∀ k, op.branch k = none := by exact fun _ => rfl) :
    exec (Instr.ofCtl c h op) s = .next u :=
  (exec_ofCtl_answer i op comes clean unheld noResult noBranch).trans (State.answer_same _ _ queue)

/-- A core of its own making on an issuing core, with the header's token posted. -/
theorem State.postHdr_issues (k : Core) (ctl : k.ctl.live = true) (tokens : ∀ t, k.token t = ((s.core c).consume h).token t) (pc slot : Nat) :
    ((s.setCore c ((s.core c).consume h)).setCore c k).postHdr c h pc slot = s.setCore c (k.posted h) := by
  rw [State.setCore_setCore]
  exact State.postHdr_setCore s c k h pc slot ctl fun t ht => tokens t ▸ i.2.2 t ht

theorem State.issues_live {k : Core} (ctl : k.ctl = (s.core c).ctl) : k.ctl.live = true := by simp [ctl, i.1, CtlState.live]

end Issues

theorem boolWord_decide (p : Prop) [Decidable p] : boolWord (decide p) = if p then 1 else 0 := by
  by_cases is : p <;> simp [boolWord, is]

/-- Settles O7: each of the instructions has the table's value as its result, and LDHI's reserved bits are a decoding fault. -/
theorem registerInstructionsWriteXdAndPass : Obligations.RegisterInstructionsWriteXdAndPass := by
  intro s c h xd xa xb imm i a b n iw m
  have row {op : CtlOp} {v : Word64} (clean : op.clean = true) (result : op.result (s.core c) = some (xd, v)) := exec_result i clean result
  have reserved : bits imm.toNat 35 32 = imm.toNat / 2 ^ 32 := by
    have := imm.isLt
    simp only [bits]
    omega
  refine ⟨?table, fun small => ?ldhi, fun large => ?fault⟩
  case table =>
    iterate 20 rw [List.forall_mem_cons]
    exact ⟨row (op := .add xd xa xb) rfl rfl, row (op := .sub xd xa xb) rfl rfl, row (op := .and xd xa xb) rfl rfl,
      row (op := .or xd xa xb) rfl rfl, row (op := .xor xd xa xb) rfl rfl, row (op := .shl xd xa xb) rfl rfl,
      row (op := .shr xd xa xb) rfl rfl, row (op := .sar xd xa xb) rfl rfl, row (op := .mul xd xa xb) rfl rfl,
      row (op := .mulh xd xa xb) rfl rfl, row (op := .min xd xa xb) rfl rfl, row (op := .max xd xa xb) rfl rfl,
      row (op := .slt xd xa xb) rfl (congrArg some (congrArg _ (boolWord_decide _))),
      row (op := .sltu xd xa xb) rfl (congrArg some (congrArg _ (boolWord_decide _))),
      row (op := .addi xd xa imm) rfl rfl, row (op := .andi xd xa imm) rfl rfl, row (op := .ori xd xa imm) rfl rfl,
      row (op := .xori xd xa imm) rfl rfl, row (op := .shli xd xa imm) rfl rfl, row (op := .shri xd xa imm) rfl rfl, List.forall_mem_nil _⟩
  case ldhi =>
    refine row (op := .ldhi xd xa imm) ?_ rfl
    simp only [CtlOp.clean, reserved, Nat.div_eq_of_lt small, beq_self_eq_true]
  case fault =>
    have unclean : (CtlOp.ldhi xd xa imm).clean = false := by
      simp only [CtlOp.clean, reserved, beq_eq_false_iff_ne]
      omega
    exact (exec_ofCtl c h (.ldhi xd xa imm) s).trans (congrArg s.answer (State.issueControl_unclean s c h _ i.1 unclean))

/-- Settles O9: NOP and HALT by what they end with, a branch by whether it is taken. -/
theorem branchesFollowTheirConditions : Obligations.BranchesFollowTheirConditions := by
  intro s c h xa xb t i k a b
  have row (op : CtlOp) {taken : Bool} (branch : op.branch (s.core c) = some (taken, t.toNat)) :
      (taken = false → exec (Instr.ofCtl c h op) s = .next (s.passed c h id)) ∧
      (taken = true → t.toNat < k.codeLen →
        exec (Instr.ofCtl c h op) s = .next (s.jumped c h t.toNat (k.loops.filter fun l => l.has t.toNat || !l.has k.pc) id)) :=
    ⟨fun isNot => exec_branch_not_taken i (isNot ▸ branch), fun is within => exec_branch_taken i (is ▸ branch) within⟩
  refine ⟨?nop, ?halt, ?branches⟩
  case nop =>
    refine exec_ofCtl_next i .nop ?_
    simp only [State.controlOther_nop, State.core_setCore, if_true, Core.consume_pc]
    exact State.finishCtl_issues i rfl fun _ => rfl
  case halt =>
    refine exec_ofCtl_next i .halt ?_
    simp only [State.controlOther_halt, State.modCore, State.core_setCore, if_true]
    exact State.postHdr_issues i { k.consume h with ctl := .halting } rfl (fun _ => rfl) _ _
  case branches =>
    iterate 6 rw [List.forall_mem_cons]
    exact ⟨row (.j t) rfl, row (.beq xa xb t) rfl, row (.bne xa xb t) rfl, row (.blt xa xb t) rfl, row (.bge xa xb t) rfl,
      row (.bltu xa xb t) rfl, List.forall_mem_nil _⟩

/-- Settles O10: CALL and JR end as transfers do, and RET and LOOP write the core that they leave. -/
theorem callsReturnsAndLoops : Obligations.CallsReturnsAndLoops := by
  intro s c h xa t i
  dsimp only
  refine ⟨fun room within => ?call, fun n r top within => ?ret, fun near within => ?jr, fun open_ ahead some_ => ?loop,
    fun open_ ahead none_ within => ?skip⟩
  case call =>
    refine exec_ofCtl_next i (.call t) ?_
    simp only [State.controlOther_call, State.ctlCall, State.core_setCore, if_true, Core.consume_ret, Core.consume_pc,
      if_neg (Nat.not_le.mpr room)]
    rw [State.finishTransfer_issues i within ?_ ?_]
    · simp only [State.jumped, Core.consume_ret]
      rfl
    · exact fun _ => rfl
    · exact fun _ _ => rfl
  case ret =>
    refine exec_ofCtl_next i .ret ?_
    simp only [State.controlOther_ret, State.ctlRet, State.core_setCore, if_true, Core.consume_ret, top, Core.consume_pc, Core.consume_loops,
      Core.consume_codeLen, if_pos within]
    refine (State.postHdr_issues i _ ?_ ?_ _ _).trans ?_
    · exact State.issues_live i (Core.consume_ctl _ _)
    · exact fun _ => rfl
    · simp only [State.jumped, Core.consume_codeLen]
  case jr =>
    refine exec_ofCtl_next i (.jr xa) ?_
    simp only [State.controlOther_jr, State.ctlJr, State.core_setCore, if_true, Core.consume_xr, Core.consume_pc,
      if_neg (Nat.not_le.mpr near)]
    exact State.finishTransfer_issues i within (f := id) (fun _ => rfl) fun _ _ => rfl
  case loop =>
    refine exec_ofCtl_next i (.loop xa t) ?_
    have passes : ((s.core c).xr xa).toNat ≠ 0 := fun zero => some_ (BitVec.eq_of_toNat_eq zero)
    simp only [State.controlOther_loop, State.ctlLoop, State.core_setCore, if_true, Core.consume_xr, Core.consume_pc, Core.consume_loops,
      Core.consume_ret, if_neg (Nat.not_le.mpr open_), if_neg (Nat.not_le.mpr ahead), if_neg passes]
    refine (State.postHdr_issues i _ ?_ ?_ _ _).trans ?_
    · exact State.issues_live i (Core.consume_ctl _ _)
    · exact fun _ => rfl
    · simp only [State.jumped, Core.consume_codeLen, Core.consume_ret, id]
  case skip =>
    refine exec_ofCtl_next i (.loop xa t) ?_
    have passes : ((s.core c).xr xa).toNat = 0 := congrArg BitVec.toNat none_
    have inside : (((s.core c).consume h).pass t.toNat).pc < (s.core c).codeLen := by simpa only [Core.pass, Core.consume_loops] using within
    simp only [State.controlOther_loop, State.ctlLoop, State.core_setCore, if_true, Core.consume_xr, Core.consume_pc, Core.consume_loops,
      Core.consume_codeLen, if_neg (Nat.not_le.mpr open_), if_neg (Nat.not_le.mpr ahead), if_pos passes, if_neg (Nat.not_le.mpr inside)]
    refine (State.postHdr_issues i _ ?_ ?_ _ _).trans ?_
    · exact State.issues_live i (Core.consume_ctl _ _)
    · exact fun _ => rfl
    · rfl

end Sys2Proof.Machine
end

section
/-! PROOFS. The control slot's core state registers (R59), the operations that hold the control unit (R44, R62 to R64, R81), and a core fault
(R84). -/

namespace Sys2Proof.Machine

/-! ### A core fault (R84) -/

theorem State.coreFault_dead {s : State} {c : Nat} (dead : (s.core c).ctl.live = false) (code pc slot : Nat) :
    s.coreFault c code pc slot = (s, []) := by
  unfold State.coreFault
  cases is : (s.core c).ctl <;> simp_all [CtlState.live]

/-- A core that has faulted: its control unit, and what the fault is. -/
def Core.faulted (k : Core) (code pc slot : Nat) : Core := { k with ctl := .faulted, fault := some ⟨code, pc, slot⟩ }

/-- A core fault on a live core changes that core, takes its waits and arms away and writes a record. -/
theorem State.coreFault_live {s : State} {c : Nat} (live : (s.core c).ctl.live = true) (code pc slot : Nat) :
    ∃ x, s.coreFault c code pc slot =
      ((((s.dropGrants c).modCore c fun k => k.faulted code pc slot).dropWaits (Waiter.ofCore c)).record x, [.lose (s.core c).ctx]) := by
  unfold State.coreFault
  dsimp only
  split
  · rename_i is; rw [is] at live; cases live
  · rename_i is; rw [is] at live; cases live
  · rename_i is; rw [is] at live; cases live
  · exact ⟨_, rfl⟩

theorem State.record_core (s : State) (x : Rec) (c : Nat) : (s.record x).core c = s.core c := by
  obtain ⟨_, _, _, _, is⟩ := s.record_eq x
  rw [is]
  rfl

theorem State.record_waits (s : State) (x : Rec) : (s.record x).waits = s.waits := by
  obtain ⟨_, _, _, _, is⟩ := s.record_eq x
  rw [is]

/-- Settles O14: on a live core what it faults to, and on any other nothing. -/
theorem aCoreFaultStopsItsCore : Obligations.ACoreFaultStopsItsCore := by
  intro s c code pc slot
  refine ⟨fun live => ?_, fun dead => State.coreFault_dead dead code pc slot⟩
  obtain ⟨x, is⟩ := State.coreFault_live live code pc slot
  rw [is]
  have core : ((((s.dropGrants c).modCore c fun k => k.faulted code pc slot).dropWaits (Waiter.ofCore c)).record x).core c =
      (s.core c).faulted code pc slot := by
    rw [State.record_core]
    exact (State.core_modCore (s.dropGrants c) c c fun k => k.faulted code pc slot).trans (if_pos rfl)
  refine ⟨congrArg Core.ctl core, congrArg Core.fault core, (congrArg Core.x core).trans rfl, (congrArg Core.lm core).trans rfl, fun w mem => ?_, rfl⟩
  rw [State.record_waits] at mem
  obtain ⟨was, other⟩ := List.mem_filter.mp mem
  exact ⟨was, by simpa using other⟩

/-! ### Core state registers (R59) -/

section Issues
variable {s : State} {c : CoreId} {h : Hdr} (i : s.issues c h)
include i

theorem exec_csrr (xd xa : Fin 32) (imm : BitVec 36) {n : Nat} (number : imm.toNat % 2 ^ 12 = n) {v : Word64}
    (known : (s.setCore c ((s.core c).consume h)).csr c n = some v) :
    exec (.csrr c h xd xa imm) s = .next (s.passed c h fun k => k.setX xd v) := by
  refine exec_ofCtl_next i (.csrr xd xa imm) ?_
  rw [State.controlOther_csrr, number, known]
  simp only [State.core_setCore, if_true, Core.consume_pc]
  exact State.finishReg_issues i xd v

theorem exec_csrr_invalid (xd xa : Fin 32) (imm : BitVec 36) {n : Nat} (number : imm.toNat % 2 ^ 12 = n)
    (unknown : (s.setCore c ((s.core c).consume h)).csr c n = none) :
    exec (.csrr c h xd xa imm) s = s.answer ((s.setCore c ((s.core c).consume h)).fault c FaultCode.csrInvalid (s.core c).pc 0) := by
  refine exec_ofCtl_answer i (.csrr xd xa imm) ?_
  rw [State.controlOther_csrr, number, unknown]
  simp only [State.core_setCore, if_true, Core.consume_pc]

/-- The write of a core state register that makes `f` of the core. -/
theorem State.ctlCsrw_issues {xa : Fin 32} {imm : BitVec 36} {how : CsrHow} {f : Core → Core}
    (writes : ((s.core c).consume h).csrWrite (imm.toNat % 2 ^ 12) how ((s.core c).xr xa) = some (f ((s.core c).consume h)))
    (ctl : ∀ k, (f k).ctl = k.ctl) (tokens : ∀ k t, (f k).token t = k.token t) :
    s.answer ((s.setCore c ((s.core c).consume h)).ctlCsrw c h xa imm how) = .next (s.passed c h f) := by
  have comes : (s.setCore c ((s.core c).consume h)).ctlCsrw c h xa imm how = s.passed c h fun _ => f ((s.core c).consume h) := by
    simp only [State.ctlCsrw, State.core_setCore, if_true, Core.consume_xr, writes, Core.consume_pc]
    exact State.finishCtl_issues i (ctl _) (tokens _)
  rw [comes, State.answer_passed]
  exact congrArg _ (State.passed_congr s c h rfl)

omit i in
theorem State.ctlCsrw_invalid {xa : Fin 32} {imm : BitVec 36} {how : CsrHow}
    (refuses : ((s.core c).consume h).csrWrite (imm.toNat % 2 ^ 12) how ((s.core c).xr xa) = none) :
    s.answer ((s.setCore c ((s.core c).consume h)).ctlCsrw c h xa imm how) =
      s.answer ((s.setCore c ((s.core c).consume h)).fault c FaultCode.csrInvalid (s.core c).pc 0) := by
  simp only [State.ctlCsrw, State.core_setCore, if_true, Core.consume_xr, refuses, Core.consume_pc]

/-- CSRW, CSRS and CSRC are the three ways of one write. -/
theorem exec_csr_writes (xd xa : Fin 32) (imm : BitVec 36) (P : CsrHow → Host.Outcome State Fault Refusal → Prop)
    (each : ∀ how, P how (s.answer ((s.setCore c ((s.core c).consume h)).ctlCsrw c h xa imm how))) :
    P .write (exec (.csrw c h xd xa imm) s) ∧ P .set (exec (.csrs c h xd xa imm) s) ∧ P .clear (exec (.csrc c h xd xa imm) s) := by
  refine ⟨?_, ?_, ?_⟩
  · exact (exec_ofCtl_answer i (.csrw xd xa imm) rfl) ▸ each .write
  · exact (exec_ofCtl_answer i (.csrs xd xa imm) rfl) ▸ each .set
  · exact (exec_ofCtl_answer i (.csrc xd xa imm) rfl) ▸ each .clear

end Issues

/-- What a write of `v` makes of a register of fewer bits, the bits of `v` that it has room for alone counting. -/
def CsrHow.apply {w : Nat} (old v : BitVec w) : CsrHow → BitVec w
  | .write => v
  | .set => old ||| v
  | .clear => old &&& ~~~v

theorem Core.csrWrite_step (k : Core) (how : CsrHow) (v : Word64) :
    k.csrWrite 0x010 how v = some { k with step := how.apply k.step (v.truncate 32) } := by
  have same : BitVec.truncate 32 (k.step.zeroExtend 64) = k.step := by simp
  cases how <;> simp [Core.csrWrite, CsrHow.apply, BitVec.setWidth_or, BitVec.setWidth_and, BitVec.setWidth_not]

theorem Core.csrWrite_cls (k : Core) (how : CsrHow) (v : Word64) :
    k.csrWrite 0x012 how v = some { k with cls := how.apply k.cls (v.truncate 3) } := by
  cases how <;> simp [Core.csrWrite, CsrHow.apply, BitVec.setWidth_or, BitVec.setWidth_and, BitVec.setWidth_not]

theorem Core.csrWrite_mflags (k : Core) (how : CsrHow) (v : Word64) :
    k.csrWrite 0x020 how v = some { k with mflags := k.mflags &&& ~~~(v.truncate 7) } := by
  simp [Core.csrWrite]

theorem Core.csrWrite_none {k : Core} {n : Nat} (noStep : n ≠ 0x010) (noClass : n ≠ 0x012) (noFlags : n ≠ 0x020) (how : CsrHow)
    (v : Word64) : k.csrWrite n how v = none := by
  simp only [Core.csrWrite, if_neg noStep, if_neg noClass, if_neg noFlags]

/-- The numbers of Table 02-13 below the tokens'. -/
theorem State.csr_none {s : State} {c n : Nat} (unknown : n ∉ [0x000, 0x001, 0x002, 0x003, 0x004, 0x010, 0x011, 0x012, 0x020])
    (noToken : n < 0x030 ∨ 0x03F < n) : s.csr c n = none := by
  have notTokens : ¬ (0x030 ≤ n ∧ n ≤ 0x03F) := by omega
  simp only [List.mem_cons, List.not_mem_nil, or_false, not_or] at unknown
  obtain ⟨h0, h1, h2, h3, h4, h5, h6, h7, h8⟩ := unknown
  simp only [State.csr, if_neg h0, if_neg h1, if_neg h2, if_neg h3, if_neg h4, if_neg h5, if_neg h6, if_neg h7, if_neg h8,
    if_neg notTokens]

theorem State.csr_token (s : State) (c : Nat) (t : Fin 16) : s.csr c (0x030 + t.val) = some (BitVec.ofNat 64 ((s.core c).token t)) := by
  have big (m : Nat) (small : m < 0x030) : ¬ 0x030 + t.val = m := by omega
  have token : (0x030 ≤ 0x030 + t.val ∧ 0x030 + t.val ≤ 0x03F) := by omega
  have same : Fin.ofNat 16 (0x030 + t.val - 0x030) = t := by
    apply Fin.ext
    simp
  simp only [State.csr, if_neg (big _ (by decide : 0x000 < 0x030)), if_neg (big _ (by decide : 0x001 < 0x030)),
    if_neg (big _ (by decide : 0x002 < 0x030)), if_neg (big _ (by decide : 0x003 < 0x030)), if_neg (big _ (by decide : 0x004 < 0x030)),
    if_neg (big _ (by decide : 0x010 < 0x030)), if_neg (big _ (by decide : 0x011 < 0x030)), if_neg (big _ (by decide : 0x012 < 0x030)),
    if_neg (big _ (by decide : 0x020 < 0x030)), if_pos token, same]

/-- Settles O15: a read by the register's number, and a write by what it makes of the core. -/
theorem coreStateRegisters : Obligations.CoreStateRegisters := by
  intro s c h xd xa imm i k n v done
  refine ⟨?read, fun t is => ?token, fun is => ?step, fun is => ?cls, fun is => ?mflags, fun unknown noToken => ?unknown,
    fun noStep noClass noFlags => ?readOnly⟩
  case read =>
    have row {m : Nat} {w : Word64} (known : (s.setCore c (k.consume h)).csr c m = some w) :
        n = m → exec (.csrr c h xd xa imm) s = .next (done fun k' => k'.setX xd w) := fun is => exec_csrr i xd xa imm is known
    iterate 9 rw [List.forall_mem_cons]
    refine ⟨row ?_, row ?_, row ?_, row ?_, row ?_, row ?_, row ?_, row ?_, row ?_, List.forall_mem_nil _⟩ <;> simp [State.csr, k]
  case token =>
    refine (exec_csrr i xd xa imm is (State.csr_token _ _ t)).trans (congrArg _ (State.passed_congr s c h ?_))
    simp only [State.core_setCore, if_true]
  case step =>
    exact exec_csr_writes i xd xa imm (fun how o => o = .next (done fun k' => { k' with step := how.apply k.step (v.truncate 32) }))
      fun how => State.ctlCsrw_issues i (by rw [show imm.toNat % 2 ^ 12 = 0x010 from is, Core.csrWrite_step, Core.consume_step])
        (fun _ => rfl) fun _ _ => rfl
  case cls =>
    exact exec_csr_writes i xd xa imm (fun how o => o = .next (done fun k' => { k' with cls := how.apply k.cls (v.truncate 3) }))
      fun how => State.ctlCsrw_issues i (by rw [show imm.toNat % 2 ^ 12 = 0x012 from is, Core.csrWrite_cls, Core.consume_cls])
        (fun _ => rfl) fun _ _ => rfl
  case mflags =>
    obtain ⟨write, set, clear⟩ := exec_csr_writes i xd xa imm
      (fun _ o => o = .next (done fun k' => { k' with mflags := k.mflags &&& ~~~(v.truncate 7) }))
      fun how => State.ctlCsrw_issues i (by rw [show imm.toNat % 2 ^ 12 = 0x020 from is, Core.csrWrite_mflags, Core.consume_mflags])
        (fun _ => rfl) fun _ _ => rfl
    exact List.forall_mem_cons.mpr ⟨write, List.forall_mem_cons.mpr ⟨set, List.forall_mem_singleton.mpr clear⟩⟩
  case unknown => exact exec_csrr_invalid i xd xa imm rfl (State.csr_none unknown noToken)
  case readOnly =>
    obtain ⟨write, set, clear⟩ := exec_csr_writes i xd xa imm
      (fun _ o => o = s.answer ((s.setCore c (k.consume h)).fault c FaultCode.csrInvalid k.pc 0))
      fun how => State.ctlCsrw_invalid (Core.csrWrite_none noStep noClass noFlags how v)
    exact List.forall_mem_cons.mpr ⟨write, List.forall_mem_cons.mpr ⟨set, List.forall_mem_singleton.mpr clear⟩⟩

/-! ### Operations that hold the control unit, or do not wait -/

/-- Settles O16: each of the operations blocks, and ALLOC and FREE queue their call first. -/
theorem blockingOperationsHoldTheControlUnit : Obligations.BlockingOperationsHoldTheControlUnit := by
  intro s c h xd xa xb imm i k held calling
  have blocks (op : CtlOp) : (s.setCore c (k.consume h)).block c h op none = held op := by
    simp only [State.block, State.modCore, State.core_setCore, if_true, State.setCore_setCore]
    rfl
  have calls (op : CtlOp) (free : Bool) (a : Word64) (w : BitVec 36) :
      ((s.setCore c (k.consume h)).modCluster (clusterOf c) fun g => { g with calls := g.calls ++ [⟨Fin.ofNat 192 c, free, a, w⟩] }).block c h op
        none = calling ⟨c, free, a, w⟩ (held op) := by
    rw [Fin.ofNat_val_eq_self, ← blocks op]
    rfl
  refine ⟨?alloc, ?free, ?fsig, ?fadd, ?fread, fun here => ?rfread⟩
  case alloc =>
    refine exec_ofCtl_next i (.alloc xd xa imm) ?_
    rw [State.controlOther_alloc]
    simp only [State.core_setCore, if_true, Core.consume_xr]
    exact calls _ _ _ _
  case free =>
    refine exec_ofCtl_next i (.free xd xa xb) ?_
    rw [State.controlOther_free]
    simp only [State.core_setCore, if_true, Core.consume_xr]
    exact calls _ _ _ _
  case fsig => exact exec_ofCtl_next i (.fsig xd xa xb) (blocks _)
  case fadd => exact exec_ofCtl_next i (.fadd xd xa xb) (blocks _)
  case fread => exact exec_ofCtl_next i (.fread xd xa xb) (blocks _)
  case rfread =>
    refine exec_ofCtl_next i (.rfread xd xa xb) ?_
    rw [State.controlOther_rfread]
    simp only [State.core_setCore, if_true, Core.consume_xr, State.setCore_fabAddr]
    exact (if_pos here).trans (blocks _)

/-! ### Waits (R63, R231, R239, R242) -/

/-- What a wait at a hub changes: hubs, waits and what the store holds of fences. -/
theorem State.admitOp_eq (s : State) (n : Nat) (p : Principal) :
    ∃ fs cs ws, (s.admitOp n p).1 = { s with fences := fs, clusters := cs, waits := ws } := by
  unfold State.admitOp
  split
  · exact ⟨_, _, _, rfl⟩
  dsimp only
  split
  · exact ⟨_, _, _, rfl⟩
  split
  · exact ⟨_, _, _, rfl⟩
  obtain ⟨fs, cs, ws, hot⟩ := (s.hubMessage (s.fence n).home).heat_eq (s.fence n).home n
  rw [hot]
  split <;> exact ⟨_, _, _, rfl⟩

theorem State.fenceWait_ltime (s : State) (n target : Nat) (p : Principal) (who : Waiter) : (s.fenceWait n target p who).2.ltime = s.ltime := by
  obtain ⟨fs, cs, ws, is⟩ := s.admitOp_eq n p
  have kept : (s.admitOp n p).1.ltime = s.ltime := by rw [is]
  unfold State.fenceWait
  split
  · rename_i e; rw [e] at kept; exact kept
  · rename_i e
    rw [e] at kept
    dsimp only
    split
    · exact kept
    split
    · exact kept
    split <;> exact kept

theorem State.barWait_ltime (s : State) (c i : Nat) (w : Waiter) : (s.barWait c i w).2.ltime = s.ltime := by
  unfold State.barWait
  dsimp only
  split
  · split <;> rfl
  · rfl

/-- Settles O21: a wait of this module by whether its hub decides it, and one elsewhere by what it sends. -/
theorem waitsBlockOrGiveTheirStatus : Obligations.WaitsBlockOrGiveTheirStatus := by
  intro s c h xd xa xb imm i k u n g name until_ put local_
  have waits (op : CtlOp) (m : Nat) : u.ctlWait c h op xd m g imm = local_ op (u.fenceWait m g (.ctx k.ctx) (.core c)) := by
    have time := State.fenceWait_ltime u m g (.ctx k.ctx) (.core c)
    simp only [State.ctlWait, u, State.core_setCore, if_true, Core.consume_ctx, Core.consume_pc]
    revert time
    rcases State.fenceWait u m g (.ctx k.ctx) (.core c) with ⟨_ | st, t⟩ <;> intro time
    · have time : t.ltime = s.ltime := time
      simp only [local_, State.block, State.deadline, time]
      rfl
    · rfl
  refine ⟨?fwait, ?barw, fun here => ?rfwait, fun away => ⟨?wait, ?read⟩⟩
  case fwait =>
    refine exec_ofCtl_answer i (.fwait xd xa xb imm) ?_
    rw [State.controlOther_fwait]
    simp only [u, State.core_setCore, if_true, Core.consume_xr]
    exact waits _ _
  case barw =>
    refine exec_ofCtl_answer i (.barw xd xa xb imm) ?_
    have time := State.barWait_ltime u c ((k.xr xa).toNat % 2 ^ 8) (.core c)
    rw [State.controlOther_barw]
    simp only [u, State.core_setCore, if_true, Core.consume_xr, Core.consume_pc]
    revert time
    rcases State.barWait u c ((k.xr xa).toNat % 2 ^ 8) (.core c) with ⟨_ | st, t⟩ <;> intro time
    · have time : t.ltime = s.ltime := time
      simp only [local_, State.block, State.deadline, time]
      rfl
    · rfl
  case rfwait =>
    refine exec_ofCtl_answer i (.rfwait xd xa xb imm) ?_
    rw [State.controlOther_rfwait]
    simp only [u, State.core_setCore, if_true, Core.consume_xr]
    exact (if_pos here).trans (waits _ _)
  case wait =>
    refine exec_ofCtl_answer i (.rfwait xd xa xb imm) ?_
    rw [State.controlOther_rfwait]
    simp only [u, State.core_setCore, if_true, Core.consume_xr]
    exact if_neg away
  case read =>
    refine exec_ofCtl_answer i (.rfread xd xa xb) ?_
    rw [State.controlOther_rfread]
    simp only [u, State.core_setCore, if_true, Core.consume_xr]
    exact if_neg away

/-! ### Operations that do not wait (R53, R62, R64, R240) -/

/-- Settles O22: RFSIG and RFADD by where their fence is, and FTOK and BART by whether the token has an arm. -/
theorem operationsThatDoNotWait : Obligations.OperationsThatDoNotWait := by
  intro s c h xd xa xb i
  dsimp only
  refine ⟨fun away => ⟨?sig, ?add⟩, fun here => ⟨?sigHere, ?addHere⟩, ?bara, fun free => ⟨?ftok, ?bart⟩, fun armed => ⟨?ftokTwice, ?bartTwice⟩⟩
  case sig =>
    refine exec_ofCtl_answer i (.rfsig xd xa xb) ?_
    simp only [State.controlOther_rfsig, State.ctlRemote, State.core_setCore, if_true, Core.consume_xr, Core.consume_pc]
    rw [State.setCore_fabAddr, if_neg away]
    rfl
  case add =>
    refine exec_ofCtl_answer i (.rfadd xd xa xb) ?_
    simp only [State.controlOther_rfadd, State.ctlRemote, State.core_setCore, if_true, Core.consume_xr, Core.consume_pc]
    rw [State.setCore_fabAddr, if_neg away]
    rfl
  case sigHere =>
    refine exec_ofCtl_answer i (.rfsig xd xa xb) ?_
    simp only [State.controlOther_rfsig, State.ctlRemote, State.core_setCore, if_true, Core.consume_xr, Core.consume_pc, Core.consume_ctx]
    rw [State.setCore_fabAddr, if_pos here]
    rfl
  case addHere =>
    refine exec_ofCtl_answer i (.rfadd xd xa xb) ?_
    simp only [State.controlOther_rfadd, State.ctlRemote, State.core_setCore, if_true, Core.consume_xr, Core.consume_pc, Core.consume_ctx]
    rw [State.setCore_fabAddr, if_pos here]
    rfl
  case bara =>
    refine exec_ofCtl_answer i (.bara xd xa xb) ?_
    simp only [State.controlOther_bara, State.core_setCore, if_true, Core.consume_xr, Core.consume_pc, Core.consume_ctx]
  case ftok =>
    refine exec_ofCtl_answer i (.ftok xd xa xb) ?_
    simp only [State.controlOther_ftok, State.core_setCore, if_true, Core.consume_xr, Core.consume_pc]
    exact if_neg (Bool.eq_false_iff.mp free)
  case bart =>
    refine exec_ofCtl_answer i (.bart xd xa xb) ?_
    simp only [State.controlOther_bart, State.core_setCore, if_true, Core.consume_xr, Core.consume_pc]
    exact if_neg (Bool.eq_false_iff.mp free)
  case ftokTwice =>
    refine exec_ofCtl_answer i (.ftok xd xa xb) ?_
    simp only [State.controlOther_ftok, State.core_setCore, if_true, Core.consume_xr, Core.consume_pc]
    exact if_pos armed
  case bartTwice =>
    refine exec_ofCtl_answer i (.bart xd xa xb) ?_
    simp only [State.controlOther_bart, State.core_setCore, if_true, Core.consume_xr, Core.consume_pc]
    exact if_pos armed

end Sys2Proof.Machine
end

section
/-! PROOFS. Waits and reads of fences (R63, R225, R229, R231). -/

namespace Sys2Proof.Machine

/-! ### The waits that stand while an operation is admitted -/

theorem State.touch_waits (s : State) (h n : Nat) : (s.touch h n).1.waits = s.waits := by
  obtain ⟨_, _, is⟩ := s.touch_eq h n
  rw [is]

/-- A fence that comes hot takes no wait away. -/
theorem State.warm_waits_length (s : State) (n : Nat) : (s.warm n).waits.length = s.waits.length := by
  unfold State.warm
  split
  · exact List.length_map _
  · rfl

theorem State.admitted_waits_length (s : State) (n : Nat) : (s.admitted n).waits.length = s.waits.length := by
  unfold State.admitted State.heat
  split
  · rw [State.touch_waits]; rfl
  · rw [State.warm_waits_length, State.touch_waits]; rfl

/-! ### A fence that may be used -/

section Usable
variable {s : State} {n : Nat} {p : Principal} (use : s.usable n p)
include use

/-- A wait on a fence that may be used: decided by a fence in ERROR or a value that is reached, and registered otherwise. -/
theorem State.fenceWait_usable (target : Nat) (who : Waiter) : s.fenceWait n target p who =
    if (s.fence n).state = .error then (some Sync.fenceError, s.admitted n)
    else if target ≤ (s.fence n).value then (some Sync.ok, s.admitted n)
    else
      let cold := !(((s.admitted n).cluster (s.fence n).home).hub.hot.any fun e => e.1 == n)
      let t := if cold then (s.admitted n).synCount (s.fence n).home .cold else s.admitted n
      (none, { t with waits := t.waits ++ [⟨n, target, who, cold⟩] }) := by
  have calm := Calm.admitted s n
  simp only [State.fenceWait, State.admitOp_usable use, calm.state, calm.value, calm.home]

theorem State.fenceRead_usable : (s.fenceRead n p).2.1 = (s.fence n).value := by
  simp only [State.fenceRead, State.admitOp_usable use, (Calm.admitted s n).value]

end Usable

/-! ### A fence that does not exist or is FREE -/

theorem State.admitOp_noSuch {s : State} {n : Nat} (none : 2 ^ 20 ≤ n ∨ (s.fence n).state = .free) (p : Principal) : (s.admitOp n p).2 = false := by
  unfold State.admitOp
  split
  · rfl
  · rename_i inStore
    have free : (s.fence n).state = .free := none.resolve_left inStore
    exact congrArg Prod.snd (if_pos free)

theorem State.fenceWait_noSuch {s : State} {n : Nat} {p : Principal} (refused : (s.admitOp n p).2 = false) (target : Nat) (who : Waiter) :
    (s.fenceWait n target p who).1 = some Sync.noSuch := by
  unfold State.fenceWait
  split
  · rfl
  · rename_i admits; rw [admits] at refused; cases refused

theorem State.fenceRead_noSuch {s : State} {n : Nat} {p : Principal} (refused : (s.admitOp n p).2 = false) :
    (s.fenceRead n p).1 = Sync.noSuch ∧ (s.fenceRead n p).2.1 = 0 := by
  unfold State.fenceRead
  split
  · exact ⟨rfl, rfl⟩
  · rename_i admits; rw [admits] at refused; cases refused

/-- Settles O20: by the fence's state and by whether its value is reached. -/
theorem waitsAndReadsOfFences : Obligations.WaitsAndReadsOfFences := by
  intro s n g p w
  refine ⟨fun use => ⟨fun error => ?error, fun live reached => ?reached, fun live short => ?registered, State.fenceRead_usable use⟩,
    fun none => ⟨State.fenceWait_noSuch (State.admitOp_noSuch none p) g w, State.fenceRead_noSuch (State.admitOp_noSuch none p)⟩⟩
  case error => rw [State.fenceWait_usable use, if_pos error]; rfl
  case reached => rw [State.fenceWait_usable use, if_neg (by rw [live]; decide), if_pos reached]; rfl
  case registered =>
    rw [State.fenceWait_usable use, if_neg (by rw [live]; decide), if_neg (Nat.not_le.mpr short)]
    refine ⟨rfl, _, _, rfl, ?_⟩
    split <;> exact State.admitted_waits_length s n

end Sys2Proof.Machine
end

section
/-! PROOFS. Bundles: when the next bundle of a core issues, and what its engine slots capture (R42, R43, R54). -/

namespace Sys2Proof.Machine

/-! ### Issue -/

theorem State.clearCorr_ctl (s : State) (c : Nat) : ((s.clearCorr c).core c).ctl = (s.core c).ctl := by
  unfold State.clearCorr
  split
  · rw [State.core_modCore, if_pos rfl]
  · rfl

section Running
variable {s : State} {c : Nat} {k : Core} (running : (s.core c).ctl = .running) (now : (s.clearCorr c).core c = k)
include running now

theorem State.bundleIssue_range (past : k.codeLen ≤ k.pc) :
    s.bundleIssue c = (s.clearCorr c).fault c FaultCode.imemRange (k.codeLen - 1) 0 := by
  simp only [State.bundleIssue, running, now, if_pos past]

variable (within : k.pc < k.codeLen)
include within

theorem State.bundleIssue_parity (bad : k.imemBad.contains k.pc = true) :
    s.bundleIssue c = (s.clearCorr c).fault c FaultCode.imemParity k.pc 0 := by
  simp only [State.bundleIssue, running, now, if_neg (Nat.not_le.mpr within), if_pos bad]

variable (good : k.imemBad.contains k.pc = false) {b : Word256} (fetched : Tbl.get 0 k.imem k.pc = b)
include good fetched

theorem State.bundleIssue_undecoded {code slot : Nat} (faults : bundleFault b = some (code, slot)) :
    s.bundleIssue c = (s.clearCorr c).fault c code k.pc slot := by
  simp only [State.bundleIssue, running, now, if_neg (Nat.not_le.mpr within), if_neg (Bool.eq_false_iff.mp good), fetched, faults]

/-- A bundle that decodes: by its control slot's wait and by the room of the engines that it names. -/
theorem State.bundleIssue_decoded (decodes : bundleFault b = none) {f : CtlForm} {op : CtlOp} (control : ctlDecode (slotOf b 0) = some (f, op)) :
    s.bundleIssue c =
      if !k.canWait (slotHdr (slotOf b 0)) then
        if k.enginesHeld && !(s.clearCorr c).anyArm c then (s.clearCorr c).fault c FaultCode.tokenDeadlock k.pc 0 else s.clearCorr c
      else if k.roomFor b && !op.onPoison k then
        ((s.clearCorr c).setCore c ((k.consume (slotHdr (slotOf b 0))).enqueue b)).control c (slotHdr (slotOf b 0)) op
      else s.clearCorr c := by
  simp only [State.bundleIssue, running, now, if_neg (Nat.not_le.mpr within), if_neg (Bool.eq_false_iff.mp good), fetched, decodes, control,
    State.modCore]

end Running

theorem State.bundleIssue_idle {s : State} {c : Nat} (idle : (s.core c).ctl ≠ .running) : s.bundleIssue c = s := by
  unfold State.bundleIssue
  split
  · rename_i running; exact absurd running idle
  · rfl

/-! ### What the engine slots capture -/

@[simp] theorem Core.consume_mq (k : Core) (h : Hdr) : (k.consume h).mq = k.mq := by unfold Core.consume; split <;> rfl
@[simp] theorem Core.consume_vq (k : Core) (h : Hdr) : (k.consume h).vq = k.vq := by unfold Core.consume; split <;> rfl
@[simp] theorem Core.consume_xq (k : Core) (h : Hdr) : (k.consume h).xq = k.xq := by unfold Core.consume; split <;> rfl

theorem captureMatrix_consume (k : Core) (h : Hdr) (pc w : Nat) (op : MatrixOp) : captureMatrix (k.consume h) pc w op = captureMatrix k pc w op := by
  simp [captureMatrix]

theorem captureVec_consume (k : Core) (h : Hdr) (pc w : Nat) (op : VecOp) : captureVec (k.consume h) pc w op = captureVec k pc w op := by
  simp [captureVec]

theorem captureMove_consume (k : Core) (h : Hdr) (pc w : Nat) (op : MoveOp) : captureMove (k.consume h) pc w op = captureMove k pc w op := by
  simp [captureMove]

section Capture
variable (k : Core) (h : Hdr) {b : Word256}

theorem Core.enqueue_mq {op : MatrixOp} (decodes : matrixOp (slotOf b 1) = some op) :
    ((k.consume h).enqueue b).mq = k.mq ++ [captureMatrix k k.pc (slotOf b 1) op] := by
  simp only [Core.enqueue, decodes, Core.consume_mq, Core.consume_pc, captureMatrix_consume]

theorem Core.enqueue_vq {op : VecOp} (decodes : vecOp (slotOf b 2) = some op) :
    ((k.consume h).enqueue b).vq = k.vq ++ [captureVec k k.pc (slotOf b 2) op] := by
  simp only [Core.enqueue, decodes, Core.consume_vq, Core.consume_pc, captureVec_consume]

theorem Core.enqueue_xq {op : MoveOp} (decodes : moveOp (slotOf b 3) = some op) :
    ((k.consume h).enqueue b).xq = k.xq ++ [captureMove k k.pc (slotOf b 3) op] := by
  simp only [Core.enqueue, decodes, Core.consume_xq, Core.consume_pc, captureMove_consume]

end Capture

/-- Settles O23: a core that issues by what it fetches, and the queues by what each slot captures. -/
theorem bundlesIssueOnceTheyMay : Obligations.BundlesIssueOnceTheyMay := by
  intro s0 c s k b h w
  have row {t : State} (is : s0.bundleIssue c = t) : exec (.bundleIssue c) s0 = s0.answer t := congrArg s0.answer is
  refine ⟨fun idle => ?idle, fun running => ⟨fun past => ?range, fun within bad => ?parity, fun within good =>
    ⟨fun code slot faults => ?undecoded, fun decodes f op control => ⟨?issues, ?stays, ?deadlock, ?waits⟩⟩⟩, ?matrix, ?vector, ?move⟩
  case idle => exact (row (State.bundleIssue_idle idle)).trans (State.answer_same _ _ rfl)
  case range => exact row (State.bundleIssue_range running rfl past)
  case parity => exact row (State.bundleIssue_parity running rfl within bad)
  case undecoded => exact row (State.bundleIssue_undecoded running rfl within good rfl faults)
  case issues =>
    intro met room clear
    exact row ((State.bundleIssue_decoded running rfl within good rfl decodes control).trans
      ((if_neg (by rw [met]; decide)).trans (if_pos (by rw [room, clear]; decide))))
  case stays =>
    intro met cannot
    have cannot : ¬ (k.roomFor b && !op.onPoison k) = true := by
      obtain full | poisoned := cannot
      · rw [full]; exact Bool.false_ne_true
      · rw [poisoned]; simp
    exact row ((State.bundleIssue_decoded running rfl within good rfl decodes control).trans ((if_neg (by rw [met]; decide)).trans (if_neg cannot)))
  case deadlock =>
    intro unmet held noArm
    exact row ((State.bundleIssue_decoded running rfl within good rfl decodes control).trans
      ((if_pos (by rw [unmet]; decide)).trans (if_pos (by rw [held, noArm]; decide))))
  case waits =>
    intro unmet lives
    have lives : ¬ (k.enginesHeld && !s.anyArm c) = true := by
      obtain busy | armed := lives
      · rw [busy]; exact Bool.false_ne_true
      · rw [armed]; simp
    exact row ((State.bundleIssue_decoded running rfl within good rfl decodes control).trans ((if_pos (by rw [unmet]; decide)).trans (if_neg lives)))
  case matrix =>
    intro op decodes
    have fits : bits (w 1) 30 27 < 16 := Nat.mod_lt _ (by decide)
    exact ⟨_, Core.enqueue_mq k h decodes, rfl, rfl, rfl, rfl, Nat.mod_eq_of_lt fits, rfl, rfl⟩
  case vector => exact fun op decodes => ⟨_, Core.enqueue_vq k h decodes, rfl, rfl, rfl, rfl, rfl, rfl⟩
  case move => exact fun op decodes => ⟨_, Core.enqueue_xq k h decodes, rfl, rfl, rfl, rfl, rfl, rfl, rfl⟩

end Sys2Proof.Machine
end

section
/-! PROOFS. Completion points (R55), posts (R51, R53) and issuers that hold on a poisoned granule (R377). -/

namespace Sys2Proof.Machine

/-! ### What a completion point comes to -/

section Live
variable {s : State} {c : Nat} (live : (s.core c).enginesLive = true)
include live

theorem State.completionPoint_none {g : EngineKind} {i : Nat}
    (none : (if s.granted c ((s.core c).runUnits g i c) then (s.core c).retire g i else none) = none) : s.completionPoint c g i = s := by
  simp only [State.completionPoint, if_pos live, none]

theorem State.completionPoint_ungranted {g : EngineKind} {i : Nat} (held : s.granted c ((s.core c).runUnits g i c) = false) :
    s.completionPoint c g i = s :=
  State.completionPoint_none live (if_neg (Bool.eq_false_iff.mp held))

theorem State.completionPoint_idle {g : EngineKind} {i : Nat} (idle : (s.core c).retire g i = none) : s.completionPoint c g i = s :=
  State.completionPoint_none live (by rw [idle]; exact ite_self _)

/-- An instruction that retires, other than a move that has told a region that it is impure. -/
theorem State.completionPoint_retires {g : EngineKind} {i : Nat} {k' : Core} {h : Hdr} {pc slot : Nat}
    (grant : s.granted c ((s.core c).runUnits g i c) = true) (retires : (s.core c).retire g i = some (k', h, pc, slot))
    (pure : g = .move → ∀ r, (s.core c).xmove = some r → r.impure = false) :
    s.completionPoint c g i = (s.setCore c k').postHdr c h pc slot := by
  have plain : (g == .move && (match (s.core c).xmove with
      | some r => r.impure
      | none => false)) = false := by
    by_cases move : g = .move
    · cases is : (s.core c).xmove with
      | none => simp
      | some r => simp [pure move r is]
    · simp [move]
  simp only [State.completionPoint, if_pos live, if_pos grant, retires]
  rw [if_neg]
  exact fun impure => Bool.noConfusion (plain.symm.trans impure)

end Live

/-! ### Retirement, engine by engine -/

theorem Core.runUnits_matrix {k : Core} {i : Nat} {e : MatrixEntry} (entry : k.mq[i]? = some e) (c : Nat) : k.runUnits .matrix i c = e.units c := by
  simp only [Core.runUnits, entry, Option.map_some, Option.getD_some]

theorem Core.retireMatrix_some {k : Core} {i : Nat} {e : MatrixEntry} {r : MatrixRun} (entry : k.mq[i]? = some e) (run : k.mrun[i]? = some r)
    (inOrder : e.op.isMul = true → ∀ p ∈ k.mq.take i, p.op.isMul = false) :
    k.retireMatrix i = some ({ (k.resolve i e r).1 with
      mq := (k.resolve i e r).1.mq.eraseIdx i, mrun := (k.resolve i e r).1.mrun.eraseIdx i,
      mflags := (k.resolve i e r).1.mflags ||| (k.resolve i e r).2 }, e.hdr, e.pc, 1) := by
  have first : ¬ (e.op.isMul && (k.mq.take i).any fun p => p.op.isMul) = true := by
    intro both
    obtain ⟨mul, earlier⟩ := (Bool.and_eq_true _ _).mp both
    obtain ⟨p, mem, is⟩ := List.any_eq_true.mp earlier
    exact Bool.noConfusion ((inOrder mul p mem).symm.trans is)
  simp only [Core.retireMatrix, entry, run, if_neg first]

theorem Core.retireMatrix_none {k : Core} {i : Nat} (idle : k.mrun.length ≤ i) : k.retireMatrix i = none := by
  have none : k.mrun[i]? = none := List.getElem?_eq_none idle
  unfold Core.retireMatrix
  split
  · rename_i run; rw [none] at run; cases run
  · rfl

/-- An instruction under which no other issuer has written is what it was when it began. -/
theorem Core.resolve_undisturbed (k : Core) (i : Nat) (e : MatrixEntry) {r : MatrixRun} (untorn : r.torn = []) (unraced : r.raced = []) :
    k.resolve i e r = (k, r.flags) := by
  simp [Core.resolve, untorn, unraced]

theorem Core.retire_vector {k : Core} {e : VecEntry} {q : List VecEntry} {fl : BitVec 7} (queue : k.vq = e :: q) (run : k.vrun = some fl) (i : Nat) :
    k.retire .vector i = some ({ k with vq := q, vrun := none, mflags := k.mflags ||| fl }, e.hdr, e.pc, 2) := by
  simp only [Core.retire, queue, run]

theorem Core.retire_vector_idle {k : Core} (run : k.vrun = none) (i : Nat) : k.retire .vector i = none := by
  simp only [Core.retire, run]

theorem Core.retire_move {k : Core} {e : MoveEntry} {q : List MoveEntry} {fl : BitVec 7} (queue : k.xq = e :: q) (run : k.xrun = some fl) (i : Nat) :
    k.retire .move i = some ({ k with xq := q, xrun := none, xmove := none, mflags := k.mflags ||| fl }, e.hdr, e.pc, 3) := by
  simp only [Core.retire, queue, run]

theorem Core.retire_move_idle {k : Core} (run : k.xrun = none) (i : Nat) : k.retire .move i = none := by
  simp only [Core.retire, run]

/-! ### Issuers that hold, and posts -/

theorem State.granuleHold_notes {s : State} {c : Nat} {g : EngineKind} (holds : (s.core c).headHolds g = true)
    (new : (s.core c).held.contains g = false) :
    s.granuleHold c g = s.setCore c { s.core c with held := (s.core c).held ++ [g] } :=
  if_pos (by rw [holds, new]; rfl)

theorem State.granuleHold_same {s : State} {c : Nat} {g : EngineKind} (same : (s.core c).headHolds g = false ∨ (s.core c).held.contains g = true) :
    s.granuleHold c g = s :=
  if_neg (by obtain free | noted := same <;> simp_all)

theorem Core.live_of_enginesLive {k : Core} (live : k.enginesLive = true) : k.ctl.live = true := by
  unfold Core.enginesLive at live
  split at live
  · rename_i is; rw [is]; rfl
  · rename_i is; rw [is]; rfl
  · rename_i is; rw [is]; rfl
  · cases live

/-- A token that holds 63 takes no post (R53). -/
theorem State.tokenPost_full {s : State} {c : Nat} {t : Fin 16} (live : (s.core c).ctl.live = true) (full : 63 ≤ (s.core c).token t) (pc slot : Nat) :
    s.tokenPost c t pc slot = (s, [.fault c FaultCode.tokenOverflow pc slot]) := by
  unfold State.tokenPost
  dsimp only
  split
  · rename_i is; rw [is] at live; cases live
  · rename_i is; rw [is] at live; cases live
  · rename_i is; rw [is] at live; cases live
  · exact if_pos full

/-- Settles O31: each engine by whether what it runs on is granted and something executes, and a post by the token's room. -/
theorem instructionsCompleteAndPost : Obligations.InstructionsCompleteAndPost := by
  intro s c live k
  have done {g : Executing} {t : State} (is : exec (.instructionCompletionPoint c g) s = s.answer t) (comes : t = s) :
      exec (.instructionCompletionPoint c g) s = .next s := is.trans ((congrArg s.answer comes).trans (State.answer_same _ _ rfl))
  refine ⟨?matrix, ?vector, ?move, ?matrixHeld, ?vectorHeld, ?matrixIdle, ?vectorIdle, ?moveIdle, ?notes, ?same, ?posts⟩
  case matrix =>
    intro i e r entry run grant inOrder
    refine ⟨Core.resolve_undisturbed k i.val e, congrArg s.answer 
      (State.completionPoint_retires live (g := .matrix) ?_ (Core.retireMatrix_some entry run inOrder) ?_)⟩
    · exact (congrArg (s.granted c) (Core.runUnits_matrix entry c)).trans grant
    · exact fun move => nomatch move
  case vector =>
    exact fun e q fl queue run grant => congrArg s.answer (State.completionPoint_retires live (g := .vector) grant (Core.retire_vector queue run 0)
      fun move => nomatch move)
  case move =>
    exact fun e q fl queue run pure => congrArg s.answer (State.completionPoint_retires live (g := .move) rfl (Core.retire_move queue run 0) fun _ => pure)
  case matrixHeld =>
    intro i e entry held
    exact done rfl (State.completionPoint_ungranted live (g := .matrix) ((congrArg (s.granted c) (Core.runUnits_matrix entry c)).trans held))
  case vectorHeld => exact fun held => done rfl (State.completionPoint_ungranted live (g := .vector) held)
  case matrixIdle => exact fun i idle => done rfl (State.completionPoint_idle live (g := .matrix) (Core.retireMatrix_none idle))
  case vectorIdle => exact fun idle => done rfl (State.completionPoint_idle live (g := .vector) (Core.retire_vector_idle idle 0))
  case moveIdle => exact fun idle => done rfl (State.completionPoint_idle live (g := .move) (Core.retire_move_idle idle 0))
  case notes => exact fun g holds new => (congrArg s.answer (State.granuleHold_notes holds new)).trans (State.answer_same _ _ rfl)
  case same => exact fun g same => (congrArg s.answer (State.granuleHold_same same)).trans (State.answer_same _ _ rfl)
  case posts =>
    intro h t pc slot post
    have live := Core.live_of_enginesLive live
    refine ⟨fun room => ?_, fun full => State.tokenPost_full live full pc slot⟩
    simp only [State.postHdr, post]
    exact State.settle_post s c t pc slot live room

end Sys2Proof.Machine
end

section
/-! PROOFS. Answers, timeouts and allocator answers reach a blocked control unit (R62, R63, R81). -/

namespace Sys2Proof.Machine

section Blocked
variable {s : State} {c : Nat} {b : Blocked} (blocked : (s.core c).ctl = .blocked b)
include blocked

theorem State.syncAnswer_come {v : Word64} (answer : b.answer = some v) : s.syncAnswer c = s.unblock c b.hdr b.op.dest v := by
  simp only [State.syncAnswer, blocked, answer]

/-- The answer of a home hub of this module, taken as it reaches the core. -/
theorem State.syncAnswer_local (waits : b.answer = none) {xd : Fin 32} {v : Word64} {t : State} {es : List Ev}
    (answers : s.localAnswer c b = some (xd, v, t, es)) : s.syncAnswer c = (t.unblock c b.hdr xd v).settle es := by
  simp only [State.syncAnswer, blocked, waits, answers]

theorem State.waitTimeout_blocked (waits : b.answer = none) {d : Nat} (deadline : b.deadline = some d) :
    s.waitTimeout c =
      (((s.advanceTo d).dropWaits fun w => w == .core c).cancelRemote c).unblock c b.hdr b.op.dest (BitVec.ofNat 64 Sync.timeout) := by
  obtain ⟨op, h, answer, until_⟩ := b
  cases waits
  cases deadline
  simp only [State.waitTimeout, blocked]

/-- The oldest call of a cluster is answered, and its core goes on. -/
theorem State.allocatorAnswer_blocked {g : Nat} {call : AllocCall} {rest : List AllocCall} (calls : (s.cluster g).calls = call :: rest)
    (core : call.core.val = c) :
    let u := s.modCluster g fun x => { x with calls := rest }
    s.allocatorAnswer g =
      if call.isFree then
        let r := u.release (s.core c).ctx (call.arg.toNat % 2 ^ 40)
        ((r.2.1.unblock c b.hdr b.op.dest (BitVec.ofNat 64 r.1)).settle r.2.2).holdSuspect c
      else
        let r := u.allocate (s.core c).ctx g call.arg.toNat call.imm.toNat
        (r.2.2.unblock c b.hdr b.op.dest (allocResult r.1 r.2.1)).holdSuspect c := by
  intro u
  have same : u.core c = s.core c := rfl
  subst core
  simp only [State.allocatorAnswer, calls]
  simp only [show (s.modCluster g fun x => { x with calls := rest }) = u from rfl, same, blocked]

end Blocked

/-- A control unit that goes on and posts nothing. -/
theorem State.unblock_quiet (t : State) (c : Nat) {h : Hdr} (post : h.post = none) (xd : Fin 32) (v : Word64) :
    t.unblock c h xd v = t.modCore c fun k => ({ k with ctl := .running }.setX xd v).pass (t.core c).pc := by
  simp only [State.unblock, State.finishReg, State.finishCtl, State.postHdr, post, State.modCore_modCore]

/-- Settles O32: by whether an answer has come, and from where it comes otherwise. -/
theorem answersUnblockTheControlUnit : Obligations.AnswersUnblockTheControlUnit := by
  intro s c b blocked k
  refine ⟨fun v answer => congrArg s.answer (State.syncAnswer_come blocked answer), fun waits xd xa xb => ⟨?fsig, ?fadd, ?fread, ?rfread, ?timeout⟩,
    fun g call rest calls core lives => ?allocator, fun t => ⟨fun well => if_neg (Bool.eq_false_iff.mp well), fun suspect => if_pos suspect⟩,
    fun t v _ post => State.unblock_quiet t c post _ _⟩
  case fsig =>
    intro op
    refine congrArg s.answer (State.syncAnswer_local blocked waits ?_)
    simp only [State.localAnswer, op]
    rfl
  case fadd =>
    intro op
    refine congrArg s.answer (State.syncAnswer_local blocked waits ?_)
    simp only [State.localAnswer, op]
    rfl
  case fread =>
    intro op
    refine congrArg s.answer ((State.syncAnswer_local blocked waits (es := []) ?_).trans (State.settle_nil _))
    simp only [State.localAnswer, op]
    rfl
  case rfread =>
    intro op here
    refine congrArg s.answer ((State.syncAnswer_local blocked waits (es := []) ?_).trans (State.settle_nil _))
    simp only [State.localAnswer, op]
    exact if_pos here
  case timeout => exact fun d deadline => congrArg s.answer (State.waitTimeout_blocked blocked waits deadline)
  case allocator =>
    exact congrArg s.answer ((if_neg (Bool.eq_false_iff.mp lives)).trans (State.allocatorAnswer_blocked blocked calls (congrArg Fin.val core)))

end Sys2Proof.Machine
end

section
/-! PROOFS. The allocator: what first fit gives, and what a successful ALLOC records (R78, R79). -/

namespace Sys2Proof.Machine

/-! ### Rounding up -/

theorem roundUp_mod (a b : Nat) : roundUp a b % b = 0 := Nat.mul_mod_left _ _

theorem le_roundUp (a : Nat) {b : Nat} (pos : 0 < b) : a ≤ roundUp a b := by
  unfold roundUp ceilDiv
  have split := Nat.div_add_mod' (a + b - 1) b
  have small := Nat.mod_lt (a + b - 1) pos
  omega

/-! ### First fit -/

/-- Range `r` and `n` bytes at `a` have no byte in common. -/
def Apart (a n : Nat) (r : Nat × Nat) : Prop := a + n ≤ r.1 ∨ r.1 + r.2 ≤ a

/-- The search for a range that overlaps, continued after one that has been found. -/
def clashStep (a n : Nat) (b : Option Nat) (r : Nat × Nat) : Option Nat :=
  if r.1 < a + n ∧ a < r.1 + r.2 then some (max (b.getD 0) (r.1 + r.2)) else b

theorem clash_eq (taken : List (Nat × Nat)) (a n : Nat) : clash taken a n = taken.foldl (clashStep a n) none := rfl

theorem clashStep_apart {a n : Nat} {r : Nat × Nat} (apart : Apart a n r) (b : Option Nat) : clashStep a n b r = b :=
  if_neg fun both => by obtain h | h := apart <;> omega

theorem clashStep_overlap {a n : Nat} {r : Nat × Nat} (overlaps : ¬ Apart a n r) (b : Option Nat) :
    clashStep a n b r = some (max (b.getD 0) (r.1 + r.2)) :=
  if_pos (by unfold Apart at overlaps; omega)

theorem foldl_clashStep_some {a n : Nat} (l : List (Nat × Nat)) {b : Nat} (above : a < b) : ∃ e, l.foldl (clashStep a n) (some b) = some e ∧ a < e := by
  induction l generalizing b with
  | nil => exact ⟨b, rfl, above⟩
  | cons r l ih =>
    by_cases apart : Apart a n r
    · rw [List.foldl_cons, clashStep_apart apart]
      exact ih above
    · rw [List.foldl_cons, clashStep_overlap apart]
      exact ih (Nat.lt_of_lt_of_le above (Nat.le_max_left _ _))

/-- Either no range of a list overlaps `n` bytes at `a`, or the last end of one that does lies after `a`. -/
theorem clash_cases (taken : List (Nat × Nat)) (a n : Nat) :
    (clash taken a n = none ∧ ∀ r ∈ taken, Apart a n r) ∨ ∃ e, clash taken a n = some e ∧ a < e := by
  rw [clash_eq]
  induction taken with
  | nil => exact .inl ⟨rfl, fun _ mem => nomatch mem⟩
  | cons r l ih =>
    by_cases apart : Apart a n r
    · rw [List.foldl_cons, clashStep_apart apart]
      obtain ⟨none, all⟩ | some := ih
      · exact .inl ⟨none, List.forall_mem_cons.mpr ⟨apart, all⟩⟩
      · exact .inr some
    · rw [List.foldl_cons, clashStep_overlap apart]
      refine .inr (foldl_clashStep_some l (Nat.lt_of_lt_of_le ?_ (Nat.le_max_right _ _)))
      unfold Apart at apart
      omega

theorem clash_none {taken : List (Nat × Nat)} {a n : Nat} (none : clash taken a n = none) : ∀ r ∈ taken, Apart a n r := by
  obtain ⟨-, all⟩ | ⟨e, some, -⟩ := clash_cases taken a n
  · exact all
  · rw [none] at some; cases some

/-- What first fit gives: aligned, not before its start, below the top, and apart from every range taken. -/
theorem firstFit_some {taken : List (Nat × Nat)} {align n top : Nat} (pos : 0 < align) {fuel a x : Nat} (aligned : a % align = 0)
    (fits : firstFit taken align n top fuel a = some x) : x % align = 0 ∧ a ≤ x ∧ x + n ≤ top ∧ ∀ r ∈ taken, Apart x n r := by
  induction fuel generalizing a with
  | zero =>
    unfold firstFit at fits
    split at fits
    · rename_i ok
      cases fits
      exact ⟨aligned, Nat.le_refl _, ok.1, clash_none (Option.isNone_iff_eq_none.mp ok.2)⟩
    · cases fits
  | succ fuel ih =>
    unfold firstFit at fits
    split at fits
    · cases fits
    · rename_i inside
      split at fits
      · rename_i none
        cases fits
        exact ⟨aligned, Nat.le_refl _, Nat.not_lt.mp inside, clash_none none⟩
      · rename_i e some
        obtain ⟨none, -⟩ | ⟨e', some', after⟩ := clash_cases taken a n
        · rw [none] at some; cases some
        · obtain rfl : e = e' := Option.some.inj (some.symm.trans some')
          obtain ⟨mod, start, below, apart⟩ := ih (roundUp_mod e align) fits
          exact ⟨mod, Nat.le_trans (Nat.le_of_lt after) (Nat.le_trans (le_roundUp e pos) start), below, apart⟩

/-! ### ALLOC -/

theorem allocAlign_pos {imm align : Nat} (asks : allocAlign imm = some align) : 0 < align := by
  unfold allocAlign at asks
  dsimp only at asks
  split at asks
  · cases asks; decide
  · split at asks
    · cases asks; exact Nat.two_pow_pos _
    · cases asks

theorem State.placeIn_some {s : State} {p : Nat} {g : Segment} {align n a : Nat} (pos : 0 < align) (placed : s.placeIn p g align n = some a) :
    a % align = 0 ∧ segStart g ≤ a ∧ a + n ≤ segStart g + (s.part p).lay.segPages g * 4096 ∧ ∀ r ∈ s.takenRanges (s.part p), Apart a n r := by
  unfold State.placeIn at placed
  dsimp only at placed
  split at placed
  · cases placed
  · obtain ⟨mod, start, below, apart⟩ := firstFit_some pos (roundUp_mod _ _) placed
    exact ⟨mod, Nat.le_trans (le_roundUp _ pos) start, below, apart⟩

/-- An ALLOC that is answered OK: its alignment, and the range that it was given. -/
theorem State.allocate_ok {s t : State} {n cl size imm a : Nat} (ok : s.allocate n cl size imm = (0, a, t)) :
    ∃ align, allocAlign imm = some align ∧ size ≠ 0 ∧
      s.placeIn (s.ctx n).part (if bit imm 0 then .near cl else .interleaved) align (roundUp size 4096) = some a ∧
      t = s.grant (s.ctx n).part a (roundUp size 4096) n (.heap (bits imm 7 4)) := by
  have refused {st : Nat} (fails : st ≠ 0) (u : State) : (st, 0, u) ≠ (0, a, t) := fun same => fails (congrArg Prod.fst same)
  unfold State.allocate at ok
  dsimp only at ok
  split at ok
  · exact absurd ok (refused (by decide) s)
  · rename_i align asks
    split at ok
    · exact absurd ok (refused (by decide) s)
    rename_i args
    split at ok
    · exact absurd ok (refused (by decide) s)
    split at ok
    · exact absurd ok (refused (by decide) s)
    split at ok
    · exact absurd ok (refused (by decide) s)
    · rename_i x placed
      cases ok
      exact ⟨align, asks, fun zero => args (.inr (.inr (.inl zero))), placed, rfl⟩

theorem State.grant_allocs (s : State) (p base n ctx : Nat) (kind : AllocKind) :
    ((s.grant p base n ctx kind).part p).allocs = (s.part p).allocs ++ [⟨base, n, ctx, kind⟩] := by
  obtain ⟨cs, fresh⟩ := s.freshen_eq p base n
  unfold State.grant
  rw [fresh, State.part_modPart, if_pos rfl]
  rfl

/-- Settles O33: what is given is a first fit among the ranges taken, which every live allocation and barred page is one of. -/
theorem allocationsAreAlignedAndDisjoint : Obligations.AllocationsAreAlignedAndDisjoint := by
  intro s t n cl size imm a ok p q bytes
  obtain ⟨align, asks, some_, placed, rfl⟩ := State.allocate_ok ok
  obtain ⟨mod, start, below, apart⟩ := State.placeIn_some (allocAlign_pos asks) placed
  refine ⟨align, asks, mod, ?pos, ⟨start, below⟩, fun x mem => ?allocs, fun b mem => ?barred, State.grant_allocs s p a _ n _⟩
  case pos => simp only [bytes]; omega
  case allocs =>
    refine apart (x.base, x.size) ?_
    simp only [State.takenRanges, List.mem_append, List.mem_cons, List.mem_map]
    exact .inl (.inl (.inr ⟨x, mem, rfl⟩))
  case barred =>
    refine apart (b, 4096) ?_
    simp only [State.takenRanges, List.mem_append, List.mem_map]
    exact .inr ⟨b, mem, rfl⟩

end Sys2Proof.Machine
end

section
/-! PROOFS. The move unit inside a core and its cluster: its checks, what it reads, and what each move leaves (R69, R70, R148). -/

namespace Sys2Proof.Machine

theorem State.cluster_setCore (s : State) (c g : Nat) (k : Core) : (s.setCore c k).cluster g = s.cluster g := rfl
theorem State.engine_setCore (s : State) (c e : Nat) (k : Core) : (s.setCore c k).engine e = s.engine e := rfl

/-! ### Reads of local memory -/

@[simp] theorem Core.consume_poisoned (k : Core) (h : Hdr) (a n : Nat) : (k.consume h).poisoned a n = k.poisoned a n := by
  unfold Core.consume; split <;> rfl

/-- Reads of ranges that hold no poisoned granule and no double-bit error: each range as it stands, the core keeping its memory. -/
theorem Core.localReads_clean {rs : List (Nat × Nat)} {k : Core} (clean : ∀ r ∈ rs, k.poisoned r.1 r.2 = false ∧ k.lmDouble r.1 r.2 = false) :
    ∃ j fl, k.localReads rs = some (rs.map fun r => k.peek r.1 r.2, j, fl) ∧ j.lm = k.lm ∧ j.ctx = k.ctx := by
  induction rs generalizing k with
  | nil => exact ⟨k, 0, rfl, rfl, rfl⟩
  | cons r rs ih =>
    obtain ⟨a, n⟩ := r
    obtain ⟨⟨unpoisoned, noDouble⟩, others⟩ := List.forall_mem_cons.mp clean
    obtain ⟨j, fl, reads, lm, ctx⟩ := ih (k := k.lmCorrect a n) others
    have first : k.localRead a n = .ok (k.peek a n) (k.lmCorrect a n) (flagIf (k.lmSingle a n) flLmCorr) := by
      simp only [Core.localRead, unpoisoned, noDouble, Bool.false_eq_true, if_false]
    refine ⟨j, flagIf (k.lmSingle a n) flLmCorr ||| fl, ?_, lm, ctx⟩
    simp only [Core.localReads, first, reads]
    rfl

theorem Core.moveFlags_lm (k : Core) (fl : BitVec 7) : (k.moveFlags fl).lm = k.lm := by unfold Core.moveFlags; split <;> rfl
theorem Core.moveFlags_ctx (k : Core) (fl : BitVec 7) : (k.moveFlags fl).ctx = k.ctx := by unfold Core.moveFlags; split <;> rfl

/-- What lines written to local memory leave there depends on what stood there alone. -/
theorem Core.writeLinesAt_lm {k j : Core} (same : j.lm = k.lm) (a stride : Nat) (ls : List (List Byte)) :
    (j.writeLinesAt a stride ls).lm = (k.writeLinesAt a stride ls).lm := by
  induction ls generalizing k j a with
  | nil => exact same
  | cons l ls ih => exact ih (by rw [Core.lmWrite_lm, Core.lmWrite_lm, same]) _

/-! ### What a move reads and leaves, by its opcode -/

section Kinds
variable (k : Core) {e : MoveEntry}

theorem moveReads_copy (is : e.op = .mcpy ∨ e.op = .mcsw) : moveReads k e = [(e.xs.toNat, e.xl.toNat)] := by
  obtain is | is := is <;> simp only [moveReads, is]

theorem moveReads_mgath (is : e.op = .mgath) : moveReads k e =
    (e.xs.toNat, 4 * e.xl.toNat) :: (gatherOffsets k e).map fun o =>
      ((Desc.of e.td).base + o, ((Fmt.ofCode (Desc.of e.td).fmt).map fun f => (Desc.of e.td).lineBytes f).getD 0) := by
  simp only [moveReads, is]
  cases Fmt.ofCode (Desc.of e.td).fmt <;> rfl

theorem moveReads_mtrn (is : e.op = .mtrn) : moveReads k e = (rangeFrom 0 (Desc.of e.td).lines).map fun i =>
    ((Desc.of e.td).base + i * (Desc.of e.td).rstride, ((Fmt.ofCode (Desc.of e.td).fmt).map fun f => (Desc.of e.td).lineBytes f).getD 0) := by
  simp only [moveReads, is]
  cases Fmt.ofCode (Desc.of e.td).fmt <;> rfl

theorem moveReads_mstrm (is : e.op = .mstrm) : moveReads k e = [(e.xs.toNat, 128)] := by
  simp only [moveReads, is]

theorem moveLocal_mcpy (is : e.op = .mcpy) (bs : List (List Byte)) : moveLocal k e bs = k.lmWrite e.xd.toNat bs.flatten := by
  simp only [moveLocal, is]

theorem moveLocal_mgath (is : e.op = .mgath) (bs : List (List Byte)) :
    moveLocal k e bs = k.writeLinesAt e.xd.toNat (Desc.of e.td).rstride (bs.drop 1) := by
  simp only [moveLocal, is]

theorem moveLocal_mtrn (is : e.op = .mtrn) (bs : List (List Byte)) : moveLocal k e bs = k.writeLinesAt e.xd.toNat (Desc.of e.td).rstride
    (transposeLines (((Fmt.ofCode (Desc.of e.td).fmt).map fun f => f.bits).getD 8) (Desc.of e.td).lineElems bs) := by
  simp only [moveLocal, is]
  cases Fmt.ofCode (Desc.of e.td).fmt <;> rfl

end Kinds

/-! ### The checks (R70) -/

section Checks
variable {s : State} {c : Nat} {k : Core} {e : MoveEntry}

theorem State.moveFault_mcpy (is : e.op = .mcpy) : s.moveFault c k e =
    if e.xs.toNat % 32 ≠ 0 ∨ e.xd.toNat % 32 ≠ 0 ∨ e.xl.toNat % 32 ≠ 0 then some FaultCode.align
    else if localOk e.xs.toNat e.xl.toNat && localOk e.xd.toNat e.xl.toNat then none else some FaultCode.localRange := by
  simp only [State.moveFault, moveLocalFault, is]

/-- Reads of scratch and of the partition: the source in whole lines, the destination in granules. -/
theorem State.moveFault_reads_unaligned (is : e.op = .mcsr ∨ e.op = .mprd)
    (unaligned : e.xs.toNat % 64 ≠ 0 ∨ e.xd.toNat % 32 ≠ 0 ∨ e.xl.toNat % 64 ≠ 0) : s.moveFault c k e = some FaultCode.align := by
  obtain is | is := is <;> simp only [State.moveFault, is, if_pos unaligned]

theorem State.moveFault_writes_unaligned (is : e.op = .mcsw ∨ e.op = .mpwr)
    (unaligned : e.xd.toNat % 64 ≠ 0 ∨ e.xs.toNat % 32 ≠ 0 ∨ e.xl.toNat % 64 ≠ 0) : s.moveFault c k e = some FaultCode.align := by
  obtain is | is := is <;> simp only [State.moveFault, is, if_pos unaligned]

theorem localOk_false {a n : Nat} (some_ : n ≠ 0) (past : localTop < a + n - 1) : localOk a n = false := by
  simp only [localOk, Bool.or_eq_false_iff, beq_eq_false_iff_ne, decide_eq_false_iff_not]
  exact ⟨some_, Nat.not_le.mpr past⟩

theorem localOk_true {a n : Nat} (inside : a + n ≤ localTop + 1) : localOk a n = true := by
  simp only [localOk, Bool.or_eq_true, beq_iff_eq, decide_eq_true_eq]
  exact .inr (by omega)

theorem State.moveFault_mcsr_range (is : e.op = .mcsr) (aligned : e.xs.toNat % 64 = 0 ∧ e.xd.toNat % 32 = 0 ∧ e.xl.toNat % 64 = 0)
    (inside : e.xd.toNat + e.xl.toNat ≤ localTop + 1) (some_ : e.xl.toNat ≠ 0)
    (past : (16 - (s.cluster (clusterOf c)).csmWays) * 524288 < e.xs.toNat + e.xl.toNat) : s.moveFault c k e = some FaultCode.csmRange := by
  obtain ⟨source, dest, length⟩ := aligned
  have outside : (s.cluster (clusterOf c)).scratchOk e.xs.toNat e.xl.toNat = false := by
    simp only [Cluster.scratchOk, Bool.or_eq_false_iff, beq_eq_false_iff_ne, decide_eq_false_iff_not]
    exact ⟨some_, Nat.not_le.mpr past⟩
  simp [State.moveFault, is, source, dest, length, localOk_true inside, outside]

end Checks

/-! ### The head of the move queue -/

theorem exec_ofMove (c : CoreId) (op : MoveOp) (s : State) : exec (Instr.ofMove c op) s = s.answer (s.moveStep c op) := by
  cases op <;> rfl

section AtMove
variable {s : State} {c : Nat} {e : MoveEntry} (head : (s.core c).atMove e)
include head

theorem State.moveStep_other {op : MoveOp} (other : op ≠ e.op) : s.moveStep c op = s := by
  obtain ⟨live, idle, -, -, q, queue⟩ := head
  have none : (s.core c).moveHead op = none := by
    simp [Core.moveHead, live, idle, queue, Ne.symm other]
  simp only [State.moveStep, none]

theorem Core.moveHead_at : (s.core c).moveHead e.op = some e := by
  obtain ⟨live, idle, new, grant, q, queue⟩ := head
  simp [Core.moveHead, live, idle, new, queue, grant]

theorem State.moveStep_fault {code : Nat} (fault : s.moveFault c (s.core c) e = some code) :
    s.moveStep c e.op = (s.setCore c ((s.core c).consume e.hdr)).fault c code e.pc 3 := by
  have new := head.2.2.1
  simp only [State.moveStep, Core.moveHead_at head, new, Option.isSome_none, Bool.false_eq_true, if_false, fault]

/-- A move whose checks are met, by its opcode. -/
theorem State.moveStep_passes (ok : s.moveFault c (s.core c) e = none) :
    (e.op = .mcpy ∨ e.op = .mgath ∨ e.op = .mtrn → s.moveStep c e.op = s.moveInCore c e) ∧
    (e.op = .mcsr → s.moveStep c e.op = s.moveFromScratch c e) ∧
    (e.op = .mcsw → s.moveStep c e.op = s.moveToScratch c e) ∧
    (e.op = .mstrm → s.moveStep c e.op = s.moveStream c e) := by
  have new := head.2.2.1
  have at_ := Core.moveHead_at head
  refine ⟨?_, fun is => ?_, fun is => ?_, fun is => ?_⟩
  · rintro (is | is | is) <;>
      (rw [is] at at_ ⊢; simp only [State.moveStep, at_, new, Option.isSome_none, Bool.false_eq_true, if_false, ok])
  all_goals (rw [is] at at_ ⊢; simp only [State.moveStep, at_, new, Option.isSome_none, Bool.false_eq_true, if_false, ok])

theorem Core.beginMove_at : (s.core c).beginMove e = { (s.core c).consume e.hdr with xmove := some ⟨0, [], 0, false⟩ } := by
  have new := head.2.2.1
  simp only [Core.beginMove, new]

variable (clean : ∀ r ∈ moveReads (s.core c) e, (s.core c).poisoned r.1 r.2 = false ∧ (s.core c).lmDouble r.1 r.2 = false)
include clean

/-- A move whose local source is clean goes on with the bytes of every range that it reads, on a core with the memory it had. -/
theorem State.withLocal_clean (f : List (List Byte) → State → State) : ∃ j : Core, j.lm = (s.core c).lm ∧ j.ctx = (s.core c).ctx ∧
    s.withLocal c e f = f ((moveReads (s.core c) e).map fun r => (s.core c).peek r.1 r.2) (s.setCore c j) := by
  have unpoisoned : ¬ ((moveReads (s.core c) e).any fun r => (s.core c).poisoned r.1 r.2) = true := by
    rw [List.any_eq_true]
    exact fun ⟨r, mem, is⟩ => Bool.noConfusion ((clean r mem).1.symm.trans is)
  have noDouble : ¬ ((moveReads (s.core c) e).any fun r => (s.core c).lmDouble r.1 r.2) = true := by
    rw [List.any_eq_true]
    exact fun ⟨r, mem, is⟩ => Bool.noConfusion ((clean r mem).2.symm.trans is)
  have begun : ∀ r ∈ moveReads (s.core c) e,
      ((s.core c).beginMove e).poisoned r.1 r.2 = false ∧ ((s.core c).beginMove e).lmDouble r.1 r.2 = false := by
    rw [Core.beginMove_at head]
    exact fun r mem => ⟨(Core.consume_poisoned _ _ _ _).trans (clean r mem).1, (Core.consume_lmDouble _ _ _ _).trans (clean r mem).2⟩
  obtain ⟨j, fl, reads, lm, ctx⟩ := Core.localReads_clean begun
  refine ⟨j.moveFlags fl, ?lm, ?ctx, ?comes⟩
  case lm => rw [Core.moveFlags_lm, lm, Core.beginMove_at head]; exact Core.consume_lm _ _
  case ctx => rw [Core.moveFlags_ctx, ctx, Core.beginMove_at head]; exact Core.consume_ctx _ _
  case comes =>
    have same : (fun r : Nat × Nat => ((s.core c).beginMove e).peek r.1 r.2) = fun r => (s.core c).peek r.1 r.2 := by
      rw [Core.beginMove_at head]
      exact funext fun r => Core.consume_peek _ _ _ _
    simp only [State.withLocal, if_neg unpoisoned, if_neg noDouble, reads, same]

/-- A move inside the core leaves what its opcode makes of a core with the memory that stood there. -/
theorem State.moveInCore_clean : ∃ j : Core, j.lm = (s.core c).lm ∧
    s.moveInCore c e = s.setCore c (moveLocal j e ((moveReads (s.core c) e).map fun r => (s.core c).peek r.1 r.2)).endMove := by
  obtain ⟨j, lm, -, comes⟩ := State.withLocal_clean head clean fun bs s => s.modCore c fun k => (moveLocal k e bs).endMove
  refine ⟨j, lm, comes.trans ?_⟩
  simp only [State.modCore, State.core_setCore, if_true, State.setCore_setCore]

/-- MCSW writes the bytes of its one range to the scratch of the core's cluster. -/
theorem State.moveToScratch_clean (is : e.op = .mcsw) : ∃ j : Core, j.lm = (s.core c).lm ∧ s.moveToScratch c e =
    (s.modCluster (clusterOf c) fun g => g.scratchWrite e.xd.toNat ((s.core c).peek e.xs.toNat e.xl.toNat)).setCore c j.endMove := by
  obtain ⟨j, lm, -, comes⟩ := State.withLocal_clean head clean fun bs s =>
    (s.modCluster (clusterOf c) fun g => g.scratchWrite e.xd.toNat bs.flatten).modCore c Core.endMove
  refine ⟨j, lm, comes.trans ?_⟩
  have own : ((s.setCore c j).modCluster (clusterOf c) fun g => g.scratchWrite e.xd.toNat ((s.core c).peek e.xs.toNat e.xl.toNat)).core c = j :=
    (State.core_setCore s c c j).trans (if_pos rfl)
  simp only [moveReads_copy _ (.inr is), List.map_cons, List.map_nil, List.flatten_cons, List.flatten_nil, List.append_nil, State.modCore, own]
  exact State.setCore_setCore (s.modCluster (clusterOf c) fun g => g.scratchWrite e.xd.toNat ((s.core c).peek e.xs.toNat e.xl.toNat)) c j j.endMove

/-- MSTRM puts the words of its descriptor in a place of the engine that it names. -/
theorem State.moveStream_clean (is : e.op = .mstrm) (room : (s.engine (4 * clusterOf c + e.se.val)).queue.length < streamQueuePlaces) :
    ∃ j : Core, j.lm = (s.core c).lm ∧ ∃ q : QueuedDesc, q.ctx = (s.core c).ctx ∧ q.cls = e.cls ∧
      q.desc = ((chunks 8 16 ((s.core c).peek e.xs.toNat 128)).map fun b => BitVec.ofNat 64 (leNat b)) ∧ s.moveStream c e =
        (s.modEngine (4 * clusterOf c + e.se.val) fun x => { x with queue := x.queue ++ [q] }).setCore c j.endMove := by
  obtain ⟨j, lm, ctx, comes⟩ := State.withLocal_clean head clean fun bs s =>
    (s.modEngine (4 * clusterOf c + e.se.val) fun x => { x with
      queue := x.queue ++ [⟨(chunks 8 16 bs.flatten).map fun b => BitVec.ofNat 64 (leNat b), (s.core c).ctx, e.cls, c, (s.core c).runSeq⟩] }).modCore
        c Core.endMove
  refine ⟨j, lm, ⟨_, j.ctx, e.cls, c, j.runSeq⟩, ctx, rfl, rfl, ((if_neg (Nat.not_le.mpr room)).trans comes).trans ?_⟩
  have own (f : StreamEngine → StreamEngine) : ((s.setCore c j).modEngine (4 * clusterOf c + e.se.val) f).core c = j :=
    (State.core_setCore s c c j).trans (if_pos rfl)
  simp only [moveReads_mstrm _ is, List.map_cons, List.map_nil, List.flatten_cons, List.flatten_nil, List.append_nil, State.core_setCore, if_true,
    State.modCore, own]
  exact State.setCore_setCore (s.modEngine _ fun x => { x with queue := x.queue ++ [_] }) c j j.endMove

omit clean in
/-- MCSR writes the bytes of scratch to local memory, where no double-bit error lies under them (R214). -/
theorem State.moveFromScratch_clean (noDouble : wordsIn (s.cluster (clusterOf c)).csmBad2 e.xs.toNat e.xl.toNat = []) :
    ∃ (j : Core) (bad : List Nat), j.lm = (s.core c).lm ∧ s.moveFromScratch c e =
      (s.modCluster (clusterOf c) fun g => { g with csmBad1 := bad }).setCore c
        (j.lmWrite e.xd.toNat (Mem.readBytes (s.cluster (clusterOf c)).scratch e.xs.toNat e.xl.toNat)).endMove := by
  have clear : ¬ (!(wordsIn (s.cluster (clusterOf c)).csmBad2 e.xs.toNat e.xl.toNat).isEmpty) = true := by rw [noDouble]; decide
  simp only [State.moveFromScratch, if_neg clear]
  refine ⟨_, _, ?_, rfl⟩
  refine (Core.moveFlags_lm _ _).trans ?_
  rw [show (s.modCluster _ _).core c = s.core c from rfl, Core.beginMove_at head]
  exact Core.consume_lm _ _

end AtMove

/-- A state that differs in one core, as that core. -/
theorem OnlyCore.setCore (s : State) (c : Nat) (k : Core) : OnlyCore c s (s.setCore c k) := by
  unfold OnlyCore
  rw [State.core_setCore, if_pos rfl]

/-- Settles O29: a move by its checks, and one that meets them by what its opcode reads and leaves. -/
theorem movesInsideACluster : Obligations.MovesInsideACluster := by
  intro s c e head k xs xd n d rs w lineB cl clean fails
  have fault {code : Nat} (is : s.moveFault c k e = some code) : fails code :=
    (exec_ofMove c e.op s).trans (congrArg s.answer (State.moveStep_fault head is))
  refine ⟨fun op other => ?other, fun code => fault, fun is bad => ?mcpyAlign, fun is aligned some_ past => ?mcpyRange,
    fun is bad => fault (State.moveFault_reads_unaligned is bad), fun is bad => fault (State.moveFault_writes_unaligned is bad),
    fun is aligned inside some_ past => fault (State.moveFault_mcsr_range is aligned inside some_ past), fun ok cleared => ?passes⟩
  case other => exact (exec_ofMove c op s).trans ((congrArg s.answer (State.moveStep_other head other)).trans (State.answer_same _ _ rfl))
  case mcpyAlign => exact fault ((State.moveFault_mcpy is).trans (if_pos bad))
  case mcpyRange =>
    obtain ⟨source, dest, length⟩ := aligned
    refine fault ((State.moveFault_mcpy is).trans ((if_neg (by omega)).trans (if_neg fun both => ?_)))
    obtain ⟨sourceOk, destOk⟩ := (Bool.and_eq_true _ _).mp both
    obtain past | past := past
    · exact Bool.noConfusion ((localOk_false some_ past).symm.trans sourceOk)
    · exact Bool.noConfusion ((localOk_false some_ past).symm.trans destOk)
  case passes =>
    obtain ⟨inCore, fromScratch, toScratch, stream⟩ := State.moveStep_passes head ok
    have row {op : MoveOp} {t : State} (is : e.op = op) (comes : s.moveStep c e.op = t) (queue : t.pending = s.pending) :
        exec (Instr.ofMove c op) s = .next t := by
      rw [exec_ofMove, ← is, comes]
      exact State.answer_same _ _ queue
    obtain ⟨j, lm, moved⟩ := State.moveInCore_clean head cleared
    have own (t : State) (k' : Core) : (t.setCore c k').core c = k' := (State.core_setCore _ _ _ _).trans (if_pos rfl)
    refine ⟨fun is => ?mcpy, fun is => ?mgath, fun is => ?mtrn, fun is noDouble => ?mcsr, fun is => ?mcsw, fun is room => ?mstrm, fun is full => ?full⟩
    case mcpy =>
      refine ⟨_, row is ((inCore (.inl is)).trans moved) rfl, OnlyCore.setCore _ _ _, by rw [own]; rfl, ?_⟩
      rw [own, moveLocal_mcpy _ is, moveReads_copy _ (.inl is)]
      exact (Core.lmWrite_lm _ _ _).trans (by rw [lm]; simp [k, xs, n, xd])
    case mgath =>
      refine ⟨_, row is ((inCore (.inr (.inl is))).trans moved) rfl, OnlyCore.setCore _ _ _, by rw [own]; rfl, ?_⟩
      rw [own, moveLocal_mgath _ is, moveReads_mgath _ is]
      exact (Core.writeLinesAt_lm lm _ _ _).trans (by rw [List.map_cons, List.drop_one, List.tail_cons, List.map_map]; rfl)
    case mtrn =>
      refine ⟨_, row is ((inCore (.inr (.inr is))).trans moved) rfl, OnlyCore.setCore _ _ _, by rw [own]; rfl, ?_⟩
      rw [own, moveLocal_mtrn _ is, moveReads_mtrn _ is]
      exact (Core.writeLinesAt_lm lm _ _ _).trans (by rw [List.map_map]; rfl)
    case mcsr =>
      obtain ⟨j, bad, lm, comes⟩ := State.moveFromScratch_clean head noDouble
      refine ⟨_, row is ((fromScratch is).trans comes) rfl, by rw [own]; rfl, by rw [own]; exact (Core.lmWrite_lm _ _ _).trans (by rw [lm]), fun g => ?_,
        fun g other => State.core_setCore_ne _ _ _ _ other, rfl, rfl⟩
      rw [State.cluster_setCore, State.cluster_modCluster]
      split
      · rename_i same; rw [same]
      · rfl
    case mcsw =>
      obtain ⟨j, lm, comes⟩ := State.moveToScratch_clean head cleared is
      refine ⟨_, row is ((toScratch is).trans comes) rfl, by rw [own]; rfl, by rw [own]; exact lm, ?_, fun g other => ?_,
        fun g other => State.core_setCore_ne _ _ _ _ other, rfl, rfl⟩
      · rw [State.cluster_setCore, State.cluster_modCluster, if_pos rfl]; rfl
      · rw [State.cluster_setCore, State.cluster_modCluster, if_neg other]
    case mstrm =>
      obtain ⟨j, lm, q, ctx, cls, desc, comes⟩ := State.moveStream_clean head cleared is room
      refine ⟨_, row is ((stream is).trans comes) rfl, by rw [own]; rfl, by rw [own]; exact lm, fun g other => ?_, q, ?_, ctx, cls, desc⟩
      · rw [State.engine_setCore, State.engine_modEngine, if_neg other]
      · rw [State.engine_setCore, State.engine_modEngine, if_pos rfl]
    case full => exact row is ((stream is).trans (if_pos full)) rfl

end Sys2Proof.Machine
end

section
/-! PROOFS. ALLOC, FREE, REGION and WINDOW, here or at another member (R79 to R81, R198, R199, R298, R407). -/

namespace Sys2Proof.Machine

/-! ### What REGION does for a context (R198, R199, R298) -/

/-- The regions of partition `p` become `rs`, where the requests that wait keep the tables that they came under (R198). -/
def State.withRegions (s : State) (p : Nat) (rs : List Region) : State :=
  (s.keepTables p).modPart p fun q => { q with regions := rs }

/-- The region that REGION change puts in the place of `g`. -/
def changedRegion (a : List Word64) (n : Nat) (g : Region) : Region :=
  { regionOf a n with refill := g.refill, suspect := g.suspect, degraded := g.degraded }

/-- What REGION install does for context `n` by the argument words `a`. -/
def State.installRegion (s : State) (n : Nat) (a : List Word64) : Did :=
  let p := (s.ctx n).part
  let q := s.part p
  if !q.regionFits (regionOf a n) (regionClear a) q.regions then (Dt.regionCheck, 0, s)
  else if 256 ≤ q.regions.length then (Dt.regionFull, 0, s)
  else (0, 0, (s.keepTables p).modPart p fun q => { q with regions := q.regions ++ [regionOf a n] })

/-- What REGION change does. -/
def State.changeRegion (s : State) (n : Nat) (a : List Word64) : Did :=
  let p := (s.ctx n).part
  let q := s.part p
  match s.ownRegion n a with
  | .error d => (d, 0, s)
  | .ok g =>
    if !q.regionFits (changedRegion a n g) (regionClear a) (q.regions.filter fun x => x ≠ g) then (Dt.regionCheck, 0, s)
    else (0, 0, ((s.keepTables p).modPart p fun q => { q with
      regions := q.regions.map fun x => if x = g then changedRegion a n g else x }).uncache p g.base g.length)

/-- What REGION remove does. -/
def State.removeRegion (s : State) (n : Nat) (a : List Word64) : Did :=
  let p := (s.ctx n).part
  match s.ownRegion n a with
  | .error d => (d, 0, s)
  | .ok g =>
    (0, 0, ((s.keepTables p).modPart p fun q => { q with regions := q.regions.filter fun x => x ≠ g }).uncache p g.base g.length)

theorem State.regionInstall_eq (s : State) (src : CmdSource) : s.regionInstall src = s.regionCmd src 0 State.installRegion := rfl
theorem State.regionChange_eq (s : State) (src : CmdSource) : s.regionChange src = s.regionCmd src 1 State.changeRegion := rfl
theorem State.regionRemove_eq (s : State) (src : CmdSource) : s.regionRemove src = s.regionCmd src 2 State.removeRegion := rfl

theorem State.part_keepTables (s : State) (p q : Nat) : (s.keepTables p).part q = s.part q := by
  unfold State.keepTables
  dsimp only
  split <;> rfl

/-- A change of the regions that depends on those that stand is the change to what they become. -/
theorem State.modPart_regions (s : State) (p : Nat) (f : List Region → List Region) :
    ((s.keepTables p).modPart p fun q => { q with regions := f q.regions }) = s.withRegions p (f (s.part p).regions) := by
  have same := s.part_keepTables p p
  unfold State.withRegions State.modPart
  rw [same]

section Region
variable {s : State} {n : Nat} {a : List Word64}

theorem State.installRegion_unfit
    (unfit : (s.part (s.ctx n).part).regionFits (regionOf a n) (regionClear a) (s.part (s.ctx n).part).regions = false) :
    s.installRegion n a = (Dt.regionCheck, 0, s) := if_pos (by simp [unfit])

theorem State.installRegion_full
    (fits : (s.part (s.ctx n).part).regionFits (regionOf a n) (regionClear a) (s.part (s.ctx n).part).regions = true)
    (full : 256 ≤ (s.part (s.ctx n).part).regions.length) :
    s.installRegion n a = (Dt.regionFull, 0, s) := (if_neg (by simp [fits])).trans (if_pos full)

theorem State.installRegion_ok
    (fits : (s.part (s.ctx n).part).regionFits (regionOf a n) (regionClear a) (s.part (s.ctx n).part).regions = true)
    (room : (s.part (s.ctx n).part).regions.length < 256) :
    s.installRegion n a = (0, 0, s.withRegions (s.ctx n).part ((s.part (s.ctx n).part).regions ++ [regionOf a n])) := by
  rw [← s.modPart_regions (s.ctx n).part fun rs => rs ++ [regionOf a n]]
  exact (if_neg (by simp [fits])).trans (if_neg (Nat.not_le.mpr room))

theorem State.ownRegion_none
    (none : ((s.part (s.ctx n).part).regions.find? fun g => decide (g.base = bits (argAt a 3) 39 0)) = none) :
    s.ownRegion n a = .error Dt.regionCheck := by
  unfold State.ownRegion
  simp only [none]

variable {g : Region}

theorem State.ownRegion_found
    (found : ((s.part (s.ctx n).part).regions.find? fun g => decide (g.base = bits (argAt a 3) 39 0)) = some g) :
    s.ownRegion n a = if g.owner = n then .ok g else .error Dt.notOwner := by
  unfold State.ownRegion
  simp only [found]

theorem State.changeRegion_refused {d : Nat} (why : s.ownRegion n a = .error d) : s.changeRegion n a = (d, 0, s) := by
  simp only [State.changeRegion, why]

theorem State.removeRegion_refused {d : Nat} (why : s.ownRegion n a = .error d) : s.removeRegion n a = (d, 0, s) := by
  simp only [State.removeRegion, why]

variable (owns : s.ownRegion n a = .ok g)
include owns

theorem State.removeRegion_ok : s.removeRegion n a =
    (0, 0, (s.withRegions (s.ctx n).part ((s.part (s.ctx n).part).regions.filter fun x => x ≠ g)).uncache (s.ctx n).part g.base g.length) := by
  rw [← s.modPart_regions (s.ctx n).part fun rs => rs.filter fun x => x ≠ g]
  simp only [State.removeRegion, owns]

theorem State.changeRegion_unfit
    (unfit : (s.part (s.ctx n).part).regionFits (changedRegion a n g) (regionClear a)
      ((s.part (s.ctx n).part).regions.filter fun x => x ≠ g) = false) :
    s.changeRegion n a = (Dt.regionCheck, 0, s) := by
  simp only [State.changeRegion, owns]
  exact if_pos (by rw [unfit]; decide)

theorem State.changeRegion_ok
    (fits : (s.part (s.ctx n).part).regionFits (changedRegion a n g) (regionClear a)
      ((s.part (s.ctx n).part).regions.filter fun x => x ≠ g) = true) :
    s.changeRegion n a = (0, 0, (s.withRegions (s.ctx n).part
      ((s.part (s.ctx n).part).regions.map fun x => if x = g then changedRegion a n g else x)).uncache (s.ctx n).part g.base g.length) := by
  rw [← s.modPart_regions (s.ctx n).part fun rs => rs.map fun x => if x = g then changedRegion a n g else x]
  simp only [State.changeRegion, owns]
  exact if_neg (by rw [fits]; decide)

end Region

/-! ### What a region that passes R199 is like -/

theorem meet_eq_false {a n b m : Nat} (apart : meet a n b m = false) : b + m ≤ a ∨ a + n ≤ b := by
  simp only [meet, Bool.and_eq_false_iff, decide_eq_false_iff_not, Nat.not_lt] at apart
  exact apart

theorem Layout.inSegment_true {l : Layout} {base n : Nat} (inside : l.inSegment base n = true) :
    ∃ g, l.segment base = some g ∧ base + n ≤ segStart g + l.segPages g * 4096 := by
  unfold Layout.inSegment at inside
  split at inside
  case h_1 g found => exact ⟨g, found, of_decide_eq_true inside⟩
  case h_2 => cases inside

theorem Layout.apart_true {l : Layout} {a b n i : Nat} (apart : l.apart a b n = true) (page : i < n / 4096) :
    ∃ x y, l.place (a + i * 4096) = some x ∧ l.place (b + i * 4096) = some y ∧ x.1 / 32 ≠ y.1 / 32 := by
  have at_page := List.all_eq_true.mp apart i (List.mem_range.mpr page)
  split at at_page
  case h_1 x y hx hy => exact ⟨x, y, hx, hy, of_decide_eq_true at_page⟩
  case h_2 => cases at_page

/-- A range that meets none of the ranges of some regions lies clear of each. -/
theorem apart_of_not_any_meet {base n : Nat} {others : List Region}
    (none : (others.any fun o => o.ranges.any fun x => meet base n x.1 x.2) = false) :
    ∀ o ∈ others, ∀ x ∈ o.ranges, base + n ≤ x.1 ∨ x.1 + x.2 ≤ base := by
  intro o listed x range
  simp only [List.any_eq_false, Bool.not_eq_true] at none
  exact (meet_eq_false (none o listed x range)).symm

theorem Region.ranges_plain {r : Region} (plain : r.mirror = false) : r.ranges = [(r.base, r.length)] := by
  simp [Region.ranges, plain]

theorem Region.ranges_mirror {r : Region} (mirror : r.mirror = true) : r.ranges = [(r.base, r.length), (r.mbase, r.length)] := by
  simp [Region.ranges, mirror]

/-- What every region that passes R199 is like. -/
theorem Partition.regionFits_base {q : Partition} {r : Region} {clear : Bool} {others : List Region} (fits : q.regionFits r clear others = true) :
    clear = true ∧ (r.base % 4096 = 0 ∧ r.length % 4096 = 0 ∧ r.length ≠ 0) ∧ q.lay.inSegment r.base r.length = true ∧
      (others.any fun o => o.ranges.any fun x => meet r.base r.length x.1 x.2) = false ∧ (r.cache = true ∨ r.shared = true → r.ro = true) := by
  simp only [Partition.regionFits, Bool.and_eq_true, decide_eq_true_eq, Bool.not_eq_true'] at fits
  obtain ⟨⟨⟨⟨⟨clear, pages⟩, inside⟩, apart⟩, ro⟩, -⟩ := fits
  refine ⟨clear, pages, inside, apart, fun cached => ?_⟩
  have some : (r.cache || r.shared) = true := Bool.or_eq_true_iff.mpr cached
  simpa [some] using ro

theorem Partition.regionFits_plain {q : Partition} {r : Region} {clear : Bool} {others : List Region} (fits : q.regionFits r clear others = true)
    (plain : r.mirror = false) : r.mbase = 0 := by
  simp only [Partition.regionFits, Bool.and_eq_true, plain, Bool.false_eq_true, if_false, decide_eq_true_eq] at fits
  exact fits.2

theorem Partition.regionFits_mirror {q : Partition} {r : Region} {clear : Bool} {others : List Region} (fits : q.regionFits r clear others = true)
    (mirror : r.mirror = true) :
    r.mbase % 4096 = 0 ∧ q.lay.segment r.mbase = q.lay.segment r.base ∧ meet r.base r.length r.mbase r.length = false ∧
      (others.any fun o => o.ranges.any fun x => meet r.mbase r.length x.1 x.2) = false ∧ q.lay.apart r.base r.mbase r.length = true := by
  simp only [Partition.regionFits, Bool.and_eq_true, mirror, if_true, decide_eq_true_eq, Bool.not_eq_true', beq_iff_eq] at fits
  obtain ⟨-, ⟨⟨⟨⟨aligned, segment⟩, -⟩, copies⟩, apart⟩, otherStacks⟩ := fits
  exact ⟨aligned, segment, copies, apart, otherStacks⟩

/-- No range of a region that passes R199 meets a range of the regions beside it. -/
theorem Partition.regionFits_apart {q : Partition} {r : Region} {clear : Bool} {others : List Region} (fits : q.regionFits r clear others = true) :
    ∀ o ∈ others, ∀ x ∈ o.ranges, ∀ y ∈ r.ranges, y.1 + y.2 ≤ x.1 ∨ x.1 + x.2 ≤ y.1 := by
  intro o listed x range y mine
  obtain ⟨-, -, -, primary, -⟩ := Partition.regionFits_base fits
  have first := apart_of_not_any_meet primary o listed x range
  cases mirror : r.mirror with
  | false =>
    rw [Region.ranges_plain mirror, List.mem_singleton] at mine
    subst mine
    exact first
  | true =>
    obtain ⟨-, -, -, secondary, -⟩ := Partition.regionFits_mirror fits mirror
    rw [Region.ranges_mirror mirror, List.mem_pair] at mine
    obtain rfl | rfl := mine
    · exact first
    · exact apart_of_not_any_meet secondary o listed x range

/-- Settles O54: each row runs `State.onMember` with what its operation does for a context, and those operations have an equation per case. -/
theorem commandsThatActOnAnotherMember : Obligations.CommandsThatActOnAnotherMember := by
  unfold Obligations.CommandsThatActOnAnotherMember
  refine fun s => ⟨onMember_row fun _ => rfl, onMember_row fun _ => rfl,
    ⟨State.installRegion, State.changeRegion, State.removeRegion, onMember_row fun _ => rfl, onMember_row fun _ => rfl, onMember_row fun _ => rfl,
      fun s n a => ?region⟩, fun q r clear others fits => ?fits,
    ⟨State.installWindow, State.removeWindow, onMember_row fun _ => rfl, onMember_row fun _ => rfl, fun s n a => ?window⟩⟩
  case region =>
    refine ⟨State.installRegion_unfit, State.installRegion_full, State.installRegion_ok, fun none => ?_, fun g found other => ?_, fun g found owner => ?_⟩
    · have why := State.ownRegion_none none
      exact ⟨State.changeRegion_refused why, State.removeRegion_refused why⟩
    · have why := (State.ownRegion_found found).trans (if_neg other)
      exact ⟨State.changeRegion_refused why, State.removeRegion_refused why⟩
    · have owns := (State.ownRegion_found found).trans (if_pos owner)
      exact ⟨State.removeRegion_ok owns, State.changeRegion_unfit owns, State.changeRegion_ok owns⟩
  case fits =>
    obtain ⟨clear, ⟨base, length, nonempty⟩, inside, -, ro⟩ := Partition.regionFits_base fits
    refine ⟨clear, base, length, nonempty, ro, Layout.inSegment_true inside, Partition.regionFits_apart fits, Partition.regionFits_plain fits,
      fun mirror => ?_⟩
    obtain ⟨aligned, segment, copies, -, otherStacks⟩ := Partition.regionFits_mirror fits mirror
    exact ⟨aligned, segment, (meet_eq_false copies).symm, fun i page => Layout.apart_true otherStacks page⟩
  case window =>
    refine ⟨fun free ok => State.installWindow_ok (by rw [free]; decide) ok, fun free why => State.installWindow_refused (by rw [free]; decide) why,
      fun w used => ⟨State.installWindow_used (by rw [used]; rfl), fun owner => State.removeWindow_owner owner used, fun other => ?_⟩⟩
    exact State.removeWindow_other fun v found => by rwa [← Option.some.inj (used.symm.trans found)]

end Sys2Proof.Machine
end

section
/-! PROOFS. What loading, running and switching do to a core: its code, its start, and its state saved and restored (R46, R77, R306, R310, R311). -/

namespace Sys2Proof.Machine

/-! ### Code of a core (R46, R306, R528) -/

/-- What a table reads after values have been written one after another. -/
theorem Tbl.get_foldl_set_zipIdx (a : Nat) (bs : List Word256) (n : Nat) (m : Tbl Word256) (i : Nat) :
    Tbl.get 0 ((bs.zipIdx n).foldl (fun m e => Tbl.set m (a + e.2) e.1) m) i =
      if a + n ≤ i ∧ i < a + n + bs.length then bs.getD (i - (a + n)) 0 else Tbl.get 0 m i := by
  induction bs generalizing n m with
  | nil => exact (if_neg fun h => by rw [List.length_nil] at h; omega).symm
  | cons b r ih =>
    rw [List.zipIdx_cons, List.foldl_cons, ih, List.length_cons, Tbl.get_set]
    by_cases first : i = a + n
    · subst first
      rw [if_neg (by omega), if_pos rfl, if_pos (by omega), Nat.sub_self, List.getD_cons_zero]
    · by_cases inside : a + (n + 1) ≤ i ∧ i < a + (n + 1) + r.length
      · rw [if_pos inside, if_pos (by omega), show i - (a + n) = i - (a + (n + 1)) + 1 by omega, List.getD_cons_succ]
      · rw [if_neg inside, if_neg first, if_neg (by omega)]

theorem Core.get_putCode (k : Core) (a : Nat) (bs : List Word256) (i : Nat) :
    Tbl.get 0 (k.putCode a bs).imem i = if a ≤ i ∧ i < a + bs.length then bs.getD (i - a) 0 else Tbl.get 0 k.imem i :=
  Tbl.get_foldl_set_zipIdx a bs 0 k.imem i

/-- While a core runs, a write of its code is refused in the header of its cluster. -/
theorem State.codeTo_running {s : State} {k : Nat} (runs : (s.core k).enginesLive = true) (p v : Nat) (b : List Byte) :
    s.codeTo k p v b =
      s.fresh.2.refuse (0x100000 + clusterOf k * 0x10000) (Config.freeBits 24 s.fresh.1).toNat Why.imem .controlProcessor := if_pos runs

theorem State.hdr_refuse (s : State) (b : Blk) (ofs why : Nat) (m : Master) :
    (s.refuse b.base ofs why m).hdr b =
      ⟨min ((if (s.hdr b).clear then 0 else (s.hdr b).refused) + 1) (2 ^ 32 - 1), ofs % 2 ^ 24, why, (masterCode m).1, (masterCode m).2, false⟩ :=
  Tbl.get_set_same _ _ _ _

/-- A refused write of code leaves the cores, and is counted with its reason. -/
theorem State.codeTo_refused {s : State} {k : Nat} (runs : (s.core k).enginesLive = true) (p v : Nat) (b : List Byte) :
    (s.codeTo k p v b).cores = s.cores ∧ ((s.codeTo k p v b).hdr (.cluster (clusterOf k))).lastWhy = Why.imem ∧
      ((s.hdr (.cluster (clusterOf k))).clear = false → (s.hdr (.cluster (clusterOf k))).refused < 2 ^ 32 - 1 →
        ((s.codeTo k p v b).hdr (.cluster (clusterOf k))).refused = (s.hdr (.cluster (clusterOf k))).refused + 1) := by
  have counted := s.fresh.2.hdr_refuse (.cluster (clusterOf k)) (Config.freeBits 24 s.fresh.1).toNat Why.imem .controlProcessor
  rw [State.codeTo_running runs]
  refine ⟨rfl, congrArg BlockHeader.lastWhy counted, fun clear below => (congrArg BlockHeader.refused counted).trans ?_⟩
  have same : s.fresh.2.hdr (.cluster (clusterOf k)) = s.hdr (.cluster (clusterOf k)) := rfl
  dsimp only
  rw [same, clear]
  exact Nat.min_eq_left below

/-! ### The start of a core (R77, R300) -/

theorem Core.get_startRun_x (k : Core) (y : Context) (m : Nat) (first : Bool) (cls : BitVec 3) (r : RunArgs) (seq v i : Nat) :
    Tbl.get 0 (k.startRun y m first cls r seq v).x i =
      if i = 1 then r.arg else if i = 2 then BitVec.ofNat 64 y.constBase else if i = 3 then BitVec.ofNat 64 seq else 0 := by
  have writes : (k.startRun y m first cls r seq v).x =
      Tbl.set (Tbl.set (Tbl.set [] 1 r.arg) 2 (BitVec.ofNat 64 y.constBase)) 3 (BitVec.ofNat 64 seq) := rfl
  rw [writes, Tbl.get_set, Tbl.get_set, Tbl.get_set, Tbl.get_nil]
  by_cases three : i = 3
  · simp [three]
  · rw [if_neg three, if_neg three]
    by_cases two : i = 2
    · simp [two]
    · simp [two]

theorem Core.startRun_imem (k : Core) (y : Context) (m : Nat) (first : Bool) (cls : BitVec 3) (r : RunArgs) (seq v : Nat) :
    (k.startRun y m first cls r seq v).imem = k.imem := by
  cases first <;> rfl

/-! ### A core's state saved and restored (R310, R311) -/

/-- What a table lists after one entry has been written. -/
theorem Tbl.find_set {α : Type} (t : Tbl α) (k i : Nat) (v : α) : Tbl.find (Tbl.set t k v) i = if i = k then some v else Tbl.find t i := by
  induction t with
  | nil => simp [Tbl.set, Tbl.find, eq_comm]
  | cons e r ih =>
    obtain ⟨j, w⟩ := e
    rw [Tbl.set]
    split
    case isTrue => simp only [Tbl.find, eq_comm (a := k)]
    case isFalse =>
      split
      case isTrue same =>
        subst same
        by_cases it : i = j
        · simp [Tbl.find, it]
        · simp [Tbl.find, it, Ne.symm it]
      case isFalse other =>
        by_cases it : j = i
        · subst it
          simp [Tbl.find, other]
        · simp [Tbl.find, it, ih]

/-- What of a state says what a switched-out core goes on with: the cores, the partitions, and of context `m` its seed and what it has saved of
virtual core `v`. -/
def State.savedView (m v : Nat) (s : State) : Tbl Core × Tbl Partition × BitVec 64 × Option CoreSave :=
  (s.cores, s.parts, (s.ctx m).seed, Tbl.find (s.ctx m).saved v)

section Save
variable {m v : Nat}

/-- A change of a context that leaves its seed and its saved cores. -/
theorem State.savedView_modCtx (s : State) (n : Nat) {f : Context → Context} (seed : ∀ x, (f x).seed = x.seed) (saved : ∀ x, (f x).saved = x.saved) :
    (s.modCtx n f).savedView m v = s.savedView m v := by
  unfold State.savedView
  rw [State.ctx_modCtx]
  split
  case isTrue same => subst same; rw [seed, saved]; rfl
  case isFalse => rfl

theorem State.savedView_hotWriteback (s : State) (n : Nat) : (s.hotWriteback n).savedView m v = s.savedView m v := by
  unfold State.hotWriteback
  dsimp only
  split <;> rfl

/-- What a cluster that is saved keeps of one stream engine, on position `idx` of its partition, goes to the contexts of its streams. -/
def State.saveEngine (s : State) (keeps : Nat → Bool) (idx cl j : Nat) : State :=
  let e := 4 * cl + j
  let s := (s.engine e).held.foldl (fun s t =>
    if keeps t.ctx then s.modCtx t.ctx fun c => { c with savedStreams := c.savedStreams ++ [(4 * idx + j, { t with ready := true, prq := none })] }
    else s) s
  let s := (s.engine e).queue.foldl (fun s q =>
    if keeps q.ctx then s.modCtx q.ctx fun c => { c with savedDescs := c.savedDescs ++ [(4 * idx + j, q)] } else s) s
  s.modEngine e fun g => { g with suspended := [], active := [], queue := [], order := [] }

theorem State.savedView_saveEngine (s : State) (keeps : Nat → Bool) (idx cl j : Nat) :
    (s.saveEngine keeps idx cl j).savedView m v = s.savedView m v := by
  refine (foldl_keeps (State.savedView m v) (fun t d => ?_) _ _).trans (foldl_keeps (State.savedView m v) (fun t u => ?_) _ _)
  · split
    · exact State.savedView_modCtx _ _ (fun _ => rfl) fun _ => rfl
    · rfl
  · split
    · exact State.savedView_modCtx _ _ (fun _ => rfl) fun _ => rfl
    · rfl

/-- What is kept of core `k` of a cluster goes to its context, as virtual core `base + k`. -/
def State.saveCore (s : State) (keeps : Nat → Bool) (base cl k : Nat) : State :=
  if keeps (s.core (4 * cl + k)).ctx then
    s.modCtx (s.core (4 * cl + k)).ctx fun c => { c with saved := Tbl.set c.saved (base + k) ⟨(s.core (4 * cl + k)).stateOnly⟩ }
  else s

/-- The scratch of a cluster goes to the context that it runs. -/
def State.saveScratch (s : State) (keeps : Nat → Bool) (owner : Option Nat) (idx cl : Nat) : State :=
  match owner with
  | some n => if keeps n then s.modCtx n fun c => { c with savedScratch := Tbl.set c.savedScratch idx (s.cluster cl).scratch } else s
  | none => s

theorem State.savedView_saveScratch (s : State) (keeps : Nat → Bool) (owner : Option Nat) (idx cl : Nat) :
    (s.saveScratch keeps owner idx cl).savedView m v = s.savedView m v := by
  unfold State.saveScratch
  split
  case h_1 n =>
    split
    · exact State.savedView_modCtx _ _ (fun _ => rfl) fun _ => rfl
    · rfl
  case h_2 => rfl


/-- The cores, the stream engines and the scratch of a cluster are kept one after another, and then its hot fences are written back. -/
theorem State.saveCluster_eq (s : State) (p idx cl : Nat) :
    s.saveCluster p idx cl =
      let t := (List.range 4).foldl (fun t k => t.saveCore s.keepsState ((s.part p).lay.vcoreBase + 4 * idx) cl k) s
      let u := (List.range 4).foldl (fun t j => t.saveEngine s.keepsState idx cl j) t
      let w := u.saveScratch s.keepsState (s.clusterCtx cl) idx cl
      ((w.cluster cl).hub.hot.map fun e => e.1).foldl (fun s n => s.hotWriteback n) w := rfl

theorem State.saveCore_frame (s : State) (keeps : Nat → Bool) (base cl k : Nat) :
    (s.saveCore keeps base cl k).cores = s.cores ∧ (s.saveCore keeps base cl k).parts = s.parts ∧
      ((s.saveCore keeps base cl k).ctx m).seed = (s.ctx m).seed := by
  unfold State.saveCore
  split
  case isTrue =>
    refine ⟨rfl, rfl, ?_⟩
    rw [State.ctx_modCtx]
    split
    case isTrue same => rw [same]
    case isFalse => rfl
  case isFalse => exact ⟨rfl, rfl, rfl⟩

variable {keeps : Nat → Bool} {base cl : Nat}

/-- A core of context `m` that is kept is found among what the context has saved. -/
theorem State.saveCore_own {s : State} {k : Nat} (own : (s.core (4 * cl + k)).ctx = m) (kept : keeps m = true) :
    Tbl.find ((s.saveCore keeps base cl k).ctx m).saved (base + k) = some ⟨(s.core (4 * cl + k)).stateOnly⟩ := by
  unfold State.saveCore
  rw [own, if_pos kept, State.ctx_modCtx, if_pos rfl]
  exact (Tbl.find_set _ _ _ _).trans (if_pos rfl)

/-- Keeping another core leaves what has been saved of a core. -/
theorem State.saveCore_other {s : State} {j k : Nat} (other : k ≠ j) :
    Tbl.find ((s.saveCore keeps base cl j).ctx m).saved (base + k) = Tbl.find (s.ctx m).saved (base + k) := by
  unfold State.saveCore
  split
  case isTrue =>
    rw [State.ctx_modCtx]
    split
    case isTrue same =>
      rw [same]
      exact (Tbl.find_set _ _ _ _).trans (if_neg fun same => other (Nat.add_left_cancel same))
    case isFalse => rfl
  case isFalse => rfl

/-- What a fold of `saveCore` leaves: the cores, the partitions and the seeds, and core `k` of its context is found where it has been kept or was
before. -/
theorem State.foldl_saveCore {k : Nat} {c : Core} (own : c.ctx = m) (kept : keeps m = true) (l : List Nat) (s : State) (core : s.core (4 * cl + k) = c) :
    let t := l.foldl (fun t j => t.saveCore keeps base cl j) s
    t.cores = s.cores ∧ t.parts = s.parts ∧ (t.ctx m).seed = (s.ctx m).seed ∧
      (k ∈ l ∨ Tbl.find (s.ctx m).saved (base + k) = some ⟨c.stateOnly⟩ → Tbl.find (t.ctx m).saved (base + k) = some ⟨c.stateOnly⟩) := by
  induction l generalizing s with
  | nil => exact ⟨rfl, rfl, rfl, fun h => h.resolve_left List.not_mem_nil⟩
  | cons j r ih =>
    obtain ⟨cores, parts, seed⟩ := s.saveCore_frame (m := m) keeps base cl j
    have core' : (s.saveCore keeps base cl j).core (4 * cl + k) = c := by rw [← core, State.core, cores]; rfl
    obtain ⟨cores', parts', seed', found⟩ := ih (s.saveCore keeps base cl j) core'
    refine ⟨cores'.trans cores, parts'.trans parts, seed'.trans seed, fun known => found ?_⟩
    by_cases it : k = j
    · subst it core
      exact .inr (State.saveCore_own own kept)
    · refine known.imp (fun listed => (List.mem_cons.mp listed).resolve_left it) fun before => (State.saveCore_other it).trans before

/-- Core `k` of a cluster that is saved, of a LIVE context, is found among what its context has saved; the cores stay. -/
theorem State.savedView_saveCluster {s : State} {p idx k : Nat} (below : k < 4) (some : m ≠ 0) (live : (s.ctx m).state = .live)
    (own : (s.core (4 * cl + k)).ctx = m) :
    (s.saveCluster p idx cl).savedView m ((s.part p).lay.vcoreBase + 4 * idx + k) =
      (s.cores, s.parts, (s.ctx m).seed, .some ⟨(s.core (4 * cl + k)).stateOnly⟩) := by
  have kept : s.keepsState m = true := by simp [State.keepsState, some, live]
  obtain ⟨cores, parts, seed, found⟩ := State.foldl_saveCore (base := (s.part p).lay.vcoreBase + 4 * idx) own kept (List.range 4) s rfl
  have found := found (.inl (List.mem_range.mpr below))
  rw [State.saveCluster_eq]
  refine (foldl_keeps (State.savedView m _) State.savedView_hotWriteback _ _).trans ((State.savedView_saveScratch _ _ _ _ _).trans
    ((foldl_keeps (State.savedView m _) (fun t j => State.savedView_saveEngine t _ _ _ j) _ _).trans ?_))
  rw [State.savedView, cores, parts, seed, found]

end Save

/-! ### Restoring -/

/-- The core that a cluster's restore puts in place of `old`: what context `x`, which is context `n`, has saved of virtual core `v`. -/
def Core.restored (old : Core) (x : Context) (n p v : Nat) : Core :=
  let new := match Tbl.find x.saved v with
    | some sv => sv.core
    | none => Core.reset
  { new with imem := old.imem, imemBad := old.imemBad, codeLen := old.codeLen, ctx := n, part := p, vcore := v, seed := x.seed,
             lmCorr := old.lmCorr, accCorr := old.accCorr }

/-- A restore of a cluster writes its cores first, and no core after that. -/
theorem State.restoreCluster_cores (s : State) (n p idx cl : Nat) :
    (s.restoreCluster n p idx cl).cores = ((List.range 4).foldl (fun t k =>
      t.modCore (4 * cl + k) fun old => old.restored (s.ctx n) n p ((s.part p).lay.vcoreBase + 4 * idx + k)) s).cores := by
  unfold State.restoreCluster
  refine Eq.trans (foldl_keeps State.cores ?_ _ _) (Eq.trans (foldl_keeps State.cores ?_ _ _) rfl)
  · exact fun _ _ => rfl
  · exact fun _ _ => rfl

/-- Of a fold that changes one core after another, each listed core is changed once. -/
theorem State.core_foldl_modCore {base k : Nat} (f : Nat → Core → Core) (l : List Nat) (once : l.Nodup) (s : State) :
    (l.foldl (fun t j => t.modCore (base + j) (f j)) s).core (base + k) = if k ∈ l then f k (s.core (base + k)) else s.core (base + k) := by
  induction l generalizing s with
  | nil => exact (if_neg List.not_mem_nil).symm
  | cons j r ih =>
    obtain ⟨fresh, once⟩ := List.nodup_cons.mp once
    rw [List.foldl_cons, ih once, State.core_modCore]
    by_cases it : k = j
    · subst it
      rw [if_neg fresh, if_pos rfl, if_pos List.mem_cons_self]
    · simp only [List.mem_cons, it, false_or, Nat.add_left_cancel_iff, if_false]

theorem State.core_restoreCluster {s : State} {n p idx cl k : Nat} (below : k < 4) :
    (s.restoreCluster n p idx cl).core (4 * cl + k) =
      (s.core (4 * cl + k)).restored (s.ctx n) n p ((s.part p).lay.vcoreBase + 4 * idx + k) := by
  rw [State.core, State.restoreCluster_cores]
  exact (State.core_foldl_modCore (fun k old => old.restored (s.ctx n) n p ((s.part p).lay.vcoreBase + 4 * idx + k)) _ List.nodup_range s).trans
    (if_pos (List.mem_range.mpr below))

/-- A core of a LIVE context that is switched out and in again goes on with the state that it had. -/
theorem State.core_restore_save {s : State} {p idx cl k m : Nat} (below : k < 4) (some : m ≠ 0) (live : (s.ctx m).state = .live)
    (own : (s.core (4 * cl + k)).ctx = m) :
    ((s.saveCluster p idx cl).restoreCluster m p idx cl).core (4 * cl + k) =
      { s.core (4 * cl + k) with part := p, vcore := (s.part p).lay.vcoreBase + 4 * idx + k, seed := (s.ctx m).seed } := by
  have view := State.savedView_saveCluster (p := p) (idx := idx) below some live own
  simp only [State.savedView, Prod.mk.injEq] at view
  obtain ⟨cores, parts, seed, found⟩ := view
  have core : (s.saveCluster p idx cl).core (4 * cl + k) = s.core (4 * cl + k) := by rw [State.core, cores]; rfl
  have part : (s.saveCluster p idx cl).part p = s.part p := by rw [State.part, parts]; rfl
  rw [State.core_restoreCluster below, core, part, Core.restored, found, seed, ← own]
  rfl

end Sys2Proof.Machine
end

section
/-! PROOFS. LOAD_IMAGE, RUN, the rotation and the gang switch (R60, R252, R300, R306, R307, R309 to R311, R313, R314). -/

namespace Sys2Proof.Machine

/-! ### LOAD_IMAGE (R307) -/

/-- A LOAD_IMAGE of queue `q` ends with a failure of the proof load. -/
def State.failLoad (s : State) (q : Nat) (c : Cmd) (g : LoadFail) : State :=
  s.finish q c.place { status := St.refused, detail := g.code, result := [BitVec.ofNat 64 g.member, BitVec.ofNat 64 g.need, BitVec.ofNat 64 g.have_] }

/-- The image `im` of digest `digest`, which has passed the proof load of context `n`, whose record is `x`, is loaded on the members of `f`, here or by order. -/
def State.loadMembers (s : State) (x : Context) (n : Nat) (f : Forme) (im : List Byte) (digest : BitVec 384) : State :=
  let v := s.modCtx n fun c => { c with fenceQuota := (imageResources im).fences }
  let w := f.members.foldl (fun s e =>
    if e.2.fab = s.fabAddr then s.loadMember x.forme x.job e.1 e.2.part im digest
    else s.send (.memberOrder ⟨x.forme, x.job, e.1, 0x10, [], im, 0⟩)) v
  w.modJob x.forme x.job fun j => { j with digest := some digest }

/-- What LOAD_IMAGE does in the state in which its command has started, for context `n`, whose record is `x`, with the image's bytes `b`. -/
def State.takeImage (s : State) (x : Context) (n q : Nat) (reply : Option (BitVec 64)) (far : FarLoad) (c : Cmd) (b : List Byte) : State :=
  if x.member ≠ 0 then s.finish q c.place { status := St.wrongQueue }
  else if !formatGood b then s.failLoad q c ⟨1, 0, 0, 0⟩
  else
    match s.openImage x.session b, s.forme x.forme with
    | some im, some f =>
      match s.proofLoad f n im (Config.sha384 im) far with
      | some g => s.failLoad q c g
      | none =>
        let z := s.loadMembers x n f im (Config.sha384 im)
        if reply.isNone ∧ f.members.any (fun e => e.2.fab != z.fabAddr) then z.ordered q c else z.okCmd q c
    | _, _ => s.failLoad q c ⟨2, 0, 0, 0⟩

section Load
variable {s : State} {q : QueueId} {reply : Option (BitVec 64)} {far : FarLoad} {c : Cmd} {b : List Byte} {x : Context} {n : Nat}

/-- With no started LOAD_IMAGE that the answer ends, the next one of the queue is taken. -/
theorem State.loadImage_starts (no : reply = none ∨ s.awaiting q (fun c => c.opc == 0x10) = none) :
    s.loadImage (.queue q reply) far = s.onBulk q 0x10 fun s c b =>
      s.takeImage (s.ctx (s.queue q).ctx) (s.queue q).ctx q reply far c b := by
  unfold State.loadImage
  cases reply with
  | none => rfl
  | some r =>
    have none := no.resolve_left (Option.some_ne_none r)
    simp only [none]
    rfl

theorem State.loadImage_answered {r : BitVec 64} (awaits : s.awaiting q (fun c => c.opc == 0x10) = some c) :
    s.loadImage (.queue q (some r)) far = s.okCmd q c := by
  simp only [State.loadImage, awaits]

theorem State.loadImage_read (no : reply = none ∨ s.awaiting q (fun c => c.opc == 0x10) = none) (takes : s.takes q 0x10 c) (read : c.bulk = some b) :
    s.loadImage (.queue q reply) far = (s.start q c).takeImage (s.ctx (s.queue q).ctx) (s.queue q).ctx q reply far c b := by
  rw [State.loadImage_starts no, State.onBulk_read takes read, State.queue_start_ctx, State.ctx_start]

theorem State.takeImage_wrongQueue {q : Nat} (away : x.member ≠ 0) :
    s.takeImage x n q reply far c b = s.finish q c.place { status := St.wrongQueue } := if_pos away

theorem State.takeImage_format {q : Nat} (anchor : x.member = 0) (bad : formatGood b = false) :
    s.takeImage x n q reply far c b = s.failLoad q c ⟨1, 0, 0, 0⟩ :=
  (if_neg (not_not.mpr anchor)).trans (if_pos (by rw [bad]; rfl))

variable (anchor : x.member = 0) (good : formatGood b = true)
include anchor good

theorem State.takeImage_sealed {q : Nat} (shut : s.openImage x.session b = none) :
    s.takeImage x n q reply far c b = s.failLoad q c ⟨2, 0, 0, 0⟩ := by
  refine (if_neg (not_not.mpr anchor)).trans ((if_neg (by rw [good]; decide)).trans ?_)
  rw [shut]

variable {im : List Byte} {f : Forme} (opens : s.openImage x.session b = some im) (forme : s.forme x.forme = some f)
include opens forme

theorem State.takeImage_fails {q : Nat} {g : LoadFail} (fails : s.proofLoad f n im (Config.sha384 im) far = some g) :
    s.takeImage x n q reply far c b = s.failLoad q c g := by
  refine (if_neg (not_not.mpr anchor)).trans ((if_neg (by rw [good]; decide)).trans ?_)
  simp only [opens, forme, fails]

variable (passes : s.proofLoad f n im (Config.sha384 im) far = none)
include passes

theorem State.takeImage_loads {q : Nat} :
    s.takeImage x n q reply far c b =
      let z := s.loadMembers x n f im (Config.sha384 im)
      if reply.isNone ∧ f.members.any (fun e => e.2.fab != z.fabAddr) then z.ordered q c else z.okCmd q c := by
  refine (if_neg (not_not.mpr anchor)).trans ((if_neg (by rw [good]; decide)).trans ?_)
  simp only [opens, forme, passes]

/-- LOAD_IMAGE ends at once where every member is here, or the answer of the other modules has come. -/
theorem State.takeImage_ok {q : Nat} (all : reply ≠ none ∨ ∀ e ∈ f.members, e.2.fab = (s.loadMembers x n f im (Config.sha384 im)).fabAddr) :
    s.takeImage x n q reply far c b = (s.loadMembers x n f im (Config.sha384 im)).okCmd q c := by
  refine (State.takeImage_loads anchor good opens forme passes).trans (if_neg fun ⟨unanswered, elsewhere⟩ => ?_)
  obtain ⟨e, member, away⟩ := List.any_eq_true.mp elsewhere
  exact all.elim (fun answered => answered (Option.isNone_iff_eq_none.mp unanswered)) fun here => bne_iff_ne.mp away (here e member)

/-- LOAD_IMAGE waits for the other modules of its members. -/
theorem State.takeImage_waits {q : Nat} (unanswered : reply = none)
    (elsewhere : ∃ e ∈ f.members, e.2.fab ≠ (s.loadMembers x n f im (Config.sha384 im)).fabAddr) :
    s.takeImage x n q reply far c b = (s.loadMembers x n f im (Config.sha384 im)).ordered q c := by
  obtain ⟨e, member, away⟩ := elsewhere
  exact (State.takeImage_loads anchor good opens forme passes).trans
    (if_pos ⟨by rw [unanswered]; rfl, List.any_eq_true.mpr ⟨e, member, bne_iff_ne.mpr away⟩⟩)

end Load

section LoadOrder
variable {s : State} {o : MemberOrder} {far : FarLoad} {f : Forme} (opc : o.opc = 0x10) (forme : s.forme o.forme = some f)
include opc forme

theorem State.loadImage_order {r : MemberRec} (member : Tbl.find f.members o.member = some r) :
    s.loadImage (.order o) far =
      (s.loadMember o.forme o.job o.member r.part o.bulk (Config.sha384 o.bulk)).send (.orderDone o.forme o.job o.member 0x10 0 0) := by
  refine (if_neg (not_not.mpr opc)).trans ?_
  simp only [forme, Option.bind_some, member]

theorem State.loadImage_order_none (member : Tbl.find f.members o.member = none) :
    s.loadImage (.order o) far = s.send (.orderDone o.forme o.job o.member 0x10 Dt.badMember 0) := by
  refine (if_neg (not_not.mpr opc)).trans ?_
  simp only [forme, Option.bind_some, member]

end LoadOrder

/-! ### RUN (R300, R313) -/

/-- A forme that is not frozen and does not switch holds back no RUN. -/
theorem Forme.not_held {f : Forme} (free : f.frozen = false) (still : f.switching = none) : ¬ (f.frozen = true ∨ f.switching.isSome = true) := by
  rw [free, still]
  decide

/-- Whether a RUN of job `job` of forme `f` on the cores `cores` and on `remote` waits for an earlier RUN. -/
def State.runWaits (s : State) (f : Forme) (job : Nat) (cores : List Nat) (remote : List (Nat × Nat)) : Bool :=
  (cores.any fun k => (s.core k).busy) || (s.queues.any fun e => e.2.cmds.any fun d => match d.run with
    | some u => decide (u.forme = f.id ∧ u.job = job) && u.remote.any fun v => remote.contains v
    | none => false)

/-- What a RUN notes of itself: its program of job `job` on `cores` and `remote`, for context `x`. -/
def State.runInfo (s : State) (f : Forme) (x : Context) (seq : Nat) (r : RunArgs) (cores : List Nat) (remote : List (Nat × Nat)) : RunInfo :=
  let im := (s.part x.part).residency
  ⟨f.id, x.job, seq, cores, remote, r.deadline, decide (r.deadline ≠ 0) && r.fallbackOk && im.any fun m => m.hasFb && decide (m.layers ≠ 0),
    (im.map fun m => (s.fence m.progressFence).value).getD 0⟩

/-- The command at `place` of queue `q` has become the RUN `info` of context `n`, whose cores start, here or by order. -/
def State.runStarted (s : State) (q : Nat) (c : Cmd) (n : Nat) (f : Forme) (info : RunInfo) (r : RunArgs) : State :=
  let a := (s.modCmd q c.place fun d => { d with run := some info, energy0 := s.energies (distinct (n :: s.runCtxs f info.job r)) }).modJob f.id
    info.job fun j => { j with runSeq := info.seq }
  let b := (s.membersHere f).foldl (fun s e => s.startMember f.id info.job e.1 e.2.part r info.seq) a
  (distinct (info.remote.map fun e => e.1)).foldl (fun s m => s.send (.memberOrder ⟨f.id, info.job, m, 0x11, c.words.drop 5, [], info.seq⟩)) b

theorem State.queues_startMember (s : State) (id job m p : Nat) (r : RunArgs) (seq : Nat) : (s.startMember id job m p r seq).queues = s.queues := by
  unfold State.startMember
  split
  case h_1 =>
    refine Eq.trans rfl (foldl_keeps State.queues ?_ _ s)
    exact fun _ _ => rfl
  case h_2 => rfl

/-- Starting a RUN leaves the queues but for what its own command notes. -/
theorem State.queues_runStarted (s : State) (q : Nat) (c : Cmd) (n : Nat) (f : Forme) (info : RunInfo) (r : RunArgs) :
    (s.runStarted q c n f info r).queues =
      (s.modCmd q c.place fun d => { d with run := some info, energy0 := s.energies (distinct (n :: s.runCtxs f info.job r)) }).queues := by
  refine Eq.trans (foldl_keeps State.queues ?_ _ _) (foldl_keeps State.queues ?_ _ _)
  · exact fun _ _ => rfl
  · exact fun t e => State.queues_startMember t _ _ _ _ _ _

/-- A changed command is found at its place as it has become. -/
theorem State.find_modCmd (s : State) (q place : Nat) {g : Cmd → Cmd} (stays : ∀ d, (g d).place = d.place) :
    ((s.modCmd q place g).queue q).cmds.find? (fun d => d.place == place) =
      ((s.queue q).cmds.find? fun d => d.place == place).map g := by
  unfold State.modCmd
  rw [State.queue_modQueue, if_pos rfl]
  induction (s.queue q).cmds with
  | nil => rfl
  | cons d r ih =>
    rw [List.map_cons, List.find?_cons, List.find?_cons]
    by_cases here : d.place = place
    · simp only [here, if_true, stays, beq_self_eq_true, Option.map_some]
    · simp only [here, if_false, beq_eq_false_iff_ne.mpr here]
      exact ih

/-- The command that starts stands in its queue. -/
theorem State.exists_find_start {s : State} {q opc : Nat} {c : Cmd} (takes : s.takes q opc c) :
    ∃ d, ((s.start q c).queue q).cmds.find? (fun d => d.place == c.place) = some d := by
  obtain ⟨-, -, -, listed, -⟩ := State.next_startable takes
  have stands : ((s.queue q).cmds.find? fun d => d.place == c.place).isSome = true :=
    List.find?_isSome.mpr ⟨c, listed, beq_self_eq_true c.place⟩
  obtain ⟨d, found⟩ := Option.isSome_iff_exists.mp stands
  unfold State.start
  dsimp only
  rw [State.find_modCmd]
  · exact ⟨_, by rw [found]; rfl⟩
  · exact fun _ => rfl

section Run
variable {s : State} {q : QueueId} {reply : Option (BitVec 64)} {far : List (Nat × Nat × Nat)} {c : Cmd} {f : Forme} {j : Job}
  (takes : s.takes q 0x11 c)

theorem State.run_none (none : s.takesNone q 0x11) : s.run (.queue q reply) far = s := by
  have none : (s.next q fun c => c.opc == 0x11) = .none := none
  simp only [State.run, none]

include takes

/-- RUN of a job that is known here, by its checks in their order. -/
theorem State.run_takes (forme : s.forme (s.ctx (s.queue q).ctx).forme = some f)
    (job : s.job (s.ctx (s.queue q).ctx).forme (s.ctx (s.queue q).ctx).job = some j) :
    s.run (.queue q reply) far =
      let n := (s.queue q).ctx
      let x := s.ctx n
      let r := runArgs (c.words.drop 5)
      let ranges := s.coresHere f x.job ++ far.map fun e => e.2
      let cores := s.runCores f x.job r
      let remote := farCores far r
      if j.digest.isNone then (s.start q c).refuseCmd q c Dt.noImage
      else if !coveredBy ranges ranges.length r.first r.count then (s.start q c).refuseCmd q c Dt.badMember
      else if r.deadline ≠ 0 ∧ !s.isMaster f then (s.start q c).refuseCmd q c Dt.notMaster
      else if f.frozen ∨ f.switching.isSome then s
      else if f.running ≠ some x.job then s.reschedule f.id []
      else if s.runWaits f x.job cores remote then s
      else
        let v := (s.start q c).runStarted q c n f (s.runInfo f x (j.runSeq + 1) r cores remote) r
        match (v.queue q).cmds.find? fun d => d.place == c.place with
        | some d => v.endRun q d
        | none => v := by
  have takes : (s.next q fun c => c.opc == 0x11) = some c := takes
  unfold State.run
  dsimp only
  rw [takes, forme, job]
  simp only [State.runWaits, Bool.or_eq_true]
  rfl

variable (forme : s.forme (s.ctx (s.queue q).ctx).forme = some f) (job : s.job (s.ctx (s.queue q).ctx).forme (s.ctx (s.queue q).ctx).job = some j)
include forme job

theorem State.run_noImage (unloaded : j.digest = none) : s.run (.queue q reply) far = (s.start q c).refuseCmd q c Dt.noImage :=
  (State.run_takes takes forme job).trans (if_pos (by rw [unloaded]; rfl))

variable (loaded : j.digest ≠ none)
include loaded

/-- The virtual cores of a RUN are not all those of members on which the job holds a context. -/
theorem State.run_uncovered
    (uncovered : coveredBy (s.coresHere f (s.ctx (s.queue q).ctx).job ++ far.map fun e => e.2)
      (s.coresHere f (s.ctx (s.queue q).ctx).job ++ far.map fun e => e.2).length (runArgs (c.words.drop 5)).first (runArgs (c.words.drop 5)).count = false) :
    s.run (.queue q reply) far = (s.start q c).refuseCmd q c Dt.badMember :=
  (State.run_takes takes forme job).trans ((if_neg (by rwa [Option.isNone_iff_eq_none])).trans (if_pos (by rw [uncovered]; rfl)))

variable (covered : coveredBy (s.coresHere f (s.ctx (s.queue q).ctx).job ++ far.map fun e => e.2)
  (s.coresHere f (s.ctx (s.queue q).ctx).job ++ far.map fun e => e.2).length (runArgs (c.words.drop 5)).first (runArgs (c.words.drop 5)).count = true)
include covered

theorem State.run_notMaster (deadline : (runArgs (c.words.drop 5)).deadline ≠ 0) (other : s.isMaster f = false) :
    s.run (.queue q reply) far = (s.start q c).refuseCmd q c Dt.notMaster :=
  (State.run_takes takes forme job).trans ((if_neg (by rwa [Option.isNone_iff_eq_none])).trans ((if_neg (by rw [covered]; decide)).trans
    (if_pos ⟨deadline, by rw [other]; rfl⟩)))

variable (may : (runArgs (c.words.drop 5)).deadline = 0 ∨ s.isMaster f = true)
include may

/-- A RUN that passes its checks. -/
theorem State.run_passes :
    s.run (.queue q reply) far =
      let n := (s.queue q).ctx
      let x := s.ctx n
      let r := runArgs (c.words.drop 5)
      let cores := s.runCores f x.job r
      let remote := farCores far r
      if f.frozen ∨ f.switching.isSome then s
      else if f.running ≠ some x.job then s.reschedule f.id []
      else if s.runWaits f x.job cores remote then s
      else
        let v := (s.start q c).runStarted q c n f (s.runInfo f x (j.runSeq + 1) r cores remote) r
        match (v.queue q).cmds.find? fun d => d.place == c.place with
        | some d => v.endRun q d
        | none => v := by
  refine (State.run_takes takes forme job).trans ((if_neg (by rwa [Option.isNone_iff_eq_none])).trans ((if_neg (by rw [covered]; decide)).trans
    (if_neg fun ⟨deadline, other⟩ => ?_)))
  exact may.elim deadline fun master => by rw [master] at other; cases other

/-- A RUN waits while its forme is frozen or switches. -/
theorem State.run_held (held : f.frozen = true ∨ f.switching ≠ none) : s.run (.queue q reply) far = s :=
  (State.run_passes takes forme job loaded covered may).trans (if_pos (held.imp_right Option.isSome_iff_ne_none.mpr))

variable (free : f.frozen = false) (still : f.switching = none)
include free still

/-- A RUN whose job does not run on the forme makes the scheduler choose again. -/
theorem State.run_notRunning (other : f.running ≠ some (s.ctx (s.queue q).ctx).job) : s.run (.queue q reply) far = s.reschedule f.id [] :=
  (State.run_passes takes forme job loaded covered may).trans ((if_neg (Forme.not_held free still)).trans (if_pos other))

variable (running : f.running = some (s.ctx (s.queue q).ctx).job)
include running

theorem State.run_waits (waits : s.runWaits f (s.ctx (s.queue q).ctx).job (s.runCores f (s.ctx (s.queue q).ctx).job (runArgs (c.words.drop 5)))
    (farCores far (runArgs (c.words.drop 5))) = true) : s.run (.queue q reply) far = s :=
  (State.run_passes takes forme job loaded covered may).trans ((if_neg (Forme.not_held free still)).trans ((if_neg (not_not.mpr running)).trans
    (if_pos waits)))

/-- A RUN that starts notes its program in its command, and ends with it if no core has started. -/
theorem State.run_starts (ready : s.runWaits f (s.ctx (s.queue q).ctx).job (s.runCores f (s.ctx (s.queue q).ctx).job (runArgs (c.words.drop 5)))
    (farCores far (runArgs (c.words.drop 5))) = false) :
    let n := (s.queue q).ctx
    let x := s.ctx n
    let r := runArgs (c.words.drop 5)
    let info := s.runInfo f x (j.runSeq + 1) r (s.runCores f x.job r) (farCores far r)
    let v := (s.start q c).runStarted q c n f info r
    ∃ d, ((v.queue q).cmds.find? fun d => d.place == c.place) = some d ∧ d.run = some info ∧ s.run (.queue q reply) far = v.endRun q d := by
  intro n x r info v
  obtain ⟨d, found⟩ := State.exists_find_start takes
  have queue := congrArg (fun t => Tbl.get Queue.reset t q) (State.queues_runStarted (s.start q c) q c n f info r)
  have noted := State.find_modCmd (s.start q c) q c.place (g := fun d => { d with
    run := some info, energy0 := (s.start q c).energies (distinct (n :: (s.start q c).runCtxs f info.job r)) }) fun _ => rfl
  rw [found, Option.map_some] at noted
  have noted := (congrArg (fun k : Queue => k.cmds.find? fun d => d.place == c.place) queue).trans noted
  refine ⟨_, noted, rfl, (State.run_passes takes forme job loaded covered may).trans ((if_neg (Forme.not_held free still)).trans
    ((if_neg (not_not.mpr running)).trans ((if_neg (by rw [ready]; decide)).trans ?_)))⟩
  exact (congrArg (fun o : Option Cmd => match o with
    | some d => v.endRun q d
    | none => v) noted)

end Run

section RunOrder
variable {s : State} {o : MemberOrder} {far : List (Nat × Nat × Nat)} {p : Nat} {f : Forme} (opc : o.opc = 0x11)
  (part : s.partHere o.forme o.member = some p) (forme : s.forme o.forme = some f)
include opc part forme

theorem State.run_order : s.run (.order o) far =
    if f.running ≠ some o.job ∨ (s.runOn p (runArgs o.args)).any (fun e => (s.core e.2).busy) then s
    else s.startMember o.forme o.job o.member p (runArgs o.args) o.seq := by
  unfold State.run
  simp only [part, forme, opc, ne_eq, not_true_eq_false, false_or]

theorem State.run_order_waits (waits : f.running ≠ some o.job ∨ (s.runOn p (runArgs o.args)).any (fun e => (s.core e.2).busy) = true) :
    s.run (.order o) far = s := (State.run_order opc part forme).trans (if_pos waits)

theorem State.run_order_starts (running : f.running = some o.job) (idle : (s.runOn p (runArgs o.args)).any (fun e => (s.core e.2).busy) = false) :
    s.run (.order o) far = s.startMember o.forme o.job o.member p (runArgs o.args) o.seq := by
  refine (State.run_order opc part forme).trans (if_neg ?_)
  rw [running, idle]
  simp

end RunOrder

section EndRun
variable {s : State} {q : Nat} {c : Cmd} {r : RunInfo} (run : c.run = some r)
include run

theorem State.endRun_goesOn (left : r.cores ≠ [] ∨ r.remote ≠ []) : s.endRun q c = s := by
  unfold State.endRun
  rw [run]
  refine if_neg fun none => ?_
  rw [Bool.and_eq_true, List.isEmpty_iff, List.isEmpty_iff] at none
  exact left.elim (fun here => here none.1) fun away => away none.2

theorem State.endRun_ends (cores : r.cores = []) (remote : r.remote = []) :
    s.endRun q c = (s.finish q c.place { status := St.ok, result := [BitVec.ofNat 64 r.seq] }).reschedule r.forme [] := by
  unfold State.endRun
  rw [run]
  exact if_pos (by rw [cores, remote]; rfl)

end EndRun

theorem Cmd.late_eq (c : Cmd) (s : State) :
    c.late s = decide (c.opc = 0x11 ∧ bits (c.arg 1) 63 32 ≠ 0 ∧ bits (c.arg 1) 63 32 * 1000 < s.ltime - c.fetched) := by
  have opc : bits (c.words.headD 0).toNat 7 0 = c.opc := by
    unfold Cmd.opc Cmd.word
    cases c.words <;> rfl
  unfold Cmd.late
  rw [opc]
  rfl

/-! ### The rotation (R309) -/

section Rotation
variable {s : State} {id : Nat} {far : List Nat} {f : Forme}

theorem State.quantumExpiry_none (none : s.forme id = none) : s.quantumExpiry id far = s := by
  simp only [State.quantumExpiry, none]

variable (forme : s.forme id = some f)
include forme

theorem State.quantumExpiry_idle (idle : f.running = none) : s.quantumExpiry id far = s.reschedule id far := by
  simp only [State.quantumExpiry, forme, idle]

variable {j : Nat} (running : f.running = some j)
include running

/-- The quantum of a running job ends. -/
theorem State.quantumExpiry_running : s.quantumExpiry id far =
    if !s.isMaster f ∨ f.switching.isSome ∨ f.frozen then s
    else if !s.jobReady id j far then s.reschedule id far
    else
      match s.nextReady f (some j) far with
      | none => s
      | some k => (s.advanceTo (f.quantumStart + f.quantum * s.jobShare id j * 1000000)).beginSwitch f k := by
  simp only [State.quantumExpiry, forme, running] <;> rfl

theorem State.quantumExpiry_held (held : s.isMaster f = false ∨ f.switching ≠ none ∨ f.frozen = true) : s.quantumExpiry id far = s :=
  (State.quantumExpiry_running forme running).trans
    (if_pos (held.imp (fun other => by rw [other]; rfl) (Or.imp_left Option.isSome_iff_ne_none.mpr)))

variable (master : s.isMaster f = true) (still : f.switching = none) (free : f.frozen = false)
include master still free

theorem State.quantumExpiry_acts : s.quantumExpiry id far =
    if !s.jobReady id j far then s.reschedule id far
    else
      match s.nextReady f (some j) far with
      | none => s
      | some k => (s.advanceTo (f.quantumStart + f.quantum * s.jobShare id j * 1000000)).beginSwitch f k :=
  (State.quantumExpiry_running forme running).trans (if_neg (by rw [master, still, free]; decide))

theorem State.quantumExpiry_unready (unready : s.jobReady id j far = false) : s.quantumExpiry id far = s.reschedule id far :=
  (State.quantumExpiry_acts forme running master still free).trans (if_pos (by rw [unready]; rfl))

variable (ready : s.jobReady id j far = true)
include ready

theorem State.quantumExpiry_alone (alone : s.nextReady f (some j) far = none) : s.quantumExpiry id far = s := by
  refine (State.quantumExpiry_acts forme running master still free).trans ((if_neg (by rw [ready]; decide)).trans ?_)
  rw [alone]

theorem State.quantumExpiry_switches {k : Nat} (next : s.nextReady f (some j) far = some k) :
    s.quantumExpiry id far = (s.advanceTo (f.quantumStart + f.quantum * s.jobShare id j * 1000000)).beginSwitch f k := by
  refine (State.quantumExpiry_acts forme running master still free).trans ((if_neg (by rw [ready]; decide)).trans ?_)
  rw [next]

end Rotation

/-- The next ready job is of the rotation, another one, ready, and not held by recovery. -/
theorem State.nextReady_some {s : State} {f : Forme} {j : Option Nat} {away : List Nat} {k : Nat} (next : s.nextReady f j away = some k) :
    k ∈ f.rotation ∧ some k ≠ j ∧ s.jobReady f.id k away = true ∧ s.jobHeld f.id k = false := by
  have chosen : k ∈ f.rotation ∧ (some k != j && s.jobReady f.id k away) = true := by
    unfold State.nextReady at next
    cases j with
    | none => exact ⟨List.mem_of_find?_eq_some next, List.find?_some (p := fun k => some k != none && s.jobReady f.id k away) next⟩
    | some i =>
      refine ⟨?_, List.find?_some (p := fun k => some k != some i && s.jobReady f.id k away) next⟩
      exact (List.mem_append.mp (List.mem_of_find?_eq_some next)).elim List.mem_of_mem_drop List.mem_of_mem_take
  obtain ⟨listed, good⟩ := chosen
  rw [Bool.and_eq_true, bne_iff_ne] at good
  obtain ⟨other, ready⟩ := good
  refine ⟨listed, other, ready, ?_⟩
  rw [State.jobReady, Bool.and_eq_true, Bool.not_eq_true'] at ready
  exact ready.1

/-! ### The gang switch (R310, R278) -/

section Gang
variable {s : State} {id member job p : Nat}

theorem State.gangSwitch_none (none : s.partHere id member = none) : s.gangSwitch id member job = s := by
  simp only [State.gangSwitch, none]

variable (part : s.partHere id member = some p)
include part

theorem State.gangSwitch_defers (busy : s.miniBusy p = true) :
    s.gangSwitch id member job =
      s.modChange id fun c => { c with deferrals := c.deferrals + 1, deferred := c.deferred ++ [(member, job)] } := by
  simp only [State.gangSwitch, part, busy, if_true]

theorem State.gangSwitch_stops (idle : s.miniBusy p = false) :
    s.gangSwitch id member job = (s.part p).lay.engines.foldl (fun s e => s.suspendEngine e 3)
      ((s.part p).lay.clusters.foldl (fun s c => s.stopCluster c) (s.modForme id fun f => { f with switching := some (f.switching.getD (job, [])) })) := by
  simp only [State.gangSwitch, part, idle, Bool.false_eq_true, if_false]

end Gang

/-- With the end of a gang switch of forme `id` the mini-switches that it had put off begin (R278). -/
def State.switchOnward (t : State) (id : Nat) : State := if (t.forme id).any (fun f => f.switching.isSome) then t else t.goOnMinis

section SwitchEnds
variable {s : State} {id member : Nat} {f : Forme}

/-- A SWITCH_DONE that does nothing ends no gang switch. -/
theorem State.switchEnds_same (same : s.switchDone id member = s) : s.switchEnds id member = s := by
  unfold State.switchEnds
  dsimp only
  rw [same, Bool.and_not_self]
  rfl

theorem State.switchEnds_none (none : s.forme id = none) : s.switchEnds id member = s :=
  State.switchEnds_same (by simp only [State.switchDone, none])

variable (forme : s.forme id = some f)
include forme

theorem State.switchEnds_still (still : f.switching = none) : s.switchEnds id member = s :=
  State.switchEnds_same (by simp only [State.switchDone, forme, still])

variable {e : Nat × List Nat} (switching : f.switching = some e)
include switching

/-- During a gang switch, SWITCH_DONE does what it does and then goes on. -/
theorem State.switchEnds_onward : s.switchEnds id member = (s.switchDone id member).switchOnward id := by
  have under : ((s.forme id).any fun f => f.switching.isSome) = true := by rw [forme, Option.any_some, switching]; rfl
  unfold State.switchEnds State.switchOnward
  simp only [under, Bool.true_and, Bool.not_eq_true']
  split
  case isTrue ended => exact (if_neg (by rw [ended]; decide)).symm
  case isFalse goes => exact (if_pos (Bool.not_eq_false _ ▸ goes)).symm

theorem State.switchDone_away (away : s.partOfMember f member = none) :
    s.switchDone id member = if s.isMaster f then s.memberSwitched id member else s := by
  simp only [State.switchDone, forme, switching, away]

theorem State.switchDone_here {p : Nat} (here : s.partOfMember f member = some p) :
    s.switchDone id member =
      if s.atRest p then ((s.swapMember id member e.1 p).send (.gangSwitched id member)).memberSwitched id member else s := by
  simp only [State.switchDone, forme, switching, here]

end SwitchEnds

/-- Settles O56: the rows of LOAD_IMAGE, RUN, the rotation and the gang switch have an equation per case, and a cluster's state restored is what was
saved. -/
theorem imagesRunsAndTheGangSwitch : Obligations.ImagesRunsAndTheGangSwitch := by
  unfold Obligations.ImagesRunsAndTheGangSwitch
  intro s q c
  dsimp only
  refine ⟨fun reply far none no => exec_eq_next rfl ((State.loadImage_starts no).trans (State.onBulk_none none _)) rfl,
    fun reply far takes no unread unasked => exec_eq_answer rfl ((State.loadImage_starts no).trans (State.onBulk_asks takes unread unasked _)),
    fun r far d awaits => exec_eq_answer rfl (State.loadImage_answered awaits), fun reply far b takes read no => ?load, fun o far opc => ?loadOrder,
    fun k a bs i => ⟨k.get_putCode a bs i, rfl⟩, fun k p v b runs => State.codeTo_refused runs p v b,
    fun reply far none => exec_eq_next rfl (State.run_none none) rfl, fun reply far f j takes forme job => ?run,
    fun t q c r run => ⟨State.endRun_goesOn run, State.endRun_ends run⟩, fun t => c.late_eq t, fun o far p f opc part forme => ?runOrder,
    fun k y m first cls r seq v => ?start, fun id far => ?quantum, fun f j away k => State.nextReady_some, fun id member job => ?gang,
    fun id member => ?switch, fun p idx cl k m below some live own => State.core_restore_save below some live own⟩
  case load =>
    have started (id : Nat) : (s.start q c).forme id = s.forme id := s.forme_start q id c
    have row {t : State} (is : (s.start q c).takeImage (s.ctx (s.queue q).ctx) (s.queue q).ctx q reply far c b = t) :
        exec (.loadImage (.queue q reply) far) s = s.answer t :=
      exec_eq_answer rfl ((State.loadImage_read no takes read).trans is)
    refine ⟨fun away => row (State.takeImage_wrongQueue away), fun anchor bad => row (State.takeImage_format anchor bad),
      fun anchor good shut => row (State.takeImage_sealed anchor good shut), fun im f anchor good opens forme => ⟨fun g fails =>
        row (State.takeImage_fails anchor good opens ((started _).trans forme) fails), fun passes =>
          ⟨fun all => row (State.takeImage_ok anchor good opens ((started _).trans forme) passes all),
          fun unanswered elsewhere => row (State.takeImage_waits anchor good opens ((started _).trans forme) passes unanswered elsewhere)⟩⟩⟩
  case loadOrder =>
    exact ⟨fun f r forme member => exec_eq_answer rfl (State.loadImage_order opc forme member),
      fun f forme member => exec_eq_answer rfl (State.loadImage_order_none opc forme member)⟩
  case run =>
    refine ⟨fun unloaded => exec_eq_answer rfl (State.run_noImage takes forme job unloaded),
      fun loaded uncovered => exec_eq_answer rfl (State.run_uncovered takes forme job loaded uncovered),
      fun loaded covered deadline other => exec_eq_answer rfl (State.run_notMaster takes forme job loaded covered deadline other),
      fun loaded covered may => ⟨fun held => exec_eq_next rfl (State.run_held takes forme job loaded covered may held) rfl,
        fun free still other => exec_eq_answer rfl (State.run_notRunning takes forme job loaded covered may free still other),
        fun free still running waits => exec_eq_next rfl (State.run_waits takes forme job loaded covered may free still running waits) rfl,
        fun free still running ready => ?_⟩⟩
    obtain ⟨d, found, noted, is⟩ := State.run_starts takes forme job loaded covered may free still running ready
    exact ⟨d, found, noted, exec_eq_answer rfl is⟩
  case runOrder =>
    exact ⟨fun waits => exec_eq_next rfl (State.run_order_waits opc part forme waits) rfl,
      fun running idle => exec_eq_answer rfl (State.run_order_starts opc part forme running idle)⟩
  case start =>
    refine ⟨rfl, rfl, k.get_startRun_x y m first cls r seq v, rfl, rfl, rfl, rfl, rfl, rfl, rfl, rfl, rfl, k.startRun_imem y m first cls r seq v, ?_, ?_⟩
    · rintro rfl
      exact ⟨rfl, rfl⟩
    · rintro rfl
      exact ⟨rfl, rfl⟩
  case quantum =>
    refine ⟨fun none => exec_eq_next rfl (State.quantumExpiry_none none) rfl, fun f forme =>
      ⟨fun idle => exec_eq_answer rfl (State.quantumExpiry_idle forme idle), fun j running =>
        ⟨fun held => exec_eq_next rfl (State.quantumExpiry_held forme running held) rfl, fun master still free =>
          ⟨fun unready => exec_eq_answer rfl (State.quantumExpiry_unready forme running master still free unready),
            fun ready alone => exec_eq_next rfl (State.quantumExpiry_alone forme running master still free ready alone) rfl,
            fun k ready next => exec_eq_answer rfl (State.quantumExpiry_switches forme running master still free ready next)⟩⟩⟩⟩
  case gang =>
    exact ⟨fun none => exec_eq_next rfl (State.gangSwitch_none none) rfl, fun p part busy => exec_eq_answer rfl (State.gangSwitch_defers part busy),
      fun p part idle => exec_eq_answer rfl (State.gangSwitch_stops part idle)⟩
  case switch =>
    refine ⟨fun none => exec_eq_next rfl (State.switchEnds_none none) rfl, fun f forme =>
      ⟨fun still => exec_eq_next rfl (State.switchEnds_still forme still) rfl, fun job ms p switching here => ⟨fun moves => ?_, fun rest => ?_⟩,
        fun e switching away => ⟨fun other => ?_, fun master => ?_⟩⟩⟩
    · exact exec_eq_next rfl (State.switchEnds_same ((State.switchDone_here forme switching here).trans (if_neg (by rw [moves]; decide)))) rfl
    · have done := (State.switchDone_here forme switching here).trans (if_pos rest)
      exact exec_eq_answer rfl ((State.switchEnds_onward forme switching).trans (by rw [done]; rfl))
    · exact exec_eq_next rfl (State.switchEnds_same ((State.switchDone_away forme switching away).trans (if_neg (by rw [other]; decide)))) rfl
    · have done := (State.switchDone_away forme switching away).trans (if_pos master)
      exact exec_eq_answer rfl ((State.switchEnds_onward forme switching).trans (by rw [done]; rfl))

end Sys2Proof.Machine
end
